-- ==== Sys2Proof/Word.lean ====
section
/-! DEFINITION. The 36-bit word (R14, R46), the double word, the byte, and sparse arrays as plain data. -/

namespace Sys2Proof

/-- A word is always 36 bits; bit 35 is the most significant (R14, R46). -/
abbrev Word := BitVec 36

/-- A double word: the word at the lower address is bits [35:0], the other bits [71:36] (R46). -/
abbrev DWord := BitVec 72

/-- A byte of a frame or of packed byte data (R47). -/
abbrev Byte := BitVec 8

/-- A sparse array: key and value pairs in rising key order, a key at its default value not listed.
The operations and their canonical form are in Machine/Tab.lean. -/
abbrev Tab (α : Type) := List (Nat × α)

end Sys2Proof
end

