-- ==== Sys2Proof/Syntax.lean ====
section
/-! DEFINITION. The commands of the block: one constructor per row of spec/opcode_table.json, in the table's order.
A tile or Crown instruction carries the core that issues it and the fields of its format (R111) as they stand in the
instruction word; a register access carries the core and the value; an event carries what comes with it from outside. -/

namespace Sys2Proof

/-- The cores that issue instructions: tile 0-63 (R105), Crown pair 0 and Crown pair 1 (R21). -/
inductive CoreId where
  | tile (t : Fin 64)
  | crown0
  | crown1
  deriving DecidableEq, Repr

/-- Register format of R111: fields d, a, b and the function or imm16 field. -/
structure RF where
  d : BitVec 4
  a : BitVec 4
  b : BitVec 4
  fn : BitVec 16
  deriving DecidableEq, Repr

/-- Immediate format of R111. -/
structure IF where
  d : BitVec 4
  a : BitVec 4
  imm : BitVec 20
  deriving DecidableEq, Repr

/-- Memory format of R111: d, the base code of R112 and the signed word offset. -/
structure MF where
  d : BitVec 4
  base : BitVec 4
  off : BitVec 20
  deriving DecidableEq, Repr

/-- Jump format of R111: condition and signed word offset (R113). -/
structure JF where
  cond : BitVec 4
  off : BitVec 24
  deriving DecidableEq, Repr

/-- Cell/system format of R111: d, a and the selector. -/
structure CF where
  d : BitVec 4
  a : BitVec 4
  sel : BitVec 20
  deriving DecidableEq, Repr

/-- The R/I rows of R157 and R159: the register form or the immediate form. -/
inductive RIF where
  | r (f : RF)
  | i (f : IF)
  deriving DecidableEq, Repr

/-- A frame on a ring port (R330): its body, whether the delimiter was there, and the three bytes of the tail. -/
structure RingFrame where
  body : List Byte
  delimited : Bool := true
  tail : BitVec 24 := 0
  deriving DecidableEq, Repr

/-- A task: number t of quadrant q (R198), or number t of the Crown task list (R200). -/
inductive TaskRef where
  | quad (q : Fin 4) (t : Fin 256)
  | crown (t : Fin 64)
  deriving DecidableEq, Repr

/-- What makes hold-up begin: the 12 V input (R575), a rail trip (R600) or a die temperature (R606). -/
inductive HoldupCause where
  | input12V
  | railTrip (rail : Fin 8)
  | overTemperature
  deriving DecidableEq, Repr

/-- The line memories that a scrubber visits and that a spine target serves (R23, R69): shared memory of quadrant q,
Crown memory, DRAM lines of even line number and DRAM lines of odd line number. -/
inductive MemTarget where
  | quad (q : Fin 4)
  | crown
  | dram0
  | dram1
  deriving DecidableEq, Repr

/-- A CAN frame on the bus as R454 and R455 name its parts, with the SOF stamp of R466. -/
structure CanFrame where
  ide : Bool
  fdf : Bool
  brs : Bool
  esi : Bool
  rtr : Bool
  id : BitVec 29
  dlc : BitVec 4
  data : List Byte
  deriving DecidableEq, Repr

/-- A frame of another node that a port meets (R452, R454): the frame, the cell clock of its SOF edge on RX, and the lengths in cc of the runs of
RX from that edge on, the first dominant. -/
structure CanHeard where
  frame : CanFrame
  sof : Nat
  rx : List Nat
  deriving DecidableEq, Repr

/-- How a frame that a port sent ended (R453, R459, R461 - R463): acknowledged, arbitration lost, an error of the LASTERR kind of R451 before
arbitration was won, or one after it, in the control, data or CRC field or not. rx: the lengths in cc of the runs of RX from the cell
clock in which the port drove SOF on, the first recessive; the port checks the data phase of a frame with bit rate switching by them. -/
inductive CanEnd where
  | sent (rx : List Nat)
  | lostArb
  | errorEarly (kind : BitVec 3)
  | error (kind : BitVec 3) (inBody : Bool) (rx : List Nat)
  deriving DecidableEq, Repr

/-- What a port sees in CAN_BUS_ERROR (R463): an error of its own as receiver, an error flag of another node, a protocol
exception, or an error as receiver after which it saw a dominant bit. -/
inductive CanBusEvent where
  | receiveError (kind : BitVec 3)
  | receiveErrorDominant (kind : BitVec 3)
  | errorFlagSeen
  | protocolException
  deriving DecidableEq, Repr

/-- The counters of R438, R442 and R445 that a read clears. -/
inductive FieldCounter where
  | badpkt
  | glitch (i : Fin 32)
  | tripcnt (o : Fin 16)
  deriving DecidableEq, Repr

/-- An inbound barrier packet (R434): the bits after SYNC that the link inverted on its way, whether the field side has the outbound packet that ends with it
good, the field supply in mV that the field side measured for it, and which output pins are above 12 V. Its levels and edge
record come from the field side's own state. -/
structure InPacket where
  noise : BitVec 68
  rxok : Bool
  supplyMv : Nat
  readback : BitVec 16
  deriving DecidableEq, Repr

/-- One slot of a host write TLP: the 64 data bits and the byte enables (R554). -/
structure HostSlot where
  data : BitVec 64
  enables : BitVec 8
  deriving DecidableEq, Repr

/-- A heartbeat of the pair port (R534), with what its receiver measures: by how many nanoseconds the receiver's device time is
ahead of the sender's, the round-trip delay of the port halved. -/
structure Heartbeat where
  role : BitVec 2
  epoch0 : BitVec 16
  epoch1 : BitVec 16
  time : DWord
  aheadNs : Int
  checkpoint : Word
  deriving DecidableEq, Repr

/-- What the pair port shows of the peer when a pair is formed (R530): its ACTIVE level, its HIST.CTRL.LENGI, its TIME.STAT.LOADED,
and by how many nanoseconds this module's device time is ahead of its own. -/
structure PeerView where
  level : BitVec 8
  lengi : BitVec 4
  loaded : Bool
  aheadNs : Int
  deriving DecidableEq, Repr

/-- The commands, in the order of spec/opcode_table.json. -/
inductive Instr where
  -- Move and memory (R152)
  | ld (c : CoreId) (f : MF)
  | st (c : CoreId) (f : MF)
  | ldd (c : CoreId) (f : MF)
  | std (c : CoreId) (f : MF)
  | ldi (c : CoreId) (f : IF)
  | ldh (c : CoreId) (f : RF)
  | mov (c : CoreId) (f : RF)
  | movFromSpecial (c : CoreId) (f : RF)
  | movToSpecial (c : CoreId) (f : RF)
  | movFromAcc (c : CoreId) (f : RF)
  | movToAcc (c : CoreId) (f : RF)
  | lea (c : CoreId) (f : MF)
  | push (c : CoreId) (f : RF)
  | pop (c : CoreId) (f : RF)
  | cas (c : CoreId) (f : RF)
  | stl (c : CoreId) (f : MF)
  -- Integer and fixed point (R157)
  | add (c : CoreId) (f : RIF)
  | sub (c : CoreId) (f : RIF)
  | adds (c : CoreId) (f : RIF)
  | subs (c : CoreId) (f : RIF)
  | mul (c : CoreId) (f : RF)
  | muls (c : CoreId) (f : RF)
  | mac (c : CoreId) (f : RF)
  | div (c : CoreId) (f : RF)
  | rem (c : CoreId) (f : RF)
  | neg (c : CoreId) (f : RF)
  | abs (c : CoreId) (f : RF)
  | cmp (c : CoreId) (f : RIF)
  | min (c : CoreId) (f : RIF)
  | max (c : CoreId) (f : RIF)
  | clamp (c : CoreId) (f : RF)
  -- Bit operations (R159)
  | and (c : CoreId) (f : RIF)
  | or (c : CoreId) (f : RIF)
  | xor (c : CoreId) (f : RIF)
  | not (c : CoreId) (f : RF)
  | shl (c : CoreId) (f : RF)
  | shr (c : CoreId) (f : RF)
  | sar (c : CoreId) (f : RF)
  | rot (c : CoreId) (f : RF)
  | bset (c : CoreId) (f : RF)
  | bclr (c : CoreId) (f : RF)
  | btst (c : CoreId) (f : RF)
  | bext (c : CoreId) (f : RF)
  | bins (c : CoreId) (f : RF)
  | clz (c : CoreId) (f : RF)
  | popc (c : CoreId) (f : RF)
  -- F36 (R160)
  | fadd (c : CoreId) (f : RF)
  | fsub (c : CoreId) (f : RF)
  | fmul (c : CoreId) (f : RF)
  | fdiv (c : CoreId) (f : RF)
  | fsqrt (c : CoreId) (f : RF)
  | fcmp (c : CoreId) (f : RF)
  | fcvt (c : CoreId) (f : RF)
  | ftoi (c : CoreId) (f : RF)
  | itof (c : CoreId) (f : RF)
  -- Flow (R162)
  | j (c : CoreId) (f : JF)
  | jc (c : CoreId) (f : JF)
  | call (c : CoreId) (f : JF)
  | ret (c : CoreId) (f : RF)
  | callfb (c : CoreId) (f : IF)
  | retfb (c : CoreId) (f : RF)
  | loop (c : CoreId) (f : IF)
  | trap (c : CoreId) (f : RF)
  | nop (c : CoreId) (f : RF)
  | fence (c : CoreId) (f : RF)
  -- Tasks (R166)
  | take (c : CoreId)
  | done (c : CoreId) (f : RF)
  | yield (c : CoreId) (f : RF)
  | wait (c : CoreId) (f : RF)
  | post (c : CoreId) (f : RF)
  | evwait (c : CoreId) (f : RF)
  | evwaitPoll (c : CoreId) (f : RF)
  | evwaitStart (c : CoreId) (f : RF)
  -- Images and cells (R172)
  | imgin (c : CoreId) (f : CF)
  | imgout (c : CoreId) (f : CF)
  | ior (c : CoreId) (f : CF)
  | iow (c : CoreId) (f : CF)
  -- Time and cues (R176)
  | timerd (c : CoreId) (f : RF)
  | crd (c : CoreId) (f : CF)
  | cue (c : CoreId) (f : CF)
  | cuexRead (c : CoreId) (f : CF)
  | cuexCancel (c : CoreId) (f : CF)
  -- Lanes (R179, R183)
  | lcfg (c : CoreId) (f : CF)
  | lcoef (c : CoreId) (f : CF)
  | lsp (c : CoreId) (f : CF)
  | spgrpLoad (c : CoreId) (f : CF)
  | spgrpApply (c : CoreId) (f : CF)
  | spgrpClear (c : CoreId) (f : CF)
  | lstat (c : CoreId) (f : CF)
  -- Motion (R187, R298)
  | segpush (c : CoreId) (f : CF)
  | config (c : CoreId) (f : CF)
  | enable (c : CoreId) (f : CF)
  | disable (c : CoreId) (f : CF)
  | go (c : CoreId) (f : CF)
  | stop (c : CoreId) (f : CF)
  | qstop (c : CoreId) (f : CF)
  | flush (c : CoreId) (f : CF)
  | setpos (c : CoreId) (f : CF)
  | clear (c : CoreId) (f : CF)
  | gstart (c : CoreId) (f : CF)
  | govr (c : CoreId) (f : CF)
  | gslew (c : CoreId) (f : CF)
  | axstat (c : CoreId) (f : CF)
  -- Journal (R190)
  | jbegin (c : CoreId) (f : CF)
  | jprog (c : CoreId) (f : RF)
  | jend (c : CoreId) (f : RF)
  | jquery (c : CoreId) (f : CF)
  -- Recording (R195)
  | recmark (c : CoreId) (f : CF)
  | caparm (c : CoreId) (f : CF)
  -- Privileged (R196)
  | mode (c : CoreId) (f : CF)
  | forceSet (c : CoreId) (f : CF)
  | forceRelease (c : CoreId) (f : CF)
  | forceReleaseAll (c : CoreId) (f : CF)
  | censusCopy (c : CoreId) (f : CF)
  | censusExtraCheck (c : CoreId) (f : CF)
  | ownset (c : CoreId) (f : CF)
  | classset (c : CoreId) (f : CF)
  | taskset (c : CoreId) (f : CF)
  | codeload (c : CoreId) (f : CF)
  | ringset (c : CoreId) (f : CF)
  -- Host requests: Crown pair 0 takes the entry at REQCI (R564, R566)
  | program
  | modeRequest
  | forceRequest
  | exchange
  | trapresume
  | journalDump
  | journalClear
  | historyTake
  | historyTable
  | trace
  | evrSnapshot
  | evrRead
  | safety
  | pair (p : PeerView)
  | mbxsend
  | mbxrecv
  | load
  | update
  | bufcfg
  | confirm
  -- Host accesses (R554 - R570)
  | hostReqpiWrite (v : Word)
  | hostRspciWrite (v : Word)
  | give (v : Word)
  | hostWinWrite (a : Fin 7) (v : Word)
  | hostWindowWrite (off : BitVec 30) (slots : List HostSlot) (ep : Bool)
  | hostWindowRead (off : BitVec 30)
  | pcieReset
  -- Register writes with a behaviour of their own
  | sysBlevelWrite (c : CoreId) (v : Word)
  | timeIncWrite (c : CoreId) (v : Word)
  | trrdWrite (c : CoreId) (q : Fin 4) (v : Word)
  | histTakeWrite (c : CoreId) (v : Word)
  | histCtrlWrite (c : CoreId) (v : Word)
  | ringClaimWrite (c : CoreId) (v : Word)
  | brimRstreqWrite (c : CoreId) (v : Word)
  | evrSnapGo (c : CoreId) (v : Word)
  | updConfirmGo (c : CoreId) (v : Word)
  | updWinWrite (c : CoreId) (v : Word)
  | adcCalGo (c : CoreId) (v : Word)
  | jrnlRtaskWrite (c : CoreId) (v : Word)
  | fifordWrite (c : CoreId) (p : Fin 4) (v : Word)
  | req (c : CoreId) (p : Fin 4) (m : Fin 64) (v : Word)
  | cancel (c : CoreId) (p : Fin 4) (m : Fin 64) (v : Word)
  | tsenWrite (c : CoreId) (p : Fin 4) (v : Word)
  | setpwm (c : CoreId) (p : Fin 24) (v : Word)
  | pwmEnWrite (c : CoreId) (p : Fin 24) (v : Word)
  | pwmShadowWrite (c : CoreId) (p : Fin 24) (k : Fin 16) (v : Word)
  | stepPosWrite (c : CoreId) (g : Fin 16) (v : Word)
  | stepRunWrite (c : CoreId) (g : Fin 16) (v : Word)
  | adcInputWrite (c : CoreId) (n : Fin 64) (v : Word)
  | adcConverterWrite (c : CoreId) (k : Fin 16) (v : Word)
  | coordDescriptorWrite (c : CoreId) (k : Fin 32) (w : Fin 2) (v : Word)
  | virtValueWrite (c : CoreId) (k : Fin 32) (hi : Bool) (v : Word)
  | encoderWrite (c : CoreId) (e : Fin 16) (w : Fin 2) (v : Word)
  | fieldInputWrite (c : CoreId) (n : Fin 32) (v : Word)
  | fieldOutputWrite (c : CoreId) (o : Fin 16) (v : Word)
  | bandSlotCellWrite (c : CoreId) (r : Fin 2) (n : Fin 1024) (v : Word)
  | chopperPhaseWrite (c : CoreId) (f : Fin 16) (v : Word)
  | trippedClear (c : CoreId) (n : Fin 8) (v : Word)
  | tofaultClear (c : CoreId) (f : Fin 16) (v : Word)
  | registerWrite (c : CoreId) (off : BitVec 20) (v : Word)
  -- Register reads that clear: the value goes to general register d of the reading core (R15, R175)
  | corrmaxRead (c : CoreId) (d : BitVec 4) (k : Fin 32)
  | lawLoadRead (c : CoreId) (d : BitVec 4) (u : Fin 8)
  | ringCounterRead (c : CoreId) (d : BitVec 4) (r : Fin 2) (badblk : Bool)
  | ringFramesRead (c : CoreId) (d : BitVec 4) (r : Fin 2)
  | pairStretchRead (c : CoreId) (d : BitVec 4)
  | adcStatsRead (c : CoreId) (d : BitVec 4) (k : Fin 16)
  | pwmCountersRead (c : CoreId) (d : BitVec 4) (p : Fin 24)
  | stepCountersRead (c : CoreId) (d : BitVec 4) (g : Fin 16)
  | fieldCountersRead (c : CoreId) (d : BitVec 4) (k : FieldCounter)
  | encoderQerrRead (c : CoreId) (d : BitVec 4) (e : Fin 16)
  | canCountersRead (c : CoreId) (d : BitVec 4) (p : Fin 4) (k : Fin 3)
  | captureCountersRead (c : CoreId) (d : BitVec 4) (u : Fin 16) (nobuf : Bool)
  | hostCountersRead (wrdrop : Bool)
  -- Power, reset, mode (R571 - R606)
  | powerOnReset
  | resetPin (low : Bool) (recovLow : Bool)
  | holdupBegin (cause : HoldupCause)
  | holdupEnd
  | modeTransitionComplete
  -- Census and memory (R36 - R75)
  | censusInstant
  | censusCheck
  | scrubVisit (m : MemTarget)
  | commandBeatCrcFail (tag : Fin 512)
  -- Scheduler (R202 - R229)
  | schedulerTick
  | dispatchRound (q : Fin 5)
  | waitDeadline (k : TaskRef)
  | evwaitTimeout (k : TaskRef)
  | cycminExpiry (k : TaskRef)
  | scanWatchdogExpiry (k : TaskRef)
  | exchangeHoldStart
  | swap
  | exchangeCommit
  | exchangeAbort
  -- Cues and their actions (R97 - R102)
  | cueFire (n : Fin 4096)
  | conv (n : Fin 4096)
  | pwmld (n : Fin 4096)
  | outset (n : Fin 4096)
  | outclr (n : Fin 4096)
  | captrig (n : Fin 4096)
  | cuePost (n : Fin 4096)
  | spgrp (n : Fin 4096)
  | laneen (n : Fin 4096)
  | lanedis (n : Fin 4096)
  | stepgo (n : Fin 4096)
  | latch (n : Fin 4096)
  -- Coordinates and lanes
  | ringUpdateApply (k : Fin 32)
  | mainsLockChange (k : Fin 32) (locked : Bool) (mHz : Word) (phase : BitVec 16)
  | laneDue (n : Fin 1024)
  | laneSample (n : Fin 1024)
  -- Rings (R333 - R393); arrival: device time of the first header byte, in 2^-16 ns (R369)
  | cycleStart (r : Fin 2)
  | outputAssembly (r : Fin 2)
  | bandFrameReceived (r : Fin 2) (portB : Bool) (arrival : Nat) (f : RingFrame)
  | windowOpening (r : Fin 2)
  | portLost (r : Fin 2) (portB : Bool)
  | portRestored (r : Fin 2) (portB : Bool)
  | ringConfigEffect (r : Fin 2)
  | ringStart (r : Fin 2)
  | claimReceived (r : Fin 2) (portB : Bool) (f : RingFrame)
  | claimEnd (r : Fin 2)
  | foreignBand (r : Fin 2) (epoch : BitVec 16)
  | freerunEntry
  -- Barrier link, field points, encoders (R434 - R448)
  | barrierPacketOut
  | barrierPacketIn (p : InPacket)
  | barrierLinkLost
  | barrierLinkRestart
  | fieldEdgeAccepted (n : Fin 32) (level : Bool) (tick : Nat) (ticksHeld : Nat)
  | fieldOutputTrip (o : Fin 16)
  | encoderEdge (e : Fin 16) (a : Bool) (b : Bool)
  | zLatch (e : Fin 16) (rising : Bool)
  | encoderLoss (e : Fin 16)
  -- PWM, step and chopper cells (R398 - R417); run: the level of its pin from this cell clock on (R408)
  | trip (n : Fin 8) (run : Bool)
  | pwmReload (p : Fin 24)
  | converterTrigger (n : Fin 96)
  | stepCarry (g : Fin 16)
  | stepPulseStart (g : Fin 16)
  | chopperSwitchOn (f : Fin 16) (current : BitVec 12)
  | chopperDecay (f : Fin 16) (current : BitVec 12)
  | tonmaxExpiry (f : Fin 16)
  -- Analogue conversion (R421 - R432)
  | adcTimer (k : Fin 16)
  | startArrival (k : Fin 16)
  | delayLineExit (k : Fin 16)
  | converterFree (k : Fin 16)
  | resultWrite (k : Fin 16) (raw : BitVec 20)
  | calibrationDone (measured : List (Int × Nat))
  -- Fieldbus (R454 - R466)
  | canFrameValidated (p : Fin 4) (f : CanHeard)
  | canTxChoice (p : Fin 4)
  | canTxEnd (p : Fin 4) (e : CanEnd)
  | busOffRecovery (p : Fin 4)
  | referenceMessageDue (p : Fin 4)
  -- Capture and history (R475 - R489)
  | capturePace (u : Fin 16)
  | captureTrigger (u : Fin 16) (kind : BitVec 4) (time : DWord) (frac : BitVec 16)
  | recordClose (u : Fin 16)
  | recordCopyDone (u : Fin 16)
  | captureRearm (u : Fin 16)
  | triggerBusPulse (l : Fin 8) (stamp : DWord) (frac : BitVec 16)
  | busPulseDrive (u : Fin 16)
  | segmentAgeExpiry (n : Fin 16384)
  | segmentWriteDone
  -- Event recorder (R491 - R497)
  | evrFold (sensors : List (Option Int))
  | snapshotWriteDone
  -- Brim (R503 - R525)
  | brimCycleStart (si : BitVec 8) (counts : List Int)
  | brimDecisionPoint
  | discrepancy (n : Fin 4)
  | containerLost (a : Fin 64)
  | tmaxExpiry (k : Fin 4)
  | switchTestPulse (k : Fin 4) (lowSide : Bool) (pinMv : Int) (loadUa : Nat)
  | brimOscillatorCheck (differencePpm : Int)
  | brimSwitchRead (code : BitVec 16) (storedOk : Bool)
  | f24vMissing (mv : Nat)
  | brimRailLow
  -- Pair (R534 - R546)
  | heartbeatSend
  | heartbeatReceive (h : Heartbeat)
  | pairLinkLost
  | pairWatchdogExpiry
  | checkpointRecord (mirror : Bool) (bytes : List Byte)
  | checkpointEnd (bytes : List Byte)
  | checkpointAck (number : Word) (accepted : Bool)
  | mirrorAck
  | compareFailure (kind : BitVec 4) (index : BitVec 10)
  | release
  -- Update and recovery (R587, R593)
  | confirmWindowExpiry
  | maintenanceFrame (bytes : List Byte)
  -- Further events, in the table's order
  | crownLockstepDifference
  | brimLockstepMismatch
  | spineTargetService (m : MemTarget) (flitOk : Bool)
  | transactionComplete (tag : Fin 512)
  | creditReturn (port : Fin 12) (toPort : Bool) (cls : Fin 4)
  | signalSamplingPeriod (n : Fin 16384)
  | canBusError (p : Fin 4) (e : CanBusEvent)
  | encoderLossEnd (e : Fin 16)
  | cellClockLoss
  | claimRepeat (r : Fin 2)
  deriving DecidableEq, Repr

end Sys2Proof
end

