-- ==== Sys2Proof/Config.lean ====
section
/-! DEFINITION. What an implementation or the world outside the spec fixes: free values (opaque, no body), the figures
of the part, and the contents that the spec gives no format for. -/

namespace Sys2Proof

/-- A free value: the word drawn as number n (AN UNDEFINED VALUE; notes/assumptions 3)
(see assumption 3, DESIGN CHOICE). -/
opaque Config.freeWord : Nat → Word

/-- A free bit: drawn as number n (DESIGN CHOICE, assumption 3). -/
opaque Config.freeBit : Nat → Bool

/-- The module's serial number, 40 bits (R381). -/
opaque Config.serial : BitVec 40

/-- NATIVE of SYS.BLEVEL less one: the native level is at least 1 (R6) and fits the field [23:16] (R9). -/
opaque Config.nativeLess1 : Fin 255

/-- The native behaviour level of the module, at least 1 (see assumption 67, DEDUCED). -/
def Config.native : Nat := Config.nativeLess1.val + 1

/-- The entries of the sine table of law L6, in units of 2^-35, by th[34:19] (R268 gives their accuracy)
(see assumption 3, DESIGN CHOICE). -/
opaque Config.sinEntry : BitVec 16 → BitVec 37

/-- The present velocity that an ENC coordinate shows in a cell clock: R88 names it and no rule says how it is measured
(a free value, assumption 3). -/
opaque Config.encRate (c cc : Nat) : Word

/-- Whether COUNT rises when A leads B (R446 gives no direction; INV inverts it) (see assumption 32, DESIGN CHOICE). -/
opaque Config.aLeadsUp : Bool

/-- Whether B high is the positive direction in PULSEDIR (R446) (see assumption 32, DESIGN CHOICE). -/
opaque Config.dirHighUp : Bool

/-- Whether the rising edge of a pulse line counts in PULSEDIR and UPDOWN (R446) (see assumption 32, DESIGN CHOICE). -/
opaque Config.pulseRising : Bool

/-- The bytes of a message in which pair 0 tells a node of a ring its layout or its delays, of which the manual gives the contents and no
form (R355, R371) (see assumption 35, DEDUCED). -/
opaque Config.nodeNews : List Int → List Byte

/-- SHA-256 of a byte string (the function itself is FIPS 180-4, outside the spec). -/
opaque Config.sha256 : List Byte → List Byte

/-- Whether an ECDSA signature of an image is good under the key in ROM, which the spec does not give (R582). -/
opaque Config.signatureGood : List Byte → List Byte → Bool

/-- A window or a task, a tile's code or an instance area that a program image holds: a run of words at an address. -/
structure ProgramArea where
  tile : Option (Fin 64)
  addr : Nat
  words : List Word
  deriving DecidableEq, Repr

/-- What a program image holds (R226, R228, R215, R219, R565): the spec gives its contents and no format. -/
structure ProgramImage where
  /-- Code of the tiles and the Crown, and new instance areas. -/
  areas : List ProgramArea
  /-- Task descriptors: task key (R198, R200) and 16 words. -/
  tasks : List (Nat × List Word)
  /-- Image table entries: quadrant, number, 16 words. -/
  images : List (Nat × Nat × List Word)
  /-- Station error table words: quadrant, number, word. -/
  stations : List (Nat × Nat × Word)
  /-- Owner tiles of cells and coordinates: offset and tile. -/
  owners : List (Nat × Nat)
  /-- Class masks of tiles. -/
  masks : List (Nat × Nat)
  /-- Declared signals: number and the two words of the signal table. -/
  signals : List (Nat × Word × Word)
  /-- Instances: address of the new instance, and address of its type descriptor in the code region. -/
  instances : List (Nat × Nat)
  /-- The tile whose code region holds the type descriptors of the instances. -/
  codeTile : Fin 64
  /-- Every type descriptor of the program: a tile whose code region holds it, and its address there. -/
  types : List (Fin 64 × Nat)
  deriving DecidableEq, Repr

/-- The reading of an image's words as a program, or none where they are no program (no format in the spec)
(see assumption 64, DESIGN CHOICE). -/
opaque Config.parseImage : List Word → Option ProgramImage

/-- The exact sizes and addresses of the part. -/
def Config.sysBase : Nat := 0x100000
/-- End of the system register range. -/
def Config.sysEnd : Nat := 0x200000
/-- First word of quadrant shared memory. -/
def Config.quadBase : Nat := 0x1000000
/-- Words of one quadrant's shared memory. -/
def Config.quadWords : Nat := 0x400000
/-- First word of Crown memory. -/
def Config.crownBase : Nat := 0x2000000
/-- First word beyond Crown memory. -/
def Config.crownEnd : Nat := 0x2800000
/-- First word of DRAM. -/
def Config.dramBase : Nat := 0x100000000
/-- First word beyond DRAM. -/
def Config.dramEnd : Nat := 0x380000000
/-- First word of the host area (R553). -/
def Config.hostArea : Nat := 0x102000000

end Sys2Proof
end

