-- ==== Sys2Proof/Machine/Bits.lean ====
section
/-! DEFINITION. Bit fields, sign extension, rounding and saturation, byte packing and the checks (CRC) of the spec. -/

namespace Sys2Proof.Machine

/-! ### Fields of words -/

/-- Field [hi:lo] of a natural number. -/
def fldN (n hi lo : Nat) : Nat := (n / 2 ^ lo) % 2 ^ (hi + 1 - lo)

/-- Field [hi:lo] of a word. -/
def fld (w : Word) (hi lo : Nat) : Nat := fldN w.toNat hi lo

/-- Bit i of a word. -/
def bit (w : Word) (i : Nat) : Bool := w.getLsbD i

/-- 1 or 0. -/
def b2n (b : Bool) : Nat := if b then 1 else 0

/-- The word of a natural number, modulo 2^36. -/
def wd (n : Nat) : Word := BitVec.ofNat 36 n

/-- The word of an integer, modulo 2^36. -/
def wdI (i : Int) : Word := BitVec.ofInt 36 i

/-- The eight words of a line as one number, bit 0 of word 0 first. -/
def packWords : List Word → Nat
  | [] => 0
  | w :: r => w.toNat + 2 ^ 36 * packWords r

/-- A word with field [hi:lo] replaced by v. -/
def setFld (w : Word) (hi lo v : Nat) : Word :=
  wd (w.toNat - fld w hi lo * 2 ^ lo + (v % 2 ^ (hi + 1 - lo)) * 2 ^ lo)

/-- A word with bit i replaced. -/
def setBit (w : Word) (i : Nat) (b : Bool) : Word := setFld w i i (b2n b)

/-- A field placed at bit lo. -/
def at_ (v lo : Nat) : Nat := v * 2 ^ lo

/-- The low n bits of a natural number, read in two's complement. -/
def sextN (v n : Nat) : Int := if v % 2 ^ n < 2 ^ (n - 1) then (v % 2 ^ n : Nat) else ((v % 2 ^ n : Nat) : Int) - 2 ^ n

/-- A word as S36 (R48). -/
def s36 (w : Word) : Int := w.toInt

/-- The double word of two words, the first at the lower address (R46). -/
def dword (lo hi : Word) : DWord := BitVec.ofNat 72 (hi.toNat * 2 ^ 36 + lo.toNat)

/-- Bits [35:0] of a double word. -/
def dlo (d : DWord) : Word := BitVec.ofNat 36 d.toNat

/-- Bits [71:36] of a double word. -/
def dhi (d : DWord) : Word := BitVec.ofNat 36 (d.toNat / 2 ^ 36)

/-- The double word of an integer. -/
def dwI (i : Int) : DWord := BitVec.ofInt 72 i

/-- The double word of a natural number. -/
def dw (n : Nat) : DWord := BitVec.ofNat 72 n

/-! ### Saturation and rounding (R48, R151) -/

/-- The largest S36 value. -/
def s36Max : Int := 2 ^ 35 - 1

/-- The smallest S36 value. -/
def s36Min : Int := -(2 ^ 35)

/-- Clamp an integer to [lo, hi]. -/
def clampI (lo hi x : Int) : Int := if x < lo then lo else if hi < x then hi else x

/-- Saturate to S36. -/
def satS36 (x : Int) : Int := clampI s36Min s36Max x

/-- Saturate to the 72-bit range of S8.63. -/
def satS72 (x : Int) : Int := clampI (-(2 ^ 71)) (2 ^ 71 - 1) x

/-- Shift right by sh with rounding to nearest, ties toward plus infinity; a shift of 0 is exact (R151). -/
def rshRound (x : Int) (sh : Nat) : Int := if sh = 0 then x else (x + 2 ^ (sh - 1)) / 2 ^ sh

/-- The quotient of two integers rounded to nearest, ties toward plus infinity, for a positive divisor. -/
def divRound (x : Int) (d : Int) : Int := (2 * x + d) / (2 * d)

/-- Saturating addition of a counter of n bits. -/
def satAdd (x k n : Nat) : Nat := min (x + k) (2 ^ n - 1)

/-! ### Byte packing (R47, R612) -/

/-- Four bytes as a word, the first in bits [7:0] (R47). -/
def packBytes : List Byte → Nat
  | [] => 0
  | b :: r => b.toNat + 256 * packBytes r

/-- The first n bytes of a number, least significant first. -/
def unpackBytes : Nat → Nat → List Byte
  | 0, _ => []
  | n + 1, v => BitVec.ofNat 8 v :: unpackBytes n (v / 256)

/-- The words that hold a byte string, four bytes a word (R47), for n words. -/
def bytesToWords : Nat → List Byte → List Word
  | 0, _ => []
  | n + 1, bs => wd (packBytes (bs.take 4)) :: bytesToWords n (bs.drop 4)

/-- The bytes of words, four a word (R47). -/
def wordsToBytes (ws : List Word) : List Byte := ws.flatMap (fun w => unpackBytes 4 (fld w 31 0))

/-- The five bytes of a word, least significant first (R612). -/
def wordBytes5 (w : Word) : List Byte := unpackBytes 5 w.toNat

/-- A byte at an index, 0 beyond the end. -/
def byteAt (bs : List Byte) (i : Nat) : Nat := (bs.getD i 0).toNat

/-- n bytes from index i as a number, least significant byte first. -/
def leAt (bs : List Byte) (i n : Nat) : Nat := packBytes ((bs.drop i).take n)

/-! ### Checks -/

/-- A function of a number, applied once the number is known: evaluation of a long check stays shallow. -/
def forced {β : Type} (f : Nat → β) : Nat → β
  | 0 => f 0
  | n + 1 => f (n + 1)

theorem forced_eq {β : Type} (f : Nat → β) (n : Nat) : forced f n = f n := by cases n <;> rfl

/-- A fold from the left over a number that is known at every step. -/
def foldForced {α : Type} (f : Nat → α → Nat) (c : Nat) : List α → Nat
  | [] => c
  | x :: xs => forced (fun d => foldForced f d xs) (f c x)

theorem foldForced_eq {α : Type} (f : Nat → α → Nat) (xs : List α) (c : Nat) : foldForced f c xs = xs.foldl f c := by
  induction xs generalizing c with
  | nil => rfl
  | cons x xs ih => simp only [foldForced, forced_eq, List.foldl_cons, ih]

/-- One step of a reflected CRC register over one bit. -/
def crcStepR (poly : Nat) (c : Nat) : Nat := if c % 2 = 1 then (c / 2) ^^^ poly else c / 2

/-- n steps of a reflected CRC register. -/
def crcStepsR (poly : Nat) : Nat → Nat → Nat
  | 0, c => c
  | n + 1, c => crcStepsR poly n (crcStepR poly c)

/-- The register after the bytes. -/
def crcFold (poly : Nat) (c : Nat) (bs : List Byte) : Nat :=
  foldForced (fun c b => crcStepsR poly 8 (c ^^^ b.toNat)) c bs

/-- The one CRC-32C of the manual (R612). -/
def crc32c (bs : List Byte) : Nat := crcFold 0x82F63B78 0xFFFFFFFF bs ^^^ 0xFFFFFFFF

/-- The CRC-32C over words, each as 5 bytes (R612). -/
def crc32cWords (ws : List Word) : Nat := crc32c (ws.flatMap wordBytes5)

/-- The CRC-32 of IEEE 802.3 of a ring block (R77). -/
def crc32Eth (bs : List Byte) : Nat := crcFold 0xEDB88320 0xFFFFFFFF bs ^^^ 0xFFFFFFFF

/-- One bit of the CRC-8 of R77. -/
def crc8Step (c b : Nat) : Nat := (c * 2 % 256) ^^^ (if (c / 128 + b) % 2 = 1 then 7 else 0)

/-- The CRC-8 of R77 over the n low bits of a number, the highest first. -/
def crc8 (n v : Nat) : Nat := foldForced (fun c i => crc8Step c (v / 2 ^ (n - 1 - i) % 2)) 0 (List.range n)

/-- One bit into the CRC-16 register of R74, from the top. -/
def crc16Step (c : Nat) (b : Nat) : Nat :=
  if (c / 2 ^ 15 + b) % 2 = 1 then ((c * 2) % 2 ^ 16) ^^^ 0x1021 else (c * 2) % 2 ^ 16

/-- The CRC-16 of R74 over the low n bits of v, from bit n - 1 down to bit 0. -/
def crc16 : Nat → Nat → Nat → Nat
  | 0, _, c => c
  | n + 1, v, c => forced (crc16 n v) (crc16Step c (v / 2 ^ n % 2))

/-- cos of n / 2^m of a turn in units of 2^-60, by its power series on the reduced angle (R268, R414)
(see assumption 29, DEDUCED). -/
def cosTurn60 (n m : Nat) : Int :=
  let k := n % 2 ^ m * 2 ^ (60 - m)
  -- k of 2^60 turns; fold into the first quadrant
  let q := k / 2 ^ 58
  let r := k % 2 ^ 58
  let a (x : Nat) : Int := (x : Int) * 7244019458077122842 / 2 ^ 60
  -- 2 * pi in units of 2^-60
  let co (x : Int) : Int :=
    let x2 := x * x / 2 ^ 60
    ((List.range 14).foldl (fun (acc : Int × Int) i =>
      let t := -(acc.1 * x2 / 2 ^ 60) / ((2 * i + 1) * (2 * i + 2))
      (t, acc.2 + t)) (2 ^ 60, 2 ^ 60)).2
  match q with
  | 0 => co (a r)
  | 1 => -co (a (2 ^ 58 - r))
  | 2 => -co (a r)
  | _ => co (a (2 ^ 58 - r))

end Sys2Proof.Machine
end

