-- ==== Sys2Proof/Machine/RegMap.lean ====
section
/-! DEFINITION. Where the system registers stand (offsets from 0x0_0010_0000) and what each holds after reset. -/

namespace Sys2Proof.Machine

/-- SYS.BLEVEL (R9). -/
def offBlevel : Nat := 0x8
/-- SYS.MODE (R571). -/
def offSysMode : Nat := 0x10
/-- SYS.RESTART (R579). -/
def offSysRestart : Nat := 0x11
/-- SYS.HOLDT, two words (R579). -/
def offSysHoldt : Nat := 0x12
/-- CENSUS.STAT (R41). -/
def offCensusStat : Nat := 0x40
/-- CENSUS.SEQ (R42). -/
def offCensusSeq : Nat := 0x41
/-- CONFLICT.COUNT (R45). -/
def offConflictCount : Nat := 0x42
/-- MEM.STAT (R72). -/
def offMemStat : Nat := 0x50
/-- MEM.CORR (R73). -/
def offMemCorr : Nat := 0x51
/-- MEM.UNCORR (R73). -/
def offMemUncorr : Nat := 0x52
/-- MEM.RETIRED (R73). -/
def offMemRetired : Nat := 0x53
/-- MEM.SCRUBPASS (R73). -/
def offMemScrubpass : Nat := 0x54
/-- MEM.LASTBAD (R73). -/
def offMemLastBad : Nat := 0x55
/-- SPINE.CRCERR (R73). -/
def offSpineCrcerr : Nat := 0x56
/-- TIME.INC (R83). -/
def offTimeInc : Nat := 0x60
/-- TIME.STAT (R84). -/
def offTimeStat : Nat := 0x61
/-- TIME.LOADD, two words (R81). -/
def offTimeLoadd : Nat := 0x64
/-- FORCE.STAT (R239). -/
def offForceStat : Nat := 0x70
/-- RINGWIN.r.OPEN (R255). -/
def offRingOpen (r : Nat) : Nat := 0x90 + 2 * r
/-- RINGWIN.r.CLOSE (R255). -/
def offRingClose (r : Nat) : Nat := 0x91 + 2 * r
/-- LAW.u.LOAD (R257). -/
def offLawLoad (u : Nat) : Nat := 0x98 + u
/-- Word w of the descriptor of coordinate c (R88). -/
def offCoord (c w : Nat) : Nat := 0x100 + 8 * c + w
/-- Word w of latch bank k (R102). -/
def offLatch (k w : Nat) : Nat := 0x200 + 0x80 * k + w
/-- TASK.n.STAT (R220). -/
def offTask (n : Nat) : Nat := 0x1000 + n
/-- TILE.t.MASK (R212). -/
def offMask (t : Nat) : Nat := 0x1400 + t
/-- SCHED.q.STAT (R221). -/
def offSched (q : Nat) : Nat := 0x1440 + 4 * q
/-- SCHED.q.TRWR (R221). -/
def offTrwr (q : Nat) : Nat := 0x1441 + 4 * q
/-- SCHED.q.TRRD (R221). -/
def offTrrd (q : Nat) : Nat := 0x1442 + 4 * q
/-- CROWNTASK.t.STAT (R200). -/
def offCrownTask (t : Nat) : Nat := 0x1480 + t
/-- Word w of step generator g (R304). -/
def offStep (g w : Nat) : Nat := 0x4000 + 8 * g + w
/-- Word w of axis group g (R285). -/
def offGroup (g w : Nat) : Nat := 0x4200 + 4 * g + w
/-- The profile generator cell of axis a (R281). -/
def offAxis (a : Nat) : Nat := 0x8000 + 16 * a

/-- Word w of encoder e (R446). -/
def offEnc (e w : Nat) : Nat := 0x6400 + 8 * e + w

/-- Word w of PWM pair p (R397). -/
def offPwm (p w : Nat) : Nat := 0x3000 + 16 * p + w
/-- Word w of trip input i (R407). -/
def offTrip (i w : Nat) : Nat := 0x3200 + 4 * i + w
/-- Word w of chopper phase f (R413). -/
def offChop (f w : Nat) : Nat := 0x3400 + 8 * f + w
/-- CHOP.c (R414). -/
def offChopper (c : Nat) : Nat := 0x3480 + 2 * c
/-- STEPOUT.g (R411). -/
def offStepOut (g : Nat) : Nat := 0x4080 + g
/-- Word w of converter c (R419). -/
def offConv (c w : Nat) : Nat := 0x5000 + 16 * c + w
/-- Word w of analogue input n (R420). -/
def offAin (n w : Nat) : Nat := 0x5400 + 8 * n + w
/-- ADC.CAL (R431). -/
def offAdcCal : Nat := 0x5600
/-- Calibration factor word w of input n in range k (R430). -/
def offCalFac (n k w : Nat) : Nat := 0x5800 + 8 * n + 2 * k + w
/-- Word w of field input i (R438). -/
def offFin (i w : Nat) : Nat := 0x6000 + 8 * i + w
/-- Word w of field output o (R442). -/
def offFout (o w : Nat) : Nat := 0x6100 + 4 * o + w
/-- FIELD.STAT (R445). -/
def offFieldStat : Nat := 0x6200
/-- FIELD.EDGELOST (R445). -/
def offEdgeLost : Nat := 0x6201
/-- Word w of capture unit u (R479). -/
def offCap (u w : Nat) : Nat := 0x7000 + 32 * u + w
/-- JRNL.STAT, JRNL.HANDLE, JRNL.RTASK and JRNL.FULLCNT (R319, R320). -/
def offJrnl (w : Nat) : Nat := 0xA0 + w
/-- PAIR.STAT and the pair registers (R550, R551). -/
def offPair (w : Nat) : Nat := 0x80 + w
/-- EVR.STAT, SEQ, OPSEC, PCYC, RSEQ and SNAP (R502). -/
def offEvr (w : Nat) : Nat := 0xE0 + w
/-- BRIM.STAT, SI, CAUSE, PBCRC, OPENS and RSTREQ (R526, R527). -/
def offBrim (w : Nat) : Nat := 0xF0 + w
/-- UPD.STAT, UPD.WIN and UPD.CONFIRM (R589). -/
def offUpd (w : Nat) : Nat := 0x14 + w
/-- UPD.VER.c (R589). -/
def offVer (c : Nat) : Nat := 0x18 + c
/-- Register w of the history unit (R478): CTRL, WR, RD, FILL, TAKE, STAT, SIGS. -/
def offHist (w : Nat) : Nat := 0xD0 + w
/-- TRIGBUS.LAT and TRIGBUS.STAT (R489). -/
def offTrigLat : Nat := 0x7208
/-- TRIGBUS.STAT. -/
def offTrigStat : Nat := 0x7209
/-- TRIGBUS.l (R489). -/
def offTrigbus (l : Nat) : Nat := 0x7200 + l
/-- Word w of band slot cell s of ring r (R356). -/
def offSlot (r s w : Nat) : Nat := 0xA000 + 0x1000 * r + 4 * s + w
/-- Register w of ring r (R366). -/
def offRing (r w : Nat) : Nat := 0xB0 + 8 * r + w
/-- RING.CLAIM, RING.CLAIMSTAT and RING.WINSER (R379, R384). -/
def offClaim (w : Nat) : Nat := 0xC0 + w
/-- RING.r.FAULT, FRAMES and DROPPED (R392). -/
def offRingFault (r w : Nat) : Nat := 0xC4 + 4 * r + w
/-- TIME.OFFS (R374). -/
def offTimeOffs : Nat := 0x62
/-- TIME.DISC (R375). -/
def offTimeDisc : Nat := 0x63

/-- Word w of fieldbus port p (R451). -/
def offCan (p w : Nat) : Nat := 0xC000 + 0x800 * p + w

/-- The cell, coordinate or capture unit that an offset belongs to, by the offset that names it (R17, R88, R195, R413, R418, R443,
R450). -/
def cellOf (o : Nat) : Option Nat :=
  if 0x100 ≤ o ∧ o < 0x200 then some (o / 8 * 8)
  else if 0x3000 ≤ o ∧ o < 0x3180 then some (o / 16 * 16)
  else if 0x3200 ≤ o ∧ o < 0x3220 then some (o / 4 * 4)
  else if 0x3400 ≤ o ∧ o < 0x3480 then some (o / 16 * 16)
  else if 0x3480 ≤ o ∧ o < 0x3490 then some (0x3400 + 16 * ((o - 0x3480) / 2))
  else if 0x4000 ≤ o ∧ o < 0x4080 then some (o / 8 * 8)
  else if 0x4080 ≤ o ∧ o < 0x4090 then some (0x4000 + 8 * (o - 0x4080))
  else if 0x5000 ≤ o ∧ o < 0x5100 then some (o / 16 * 16)
  else if 0x5400 ≤ o ∧ o < 0x5600 then some (0x5000 + 16 * ((o - 0x5400) / 32))
  else if 0x6000 ≤ o ∧ o < 0x6100 then some (o / 8 * 8)
  else if 0x6100 ≤ o ∧ o < 0x6140 then some (o / 4 * 4)
  else if 0x6400 ≤ o ∧ o < 0x6480 then some (o / 8 * 8)
  else if 0x7000 ≤ o ∧ o < 0x7200 then some (o / 32 * 32)
  else if 0x8000 ≤ o ∧ o < 0x9000 then some (o / 16 * 16)
  else if 0xA000 ≤ o ∧ o < 0xC000 then some (o / 4 * 4)
  else if 0xC000 ≤ o ∧ o < 0xE000 then some (o / 0x800 * 0x800)
  else none

/-- Is an offset a cell register that a lane, a signal or a capture channel may name: a coordinate is no cell, and a profile
generator has no register. -/
def isCell (o : Nat) : Bool := (cellOf o).isSome && !(0x100 ≤ o && o < 0x200) && !(0x8000 ≤ o && o < 0x9000)

/-- Snapshot cause bits of R498 in FAULTS: integrity fault, HALT or SAFESTOP, SPAREOUT, SUPPLY MISSING, lost barrier link. -/
def snapIntegrity : Nat := 0
/-- Entry into HALT or SAFESTOP. -/
def snapStop : Nat := 1
/-- SPAREOUT (R71). -/
def snapSpareOut : Nat := 2
/-- A field SUPPLY of MISSING. -/
def snapSupply : Nat := 3
/-- A lost barrier link. -/
def snapBarrier : Nat := 4

/-- Reset values of the family descriptor (R1). -/
def familyWord : Nat → Nat
  | 0 => 4
  | 1 => 16
  | 2 => 8
  | 3 => 1024
  | 4 => 4
  | 5 => 4
  | 6 => 10737418240
  | 7 => 8589934592
  | _ => 0

/-- Reset values of the registers of a fieldbus port (R451). -/
def canReset (w : Nat) : Nat :=
  if w = 1 then 9 * 2 ^ 28 + 15 * 2 ^ 21 + 16 * 2 ^ 14 + 8 * 2 ^ 7 + 8
  else if w = 2 then 4 * 2 ^ 31 + 5 * 2 ^ 26 + 6 * 2 ^ 21 + 4 * 2 ^ 16 + 4 * 2 ^ 11 + 60 * 2 ^ 4 + 8
  else if w = 3 then 3 * 2 ^ 34
  else if w = 10 then 10000
  else 0

/-- The value of the register at an offset after reset, as its register table states; 0 where a table states 0 and for
every offset that no table names. NATIVE of SYS.BLEVEL is laid over the stored word when it is read. ACTIVE of SYS.BLEVEL,
which R9 sets at BOOT, holds 1 from reset on, before the first BOOT has ended (see assumption 9, DESIGN CHOICE). -/
def regReset (o : Nat) : Word :=
  wd <|
    if o < 8 then familyWord o
    else if o = offBlevel then 0x0101
    else if o = offSysMode then 1
    else if o = offTimeInc then 0x280000000
    else if o = offEvr 3 then 1
    else if o = offHist 0 then 6 * 2 ^ 32 + 1000
    else if o = offTrigLat then 400
    else if o = offUpd 1 then 300
    else if o = offJrnl 0 then 8192 * 2 ^ 11
    else if 0x108 ≤ o ∧ o < 0x200 then (if o % 8 = 0 then 0xF00000000 else 0)
    else if 0x1400 ≤ o ∧ o < 0x1440 then 0xFFFF
    else if 0x3000 ≤ o ∧ o < 0x3180 then (if o % 16 = 4 then 16 else 0)
    else if 0x3400 ≤ o ∧ o < 0x3480 then (if o % 8 = 0 then 0x40A00000 else 0)
    else if 0x4080 ≤ o ∧ o < 0x4090 then 20
    else if 0x5000 ≤ o ∧ o < 0x5100 then (if o % 16 = 3 then 160 else 0)
    else if 0x5800 ≤ o ∧ o < 0x5A00 then (if o % 2 = 1 then 0x100000000 else 0)
    else if o = offFieldStat then 0x400000000
    else if 0xC000 ≤ o ∧ o < 0xE000 then canReset (o % 0x800)
    else if 0x4000 ≤ o ∧ o < 0x4080 then (if o % 8 = 0 then 0x20 else if o % 8 = 3 then 0x80000000 else 0)
    else 0

end Sys2Proof.Machine
end

