-- ==== Sys2Proof/Machine/Tab.lean ====
section
/-! DEFINITION. Sparse arrays: read, write, and the one canonical form (keys strictly rising, no entry at its default),
so that equal arrays are equal data. -/

namespace Sys2Proof.Machine

/-- The value at key k; an unlisted key reads as its default d. -/
def Tab.get {α : Type} (d : α) : Tab α → Nat → α
  | [], _ => d
  | (j, v) :: r, k => if j = k then v else Tab.get d r k

/-- Drop key k. -/
def Tab.erase {α : Type} (t : Tab α) (k : Nat) : Tab α := t.filter (fun e => e.1 != k)

/-- Put an entry in its place in rising key order. -/
def Tab.place {α : Type} (k : Nat) (v : α) : Tab α → Tab α
  | [] => [(k, v)]
  | (j, w) :: r => if k < j then (k, v) :: (j, w) :: r else (j, w) :: Tab.place k v r

/-- Write v at key k; writing the default d removes the entry. -/
def Tab.put {α : Type} [DecidableEq α] (d : α) (t : Tab α) (k : Nat) (v : α) : Tab α :=
  if v = d then Tab.erase t k else Tab.place k v (Tab.erase t k)

/-- The canonical form, for a default that may depend on the key. -/
def Tab.wf {α : Type} [DecidableEq α] (d : Nat → α) : Tab α → Bool
  | [] => true
  | [(k, v)] => v != d k
  | (k, v) :: (j, w) :: r => v != d k && decide (k < j) && Tab.wf d ((j, w) :: r)

end Sys2Proof.Machine
end

