-- ==== Sys2Proof/Machine/State.lean ====
section
/-! DEFINITION. The state of the module as plain data: everything the spec names, block by block, each part with its
value after reset as its default. Registers of the system register space live in one register file `regs`, by offset. -/

namespace Sys2Proof.Machine

/-- Where an order comes from (R43, R45), highest rank first. -/
inductive Src where
  | brim
  | pair1
  | host
  | lane (n : Nat)
  | tile (t : Nat)
  deriving DecidableEq, Repr

/-! ### Memory (R57 - R73) -/

/-- Metadata of a line (R60); the tag is correct unless `LineErr` says otherwise. -/
structure LineMeta where
  owner : BitVec 2 := 0
  poison : Bool := false
  version : BitVec 8 := 0
  deriving DecidableEq, Repr

/-- A disturbance of a stored line that no decode has met yet (R64): symbols in error, whether the decoded tag is wrong,
and the eight data words as they stand in the slot. -/
structure LineErr where
  symbols : Nat := 0
  tagWrong : Bool := false
  asRead : List Word := []
  deriving DecidableEq, Repr

/-- The line-coded memories and their repair state. Keys: word address, or line = word address / 8. -/
structure Memory where
  words : Tab Word := []
  lines : Tab LineMeta := []
  errs : Tab LineErr := []
  /-- Lines that needed correction in the last scrub pass, in their present slot (R70). -/
  needed : Tab Bool := []
  /-- Spare slot of a retired line, plus one; 0 is not retired (R70, MRAM). -/
  remap : Tab Nat := []
  /-- Spare slots used at DRAM0 and DRAM1 (R70, MRAM). -/
  spares0 : Nat := 0
  spares1 : Nat := 0
  /-- Next line of the scrub of each target memory: quadrants 0-3, Crown 4, DRAM0 5, DRAM1 6 (R69). -/
  scrub : Tab Nat := []
  /-- Scrub passes that DRAM0 and DRAM1 have completed, for MEM.SCRUBPASS (R73). -/
  passes0 : Nat := 0
  passes1 : Nat := 0
  deriving DecidableEq, Repr

/-- Tile-local memory of all tiles, keyed tile * 65536 + address (R57, R59). -/
structure LocalMem where
  words : Tab Word := []
  poison : Tab Bool := []
  /-- Bit errors present in a word that no read has met yet (R59). -/
  errs : Tab Nat := []
  /-- Scratch words written since the last dispatch on the tile (R114, R123), and per tile the number from which the
  free contents of the others are drawn: scratch is not kept from one dispatch to the next. -/
  scratch : Tab (Option Word) := []
  drawn : Tab Nat := []
  deriving DecidableEq, Repr

/-! ### The spine (R23 - R31, R75) -/

/-- The kinds of spine request. -/
inductive ReqKind where
  | read
  | write
  | cas (word : Nat) (expect : Word) (new : Word)
  /-- A read of a lane of another quadrant, whose value the target sends back (R20, R26). -/
  | lane (value : Word)
  deriving DecidableEq, Repr

/-- Does a response carry data (R74, R155). -/
def ReqKind.reads : ReqKind → Bool
  | .write => false
  | _ => true

/-- Does a request carry data (R74, R155). -/
def ReqKind.carries : ReqKind → Bool
  | .write | .cas .. => true
  | _ => false

/-- A request that waits at its target. -/
structure SpineReq where
  tag : Nat
  port : Nat
  cls : Nat
  core : Nat
  target : Nat
  line : Nat
  kind : ReqKind
  mask : Nat := 0
  data : List Word := []
  poison : Bool := false
  /-- Its place among all requests issued, by which responses from one target keep their order (R30). -/
  seq : Nat := 0
  deriving DecidableEq, Repr

/-- A transaction that its target has served and whose tag has not returned. -/
structure SpineAck where
  tag : Nat
  port : Nat
  core : Nat
  cls : Nat
  target : Nat
  seq : Nat
  deriving DecidableEq, Repr

/-- A credit loop (R31): credits at the sender, flits on the link, occupied slots at the receiver. -/
structure Credit where
  held : Nat := 16
  link : Nat := 0
  occupied : Nat := 0
  deriving DecidableEq, Repr

/-- The spine: per target 0-6 (quadrants, Crown, DRAM0, DRAM1) its wheel and per target and class its service list. -/
structure Spine where
  wheel : Tab Nat := []
  lists : Tab (List Nat) := []
  waiting : List SpineReq := []
  acked : List SpineAck := []
  credits : Tab Credit := []
  /-- Requests issued so far. -/
  issued : Nat := 0
  /-- A disturbance on the link of a credit loop that no flit has met yet: the flit bits that it flips (R74, R75). -/
  strikes : Tab Nat := []
  /-- Tags whose next command beat fails its CRC-16 (R75). -/
  badBeats : List Nat := []
  deriving DecidableEq, Repr

/-! ### Streams and census (R32 - R42, R613) -/

/-- A stream's counters (U72 each) and its resident items. -/
structure Stream where
  produced : Nat := 0
  delivered : Nat := 0
  /-- Dropped by reason 0x01-0x0D, keyed by reason. -/
  dropped : Tab Nat := []
  resident : Nat := 0
  deriving DecidableEq, Repr

/-- What a census instant samples (R36). -/
structure CensusSample where
  time : Nat
  streams : Tab Stream
  credits : Tab Credit
  tagsHeld : Nat
  winHost : Nat
  winDevice : Nat
  winConf : Nat
  deriving DecidableEq, Repr

/-- The audit. -/
structure Census where
  streams : Tab Stream := []
  sample : Option CensusSample := none
  /-- Earlier samples that have not been checked yet, oldest first. -/
  older : List CensusSample := []
  /-- The last millisecond of device time sampled, plus one (R36, R81). -/
  lastMs : Nat := 0
  /-- Cell clock at which an extra check that CENSUS op 1 asked for is sampled (R196). -/
  extra : Option Nat := none
  /-- The sample of a whole millisecond was due when the extra check was asked for, and is taken before it. -/
  apart : Bool := false
  /-- The final sample has been taken (R40): no census instant follows before BOOT. -/
  final : Bool := false
  deriving DecidableEq, Repr

/-! ### Cores, tasks, scheduler (R105 - R147, R198 - R224) -/

/-- The program-visible registers of a core (R105) and what it runs. -/
structure Core where
  g : Tab Word := []
  acc : DWord := 0
  pc : Word := 0
  ib : Word := 0
  sb : Word := 0
  sp : Word := 0
  fl : Word := 0x80
  errc : Word := 0
  stackTop : Nat := 0
  stackLimit : Nat := 0
  /-- Key of the task that runs (DESIGN CHOICE, assumption 5), or none: the core waits in TAKE or stands still. -/
  task : Option Nat := none
  /-- The core has issued TAKE (R167). -/
  taking : Bool := false
  /-- TILE.t.MASK as it stood at the core's TAKE (R212). -/
  admits : Word := 0xFFFF
  /-- A journal instruction of hold-up keeps the core waiting until power is lost (R321). -/
  stalled : Bool := false
  deriving DecidableEq, Repr

/-- Task states (R201). -/
inductive TState where
  | unused | idle | ready | running | delayed | evwait | trapped | faulted
  deriving DecidableEq, Repr

/-- A post in a queue: its word, and the fault code if a fault posted it (R145). -/
structure Post where
  word : Word
  code : Nat := 0
  deriving DecidableEq, Repr

/-- A task: keyed 256 * q + t in a quadrant, 1024 + t in the Crown task list. -/
structure Task where
  desc : List Word := []
  st : TState := .unused
  saved : Bool := false
  tile : Nat := 0
  count : Nat := 0
  /-- Posts accepted and not delivered, oldest first (R209). -/
  queue : List Post := []
  start : Word := 0
  /-- The next grant is a fresh start. -/
  fresh : Bool := true
  /-- Deadline of a DELAYED task, in 2^-32 ns of device time (R168, R210). -/
  deadline : Option Nat := none
  /-- Timeout of an EVWAIT (R171). -/
  timeout : Option Nat := none
  /-- Destination register of the EVWAIT that suspended. -/
  evReg : Nat := 0
  /-- What the EVWAIT resumes with: a post word, or nothing after a timeout. -/
  evGot : Option (Option Word) := none
  /-- A post has been accepted since the last tick boundary (R202). -/
  posted : Bool := false
  /-- The host's TRAPRESUME or a mode change has been accepted since the last tick (R164, R208). -/
  resume : Bool := false
  /-- Ready order (R203): the tick; for an immediate change the cell clock plus one, the tile, and the place among the tick's
  immediate changes, all 0 for a change at the tick. -/
  rdyTick : Nat := 0
  rdyCc : Nat := 0
  rdyTile : Nat := 0
  rdyRank : Nat := 0
  /-- Grant time of the last fresh start (R210, R214). -/
  grant : Nat := 0
  /-- Moment at which the watchdog paused, and the time it has been paused since the grant (R214). -/
  pausedAt : Option Nat := none
  paused : Nat := 0
  /-- Cell clock in which the task's WAIT, EVWAIT, delay or resume was accepted (R202). -/
  acc : Nat := 0
  /-- Cell clock of the oldest post accepted since the last tick boundary (R202), and the code of the newest of those posts that a
  fault made (R145). -/
  postAcc : Nat := 0
  postCode : Nat := 0
  /-- ERRC.FAULT of the fresh start that a fault's post brings to a task that takes no start word (R107, R145, R210). -/
  errCode : Nat := 0
  /-- A run is in progress since a fresh start: the watchdog runs (R214). -/
  scanning : Bool := false
  /-- The watchdog expired while the task ran (R144). -/
  wdog : Bool := false
  /-- Under an orderly stop (R208). -/
  stopping : Bool := false
  /-- Held by an exchange (R227). -/
  held : Bool := false
  deriving DecidableEq, Repr

/-- A tick-paced station event (R219). -/
structure StationEvent where
  ring : Nat
  station : Nat
  recover : Bool
  /-- Cell clock of its acceptance (R202). -/
  acc : Nat
  deriving DecidableEq, Repr

/-- The schedulers. -/
structure Sched where
  /-- Number k of the last tick (R202) and the cell clock of its boundary. -/
  tick : Nat := 0
  tickCc : Nat := 0
  /-- Ticks begun, and whether the changes of the present one have been taken. -/
  seq : Nat := 0
  taken : Bool := true
  /-- Immediate readiness changes since the last tick (R203). -/
  imm : Nat := 0
  /-- A mode that grants tasks has been entered and its first tick has not come (R208). -/
  entered : Bool := false
  stations : List StationEvent := []
  /-- Posts that hardware makes at the next tick: task, word, and cell clock of acceptance (R202, R487). -/
  posts : List (Nat × Word × Nat) := []
  /-- Tiles' class masks, offset by the reset value: TILE.t.MASK lies in `regs`. The scheduler is frozen in HALT. -/
  frozen : Bool := false
  deriving DecidableEq, Repr

/-- Exchange phases (R226 - R229). -/
inductive ExPhase where
  | none | loading | holding | swapped
  deriving DecidableEq, Repr

/-- An exchange in progress. -/
structure Exchange where
  phase : ExPhase := .none
  limitMs : Nat := 0
  holdAt : Nat := 0
  img : List Word := []
  affected : List Nat := []
  added : List Nat := []
  removed : List Nat := []
  buffer : Nat := 0
  tag : Word := 0
  /-- Tick at which loading was complete; hold duration in us; cell clock and length of the swap pause, and words written in it. -/
  tick : Nat := 0
  holdUs : Nat := 0
  swapCc : Nat := 0
  pause : Nat := 0
  /-- Words of the report's data block entries (R241). -/
  entries : List Word := []
  /-- Points of the old program's images: output, and words 0 and 1 of their point map entries (R241). -/
  oldPoints : List (Bool × Word × Word) := []
  /-- What an abort after the swap and before the commit puts back: descriptors, words of the tables and of data blocks, signals. -/
  oldDescs : List (Nat × List Word) := []
  oldWords : List (Nat × Word) := []
  oldSignals : List (Nat × Word × Word) := []
  /-- Report words 3 that wait for the first IMGOUT of their point: address in the buffer, and the words that name it (R242). -/
  writes : List (Nat × Word × Word) := []
  deriving DecidableEq, Repr

/-! ### Coordinates and cues (R85 - R104) -/

/-- A coordinate beyond its descriptor words 0-3, which lie in `regs`. Positions in 2^-32 counts. -/
structure Coord where
  value : Int := 0
  prev : Int := 0
  /-- The value of this cell clock without the steps made in it (R93). -/
  unc : Int := 0
  /-- Moved by a step in this cell clock (R93). -/
  stepped : Bool := false
  /-- The update in use: position, velocity in 2^-32 counts per cc times 25, cell clock of its sampling instant (R90). -/
  upd : Bool := false
  pos : Int := 0
  vel25 : Int := 0
  at_ : Nat := 0
  /-- Last raw 32-bit count, for unwrapping (R86). -/
  raw : Nat := 0
  stale : Bool := false
  held : Bool := false
  unlock : Bool := false
  exceed : Bool := false
  lag : Nat := 0
  corrmax : Nat := 0
  /-- MAINS: the locked frequency in mHz and what remains of the phase steps, in 1/400,000,000,000 of 2^-32 (R87). -/
  mHz : Nat := 0
  frac : Nat := 0
  deriving DecidableEq, Repr

/-- Cue states (R103). -/
inductive CState where
  | idle | armed | fired | cancelled
  deriving DecidableEq, Repr

/-- A cue with its fire record (R95, R96, R103). Values in 2^-32 ns or counts. -/
structure Cue where
  st : CState := .idle
  owner : Option Src := none
  w0 : Word := 0
  value : Int := 0
  step : Nat := 0
  ref : Int := 0
  armedAt : Nat := 0
  firedAt : Option Nat := none
  ftime : DWord := 0
  past : Bool := false
  stepF : Bool := false
  stale : Bool := false
  unlock : Bool := false
  conflict : Bool := false
  defer : Bool := false
  deferCc : Nat := 0
  reason : Nat := 0
  fine : Nat := 0
  fires : Nat := 0
  deriving DecidableEq, Repr

/-- An action of a fired cue that waits for its turn (R99). -/
structure Action where
  cue : Nat
  code : Nat
  param : Nat
  src : Src
  /-- Firing cell clock, its device time, and the crossing fraction in 1/32 cc of the clock before it. -/
  f : Nat
  time : Nat
  fine : Nat
  stepped : Bool
  /-- LATCH: the coordinates of cell clock F, once it has ended (R100, R102). -/
  held : Option (List DWord) := none
  deriving DecidableEq, Repr

/-! ### Lanes (R243 - R280), setpoint groups (R183 - R185) -/

/-- A setpoint or enable order that waits for a lane's next sample. -/
structure LaneOrder where
  value : Word
  src : Src
  /-- Cell clock of acceptance, for R185, and whether a setpoint group brought it. -/
  at_ : Nat
  group : Bool
  deriving DecidableEq, Repr

/-- What a running sample leaves in the law clock after its last step (R243): that law clock, the output or burst or duties unless it
holds, the nodes, and the cell clock and device time (2^-16 ns) of its start. -/
structure LaneRun where
  at_ : Nat
  write : Bool
  u : Int
  on : Bool
  duty : List Int
  nodes : List Int
  cc : Nat
  stamp : Nat
  deriving DecidableEq, Repr

/-- A lane. Signals in units of 2^-35, accumulators in 2^-63. -/
structure Lane where
  desc : Tab Word := []
  configured : Bool := false
  enabled : Bool := false
  byCore : Option Src := none
  pendEnable : Option (Bool × Src × Nat) := none
  pendSp : Option LaneOrder := none
  /-- The earlier setpoint order of the same source, which a sample takes that starts in the cell clock of a group order (R100). -/
  oldSp : Option LaneOrder := none
  pendCoef : List (Nat × Word) := []
  /-- PVALUE as it advances (R252), in 2^-32 ns or counts. -/
  pvalue : Int := 0
  /-- The due moment whose sample waits: cell clock, ring cycle number and the cell clock of CLOSE for CYCLE pacing. -/
  due : Option (Nat × Nat × Nat) := none
  /-- Cell clock of the latest due moment, plus one (R256). -/
  dueAt : Nat := 0
  /-- Node values of the LANE inputs as the reader's due moment found them, none where the reader takes the node of the
  current sample (R256). -/
  inputs : List (Option Int) := []
  /-- What the profile generator supplied at the due moment: pref, vref, aref, velocity and saturation (R292). -/
  prof : Option (Int × Int × Int × Int × Bool) := none
  /-- Cell clock of the latest pacing crossing, plus one, and the reference of the next (R252). -/
  crossAt : Nat := 0
  ref : Int := 0
  /-- Due moments that crossings have set and LANE_DUE has not taken, oldest first. -/
  waits : List Nat := []
  /-- Cell clock of the enabling order in effect (R252). -/
  enabledAt : Nat := 0
  lastOut : Int := 0
  prevSp : Int := 0
  prevCount : Int := 0
  m1 : Int := 0
  m2 : Int := 0
  dline : List Int := []
  hold : Bool := false
  nodes : List Int := []
  /-- Nodes as they stood when the latest sample became due (R256). -/
  nodesDue : List Int := []
  pfault : Bool := false
  satnow : Bool := false
  late : Bool := false
  ramping : Bool := false
  samples : Nat := 0
  out : Int := 0
  err : Int := 0
  resid : Int := 0
  coefat : Nat := 0
  /-- A coefficient or setpoint was written and no sample has used it yet (R279). -/
  coefNew : Bool := false
  /-- The law clock after the last step of the latest sample (R243, R253, R254), and what it leaves then. -/
  busy : Nat := 0
  run : Option LaneRun := none
  missed : Nat := 0
  latecnt : Nat := 0
  satcnt : Nat := 0
  pout : Nat := 0
  deriving DecidableEq, Repr

/-- States of a setpoint group (R183). -/
inductive GState where
  | empty | loaded | applying
  deriving DecidableEq, Repr

/-- A setpoint group: members with their shadows, and which have taken them. -/
structure SpGroup where
  st : GState := .empty
  members : List (Nat × Word) := []
  taken : List Nat := []
  src : Src := .host
  at_ : Nat := 0
  deriving DecidableEq, Repr

/-! ### Axes (R281 - R303) and step generators (R304 - R307) -/

/-- Axis states (R303). -/
inductive AState where
  | unconf | disabled | ready | moving | starving | stopping | fault
  deriving DecidableEq, Repr

/-- A segment (R287) with an absolute end. -/
structure Seg where
  tag : Nat
  postStart : Bool
  dur : Nat
  pend : Int
  vend : Int
  /-- The checks of R289 wait for GO. -/
  unchecked : Bool
  deriving DecidableEq, Repr

/-- A stop in progress: position (2^-32 counts), velocity (2^-16 counts/us), device time, deceleration, end in FAULT. -/
structure Stop where
  p : Int
  v : Int
  t : Nat
  decel : Nat
  toFault : Bool
  /-- A quick stop (R295, R297). -/
  quick : Bool := false
  deriving DecidableEq, Repr

/-- An axis. -/
structure Axis where
  desc : List Word := []
  st : AState := .unconf
  queue : List Seg := []
  /-- Start of the current segment: position, velocity, group time in 2^-48 ns. -/
  p0 : Int := 0
  v0 : Int := 0
  g0 : Nat := 0
  stop : Option Stop := none
  setpos : Option Int := none
  starved : Bool := false
  limit : Bool := false
  follow : Bool := false
  tag : Nat := 0
  /-- The commanded position at rest. -/
  pref : Int := 0
  /-- PREF and VCMD of the latest sample (R303). -/
  prefs : Int := 0
  vcmd : Int := 0
  segdone : Nat := 0
  /-- Has a sample of the position lane fallen in the current segment; segments that ended with none, which complete at the next
  sample (R293). -/
  sampled : Bool := false
  skipped : Nat := 0
  starves : Nat := 0
  satref : Nat := 0
  fepeak : Nat := 0
  deriving DecidableEq, Repr

/-- An axis group: group time in 2^-48 ns, override in use and target, slew (R284, R285). -/
structure AGroup where
  gt : Nat := 0
  ovrnow : Nat := 0x10000
  ovrset : Nat := 0x10000
  slew : Nat := 0
  deriving DecidableEq, Repr

/-- A step generator beyond its registers (R305, R306). -/
structure StepGen where
  /-- Whole counts that the accumulator has carried and no step has emitted yet (R305). -/
  carry : Int := 0
  /-- Step carried whose pulse has not started: its direction (positive) and cell clock of its pulse. -/
  pend : Option (Bool × Nat) := none
  dirOut : Bool := true
  lastDir : Bool := true
  /-- Cell clock from which a STEPGO's additions run (R307). -/
  goAt : Option Nat := none
  /-- End of the pulse on the output (R411). -/
  pulseEnd : Option Nat := none
  deriving DecidableEq, Repr

/-! ### Orders (R43 - R45) -/

/-- An order of this cell clock or of a lane's next sample (R43). -/
structure Order where
  kind : Nat
  idx : Nat
  value : Int
  src : Src
  code : Nat
  cue : Option Nat := none
  /-- The index in the conflict log, where it is not `idx` (R45). -/
  log : Option Nat := none
  /-- The number of the response that tells a request of the host what becomes of the order (R44). -/
  resp : Option Nat := none
  /-- The register of the instruction's result code, which tells its program what becomes of the order (R44, R197, R300). -/
  gd : Option Nat := none
  /-- What the order changed at once, as it stood before: an order that loses later is not applied (R44). -/
  tasks : List (Nat × Task) := []
  axes : List (Nat × Axis) := []
  lanes : List (Nat × Lane) := []
  groups : List (Nat × AGroup) := []
  deriving DecidableEq, Repr

/-- A conflict whose application point is a lane's next sample (R45). -/
structure Conflict where
  kind : Nat
  idx : Nat
  win : Src
  lose : Src
  code : Nat
  deriving DecidableEq, Repr

/-! ### Cells (R396 - R448) -/

/-- A shadow register (R399 - R401): its value, whether it is a DUTYF fraction, whether it has been written since the last
reload, the same before the present cell clock's writes, and the cell clock of the last write plus one. -/
structure Shadow where
  v : Nat := 0
  frac : Bool := false
  fresh : Bool := false
  prev : Nat := 0
  prevFrac : Bool := false
  prevFresh : Bool := false
  at_ : Nat := 0
  deriving DecidableEq, Repr

/-- A PWM pair beyond its registers (R396 - R406). -/
structure Pwm where
  perSh : Shadow := { v := 16, prev := 16 }
  dutySh : Shadow := {}
  cmpSh : Tab Shadow := []
  /-- The active period, compare (U18.5) and CMPA to CMPD. -/
  per : Nat := 16
  duty : Nat := 0
  cmp : Tab Nat := []
  cnt : Nat := 0
  down : Bool := false
  /-- The next cell clock is count 0: 1 by setting EN, 2 by a PWMLD with FINE. -/
  start : Nat := 0
  /-- This cell clock is the count 0 that setting EN made. -/
  first : Bool := false
  /-- Reload events held since the last reload (R403). -/
  held : Nat := 0
  /-- Cell clock of the last reload event, and of the last converter trigger of each compare, plus one. -/
  reloadAt : Nat := 0
  trigAt : Tab Nat := []
  /-- Outputs driven; high impedance otherwise (HIZ is the inverse). -/
  driven : Bool := false
  /-- Fine delay of every edge in 1/32 cc (R404), and that of the cell clock before. -/
  fine : Nat := 0
  fineOld : Nat := 0
  /-- Reloads that PWMLDs make: cell clock plus one, and the FINE with which the count restarts (R404). -/
  loads : List (Nat × Option Nat) := []
  /-- H before dead time at the end of the last cell clock, and its last change in 1/32 cc (R398). -/
  hOn : Bool := false
  turn : Nat := 0
  /-- The 32 levels of H before dead time in the cell clock before, with `hOn` and `turn` as that began. -/
  levels : List Bool := []
  hOld : Bool := false
  turnOld : Nat := 0
  deriving DecidableEq, Repr

/-- A chopper phase beyond its registers (R413 - R417). -/
structure Chop where
  on : Bool := false
  positive : Bool := true
  onAt : Nat := 0
  /-- TONMAX has expired and EN has not been written since TOFAULT was cleared. -/
  locked : Bool := false
  /-- An on-interval has come before the present off-interval. -/
  hadOn : Bool := false
  /-- Beginning of the present off-interval, and how long its fast part is in MIXED decay: a free value, as its length is not known. -/
  offAt : Nat := 0
  fastFor : Nat := 0
  deriving DecidableEq, Repr

/-- A trip input beyond its registers (R408): the level of its pin as last seen, if it has been, the consecutive active, unblanked cell clocks
that its filter has counted, and the cell clock counted last, plus one. -/
structure TripIn where
  pin : Option Bool := none
  count : Nat := 0
  at_ : Nat := 0
  deriving DecidableEq, Repr

/-- A conversion on its way to its result: sample cell clock, its T72, selector, and whether it is to be discarded. -/
structure Sample where
  s : Nat
  time : Nat
  sel : Nat
  epoch : Nat
  skip : Bool
  deriving DecidableEq, Repr

/-- A converter beyond its registers (R421 - R425); a start is SELECT (true) or SCAN. -/
structure Conv where
  tenAt : Nat := 0
  timerAt : Nat := 0
  /-- Starts on their way: cell clock of arrival. -/
  coming : List (Nat × Bool) := []
  /-- The delay line: cell clock of exit. -/
  line : List (Nat × Bool) := []
  /-- Pending slots: cell clock of entry. -/
  scan : Option Nat := none
  select : Option Nat := none
  /-- The conversion in progress: its sample cell clock, and the selectors of the scan still to come. -/
  busy : Option Nat := none
  rest : List Nat := []
  results : List Sample := []
  qptr : Nat := 0
  /-- QENT before the writes of the present cell clock, and the cell clock of its last write plus one (R424). -/
  qentPrev : Word := 0
  qentAt : Nat := 0
  deriving DecidableEq, Repr

/-- An analogue input beyond its registers (R427, R428). -/
structure Ain where
  sum : Int := 0
  n : Nat := 0
  ovr : Bool := false
  /-- Counts the changes of RANGE and FULLN, and the cell clock of the last one plus one. -/
  epoch : Nat := 0
  changedAt : Nat := 0
  /-- Cell clock of a RANGE change whose first conversion is still to come, plus one. -/
  skipAt : Nat := 0
  /-- The latest RES written while VALID (R260). -/
  good : Word := 0
  deriving DecidableEq, Repr

/-- An edge record in the field side's queue (R440). -/
structure FieldEdge where
  num : Nat
  rise : Bool
  tick : Nat
  deriving DecidableEq, Repr

/-- Both sides of the barrier link beyond the registers (R434 - R445). -/
structure Field where
  /-- Filtered levels at the field side, one bit an input. -/
  levels : Tab Bool := []
  edges : List FieldEdge := []
  /-- Inbound packets that still carry EOVF, and whether the last good one did. -/
  eovfLeft : Nat := 0
  eovfSeen : Bool := false
  /-- Input configurations that wait for delivery, oldest first, and the words that the field side holds. -/
  queue : List (Nat × Word) := []
  side : Tab Word := []
  /-- Cell clock at which the packet with the head of the queue first started, plus one. -/
  sentAt : Nat := 0
  /-- VALUE before the orders of a cell clock, and the cell clock of the last order plus one (R435). -/
  before : Tab Bool := []
  orderAt : Tab Nat := []
  /-- The forced field outputs as this cell clock found them (R435). -/
  forced : Tab (Option Bool) := []
  /-- Cell clock at which the last outbound packet started, and at which the last inbound packet to arrive did, plus one. -/
  outAt : Nat := 0
  inFrom : Nat := 0
  /-- Outbound packets that the field side has not had yet: start, commands, configuration write; and the starts of those on which it has not
  reported. -/
  air : List (Nat × Nat × Option (Nat × Word)) := []
  sent : List Nat := []
  /-- RXOK: the field side had the last outbound packet good (R437). -/
  rxok : Bool := false
  /-- The commands that the field side applies (R435). -/
  outs : Tab Bool := []
  /-- Cell clock of the last good inbound packet, or of the link's start. -/
  goodAt : Nat := 0
  /-- Cell clock of the last outbound packet that the field side had good, or of the link's start (R437). -/
  heardAt : Nat := 0
  /-- SUPPLY as the field side judged it for its last packet (R445). -/
  supply : Nat := 2
  deriving DecidableEq, Repr

/-- An encoder beyond its registers (R446 - R448): last samples of A and B and the counts on their way. -/
structure Encoder where
  a : Bool := false
  b : Bool := false
  coming : List (Nat × Int) := []
  /-- Cell clocks of the last change of A and of B, plus one. -/
  aAt : Nat := 0
  bAt : Nat := 0
  deriving DecidableEq, Repr

/-! ### Rings (R329 - R395) -/

/-- A ring configuration as RINGSET accepted it (R351 - R354), with the window it computed (R362). -/
structure RingCfg where
  w : List Word
  /-- Stations in position order: address, offset, length. -/
  stations : List (Nat × Nat × Nat)
  routes : List Word
  openAt : Nat
  loopOpen : Nat
  applyOff : Nat
  close : Nat
  deriving DecidableEq, Repr

/-- What the device knows of the station at a position (R388 - R390). -/
structure Station where
  dropped : Bool := true
  nstate : Nat := 0
  outbad : Bool := false
  loop : Bool := false
  missrun : Nat := 0
  mcrc : Nat := 0
  mepoch : Nat := 0
  seen : Bool := false
  /-- It has marked since BOOT, so that `mcrc` is of a verified mark (R391). -/
  known : Bool := false
  crcsum : Nat := 0
  dropcnt : Nat := 0
  /-- Marked the latest completed cycle. -/
  marked : Bool := false
  /-- Slot bytes of the last marked cycle (R218). -/
  area : List Byte := []
  /-- What completed cycles left that an image may still choose (R218, R219): cycle, slot bytes, marked, dropped out. -/
  past : List (Nat × List Byte × Bool × Bool) := []
  /-- Blocks of the latest completed cycle that hold bytes of its slot and were stored, in the copy that it was taken from. -/
  blocks : List Nat := []
  /-- Reduced stamps of the sweep, in 2^-16 ns: arrival and departure of band and probe (R369, R370). -/
  af : Option Int := none
  df : Option Int := none
  ar : Option Int := none
  dr : Option Int := none
  deriving DecidableEq, Repr

/-- A mailbox message from the device (R346, R347). -/
structure MbxMsg where
  dst : Nat
  src : Nat
  seq : Nat
  data : List Byte
  /-- It lies in the band on the ring. -/
  sent : Bool := false
  /-- KIND: 1 DATA, 3 ACK, 4 STAMP. -/
  kind : Nat := 1
  deriving DecidableEq, Repr

/-- What a master has given a node of its ring (R355, R395): layout id, slot or output area, SLOTLEN of a slotted ring, HOLD in us. -/
structure NodeLayout where
  id : Nat
  offset : Nat
  len : Nat
  slotlen : Nat
  hold : Nat
  deriving DecidableEq, Repr

/-- The module as a node of a parent ring (R332, R343, R395). -/
structure Node where
  /-- Its station address, and the layout it holds; without one it is in INIT. -/
  addr : Nat
  layout : Option NodeLayout := none
  /-- MCRC (R340), and the outputs of the last band that it could not apply (R343). -/
  mcrc : Nat := 0
  outbad : Bool := false
  /-- The outputs in force, those that wait for their apply instant, and the device time at which outputs were last applied. -/
  outputs : List Byte := []
  next : Option (List Byte × Nat) := none
  applied : Nat := 0
  /-- SAFE, until its rearm message (R395). -/
  safe : Bool := false
  /-- Apply instant of the last processed cycle (R335), and the port on which it was processed (R344). -/
  applyAt : Nat := 0
  portB : Bool := false
  /-- Cycle, arrival and departure stamps of the last band and of the last probe, and the side (R342, R368). -/
  band : Option (Nat × Nat × Nat × Bool) := none
  probe : Option (Nat × Nat × Nat) := none
  /-- Sequence number of the last entry consumed from each source, plus one (R347). -/
  heard : Tab Nat := []
  /-- What the module's images have put into its input area, that area as the last sampling instant took it, and the device times of the
  sampling instants to come (R332, R335). -/
  fill : Tab Nat := []
  sample : List Byte := []
  sampDue : List Nat := []
  /-- Forwarding delay of a frame that arrives at port A, and at port B, in 2^-16 ns (R395). -/
  delayA : Nat := 0
  delayB : Nat := 0
  /-- Slotted mode: acknowledgements that wait, device slots seen in this cycle, and the bytes of the output area that they brought. -/
  acks : List MbxMsg := []
  slots : Nat := 0
  got : Tab (Option Byte) := []
  deriving DecidableEq, Repr

/-- A claim in progress (R381): its beginning, its last transmission and the newest epoch met. -/
structure Claim where
  start : Nat
  last : Nat
  epochMax : Nat
  deriving DecidableEq, Repr

/-- A ring. Copies of a band: 0 whole, 1 A-half, 2 B-half. -/
structure Ring where
  cfg : Option RingCfg := none
  /-- A configuration that waits, and the cell clock of its acceptance (R355). -/
  waiting : Option (RingCfg × Nat) := none
  run : Bool := false
  /-- The ports forward as a passive node (R382, R387); the ring is the device's parent ring. -/
  passive : Bool := false
  parent : Bool := false
  lostA : Bool := true
  lostB : Bool := true
  /-- The port sends Remote Fault (R345). -/
  faultA : Bool := false
  faultB : Bool := false
  /-- Cell clock of the cycle start, of the first start to come, and of the window opening plus one. -/
  start : Nat := 0
  first : Option Nat := none
  startTime : Nat := 0
  /-- Device time of the cycle start before, for the stamps of its band (R369). -/
  prevStart : Nat := 0
  cycle : Nat := 0
  opened : Nat := 0
  assembled : Bool := false
  loop : Bool := false
  wantLoop : Bool := false
  leaveLoop : Bool := false
  breakA : Nat := 0
  breakB : Nat := 0
  /-- Blocks stored and blocks discarded in this cycle: key copy * 65536 + block; those of the discarded whose BCRC failed (R391). -/
  rx : Tab (List Byte) := []
  bad : Tab Bool := []
  crcBad : Tab Bool := []
  /-- The blocks of this cycle are due back and not yet counted out (R360). -/
  due : Bool := false
  /-- The whole band came back at port B; the A-half at port B, the B-half at port A; a band at port A (R363, R365). -/
  back : Bool := false
  crossA : Bool := false
  crossB : Bool := false
  atA : Bool := false
  /-- Slotted mode: HALF of the last CYCHDR that arrived at port A and at port B in this cycle, and the device's own slot frames since. -/
  halfA : Option Nat := none
  halfB : Option Nat := none
  ownA : Nat := 0
  ownB : Nat := 0
  /-- Payload of the next band, and its poisoned blocks. -/
  tx : List Byte := []
  txBad : List Nat := []
  /-- Output bytes of the cyclic area as images published them (R174). -/
  out : Tab Nat := []
  msgs : List MbxMsg := []
  /-- Next sequence number of each source (R346), and acknowledgements that wait for the next dynamic frame (R350). -/
  seqs : Tab Nat := []
  acks : List MbxMsg := []
  /-- Last source and sequence number taken from each appended entry's source, plus one. -/
  taken : Tab Nat := []
  stations : Tab Station := []
  /-- Stations of former configurations by address: what they counted since BOOT, and their last marks (R390). -/
  former : Tab Station := []
  /-- The latest completed cycle, and the one before it (R218). -/
  inCycle : Option Nat := none
  inPrev : Option Nat := none
  epoch : Nat := 0
  claim : Option Claim := none
  /-- STAMPNODE position, the device's own stamps, the held delays in ps (R369 - R371): links by k, F and F' by position. -/
  stampPos : Nat := 0
  ar0 : Option Int := none
  afN : Option Int := none
  links : Tab Int := []
  fwd : Tab Int := []
  rev : Tab Int := []
  swept : Bool := false
  /-- F and F' of the last sweep as measured, by position (R393), and DLY and DLYB as last sent to each node (R371). -/
  measured : Tab (Int × Int) := []
  told : Tab (Option (Int × Int)) := []
  /-- FPOS run of R393. -/
  fposRun : Nat := 0
  /-- As a node of this parent ring (R371 - R377): DLY and DLYB in ps as the master sent them, the cell clock of the last aligned
  band with that band's CYCLEN, and a newer epoch that has been met, with the cycles since. -/
  dly : Option (Nat × Nat) := none
  alignAt : Nat := 0
  alignLen : Nat := 0
  newEpoch : Option (Nat × Nat) := none
  /-- Cycle number of the band that the module as a node processed last, plus one (R344). -/
  processed : Nat := 0
  /-- The module as a node of this parent ring. -/
  node : Option Node := none
  /-- Trigger broadcast for the next band (R488). -/
  trig : Option (List Byte) := none
  /-- Trigger broadcasts that wait, oldest first (R488). -/
  trigQ : List (List Byte) := []
  deriving DecidableEq, Repr

/-! ### Fieldbus ports (R449 - R467) -/

/-- A transmit mailbox beyond its registers: state 0 EMPTY, 1 PENDING, 2 ACTIVE, 3 DONE (R457). -/
structure Mailbox where
  st : Nat := 0
  result : Nat := 0
  data : List Byte := []
  /-- A cancel is registered (R461); arbitration has been won once, so that the request is counted produced (R462). -/
  cancel : Bool := false
  produced : Bool := false
  deriving DecidableEq, Repr

/-- A fieldbus port beyond its registers. -/
structure Can where
  boxes : Tab Mailbox := []
  /-- The frame chosen for the next SOF or on the bus: mailbox, or 64 for the reference message, and the cell clock of its SOF. -/
  chosen : Option (Nat × Nat) := none
  /-- It has won arbitration (R461). -/
  won : Bool := false
  refPend : Bool := false
  /-- The reference message that waits has won arbitration, so that it counts as produced (R462). -/
  refMade : Bool := false
  refFirst : Bool := true
  /-- SOF of the last successful reference message, in device time; when the next one is due. -/
  refSof : Nat := 0
  refDue : Nat := 0
  /-- Device time of the last body error of an identifier, plus one (R465). -/
  errs : Tab Nat := []
  deriving DecidableEq, Repr

/-! ### Signal history (R468 - R478) and capture units (R479 - R489) -/

/-- A signal's open segment (R473, R475): stamps in ns, cell clock of the first entry, period, and the payload words. -/
structure OpenSeg where
  timed : Bool
  forced : Bool
  c0 : Nat
  t0 : Nat
  tlast : Nat
  period : Nat := 0
  count : Nat := 0
  words : List Word := []
  /-- Stamps of the entries in ns. -/
  stamps : List Nat := []
  /-- Time since the start at the first entry, for its age. -/
  born : Nat := 0
  deriving DecidableEq, Repr

/-- What the history unit keeps of a signal (R471, R473). -/
structure Signal where
  credit : Nat := 0
  seg : Option OpenSeg := none
  sseq : Nat := 0
  overcnt : Nat := 0
  dropcnt : Nat := 0
  /-- Cell clock of declaration, and of the latest periodic entry plus one (R469). -/
  declared : Nat := 0
  took : Nat := 0
  deriving DecidableEq, Repr

/-- A closed segment that waits to be written: its lines and its entry words (R475, R477). -/
structure ClosedSeg where
  cc : Nat
  signal : Nat
  words : List Word
  entryWords : Nat
  /-- The segment that it closed from, none for a MARKER, and the entries in it whose staging word the code cannot correct, which
  nothing has found yet (R475). -/
  src : Option OpenSeg := none
  bad : List Nat := []
  deriving DecidableEq, Repr

/-- The history unit beyond its registers: resident segments as their words with padding, oldest first. -/
structure Hist where
  signals : Tab Signal := []
  closed : List ClosedSeg := []
  resident : List Nat := []
  deriving DecidableEq, Repr

/-- A trigger that a capture unit has not taken yet: its kind, its time and the time its trigger sample must reach, in
2^-16 ns, and its cell clock. -/
structure Trigger where
  kind : Nat
  time : Nat
  target : Nat
  cc : Nat
  deriving DecidableEq, Repr

/-- A stored sample (R481): its values, the time in ns and cell clock of its first paced value, the time of its last, and
whether a force was active. -/
structure CapSample where
  vals : List Int
  time : Nat
  cc : Nat
  last : Nat
  forced : Bool
  /-- Channels of which a value in it has saturated (R486). -/
  sat : List Bool := []
  deriving DecidableEq, Repr

/-- A closed record that waits in its half of the record memory: its words and the buffer it goes to (R487). -/
structure CapRecord where
  words : List Word
  buffer : Nat
  /-- A line of it in record memory is poisoned, which the copy has not met yet (R487). -/
  poison : Bool := false
  /-- ETASK of the arming that it was recorded under. -/
  etask : Nat := 0
  deriving DecidableEq, Repr

/-- A capture unit beyond its registers (R479 - R489); st: 0 IDLE, 1 ARMED, 2 RECORDING, 3 REARM. -/
structure Capture where
  st : Nat := 0
  desc : List Word := []
  /-- A CAPARM that waits (PENDARM). -/
  held : Option (List Word) := none
  armedAt : Nat := 0
  origin : List Int := []
  pacedAt : Nat := 0
  /-- Channel 0's latest paced value and its time in ns. -/
  prev : Option (Int × Nat) := none
  primedRise : Bool := false
  primedFall : Bool := false
  /-- Sums in progress (R481): channel sums, paced values in them, time and cell clock of the first, a force seen since the last
  stored sample. -/
  sums : List Int := []
  n : Nat := 0
  first : Nat := 0
  firstCc : Nat := 0
  sumForced : Bool := false
  /-- Channels of which a value in the sum in progress has saturated. -/
  sumSat : List Bool := []
  /-- Stored samples held, oldest first. -/
  samples : List CapSample := []
  /-- A new value of channel 0 has come with this stamp in ns (NATIVE pacing). -/
  fresh : Option Nat := none
  triggers : List Trigger := []
  /-- The trigger of the record in progress, and the index of the stored sample that holds its trigger sample. -/
  trig : Option Trigger := none
  index : Option Nat := none
  late : Bool := false
  short : Bool := false
  /-- Triggers missed since the previous record. -/
  missed : Nat := 0
  records : List CapRecord := []
  /-- Trigger bus pulses that are due, oldest first: the line, and the moment in 2^-32 ns (R489). -/
  drive : List (Nat × Nat) := []
  deriving DecidableEq, Repr

/-! ### Brim (R503 - R529) -/

/-- A pair of safety inputs (R506 - R508): the last samples of both channels, newest first, whether both have shown demand
since the pair entered demand, cycles of differing levels, and cycles of both energised (RESET). -/
structure BrimPair where
  a : List Bool := []
  b : List Bool := []
  both : Bool := false
  differ : Nat := 0
  pressed : Nat := 0
  deriving DecidableEq, Repr

/-- A monitored axis (R512 - R515): Brim's own count, the magnitude of the latest speed, the last valid SEQ plus one, cycles
since the last valid container, and the stop in progress. -/
structure BrimAxis where
  count : Option Int := none
  speed : Nat := 0
  seq : Nat := 0
  age : Nat := 0
  lost : Bool := false
  v0 : Nat := 0
  above : Nat := 0
  still : Nat := 0
  deriving DecidableEq, Repr

/-- A stop of an output (R515): cycles since it began, the cause of its demand, and its Brim cycle. -/
structure BrimStop where
  m : Nat := 0
  cause : Nat := 0
  /-- TMAX has passed. -/
  expired : Bool := false
  deriving DecidableEq, Repr

/-- A parameter block that pair 0 has put into Brim's mailbox, with the request's TAG and buffer (R22, R524). -/
structure BrimMail where
  words : List Word := []
  tag : Word := 0
  buffer : Nat := 0
  deriving DecidableEq, Repr

/-- Brim beyond its registers. -/
structure Brim where
  /-- The parameter block in force (R522), empty in NOPARAM; the stored block with its check. -/
  block : List Word := []
  stored : List Word := []
  /-- The block mailbox, which Brim reads at its cycle starts (R22). -/
  mailbox : Option BrimMail := none
  /-- Brim cycles since the start of operation, and whether the decision point of the present one is still to come. -/
  cycle : Nat := 0
  due : Bool := false
  pairs : Tab BrimPair := []
  axes : Tab BrimAxis := []
  stops : Tab BrimStop := []
  /-- A reset acts at the next decision point (R517). -/
  reset : Bool := false
  /-- A request for SAFESTOP waits for the end of a transition (R573). -/
  wantSafe : Bool := false
  /-- F24V is missing, and cycles for which it has been above 11 V since (R510). -/
  f24 : Bool := false
  f24Good : Nat := 0
  /-- The output of the latest test pulse had both switches closed when the pulse began; the cycle from which on tests are made again
  after F24V was missing (R510). -/
  pulseOn : Bool := false
  testFrom : Nat := 0
  /-- The Brim cycle from whose decision point on 14 ms have passed since hold-up began, plus one (R520). -/
  holdAt : Nat := 0
  /-- The switches have been read since power-up (R525). -/
  booted : Bool := false
  deriving DecidableEq, Repr

/-! ### What outlives the power (R576 - R588) and what a checkpoint carries (R538) -/

/-- The units' state as the restart state (R576) or the unit state area (R538) holds it. -/
structure Units where
  mode : Nat := 0
  level : Nat := 0
  time : Nat := 0
  regs : Tab Word := []
  owners : Tab Nat := []
  cues : Tab Cue := []
  lanes : Tab Lane := []
  spGroups : Tab SpGroup := []
  axes : Tab Axis := []
  axGroups : Tab AGroup := []
  steps : Tab StepGen := []
  pwm : Tab Pwm := []
  chops : Tab Chop := []
  convs : Tab Conv := []
  ains : Tab Ain := []
  tasks : Tab Task := []
  cans : Tab Can := []
  /-- Ring configurations and epochs, by ring, and the output bytes that images had published (R549). -/
  rings : List (Option RingCfg × Nat) := []
  outs : List (Tab Nat) := []
  streams : Tab Stream := []
  /-- Words of the journal region, and its lines that are poisoned (R78). -/
  journal : Tab Word := []
  journalBad : List Nat := []
  /-- Hash of the stored program and the versions of the running images. -/
  program : List Byte := []
  images : List Nat := []
  deriving DecidableEq, Repr

/-- A flash bank of a firmware class (R580): its header and its result words. -/
structure Bank where
  header : List Word := []
  words : List Word := []
  deriving DecidableEq, Repr

/-- Flash, MRAM and the update unit (R576 - R593). -/
structure Store where
  /-- The stored program (R577). -/
  program : List Word := []
  /-- The restart state, not yet consumed, and the CRC-32C of its header (R576, R612). -/
  restart : Option Units := none
  restartCrc : Nat := 0
  /-- Running and spare banks of classes 1-5. -/
  running : Tab Bank := []
  spare : Tab Bank := []
  /-- Classes installed in the present session (R583). -/
  installed : List Nat := []
  /-- Seconds of powered time of the confirmation window spent, and the moment up to which they are counted (R586). -/
  spent : Nat := 0
  spentAt : Nat := 0
  /-- Window length of the trial in progress. -/
  window : Nat := 0
  bootFails : Nat := 0
  /-- The next reset enters RECOVERY (MODE RECOVERY, R591); the next BOOT falls back (R587). -/
  recover : Bool := false
  fallback : Bool := false
  /-- Words of an image received in RECOVERY, and the SEQ of the last good maintenance frame plus one (R592, R593). -/
  recv : List Word := []
  mseq : Nat := 0
  deriving DecidableEq, Repr

/-- Modes beyond SYS.MODE (R572 - R578). -/
structure Modes where
  /-- The transition in progress: target and cause. -/
  trans : Option (Nat × Nat) := none
  /-- RESUME (1) or a takeover (2) is in progress, with the mode that its end enters. -/
  resume : Nat := 0
  goal : Nat := 0
  /-- The restart task is posted with this cause at the first tick of a mode that grants tasks (R327). -/
  restart : Nat := 0
  /-- Rings whose first window opening has come (R546, R578). -/
  opened : List Nat := []
  /-- Tasks stopped TRAPPED that resume first, and the module held in reset (R605). -/
  inReset : Bool := false
  /-- Moment at which hold-up began. -/
  holdAt : Option Nat := none
  /-- The cell clock has been lost since the last reset (R409). -/
  clockLost : Bool := false
  /-- VIO, the J2 logic supply, is below its limit (R409, R600). -/
  vioLow : Bool := false
  /-- RESET_N is low (R605), and the power-on reset that waits for it to go high. -/
  pinLow : Bool := false
  porWaits : Bool := false
  deriving DecidableEq, Repr

/-- The pair port (R530 - R549) beyond its registers. -/
structure Pair where
  /-- DRAM checkpoint regions: first word and length. -/
  regions : List (Nat × Nat) := []
  /-- Lines written since the cut (R539), the lines of the checkpoint in progress, and whether the next is a full one. -/
  dirty : Tab Bool := []
  sending : List Nat := []
  full : Bool := false
  /-- The END of the checkpoint in progress waits for its answer; its cut and that of the one before. -/
  waiting : Bool := false
  cutAt : Option Nat := none
  number : Word := 0
  /-- Moments of the last good frame received and of the last heartbeat sent. -/
  goodAt : Nat := 0
  beatAt : Nat := 0
  /-- The output gate is closed (R535, R545); the ring ports are disabled until power-on reset. -/
  gate : Bool := false
  portsOff : Bool := false
  /-- Staged records of the standby: line, metadata bits, words; a record of this checkpoint failed its check. -/
  staging : List (Nat × Nat × List Word) := []
  bad : Bool := false
  /-- Cut time of the last committed checkpoint. -/
  lastCut : Nat := 0
  /-- Epochs of the peer's rings as its heartbeats show them. -/
  epochs : List Nat := []
  /-- T0 of the takeover in progress. -/
  takeAt : Nat := 0
  /-- A takeover was refused because the ACTIVE levels differ (R13): the report, whose form no rule gives. -/
  mismatch : Bool := false
  /-- The checkpoint in progress is a full one (R536). -/
  wasFull : Bool := false
  /-- The standby: a checkpoint has been committed since the link came up, and its clock follows the active module's within 2 ns
  (R533, R536). -/
  committed : Bool := false
  aligned : Bool := false
  /-- Mirrored journal lines (R322), as line, metadata bits and words: those of before and after the first record of the present
  checkpoint. -/
  mirrorOld : List (Nat × Nat × List Word) := []
  mirrorNew : List (Nat × Nat × List Word) := []
  deriving DecidableEq, Repr

/-- A request of the primary twin that was executed before the secondary issued it (R544): its instruction word and operand values;
what it wrote to the core, general registers, FL and ERRC; the block that it stored at its Ga; or the fault and the address it ended in. -/
structure TwinDone where
  word : Word
  vals : List Word
  flt : Option (Nat × Word) := none
  block : List Word := []
  regs : List (Nat × Word)
  fl : Word
  errc : Word
  deriving DecidableEq, Repr

/-- A pair of compared twins (R544): the core, instruction word and operand values that wait for the other twin, and whether that is
the secondary; the executed requests that the secondary has still to issue, oldest first; and the block that the primary's present
request has stored. -/
structure Twin where
  waiting : Option (Bool × Nat × Word × List Word) := none
  done : List TwinDone := []
  block : List Word := []
  deriving DecidableEq, Repr

/-! ### Messages to the outside -/

/-- What the block sends out, oldest first. -/
inductive Msg where
  | msix (vector : Nat)
  | band (ring : Nat) (port : Nat) (body : List Byte) (tail : BitVec 24 := 0)
  /-- Remote Fault on a ring port begins or ends (R329, R345). -/
  | remoteFault (ring : Nat) (port : Nat) (on : Bool)
  /-- An outbound barrier packet: output commands, configuration write, CRC-8 (R434). -/
  | barrier (out : Nat) (cfg : Option (Nat × Word)) (crc : Nat)
  | can (port : Nat) (frame : CanFrame)
  /-- An acknowledgement, and an error flag, active or passive, that a port drives (R454, R463). -/
  | canAck (port : Nat)
  | canFlag (port : Nat) (passive : Bool)
  | heartbeat (h : Heartbeat)
  | pairRecord (body : List Byte)
  | checkpointAnswer (number : Word) (accepted : Bool)
  | mirrorAck
  | release (cause : Nat)
  /-- An 8 cc pulse on a trigger bus line, its rising edge at a device time in 2^-32 ns (R489). -/
  | busPulse (line : Nat) (at_ : Nat)
  | field (out : Nat) (on : Bool)
  /-- A pulse of a step generator: DIR positive after DIRINV, and the level of STEP in the pulse (R304, R411). -/
  | stepPulse (gen : Nat) (positive high : Bool)
  | pin (name : String) (high : Bool)
  | maintenance (body : List Byte)
  | completion (slots : List Word) (ep : Bool)
  deriving DecidableEq, Repr

/-! ### The journal's mirror (R322) -/

/-- A JBEGIN or JEND whose line the standby has not acknowledged: its core, destination and handle. -/
structure MirrorWait where
  core : Nat
  begins : Bool
  d : Nat
  handle : Word
  /-- Its instruction word. -/
  word : Word
  deriving DecidableEq, Repr

/-! ### Event recorder (R490 - R502) and host window (R552 - R570, R616) -/

/-- The event recorder beyond its registers and the live record in Crown memory. -/
structure Evr where
  /-- Fault kinds seen since the previous record (R498). -/
  causes : List Nat := []
  /-- A REQUEST or the POWERUP waits for the next fold. -/
  request : Bool := false
  powerup : Bool := true
  /-- The recorder's own tallies of the second in progress by histogram: extremes and counts (R491, R492). -/
  tally : Tab (Option Int) := []
  /-- Counters as the last fold found them. -/
  last : Tab Nat := []
  /-- Records that wait to be written to MRAM, oldest first, and the MRAM slots (R497). -/
  writing : List (List Word) := []
  slots : Tab (List Word) := []
  deriving DecidableEq, Repr

/-- A PROGRAM request that runs on Crown pair 0 (R616). -/
structure Prog where
  tag : Word
  /-- Instructions executed, of at most 10,000. -/
  count : Nat := 0
  deriving DecidableEq, Repr

/-- The host window: BAR0 registers and what the endpoint keeps. -/
structure HostWin where
  ready : Bool := false
  reqpi : Word := 0
  reqci : Word := 0
  rsppi : Word := 0
  rspci : Word := 0
  evpi : Word := 0
  baddb : Word := 0
  wrdrop : Word := 0
  /-- HOST.WIN.1-7, offset by the reset value 32. -/
  win : Tab Nat := []
  /-- The last value a host read returned: BAR0 slots, and the words and poison of a BAR2 line. -/
  read : Word := 0
  /-- Last time each MSI-X vector was sent, plus one (R569). -/
  vecAt : Tab Nat := []
  /-- Vectors whose condition has recurred within 2 us of their last message. -/
  vecWait : List Nat := []
  prog : Option Prog := none
  deriving DecidableEq, Repr

/-! ### The whole -/

/-- The state of the module. -/
structure State where
  /-- Device time in 2^-32 ns (R79), and cell clocks since reset. -/
  now : Nat := 0
  cc : Nat := 0
  /-- Device time of the cell clock before (R98), and the offset by which a load has moved device time (R81). -/
  prevNow : Nat := 0
  loadD : Int := 0
  /-- Device time of past cell clocks, newest first: from a cell clock on, the time at it and the increment (R79). -/
  clocks : List (Nat × Nat × Nat) := []
  /-- Frequency estimate of a device that aligns, as an increment (R373). -/
  freqEst : Nat := 0x280000000
  /-- The next number of a free value: the model's own field. -/
  free : Nat := 0
  /-- System registers by offset from 0x0_0010_0000 (R57), an unlisted one at its reset value. -/
  regs : Tab Word := []
  /-- Owner tile of a cell, coordinate or capture unit by its offset, plus one; 0 is unowned (R17). -/
  owners : Tab Nat := []
  mem : Memory := {}
  loc : LocalMem := {}
  spine : Spine := {}
  census : Census := {}
  cores : Tab Core := []
  tasks : Tab Task := []
  sched : Sched := {}
  exch : Exchange := {}
  coords : Tab Coord := []
  cues : Tab Cue := []
  actions : List Action := []
  /-- Actions executed in the present cell clock (R99). -/
  actionsDone : Nat := 0
  orders : List Order := []
  /-- Conflicts of lanes that are logged with the T72 of the lane's next sample (R45), oldest first. -/
  conflicts : List Conflict := []
  lanes : Tab Lane := []
  /-- Cycle number of the latest late cycle of a law unit by ring, plus one, keyed 2 * unit + ring (R257). -/
  lawLate : Tab Nat := []
  spGroups : Tab SpGroup := []
  axes : Tab Axis := []
  axGroups : Tab AGroup := []
  steps : Tab StepGen := []
  pwm : Tab Pwm := []
  chops : Tab Chop := []
  trips : Tab TripIn := []
  convs : Tab Conv := []
  ains : Tab Ain := []
  field : Field := {}
  encs : Tab Encoder := []
  rings : Tab Ring := []
  cans : Tab Can := []
  /-- Buffers that MBXRECV gave for incoming messages (R564). -/
  mbxBufs : List Nat := []
  hist : Hist := {}
  caps : Tab Capture := []
  /-- Device time of the latest pulse on a trigger bus line, plus one (R489). -/
  pulses : Tab Nat := []
  /-- The analogue calibration in progress: its cell clock of beginning (R432). -/
  calAt : Option Nat := none
  /-- Journal instructions that wait for the standby, oldest first. -/
  mirror : List MirrorWait := []
  /-- The journal line of the latest JPROG of a step, plus one, by handle (R318): the model's own field. -/
  jLast : Tab Nat := []
  evr : Evr := {}
  brim : Brim := {}
  modes : Modes := {}
  store : Store := {}
  peer : Pair := {}
  /-- Requests of compared twins that wait, by compare table entry. -/
  twins : Tab Twin := []
  host : HostWin := {}
  outbox : List Msg := []
  /-- Commands that wait, first in, first out. -/
  pending : List Instr := []
  deriving DecidableEq, Repr

/-- The module right after the release of a power-on reset: BOOT begins (R574). -/
def State.reset : State := {}

/-- Reasons a step stops with a fault. -/
inductive Fault where
  /-- Raised by no meaning: the module has lost every supply, including hold-up, and nothing runs. Safe. -/
  | powerLost
  deriving DecidableEq, Repr

/-- Reasons a command has no meaning. -/
inductive Refusal where
  /-- The command of this name has no meaning yet; raised by its arm of exec only. Safe. -/
  | notModelled (mnemonic : String)
  deriving DecidableEq, Repr

end Sys2Proof.Machine
end

