-- ==== Sys2Proof/Machine/Ops.lean ====
section
/-! DEFINITION. The shared operations: registers, device time, streams, line memory, tile-local memory, the spine, events
to the Crown, orders and their ranking. -/

namespace Sys2Proof.Machine

/-! ### Registers -/

/-- The stored word of the register at an offset (R57). -/
def State.reg (s : State) (o : Nat) : Word := Tab.get (regReset o) s.regs o

/-- Store a word at an offset. -/
def State.setReg (s : State) (o : Nat) (v : Word) : State := { s with regs := Tab.put (regReset o) s.regs o v }

/-- A field of a stored register. -/
def State.rfld (s : State) (o hi lo : Nat) : Nat := fld (s.reg o) hi lo

/-- Replace a field of a stored register. -/
def State.setRfld (s : State) (o hi lo v : Nat) : State := s.setReg o (setFld (s.reg o) hi lo v)

/-- Add k to a counter register, modulo 2^36. -/
def State.incReg (s : State) (o k : Nat) : State := s.setReg o (wd ((s.reg o).toNat + k))

/-- Add k to a saturating counter field. -/
def State.satRfld (s : State) (o hi lo k : Nat) : State :=
  s.setRfld o hi lo (min (s.rfld o hi lo + k) (2 ^ (hi + 1 - lo) - 1))

/-! ### Free values -/

/-- The next free word, and the state with its number used up (DESIGN CHOICE, assumption 3). -/
def State.drawWord (s : State) : Word × State := (Config.freeWord s.free, { s with free := s.free + 1 })

/-! ### Device time (R54, R79) -/

/-- Units of device time in one nanosecond, microsecond, millisecond and second. -/
def tNs : Nat := 2 ^ 32
/-- One microsecond in units of 2^-32 ns. -/
def tUs : Nat := 1000 * tNs
/-- One millisecond. -/
def tMs : Nat := 1000 * tUs
/-- One second. -/
def tSec : Nat := 1000 * tMs

/-- The T72 of a device time, the fraction dropped and the seconds modulo 2^42 (R54, R79). -/
def t72 (t : Nat) : DWord := dw ((t / tSec % 2 ^ 42) * 2 ^ 30 + t % tSec / tNs)

/-- The device time of a T72, in 2^-32 ns. -/
def ofT72 (d : DWord) : Nat := d.toNat / 2 ^ 30 * tSec + d.toNat % 2 ^ 30 * tNs

/-- The T72 of the present cell clock. -/
def State.t72 (s : State) : DWord := Machine.t72 s.now

/-- A moment of device time as time since the start, which no load moves (R81). -/
def State.elapsedAt (s : State) (t : Nat) : Nat := ((t : Int) - s.loadD).toNat

/-- Time since the start, in 2^-32 ns: what counts durations that a load leaves as they were (R81). -/
def State.elapsed (s : State) : Nat := s.elapsedAt s.now

/-- The device time of a moment since the start. -/
def State.deviceAt (s : State) (e : Nat) : Nat := ((e : Int) + s.loadD).toNat

/-- The present time in whole microseconds. -/
def State.us (s : State) : Nat := s.now / tUs

/-- The present major mode (R4), SYS.MODE [3:0] at offset 0x80. -/
def State.mode (s : State) : Nat := s.rfld offSysMode 3 0

/-! ### Streams (R32 - R35) -/

/-- A stream by its number in R613. -/
def State.stream (s : State) (i : Nat) : Stream := Tab.get {} s.census.streams i

/-- Replace a stream. -/
def State.setStream (s : State) (i : Nat) (x : Stream) : State :=
  { s with census := { s.census with streams := Tab.put {} s.census.streams i x } }

/-- n items produced into a stream. -/
def State.produce (s : State) (i n : Nat) : State :=
  let x := s.stream i
  s.setStream i { x with produced := x.produced + n, resident := x.resident + n }

/-- n resident items delivered. -/
def State.deliver (s : State) (i n : Nat) : State :=
  let x := s.stream i
  s.setStream i { x with delivered := x.delivered + n, resident := x.resident - n }

/-- n resident items dropped under a reason of R35. -/
def State.drop (s : State) (i r n : Nat) : State :=
  let x := s.stream i
  s.setStream i { x with dropped := Tab.put 0 x.dropped r (Tab.get 0 x.dropped r + n), resident := x.resident - n }

/-- Stream numbers of R613. -/
def strHist : Nat := 0
/-- History ring to host. -/
def strHistHost : Nat := 1
/-- Capture records of unit u. -/
def strCap (u : Nat) : Nat := 2 + u
/-- Band output blocks of ring r. -/
def strBandOut (r : Nat) : Nat := 18 + 2 * r
/-- Band input blocks of ring r. -/
def strBandIn (r : Nat) : Nat := 19 + 2 * r
/-- Band mailbox messages of ring r. -/
def strMbx (r : Nat) : Nat := 22 + r
/-- Fieldbus receive of port p. -/
def strCanRx (p : Nat) : Nat := 24 + p
/-- Fieldbus transmit of port p. -/
def strCanTx (p : Nat) : Nat := 28 + p
/-- Barrier packets from the device to the field. -/
def strBarOut : Nat := 32
/-- Barrier packets from the field to the device. -/
def strBarIn : Nat := 33
/-- Host requests. -/
def strReq : Nat := 34
/-- Host responses. -/
def strRsp : Nat := 35
/-- Checkpoint lines. -/
def strCp : Nat := 36
/-- Task posts of quadrant q. -/
def strPost (q : Nat) : Nat := 37 + q
/-- Scheduler trace of quadrant q. -/
def strTrace (q : Nat) : Nat := 41 + q

/-! ### Line memory (R57 - R70) -/

/-- The target that holds an address: quadrants 0-3, Crown 4, DRAM0 5, DRAM1 6 (R23, R57). -/
def targetOf (a : Nat) : Option Nat :=
  if Config.quadBase ≤ a ∧ a < Config.quadBase + 4 * Config.quadWords then some ((a - Config.quadBase) / Config.quadWords)
  else if Config.crownBase ≤ a ∧ a < Config.crownEnd then some 4
  else if Config.dramBase ≤ a ∧ a < Config.dramEnd then some (5 + a / 8 % 2)
  else none

/-- What an unlisted word of line memory reads as: the live record's MIN and MAX on a new module (R495), else 0
(DESIGN CHOICE, assumption 6). -/
def memReset (a : Nat) : Word :=
  if 0x2750810 ≤ a ∧ a < 0x2750B10 then
    (if (a - 0x2750810) % 6 = 0 then wdI s36Max else if (a - 0x2750810) % 6 = 1 then wdI s36Min else 0)
  else 0

/-- The word of line memory at an address. -/
def State.word (s : State) (a : Nat) : Word := Tab.get (memReset a) s.mem.words a

/-- The metadata of a line. -/
def State.lineMeta (s : State) (l : Nat) : LineMeta := Tab.get {} s.mem.lines l

/-- Is the line of an address poisoned. -/
def State.poisoned (s : State) (a : Nat) : Bool := (s.lineMeta (a / 8)).poison

/-- The eight words of a line. -/
def State.lineWords (s : State) (l : Nat) : List Word := (List.range 8).map (fun k => s.word (8 * l + k))

/-- n words of line memory from an address. -/
def State.words (s : State) (a n : Nat) : List Word := (List.range n).map (fun k => s.word (a + k))

/-- Store one word, nothing else. -/
def Memory.putWord (m : Memory) (a : Nat) (v : Word) : Memory := { m with words := Tab.put (memReset a) m.words a v }

/-- Store a run of words from an address. -/
def Memory.putWords (m : Memory) : Nat → List Word → Memory
  | _, [] => m
  | a, v :: r => (m.putWord a v).putWords (a + 1) r

/-- Store those words of a line whose mask bit is set. -/
def Memory.putMasked (m : Memory) (a mask : Nat) : List Word → Memory
  | [] => m
  | v :: r => (if mask % 2 = 1 then m.putWord a v else m).putMasked (a + 1) (mask / 2) r

/-- Replace a line's metadata. -/
def Memory.putMeta (m : Memory) (l : Nat) (x : LineMeta) : Memory := { m with lines := Tab.put {} m.lines l x }

/-- The canonical form of the line memories: addresses strictly rising, nothing listed that reads as unlisted. -/
def Memory.wf (m : Memory) : Bool := Tab.wf memReset m.words && Tab.wf (fun _ => ({} : LineMeta)) m.lines

/-- Free remap entries of both targets (R72). -/
def State.spareFree (s : State) : Nat := 65536 - s.mem.spares0 - s.mem.spares1

/-- Retire a DRAM line into the next spare slot of its target, if one is free (R70, R71)
(see assumption 13, DESIGN CHOICE). -/
def State.retire (s : State) (l : Nat) : State :=
  let used := if l % 2 = 0 then s.mem.spares0 else s.mem.spares1
  if used < 32768 then
    let m := { s.mem with
      remap := Tab.put 0 s.mem.remap l (used + 1)
      errs := Tab.put {} s.mem.errs l {}
      needed := Tab.put false s.mem.needed l false
      spares0 := if l % 2 = 0 then used + 1 else s.mem.spares0
      spares1 := if l % 2 = 0 then s.mem.spares1 else used + 1 }
    let s := { s with mem := m }.incReg offMemRetired 1
    -- the target's last entry is in use: SPAREOUT, and a snapshot (R71)
    if used = 32767 then { s with evr := { s.evr with causes := s.evr.causes ++ [snapSpareOut] } } else s
  else s

/-- Does a line lie in the scope of a checkpoint (R538). -/
def State.inScope (s : State) (l : Nat) : Bool :=
  let a := 8 * l
  (Config.quadBase ≤ a && a < Config.quadBase + 4 * Config.quadWords)
    || (0x2700000 ≤ a && a < 0x2800000 && !(0x2750000 ≤ a && a < 0x2751000))
    || s.peer.regions.any (fun r => decide (r.1 ≤ a + 7) && decide (a < r.1 + r.2))

/-- Hardware of an active module marks a written line dirty (R539). -/
def State.markDirty (s : State) (l : Nat) : State :=
  if s.rfld (offPair 0) 35 34 = 1 && s.inScope l then
    { s with peer := { s.peer with dirty := Tab.put false s.peer.dirty l true } }
  else s

/-- Decode a stored line (R64): what the target does to the line, its counters and its retirement
(see assumption 13, DESIGN CHOICE). -/
def State.decode (s : State) (l : Nat) : State :=
  let e := Tab.get {} s.mem.errs l
  if (s.lineMeta l).poison || (e.symbols = 0 && !e.tagWrong) then s
  else if e.tagWrong || (4 < e.symbols && Config.freeBit s.free) then
    let m := { (s.mem.putWords (8 * l) e.asRead).putMeta l { s.lineMeta l with poison := true } with
      errs := Tab.put {} s.mem.errs l {} }
    (({ s with mem := m, free := s.free + 1 }.incReg offMemUncorr 1).setReg offMemLastBad (wd (8 * l))).markDirty l
  else if 4 < e.symbols then
    -- not detected (R64): the decoder delivers a line that is free
    { s with
      mem := { s.mem.putWords (8 * l) ((List.range 8).map (fun k => Config.freeWord (s.free + 1 + k))) with
        errs := Tab.put {} s.mem.errs l {} }
      free := s.free + 9 }
  else
    let s := s.incReg offMemCorr 1
    if Config.dramBase ≤ 8 * l ∧ 3 ≤ e.symbols then s.retire l else s

/-- A line write at its target (R65): full with mask 0xFF, else a read-modify-write. -/
def State.lineWrite (s : State) (l mask : Nat) (data : List Word) (poison : Bool) (owner : BitVec 2) : State :=
  let s := if mask = 255 then s else s.decode l
  let p := if mask = 255 then poison else (s.lineMeta l).poison || poison
  let m := (s.mem.putMasked (8 * l) mask data).putMeta l
    { owner := owner, poison := p, version := (s.lineMeta l).version + 1 }
  State.markDirty { s with mem := { m with errs := Tab.put {} m.errs l {} } } l

/-- The mask of a run of n words from word k of a line. -/
def maskOf (k n : Nat) : Nat := (2 ^ n - 1) * 2 ^ k % 256

/-- Split a write of words at an address into line writes. -/
def State.spanWrite (owner : BitVec 2) (poison : Bool) : Nat → State → Nat → List Word → State
  | 0, s, _, _ => s
  | fuel + 1, s, a, ws =>
    if ws.isEmpty then s
    else
      let k := a % 8
      let n := min (8 - k) ws.length
      State.spanWrite owner poison fuel
        (s.lineWrite (a / 8) (maskOf k n) (List.replicate k 0 ++ ws.take n) poison owner) (a + n) (ws.drop n)

/-- A device agent (Crown pair 0 firmware, the image unit, a band engine, HIST) writes words of line memory in one go: OWNER
becomes DEVICE and VERSION rises once a line (R60, R65; DEDUCED, assumption 8). -/
def State.agentWrite (s : State) (a : Nat) (ws : List Word) : State := State.spanWrite 1 false ws.length s a ws

/-- One word written by a device agent (see assumption 8, DEDUCED). -/
def State.agentWord (s : State) (a : Nat) (w : Word) : State := s.agentWrite a [w]

/-- Decode n lines from line l: what a read of them does to each (R64). A line that no disturbance has met is as it stands. -/
def State.decodes (s : State) (l n : Nat) : State :=
  ((s.mem.errs.filter (fun e => decide (l ≤ e.1) && decide (e.1 < l + n))).map Prod.fst).foldl State.decode s

/-- Is one of n lines from line l poisoned. -/
def State.linesPoisoned (s : State) (l n : Nat) : Bool :=
  s.mem.lines.any (fun e => decide (l ≤ e.1) && decide (e.1 < l + n) && e.2.poison)

/-- The lines that hold n words from an address. -/
def lineSpan (a n : Nat) : Nat := if n = 0 then 0 else (a + n + 7) / 8 - a / 8

/-- A device agent reads n words of line memory (R64, R66): the words, whether a line of them is poisoned, and the state after each
line has been decoded (see assumption 8, DEDUCED). -/
def State.agentRead (s : State) (a n : Nat) : List Word × Bool × State :=
  let s := s.decodes (a / 8) (lineSpan a n)
  (s.words a n, s.linesPoisoned (a / 8) (lineSpan a n), s)

/-- A reader in the memory's own quadrant, or of Crown memory in the Crown, meets the lines that hold n words from an address: each
is decoded, and one of them may be poisoned (R64, R66). -/
def State.meets (s : State) (a n : Nat) : Bool × State :=
  let s := s.decodes (a / 8) (lineSpan a n)
  (s.linesPoisoned (a / 8) (lineSpan a n), s)

/-! ### Forces (R235, R236, R239) -/

/-- First word of the force table. -/
def forceBase : Nat := 0x2710000

/-- Addresses of the VALID entries of the force table. -/
def State.forces (s : State) : List Nat :=
  (s.mem.words.filter (fun e => forceBase ≤ e.1 && e.1 < forceBase + 0x4000 && e.1 % 4 = 0 && bit e.2 35)).map Prod.fst

/-- Is a force in force (R239). -/
def State.forceActive (s : State) : Bool := !s.forces.isEmpty

/-- FORCE.STAT (R239): COUNT and ACTIVE of the table as it stands. -/
def State.forceStat (s : State) : Word := wd (at_ s.forces.length 1 + b2n s.forceActive)

/-- A reader of the force table meets its lines (R64, R66). -/
def State.forcesMet (s : State) : Bool × State := s.meets forceBase 0x4000

/-! ### Tile-local memory (R59, R114) -/

/-- Key of a tile-local word. -/
def locKey (t a : Nat) : Nat := t * 65536 + a

/-- Is a tile-local address in the scratch region (R114). -/
def inScratch (a : Nat) : Bool := 0xE000 ≤ a && a < 0xF000

/-- The stored tile-local word; a scratch word not written since the dispatch is free (R114, R123)
(see assumption 6, DESIGN CHOICE). -/
def State.locWord (s : State) (t a : Nat) : Word :=
  if inScratch a then
    match Tab.get none s.loc.scratch (locKey t a) with
    | some v => v
    | none => Config.freeWord (Tab.get 0 s.loc.drawn t + a % 4096)
  else Tab.get 0 s.loc.words (locKey t a)

/-- Read a tile-local word: the word, its poison, and the state after the code has acted (R59). -/
def State.locRead (s : State) (t a : Nat) : Word × Bool × State :=
  let k := locKey t a
  let p := Tab.get false s.loc.poison k
  let e := Tab.get 0 s.loc.errs k
  if p || e = 0 then (s.locWord t a, p, s)
  else
    let loc := { s.loc with errs := Tab.put 0 s.loc.errs k 0 }
    if e = 1 then (s.locWord t a, false, State.incReg { s with loc := loc } offMemCorr 1)
    else (s.locWord t a, true,
      State.incReg { s with loc := { loc with poison := Tab.put false loc.poison k true } } offMemUncorr 1)

/-- Write a tile-local word; a store clears its poison (R59). -/
def State.locWrite (s : State) (t a : Nat) (v : Word) : State :=
  let k := locKey t a
  { s with loc := { s.loc with
      words := if inScratch a then s.loc.words else Tab.put 0 s.loc.words k v
      scratch := if inScratch a then Tab.put none s.loc.scratch k (some v) else s.loc.scratch
      poison := Tab.put false s.loc.poison k false
      errs := Tab.put 0 s.loc.errs k 0 } }

/-- A dispatch on a tile: the scratch contents become undefined (R114, R123). -/
def State.dropScratch (s : State) (t : Nat) : State :=
  { s with
    loc := { s.loc with
      scratch := s.loc.scratch.filter (fun e => e.1 / 65536 != t)
      drawn := Tab.put 0 s.loc.drawn t s.free }
    free := s.free + 4096 }

/-- Write a run of tile-local words. -/
def State.locWrites (s : State) (t : Nat) : Nat → List Word → State
  | _, [] => s
  | a, v :: r => (s.locWrite t a v).locWrites t (a + 1) r

/-! ### The spine (R23 - R31) -/

/-- The wheel of 16 slots, classes RT 0, REC 1, PRG 2, HST 3 (R27). -/
def wheelSlots : List Nat := [0, 1, 2, 0, 1, 2, 3, 1, 2, 0, 1, 2, 1, 2, 3, 2]

/-- The service list of a target and class (R27); BOOT sets it ascending. -/
def Spine.list (x : Spine) (t c : Nat) : List Nat := Tab.get (List.range 10) x.lists (4 * t + c)

/-- The class the target serves now (R27): the slot's class if it waits, else the first of RT, REC, PRG, HST. -/
def Spine.classNow (x : Spine) (t : Nat) : Option Nat :=
  let w := x.waiting.filter (fun r => r.target = t)
  let slot := wheelSlots.getD (Tab.get 0 x.wheel t) 0
  (slot :: [0, 1, 2, 3]).find? (fun c => w.any (fun r => r.cls = c))

/-- The request the target serves next (R27): the first port of the class's service list that waits. -/
def Spine.next (x : Spine) (t : Nat) : Option SpineReq :=
  (x.classNow t).bind fun c =>
    ((x.list t c).find? (fun p => x.waiting.any (fun r => r.target = t && r.cls = c && r.port = p))).bind fun p =>
      x.waiting.find? (fun r => r.target = t && r.cls = c && r.port = p)

/-- Number of a credit loop (R613): direction 0 is from the port to the spine. -/
def loopNo (port dir cls : Nat) : Nat := port * 8 + dir * 4 + cls

/-- A freed slot's credit returns to its sender (R31). -/
def Credit.back (c : Credit) : Credit := { c with held := c.held + 1, occupied := c.occupied - 1 }

/-- A flit takes a credit and a slot at the receiver (R31). -/
def Credit.use (c : Credit) : Credit := { c with held := c.held - 1, occupied := c.occupied + 1 }

/-- The port of a target (R23). -/
def targetPort (t : Nat) : Nat := if t ≤ 4 then t else t + 5

/-- The target at a port (R23). -/
def portTarget (p : Nat) : Option Nat := if p ≤ 4 then some p else if p = 10 ∨ p = 11 then some (p - 5) else none

/-- Slots of a loop whose flit cannot go on: the requests that wait at their target (R27, R31). Every other flit is passed on as it
comes, and its slot is free again (see assumption 14, DEDUCED). -/
def Spine.kept (x : Spine) (port dir cls : Nat) : Nat :=
  if dir = 1 then (x.waiting.filter (fun r => targetPort r.target = port && r.cls = cls)).length else 0

/-- The sender of a loop holds no credit and no slot has become free: it has to wait (R31). -/
def Spine.full (x : Spine) (port dir cls : Nat) : Bool :=
  let c := Tab.get {} x.credits (loopNo port dir cls)
  c.held = 0 && decide (c.occupied ≤ x.kept port dir cls)

/-- A flit crosses a link (R31). Where the sender holds no credit, that of a slot that has become free comes back first; where none has,
the sender waits and does not come here (`Spine.full`). -/
def Spine.hop (x : Spine) (port dir cls : Nat) : Spine :=
  let c := Tab.get {} x.credits (loopNo port dir cls)
  { x with credits := Tab.put {} x.credits (loopNo port dir cls) (if c.held = 0 then c.back.use else c.use) }

/-- Bits [299:0] of a flit (R74): data words, MASK, POISON and three zeros. -/
def flitBody (data : List Word) (mask : Nat) (poison : Bool) : Nat :=
  packWords data + mask % 256 * 2 ^ 288 + b2n poison * 2 ^ 296

/-- A flit with its CRC-16 in bits [315:300] (R74). -/
def flitBits (data : List Word) (mask : Nat) (poison : Bool) : Nat :=
  let b := flitBody data mask poison
  b + crc16 300 b 0xFFFF * 2 ^ 300

/-- The receiver's check of a flit (R74, R76). -/
def flitGood (x : Nat) : Bool := crc16 300 (x % 2 ^ 300) 0xFFFF = x / 2 ^ 300

/-- A flit with data crosses a link: does it pass its check, and the spine after it. A disturbance of the link meets it and is
spent (R74, R75) (see assumption 14, DEDUCED). -/
def Spine.cross (x : Spine) (port dir cls : Nat) (data : List Word) (mask : Nat) (poison : Bool) : Bool × Spine :=
  let j := loopNo port dir cls
  let e := Tab.get 0 x.strikes j
  (e = 0 || flitGood (flitBits data mask poison ^^^ e), { x.hop port dir cls with strikes := Tab.put 0 x.strikes j 0 })

/-- A flit that failed its check is counted (R75). -/
def State.countFlit (s : State) (ok : Bool) : State := if ok then s else s.incReg offSpineCrcerr 1

/-- Tags a port holds (R29). -/
def Spine.held (x : Spine) (p : Nat) : Nat :=
  (x.waiting.filter (fun r => r.port = p)).length + (x.acked.filter (fun r => r.port = p)).length

/-- Tags taken from the shared pool: what each port holds beyond its 16 reserved ones (R29). -/
def Spine.shared (x : Spine) : Nat := ((List.range 10).map (fun p => x.held p - 16)).sum

/-- May the port take a tag (R29). -/
def Spine.tagFor (x : Spine) (p : Nat) : Bool :=
  x.held p < 16 || (x.held p < (if p < 4 then 128 else 64) && x.shared < 352)

/-- The lowest free tag. -/
def Spine.freeTag (x : Spine) : Nat :=
  ((List.range 512).find? (fun t => !(x.waiting.any (fun r => r.tag = t)) && !(x.acked.any (fun r => r.tag = t)))).getD 0

/-- OWNER that a port's write leaves (R60). -/
def portOwner (p : Nat) : BitVec 2 := if p = 8 then 2 else if p = 9 then 3 else 1

/-- What serving a request does to memory, and its response: words and poison (R64, R65, R75, R155, R156). A flit that fails
its check on the target's link, the request's for a write or a CAS and the response's for a read, counts as poisoned; a CAS's
response is checked where it crosses (`State.sendBack`). -/
def State.perform (s : State) (r : SpineReq) (flitOk : Bool) : State × List Word × Bool :=
  let s := s.countFlit flitOk
  match r.kind with
  | .read => let s := s.decode r.line; (s, s.lineWords r.line, (s.lineMeta r.line).poison || !flitOk)
  | .write => (s.lineWrite r.line r.mask r.data (r.poison || !flitOk) (portOwner r.port), [], false)
  | .cas k e n =>
    let s := s.decode r.line
    let ws := s.lineWords r.line
    if !flitOk || r.poison || (s.lineMeta r.line).poison then (s, ws, true)
    else if ws.getD k 0 = e then
      (s.lineWrite r.line (2 ^ k) (List.replicate k 0 ++ [n]) false (portOwner r.port), ws, false)
    else (s, ws, false)
  | .lane v => (s, [v], !flitOk)

/-- The response of a served request crosses the target's link: a read's carries the line (R31, R74). -/
def State.sendBack (s : State) (r : SpineReq) (ws : List Word) (p : Bool) : Bool × State :=
  if r.kind.reads then
    let (ok, x) := s.spine.cross (targetPort r.target) 0 r.cls ws r.mask p
    (p || !ok, State.countFlit { s with spine := x } ok)
  else (p, { s with spine := s.spine.hop (targetPort r.target) 0 r.cls })

/-- The target serves its next request (R27); none if nothing waits there. -/
def State.serveOne (s : State) (t : Nat) (flitOk : Bool) : Option (SpineReq × (List Word × Bool) × State) :=
  (s.spine.next t).map fun r =>
    let x := s.spine
    let l := x.list t r.cls
    let x := { x with
      wheel := Tab.put 0 x.wheel t ((Tab.get 0 x.wheel t + 1) % 16)
      lists := Tab.put (List.range 10) x.lists (4 * t + r.cls) (l.erase r.port ++ [r.port])
      waiting := x.waiting.erase r
      acked := x.acked ++ [SpineAck.mk r.tag r.port r.core r.cls r.target r.seq] }
    let (s, ws, p) := State.perform { s with spine := x } r flitOk
    let (p, s) := s.sendBack r ws p
    (r, (ws, p), s)

/-- Serve the target until the request with this tag has been served; its response (see assumption 14, DEDUCED). -/
def State.serveFor (t tag : Nat) : Nat → State → List Word × Bool × State
  | 0, s => ([], true, s)
  | fuel + 1, s =>
    match s.serveOne t true with
    | none => ([], true, s)
    | some (r, (ws, p), s) => if r.tag = tag then (ws, p, s) else State.serveFor t tag fuel s

/-- A sender toward a target without a credit waits until the target has served a request of the class, whose slot becomes free (R31)
(see assumption 14, DEDUCED). -/
def State.freeSlot (port cls : Nat) : Nat → State → State
  | 0, s => s
  | fuel + 1, s =>
    if !s.spine.full port 1 cls then s
    else
      match (portTarget port).bind (fun t => s.serveOne t true) with
      | none => s
      | some (_, _, s) => State.freeSlot port cls fuel s

/-- A sender waits as long as it must (R31). -/
def State.awaitSlot (s : State) (port cls : Nat) : State := State.freeSlot port cls s.spine.waiting.length s

/-- A tag returns to its pool (R29). -/
def State.returnTag (s : State) (tag : Nat) : State :=
  { s with spine := { s.spine with acked := s.spine.acked.filter (fun a => a.tag != tag) } }

/-- The core's transactions that have not returned their tags. -/
def State.outstanding (s : State) (core : Nat) : Nat :=
  (s.spine.waiting.filter (fun r => r.core = core)).length + (s.spine.acked.filter (fun a => a.core = core)).length

/-- Serve targets until no request that satisfies p waits. -/
def State.drainWhere (p : SpineReq → Bool) : Nat → State → State
  | 0, s => s
  | fuel + 1, s =>
    match s.spine.waiting.find? p with
    | none => s
    | some r =>
      match s.serveOne r.target true with
      | none => s
      | some (_, _, s) => State.drainWhere p fuel s

/-- A response crosses its requester's link, and its tag returns (R29, R31). -/
def State.comeBack (s : State) (a : SpineAck) : State :=
  let s := s.awaitSlot a.port a.cls
  State.returnTag { s with spine := s.spine.hop a.port 1 a.cls } a.tag

/-- The responses that satisfy p reach their requesters (R29, R31). -/
def State.collect (s : State) (p : SpineAck → Bool) : State := (s.spine.acked.filter p).foldl State.comeBack s

/-- Port, target and place of the core's transactions that have not returned their tags. -/
def Spine.ofCore (x : Spine) (core : Nat) : List (Nat × Nat × Nat) :=
  (x.waiting.filter (fun r => r.core = core)).map (fun r => (r.port, r.target, r.seq))
    ++ (x.acked.filter (fun a => a.core = core)).map (fun a => (a.port, a.target, a.seq))

/-- Does a response of this port, target and place come no later than one of these: the responses that a port has from one
target keep the order of their requests (R30). -/
def noLater (os : List (Nat × Nat × Nat)) (port target seq : Nat) : Bool :=
  os.any (fun o => o.1 = port && o.2.1 = target && decide (seq ≤ o.2.2))

/-- These transactions complete, and with them every earlier one of the same port and target (R30). -/
def State.settle (s : State) (os : List (Nat × Nat × Nat)) : State :=
  (State.drainWhere (fun r => noLater os r.port r.target r.seq) s.spine.waiting.length s).collect
    (fun a => noLater os a.port a.target a.seq)

/-- All the core's transactions complete (R30, R165). -/
def State.fence (s : State) (core : Nat) : State := s.settle (s.spine.ofCore core)

/-- Everything in flight completes: what a request without a tag waits for (R29). -/
def State.drainAll (s : State) : State :=
  (State.drainWhere (fun _ => true) s.spine.waiting.length s).collect (fun _ => true)

/-- A request's flits cross to its target (R31), the target's link once it has a slot: a write or a CAS carries data, and is poisoned by
a flit that fails its check (R75). -/
def State.sendFlits (s : State) (r : SpineReq) : Bool × State :=
  let s := s.awaitSlot (targetPort r.target) r.cls
  if !r.kind.carries then
    (true, { s with spine := (s.spine.hop r.port 0 r.cls).hop (targetPort r.target) 1 r.cls })
  else
    let (a, x) := s.spine.cross r.port 0 r.cls r.data r.mask r.poison
    let s := State.countFlit { s with spine := x } a
    let (b, x) := s.spine.cross (targetPort r.target) 1 r.cls r.data r.mask r.poison
    (a && b, State.countFlit { s with spine := x } b)

/-- Put a request on the spine; its tag. Without a tag it waits until tags have returned (R29). A command beat that fails its
CRC-16 ends the transaction at once, and the tag returns (R75) (see assumption 14, DEDUCED). -/
def State.issue (s : State) (r : SpineReq) : Nat × State :=
  let s := if s.spine.tagFor r.port then s else s.drainAll
  let tag := s.spine.freeTag
  let seq := s.spine.issued
  let s := { s with spine := { s.spine with issued := seq + 1 } }
  if s.spine.badBeats.contains tag then
    (tag, State.incReg { s with spine := { s.spine with badBeats := s.spine.badBeats.erase tag } } offSpineCrcerr 1)
  else
    let (ok, s) := s.sendFlits r
    (tag, { s with spine := { s.spine with
      waiting := s.spine.waiting ++ [{ r with tag := tag, seq := seq, poison := r.poison || !ok }] } })

/-- The response of a transaction reaches its requester after those of the earlier requests to the same target (R30); a read's
flit is checked again on the requester's link (R75). -/
def State.receive (s : State) (r : SpineReq) (tag : Nat) (ws : List Word) (p : Bool) : List Word × Bool × State :=
  match s.spine.acked.find? (fun a => a.tag = tag) with
  | none => (ws, p, s)
  | some a =>
    let s := State.drainWhere (fun q => noLater [(a.port, a.target, a.seq)] q.port q.target q.seq) s.spine.waiting.length s
    let s := s.collect (fun b => b.tag != tag && noLater [(a.port, a.target, a.seq)] b.port b.target b.seq)
    let s := s.awaitSlot r.port r.cls
    let (ok, x) := if r.kind.reads then s.spine.cross r.port 1 r.cls ws r.mask p else (true, s.spine.hop r.port 1 r.cls)
    (ws, p || !ok, State.returnTag (State.countFlit { s with spine := x } ok) tag)

/-- Issue a request and wait for its response: words and poison. A transaction whose command beat failed has an error
response with POISON (R75) (see assumption 14, DEDUCED; see assumption 65, DESIGN CHOICE). -/
def State.transact (s : State) (r : SpineReq) : List Word × Bool × State :=
  let (tag, s) := s.issue r
  if s.spine.waiting.any (fun q => q.tag = tag) then
    let (ws, p, s) := State.serveFor r.target tag s.spine.waiting.length s
    s.receive r tag ws p
  else ([], true, s)

/-- Number that stands for no core in a request. -/
def noCore : Nat := 1000

/-- A request of a port for no core. -/
def portReq (port cls t l : Nat) (kind : ReqKind) (mask : Nat) (data : List Word) (poison : Bool) : SpineReq :=
  SpineReq.mk 0 port cls noCore t l kind mask data poison 0

/-- An access that writes through a port, served before the command ends (HOST writes, RECOVERY images and the like). -/
def State.portWrite (s : State) (port cls l mask : Nat) (data : List Word) (poison : Bool) : State :=
  match targetOf (8 * l) with
  | none => s
  | some t => (s.transact (portReq port cls t l .write mask data poison)).2.2

/-- An access that reads a line through a port; the mask names the words wanted. -/
def State.portRead (s : State) (port cls l mask : Nat) : List Word × Bool × State :=
  match targetOf (8 * l) with
  | none => ([], true, s)
  | some t => s.transact (portReq port cls t l .read mask [] false)

/-- Write words through a port, one flit a line (R24): what the band engines (ports 5 and 6, class RT), HIST (port 7, REC), PAIR
(port 9, REC) and the Crown's journal unit (port 4, PRG) write (R23, R26). -/
def State.portPut (port cls : Nat) (poison : Bool) : Nat → State → Nat → List Word → State
  | 0, s, _, _ => s
  | fuel + 1, s, a, ws =>
    if ws.isEmpty then s
    else
      let k := a % 8
      let n := min (8 - k) ws.length
      State.portPut port cls poison fuel
        (s.portWrite port cls (a / 8) (maskOf k n) (List.replicate k 0 ++ ws.take n) poison) (a + n) (ws.drop n)

/-- Read n words through a port, one flit a line: each word with the poison of its line (R23, R24, R26). -/
def State.portGet (port cls : Nat) : Nat → State → Nat → Nat → List (Word × Bool) × State
  | 0, s, _, _ => ([], s)
  | fuel + 1, s, a, n =>
    if n = 0 then ([], s)
    else
      let m := min (8 - a % 8) n
      let (ws, p, s) := s.portRead port cls (a / 8) (maskOf (a % 8) m)
      let (r, s) := State.portGet port cls fuel s (a + m) (n - m)
      ((List.range m).map (fun i => (ws.getD (a % 8 + i) 0, p)) ++ r, s)

/-- Ports and classes of the agents (R23, R26): band engine r. -/
def State.bandPut (s : State) (r a : Nat) (ws : List Word) (poison : Bool) : State :=
  State.portPut (5 + r) 0 poison ws.length s a ws

/-- Band engine r reads. -/
def State.bandGet (s : State) (r a n : Nat) : List (Word × Bool) × State := State.portGet (5 + r) 0 n s a n

/-- HIST writes. -/
def State.histPut (s : State) (a : Nat) (ws : List Word) : State := State.portPut 7 1 false ws.length s a ws

/-- HIST reads. -/
def State.histGet (s : State) (a n : Nat) : List (Word × Bool) × State := State.portGet 7 1 n s a n

/-! ### The host's event ring and interrupts (R568, R569, R614) -/

/-- Is the present within 2 us of the last message of an MSI-X vector (R569). -/
def State.vecBusy (s : State) (v : Nat) : Bool :=
  Tab.get 0 s.host.vecAt v != 0 && decide (s.elapsed < Tab.get 0 s.host.vecAt v + 2 * tUs)

/-- Signal an MSI-X vector; recurrences within 2 us of its last message wait for one message at the end of that time (R569)
(see assumption 61, DEDUCED). -/
def State.msix (s : State) (v : Nat) : State :=
  if s.vecBusy v then { s with host := { s.host with vecWait := if s.host.vecWait.contains v then s.host.vecWait else s.host.vecWait ++ [v] } }
  else { s with
    outbox := s.outbox ++ [.msix v]
    host := { s.host with
      vecAt := Tab.put 0 s.host.vecAt v (s.elapsed + 1), vecWait := s.host.vecWait.filter (fun w => w != v) } }

/-- The one message for the recurrences of each vector whose 2 us are over (R569). -/
def State.msixDue (s : State) : State := (s.host.vecWait.filter (fun v => !s.vecBusy v)).foldl State.msix s

/-- Write an event ring entry (R568). -/
def State.eventEntry (s : State) (w0 w1 w2 : Word) : State :=
  let t := s.t72
  let n := s.host.evpi.toNat
  let s := s.agentWrite (Config.hostArea + 0x7000 + 8 * (n % 1024)) [w0, w1, w2, 0, dlo t, dhi t, 0, 0]
  State.msix { s with host := { s.host with evpi := wd (n + 1) } } 2

/-- An event to the Crown: source kind and two payload words (R614). -/
def State.crownEvent (s : State) (kind : Nat) (w1 w2 : Word) : State := s.eventEntry (wd (at_ 3 28 + at_ kind 16)) w1 w2

/-- A cell event of R614. -/
def State.cellEvent (s : State) (reason off : Nat) (w2 : Word) : State := s.crownEvent 0x002 (wd (at_ reason 28 + off)) w2

/-! ### Orders and their ranking (R43 - R45) -/

/-- Rank of a source, the highest first; among tiles the lowest number (R43). -/
def Src.rank : Src → Nat
  | .brim => 0
  | .pair1 => 1
  | .host => 2
  | .lane _ => 3
  | .tile t => 4 + t

/-- Code of a source in the conflict log (R45). -/
def Src.code : Src → Nat
  | .brim => 0
  | .pair1 => 1
  | .host => 2
  | .tile _ => 3
  | .lane _ => 4

/-- Tile number of a source, 0 if it is none. -/
def Src.tileNo : Src → Nat
  | .tile t => t
  | _ => 0

/-- An entry of the conflict log, with the T72 of this cell clock (R45). -/
def State.logConflict (s : State) (x : Conflict) : State :=
  let n := (s.reg offConflictCount).toNat
  let t := s.t72
  let w3 := at_ x.win.code 32 + at_ x.lose.code 28 + at_ x.win.tileNo 22 + at_ x.lose.tileNo 16 + x.code % 65536
  (s.agentWrite (0x27B0000 + 4 * (n % 256)) [dlo t, dhi t, wd (at_ x.kind 28 + x.idx), wd w3]).incReg offConflictCount 1

/-- A conflict is logged: one of a lane (kinds 2 and 3) when its application point comes (R45). -/
def State.noteConflict (s : State) (x : Conflict) : State :=
  if x.kind = 2 ∨ x.kind = 3 then { s with conflicts := s.conflicts ++ [x] } else s.logConflict x

/-- The application point of lane orders of a kind at lane n has come: their conflicts are logged (R45). -/
def State.flushConflicts (s : State) (kind n : Nat) : State :=
  let own (x : Conflict) : Bool := x.kind = kind && x.idx = n
  (s.conflicts.filter own).foldl State.logConflict { s with conflicts := s.conflicts.filter (fun x => !own x) }

/-- A cue's action lost: its fire record carries CONFLICT (R99). -/
def State.cueLost (s : State) (c : Option Nat) : State :=
  match c with
  | none => s
  | some n => { s with cues := Tab.put {} s.cues n { (Tab.get {} s.cues n) with conflict := true } }

/-- The index of an order on every force entry (R237). -/
def forceAll : Nat := 2 ^ 80

/-- Are two orders to the same target (R43)? -/
def Order.same (o x : Order) : Bool := x.kind = o.kind && (x.idx = o.idx || (o.kind = 6 && (x.idx = forceAll || o.idx = forceAll)))

/-- Does order x stand against o: the same target, another value, and another source or another cue of one source (R43, R99)? -/
def Order.against (o x : Order) : Bool :=
  o.same x && x.value != o.value && (x.src != o.src || (o.cue.isSome && x.cue.isSome && x.cue != o.cue))

/-- Does o win over an order that stands against it: by rank, between two cues of one source by cue number (R43, R99)? -/
def Order.beats (o x : Order) : Bool :=
  if o.src = x.src then decide (o.cue.getD 0 < x.cue.getD 0) else decide (o.src.rank < x.src.rank)

/-- The standing order of the highest rank against which o loses, if any. -/
def State.strongerThan (s : State) (o : Order) : Option Order :=
  (s.orders.filter (fun x => o.against x && !o.beats x)).foldl (fun b x =>
    match b with
    | some y => if x.beats y then some x else b
    | none => some x) none

/-- Number of a response's first word in the response ring (R563). -/
def respAddr (n : Nat) : Nat := Config.hostArea + 0x6000 + 16 * (n % 256)

/-- The number of the response that a request being executed by core k will have: none for a program's instruction. -/
def State.respOf (s : State) (k : Nat) : Option Nat := if k = 64 && s.host.prog.isNone then some s.host.rsppi.toNat else none

/-- A request of the host lost after its response was written: the entry's status becomes CONFLICT (R44, R564). -/
def State.amendResponse (s : State) (r : Option Nat) : State :=
  match r with
  | none => s
  | some n =>
    let ws := (s.words (respAddr n) 15).set 0 (setFld (s.word (respAddr n)) 27 20 2)
    s.agentWrite (respAddr n) (ws ++ [wd (crc32cWords ws)])

/-! ### Tallies of the event recorder (R491, R492) -/

/-- The extreme of the second of a histogram's source so far: the larger by f. -/
def State.tallyBy (s : State) (f : Int → Int → Bool) (h : Nat) (v : Int) : State :=
  let t := match Tab.get none s.evr.tally h with
    | some w => if f w v then v else w
    | none => v
  { s with evr := { s.evr with tally := Tab.put none s.evr.tally h (some t) } }

/-- The largest value of the second. -/
def State.tallyMax (s : State) (h : Nat) (v : Int) : State := s.tallyBy (fun w v => decide (w < v)) h v

/-- The smallest value of the second. -/
def State.tallyMin (s : State) (h : Nat) (v : Int) : State := s.tallyBy (fun w v => decide (v < w)) h v

/-- Add to a count of the second. -/
def State.tallyAdd (s : State) (h : Nat) (n : Nat) : State :=
  { s with evr := { s.evr with tally := Tab.put none s.evr.tally h (some ((Tab.get none s.evr.tally h).getD 0 + n)) } }

/-! ### Responses to the host (R567) -/

/-- Write a response entry: request code, status, tag and results (words 4-9). -/
def State.respond (s : State) (code status : Nat) (tag : Word) (res : List Word) : State :=
  let t := if s.rfld offTimeStat 3 3 = 1 then s.t72 else 0
  let ws := [wd (at_ code 28 + at_ status 20), tag, dlo t, dhi t] ++ (List.range 6).map (fun i => res.getD i 0)
    ++ [0, 0, 0, 0, 0]
  let n := s.host.rsppi.toNat
  let s := s.agentWrite (respAddr n) (ws ++ [wd (crc32cWords ws)])
  State.msix { s.produce strRsp 1 with host := { s.host with rsppi := wd (n + 1) } } 0

end Sys2Proof.Machine
end

