-- ==== Sys2Proof/Machine/Tasks.lean ====
section
/-! DEFINITION. Cores and tasks: the register accessors, refusals, the scheduler's lists and trace, posts, the ways a run
begins and ends, and the ONE operation that takes a fault (R141). -/

namespace Sys2Proof.Machine

/-! ### Cores -/

/-- Number of a core: tile t, 64 for Crown pair 0, 65 for Crown pair 1 (see assumption 5, DESIGN CHOICE). -/
def coreKey : CoreId → Nat
  | .tile t => t.val
  | .crown0 => 64
  | .crown1 => 65

/-- A core. -/
def State.core (s : State) (k : Nat) : Core := Tab.get {} s.cores k

/-- Replace a core. -/
def State.setCore (s : State) (k : Nat) (c : Core) : State := { s with cores := Tab.put {} s.cores k c }

/-- General register i of core k. -/
def State.g (s : State) (k i : Nat) : Word := Tab.get 0 (s.core k).g i

/-- Write general register i of core k. -/
def State.setG (s : State) (k i : Nat) (v : Word) : State :=
  let c := s.core k
  s.setCore k { c with g := Tab.put 0 c.g i v }

/-- Write a register pair: the low word in G[d], the high word in G[d+1] (R150). -/
def State.setGG (s : State) (k d : Nat) (v : DWord) : State := (s.setG k d (dlo v)).setG k (d + 1) (dhi v)

/-- A register pair as a double word (R150). -/
def State.gg (s : State) (k d : Nat) : DWord := dword (s.g k d) (s.g k (d + 1))

/-- A refusal that sets E and ERRC.REFUSE (R107, R615). -/
def State.refuse (s : State) (k code : Nat) : State :=
  let c := s.core k
  s.setCore k { c with fl := setBit c.fl 5 true, errc := setFld c.errc 15 8 code }

/-- The rank source of a core's orders (R43). -/
def coreSrc (k : Nat) : Src := if k < 64 then .tile k else if k = 64 then .host else .pair1

/-- TID of a core (R109): pair 0 reads as core 0 and pair 1 as core 2 (see assumption 12, DESIGN CHOICE). -/
def tidOf (k : Nat) (task : Option Nat) : Word :=
  let n := task.getD 0
  if k < 64 then wd (at_ k 16 + at_ (n / 256 % 4) 8 + n % 256)
  else wd (2 ^ 35 + at_ (if k = 65 then 2 else 0) 16 + (if k = 65 then n % 64 else 0))

/-! ### Tasks -/

/-- A task by its key. -/
def State.task (s : State) (n : Nat) : Task := Tab.get {} s.tasks n

/-- Replace a task. -/
def State.setTask (s : State) (n : Nat) (t : Task) : State := { s with tasks := Tab.put {} s.tasks n t }

/-! ### The ranking of orders (R43, R44, R99) -/

/-- Core k learns that an order of its program lost: E and REFUSE 1, and CONFLICT in the register of the result code (R44, R197,
R300). -/
def State.tellCore (s : State) (k : Nat) (gd : Option Nat) : State :=
  match gd with
  | some d => (s.refuse k 1).setG k d 2
  | none => s.refuse k 1

/-- The source of an order that loses learns of it: a tile, Crown pair 1 and a program of pair 0 have E set; a request of the host
has the status CONFLICT (R44). -/
def State.tellLoser (s : State) (o : Order) : State :=
  match o.src with
  | .tile t => s.tellCore t o.gd
  | .pair1 => s.tellCore 65 o.gd
  | .host => if o.resp.isNone && s.host.prog.isSome then s.tellCore 64 o.gd else s.amendResponse o.resp
  | _ => s

/-- A task that the losing order would have brought to an orderly stop, or resumed, goes on as it was. -/
def State.untouch (s : State) (e : Nat × Task) : State :=
  s.setTask e.1 { s.task e.1 with stopping := e.2.stopping, resume := e.2.resume, acc := e.2.acc }

/-- What an order changed at once is put back, and the orders that it gave to lanes are withdrawn (R44) (see assumption 62, DESIGN
CHOICE). -/
def State.undoOrder (s : State) (o : Order) : State :=
  let mine (x : Order) : Bool := o.kind = 5 && x.kind = 2 && x.src = o.src && x.code = o.code && o.lanes.any (fun e => e.1 = x.idx)
  if o.kind = 1 then o.tasks.foldl State.untouch s
  else if o.kind != 5 ∧ o.kind != 2 then s
  else { s with
    orders := s.orders.filter (fun x => !mine x)
    axes := o.axes.foldl (fun t e => Tab.put {} t e.1 e.2) s.axes
    lanes := o.lanes.foldl (fun t e => Tab.put {} t e.1 { Tab.get {} t e.1 with
      desc := e.2.desc, pendEnable := e.2.pendEnable, enabledAt := e.2.enabledAt, ref := e.2.ref, pvalue := e.2.pvalue }) s.lanes
    axGroups := o.groups.foldl (fun t e => Tab.put {} t e.1 e.2) s.axGroups }

/-- The state in which an order finds its target: what the orders that stand against it changed at once is put back, the latest
first. -/
def State.beforeRivals (s : State) (o : Order) : State := (s.orders.filter o.against).foldl State.undoOrder s

/-- Order l loses to w: not applied, its source told, and the conflict logged (R44, R45, R99). -/
def State.orderLost (s : State) (w l : Order) : State :=
  (((s.noteConflict { kind := l.kind, idx := (l.log.orElse (fun _ => w.log)).getD l.idx, win := w.src, lose := l.src, code := l.code }).cueLost
    l.cue).tellLoser l)

/-- Rank an order against those of its application point (R43, R44, R99): does it stand, and the state. An order that wins undoes
and tells every order that stands against it, and replaces the earlier one of its own source; equal orders of other sources stay
(see assumption 62, DESIGN CHOICE). -/
def State.rankOrder (s : State) (o : Order) : Bool × State :=
  match s.strongerThan o with
  | some x => (false, s.orderLost x o)
  | none =>
    let t := (s.orders.filter o.against).foldl (fun t x => t.orderLost o x) (s.beforeRivals o)
    (true, { t with orders := o :: t.orders.filter (fun x => !(o.same x && (x.src = o.src || x.value != o.value))) })

/-- Key of a task reference (see assumption 5, DESIGN CHOICE). -/
def taskKey : TaskRef → Nat
  | .quad q t => 256 * q.val + t.val
  | .crown t => 1024 + t.val

/-- Word i of a task's descriptor. -/
def Task.w (t : Task) (i : Nat) : Word := t.desc.getD i 0
/-- KIND (R198). -/
def Task.kind (t : Task) : Nat := fld (t.w 0) 35 34
/-- DIAG. -/
def Task.diag (t : Task) : Bool := bit (t.w 0) 33
/-- TRAPEN. -/
def Task.trapen (t : Task) : Bool := bit (t.w 0) 32
/-- PRIO. -/
def Task.prio (t : Task) : Nat := fld (t.w 0) 31 27
/-- CLASS. -/
def Task.class_ (t : Task) : Nat := fld (t.w 0) 26 23
/-- ERRTASK, eight bits in a quadrant, six in the Crown task list (R200). -/
def Task.errtask (t : Task) : Nat := fld (t.w 0) 22 15
/-- QDEPTH. -/
def Task.qdepth (t : Task) : Nat := fld (t.w 0) 14 10
/-- CYCMIN in us. -/
def Task.cycmin (t : Task) : Nat := fld (t.w 4) 35 16
/-- STACK in words. -/
def Task.stack (t : Task) : Nat := fld (t.w 4) 12 0
/-- CTXAREA. -/
def Task.ctx (t : Task) : Nat := (t.w 5).toNat
/-- FAULTSLOT. -/
def Task.slot (t : Task) : Nat := (t.w 6).toNat
/-- WDOG in us. -/
def Task.wdogUs (t : Task) : Nat := (t.w 7).toNat

/-- Quadrant of a task's task-post stream: the Crown's posts count in quadrant 0 (R170). -/
def taskQuad (n : Nat) : Nat := if n < 1024 then n / 256 else 0

/-- Error task of a task, in its own scheduler (R198, R200). -/
def State.errTaskOf (s : State) (n : Nat) : Nat :=
  let e := (s.task n).errtask
  if n < 1024 then n / 256 * 256 + e else 1024 + e % 64

/-- The target word of a task in the layout of R169. -/
def targetWord (n : Nat) : Word := if n < 1024 then wd n else wd (1024 + n % 64)

/-- Stack top of a task (R124). -/
def State.stackTop (s : State) (n : Nat) : Nat :=
  if n < 1024 then 0x10000 else (s.task n).ctx + 24 + (s.task n).stack

/-- Modes in which a task is granted (R207). -/
def modeGrants (mode : Nat) (diag : Bool) : Bool :=
  mode = 3 || ((mode = 4 || mode = 5 || mode = 6) && !diag) || (mode = 11 && diag)

/-- Is the task granted in the present mode, and in the one that a transition in progress enters (R208). -/
def State.granted (s : State) (n : Nat) : Bool :=
  modeGrants s.mode (s.task n).diag
    && (match s.modes.trans with
        | none => true
        | some (m, _) => modeGrants m (s.task n).diag)

/-! ### Scheduler trace (R222 - R224) -/

/-- Write a trace entry; decisions about Crown tasks are not traced (R200). -/
def State.trace (s : State) (n reason tile : Nat) : State :=
  if 1024 ≤ n then s
  else
    let q := n / 256
    let m := (s.reg (offTrwr q)).toNat
    let s := if (m + 2 ^ 36 - (s.reg (offTrrd q)).toNat) % 2 ^ 36 = 4096 then
      (s.incReg (offTrrd q) 1).drop (strTrace q) 1 1 else s
    let w1 := at_ reason 28 + at_ tile 22 + at_ (n % 256) 12 + min (s.cc - s.sched.tickCc) 511
    let s := s.agentWrite (0x13FE000 + q * Config.quadWords + 2 * (m % 4096)) [wd s.sched.tick, wd w1]
    (s.incReg (offTrwr q) 1).produce (strTrace q) 1

/-! ### Posts (R169, R170, R209) -/

/-- Outcomes of a post. -/
inductive PostRes where
  | ok | full | noTask | halted
  deriving DecidableEq, Repr

/-- Put a post into a task's queue (R169, R170); in HALT it is neither queued nor counted (R208). -/
def State.postTo (s : State) (n : Nat) (w : Word) (code : Nat) : PostRes × State :=
  let t := s.task n
  if s.mode = 7 then (.halted, s)
  else if t.st = .unused then (.noTask, s)
  else if t.qdepth ≤ t.queue.length then
    (.full, ((s.produce (strPost (taskQuad n)) 1).drop (strPost (taskQuad n)) 0x0D 1).trace n 0x0D 0)
  else
    (.ok, (s.produce (strPost (taskQuad n)) 1).setTask n
      { t with
        queue := t.queue ++ [{ word := w, code := code }], posted := true
        postAcc := if t.posted then t.postAcc else s.cc
        postCode := if t.posted && code = 0 then t.postCode else code })

/-- A post from hardware that tells no one of a refusal (R170). -/
def State.post (s : State) (n : Nat) (w : Word) : State := (s.postTo n w 0).2

/-- Was a post of hardware queued. -/
def State.posted (s : State) (n : Nat) (w : Word) : Bool := (s.postTo n w 0).1 = .ok

/-- Post a task of quadrant q. -/
def State.postQ (s : State) (q t : Nat) (w : Word) : State := s.post (256 * q + t) w

/-- The task that a target word names, if its fields are right (R169). -/
def targetOfWord (w : Word) : Option Nat :=
  if fld w 35 11 != 0 then none
  else if bit w 10 then (if fld w 9 6 != 0 then none else some (1024 + fld w 5 0))
  else some (fld w 9 0)

/-- Hardware posts the task that an 11-bit target field names; without a task of a descriptor it sends `ev` (R429, R441). -/
def State.postField (s : State) (field : Nat) (w : Word) (ev : State → State) : State :=
  match targetOfWord (wd (field % 2048)) with
  | none => ev s
  | some n => if (s.task n).st = .unused then ev s else s.post n w

/-- Take the oldest post of a queue: it is delivered (R170). -/
def State.takePost (s : State) (n : Nat) : Option Post × State :=
  let t := s.task n
  match t.queue with
  | [] => (none, s)
  | p :: r => (some p, (s.setTask n { t with queue := r }).deliver (strPost (taskQuad n)) 1)

/-! ### Readiness (R201 - R204) -/

/-- Tasks of quadrant q that are READY. -/
def State.readyCount (s : State) (q : Nat) : Nat :=
  (s.tasks.filter (fun e => e.1 / 256 = q && e.1 < 1024 && e.2.st = .ready)).length

/-- The event recorder tallies the largest READY of a quadrant (R492, histograms 46 - 49). -/
def State.tallyReady (s : State) (n : Nat) : State :=
  if n < 1024 then s.tallyMax (46 + n / 256) (s.readyCount (n / 256)) else s

/-- A task becomes READY at a tick (R203). -/
def State.readyAtTick (s : State) (n reason : Nat) : State :=
  (s.setTask n { s.task n with
    st := .ready, posted := false, resume := false, deadline := none, timeout := none
    rdyTick := s.sched.seq, rdyCc := 0, rdyTile := 0, rdyRank := 0 }).trace n reason 0 |>.tallyReady n

/-- A task becomes READY at once, on core k: YIELD, or the restart of a CYCLIC task (R202, R203). -/
def State.readyNow (s : State) (k n : Nat) : State :=
  let s := { s with sched := { s.sched with imm := s.sched.imm + 1 } }
  (s.setTask n { s.task n with
    st := .ready, rdyTick := s.sched.seq, rdyCc := s.cc + 1, rdyTile := k, rdyRank := s.sched.imm }).trace n 0x03 0 |>.tallyReady n

/-- A task becomes IDLE by an orderly stop: context and delay-list entry are gone, the queue stays (R208). -/
def State.stopTask (s : State) (n : Nat) : State :=
  (s.setTask n { s.task n with
    st := .idle, saved := false, fresh := true, deadline := none, timeout := none
    scanning := false, stopping := false, resume := false, evGot := none, pausedAt := none, errCode := 0 }).trace n 0x0C 0

/-! ### Contexts (R121 - R124) -/

/-- The 24 words of a core's context, in the order of R122, with the pc at which the task goes on. -/
def Core.context (c : Core) (pc : Word) : List Word :=
  (List.range 16).map (fun i => Tab.get 0 c.g i) ++ [dhi c.acc, dlo c.acc, pc, c.ib, c.sb, c.sp, c.fl, c.errc]

/-- A tile reads n words of its memory in turn: each word with its poison, and the state after the code has acted (R59). -/
def State.locRun (s : State) (t a n : Nat) : List (Word × Bool) × State :=
  (List.range n).foldl (fun x i =>
    let (w, p, u) := x.2.locRead t (a + i)
    (x.1 ++ [(w, p)], u)) ([], s)

/-- Save the context of task n, which runs on core k, and on a tile the stack words from SP (R122); a poisoned stack word
poisons its line of the context area (R76, R78) (see assumption 10, DESIGN CHOICE). -/
def State.saveContext (s : State) (k n : Nat) (pc : Word) : State :=
  let c := s.core k
  let sp := c.sp.toNat
  let a := (s.task n).ctx
  let (stk, s) := s.locRun k sp (if k < 64 then 0x10000 - sp else 0)
  let bad := (List.range stk.length).filter (fun i => (stk.getD i (0, false)).2)
  let s := s.agentWrite a (c.context pc ++ stk.map Prod.fst)
  { s with mem := bad.foldl (fun m i => m.putMeta ((a + 24 + i) / 8) { s.lineMeta ((a + 24 + i) / 8) with poison := true }) s.mem }

/-- The core with the context saved at an address (R122). -/
def Core.restored (c : Core) (ws : List Word) : Core :=
  { c with
    g := (List.range 16).foldl (fun g i => Tab.put 0 g i (ws.getD i 0)) []
    acc := dword (ws.getD 17 0) (ws.getD 16 0)
    pc := ws.getD 18 0, ib := ws.getD 19 0, sb := ws.getD 20 0, sp := ws.getD 21 0, fl := ws.getD 22 0
    errc := ws.getD 23 0 }

/-- A core gives its task back and issues TAKE (R167); a tile's mask counts from its TAKE (R212). -/
def State.giveBack (s : State) (k : Nat) : State :=
  s.setCore k { s.core k with task := none, taking := true, admits := s.reg (offMask k) }

/-- Grant task n to core k (R121, R205): a fresh start or a resume. -/
def State.grant (s : State) (k n : Nat) : State :=
  let t := s.task n
  let top := s.stackTop n
  let s := if k < 64 then s.dropScratch k else s
  if t.fresh then
    let (p, s) := if t.kind = 1 then s.takePost n else (none, s)
    let core : Core := {
      pc := t.w 1, ib := t.w 2, sb := t.w 3, sp := wd top, stackTop := top, stackLimit := top - t.stack
      errc := wd (if t.kind = 1 then (p.map Post.code).getD 0 else t.errCode), task := some n }
    let t := s.task n
    ((s.setCore k core).setTask n { t with
        st := .running, tile := if k < 64 then k else 0, fresh := false, start := (p.map Post.word).getD 0
        grant := s.elapsed, pausedAt := none, paused := 0, scanning := true, wdog := false
        errCode := 0 }).trace n 0x05 (if k < 64 then k else 0)
  else
    let ws := s.words t.ctx 24
    let sp := (ws.getD 21 0).toNat
    let stk := if k < 64 then s.words (t.ctx + 24) (0x10000 - sp) else []
    let s := if k < 64 then s.locWrites k sp stk else s
    let core := { (({} : Core).restored ws) with stackTop := top, stackLimit := top - t.stack, task := some n }
    -- an EVWAIT resumes with its post word, or with 0 and Z = 1 after a timeout (R171)
    let core := match t.evGot with
      | none => core
      | some (some w) => { core with g := Tab.put 0 core.g t.evReg w, fl := setBit core.fl 0 false }
      | some none => { core with g := Tab.put 0 core.g t.evReg 0, fl := setBit core.fl 0 true }
    ((s.setCore k core).setTask n { s.task n with
        st := .running, tile := if k < 64 then k else 0, saved := false, evGot := none, deadline := none
        timeout := none }).trace n 0x06 (if k < 64 then k else 0)

/-! ### The end of a run (R201, R208 - R210, R227) -/

/-- The mode in which an exchange holds its affected tasks (R227). -/
def State.holds (s : State) (n : Nat) : Bool :=
  s.exch.phase = .holding && s.exch.affected.contains n

/-- DONE ends the run of task n on core k. An expiry of its watchdog met during DONE itself is dropped with the run (see
assumption 11, DEDUCED), and the words of the discarded stack keep their values (see assumption 6, DESIGN CHOICE). -/
def State.runDone (s : State) (k n : Nat) : State :=
  let s := (s.trace n 0x07 (if k < 64 then k else 0)).giveBack k
  let t := s.task n
  let s := s.setTask n { t with st := .idle, saved := false, fresh := true, scanning := false, count := 0, wdog := false }
  let t := s.task n
  if t.stopping then s.stopTask n
  else if s.holds n then s.setTask n { t with held := true, posted := t.posted || t.queue != [], postAcc := s.cc }
  else if t.kind = 1 then s.setTask n { t with posted := t.queue != [], postAcc := s.cc }
  else if t.cycmin = 0 ∨ t.grant + t.cycmin * tUs ≤ s.elapsed then s.readyNow k n
  else s.setTask n { t with st := .delayed, deadline := some (s.deviceAt (t.grant + t.cycmin * tUs)), acc := s.cc }

/-! ### Compared twins (R544) -/

/-- Word 0 of entry e of the compare table. -/
def State.twinEntry (s : State) (e : Nat) : Word := s.word (0x2702000 + 2 * e)

/-- The compare table entry of a task, whether it is the secondary twin, and its other twin. -/
def State.twinOf (s : State) (n : Nat) : Option (Nat × Bool × Nat) :=
  (List.range 64).findSome? (fun e =>
    let w := s.twinEntry e
    let p := fld w 25 16
    let q := fld w 9 0
    if !bit w 35 then none else if n = p then some (e, false, q) else if n = q then some (e, true, p) else none)

/-- Has the other twin of a task faulted with the same code, so that its error task is posted already. -/
def State.twinFaulted (s : State) (n code : Nat) : Bool :=
  match s.twinOf n with
  | none => false
  | some (_, _, m) => (s.task m).st = .faulted && fld (s.word ((s.task m).slot + 2)) 35 28 = code

/-! ### Taking a fault (R141 - R146) -/

/-- Words of the fault record of task n (R145). -/
def State.faultRecord (s : State) (k n code : Nat) (pc instr addr ib sp : Word) (wdog : Bool) (count : Nat) : List Word :=
  let t := s.t72
  let w2 := at_ code 28 + at_ (b2n wdog) 27 + at_ (b2n (decide (1024 ≤ n))) 26 + at_ (if k < 64 then k else 0) 20
    + at_ (if n < 1024 then n / 256 else 0) 16 + at_ (if n < 1024 then n % 256 else n % 64) 8 + min count 255
  [dlo t, dhi t, wd w2, pc, instr, addr, ib, sp]

/-- Post the error task of task n, unless it is the faulting task, FAULTED, UNUSED or full (R146, R211). -/
def State.postError (s : State) (n code : Nat) (w2 w3 : Word) : State :=
  let e := s.errTaskOf n
  let bad := e = n || (s.task e).st = .faulted || (s.task e).st = .unused
  if bad then
    let s := if s.mode = 7 then s else
      ((s.produce (strPost (taskQuad n)) 1).drop (strPost (taskQuad n)) 0x0D 1).trace e 0x0D 0
    s.crownEvent 0x001 w2 w3
  else
    match s.postTo e (targetWord n) code with
    | (.full, s) => s.crownEvent 0x001 w2 w3
    | (_, s) => s

/-- Task n ends in a fault: its record is written, it is FAULTED and its error task is posted (R141). A post that was accepted before the
fault stays queued, and makes the task READY only with a later one (R141, R201). -/
def State.faultTask (s : State) (k n code : Nat) (pc instr addr ib sp : Word) (wdog : Bool) (reason : Nat) : State :=
  let t := s.task n
  let cnt := min (t.count + 1) 255
  let rec_ := s.faultRecord k n code pc instr addr ib sp wdog cnt
  let s := (s.agentWrite t.slot rec_).trace n reason (if reason = 0x0B ∧ k < 64 then k else 0)
  let s := s.setTask n { s.task n with
    st := .faulted, count := cnt, saved := false, fresh := true, scanning := false, wdog := false, deadline := none
    timeout := none, posted := false, evGot := none }
  let s := if s.twinFaulted n code then s else s.postError n code (rec_.getD 2 0) pc
  if (s.task n).stopping then s.stopTask n
  else if s.holds n then s.setTask n { s.task n with held := true }
  else s

/-- TAKING A FAULT: the instruction of core k is cancelled, its earlier stores complete, and its task ends (R141); a
PROGRAM request ends with STATUS FAULT instead (R616). -/
def State.takeFault (s : State) (k code : Nat) (addr instr : Word) : State :=
  let s := s.fence k
  let c := s.core k
  match c.task with
  | some n =>
    (s.giveBack k).faultTask k n code c.pc instr addr c.ib c.sp (s.task n).wdog 0x0B
  | none =>
    match s.host.prog with
    | some p =>
      if k = 64 then
        State.setCore ({ s with host := { s.host with prog := none } }.respond 0x01 8 p.tag [wd code, c.pc, addr]) 64 {}
      else s
    | none => s

/-- A fault 0x07 at the instruction boundary when the scan watchdog has expired (R144). The PC word of its record is the
address of the next instruction, for no instruction has faulted (see assumption 11, DEDUCED). -/
def State.watchdogBoundary (s : State) (k : Nat) : State :=
  match (s.core k).task with
  | none => s
  | some n =>
    let t := s.task n
    if t.wdog && t.st = .running then
      (s.setTask n { t with wdog := false }).takeFault k 0x07 0 0
    else s

/-- A run ends with its context saved: `f` says into which state the task goes (YIELD, WAIT, EVWAIT, TRAP). Where the watchdog has
expired meanwhile, the instruction completes and the task ends in fault 0x07 at its boundary (R144). -/
def State.runSuspend (s : State) (k n : Nat) (pc : Word) (reason : Nat) (f : Task → Task) : State :=
  if (s.task n).wdog then
    let s := s.saveContext k n pc
    (s.setCore k { s.core k with pc := pc }).watchdogBoundary k
  else
  let s := (s.saveContext k n pc).trace n reason (if k < 64 then k else 0)
  let s := s.giveBack k
  if (s.task n).stopping then s.stopTask n
  else s.setTask n { f (s.task n) with saved := true, fresh := false, posted := false, acc := s.cc }

end Sys2Proof.Machine
end

