-- ==== Sys2Proof/Machine/RegRead.lean ====
section
/-! DEFINITION. The words of the registers that mirror tasks, coordinates and axis groups. -/

namespace Sys2Proof.Machine

/-- Code of a task state (R201). -/
def TState.code : TState → Nat
  | .unused => 0
  | .idle => 1
  | .ready => 2
  | .running => 3
  | .delayed => 4
  | .evwait => 5
  | .trapped => 6
  | .faulted => 7

/-- TASK.n.STAT and CROWNTASK.t.STAT (R220). -/
def Task.stat (t : Task) : Word :=
  wd (at_ t.st.code 32 + at_ (b2n t.saved) 31 + at_ t.tile 24 + at_ t.prio 19 + at_ t.queue.length 14 + t.count)

/-- Tiles of quadrant q in TAKE. -/
def State.takingCount (s : State) (q : Nat) : Nat :=
  (s.cores.filter (fun e => e.1 / 16 = q && e.1 < 64 && e.2.taking)).length

/-- Coordinate c. -/
def State.coord (s : State) (c : Nat) : Coord := Tab.get {} s.coords c

/-- Value of coordinate c as T72 or P72 (R57, R88). -/
def State.coordValue (s : State) (c : Nat) : DWord := if c = 0 then s.t72 else dwI (s.coord c).value

/-- Present value in units of 2^-32 ns (coordinate 0) or counts: a cue on coordinate 0 is crossed, and its FINE interpolated, on the
device time with its fraction of a nanosecond, of which T72 shows the whole ones (see assumption 15, DEDUCED). -/
def State.coordNow (s : State) (c : Nat) : Int := if c = 0 then s.now else (s.coord c).value

/-- Source of a coordinate (R85). -/
def State.coordSrc (s : State) (c : Nat) : Nat := if c = 0 then 0 else s.rfld (offCoord c 0) 35 32

/-- AGE: cell clocks since the sampling instant of the value in use; 0 for a value that every cell clock updates (R85, R88). -/
def State.coordAge (s : State) (c : Nat) : Nat :=
  if (s.coordSrc c = 2 ∨ s.coordSrc c = 3) ∧ (s.coord c).upd then min (s.cc - (s.coord c).at_) 262143 else 0

/-- STALE of a coordinate: an expected update is missing, or its encoder reports LOSS (R92, R448). -/
def State.isStale (s : State) (c : Nat) : Bool :=
  (s.coord c).stale || (s.coordSrc c = 1 && bit (s.reg (offEnc (s.rfld (offCoord c 0) 19 16) 5)) 35)

/-- Word 6 of a coordinate descriptor (R88). -/
def State.coordWord6 (s : State) (c : Nat) : Word :=
  let x := s.coord c
  wd (at_ (b2n (s.isStale c)) 35 + at_ (b2n x.held) 34 + at_ (b2n x.unlock) 33 + at_ (b2n x.exceed) 32 + s.coordAge c)

/-- Word w of the descriptor of coordinate c (R88). RATE of coordinate 0, which the manual gives no velocity, reads 0,
and one beyond S3.32 wraps (see assumption 16, DEDUCED). -/
def State.coordWord (s : State) (c w : Nat) : Word :=
  if w < 2 ∨ w = 3 then s.reg (offCoord c w)
  else if w = 2 then
    if s.coordSrc c = 4 ∨ s.coordSrc c = 5 then s.reg (offCoord c 2)
    else if s.coordSrc c = 1 then Config.encRate c s.cc
    else wdI ((s.coord c).vel25 / 25)
  else if w = 4 then dlo (s.coordValue c)
  else if w = 5 then dhi (s.coordValue c)
  else if w = 6 then s.coordWord6 c
  else wd (at_ (s.coord c).lag 18 + (s.coord c).corrmax)

/-- Axis group g. -/
def State.agroup (s : State) (g : Nat) : AGroup := Tab.get {} s.axGroups g

/-- Replace axis group g. -/
def State.setAgroup (s : State) (g : Nat) (x : AGroup) : State := { s with axGroups := Tab.put {} s.axGroups g x }

/-- Word w of the registers of axis group g (R285): GT in P72 layout with the fraction truncated to 32 bits. -/
def AGroup.word (x : AGroup) (w : Nat) : Word :=
  let gt := dw (x.gt / 2 ^ 16)
  if w = 0 then dlo gt else if w = 1 then dhi gt
  else if w = 2 then wd (at_ x.ovrnow 18 + x.ovrset) else wd x.slew

end Sys2Proof.Machine
end

