-- ==== Sys2Proof/Machine/Coord.lean ====
section
/-! DEFINITION. Coordinates and the cue engine (R85 - R104): how values move, when a cue is crossed, its fire record, and the
queue of actions. -/

namespace Sys2Proof.Machine

/-! ### Values -/

/-- MODEN of a coordinate (R88); a MAINS coordinate has the modulus 65,536 whatever MODEN holds (R87)
(see assumption 16, DEDUCED). -/
def State.coordMod (s : State) (c : Nat) : Option Int :=
  if s.coordSrc c = 4 then some (65536 * 2 ^ 32)
  else if c != 0 && bit (s.reg (offCoord c 0)) 31 then some ((s.reg (offCoord c 1)).toNat * 2 ^ 32) else none

/-- Keep a value in [0, MODULUS) where the coordinate has a modulus. -/
def State.reduce (s : State) (c : Nat) (x : Int) : Int :=
  match s.coordMod c with
  | some m => if m = 0 then x else x % m
  | none => x

/-- Replace a coordinate. -/
def State.setCoord (s : State) (c : Nat) (x : Coord) : State := { s with coords := Tab.put {} s.coords c x }

/-- The frequency at which a MAINS coordinate advances, in mHz: locked, or nominal while unlocked (R87). -/
def State.mainsHz (s : State) (c : Nat) : Nat :=
  let x := s.coord c
  if x.unlock then (s.reg (offCoord c 2)).toNat else x.mHz

/-- The value of coordinate c in the present cell clock (R85, R90, R92), from the value of the clock before: an index above its source's
range takes its low bits, and the value keeps more bits than a P72 word shows (see assumption 16, DEDUCED). -/
def State.coordNext (s : State) (c : Nat) : Coord :=
  let x := s.coord c
  let src := s.coordSrc c
  let step := x.frac + s.mainsHz c * 2 ^ 48
  let v : Int :=
    if x.held then x.value
    else if src = 1 then
      x.value + sextN ((s.reg (offEnc (s.rfld (offCoord c 0) 19 16) 1)).toNat + 2 ^ 32 - x.raw) 32 * 2 ^ 32
    else if src = 2 ∨ src = 3 then
      (if x.upd then x.pos + x.vel25 * ((s.cc - x.at_ : Nat) : Int) / 25 else x.value)
    else if src = 4 then x.value + (step / 400000000000 : Nat)
    else if src = 5 then x.value + s36 (s.reg (offCoord c 2))
    else 0
  { x with
    prev := x.value, value := s.reduce c v, unc := s.reduce c v, stepped := false
    frac := if src = 4 then step % 400000000000 else x.frac
    raw := if src = 1 then fld (s.reg (offEnc (s.rfld (offCoord c 0) 19 16) 1)) 31 0 else x.raw }

/-- Every coordinate advances to the present cell clock. -/
def State.coordsTick (s : State) : State :=
  (List.range 32).foldl (fun s c => if c = 0 then s else s.setCoord c (s.coordNext c)) s

/-- Largest correction in 1/256 count, saturating at 18 bits (R88). -/
def corrUnits (d : Int) : Nat := min (d.natAbs / 2 ^ 24) (2 ^ 18 - 1)

/-- Distance of two values, along the shorter way where the coordinate has a modulus. -/
def State.coordDist (s : State) (c : Nat) (x y : Int) : Int :=
  match s.coordMod c with
  | some m => if m = 0 then x - y else (x - y + m / 2) % m - m / 2
  | none => x - y

/-- Apply update k+1 to a RING or CMD coordinate (R90 - R92): position, velocity (2^-32 counts per cc, times 25), cell clock
of its sampling instant. The first update and one after HELD follow no prediction of a velocity: they count neither into CORRMAX
nor into EXCEED, which R91 does not say (see assumption 16, DEDUCED). -/
def State.coordUpdate (s : State) (c : Nat) (pos vel25 : Int) (at_ : Nat) : State :=
  let x := s.coord c
  let new := s.reduce c (pos + vel25 * ((s.cc - at_ : Nat) : Int) / 25)
  let d := s.coordDist c x.value new
  let first := !x.upd || x.held
  let dt : Int := at_ - x.at_
  let amax := (s.reg (offCoord c 3)).toNat
  -- |dv| / dt in counts/s^2: dv / 25 / 2^32 counts per cc over dt cc of 2.5 ns
  let exc := !first && amax != 0 && decide (0 < dt) &&
    decide (dt * amax * (25 * 2 ^ 32) < (vel25 - x.vel25).natAbs * 160000000000000000)
  let s := s.setCoord c { x with
    value := new, upd := true, pos := pos, vel25 := vel25, at_ := at_, lag := min (s.cc - at_) (2 ^ 18 - 1)
    stale := false, held := false, stepped := true, exceed := x.exceed || exc
    corrmax := if first then x.corrmax else max x.corrmax (corrUnits d) }
  if exc then s.crownEvent 0x005 (wd c) (s.coordWord6 c) else s

/-- The station of a RING coordinate dropped out: its value is held, and the update that did not arrive leaves STALE (R92). -/
def State.coordHold (s : State) (c : Nat) : State :=
  let x := s.coord c
  s.setCoord c { x with held := true, stale := true, vel25 := 0 }

/-- A coordinate's expected update did not arrive (R92). -/
def State.coordStale (s : State) (c : Nat) : State := s.setCoord c { s.coord c with stale := true }

/-! ### Cues -/

/-- Cue n. -/
def State.cue (s : State) (n : Nat) : Cue := Tab.get {} s.cues n

/-- Replace cue n. -/
def State.setCue (s : State) (n : Nat) (x : Cue) : State := { s with cues := Tab.put {} s.cues n x }

/-- COORD of a cue (R95). -/
def Cue.coord (x : Cue) : Nat := fld x.w0 35 31
/-- DIR. -/
def Cue.dir (x : Cue) : Nat := fld x.w0 30 29
/-- REPEAT. -/
def Cue.repeats (x : Cue) : Bool := bit x.w0 28
/-- ACTION. -/
def Cue.action (x : Cue) : Nat := fld x.w0 27 24
/-- PARAM. -/
def Cue.param (x : Cue) : Nat := fld x.w0 19 0

/-- STATE of a cue (R103). -/
def CState.code : CState → Nat
  | .idle => 0
  | .armed => 1
  | .fired => 2
  | .cancelled => 3

/-- The fire record (R103). -/
def Cue.record (x : Cue) : List Word :=
  [dlo x.ftime, dhi x.ftime,
   wd (at_ (b2n x.past) 35 + at_ (b2n x.stepF) 34 + at_ (b2n x.stale) 33 + at_ (b2n x.unlock) 32 + at_ (b2n x.conflict) 31
     + at_ (b2n x.defer) 30 + at_ x.st.code 24 + at_ (min x.deferCc 255) 16 + at_ x.reason 8 + x.fine),
   wd x.fires]

/-- PARAM ranges of the actions; the codes from 0xC are reserved (R100). -/
def paramOk (action param : Nat) : Bool :=
  match action with
  | 0x0 => param = 0
  | 0x1 => param < 16
  | 0x2 => param < 64 && param % 32 < 24
  | 0x3 => param < 16
  | 0x4 => param < 16
  | 0x5 => param < 16
  | 0x6 => param < 1024
  | 0x7 => param < 256
  | 0x8 => param < 1024
  | 0x9 => param < 1024
  | 0xA => param < 16
  | 0xB => param < 4
  | _ => false

/-- Scale of a VALUE or STEP of coordinate c: T72 and nanoseconds, or P72 and whole counts (R95). -/
def cueValue (c : Nat) (d : DWord) : Int := if c = 0 then ofT72 d else d.toInt

/-- Does a descriptor pass R96 (and leave its reserved bits zero) (see assumption 15, DEDUCED). -/
def State.cueOk (s : State) (ws : List Word) : Bool :=
  let w0 := ws.getD 0 0
  let c := fld w0 35 31
  let dir := fld w0 30 29
  let v := cueValue c (dword (ws.getD 1 0) (ws.getD 2 0))
  dir != 0 && (c != 0 || dir = 1) && fld w0 23 20 = 0 && paramOk (fld w0 27 24) (fld w0 19 0)
    && !(bit w0 28 && ws.getD 3 0 = 0)
    && (match s.coordMod c with
        | some m => decide (0 ≤ v) && decide (v < m)
        | none => true)

/-- The crossing rule of R97 between two values: direction, value, and the modulus if any. -/
def crossed (dir : Nat) (m : Option Int) (prev cur v : Int) : Bool :=
  match m with
  | none => ((dir = 1 || dir = 3) && decide (prev < v) && decide (v ≤ cur))
      || ((dir = 2 || dir = 3) && decide (v < prev) && decide (cur ≤ v))
  | some m =>
    if m = 0 then false
    else
      let d := (cur - prev + m / 2) % m - m / 2
      ((dir = 1 || dir = 3) && decide (0 < d) && decide (0 < (v - prev) % m) && decide ((v - prev) % m ≤ d))
        || ((dir = 2 || dir = 3) && decide (d < 0) && decide (0 < (prev - v) % m) && decide ((prev - v) % m ≤ -d))

/-- c(F-1) for an order accepted in cell clock `at_` with reference `ref` (R97). -/
def State.coordBefore (s : State) (c : Nat) (at_ : Nat) (ref : Int) : Int :=
  if s.cc = at_ + 1 then ref else if c = 0 then s.prevNow else (s.coord c).prev

/-- FINE of R98. -/
def fineOf (m : Option Int) (prev cur v : Int) : Nat :=
  let num : Int := match m with
    | some m => if m = 0 then 0 else (if (cur - prev + m / 2) % m - m / 2 < 0 then (prev - v) % m else (v - prev) % m)
    | none => if cur < prev then prev - v else v - prev
  let den : Int := match m with
    | some m => if m = 0 then 1 else ((cur - prev + m / 2) % m - m / 2).natAbs
    | none => (cur - prev).natAbs
  if den = 0 then 0 else (clampI 0 31 (32 * num / den)).toNat

/-- Does cue n fire in the present cell clock (R97). -/
def State.cueCrosses (s : State) (n : Nat) : Bool :=
  let x := s.cue n
  let c := x.coord
  x.st = .armed && decide (x.armedAt < s.cc) &&
    ((c = 0 && s.cc = x.armedAt + 1 && decide (x.value ≤ x.ref))
      || crossed x.dir (s.coordMod c) (s.coordBefore c x.armedAt x.ref) (s.coordNow c) x.value)

/-- Insert an action in firing order: by cell clock, then by cue number (R99). -/
def insertAction (a : Action) : List Action → List Action
  | [] => [a]
  | b :: r => if a.f < b.f ∨ (a.f = b.f ∧ a.cue < b.cue) then a :: b :: r else b :: insertAction a r

/-- Cue n fires: its record, its next state, and its action into the queue (R97 - R101); NONE is no action and takes none of a clock's
16 places (see assumption 15, DEDUCED). STEP marks a crossing that the coordinate
would not have made in this clock without a step (R93) (see assumption 16, DEDUCED). -/
def State.fireCue (s : State) (n : Nat) : State :=
  let x := s.cue n
  let c := x.coord
  let cur := s.coordNow c
  let past := c = 0 && s.cc = x.armedAt + 1 && decide (x.value ≤ x.ref)
  let step := c != 0 && (s.coord c).stepped
    && !crossed x.dir (s.coordMod c) (s.coordBefore c x.armedAt x.ref) (s.coord c).unc x.value
  let fine := if past || step then 0 else fineOf (s.coordMod c) (s.coordBefore c x.armedAt x.ref) cur x.value
  let act : Action := { cue := n, code := x.action, param := x.param, src := x.owner.getD .host, f := s.cc,
                        time := s.prevNow, fine := fine, stepped := step }
  let x := { x with
    ftime := s.t72, past := past, stepF := step, stale := c != 0 && s.isStale c
    unlock := c != 0 && (s.coord c).unlock, conflict := false, defer := false, deferCc := 0, fine := fine
    fires := (x.fires + 1) % 2 ^ 36, firedAt := some s.cc }
  let x := if x.repeats then
      { x with
        value := s.reduce c (x.value + x.step * (if c = 0 then (tNs : Int) else 2 ^ 32)), ref := cur, armedAt := s.cc }
    else { x with st := .fired }
  let s := s.setCue n x
  if act.code = 0 then s else { s with actions := insertAction act s.actions }

/-- Fire cue n if the present cell clock crosses it (R101, R177). -/
def State.fireIfDue (s : State) (n : Nat) : State :=
  if s.cueCrosses n && (s.cue n).firedAt != some s.cc then s.fireCue n else s

/-- Cancel an armed cue with a reason of R103. -/
def State.cancelCue (s : State) (n reason : Nat) : State :=
  let x := s.cue n
  if x.st = .armed then s.setCue n { x with st := .cancelled, reason := reason } else s

/-- Arm cue n from a descriptor that passed R96 (see assumption 15, DEDUCED). -/
def State.armCue (s : State) (n : Nat) (owner : Src) (ws : List Word) : State :=
  let w0 := ws.getD 0 0
  let c := fld w0 35 31
  s.setCue n { s.cue n with
    st := .armed, owner := some owner, w0 := w0, value := cueValue c (dword (ws.getD 1 0) (ws.getD 2 0))
    step := (ws.getD 3 0).toNat, ref := s.coordNow c, armedAt := s.cc, firedAt := none, fires := 0, reason := 0 }

/-- Cancel every armed cue, or every one on a coordinate (R80, R104). -/
def State.cancelCues (s : State) (p : Cue → Bool) (reason : Nat) : State :=
  { s with cues := s.cues.map (fun e => if e.2.st = .armed && p e.2 then
      (e.1, { e.2 with st := .cancelled, reason := reason }) else e) }

/-- Is a cue armed on coordinate c (R88). -/
def State.cueOn (s : State) (c : Nat) : Bool := s.cues.any (fun e => e.2.st = .armed && e.2.coord = c)

/-- The coordinates of this cell clock. -/
def State.coordValues (s : State) : List DWord := (List.range 32).map s.coordValue

/-- Latch bank k takes the values of every coordinate; SEQ rises by two (R102). -/
def State.latchBank (s : State) (k : Nat) (vs : List DWord) : State :=
  let s := (List.range 32).foldl (fun s c =>
    let v := vs.getD c 0
    (s.setReg (offLatch k (2 + 2 * c)) (dlo v)).setReg (offLatch k (3 + 2 * c)) (dhi v)) s
  s.incReg (offLatch k 0) 2

end Sys2Proof.Machine
end

