-- ==== Sys2Proof/Machine/Axis.lean ====
section
/-! DEFINITION. Axes and step generators (R281 - R307): descriptors, the profile curve, starvation and stops, events. -/

namespace Sys2Proof.Machine

/-- Axis a. -/
def State.axis (s : State) (a : Nat) : Axis := Tab.get {} s.axes a

/-- Replace axis a. -/
def State.setAxis (s : State) (a : Nat) (x : Axis) : State := { s with axes := Tab.put {} s.axes a x }

/-- Word i of an axis descriptor (R282). -/
def Axis.w (x : Axis) (i : Nat) : Word := x.desc.getD i 0
/-- GROUP. -/
def Axis.group (x : Axis) : Nat := fld (x.w 0) 35 31
/-- PLANE, the position lane. -/
def Axis.plane (x : Axis) : Nat := fld (x.w 0) 9 0
/-- The lanes the axis names (R282). -/
def axisLanes (d : List Word) : List Nat :=
  let w0 := d.getD 0 0
  [fld w0 9 0] ++ (if bit w0 30 then [fld w0 19 10] else []) ++ (if bit w0 29 then [fld (d.getD 1 0) 9 0] else [])
/-- VFS, AFS, DSTOP and DQUICK. -/
def Axis.vfs (x : Axis) : Nat := (x.w 2).toNat
/-- AFS. -/
def Axis.afs (x : Axis) : Nat := (x.w 3).toNat
/-- DSTOP. -/
def Axis.dstop (x : Axis) : Nat := (x.w 4).toNat
/-- DQUICK. -/
def Axis.dquick (x : Axis) : Nat := (x.w 5).toNat
/-- POSMIN and POSMAX, none where both are zero. -/
def Axis.limits (x : Axis) : Option (Int × Int) :=
  let lo := (dword (x.w 6) (x.w 7)).toInt
  let hi := (dword (x.w 8) (x.w 9)).toInt
  if lo = 0 ∧ hi = 0 then none else some (lo, hi)

/-- Code of an axis state (R303). -/
def AState.code : AState → Nat
  | .unconf => 0
  | .disabled => 1
  | .ready => 2
  | .moving => 3
  | .starving => 4
  | .stopping => 5
  | .fault => 6

/-- The segments that ended with no sample in them complete now (R293). -/
def Axis.settle (x : Axis) : Axis := { x with segdone := (x.segdone + x.skipped) % 2 ^ 36, skipped := 0 }

/-- AXSTAT word w (R303): a segment that ended with no sample in it counts in QLEN until the next sample (R293). -/
def Axis.stat (x : Axis) (w : Nat) : Word :=
  match w with
  | 0 => wd (at_ x.st.code 32 + at_ (b2n x.starved) 31 + at_ (b2n x.limit) 30 + at_ (b2n x.follow) 29
      + at_ (min (x.queue.length + x.skipped) 127) 22 + x.tag)
  | 1 => wd (at_ x.group 31)
  | 2 => dlo (dwI x.prefs)
  | 3 => dhi (dwI x.prefs)
  | 4 => wdI x.vcmd
  | 5 => wd x.segdone
  | 6 => wd (at_ x.starves 18 + x.satref)
  | 7 => wd x.fepeak
  | _ => 0

/-- An axis event (R302): 1 SEGSTART, 2 STARVE, 3 STOPPED, 4 LIMIT, 5 FOLLOW. -/
def State.axisEvent (s : State) (a ev : Nat) : State :=
  let x := s.axis a
  let w := wd (at_ ev 32 + at_ a 24 + x.tag)
  let s := if bit (x.w 0) 27 then s.postQ (a / 64) (fld (x.w 1) 35 28) w else s
  if ev = 2 ∨ ev = 4 ∨ ev = 5 then s.crownEvent 0x009 w ((s.axis a).stat 0) else s

/-! ### The curve (R291, R292) -/

/-- s of R291 as U0.35, rounded per R151; g and g0 in 2^-48 ns. -/
def segS (g g0 dur : Nat) : Nat := (divRound ((g : Int) - g0) (dur * 2 ^ 13)).toNat

/-- Position on the curve in 2^-32 counts, rounded once (R291) (see assumption 25, DEDUCED). -/
def segPos (sg dur : Nat) (p0 v0 p1 v1 : Int) : Int :=
  let n : Int := 2 ^ 35
  let x : Int := sg
  let num := (2 * x ^ 3 - 3 * x ^ 2 * n + n ^ 3) * p0 * 1000 + (x ^ 3 - 2 * x ^ 2 * n + x * n ^ 2) * dur * v0 * 2 ^ 16
    + (3 * x ^ 2 * n - 2 * x ^ 3) * p1 * 1000 + (x ^ 3 - x ^ 2 * n) * dur * v1 * 2 ^ 16
  divRound num (1000 * n ^ 3)

/-- Numerator of the velocity; over 2^70 * dur * 2^16 it is 2^-16 counts per us of group time
(see assumption 25, DEDUCED). -/
def segVelNum (sg dur : Nat) (p0 v0 p1 v1 : Int) : Int :=
  let n : Int := 2 ^ 35
  let x : Int := sg
  (6 * x ^ 2 - 6 * x * n) * (p0 - p1) * 1000
    + ((3 * x ^ 2 - 4 * x * n + n ^ 2) * v0 + (3 * x ^ 2 - 2 * x * n) * v1) * dur * 2 ^ 16

/-- Numerator of the acceleration; over 2^35 * dur^2 * 2^16 it is 2^-16 counts per ms^2 (see assumption 25, DEDUCED). -/
def segAccNum (sg dur : Nat) (p0 v0 p1 v1 : Int) : Int :=
  let n : Int := 2 ^ 35
  let x : Int := sg
  (12 * x - 6 * n) * (p0 - p1) * 1000000000000 + ((6 * x - 4 * n) * v0 + (6 * x - 2 * n) * v1) * 1000000000 * dur * 2 ^ 16

/-- Square root of an integer, 0 for a negative one. -/
def sqrtI (x : Int) : Int := if x < 0 then 0 else (isqrtN 200 x.toNat 0 : Nat)
where
  /-- Integer square root by bits. -/
  isqrtN : Nat → Nat → Nat → Nat
    | 0, _, r => r
    | i + 1, n, r => if (r + 2 ^ i) * (r + 2 ^ i) ≤ n then isqrtN i n (r + 2 ^ i) else isqrtN i n r

/-- The checks of R289 on a curve: limits, velocity and acceleration magnitudes in group time
(see assumption 25, DEDUCED). -/
def Axis.curveOk (x : Axis) (p0 v0 : Int) (dur : Nat) (p1 v1 : Int) : Bool :=
  let den : Int := dur * 2 ^ 16
  let a := 6 * (p0 - p1) * 1000 + (3 * v0 + 3 * v1) * den
  let b := -(6 * (p0 - p1) * 1000) - (4 * v0 + 2 * v1) * den
  let c := v0 * den
  let sg : Int := if 0 ≤ a then 1 else -1
  let vertexIn := a != 0 && decide (0 < -b * sg) && decide (-b * sg < 2 * a.natAbs)
  let velOk := decide (v0.natAbs ≤ x.vfs) && decide (v1.natAbs ≤ x.vfs) &&
    (!vertexIn || decide ((4 * a * c - b * b).natAbs ≤ 4 * a.natAbs * x.vfs * den.natAbs))
  let accOk := decide (b.natAbs * 1000000000 ≤ x.afs * dur * den.natAbs)
    && decide ((2 * a + b).natAbs * 1000000000 ≤ x.afs * dur * den.natAbs)
  let posOk := match x.limits with
    | none => true
    | some (lo, hi) =>
      let inside (p : Int) : Bool := decide (lo ≤ p) && decide (p ≤ hi)
      let disc := b * b - 4 * a * c
      -- the moments of zero velocity, as U0.35
      let roots : List Int :=
        if a = 0 then (if b = 0 then [] else [divRound (-c * sg0 b * 2 ^ 35) b.natAbs])
        else if disc < 0 then []
        else [divRound ((-b + sqrtI disc) * sg * 2 ^ 35) (2 * a.natAbs), divRound ((-b - sqrtI disc) * sg * 2 ^ 35) (2 * a.natAbs)]
      inside p0 && inside p1 &&
        roots.all (fun r => !(decide (0 < r) && decide (r < 2 ^ 35)) || inside (segPos r.toNat dur p0 v0 p1 v1))
  velOk && accOk && posOk
where
  /-- Sign of an integer. -/
  sg0 (b : Int) : Int := if 0 ≤ b then 1 else -1

/-! ### Stops (R294 - R296) -/

/-- Has the stop's velocity reached zero t units of device time after its start. -/
def Stop.over (x : Stop) (t : Nat) : Bool := decide (x.v.natAbs * 1000000000 * 2 ^ 32 ≤ t * x.decel)

/-- Position of a stop after t units of device time (2^-32 ns) (see assumption 25, DEDUCED). -/
def Stop.posAt (x : Stop) (t : Nat) : Int :=
  let sg : Int := if x.v < 0 then -1 else 1
  if x.over t then x.p + sg * divRound ((x.v.natAbs : Int) ^ 2 * 1000000 * 2 ^ 16) (2 * max x.decel 1)
  else x.p + divRound (x.v * t * (2 * 1000000000 * 2 ^ 32) - sg * x.decel * (t : Int) ^ 2)
    (2 * 1000000000000 * 2 ^ 48)

/-- Velocity of a stop after t units of device time, in 2^-16 counts per us (see assumption 25, DEDUCED). -/
def Stop.velAt (x : Stop) (t : Nat) : Int :=
  let sg : Int := if x.v < 0 then -1 else 1
  if x.over t then 0 else x.v - sg * divRound ((x.decel : Int) * t) (1000000000 * 2 ^ 32)

/-- The commanded position and velocity (physical, 2^-16 counts per us) of an axis at this moment. -/
def State.axisNow (s : State) (a : Nat) : Int × Int :=
  let x := s.axis a
  match x.st, x.queue, x.stop with
  | .moving, g :: _, _ =>
    let gr := s.agroup x.group
    let sg := segS gr.gt x.g0 g.dur
    (segPos sg g.dur x.p0 x.v0 g.pend g.vend,
     divRound (segVelNum sg g.dur x.p0 x.v0 g.pend g.vend * gr.ovrnow) (2 ^ 70 * g.dur * 2 ^ 32))
  | .starving, _, some st => (st.posAt (s.elapsed - st.t), st.velAt (s.elapsed - st.t))
  | .stopping, _, some st => (st.posAt (s.elapsed - st.t), st.velAt (s.elapsed - st.t))
  | _, _, _ => (x.pref, 0)

/-- A segment starts at an axis: SEGSTART if it asks for it (R287, R302). -/
def State.segStart (s : State) (a : Nat) : State :=
  let x := s.axis a
  match x.queue with
  | [] => s
  | g :: _ =>
    let s := s.setAxis a { x with tag := g.tag }
    if g.postStart then s.axisEvent a 1 else s

/-- A limit or the end of a stop: the axis takes its resting state (R294 - R297). -/
def State.stopEnd (s : State) (a : Nat) (p : Int) (lim : Bool) : State :=
  let x := s.axis a
  let toFault := (x.stop.map Stop.toFault).getD false
  let s := s.setAxis a { x with
    st := if lim || toFault then .fault else .ready, stop := none, pref := p, limit := x.limit || lim }
  if lim then s.axisEvent a 4 else if toFault then s else s.axisEvent a 3

/-- The axis runs on to the present moment: segments whose end GT has passed are completed, at the next sample where
none fell in them; a last one with a nonzero end velocity starves; a stop that has reached zero velocity or a limit ends
(R293 - R296). -/
def State.axisRun (a : Nat) : Nat → State → State
  | 0, s => s
  | fuel + 1, s =>
    let x := s.axis a
    match x.st, x.queue, x.stop with
    | .moving, g :: rest, _ =>
      let gr := s.agroup x.group
      let gEnd := x.g0 + g.dur * 2 ^ 48
      if gr.gt ≤ gEnd then s
      else
        let x := { x with
          queue := rest, p0 := g.pend, v0 := g.vend, g0 := gEnd, sampled := false
          segdone := if x.sampled then (x.segdone + 1) % 2 ^ 36 else x.segdone, skipped := if x.sampled then x.skipped else x.skipped + 1 }
        if rest != [] then State.axisRun a fuel ((s.setAxis a x).segStart a)
        else if g.vend = 0 then s.setAxis a { x with st := .ready, pref := g.pend }
        else
          let back := if gr.ovrnow = 0 then 0 else (gr.gt - gEnd) / gr.ovrnow
          let v := divRound (g.vend * gr.ovrnow) (2 ^ 16)
          let st : Stop := { p := g.pend, v := v, t := s.elapsed - back, decel := x.dstop, toFault := false }
          let s := s.setAxis a { x with
            st := .starving, starved := true, starves := satAdd x.starves 1 18, stop := some st, pref := g.pend }
          let s := if bit (x.w 0) 28 then s.setAgroup x.group { s.agroup x.group with ovrset := 0 } else s
          State.axisRun a fuel (s.axisEvent a 2)
    | .starving, _, some st =>
      stopStep s a x st
    | .stopping, _, some st =>
      stopStep s a x st
    | _, _, _ => s
where
  /-- End a stop that has reached a limit or zero velocity. -/
  stopStep (s : State) (a : Nat) (x : Axis) (st : Stop) : State :=
    let p := st.posAt (s.elapsed - st.t)
    match x.limits with
    | some (lo, hi) =>
      if (p < lo ∨ hi < p) ∧ !st.over (s.elapsed - st.t) then s.stopEnd a (clampI lo hi p) true
      else if st.over (s.elapsed - st.t) then s.stopEnd a (clampI lo hi p) (p < lo ∨ hi < p) else s
    | none => if st.over (s.elapsed - st.t) then s.stopEnd a p false else s

/-- Begin a stop from the present motion, quick or not, with an empty queue (R295, R297). -/
def State.beginStop (s : State) (a decel : Nat) (quick toFault : Bool) : State :=
  let (p, v) := s.axisNow a
  let x := s.axis a
  s.setAxis a { x.settle with
    st := .stopping, queue := [], stop := some { p := p, v := v, t := s.elapsed, decel := decel, toFault := toFault, quick := quick } }

/-- The first queued segment starts (R290). -/
def State.startMotion (s : State) (a : Nat) : State :=
  let x := s.axis a
  (s.setAxis a { x with
    st := .moving, starved := false, sampled := false, p0 := x.pref, v0 := 0, g0 := (s.agroup x.group).gt
    queue := x.queue.map (fun g => { g with unchecked := false }) }).segStart a

/-- The axis supplies a sample of its position lane: pref, vref and aref as S0.35 (R292), physical velocity (R293). -/
structure AxisOut where
  pref : Int
  vref : Int
  aref : Int
  vel16 : Int
  sat : Bool

/-- The profile at this moment for the position lane (R292, R294). -/
def State.axisOut (s : State) (a : Nat) : AxisOut :=
  let x := s.axis a
  let (p, v) := s.axisNow a
  let sat2 (v r : Int) : AxisOut → AxisOut := fun o => { o with vref := satS36 v, aref := satS36 r,
                                                                sat := v != satS36 v || r != satS36 r }
  let o : AxisOut := { pref := p, vref := 0, aref := 0, vel16 := v, sat := false }
  match x.st, x.queue, x.stop with
  | .moving, g :: _, _ =>
    let gr := s.agroup x.group
    let sg := segS gr.gt x.g0 g.dur
    sat2 (divRound (segVelNum sg g.dur x.p0 x.v0 g.pend g.vend * gr.ovrnow * 2 ^ 35) (2 ^ 70 * g.dur * 2 ^ 32 * max x.vfs 1))
      (divRound (segAccNum sg g.dur x.p0 x.v0 g.pend g.vend * gr.ovrnow ^ 2 * 2 ^ 35)
        (2 ^ 35 * g.dur ^ 2 * 2 ^ 48 * max x.afs 1)) o
  | .starving, _, some st => stopOut sat2 x st v o
  | .stopping, _, some st => stopOut sat2 x st v o
  | _, _, _ => o
where
  /-- During a stop vref follows the velocity and aref is the deceleration against it (R294). -/
  stopOut (sat2 : Int → Int → AxisOut → AxisOut) (x : Axis) (st : Stop) (v : Int) (o : AxisOut) : AxisOut :=
    let sg : Int := if st.v < 0 then 1 else -1
    sat2 (divRound (v * 2 ^ 35) (max x.vfs 1)) (divRound (sg * st.decel * 2 ^ 35) (max x.afs 1)) o

/-- CMD coordinates of an axis take the sample as their update (R90, R293) (see assumption 26, DEDUCED). -/
def State.axisCmd (s : State) (a : Nat) (p v16 : Int) (at_ : Nat) : State :=
  (List.range 32).foldl (fun s c =>
    if c != 0 && s.coordSrc c = 3 && s.rfld (offCoord c 0) 23 16 = a then s.coordUpdate c p (v16 * 4096) at_ else s) s

/-! ### Axis groups (R284 - R286) -/

/-- One cell clock of every axis group: GT adds INC * OVRNOW; with SLEW 0 a new OVRSET is in use (R284, R286)
(see assumption 25, DEDUCED). -/
def State.groupsTick (s : State) (inc : Nat) : State :=
  (List.range 32).foldl (fun s g =>
    let x := s.agroup g
    s.setAgroup g { x with gt := x.gt + inc * x.ovrnow, ovrnow := if x.slew = 0 then x.ovrset else x.ovrnow }) s

/-- One scheduler tick of every group: OVRNOW moves toward OVRSET by at most SLEW (R286). -/
def State.groupsSlew (s : State) : State :=
  (List.range 32).foldl (fun s g =>
    let x := s.agroup g
    let n := if x.ovrnow ≤ x.ovrset then min x.ovrset (x.ovrnow + x.slew) else max x.ovrset (x.ovrnow - x.slew)
    s.setAgroup g { x with ovrnow := if x.slew = 0 then x.ovrnow else n }) s

/-! ### Step generators (R304 - R307) -/

/-- Step generator g. -/
def State.stepGen (s : State) (g : Nat) : StepGen := Tab.get {} s.steps g

/-- Replace step generator g. -/
def State.setStep (s : State) (g : Nat) (x : StepGen) : State := { s with steps := Tab.put {} s.steps g x }

/-- The largest VEL in use (R305). -/
def velLimit : Int := 0x3333333

/-- One addition of the accumulator (R305): POS and FRAC, and +1, -1 or 0 for the step carried. -/
def stepAdd (pos : Word) (frac : Nat) (vel : Word) : Word × Nat × Int :=
  let x : Int := frac + clampI (-velLimit) velLimit (s36 vel)
  let d := x / 2 ^ 32
  (wdI (s36 pos + d), (x % 2 ^ 32).toNat, d)

/-- Withdraw a step whose pulse has not started (R307). -/
def State.withdrawStep (s : State) (g : Nat) : State :=
  let x := s.stepGen g
  match x.pend with
  | none => s
  | some (up, _) =>
    (s.setReg (offStep g 2) (wdI (s36 (s.reg (offStep g 2)) - (if up then 1 else -1)))).setStep g
      { x with pend := none, dirOut := x.lastDir }

/-- RUN is cleared (R307) (see assumption 27, DEDUCED). -/
def State.stepStop (s : State) (g : Nat) : State :=
  let s := (s.setRfld (offStep g 0) 0 0 0).withdrawStep g
  s.setStep g { s.stepGen g with goAt := none, carry := 0 }

end Sys2Proof.Machine
end

