-- ==== Sys2Proof/Machine/Law.lean ====
section
/-! DEFINITION. The law catalogue L0 to L7 (R258 - R270), as functions of coefficients, states and inputs. Signals and single
state words are integers in units of 2^-35, accumulators in units of 2^-63, coefficients in units of 2^-31. Each result
carries whether anything saturated. -/

namespace Sys2Proof.Machine

/-- A value with the saturation seen so far. -/
structure Sat where
  v : Int
  sat : Bool := false
  deriving DecidableEq, Repr

/-- Saturate to S8.63. -/
def Sat.acc (x : Int) : Sat := { v := satS72 x, sat := x != satS72 x }

/-- A signal times a coefficient, to 63 fraction bits: a shift of 3 (R258) (see assumption 23, DEDUCED). -/
def mulSig (c x : Int) : Int := rshRound (c * x) 3

/-- An accumulator times a coefficient, to 63 fraction bits (see assumption 23, DEDUCED). -/
def mulAcc (c a : Int) : Int := rshRound (c * a) 31

/-- An accumulator times a signal fraction, to 63 fraction bits. -/
def mulFrac (x a : Int) : Int := rshRound (x * a) 35

/-- A signal as S8.63. -/
def toAcc (x : Int) : Int := x * 2 ^ 28

/-- Round S8.63 to S0.35 and saturate (R258) (see assumption 23, DEDUCED). -/
def toSig (a : Int) : Sat := let r := rshRound a 28; { v := satS36 r, sat := r != satS36 r }

/-- What a law sample is given. -/
structure LawIn where
  /-- Header fields and output limits (R246, R261). -/
  order : Nat
  possh : Nat
  donm : Bool
  errin : Bool
  outMax : Int
  outMin : Int
  rateMax : Int
  /-- Coefficients C0-C23 in S4.31. -/
  c : List Int
  /-- State words S0-S15. -/
  st : List Word
  /-- Inputs IN0-IN3, the two counts unscaled. -/
  x : List Int
  r : Int
  /-- PROFILE or PULSE: pref (P72), vref and aref. -/
  pref : Int
  vref : Int
  aref : Int
  last : Int
  /-- An input or the setpoint saturated as it was formed (R248, R258, R260). -/
  preSat : Bool := false

/-- What a law sample gives. -/
structure LawOut where
  st : List Word
  u : Int
  nodes : List Int
  sat : Bool
  /-- L6: the three duties; L5: the unwrapped position. -/
  duty : List Int := []
  pos : Int := 0
  deriving DecidableEq, Repr

/-- Coefficient k. -/
def LawIn.co (i : LawIn) (k : Nat) : Int := i.c.getD k 0
/-- State word k as S0.35. -/
def LawIn.s1 (i : LawIn) (k : Nat) : Int := (i.st.getD k 0).toInt
/-- State double word k as S8.63. -/
def LawIn.s2 (i : LawIn) (k : Nat) : Int := (dword (i.st.getD k 0) (i.st.getD (k + 1) 0)).toInt
/-- Input k. -/
def LawIn.inp (i : LawIn) (k : Nat) : Int := i.x.getD k 0

/-- Sixteen state words with a list laid over the first ones. -/
def states (ws : List Word) : List Word := (List.range 16).map (fun k => ws.getD k 0)

/-- A double-word state as two words. -/
def st2 (a : Int) : List Word := [dlo (dwI a), dhi (dwI a)]

/-- The limit of R261 on an accumulator: clamp to [OUTMIN, OUTMAX], then to the last output +- RATEMAX. The output in
S0.35. -/
def LawIn.limit (i : LawIn) (upre : Int) : Sat :=
  let a := clampI (toAcc i.outMin) (toAcc i.outMax) upre
  let a := if i.rateMax = 0 then a else clampI (toAcc (i.last - i.rateMax)) (toAcc (i.last + i.rateMax)) a
  toSig a

/-- L0 (R262) (see assumption 23, DEDUCED). -/
def lawL0 (i : LawIn) : LawOut :=
  let y := i.inp 0
  let ff := i.inp 1
  let e := i.r - y
  let dd := if i.donm then i.s1 4 - y else e - i.s1 4
  let d := Sat.acc (mulAcc (i.co 3) (i.s2 2) + mulSig (i.co 2) dd)
  let ke := mulSig (i.co 0) e
  let up := Sat.acc (ke + i.s2 0 + d.v + mulSig (i.co 5) ff)
  let u := i.limit up.v
  let back := Sat.acc (toAcc u.v - up.v)
  let ni := Sat.acc (i.s2 0 + mulSig (i.co 1) e + mulAcc (i.co 4) back.v)
  let ns := [toSig ke, toSig ni.v, toSig d.v, toSig up.v]
  { st := states (st2 ni.v ++ st2 d.v ++ [wdI (satS36 (if i.donm then y else e))]), u := u.v
    nodes := [i.r, y, satS36 e, (toSig ke).v, (toSig ni.v).v, (toSig d.v).v, (toSig up.v).v, u.v]
    sat := e != satS36 e || d.sat || up.sat || u.sat || back.sat || ni.sat || ns.any Sat.sat }

/-- L1 (R263). -/
def lawL1 (i : LawIn) : LawOut :=
  let y := i.inp 0
  let rr := i.r + i.inp 1
  let e := rr - y
  let ke := mulSig (i.co 0) e
  let kff := mulSig (i.co 2) (i.inp 2)
  let up := Sat.acc (ke + i.s2 0 + kff)
  let u := i.limit up.v
  let a := Sat.acc (i.s2 0 + mulSig (i.co 1) e)
  let ni := clampI (toAcc i.outMin) (toAcc i.outMax) a.v
  { st := states (st2 ni), u := u.v
    nodes := [satS36 rr, y, satS36 e, (toSig ke).v, (toSig ni).v, (toSig kff).v, (toSig up.v).v, u.v]
    sat := e != satS36 e || rr != satS36 rr || up.sat || u.sat || a.sat || (toSig ke).sat || (toSig kff).sat || (toSig up.v).sat }

/-- The input of L2, L3 and L4: r - y, or y alone. -/
def LawIn.xin (i : LawIn) : Int := if i.errin then i.r - i.inp 0 else i.inp 0

/-- A biquad section (R264): w and the new states for input a in S8.63 and coefficients b0, b1, b2, a1, a2. -/
def biquad (b0 b1 b2 a1 a2 a s1 s2 : Int) : Sat × Sat × Sat :=
  let w := Sat.acc (mulAcc b0 a + s1)
  (w, Sat.acc (mulAcc b1 a - mulAcc a1 w.v + s2), Sat.acc (mulAcc b2 a - mulAcc a2 w.v))

/-- A sample of L2 or L3 whose bank words are not as R264 and R265 ask: it saturates to its last output
(see assumption 23, DEDUCED). -/
def LawIn.badBank (i : LawIn) : LawOut :=
  { st := states i.st, u := i.last, sat := true
    nodes := [i.r, i.inp 0, satS36 i.xin, 0, 0, 0, i.last, i.last] }

/-- L2 (R264); reserved bits of C22 and C23 set make the sample keep its last output (see assumption 23, DEDUCED). -/
def lawL2 (i : LawIn) : LawOut :=
  let x := i.xin
  let c22 := i.co 22
  if (c22 != 0 && c22 != 1) || i.co 23 != 0 then i.badBank
  else
    let k := 11 * c22.toNat
    let (w1, p1, p2) := biquad (i.co k) (i.co (k + 1)) (i.co (k + 2)) (i.co (k + 3)) (i.co (k + 4)) (toAcc x) (i.s2 0) (i.s2 2)
    let (w2, q1, q2) := biquad (i.co (k + 5)) (i.co (k + 6)) (i.co (k + 7)) (i.co (k + 8)) (i.co (k + 9)) w1.v
      (i.s2 4) (i.s2 6)
    let up := Sat.acc (mulAcc (i.co (k + 10)) w2.v)
    let u := i.limit up.v
    let n3 := toSig w1.v
    let n4 := toSig w2.v
    let n6 := toSig up.v
    { st := states (st2 p1.v ++ st2 p2.v ++ st2 q1.v ++ st2 q2.v), u := u.v
      nodes := [i.r, i.inp 0, satS36 x, n3.v, n4.v, 0, n6.v, u.v]
      sat := x != satS36 x || w1.sat || p1.sat || p2.sat || w2.sat || q1.sat || q2.sat || up.sat || u.sat || n3.sat || n4.sat || n6.sat }

/-- L3 (R265): order 1-8 in observer form; orders to 5 lie in the bank of C22[0] as in L2, and C22 is zero for the others
(see assumption 23, DEDUCED). -/
def lawL3 (i : LawIn) : LawOut :=
  let x := i.xin
  let n := i.order
  let c22 := i.co 22
  if (if n ≤ 5 then (c22 != 0 && c22 != 1) || i.co 23 != 0 else c22 != 0) then i.badBank else
  let k := if n ≤ 5 then 11 * (c22.toNat % 2) else 0
  let cj (j : Nat) : Int := i.co (k + j)
  let aj (j : Nat) : Int := i.co (k + n + j)
  let up := Sat.acc (i.s2 0 + mulSig (cj 0) x)
  let new (j : Nat) : Sat :=
    if j < n then Sat.acc (i.s2 (2 * j) + mulSig (cj j) x - mulAcc (aj j) up.v)
    else Sat.acc (mulSig (cj n) x - mulAcc (aj n) up.v)
  let ss := (List.range n).map (fun j => new (j + 1))
  let u := i.limit up.v
  let node (j : Nat) : Sat := toSig (if j < n then (ss.getD j { v := 0 }).v else 0)
  { st := states (ss.flatMap (fun a => st2 a.v)), u := u.v
    nodes := [i.r, i.inp 0, satS36 x, (node 0).v, (node 1).v, (node 2).v, (toSig up.v).v, u.v]
    sat := x != satS36 x || up.sat || u.sat || ss.any Sat.sat || (toSig up.v).sat || (node 0).sat || (node 1).sat || (node 2).sat }

/-- L4 (R266). -/
def lawL4 (i : LawIn) : LawOut :=
  let x := i.xin
  let a0 := mulSig (i.co 0) x
  let a1 := mulSig (i.co 1) (i.s1 0)
  let a2 := mulSig (i.co 2) i.last
  let up := Sat.acc (a0 + a1 - a2)
  let u := i.limit up.v
  { st := states [wdI (satS36 x)], u := u.v
    nodes := [i.r, i.inp 0, satS36 x, (toSig a0).v, (toSig a1).v, (toSig (-a2)).v, (toSig up.v).v, u.v]
    sat := x != satS36 x || up.sat || u.sat || (toSig a0).sat || (toSig a1).sat || (toSig (-a2)).sat || (toSig up.v).sat }

/-- sat35 of a count difference scaled by POSSH (R267): P72 to S0.35 with full scale 2^(35 - POSSH) counts
(see assumption 23, DEDUCED). -/
def sat35 (d : Int) (possh : Nat) : Sat :=
  -- d in 2^-32 counts; times 2^(possh - 35) gives a fraction; in units of 2^-35 that is d * 2^possh / 2^32
  let r := rshRound (d * 2 ^ possh) 32
  { v := satS36 r, sat := r != satS36 r }

/-- L5 (R267). The count wraps at 2^32 and is unwrapped into p (see assumption 23, DEDUCED). -/
def lawL5 (i : LawIn) : LawOut :=
  let n := (i.inp 0 % 2 ^ 32).toNat
  let dn := sextN (n + 2 ^ 32 - (i.st.getD 2 0).toNat % 2 ^ 32) 32
  let pa := Sat.acc (i.s2 0 + dn * 2 ^ 32)
  let p := pa.v
  let e := sat35 (i.pref - p) i.possh
  let ke := mulSig (i.co 0) e.v
  let up := Sat.acc (ke + i.s2 3 + mulSig (i.co 1) i.vref)
  let u := i.limit up.v
  let a := Sat.acc (i.s2 3 + mulSig (i.co 2) e.v)
  let ni := clampI (toAcc i.outMin) (toAcc i.outMax) a.v
  let n5 := toSig (mulSig (i.co 3) i.aref)
  let dnode := sat35 (dn * 2 ^ 32) i.possh
  { st := states (st2 p ++ [wd n] ++ st2 ni ++ st2 i.pref), u := u.v, pos := p
    nodes := [i.vref, dnode.v, e.v, (toSig ke).v, (toSig ni).v, n5.v, (toSig up.v).v, u.v]
    sat := pa.sat || e.sat || up.sat || u.sat || a.sat || n5.sat || dnode.sat || (toSig ke).sat || (toSig up.v).sat }

/-- 1 / sqrt 3 in units of 2^-35, rounded. -/
def invSqrt3 : Int := 19837604196

/-- sqrt 3 / 2 in units of 2^-35, rounded. -/
def halfSqrt3 : Int := 29756406294

/-- Integer square root of a non-negative integer by bits (see assumption 23, DEDUCED). -/
def rootN : Nat → Nat → Nat → Nat
  | 0, _, r => r
  | i + 1, n, r => if (r + 2 ^ i) * (r + 2 ^ i) ≤ n then rootN i n (r + 2 ^ i) else rootN i n r

/-- sin of th units of 2^-35 of a turn, in units of 2^-35 (R268): the table's entries at th[34:19] and after it, interpolated
linearly, and within 2^-28 of the exact value. The table is free (see assumption 3, DESIGN CHOICE). -/
def sinTurn (th : Nat) : Int :=
  let e (i : Nat) : Int := (Config.sinEntry (BitVec.ofNat 16 i)).toInt
  let i := th % 2 ^ 35 / 2 ^ 19
  let v := e i + rshRound ((e (i + 1) - e i) * (th % 2 ^ 19 : Nat)) 19
  let x := rshRound (cosTurn60 (th + 3 * 2 ^ 33) 35) 25
  clampI (x - 2 ^ 7) (x + 2 ^ 7) v

/-- cos of th units of 2^-35 of a turn (R268). -/
def cosTurn (th : Nat) : Int := sinTurn (th + 2 ^ 33)

/-- L6 (R268). Inside, quantities are S8.63 accumulators (see assumption 23, DEDUCED). -/
def lawL6 (i : LawIn) : LawOut :=
  -- th in units of 2^-35 of a turn: c8 turns per count (S4.31) times a count, plus c9
  let th : Nat := ((i.co 8 * i.inp 2 * 2 ^ 4 + i.co 9 * 2 ^ 4) % 2 ^ 35).toNat
  let cs := cosTurn th
  let sn := sinTurn th
  let ial := toAcc (i.inp 0)
  let ibe := Sat.acc (mulFrac invSqrt3 (toAcc (i.inp 0) + 2 * toAcc (i.inp 1)))
  let id := Sat.acc (mulFrac cs ial + mulFrac sn ibe.v)
  let iq := Sat.acc (mulFrac cs ibe.v - mulFrac sn ial)
  let thl := (i.st.getD 4 0).toNat
  let w : Int := sextN (th + 2 ^ 35 - thl % 2 ^ 35) 35
  let rr := i.r + i.inp 3
  let ed := Sat.acc (i.co 10 * 2 ^ 32 - id.v)
  let eq := Sat.acc (toAcc rr - iq.v)
  let vd0 := Sat.acc (mulAcc (i.co 0) ed.v + i.s2 0 - mulAcc (i.co 4) (mulFrac w iq.v))
  let vq0 := Sat.acc (mulAcc (i.co 2) eq.v + i.s2 2 + mulAcc (i.co 5) (mulFrac w id.v))
  let sq := Sat.acc (rshRound (vd0.v * vd0.v) 63 + rshRound (vq0.v * vq0.v) 63)
  let mag : Int := (rootN 80 (sq.v * 2 ^ 63).toNat 0 : Nat)
  let m := Sat.acc (mulAcc (i.co 11) mag)
  let lim := toAcc i.outMax
  let over_ := decide (lim < m.v)
  let vd := if over_ then divRound (vd0.v * lim) (max m.v 1) else vd0.v
  let vq := if over_ then divRound (vq0.v * lim) (max m.v 1) else vq0.v
  let ad := Sat.acc (i.s2 0 + mulAcc (i.co 1) ed.v)
  let aq := Sat.acc (i.s2 2 + mulAcc (i.co 3) eq.v)
  -- inverse Park and Clarke
  let val := Sat.acc (mulFrac cs vd - mulFrac sn vq)
  let vbe := Sat.acc (mulFrac sn vd + mulFrac cs vq)
  let va := val.v
  let h := mulFrac halfSqrt3 vbe.v
  let vb := Sat.acc (h - rshRound val.v 1)
  let vc := Sat.acc (-h - rshRound val.v 1)
  let mm := Sat.acc (max va (max vb.v vc.v) + min va (min vb.v vc.v))
  let z := -(rshRound mm.v 1)
  let vz (v : Int) : Sat := Sat.acc (v + z)
  let half (v : Int) : Sat := Sat.acc (2 ^ 62 + mulAcc (i.co 11) (vz v).v)
  let duty (v : Int) : Int := clampI 0 s36Max (rshRound (half v).v 28)
  let vs := [va, vb.v, vc.v]
  let ds := vs.map duty
  let sg (a : Int) : Int := (toSig a).v
  { st := states (st2 (clampI (-lim) lim ad.v) ++ st2 (clampI (-lim) lim aq.v) ++ [wd th]), u := ds.getD 0 0, duty := ds
    nodes := [satS36 rr, sg iq.v, sg eq.v, sg id.v, sg vd, sg vq, sg m.v, ds.getD 0 0]
    sat := ibe.sat || id.sat || iq.sat || ed.sat || eq.sat || vd0.sat || vq0.sat || sq.sat || m.sat || ad.sat || aq.sat || val.sat
      || vbe.sat || vb.sat || vc.sat || mm.sat || vs.any (fun v => (vz v).sat || (half v).sat) || rr != satS36 rr || (toSig iq.v).sat || (toSig eq.v).sat || (toSig id.v).sat || (toSig vd).sat || (toSig vq).sat
      || (toSig m.v).sat }

/-- L7 (R269): a burst output; node 7 is 1 - 2^-35 while on (see assumption 23, DEDUCED). -/
def lawL7 (i : LawIn) : LawOut :=
  let y := i.inp 0
  let e := i.r - y
  let ke := mulSig (i.co 0) e
  let up := Sat.acc (ke + i.s2 0)
  let u := i.limit up.v
  let b := Sat.acc (i.s2 0 + mulSig (i.co 1) e)
  let ni := clampI (toAcc i.outMin) (toAcc i.outMax) b.v
  let a := i.s1 2 + u.v
  let on := decide (2 ^ 34 ≤ a)
  let a' := if on then a - 2 ^ 35 else a
  { st := states (st2 ni ++ [wdI (satS36 a')]), u := u.v
    nodes := [i.r, y, satS36 e, (toSig ke).v, (toSig ni).v, satS36 a', (toSig up.v).v, if on then s36Max else 0]
    sat := e != satS36 e || up.sat || u.sat || b.sat || (toSig ke).sat || (toSig up.v).sat || a' != satS36 a' }

/-- The law of a code (R246) (see assumption 23, DEDUCED). -/
def law (code : Nat) (i : LawIn) : LawOut :=
  match code with
  | 0 => lawL0 i
  | 1 => lawL1 i
  | 2 => lawL2 i
  | 3 => lawL3 i
  | 4 => lawL4 i
  | 5 => lawL5 i
  | 6 => lawL6 i
  | _ => lawL7 i

end Sys2Proof.Machine
end

