-- ==== Sys2Proof/Machine/Flags.lean ====
section
/-! DEFINITION. Every flag computation of the instruction set (R106, R157 - R161) and the conditions of R110. -/

namespace Sys2Proof.Machine

/-- What an instruction does to the flags: none keeps a flag; the sticky S is only ever set. -/
structure FlagSet where
  z : Option Bool := none
  n : Option Bool := none
  c : Option Bool := none
  v : Option Bool := none
  sat : Bool := false
  deriving DecidableEq, Repr

/-- FL after a flag set: Z 0, N 1, C 2, V 3, S 4 (R106). -/
def FlagSet.apply (f : FlagSet) (fl : Word) : Word :=
  let put (w : Word) (i : Nat) (b : Option Bool) : Word := match b with
    | none => w
    | some x => setBit w i x
  let fl := put (put (put (put fl 0 f.z) 1 f.n) 2 f.c) 3 f.v
  if f.sat then setBit fl 4 true else fl

/-- Apply a flag set to a core. -/
def State.flags (s : State) (k : Nat) (f : FlagSet) : State :=
  let c := s.core k
  s.setCore k { c with fl := f.apply c.fl }

/-- Z and N of a word. -/
def znOf (r : Word) : FlagSet := { z := some (r = 0), n := some (bit r 35) }

/-- Flags of a wrapped addition: C is the carry out, V the signed overflow. -/
def addFlags (a b : Word) : FlagSet :=
  let r := a + b
  { z := some (r = 0), n := some (bit r 35), c := some (2 ^ 36 ≤ a.toNat + b.toNat)
    v := some (s36 a + s36 b != s36 r) }

/-- Flags of a wrapped subtraction: C = 1 means no borrow (R106). -/
def subFlags (a b : Word) : FlagSet :=
  let r := a - b
  { z := some (r = 0), n := some (bit r 35), c := some (b.toNat ≤ a.toNat)
    v := some (s36 a - s36 b != s36 r) }

/-- Flags of a saturating sum or difference with exact value x and carry c: V and S when x lies outside S36 (R157). -/
def satFlags (x : Int) (c : Bool) : FlagSet :=
  let r := wdI (satS36 x)
  { z := some (r = 0), n := some (bit r 35), c := some c, v := some (x != satS36 x), sat := x != satS36 x }

/-- Flag i of FL. -/
def flag (fl : Word) (i : Nat) : Bool := bit fl i

/-- The condition of R110; code 0xF has none. -/
def condHolds (fl : Word) (c : Nat) : Option Bool :=
  let z := flag fl 0
  let n := flag fl 1
  let cy := flag fl 2
  let v := flag fl 3
  let st := flag fl 4
  match c with
  | 0x0 => some true
  | 0x1 => some z
  | 0x2 => some !z
  | 0x3 => some (n != v)
  | 0x4 => some (n == v)
  | 0x5 => some (z || n != v)
  | 0x6 => some (!z && n == v)
  | 0x7 => some !cy
  | 0x8 => some cy
  | 0x9 => some n
  | 0xA => some !n
  | 0xB => some v
  | 0xC => some !v
  | 0xD => some st
  | 0xE => some !st
  | _ => none

end Sys2Proof.Machine
end

