-- ==== Sys2Proof/Machine/CanBits.lean ====
section
/-! DEFINITION. Frames of a fieldbus port as bits, and the sampling of bits from a bus level (R449, R452, R453). Layouts, stuffing and checks
are those of ISO 11898-1, which R449 names (see assumption 21, PRESUMED). -/

namespace Sys2Proof.Machine

/-! ### The bits of a frame (R449); true is recessive -/

/-- The low n bits of a number, the highest first. -/
def bitsHigh (n v : Nat) : List Bool := (List.range n).map (fun i => v / 2 ^ (n - 1 - i) % 2 = 1)

/-- A frame's bits through the arbitration field, before stuffing: SOF, identifier and RTR, with SRR and IDE where extended. -/
def canArbBits (f : CanFrame) : List Bool :=
  false :: bitsHigh 11 (f.id.toNat / 2 ^ 18) ++
    if f.ide then [true, true] ++ bitsHigh 18 (f.id.toNat % 2 ^ 18) ++ [f.rtr] else [f.rtr]

/-- ... through FDF. -/
def canFdfBits (f : CanFrame) : List Bool := (canArbBits f) ++ (if f.ide then [f.fdf] else [false, f.fdf])

/-- ... through BRS, or through the last reserved bit of a classical frame. -/
def canHeadBits (f : CanFrame) : List Bool :=
  (canFdfBits f) ++ if f.fdf then [false, f.brs] else if f.ide then [false] else []

/-- ... through the data. -/
def canPlainBits (f : CanFrame) : List Bool :=
  (canHeadBits f) ++ (if f.fdf then [f.esi] else []) ++ bitsHigh 4 f.dlc.toNat ++ f.data.flatMap (fun b => bitsHigh 8 b.toNat)

/-- Stuffing after `n` equal bits `b`: five of them are followed by the other level, in a classical frame also at the end. -/
def stuffBits (fd b : Bool) (n : Nat) : List Bool → List Bool
  | [] => if n = 5 && !fd then [!b] else []
  | x :: r =>
    if n = 5 then (!b) :: x :: stuffBits fd x (if x = b then 1 else 2) r
    else x :: stuffBits fd x (if x = b then n + 1 else 1) r

/-- The start of a frame as it stands on the bus. -/
def stuffHead (l : List Bool) : List Bool := stuffBits true true 0 l

/-- Fixed stuff bits of an FD frame's CRC field: one before every four bits, the inverse of the bit before it. -/
def fixedStuff (last : Bool) : Nat → List Bool → List Bool
  | _, [] => []
  | 0, x :: r => (!last) :: x :: fixedStuff x 3 r
  | n + 1, x :: r => x :: fixedStuff x n r

/-- A CRC of w bits over a bit string. -/
def canCrc (w poly : Nat) : Nat → List Bool → Nat
  | c, [] => c
  | c, b :: r =>
    let d := c * 2 % 2 ^ w
    canCrc w poly (if (c / 2 ^ (w - 1) % 2 = 1) != b then d ^^^ poly else d) r

/-- The stuff count of an FD frame: the stuff bits modulo 8 in Gray code, and a bit of even parity. -/
def stuffCount (n : Nat) : List Bool :=
  let g := bitsHigh 3 (n % 8 ^^^ n % 8 / 2)
  g ++ [g.foldl (fun a b => a != b) false]

/-- The bits of a frame on the bus from SOF through its CRC. -/
def canBits (f : CanFrame) : List Bool :=
  let l := (canPlainBits f)
  if f.fdf then
    let st := stuffHead l
    let sc := stuffCount (st.length - l.length)
    let crc := if f.data.length ≤ 16 then bitsHigh 17 (canCrc 17 0x1685B 0x10000 (st ++ sc))
      else bitsHigh 21 (canCrc 21 0x102899 0x100000 (st ++ sc))
    st ++ fixedStuff (st.getLast?.getD true) 0 (sc ++ crc)
  else stuffBits false true 0 (l ++ bitsHigh 15 (canCrc 15 0x4599 0 l))

/-- The rest of a good frame up to the last but one bit of its end: CRC delimiter, the acknowledgement, whose level is open, its delimiter,
six bits of end of frame. -/
def canTail : List (Option Bool) := some true :: none :: some true :: List.replicate 6 (some true)

/-- Per bit: does it have data timings before its sample point, and after it? They change at the sample points of BRS and of the CRC
delimiter (R452). -/
def canPhases (f : CanFrame) : List (Bool × Bool) :=
  if f.fdf && f.brs then
    let h := (stuffHead (canHeadBits f)).length
    List.replicate (h - 1) (false, false) ++ [(false, true)] ++ List.replicate ((canBits f).length - h) (true, true) ++ [(true, false)] ++
      List.replicate 8 (false, false)
  else List.replicate ((canBits f).length + 9) (false, false)

/-! ### Timings (R451, R452) -/

/-- A quantum in cell clocks, the quanta before and after the sample point, and the jump width. -/
structure BitTiming where
  tq : Nat
  n1 : Nat
  n2 : Nat
  sjw : Nat

/-- The arbitration timings of word 1. -/
def arbTiming (w : Word) : BitTiming := ⟨fld w 35 28 + 1, 1 + fld w 27 21 + fld w 20 14, fld w 13 7, fld w 6 0⟩
/-- The data timings of word 2. -/
def dataTiming (w : Word) : BitTiming := ⟨fld w 35 31 + 1, 1 + fld w 30 26 + fld w 25 21, fld w 20 16, fld w 15 11⟩

/-- Cell clocks of a bit. -/
def BitTiming.len (b : BitTiming) : Nat := b.tq * (b.n1 + b.n2)

/-- The cell clocks of the starts of bits that a port sends, from a cell clock on. -/
def bitStarts (a d : BitTiming) : Nat → List (Bool × Bool) → List Nat
  | _, [] => []
  | t, (x, y) :: r =>
    let b := if x then d else a
    let c := if y then d else a
    t :: bitStarts a d (t + b.tq * b.n1 + c.tq * c.n2) r

/-! ### Levels on the bus -/

/-- The level in a cell clock of a line given by the lengths of its runs, the first of level l; recessive after them. -/
def levelAt : Bool → List Nat → Nat → Bool
  | _, [], _ => true
  | l, n :: r, t => if t < n then l else levelAt (!l) r (t - n)

/-- The cell clocks in which such a line turns dominant. -/
def fallsOf : Bool → Nat → List Nat → List Nat
  | _, _, [] => []
  | l, t, n :: r => if l then fallsOf false (t + n) r else t :: fallsOf true (t + n) r

/-- The bits that a port samples, with the cell clocks of their sample points, after a hard synchronisation in cell clock 0 (R452). `free`: the last
sample was recessive and no edge has resynchronised since. A later edge outside the synchronisation segment lengthens phase segment 1 or
shortens phase segment 2 by its phase error, at most the jump width. -/
def canSamples (a d : BitTiming) (rx : List Nat) (falls : List Nat) : Nat → Bool → List (Bool × Bool) → List (Nat × Bool)
  | _, _, [] => []
  | t, free, (x, y) :: r =>
    let b := if x then d else a
    let c := if y then d else a
    let late := if free then falls.find? (fun e => t + b.tq ≤ e && decide (e < t + b.tq * b.n1)) else none
    let p := t + b.tq * (b.n1 + (late.map (fun e => min ((e - t) / b.tq) b.sjw)).getD 0)
    let v := levelAt false rx p
    let early := if v then falls.find? (fun e => p ≤ e && decide (e < p + c.tq * c.n2)) else none
    let cut := (early.map (fun e => min (c.n2 - (e - p) / c.tq) c.sjw)).getD 0
    (p, v) :: canSamples a d rx falls (p + c.tq * (c.n2 - cut)) (v && early.isNone) r

/-- A port hears a frame in runs of its RX line from the SOF edge on: the sample points of its last bit, if every bit reads as the frame has it. -/
def canHears (a d : BitTiming) (f : CanFrame) (rx : List Nat) : Option Nat :=
  let got := canSamples a d rx (fallsOf false 0 rx) 0 false (canPhases f)
  let want := (canBits f).map some ++ canTail
  if (got.zip want).all (fun e => e.2 = none || e.2 = some e.1.2) then got.getLast?.map Prod.fst else none

/-! ### The data phase of a sent frame (R453) -/

/-- The delay of the falling edge after FDF from TX to RX, in runs of RX from the SOF on, the first recessive. -/
def txDelay (starts : List Nat) (f : CanFrame) (rx : List Nat) : Option Nat :=
  let t := starts.getD (stuffHead (canFdfBits f)).length 0
  ((fallsOf true 0 rx).find? (fun e => t ≤ e)).map (fun e => e - t)

/-- The LASTERR kind of the first bit error in the data phase of a frame with bit rate switching (R451, R453): with compensation a delay above 127 cc, seen as
dominance that does not arrive, or a data bit that reads otherwise than it was sent at its check. `whole`: the frame ran to its end, so that every bit is
checked; otherwise those are that the runs reach (see assumption 21, PRESUMED). -/
def dataPhaseError (a d : BitTiming) (tdcen : Bool) (tdco : Nat) (f : CanFrame) (rx : List Nat) (whole : Bool) : Option (BitVec 3) :=
  let starts := bitStarts a d 0 (canPhases f)
  let total := rx.sum
  let check (delay : Nat) : Option (BitVec 3) :=
    let l := (canBits f).zip (starts.zip (canPhases f))
    let bad (e : Bool × Nat × Bool × Bool) : Bool :=
      let t := e.2.1 + delay
      e.2.2.1 && e.2.2.2 && (whole || decide (t < total)) && levelAt true rx t != e.1
    (l.find? bad).map (fun e => if e.1 then 4 else 5)
  if tdcen then
    match txDelay starts f rx with
    | some n => if 127 < n then some 5 else check (n + tdco)
    | none => if whole then some 5 else none
  else check (d.tq * d.n1)

end Sys2Proof.Machine
end

