-- ==== Sys2Proof/Machine/Cells.lean ====
section
/-! DEFINITION. The cells of chapters 13 to 15 and what a write of each of their registers does: PWM pairs, trip inputs, step
outputs, chopper phases, converters and analogue inputs, field points, encoders. -/

namespace Sys2Proof.Machine

/-! ### Modes -/

/-- Modes in which cells and lanes run (R271, R410, R433): COMMISSION, RUN, EXCHANGE, SAFESTOP, TEST. -/
def cellsRun (mode : Nat) : Bool := mode = 3 || mode = 4 || mode = 5 || mode = 6 || mode = 11

/-- May the cells drive their outputs: the mode lets them, and no closed output gate holds them in their HALT state (R410, R535,
R545) (see assumption 57, DEDUCED). -/
def State.cellsLive (s : State) : Bool := cellsRun s.mode && !s.peer.gate

/-! ### Forced field points (R236, R238) -/

/-- The forced value of a field point (R236, R238): dir is false for an input. -/
def State.forcedField (s : State) (output : Bool) (i : Nat) : Option Bool :=
  (s.forces.find? (fun a => bit (s.word a) 34 = output && fld (s.word a) 33 32 = 1 && s.word (a + 1) = wd i)).map
    (fun a => bit (s.word (a + 2)) 0)

/-! ### Shadows (R399 - R401) -/

/-- Write a shadow in cell clock cc. -/
def Shadow.write (x : Shadow) (cc v : Nat) (frac : Bool) : Shadow :=
  if x.at_ = cc + 1 then { x with v := v, frac := frac, fresh := true }
  else { v := v, frac := frac, fresh := true, prev := x.v, prevFrac := x.frac, prevFresh := x.fresh, at_ := cc + 1 }

/-- The shadow as a reload in cell clock cc sees it: value, whether a fraction, whether written (R400). -/
def Shadow.seen (x : Shadow) (cc : Nat) : Nat × Bool × Bool :=
  if x.at_ = cc + 1 then (x.prev, x.prevFrac, x.prevFresh) else (x.v, x.frac, x.fresh)

/-- The shadow after a reload in cell clock cc has taken it. -/
def Shadow.taken (x : Shadow) (cc : Nat) : Shadow :=
  if x.at_ = cc + 1 then { x with prevFresh := false } else { x with fresh := false, prevFresh := false }

/-! ### Lane outputs (R250) -/

/-- Offsets of the cell registers that a configured lane writes. -/
def Lane.outs (l : Lane) : List Nat :=
  let w := Tab.get 0 l.desc 12
  let i := fld w 19 0
  if !l.configured then []
  else match fld w 35 32 with
    | 1 => [i]
    | 2 => [offPwm i 3, offPwm (i + 1) 3, offPwm (i + 2) 3]
    | 3 => [offFout i 0]
    | 4 => [offPwm i 3]
    | _ => []

/-- Does the OUTMAP of a configured lane name PWM pair p. -/
def State.lanePair (s : State) (p : Nat) : Bool :=
  s.lanes.any (fun e => e.2.outs.any (fun o => offPwm p 0 ≤ o && o < offPwm (p + 1) 0))

/-! ### PWM pairs (R396 - R406) -/

/-- PWM pair p. -/
def State.pair (s : State) (p : Nat) : Pwm := Tab.get {} s.pwm p

/-- Replace PWM pair p. -/
def State.setPair (s : State) (p : Nat) (x : Pwm) : State := { s with pwm := Tab.put {} s.pwm p x }

/-- EN of a pair. -/
def State.pwmEn (s : State) (p : Nat) : Bool := bit (s.reg (offPwm p 0)) 0
/-- CENTRE. -/
def State.pwmCentre (s : State) (p : Nat) : Bool := bit (s.reg (offPwm p 0)) 2

/-- A period within 16 to 262143 (R397). -/
def clampPer (v : Nat) : Nat := max 16 (min v 262143)

/-- The compare in 1/32 cc that a duty shadow gives under a period (R399). -/
def dutyOf (v : Nat) (frac : Bool) (per : Nat) : Nat :=
  if frac then (rshRound ((v : Int) * per * 32) 35).toNat else v

/-- A reload copies every shadow (R399 - R402) and ends a hold. -/
def State.pwmCopy (s : State) (p : Nat) : State :=
  let x := s.pair p
  let (per, _, _) := x.perSh.seen s.cc
  let (dv, df, _) := x.dutySh.seen s.cc
  let d := dutyOf dv df per
  let sh (k : Nat) : Shadow := Tab.get {} x.cmpSh k
  let s := if per * 32 < d then s.satRfld (offPwm p 11) 35 18 1 else s
  s.setPair p { x with
    per := per, duty := d, held := 0
    cmp := (List.range 4).foldl (fun t k => Tab.put 0 t k ((sh k).seen s.cc).1) x.cmp
    perSh := x.perSh.taken s.cc, dutySh := x.dutySh.taken s.cc
    cmpSh := (List.range 4).foldl (fun t k => Tab.put {} t k ((sh k).taken s.cc)) x.cmpSh }

/-- May pair p leave high impedance: every trip input whose MASK names it is cleared, the cell clock has not been lost, and the
J2 logic supply stands (R408, R409) (see assumption 28, DEDUCED). -/
def State.mayDrive (s : State) (p : Nat) : Bool :=
  !s.modes.clockLost && !s.modes.vioLow && (List.range 8).all (fun i => !(bit (s.reg (offTrip i 1)) p) || !(bit (s.reg (offTrip i 2)) 34))

/-- A reload event of pair p in this cell clock (R399, R403, R408): held, or a reload; the reload at the moment of EN is not held.
The pair may leave high impedance (see assumption 28, DEDUCED). -/
def State.pwmEvent (s : State) (p : Nat) : State :=
  let x := s.pair p
  let both := (x.perSh.seen s.cc).2.2 && (x.dutySh.seen s.cc).2.2
  let guard := bit (s.reg (offPwm p 0)) 5 && !s.lanePair p && !both && !x.first
  let s :=
    if guard && x.held < 4 then s.setPair p { x with held := x.held + 1 }
    else if guard then (s.satRfld (offPwm p 11) 17 0 1).pwmCopy p
    else s.pwmCopy p
  let x := s.pair p
  s.setPair p { x with reloadAt := s.cc + 1, driven := x.driven || s.mayDrive p }

/-- Is this cell clock a reload event of the enabled pair p (R398, R399). -/
def State.pwmDue (s : State) (p : Nat) : Bool :=
  let x := s.pair p
  let c := s.pwmCentre p
  s.pwmEn p && x.start = 0 && x.reloadAt != s.cc + 1 &&
    (x.first || (match s.rfld (offPwm p 0) 4 3 with
      | 0 => x.cnt = 0
      | 1 => if c then x.cnt = x.per else x.cnt = 0
      | 2 => x.cnt = 0 || (c && x.cnt = x.per)
      | _ => false))

/-- The count of pair p in the next cell clock without a synchronising pair: does it start anew, count, direction. -/
def State.pwmCount (s : State) (p : Nat) : Bool × Nat × Bool :=
  let x := s.pair p
  if !s.pwmEn p then (false, x.cnt, x.down)
  else if x.start != 0 then (true, 0, false)
  else if !s.pwmCentre p then (if x.per ≤ x.cnt + 1 then (true, 0, false) else (false, x.cnt + 1, false))
  else if x.down then (if x.cnt ≤ 1 then (true, 0, false) else (false, x.cnt - 1, true))
  else if x.per ≤ x.cnt then (false, x.cnt - 1, true)
  else (false, x.cnt + 1, false)

/-- Does the count of pair p start at 0 in the next cell clock, by itself or by the pair that it names (R405)
(see assumption 28, DEDUCED). -/
def State.pwmRestarts (s : State) : Nat → Nat → Bool
  | 0, _ => false
  | fuel + 1, p =>
    (s.pwmCount p).1 || (s.pwmEn p && bit (s.reg (offPwm p 0)) 16 &&
      (let q := s.rfld (offPwm p 0) 21 17
       q < 24 && q != p && s.pwmRestarts fuel q))

/-- H of pair p without dead time, f/32 cc after its place in this cell clock (R398): on while the position of the count is below
the compare, a centre-aligned pulse lying alike on both sides of the middle of count 0: a compare of D + k/32 ends it k/32 cc into count D and
begins it as long before the end of count D on the way down (see assumption 28, DEDUCED). -/
def State.pwmIdeal (s : State) (p f : Nat) : Bool :=
  let x := s.pair p
  let falls := x.down || (s.pwmCentre p && decide (x.per ≤ x.cnt))
  s.pwmEn p && x.start = 0 &&
    (decide (32 * x.per ≤ x.duty) || (if falls then decide (32 * (x.cnt + 1) ≤ x.duty + f) else decide (32 * x.cnt + f < x.duty)))

/-- The levels of H without dead time in this cell clock, by 1/32 cc. -/
def State.pwmLevels (s : State) (p : Nat) : List Bool :=
  if s.pwmEn p then (List.range 32).map (s.pwmIdeal p) else []

/-- When H changed last, in 1/32 cc, as it stands f/32 cc after the start of cell clock cc with these levels; it came into it at level `on`,
last changed at `turn`. -/
def turnIn (levels : List Bool) (on : Bool) (turn cc f : Nat) : Nat :=
  let lv (g : Nat) : Bool := levels.getD g false
  match (List.range (f + 1)).reverse.find? (fun g => lv g != (if g = 0 then on else lv (g - 1))) with
  | some g => 32 * cc + g
  | none => turn

/-- An output of pair p, H or L, f/32 cc after the start of this cell clock (R398, R404, R409): none in high impedance; each rises DT cc
late. Every edge carries the pair's fine delay, so that the first of it shows the end of the cell clock before
(see assumption 28, DEDUCED). -/
def State.pwmOut (s : State) (p : Nat) (high : Bool) (f : Nat) : Option Bool :=
  let x := s.pair p
  let dt := 32 * s.rfld (offPwm p 0) 15 6
  let at_ (lv : List Bool) (on : Bool) (turn cc g : Nat) : Bool :=
    lv.getD g false = high && decide (turnIn lv on turn cc g + dt ≤ 32 * cc + g)
  if !x.driven then none
  else if x.fine ≤ f then some (at_ (s.pwmLevels p) x.hOn x.turn s.cc (f - x.fine))
  else some (at_ x.levels x.hOld x.turnOld (s.cc - 1) (min 31 (32 + f - x.fineOld)))

/-- The levels of H in the cell clock that ends, before a reload at its end (R398). -/
def State.pwmEdges (s : State) : State :=
  (List.range 24).foldl (fun t p =>
    let x := s.pair p
    let lv := s.pwmLevels p
    t.setPair p { x with
      levels := lv, hOld := x.hOn, turnOld := x.turn, fineOld := x.fine
      hOn := lv.getD 31 false, turn := if s.pwmEn p || x.hOn then turnIn lv x.hOn x.turn s.cc 31 else x.turn }) s

/-- One cell clock of every pair (R398, R405) (see assumption 28, DEDUCED). -/
def State.pwmTick (s : State) : State :=
  (List.range 24).foldl (fun t p =>
    let x := s.pair p
    let r := s.pwmRestarts 24 p
    let (_, n, d) := s.pwmCount p
    t.setPair p { x with
      cnt := if r then 0 else n, down := if r then false else d
      first := s.pwmEn p && x.start = 1, start := if s.pwmEn p then 0 else x.start
      driven := x.driven && s.pwmEn p }) s

/-- Write a register of pair p (R397, R398, R402) (see assumption 28, DEDUCED). -/
def State.pwmStore (s : State) (p w : Nat) (v : Word) : State :=
  let x := s.pair p
  match w with
  | 0 =>
    let en := bit v 0 && s.cellsLive
    let was := s.pwmEn p
    let s := s.setReg (offPwm p 0) (setBit (v &&& 0x3FFFFD) 0 en)
    if en && !was then s.setPair p { x with start := 1 } else if !en then s.setPair p { x with start := 0 } else s
  | 1 => s.setPair p { x with perSh := x.perSh.write s.cc (clampPer v.toNat) false }
  | 2 => s.setPair p { x with dutySh := x.dutySh.write s.cc (fld v 22 0) false }
  | 3 => s.setPair p { x with dutySh := x.dutySh.write s.cc (fld v 34 0) true }
  | 4 => s.setReg (offPwm p 4) (wd (clampPer v.toNat))
  | 5 => s.setPair p { x with
      dutySh := x.dutySh.write s.cc (fld v 22 0) false
      perSh := x.perSh.write s.cc (s.reg (offPwm p 4)).toNat false }
  | _ =>
    if 6 ≤ w ∧ w < 10 then
      (s.setReg (offPwm p w) (v &&& 0xC00000000)).setPair p { x with
        cmpSh := Tab.put {} x.cmpSh (w - 6) ((Tab.get {} x.cmpSh (w - 6)).write s.cc (fld v 17 0) false) }
    else s

/-- What a register of pair p reads (R397). -/
def State.pwmWord (s : State) (p w : Nat) : Word :=
  let x := s.pair p
  match w with
  | 1 => wd x.perSh.v
  | 2 => wd x.duty
  | 3 => 0
  | 5 => 0
  | 10 => wd (at_ (b2n x.down) 35 + x.cnt)
  | 12 => wd (at_ (b2n (!x.driven)) 35 + at_ (b2n (x.held != 0)) 34 + at_ (b2n x.perSh.fresh) 33
      + at_ (b2n x.dutySh.fresh) 32)
  | _ =>
    if 6 ≤ w ∧ w < 10 then s.reg (offPwm p w) ||| wd (Tab.get {} x.cmpSh (w - 6)).v
    else s.reg (offPwm p w)

/-! ### Trip inputs (R407 - R409) -/

/-- Is trip input i blanked in this cell clock (R408). -/
def State.tripBlanked (s : State) (i : Nat) : Bool :=
  let w := s.reg (offTrip i 0)
  let p := fld w 32 28
  let x := s.pair p
  bit w 33 && p < 24 && decide (Tab.get 0 x.cmp 2 ≤ x.cnt) && decide (x.cnt ≤ Tab.get 0 x.cmp 3)

/-- Pairs of a mask go to high impedance. -/
def State.hiZ (s : State) (p : Nat → Bool) : State :=
  (List.range 24).foldl (fun s i => if p i then s.setPair i { s.pair i with driven := false } else s) s

/-- Trip input i. -/
def State.tripIn (s : State) (i : Nat) : TripIn := Tab.get {} s.trips i

/-- Is the pin of trip input i active, by POL (R407). -/
def State.tripActive (s : State) (i : Nat) : Bool :=
  match (s.tripIn i).pin with
  | some v => v != bit (s.reg (offTrip i 0)) 34
  | none => false

/-- The filter of trip input i counts this cell clock, once; the filtered input that becomes active trips (R408). -/
def State.tripClock (s : State) (i : Nat) : State :=
  let x := s.tripIn i
  if x.at_ = s.cc + 1 then s
  else
    let n := if s.tripActive i && !s.tripBlanked i then x.count + 1 else 0
    let was := bit (s.reg (offTrip i 2)) 35
    let act := decide (s.rfld (offTrip i 0) 27 17 < n)
    let s := { s with trips := Tab.put {} s.trips i { x with count := n, at_ := s.cc + 1 } }
    let s := s.setRfld (offTrip i 2) 35 35 (b2n act)
    if act && !was && bit (s.reg (offTrip i 0)) 35 then
      let s := s.hiZ (fun p => bit (s.reg (offTrip i 1)) p)
      let s := (s.setRfld (offTrip i 2) 34 34 1).satRfld (offTrip i 2) 17 0 1
      s.cellEvent 1 (offTrip i 0) (s.reg (offTrip i 2))
    else s

/-- Write a register of trip input i (R407, R408). -/
def State.tripStore (s : State) (i w : Nat) (v : Word) : State :=
  match w with
  | 0 => s.setReg (offTrip i 0) (v &&& 0xFFFFE0000)
  | 1 => s.setReg (offTrip i 1) (v &&& 0xFFFFFF)
  | 2 => if bit v 34 && !bit (s.reg (offTrip i 2)) 35 then s.setRfld (offTrip i 2) 34 34 0 else s
  | _ => s

/-! ### Chopper phases (R413 - R417) -/

/-- Chopper phase f. -/
def State.chop (s : State) (f : Nat) : Chop := Tab.get {} s.chops f

/-- Replace chopper phase f. -/
def State.setChop (s : State) (f : Nat) (x : Chop) : State := { s with chops := Tab.put {} s.chops f x }

/-- TARGET of a phase as S0.11. -/
def State.chopTarget (s : State) (f : Nat) : Int := sextN (s.reg (offChop f 1)).toNat 12

/-- Lower (false) and upper (true) threshold of a phase in 2^-12 (R415). -/
def State.chopLevel (s : State) (f : Nat) (upper : Bool) : Int :=
  let t : Int := 2 * (s.chopTarget f).natAbs
  let h : Int := s.rfld (offChop f 2) 11 0
  let o : Int := 2 * sextN (s.reg (offChop f 3)).toNat 12
  -- twice the threshold is exact; the current falls to or reaches it
  clampI 0 (2 * 4095) (2 * t + (if upper then h else -h) - 2 * o)

/-- May the phase drive its bridge: EN, and no on-time fault stands (R415, R417). -/
def State.chopRuns (s : State) (f : Nat) : Bool :=
  bit (s.reg (offChop f 0)) 35 && !bit (s.reg (offChop f 5)) 34 && !(s.chop f).locked

/-- The bridge switches on in a direction: SWITCHES counts it (R415). -/
def State.chopOn (s : State) (f : Nat) : State :=
  (s.satRfld (offChop f 5) 17 0 1).setChop f { s.chop f with
    on := true, positive := decide (0 ≤ s.chopTarget f), onAt := s.cc, hadOn := true }

/-- An on-interval ends, with its largest current: PEAK; an off-interval begins. How long its first quarter is, for MIXED decay, is a free
value, since its length is not known (R413, R415) (see assumption 29, DEDUCED). -/
def State.chopDecay (s : State) (f peak : Nat) : State :=
  let (w, s) := if s.rfld (offChop f 0) 34 33 = 2 then s.drawWord else (0, s)
  (s.setRfld (offChop f 4) 23 12 peak).setChop f { s.chop f with on := false, offAt := s.cc, fastFor := w.toNat }

/-- An off-interval ends, with its smallest current: VALLEY; OFFS learns where the interval followed an on-interval, under the target in
force in it (R413, R416) (see assumption 29, DEDUCED). -/
def State.chopLearn (s : State) (f valley : Nat) (target : Int) : State :=
  let s := s.setRfld (offChop f 4) 11 0 valley
  let w := s.reg (offChop f 0)
  if bit w 32 && (s.chop f).hadOn then
    let pk : Int := s.rfld (offChop f 4) 23 12
    let e : Int := pk + valley - 4 * target.natAbs
    let o := sextN (s.reg (offChop f 3)).toNat 12 + divRound e (4 * 2 ^ fld w 31 28)
    s.setReg (offChop f 3) (wd ((clampI (-2048) 2047 o % 4096).toNat))
  else s

/-- The sense sampler's extreme of an interval that no comparator ended: a free value (R413) (see assumption 29, DEDUCED). -/
def State.drawSense (s : State) : Nat × State :=
  let (w, s) := s.drawWord
  (w.toNat % 4096, s)

/-- An on-interval that something else than the upper threshold ends. -/
def State.chopStop (s : State) (f : Nat) : State :=
  if !(s.chop f).on then s
  else
    let (c, s) := s.drawSense
    s.chopDecay f c

/-- Store a TARGET: a change of sign ends the interval and switches the bridge on at once, 0 keeps it in decay (R415)
(see assumption 29, DEDUCED). -/
def State.chopSetTarget (s : State) (f : Nat) (v : Nat) : State :=
  let old := s.chopTarget f
  let s := s.setReg (offChop f 1) (wd (v % 4096))
  let t := s.chopTarget f
  if t = 0 then s.chopStop f
  else if s.chopRuns f && old != 0 && decide ((old < 0) ≠ (t < 0)) then
    if (s.chop f).on then
      let (c, s) := s.drawSense
      (s.setRfld (offChop f 4) 23 12 c).chopOn f
    else
      let (c, s) := s.drawSense
      (s.chopLearn f c old).chopOn f
  else s

/-- Write a register of phase f (R413, R414, R417). -/
def State.chopStore (s : State) (f w : Nat) (v : Word) : State :=
  match w with
  | 0 =>
    if fld v 34 33 = 3 then s
    else
      let en := bit v 35 && s.cellsLive
      let v := setBit v 35 en
      let v := if fld v 31 28 = 0 then setFld v 31 28 1 else v
      let s := s.setReg (offChop f 0) v
      let x := s.chop f
      if !en then (s.chopStop f).setChop f { (s.chopStop f).chop f with hadOn := false }
      else if bit (s.reg (offChop f 5)) 34 then s
      else s.setChop f { x with locked := false }
  | 1 => if bit (s.reg (offChopper (f / 2))) 35 then s else s.chopSetTarget f v.toNat
  | 2 => s.setReg (offChop f 2) (v &&& 0xFFF)
  | 3 => s.setReg (offChop f 3) (v &&& 0xFFF)
  | 5 => if bit v 34 then s.setRfld (offChop f 5) 34 34 0 else s
  | _ => s

/-- What a register of phase f reads. -/
def State.chopWord (s : State) (f w : Nat) : Word :=
  if w = 5 then setBit (s.reg (offChop f 5)) 35 (s.chop f).on else s.reg (offChop f w)

/-- IRUN times the cosine of phi, phi = pi/2 * pos / 2^mlog, less a quarter turn for the sine, as S0.11 (R414)
(see assumption 29, DEDUCED). -/
def microTarget (irun : Nat) (pos : Int) (mlog : Nat) (sine : Bool) : Int :=
  let full : Int := 2 ^ (mlog + 2)
  let n := ((pos - (if sine then 2 ^ mlog else 0)) % full).toNat
  clampI (-2048) 2047 (rshRound (irun * cosTurn60 n (mlog + 2)) 61)

/-- POS of step generator g has changed: channels that follow it write their targets (R414). -/
def State.stepFollow (s : State) (g : Nat) : State :=
  (List.range 8).foldl (fun s c =>
    let w := s.reg (offChopper c)
    if bit w 35 && fld w 34 31 = g then
      let pos := s36 (s.reg (offStep g 2))
      let t (sine : Bool) : Nat := ((microTarget (fld w 11 0) pos (fld w 30 27) sine) % 4096).toNat
      (s.chopSetTarget (2 * c) (t false)).chopSetTarget (2 * c + 1) (t true)
    else s) s

/-- Write CHOP.c (R414). -/
def State.chopperStore (s : State) (c : Nat) (v : Word) : State :=
  let v := v &&& 0xFF8000FFF
  s.setReg (offChopper c) (if 8 < fld v 30 27 then setFld v 30 27 8 else v)

/-! ### Step generators and outputs (R304 - R307, R411) -/

/-- Change POS, with the channels that follow it. -/
def State.setPos (s : State) (g : Nat) (v : Word) : State :=
  let old := s.reg (offStep g 2)
  let s := s.setReg (offStep g 2) v
  if old = v then s else s.stepFollow g

/-- RUN is cleared (R307): a withdrawn step moves POS back, and the channels that follow it
(see assumption 27, DEDUCED). -/
def State.stepHalt (s : State) (g : Nat) : State :=
  let t := s.stepStop g
  if t.reg (offStep g 2) = s.reg (offStep g 2) then t else t.stepFollow g

/-- Write a register of step generator g (R304, R307). -/
def State.stepStore (s : State) (g w : Nat) (v : Word) : State :=
  match w with
  | 0 =>
    let run := bit v 0 && s.cellsLive
    let was := bit (s.reg (offStep g 0)) 0
    let dirsu := max 4 (min (fld v 9 2) 40)
    let s := s.setReg (offStep g 0) (wd (at_ dirsu 2 + at_ (b2n (bit v 1)) 1 + b2n (run || was)))
    if !run && (was || (s.stepGen g).goAt.isSome) then s.stepHalt g else s
  | 1 => s.setReg (offStep g 1) v
  | 2 => if bit (s.reg (offStep g 0)) 0 then s else ((s.setPos g v).setReg (offStep g 3) 0x80000000)
  | _ => s

/-- Write STEPOUT.g (R411). -/
def State.stepOutStore (s : State) (g : Nat) (v : Word) : State :=
  s.setReg (offStepOut g) (wd (at_ (fld v 7 6) 6 + max 4 (min (fld v 5 0) 40)))

/-- One cell clock of every step generator: the accumulator adds VEL (R305); whole counts wait for their STEP_CARRY
(see assumption 27, DEDUCED). -/
def State.stepsTick (s : State) : State :=
  (List.range 16).foldl (fun s g =>
    let x := s.stepGen g
    -- a STEPGO sets RUN for the additions from F + 2, where the mode lets step outputs run (R307, R410)
    let s := match x.goAt with
      | some c =>
        if s.cc < c then s
        else
          let s := s.setStep g { x with goAt := none }
          if s.cellsLive then s.setRfld (offStep g 0) 0 0 1 else s
      | none => s
    if !bit (s.reg (offStep g 0)) 0 then s
    else
      let vel := s36 (s.reg (offStep g 1))
      let x := s.stepGen g
      let a : Int := (s.reg (offStep g 3)).toNat + clampI (-velLimit) velLimit vel
      let s := if vel < -velLimit ∨ velLimit < vel then s.satRfld (offStep g 4) 35 18 1 else s
      (s.setReg (offStep g 3) (wdI (a % 2 ^ 32))).setStep g { x with carry := x.carry + a / 2 ^ 32 }) s

/-! ### Analogue conversion (R418 - R433) -/

/-- Converter k. -/
def State.conv (s : State) (k : Nat) : Conv := Tab.get {} s.convs k

/-- Replace converter k. -/
def State.setConv (s : State) (k : Nat) (x : Conv) : State := { s with convs := Tab.put {} s.convs k x }

/-- Analogue input n. -/
def State.ain (s : State) (n : Nat) : Ain := Tab.get {} s.ains n

/-- Replace analogue input n. -/
def State.setAin (s : State) (n : Nat) (x : Ain) : State := { s with ains := Tab.put {} s.ains n x }

/-- Empty the partial interval of input n (R428, R432, R433). -/
def State.dropInterval (s : State) (n : Nat) : State :=
  (s.setAin n { s.ain n with sum := 0, n := 0, ovr := false }).setRfld (offAin n 4) 29 18 0

/-- Write a register of converter k (R419, R424). -/
def State.convStore (s : State) (k w : Nat) (v : Word) : State :=
  let x := s.conv k
  match w with
  | 0 =>
    if 95 < fld v 27 21 ∨ 95 < fld v 20 14 ∨ 16 < fld v 13 9 then s
    else
      let ten := bit (s.reg (offConv k 0)) 34
      let en := bit v 35 && !bit (s.reg offAdcCal) k && !bit (s.reg offAdcCal) 34
      let s := s.setReg (offConv k 0) (setBit (v &&& 0xFFFFFFE00) 35 en)
      s.setConv k { x with qptr := 0, tenAt := if bit v 34 && !ten then s.cc else x.tenAt }
  | 1 => s.setReg (offConv k 1) (v &&& 0xF)
  | 2 => s.setReg (offConv k 2) (v &&& 0xFFFF)
  | 3 => s.setReg (offConv k 3) (wd (max 160 (min v.toNat 16777215)))
  | 4 =>
    let s := if x.qentAt = s.cc + 1 then s
      else s.setConv k { x with qentPrev := s.reg (offConv k 4), qentAt := s.cc + 1 }
    s.setReg (offConv k 4) (v &&& 0xFFFFFFFF)
  | _ => s

/-- What a register of converter k reads. -/
def State.convWord (s : State) (k w : Nat) : Word :=
  let x := s.conv k
  if w = 5 then
    wd (at_ (b2n x.busy.isSome) 35 + at_ (b2n x.scan.isSome) 34 + at_ (b2n x.select.isSome) 33 + at_ x.line.length 29
      + at_ (x.qptr % 16) 25)
  else s.reg (offConv k w)

/-- Write a register of analogue input n (R420, R428, R429) (see assumption 30, DEDUCED). -/
def State.ainStore (s : State) (n w : Nat) (v : Word) : State :=
  match w with
  | 0 =>
    let old := s.reg (offAin n 0)
    let v := v &&& 0xFF00007FF
    let v := if 12 < fld v 33 30 then setFld v 33 30 12 else v
    let s := s.setReg (offAin n 0) v
    let s := if bit v 29 && !bit old 29 then s.setRfld (offAin n 4) 33 32 0 else s
    if fld old 35 30 = fld v 35 30 then s
    else
      let s := s.dropInterval n
      let x := s.ain n
      let range := fld old 35 34 != fld v 35 34
      let s := s.setAin n { x with epoch := x.epoch + 1, changedAt := s.cc + 1, skipAt := if range then s.cc + 1 else x.skipAt }
      if range then s.setRfld (offAin n 4) 35 35 0 else s
  | 1 => s.setReg (offAin n 1) v
  | 2 => s.setReg (offAin n 2) v
  | _ => s

/-- The converter empties its delay line, slots and intervals (R432, R433). -/
def State.convEmpty (s : State) (k : Nat) : State :=
  let s := s.setConv k { s.conv k with
    coming := [], line := [], scan := none, select := none, busy := none, rest := [], results := [] }
  (List.range 4).foldl (fun s i => s.dropInterval (4 * k + i)) s

/-- A calibration begins (R432): EN is held at 0, everything is emptied, VALID, RES and NACC are cleared. -/
def State.calBegin (s : State) : State :=
  let s := (List.range 16).foldl (fun s k => (s.convEmpty k).setRfld (offConv k 0) 35 35 0) s
  let s := (List.range 64).foldl (fun s n =>
    let s := (s.setReg (offAin n 3) 0).setRfld (offAin n 4) 35 35 0
    s.setRfld (offAin n 4) 33 32 0) s
  { s.setRfld offAdcCal 34 34 1 with calAt := some s.cc }

/-! ### Field points (R434 - R445) -/

/-- LINK of FIELD.STAT. -/
def State.link (s : State) : Bool := bit (s.reg offFieldStat) 35
/-- SUPPLY of FIELD.STAT. -/
def State.supply (s : State) : Nat := s.rfld offFieldStat 34 33

/-- VALID of a field input (R438). -/
def State.finValid (s : State) (i : Nat) : Bool :=
  s.link && s.supply != 2 && !s.field.queue.any (fun e => e.1 = i)

/-- Write word 0 of field input i (R436, R438) (see assumption 31, DEDUCED). -/
def State.finStore (s : State) (i w : Nat) (v : Word) : State :=
  if w != 0 then s
  else
    let v := v &&& 0xFFFFE07FF
    let v := if 10000 < fld v 30 17 then setFld v 30 17 10000 else v
    if s.reg (offFin i 0) = v then s
    else { s.setReg (offFin i 0) v with field := { s.field with queue := s.field.queue ++ [(i, v)] } }

/-- What a register of field input i reads (R438). -/
def State.finWord (s : State) (i w : Nat) : Word :=
  if w = 1 then setBit (s.reg (offFin i 1)) 34 (s.finValid i) else s.reg (offFin i w)

/-- Write word 0 of field output o: VALUE, held at 0 in the modes of R410's second row (R442, R443). -/
def State.foutStore (s : State) (o w : Nat) (v : Word) : State :=
  if w != 0 then s
  else
    let f := s.field
    let f := if Tab.get 0 f.orderAt o = s.cc + 1 then f
      else { f with before := Tab.put false f.before o (bit (s.reg (offFout o 0)) 35), orderAt := Tab.put 0 f.orderAt o (s.cc + 1) }
    State.setReg { s with field := f } (offFout o 0) (setBit 0 35 (bit v 35 && s.cellsLive))

/-- What a register of field output o reads (R442). -/
def State.foutWord (s : State) (o w : Nat) : Word :=
  if w = 1 then setBit (s.reg (offFout o 1)) 32 (s.forcedField true o).isSome else s.reg (offFout o w)

/-- VALUE of output o as a packet that starts in this cell clock finds it: orders of this cell clock wait (R435). -/
def State.fieldValue (s : State) (o : Nat) : Bool :=
  if Tab.get 0 s.field.orderAt o = s.cc + 1 then Tab.get false s.field.before o else bit (s.reg (offFout o 0)) 35

/-- The command that a packet carries for output o (R443) (see assumption 31, DEDUCED). -/
def State.fieldCommand (s : State) (o : Nat) : Bool :=
  if !s.link || s.supply = 2 || !s.cellsLive then false
  else (Tab.get none s.field.forced o).getD (s.fieldValue o)

/-- The forced field outputs of this moment. -/
def State.forcedOuts (s : State) : Tab (Option Bool) :=
  if s.forces.isEmpty then [] else (List.range 16).foldl (fun t o => Tab.put none t o (s.forcedField true o)) []

/-! ### Encoders (R446 - R448) -/

/-- Encoder e beyond its registers. -/
def State.enc (s : State) (e : Nat) : Encoder := Tab.get {} s.encs e

/-- Replace encoder e. -/
def State.setEnc (s : State) (e : Nat) (x : Encoder) : State := { s with encs := Tab.put {} s.encs e x }

/-- Write a register of encoder e (R446). -/
def State.encStore (s : State) (e w : Nat) (v : Word) : State :=
  match w with
  | 0 => if fld v 34 33 = 3 then s else s.setReg (offEnc e 0) (v &&& 0xFC0000000)
  | 1 => if bit (s.reg (offEnc e 0)) 35 then s else s.setReg (offEnc e 1) (v &&& 0xFFFFFFFF)
  | 5 => if bit v 34 then s.setRfld (offEnc e 5) 34 34 0 else s
  | _ => s

/-- One cell clock of every encoder: counts sampled 2 cc ago reach COUNT (R447). -/
def State.encsTick (s : State) : State :=
  s.encs.foldl (fun s x =>
    let due := x.2.coming.filter (fun c => c.1 ≤ s.cc)
    if due.isEmpty then s
    else
      let d : Int := (due.map Prod.snd).sum
      (s.setReg (offEnc x.1 1) (wdI (((s.reg (offEnc x.1 1)).toNat + d) % 2 ^ 32))).setEnc x.1
        { x.2 with coming := x.2.coming.filter (fun c => s.cc < c.1) }) s

end Sys2Proof.Machine
end

