-- ==== Sys2Proof/Machine/History.lean ====
section
/-! DEFINITION. The signal history (R468 - R478): the signal table, credits, open segments and their closing, the ring in DRAM,
and what new values tell the capture units. Stamps are whole nanoseconds of device time. -/

namespace Sys2Proof.Machine

/-- Nanoseconds of a device time. -/
def nsOf (t : Nat) : Nat := t / tNs

/-- The T72 of a number of nanoseconds. -/
def t72ns (n : Nat) : DWord := Machine.t72 (n * tNs)

/-- First word of the signal table. -/
def sigBase : Nat := 0x2740000

/-- A word of the table entry of signal n. -/
def State.sigWord (s : State) (n w : Nat) : Word := s.word (sigBase + 2 * n + w)

/-- The history unit reads the table entry of signal n: whether it is poisoned, and the state after the read (R64). -/
def State.sigReads (s : State) (n : Nat) : Bool × State := s.meets (sigBase + 2 * n) 2

/-- Is signal n declared. -/
def State.declared (s : State) (n : Nat) : Bool := bit (s.sigWord n 0) 35

/-- Is signal n recorded in TIMED segments: by its TIMED bit, and always for FEDGE and MARK (R469). -/
def sigTimed (w0 : Word) : Bool := bit w0 31 || fld w0 34 32 = 5 || fld w0 34 32 = 7

/-- Declared signals, in rising order. -/
def State.signals (s : State) : List Nat :=
  (s.mem.words.filter (fun e => sigBase ≤ e.1 && e.1 < sigBase + 0x8000 && e.1 % 2 = 0 && bit e.2 35)).map
    (fun e => (e.1 - sigBase) / 2)

/-- Declared signals of a kind and source. -/
def State.signalsOf (s : State) (kind src : Nat) : List Nat :=
  s.signals.filter (fun n => fld (s.sigWord n 0) 34 32 = kind && fld (s.sigWord n 0) 19 0 = src)

/-- What the unit keeps of signal n. -/
def State.signal (s : State) (n : Nat) : Signal := Tab.get {} s.hist.signals n

/-- Replace what the unit keeps of signal n. -/
def State.setSignal (s : State) (n : Nat) (x : Signal) : State :=
  { s with hist := { s.hist with signals := Tab.put {} s.hist.signals n x } }

/-- RUN of HIST.STAT: entries are recorded (R477). -/
def State.recording (s : State) : Bool := bit (s.reg (offHist 5)) 35

/-! ### Segments (R473 - R475) -/

/-- Lines that n words take. -/
def linesOf (n : Nat) : Nat := (n + 7) / 8

/-- Put a closed segment in its place: by cell clock of closing, then by signal number (R472). -/
def insertSeg (x : ClosedSeg) : List ClosedSeg → List ClosedSeg
  | [] => [x]
  | y :: r => if x.cc < y.cc ∨ (x.cc = y.cc ∧ x.signal < y.signal) then x :: y :: r else y :: insertSeg x r

/-- Line 0 and payload of a segment of signal n (R473, R474). -/
def Signal.segment (x : Signal) (n fmt count t0 tlast : Nat) (forced : Bool) (period : Word) (pay : List Word) : List Word :=
  let lines := linesOf pay.length
  [wd (at_ fmt 32 + at_ (b2n forced) 31 + at_ lines 24 + at_ count 17 + n), wd x.sseq, dlo (t72ns t0), dhi (t72ns t0),
    dlo (t72ns tlast), dhi (t72ns tlast), period, wd (at_ x.overcnt 18 + x.dropcnt)]
    ++ pay ++ List.replicate (8 * lines - pay.length) 0

/-- A segment of a signal has been written down: SSEQ goes on, and OVERCNT and DROPCNT begin anew (R473). -/
def Signal.closed (x : Signal) : Signal := { x with sseq := (x.sseq + 1) % 2 ^ 36, overcnt := 0, dropcnt := 0 }

/-- Close a segment of signal n with these header fields and payload (R473). -/
def State.putSegment (s : State) (n fmt count t0 tlast : Nat) (forced : Bool) (period : Word) (pay : List Word)
    (entryWords : Nat) (src : Option OpenSeg) : State :=
  let x := s.signal n
  let seg : ClosedSeg := {
    cc := s.cc, signal := n, words := x.segment n fmt count t0 tlast forced period pay, entryWords := entryWords, src := src }
  let s := { s with hist := { s.hist with closed := insertSeg seg s.hist.closed } }
  s.setSignal n { x.closed with seg := none }

/-- The words of a segment of entries (R473, R474). -/
def Signal.entries (x : Signal) (n : Nat) (g : OpenSeg) : List Word :=
  x.segment n (if g.timed then 2 else 1) g.count g.t0 g.tlast g.forced (wd (if g.timed then 0 else g.period)) g.words

/-- The open segment of signal n closes (R475) (see assumption 33, DEDUCED). -/
def State.closeSeg (s : State) (n : Nat) : State :=
  match (s.signal n).seg with
  | none => s
  | some g =>
    s.putSegment n (if g.timed then 2 else 1) g.count g.t0 g.tlast g.forced (wd (if g.timed then 0 else g.period)) g.words
      g.words.length (some g)

/-! ### An entry whose staging word the code cannot correct (R475) -/

/-- Words of one entry of a segment. -/
def OpenSeg.each (g : OpenSeg) : Nat := g.words.length / max g.count 1

/-- The segment of the first i entries. -/
def OpenSeg.before (g : OpenSeg) (i : Nat) : OpenSeg :=
  { g with
    count := i, words := g.words.take (i * g.each), stamps := g.stamps.take i, tlast := g.stamps.getD (i - 1) g.t0
    period := if i = 1 then 0 else g.period }

/-- The segment of the entries after entry i: its first entry gives T0 and C0, and time words count from there. -/
def OpenSeg.after (g : OpenSeg) (i : Nat) : OpenSeg :=
  let t0 := g.stamps.getD (i + 1) g.tlast
  let ws := g.words.drop ((i + 1) * g.each)
  let n := g.count - (i + 1)
  { g with
    c0 := g.c0 + (i + 1) * g.period, t0 := t0, count := n, stamps := g.stamps.drop (i + 1), period := if n = 1 then 0 else g.period
    words := if g.timed then (List.range ws.length).map (fun j =>
      if j % g.each = 0 then wd (g.stamps.getD (i + 1 + j / g.each) t0 - t0) else ws.getD j 0) else ws }

/-- A closed segment of signal n whose entry i is bad (R475): the entry is dropped under 0x02, the segment closes before it, and the
entries after it are a segment of their own, written next (see assumption 33, DEDUCED). -/
def State.cutSegment (s : State) (c : ClosedSeg) (g : OpenSeg) (i : Nat) : List ClosedSeg × State :=
  let k := g.each
  let s := s.drop strHist 2 k
  let head : List ClosedSeg :=
    if i = 0 then []
    else
      let b := g.before i
      [{ c with words := Signal.entries { sseq := (c.words.getD 1 0).toNat, overcnt := fld (c.words.getD 7 0) 35 18
                                          dropcnt := fld (c.words.getD 7 0) 17 0 } c.signal b
                entryWords := b.words.length, src := some b, bad := [] }]
  let x := s.signal c.signal
  let x := { x with dropcnt := satAdd x.dropcnt 1 18 }
  let a := g.after i
  if a.count = 0 then (head, s.setSignal c.signal x)
  else (head ++ [{ c with words := x.entries c.signal a, entryWords := a.words.length, src := some a
                          bad := (c.bad.filter (fun j => i < j)).map (fun j => j - (i + 1)) }], s.setSignal c.signal x.closed)

/-- Every open segment closes, in rising order of signals: FORCE.STAT.ACTIVE changes (R475). -/
def State.closeAll (s : State) : State :=
  ((s.hist.signals.filter (fun e => e.2.seg.isSome)).map Prod.fst).foldl State.closeSeg s

/-- An entry of signal n is refused for want of credit (R471). -/
def State.refuseEntry (s : State) (n : Nat) : State :=
  let x := s.signal n
  let s := s.setSignal n { x with overcnt := satAdd x.overcnt 1 18 }
  (s.setRfld (offHist 5) 34 34 1).setRfld (offHist 5) 13 0 n

/-- Must the open segment close before an entry of k words in cell clock cc (R475). -/
def OpenSeg.ends (g : OpenSeg) (cc k : Nat) : Bool :=
  decide (120 < g.words.length + k) ||
    (!g.timed && (if g.count = 1 then decide (cc ≤ g.c0) || decide (2 ^ 36 ≤ cc - g.c0) else cc != g.c0 + g.count * g.period))

/-- Signal n takes an entry of cell clock cc with a stamp and its value words (R469, R471, R474); none while its table entry is poisoned
(see assumption 33, DEDUCED). -/
def State.histEntry (s : State) (n cc stamp : Nat) (vals : List Word) : State :=
  if !s.recording || !s.declared n then s
  else
    let (bad, s) := s.sigReads n
    if bad then s
    else
      let timed := sigTimed (s.sigWord n 0)
      let k := vals.length + b2n timed
      let s := match (s.signal n).seg with
        | some g => if g.ends cc k then s.closeSeg n else s
        | none => s
      let x := s.signal n
      let g : OpenSeg := x.seg.getD { timed := timed, forced := s.forceActive, c0 := cc, t0 := stamp, tlast := stamp, born := s.elapsed }
      let charge := (if x.seg.isSome then 0 else 8) + 8 * (linesOf (g.words.length + k) - linesOf g.words.length)
      if x.credit < charge then s.refuseEntry n
      else
        let ws := (if timed then [wd (stamp - g.t0)] else []) ++ vals
        let g := { g with
          tlast := stamp, period := if g.count = 1 ∧ !timed then cc - g.c0 else g.period
          count := g.count + 1, words := g.words ++ ws, stamps := g.stamps ++ [stamp] }
        (s.setSignal n { x with credit := x.credit - charge, seg := some g }).produce strHist k

/-- RECMARK (R474): the open segment closes and a MARKER segment is written, if the credit allows it. -/
def State.histMark (s : State) (n : Nat) (v : Word) : State :=
  let (bad, s) := s.sigReads n
  if !s.recording || bad then s
  else
    let s := s.closeSeg n
    let x := s.signal n
    if x.credit < 8 then s.refuseEntry n
    else
      let s := s.setSignal n { x with credit := x.credit - 8 }
      (s.produce strHist 1).putSegment n 3 0 (nsOf s.now) (nsOf s.now) s.forceActive v [] 1 none

/-- A census instant sets every credit to WPMS (R471), where the table entry can be read (see assumption 33, DEDUCED). -/
def State.histCredits (s : State) : State :=
  s.signals.foldl (fun s n =>
    let (bad, s) := s.sigReads n
    if bad then s else s.setSignal n { s.signal n with credit := fld (s.sigWord n 1) 35 16 }) s

/-- Pair 0 reads the whole signal table (R66, R470). -/
def State.readSignals (s : State) : Bool × State := s.meets sigBase 0x8000

/-! ### The signal table (R468 - R470) -/

/-- Does a cell register have a field that a read clears. -/
def cellRc (o : Nat) : Bool :=
  if 0x100 ≤ o ∧ o < 0x200 then o % 8 = 7
  else if 0x3000 ≤ o ∧ o < 0x3180 then o % 16 = 11
  else if 0x3200 ≤ o ∧ o < 0x3220 then o % 4 = 2
  else if 0x3400 ≤ o ∧ o < 0x3480 then o % 8 = 5
  else if 0x4000 ≤ o ∧ o < 0x4080 then o % 8 = 4
  else if 0x5000 ≤ o ∧ o < 0x5100 then o % 16 = 6
  else if 0x6000 ≤ o ∧ o < 0x6100 then o % 8 = 1
  else if 0x6100 ≤ o ∧ o < 0x6140 then o % 4 = 1
  else if 0x6400 ≤ o ∧ o < 0x6480 then o % 8 = 5
  else if 0x7000 ≤ o ∧ o < 0x7200 then o % 32 = 2 || o % 32 = 3
  else if 0xA000 ≤ o ∧ o < 0xC000 then o % 4 = 2
  else if 0xC000 ≤ o ∧ o < 0xE000 then o % 0x800 = 4 || o % 0x800 = 5 || o % 0x800 = 11
  else false

/-- Does a SRC field name a source of its kind, its unused bits zero (R468). -/
def srcOk (kind src : Nat) : Bool :=
  match kind with
  | 1 => decide (src < 64)
  | 2 => decide (src < 8192)
  | 3 => decide (src < 32)
  | 4 => isCell src && !cellRc src
  | 5 => decide (src < 32)
  | 6 => decide (src < 2 ^ 17) && fldN src 15 10 = 0
  | 7 => src = 0
  | _ => false

/-- Does a table entry satisfy R468 and R470. -/
def sigOk (w0 w1 : Word) : Bool :=
  let k := fld w0 34 32
  fld w0 30 20 = 0 && (!bit w0 35 ||
    (srcOk k (fld w0 19 0) && fld w1 35 16 != 0 && ((k = 3 || k = 4) = (fld w1 15 0 != 0))))

/-- Write entries of the signal table, or none where the change is refused with RANGE (R470)
(see assumption 33, DEDUCED). -/
def State.setSignals (s : State) (es : List (Nat × Word × Word)) : Option State :=
  let es := es.filter (fun e => s.sigWord e.1 0 != e.2.1 || s.sigWord e.1 1 != e.2.2)
  let t := es.foldl (fun s e =>
    let s := (s.closeSeg e.1).agentWrite (sigBase + 2 * e.1) [e.2.1, e.2.2]
    s.setSignal e.1 { credit := (s.signal e.1).credit, declared := s.cc }) s
  let sum := (t.signals.map (fun n => fld (t.sigWord n 1) 35 16)).sum
  if es.all (fun e => decide (e.1 < 16384) && sigOk e.2.1 e.2.2) && decide (sum ≤ 256000) then
    some (t.setReg (offHist 6) (wd (at_ sum 18 + t.signals.length)))
  else none

/-! ### The ring (R472, R476, R477) -/

/-- LEN of the ring in words. -/
def State.histLen (s : State) : Nat := s.rfld (offHist 0) 35 32 * 2 ^ 30

/-- First word of the ring. -/
def State.histBase (s : State) : Nat := Config.dramEnd - s.histLen

/-- The oldest resident segment leaves the ring; its words. -/
def State.histPop (s : State) : Nat × State :=
  match s.hist.resident with
  | [] => (0, s)
  | n :: r =>
    let rd := (s.reg (offHist 2)).toNat + n
    let rd := if s.histLen ≤ rd then rd - s.histLen else rd
    let s := (s.setReg (offHist 2) (wd (if r = [] then (s.reg (offHist 1)).toNat else rd))).setReg (offHist 3)
      (wd ((s.reg (offHist 3)).toNat - n))
    (n, { s with hist := { s.hist with resident := r } })

/-- Overwrite oldest segments until n words are free (R476) (see assumption 33, DEDUCED). -/
def State.histRoom (n : Nat) : Nat → State → State
  | 0, s => s
  | fuel + 1, s =>
    if n + (s.reg (offHist 3)).toNat ≤ s.histLen then s
    else
      let (k, s) := s.histPop
      State.histRoom n fuel ((s.drop strHistHost 1 k).setRfld (offHist 5) 33 33 1)

/-- Take n segments (R476): RD advances, at most to WR. -/
def State.histTake : Nat → State → State
  | 0, s => s
  | n + 1, s =>
    match s.hist.resident with
    | [] => s
    | _ :: _ => let (k, s) := s.histPop; State.histTake n (s.deliver strHistHost k)

/-- The skip at the ring's end counts as words of the segment before it (R472) (see assumption 33, DEDUCED). -/
def State.histSkip (s : State) (k : Nat) : State :=
  match s.hist.resident.getLast? with
  | none => (s.setReg (offHist 1) 0).setReg (offHist 2) 0
  | some n =>
    let s := { s with hist := { s.hist with resident := s.hist.resident.dropLast ++ [n + k] } }
    (((s.setReg (offHist 1) 0).setReg (offHist 3) (wd ((s.reg (offHist 3)).toNat + k))).produce strHistHost k)

/-- Every resident word of both history streams is dropped under a reason (R477); RD takes the value of WR. -/
def State.histDrop (s : State) (reason : Nat) (staging : Bool) : State :=
  let n := (s.reg (offHist 3)).toNat
  let s := (s.drop strHistHost reason n).setReg (offHist 3) 0
  let s := s.setReg (offHist 2) (s.reg (offHist 1))
  let s := { s with hist := { s.hist with resident := [] } }
  if staging then
    let s := s.drop strHist reason (s.stream strHist).resident
    let s := s.setRfld (offHist 5) 35 35 0
    { s with hist := { s.hist with closed := [], signals := s.hist.signals.map (fun e => (e.1, { e.2 with seg := none })) } }
  else s

/-! ### What values and edges tell the capture units (R481, R482) -/

/-- Capture unit u. -/
def State.cap (s : State) (u : Nat) : Capture := Tab.get {} s.caps u

/-- Replace capture unit u. -/
def State.setCap (s : State) (u : Nat) (x : Capture) : State := { s with caps := Tab.put {} s.caps u x }

/-- Word i of an arming descriptor (R480). -/
def Capture.w (x : Capture) (i : Nat) : Word := x.desc.getD i 0
/-- TKIND. -/
def Capture.tkind (x : Capture) : Nat := fld (x.w 0) 31 28
/-- NATIVE. -/
def Capture.native (x : Capture) : Bool := bit (x.w 1) 35

/-- A trigger of capture unit u (R482, R484): ignored in IDLE, else it waits for its CAPTURE_TRIGGER. Times in 2^-16 ns:
the trigger's, and the one that its trigger sample must reach (R483). -/
def State.captureAt (s : State) (u kind time target : Nat) : State :=
  let x := s.cap u
  if x.st = 0 then s
  else s.setCap u { x with triggers := x.triggers ++ [{ kind := kind, time := time, target := target, cc := s.cc }] }

/-- A trigger whose sample is the first not earlier than its time (R483). -/
def State.captureHit (s : State) (u kind time : Nat) : State := s.captureAt u kind time time

/-- A new value of an ADC input or a lane node: signals take it, and units paced by it have a new value (R469, R481). -/
def State.newValue (s : State) (kind src cc stamp : Nat) (v : Word) (sigs : List Nat) : State :=
  let s := sigs.foldl (fun s n => s.histEntry n cc stamp [v]) s
  (List.range 16).foldl (fun s u =>
    let x := s.cap u
    if x.st != 0 && x.native && fld (x.w 2) 35 32 = kind && fld (x.w 2) 19 0 = src then
      s.setCap u { x with fresh := some stamp }
    else s) s

/-- A recorded edge of a field input: FEDGE signals and EDGE triggers (R469, R482). -/
def State.newEdge (s : State) (i : Nat) (rise : Bool) (cc stamp : Nat) : State :=
  let s := (s.signalsOf 5 i).foldl (fun s n => s.histEntry n cc stamp [wd (b2n rise)]) s
  (List.range 16).foldl (fun s u =>
    let x := s.cap u
    let d := fld (x.w 0) 27 26
    if x.tkind = 3 && fld (x.w 2) 19 0 = i && (d = 3 || d = (if rise then 1 else 2)) then s.captureHit u 3 (stamp * 2 ^ 16) else s) s

/-- A trigger broadcast met on the band (R488): its id and its time in 2^-16 ns. -/
def State.bandTrigger (s : State) (id time : Nat) : State :=
  (List.range 16).foldl (fun s u =>
    let x := s.cap u
    if x.tkind = 6 && fld (x.w 6) 7 0 = id then s.captureHit u 6 time else s) s

end Sys2Proof.Machine
end

