-- ==== Sys2Proof/Machine/CellEvents.lean ====
section
/-! DEFINITION. The events of the cells of chapters 13 to 15. An event whose own condition the state does not meet changes
nothing (DESIGN CHOICE, assumption 2). -/

namespace Sys2Proof.Machine

/-! ### PWM, trips, steps (R396 - R412) -/

/-- TRIP (R408): the pin of the input has the level `run` from this cell clock on, until it is told another; the clock is counted by its filter,
as every later one is (see assumption 28, DEDUCED). -/
def execTrip (i : Fin 8) (run : Bool) (s : State) : Host.Outcome State Fault Refusal :=
  let x := s.tripIn i.val
  .next (State.tripClock { s with trips := Tab.put {} s.trips i.val { x with pin := some run } } i.val)

/-- PWM_RELOAD (R399, R403, R405) (see assumption 28, DEDUCED). -/
def execPwmReload (p : Fin 24) (s : State) : Host.Outcome State Fault Refusal :=
  .next (if s.pwmDue p.val then s.pwmEvent p.val else s)

/-- A start of a converter on its way: it arrives 2 cc after its event (R421). -/
def State.startTo (s : State) (k : Nat) (select : Bool) (at_ : Nat) : State :=
  let x := s.conv k
  s.setConv k { x with coming := x.coming ++ [(at_, select)] }

/-- Does compare k of pair p emit its trigger in this cell clock (R406). -/
def State.triggerDue (s : State) (p k : Nat) : Bool :=
  let x := s.pair p
  let w := s.reg (offPwm p (6 + k))
  s.pwmEn p && x.start = 0 && bit w 34 && x.cnt = Tab.get 0 x.cmp k && x.cnt ≤ x.per && x.down = bit w 35
    && Tab.get 0 x.trigAt k != s.cc + 1

/-- CONVERTER_TRIGGER (R406, R421): every converter that names the trigger gets a start. -/
def execConverterTrigger (n : Fin 96) (s : State) : Host.Outcome State Fault Refusal :=
  let p := n.val / 4
  let k := n.val % 4
  .next (if s.triggerDue p k then
    let x := s.pair p
    let s := s.setPair p { x with trigAt := Tab.put 0 x.trigAt k (s.cc + 1) }
    (List.range 16).foldl (fun s c =>
      let w := s.reg (offConv c 0)
      let s := if bit w 32 && fld w 27 21 = n.val then s.startTo c (bit w 31) (s.cc + 2) else s
      if bit w 30 && fld w 20 14 = n.val then s.startTo c (bit w 29) (s.cc + 2) else s) s
  else s)

/-- STEP_CARRY (R305, R306): one whole count carried by the accumulator becomes a step, or cancels the step before it
(see assumption 27, DEDUCED). -/
def execStepCarry (g : Fin 16) (s : State) : Host.Outcome State Fault Refusal :=
  let g := g.val
  let x := s.stepGen g
  .next (if x.carry = 0 then s
  else
    let up := decide (0 < x.carry)
    let d : Int := if up then 1 else -1
    let move (x : StepGen) : State := (s.setPos g (wdI (s36 (s.reg (offStep g 2)) + d))).setStep g { x with carry := x.carry - d }
    match x.pend with
    | none => move { x with pend := some (up, s.cc + s.rfld (offStep g 0) 9 2), dirOut := up }
    | some (was, _) =>
      if was = up then s
      else (move { x with pend := none, dirOut := x.lastDir }).satRfld (offStep g 4) 17 0 1)

/-- STEP_PULSE_START (R305, R411, R412) (see assumption 27, DEDUCED). -/
def execStepPulseStart (g : Fin 16) (s : State) : Host.Outcome State Fault Refusal :=
  let g := g.val
  let x := s.stepGen g
  .next (match x.pend with
  | none => s
  | some (up, t) =>
    if s.cc < t then s
    else
      let s := s.setStep g { x with pend := none, lastDir := up, pulseEnd := some (s.cc + s.rfld (offStepOut g) 5 0) }
      if bit (s.reg (offStepOut g)) 7 then { s with outbox := s.outbox ++ [.stepPulse g (up != bit (s.reg (offStep g 0)) 1) (!bit (s.reg (offStepOut g)) 6)] } else s)

/-- CELL_CLOCK_LOSS (R409): every pair goes to high impedance and stays there (see assumption 28, DEDUCED). -/
def execCellClockLoss (s : State) : Host.Outcome State Fault Refusal :=
  .next (State.hiZ { s with modes := { s.modes with clockLost := true } } (fun _ => true))

/-! ### Chopper phases (R415 - R417) -/

/-- CHOPPER_SWITCH_ON (R415, R416): the current, in 1/4096 of full scale, has fallen to the lower threshold. It is the
smallest current of the off-interval that ends here (see assumption 29, DEDUCED). -/
def execChopperSwitchOn (f : Fin 16) (current : BitVec 12) (s : State) : Host.Outcome State Fault Refusal :=
  let f := f.val
  let x := s.chop f
  .next (if s.chopRuns f && !x.on && s.chopTarget f != 0 && decide ((2 * current.toNat : Int) ≤ s.chopLevel f false) then
    let s := s.chopLearn f current.toNat (s.chopTarget f)
    s.chopOn f
  else s)

/-- CHOPPER_DECAY (R415): the current has reached the upper threshold after BLANK. It is the largest of the on-interval
(see assumption 29, DEDUCED). -/
def execChopperDecay (f : Fin 16) (current : BitVec 12) (s : State) : Host.Outcome State Fault Refusal :=
  let f := f.val
  let x := s.chop f
  .next (if s.chopRuns f && x.on && decide (x.onAt + s.rfld (offChop f 0) 27 18 ≤ s.cc)
      && decide (s.chopLevel f true ≤ 2 * current.toNat) then
    s.chopDecay f current.toNat
  else s)

/-- TONMAX_EXPIRY (R417) (see assumption 29, DEDUCED). -/
def execTonmaxExpiry (f : Fin 16) (s : State) : Host.Outcome State Fault Refusal :=
  let f := f.val
  let x := s.chop f
  let m := s.rfld (offChop f 0) 17 0
  .next (if x.on && m != 0 && decide (x.onAt + m < s.cc) then
    let s := (s.setRfld (offChop f 5) 34 34 1).chopStop f
    let s := s.setChop f { s.chop f with locked := true }
    s.cellEvent 2 (offChop f 0) (s.chopWord f 5)
  else s)

/-! ### Analogue conversion (R421 - R432) -/

/-- ADC_TIMER (R421): every TPER cc from the cell clock in which TEN was set. -/
def execAdcTimer (k : Fin 16) (s : State) : Host.Outcome State Fault Refusal :=
  let k := k.val
  let x := s.conv k
  let w := s.reg (offConv k 0)
  .next (if bit w 34 && decide (x.tenAt < s.cc) && (s.cc - x.tenAt) % s.rfld (offConv k 3) 23 0 = 0 && x.timerAt != s.cc + 1 then
    (s.setConv k { x with timerAt := s.cc + 1 }).startTo k (bit w 33) (s.cc + 2)
  else s)

/-- A lost start is counted in LOST. -/
def State.lost (s : State) (k : Nat) : State := s.satRfld (offConv k 6) 35 18 1

/-- A conversion of selector sel begins: its input is sampled in this cell clock (R425, R428)
(see assumption 30, DEDUCED). -/
def State.sample (s : State) (k sel : Nat) (rest : List Nat) : State :=
  let n := 4 * k + sel
  let a := s.ain n
  let old := a.changedAt = s.cc + 1
  let skip := a.skipAt != 0 && decide (a.skipAt ≤ s.cc)
  let smp : Sample := { s := s.cc, time := s.now, sel := sel, epoch := if old then a.epoch - 1 else a.epoch, skip := skip }
  let s := if skip then s.setAin n { a with skipAt := 0 } else s
  let x := s.conv k
  (s.setConv k { x with busy := some s.cc, rest := rest, results := x.results ++ [smp] }).incReg (offConv k 7) 1

/-- Is the converter free with nothing pending. -/
def Conv.idle (x : Conv) : Bool := x.busy.isNone && x.scan.isNone && x.select.isNone

/-- A SELECT start begins (R424). -/
def State.beginSelect (s : State) (k : Nat) : State :=
  let x := s.conv k
  let len := s.rfld (offConv k 0) 13 9
  if len = 0 then s.lost k
  else
    let q := if x.qentAt = s.cc + 1 then x.qentPrev else s.reg (offConv k 4)
    (s.setConv k { x with qptr := (x.qptr + 1) % len }).sample k (fld q (2 * x.qptr + 1) (2 * x.qptr)) []

/-- A SCAN start begins (R423). -/
def State.beginScan (s : State) (k : Nat) : State :=
  match (List.range 4).filter (fun i => bit (s.reg (offConv k 1)) i) with
  | [] => s.lost k
  | a :: r => s.sample k a r

/-- A start leaves the delay line: it begins, waits in its slot, or is lost (R422). -/
def State.leaveLine (s : State) (k : Nat) (select : Bool) : State :=
  let x := s.conv k
  if x.idle then (if select then s.beginSelect k else s.beginScan k)
  else if select then
    (if x.select.isSome then s.lost k else s.setConv k { x with select := some s.cc })
  else if x.scan.isSome then s.lost k else s.setConv k { x with scan := some s.cc }

/-- Do converters accept starts (R421, R432, R433). -/
def State.convOn (s : State) (k : Nat) : Bool :=
  bit (s.reg (offConv k 0)) 35 && cellsRun s.mode && !bit (s.reg offAdcCal) 34

/-- START_ARRIVAL (R421, R422): the starts that have arrived enter the delay line, one for each mode
(see assumption 30, DEDUCED). -/
def execStartArrival (k : Fin 16) (s : State) : Host.Outcome State Fault Refusal :=
  let k := k.val
  let x := s.conv k
  let due := x.coming.filter (fun e => e.1 ≤ s.cc)
  let s := s.setConv k { x with coming := x.coming.filter (fun e => s.cc < e.1) }
  let enter (s : State) (select : Bool) : State :=
    if !due.any (fun e => e.2 = select) then s
    else
      let x := s.conv k
      if 8 ≤ x.line.length then s.lost k
      else s.setConv k { x with line := x.line ++ [(s.cc + s.rfld (offConv k 2) 15 0, select)] }
  .next (if s.convOn k then enter (enter s true) false else s)

/-- DELAY_LINE_EXIT (R422): SELECT before SCAN. -/
def execDelayLineExit (k : Fin 16) (s : State) : Host.Outcome State Fault Refusal :=
  let k := k.val
  let x := s.conv k
  let out := x.line.filter (fun e => e.1 ≤ s.cc)
  let s := s.setConv k { x with line := x.line.filter (fun e => s.cc < e.1) }
  let leave (select : Bool) (s : State) : State :=
    (out.filter (fun e => e.2 = select)).foldl (fun s _ => s.leaveLine k select) s
  .next (leave false (leave true s))

/-- A start that has waited in a slot begins; WAITMAX records its wait. -/
def State.waited (s : State) (k since : Nat) : State :=
  s.setRfld (offConv k 6) 17 0 (max (s.rfld (offConv k 6) 17 0) (min (s.cc - since) (2 ^ 18 - 1)))

/-- The free converter takes the pending SELECT start, then the pending SCAN start (R422). -/
def State.takePending (s : State) (k : Nat) : State :=
  let s := match (s.conv k).select with
    | some t => ((s.setConv k { s.conv k with select := none }).waited k t).beginSelect k
    | none => s
  if (s.conv k).busy.isSome then s
  else match (s.conv k).scan with
    | some t => ((s.setConv k { s.conv k with scan := none }).waited k t).beginScan k
    | none => s

/-- CONVERTER_FREE (R425): 160 cc after the sample. -/
def execConverterFree (k : Fin 16) (s : State) : Host.Outcome State Fault Refusal :=
  let k := k.val
  let x := s.conv k
  .next (match x.busy with
  | none => s
  | some t =>
    if s.cc < t + 160 then s
    else
      let s := s.setConv k { x with busy := none, rest := [] }
      match x.rest with
      | a :: r => s.sample k a r
      | [] => s.takePending k)

/-- The corrected sample of a raw code, and whether it saturated (R426). -/
def corrected (range : Nat) (raw : BitVec 20) (offset : Int) (gain : Nat) : Int × Bool :=
  let scaled : Int := if range = 3 then raw.toNat * 8 else raw.toInt * 16
  let v := rshRound (gain * (scaled - offset)) 32
  let r := clampI (if range = 3 then 0 else -(2 ^ 23)) (2 ^ 23 - 1) v
  (r, r != v)

/-- The window comparison of a new result of input n (R429). -/
def State.window (s : State) (n : Nat) : State :=
  let w := s.reg (offAin n 0)
  let r := s36 (s.reg (offAin n 3))
  let st := if s36 (s.reg (offAin n 1)) < r then 1 else if r < s36 (s.reg (offAin n 2)) then 2 else 0
  let was := s.rfld (offAin n 4) 33 32
  if !bit w 29 then s
  else
    let s := s.setRfld (offAin n 4) 33 32 st
    if was = st || !bit (s.reg (offAin n 4)) 35 || (st = 0 && !bit w 28) then s
    else
      let kind := if st = 0 then 3 else st
      s.postField (fld w 10 0) (wd (at_ kind 32 + n)) (fun s => s.cellEvent 4 (offAin n 0) (s.reg (offAin n 4)))

/-- RESULT_WRITE (R425 - R429): 168 cc after the sample the raw code is corrected and fulled; an interval's end writes RES
(see assumption 30, DEDUCED). -/
def execResultWrite (k : Fin 16) (raw : BitVec 20) (s : State) : Host.Outcome State Fault Refusal :=
  let k := k.val
  let x := s.conv k
  .next (match x.results with
  | [] => s
  | smp :: r =>
    if s.cc < smp.s + 168 then s
    else
      let s := s.setConv k { x with results := r }
      let n := 4 * k + smp.sel
      let a := s.ain n
      if smp.skip || smp.epoch != a.epoch then s
      else
        let w := s.reg (offAin n 0)
        let range := fld w 35 34
        let full := fld w 33 30
        let (v, o) := corrected range raw (s36 (s.reg (offCalFac n range 0))) (s.rfld (offCalFac n range 1) 33 0)
        let a := { a with sum := a.sum + v, n := a.n + 1, ovr := a.ovr || o }
        if a.n < 2 ^ full then (s.setAin n a).setRfld (offAin n 4) 29 18 a.n
        else
          let s := s.setAin n { a with sum := 0, n := 0, ovr := false }
          let t := t72 smp.time
          let valid := bit (s.reg offAdcCal) 33 && !bit (s.reg offAdcCal) k
          let w4 := at_ (b2n valid) 35 + at_ (b2n a.ovr) 34 + at_ (s.rfld (offAin n 4) 33 32) 32
            + (s.rfld (offAin n 4) 17 0 + 1) % 2 ^ 18
          let s := (s.setReg (offAin n 3) (wdI (a.sum * 2 ^ (12 - full)))).setReg (offAin n 4) (wd w4)
          let s := (s.setReg (offAin n 5) (dlo t)).setReg (offAin n 6) (dhi t)
          let s := if valid then s.setAin n { s.ain n with good := s.reg (offAin n 3) } else s
          let s := if valid then s.newValue 1 n smp.s (nsOf smp.time) (s.reg (offAin n 3)) (s.signalsOf 1 n) else s
          s.window n)

/-- CALIBRATION_DONE (R430 - R432): 38 ms after its beginning; the measured offset and gain of input i / 4 in range i % 4
(see assumption 30, DEDUCED). -/
def execCalibrationDone (measured : List (Int × Nat)) (s : State) : Host.Outcome State Fault Refusal :=
  .next (match s.calAt with
  | none => s
  | some t =>
    if s.cc < t + 15200000 then s
    else
      let f (i : Nat) : Int × Nat := measured.getD i (0, 2 ^ 32)
      let bad (i : Nat) : Bool :=
        decide ((f i).2 * 100 < 95 * 2 ^ 32) || decide (105 * 2 ^ 32 < (f i).2 * 100) || decide (2 ^ 23 < (f i).1.natAbs * 200)
      let failed (k : Nat) : Bool := (List.range 16).any (fun i => bad (16 * k + i))
      let s := (List.range 256).foldl (fun s i =>
        let v := if failed (i / 16) then ((0 : Int), 2 ^ 32) else f i
        (s.setReg (offCalFac (i / 4) (i % 4) 0) (wdI v.1)).setReg (offCalFac (i / 4) (i % 4) 1) (wd v.2)) s
      let mask := ((List.range 16).map (fun k => b2n (failed k) * 2 ^ k)).sum
      let s := { s.setReg offAdcCal (wd (at_ 1 33 + mask)) with calAt := none }
      (List.range 16).foldl (fun s k => if failed k then s.cellEvent 3 offAdcCal (s.reg offAdcCal) else s) s)

/-! ### The barrier link (R434 - R445) -/

/-- Device time of a past cell clock, by the increments of the time since. -/
def State.timeAt (s : State) (c : Nat) : Nat :=
  if s.cc ≤ c then s.now
  else match s.clocks.find? (fun e => e.1 ≤ c) with
  | some (c0, t, i) => t + (c - c0) * i
  | none => s.now - (s.cc - c) * (s.reg offTimeInc).toNat

/-- The CRC-8 of an outbound packet over OUT, CFGADR and CFGVAL (R77, R434); without a waiting write the last two are 0
(see assumption 31, DEDUCED). -/
def outCrc (out : Nat) (cfg : Option (Nat × Word)) : Nat :=
  let (a, v) := cfg.getD (0, 0)
  crc8 60 (at_ (out % 2 ^ 16) 44 + at_ (a % 256) 36 + v.toNat)

/-- Does a packet start in this cell clock: one every 288 cc in each direction (R434). -/
def State.packetStart (s : State) : Bool :=
  s.field.outAt = 0 || (decide (s.field.outAt + 287 ≤ s.cc) && (s.cc + 1 - s.field.outAt) % 288 = 0)

/-- BARRIER_PACKET_OUT (R434 - R436): every 288 cc the output commands and the configuration write at the head of the queue
(see assumption 31, DEDUCED). -/
def execBarrierPacketOut (s : State) : Host.Outcome State Fault Refusal :=
  .next (if !s.packetStart then s
  else
    let cmd := (List.range 16).map (fun o => s.fieldCommand o)
    let out := ((List.range 16).map (fun o => b2n (cmd.getD o false) * 2 ^ o)).sum
    let f := s.field
    let s := { s with
      field := { f with
        outAt := s.cc + 1, sentAt := if f.sentAt = 0 && !f.queue.isEmpty then s.cc + 1 else f.sentAt
        air := f.air ++ [(s.cc, out, f.queue.head?)], sent := f.sent ++ [s.cc] }
      outbox := s.outbox ++ [Msg.barrier out f.queue.head? (outCrc out f.queue.head?)] }
    let s := s.produce strBarOut 1
    (List.range 16).foldl (fun s o => s.setRfld (offFout o 1) 35 35 (b2n (cmd.getD o false))) s)

/-- SUPPLY after a measurement in mV (R445). -/
def supplyNext (st mv : Nat) : Nat :=
  if mv < 10000 then 2
  else match st with
    | 0 => if mv < 18000 then 1 else 0
    | 1 => if 19000 < mv then 0 else 1
    | _ => if 19000 < mv then 0 else if 11000 < mv then 1 else 2

/-- The record of a fault kind that the event recorder saw (R498). -/
def State.fellOut (s : State) (k : Nat) : State := { s with evr := { s.evr with causes := s.evr.causes ++ [k] } }

/-- SUPPLY takes the state that a packet's LOW and MISSING give (R445). -/
def State.supplyStep (s : State) (n : Nat) : State :=
  if n = s.supply then s
  else
    let s := s.setRfld offFieldStat 34 33 n
    let s := s.cellEvent 8 offFieldStat (s.reg offFieldStat)
    if n = 2 then s.fellOut snapSupply else s

/-- An edge record of the field side reaches the device (R440, R441). -/
def State.fieldEdge (s : State) (e : FieldEdge) : State :=
  let t := Machine.t72 (s.timeAt (8 * e.tick))
  let w := if e.rise then 2 else 4
  let s := (s.setReg (offFin e.num w) (dlo t)).setReg (offFin e.num (w + 1)) (dhi t)
  let s := s.setRfld (offFin e.num 1) 33 18 (s.rfld (offFin e.num 1) 33 18 + 1)
  let s := s.newEdge e.num e.rise (8 * e.tick) (nsOf (s.timeAt (8 * e.tick)))
  let c := s.reg (offFin e.num 0)
  if bit c 31 then
    s.postField (fld c 10 0) (wd (at_ (if e.rise then 1 else 2) 32 + e.num))
      (fun s => s.cellEvent 6 (offFin e.num 0) (s.finWord e.num 1))
  else s

/-- What an inbound packet carries (R434): IN, LOW and MISSING as SUPPLY, EOVF, RXOK and EDGE. -/
structure InFields where
  levels : Tab Bool
  supply : Nat
  eovf : Bool
  rxok : Bool
  edge : Option FieldEdge

/-- What the field side puts into its packet. -/
def State.inSent (s : State) (p : InPacket) : InFields :=
  { levels := s.field.levels, supply := supplyNext s.field.supply p.supplyMv, eovf := s.field.eovfLeft != 0, rxok := s.field.rxok
    edge := s.field.edges.head? }

/-- The 60 bits between SYNC and CRC, the first sent highest; input 31 is the first of IN (R434) (see assumption 31, DEDUCED). -/
def InFields.bits (x : InFields) : Nat :=
  let e := match x.edge with
    | some e => at_ 1 23 + at_ (e.num % 32) 18 + at_ (b2n e.rise) 17 + e.tick % 2 ^ 17
    | none => 0
  at_ ((List.range 32).map (fun i => b2n (Tab.get false x.levels i) * 2 ^ i)).sum 28
    + at_ (b2n (x.supply = 1)) 27 + at_ (b2n (x.supply = 2)) 26 + at_ (b2n x.eovf) 25 + at_ (b2n x.rxok) 24 + e

/-- What 60 received bits carry: an edge lies at the latest tick, FILT before now or earlier, whose low 17 bits are TICK (R440). -/
def State.inRead (s : State) (v : Nat) : InFields :=
  let num := v / 2 ^ 18 % 32
  let last : Int := s.cc / 8 - s.rfld (offFin num 0) 30 17 * 50
  let tick := (last - (last - (v % 2 ^ 17 : Nat)) % 2 ^ 17).toNat
  { levels := (List.range 32).map (fun i => (i, v / 2 ^ (28 + i) % 2 = 1))
    supply := if v / 2 ^ 26 % 2 = 1 then 2 else v / 2 ^ 27 % 2
    eovf := v / 2 ^ 25 % 2 = 1, rxok := v / 2 ^ 24 % 2 = 1
    edge := if v / 2 ^ 23 % 2 = 1 then some { num := num, rise := v / 2 ^ 17 % 2 = 1, tick := tick } else none }

/-- A packet as it arrives: the fields, or none where it fails its CRC-8 (R77, R437). -/
def State.inArrives (s : State) (p : InPacket) : Option InFields :=
  let x := s.inSent p
  let v := (at_ x.bits 8 + crc8 60 x.bits) ^^^ p.noise.toNat
  if crc8 60 (v / 256) = v % 256 then some (s.inRead (v / 256)) else none

/-- The cell clock in which an inbound packet that arrives now started: both directions start their packets together (R434). -/
def State.inStart (s : State) : Nat :=
  if s.field.outAt = 0 then s.cc - 288 else s.cc - 288 - (s.cc + 1 - s.field.outAt) % 288

/-- The field side has an outbound packet good: it applies the write and the commands; a command of 0 clears the output's trip
(R435, R436, R444). -/
def State.fieldTakes (s : State) (out : Nat) (cfg : Option (Nat × Word)) : State :=
  let f := s.field
  let side := match cfg with
    | some (i, w) => Tab.put 0 f.side i w
    | none => f.side
  let outs := (List.range 16).foldl (fun t o => Tab.put false t o (out / 2 ^ o % 2 = 1)) []
  let s := { s with field := { f with side := side, outs := outs, heardAt := s.cc } }
  (List.range 16).foldl (fun s o => if out / 2 ^ o % 2 = 1 then s else s.setRfld (offFout o 1) 33 33 0) s

/-- The field side at the end of a packet in either direction: it has formed the inbound one, with its judgement of the supply, and has the
outbound one that ends with it, good or not (R434 - R437, R445). -/
def State.fieldEnds (s : State) (p : InPacket) : State :=
  let f := s.field
  let ended := f.air.filter (fun e => e.1 + 288 ≤ s.cc)
  let s := { s with field := { f with
    air := f.air.filter (fun e => s.cc < e.1 + 288), rxok := p.rxok && !ended.isEmpty
    edges := f.edges.drop 1, eovfLeft := f.eovfLeft - 1, supply := supplyNext f.supply p.supplyMv, inFrom := s.inStart + 1 } }
  match ended.getLast? with
  | some (_, out, cfg) => if p.rxok then s.fieldTakes out cfg else s
  | none => s

/-- RXOK of a good inbound packet (R436, R437): it reports the last outbound packet that ended before it started; the head of the queue is
confirmed by a report on a packet that carried it. -/
def State.reported (s : State) (rxok : Bool) (start : Nat) : State :=
  let f := s.field
  let n := (f.sent.filter (fun t => t + 288 ≤ start)).length
  let s := if rxok then s.deliver strBarOut n
    else if n = 0 then s else (s.deliver strBarOut (n - 1)).drop strBarOut 2 1
  let s := if rxok then s else s.satRfld offFieldStat 17 0 1
  let confirmed := rxok && f.sentAt != 0 && decide (f.sentAt + 287 ≤ start)
  { s with field := { f with
    sent := f.sent.filter (fun t => start < t + 288)
    queue := if confirmed then f.queue.tail else f.queue, sentAt := if confirmed then 0 else f.sentAt } }

/-- A good inbound packet at the device (R436 - R445) (see assumption 31, DEDUCED). -/
def State.goodPacket (s : State) (p : InPacket) (x : InFields) : State :=
  let s := (s.deliver strBarIn 1).reported x.rxok s.inStart
  let first := x.eovf && !s.field.eovfSeen
  let s := { s with field := { s.field with goodAt := s.cc, eovfSeen := x.eovf } }
  let s := if x.eovf then s.setRfld offFieldStat 32 32 1 else s
  let s := if first then s.incReg offEdgeLost 1 else s
  let s := (List.range 32).foldl (fun s i =>
    s.setRfld (offFin i 1) 35 35 (b2n (Tab.get false x.levels i != bit (Tab.get 0 s.field.side i) 34))) s
  let s := (List.range 16).foldl (fun s o => s.setRfld (offFout o 1) 34 34 (b2n (p.readback.getLsbD o))) s
  let s := (s.supplyStep x.supply).tallyMin 12 p.supplyMv
  match x.edge with
  | some e => s.fieldEdge e
  | none => s

/-- BARRIER_PACKET_IN (R434 - R445): the packet has arrived whole, one every 288 cc; `rxok` says whether the field side has the outbound packet
that ends with it good. None arrives while the link is lost (see assumption 31, DEDUCED). -/
def execBarrierPacketIn (p : InPacket) (s : State) : Host.Outcome State Fault Refusal :=
  .next (if !s.link || decide (s.inStart + 1 < s.field.inFrom + 288) && s.field.inFrom != 0 then s
  else
    let s := s.produce strBarIn 1
    -- a packet that fails is discarded: its edge record is lost with it (R437)
    let t := match s.inArrives p with
      | some x => s.goodPacket p x
      | none => (s.drop strBarIn 2 1).satRfld offFieldStat 17 0 1
    t.fieldEnds p)

/-- BARRIER_LINK_LOST (R437): one side has received no good packet for 8 packet periods; the field side drives every output off. -/
def execBarrierLinkLost (s : State) : Host.Outcome State Fault Refusal :=
  .next (if s.link && decide (min s.field.goodAt s.field.heardAt + 8 * 288 ≤ s.cc) then
    let s := State.setRfld { s with field := { s.field with outs := [] } } offFieldStat 35 35 0
    (s.cellEvent 5 offFieldStat (s.reg offFieldStat)).fellOut snapBarrier
  else s)

/-- BARRIER_LINK_RESTART (R437): the link is up and every configuration write is sent again. -/
def execBarrierLinkRestart (s : State) : Host.Outcome State Fault Refusal :=
  .next (if s.link then s
  else
    let q := (List.range 32).map (fun i => (i, s.reg (offFin i 0)))
    { s.setRfld offFieldStat 35 35 1 with field := { s.field with queue := q, sentAt := 0, goodAt := s.cc, heardAt := s.cc } })

/-- An edge record enters the field side's queue in order of raw edge, records of one tick by input number (R440). -/
def enterEdge (e : FieldEdge) : List FieldEdge → List FieldEdge
  | [] => [e]
  | x :: r => if e.tick < x.tick || (e.tick = x.tick && decide (e.num < x.num)) then e :: x :: r else x :: enterEdge e r

/-- FIELD_EDGE_ACCEPTED (R438 - R440): the field side saw input i change to `level` for `ticksHeld` ticks from tick `tick`, all of them past by the
tick count. -/
def execFieldEdgeAccepted (i : Fin 32) (level : Bool) (tick ticksHeld : Nat) (s : State) :
    Host.Outcome State Fault Refusal :=
  let i := i.val
  let f := s.field
  let c := Tab.get 0 f.side i
  .next (if level = Tab.get false f.levels i then s
  else if ticksHeld = 0 || decide (s.cc / 8 + 1 < tick + ticksHeld) then s
  else if ticksHeld < fld c 30 17 * 50 then s.satRfld (offFin i 1) 17 0 1
  else
    let f := { f with levels := Tab.put false f.levels i level }
    let rise := level != bit c 34
    let f :=
      if !(if rise then bit c 33 else bit c 32) then f
      else if f.edges.length < 64 then { f with edges := enterEdge { num := i, rise := rise, tick := tick } f.edges }
      else { f with eovfLeft := 9 }
    { s with field := f })

/-- FIELD_OUTPUT_TRIP (R444): an output that the field side holds off cannot trip (see assumption 31, DEDUCED). -/
def execFieldOutputTrip (o : Fin 16) (s : State) : Host.Outcome State Fault Refusal :=
  let o := o.val
  let w := s.reg (offFout o 1)
  .next (if Tab.get false s.field.outs o && !bit w 33 then
    let s := (s.setRfld (offFout o 1) 33 33 1).satRfld (offFout o 1) 17 0 1
    s.cellEvent 7 (offFout o 0) (s.foutWord o 1)
  else s)

/-! ### Encoders (R446 - R448) -/

/-- Counts of an encoder edge from levels (a, b) to (a', b'), and whether it is a quadrature error (R446, R447)
(see assumption 32, DESIGN CHOICE). -/
def encCount (mode : Nat) (a b a' b' : Bool) : Int × Bool :=
  let sense (up : Bool) : Int := if up then 1 else -1
  let edge (x x' : Bool) : Bool := if Config.pulseRising then !x && x' else x && !x'
  match mode with
  | 0 =>
    if a = a' ∧ b = b' then (0, false)
    else if a ≠ a' ∧ b ≠ b' then (0, true)
    else
      -- A leads B when A changes away from B, or B changes towards A
      let lead := if a ≠ a' then a' != b else b' = a
      (sense (lead = Config.aLeadsUp), false)
  | 1 => (if edge a a' then sense (b' = Config.dirHighUp) else 0, false)
  | _ => ((if edge a a' then 1 else 0) - (if edge b b' then 1 else 0), false)

/-- An encoder that has sampled A and B in a cell clock. -/
def Encoder.sampled (x : Encoder) (a b : Bool) (cc : Nat) : Encoder :=
  { x with a := a, b := b, aAt := if a = x.a then x.aAt else cc + 1, bAt := if b = x.b then x.bAt else cc + 1 }

/-- Does a sample show a level, or in QUAD an A-to-B edge spacing, that has held for less than 2 cc (R447)? -/
def Encoder.tight (x : Encoder) (quad a b : Bool) (cc : Nat) : Bool :=
  let near (t : Nat) : Bool := t != 0 && decide (cc + 1 < t + 2)
  (a != x.a && (near x.aAt || (quad && near x.bAt))) || (b != x.b && (near x.bAt || (quad && near x.aAt)))

/-- What an edge counts that the interface does not follow surely: a free value, the edge's count or none, in QUAD perhaps the other
way (R447) (see assumption 32, DESIGN CHOICE). -/
def unsure (quad : Bool) (w : Word) (d : Int) : Int :=
  if quad then (match w.toNat % 3 with
    | 0 => d
    | 1 => 0
    | _ => -d)
  else if w.toNat % 2 = 0 then d else 0

/-- ENCODER_EDGE (R447): the sample of this cell clock shows A and B (see assumption 32, DESIGN CHOICE). -/
def execEncoderEdge (e : Fin 16) (a b : Bool) (s : State) : Host.Outcome State Fault Refusal :=
  let e := e.val
  let x := s.enc e
  let w := s.reg (offEnc e 0)
  let (d, err) := encCount (fld w 34 33) x.a x.b a b
  let d := if bit w 32 then -d else d
  let run := bit w 35
  let quad := fld w 34 33 = 0
  let (d, s) := if run && d != 0 && x.tight quad a b s.cc then
      let (v, s) := s.drawWord
      (unsure quad v d, s)
    else (d, s)
  let y := x.sampled a b s.cc
  let s := s.setEnc e { y with coming := if run && d != 0 then x.coming ++ [(s.cc + 2, d)] else x.coming }
  .next (if run && err then s.satRfld (offEnc e 5) 17 0 1 else s)

/-- Z_LATCH (R448): an edge of Z, rising or falling. -/
def execZLatch (e : Fin 16) (rising : Bool) (s : State) : Host.Outcome State Fault Refusal :=
  let e := e.val
  let w := s.reg (offEnc e 0)
  .next (if bit w 31 && rising != bit w 30 then
    let t := s.t72
    let s := (s.setReg (offEnc e 2) (s.reg (offEnc e 1))).setReg (offEnc e 3) (dlo t)
    let s := s.setReg (offEnc e 4) (dhi t)
    (s.setRfld (offEnc e 5) 34 34 1).setRfld (offEnc e 5) 33 18 (s.rfld (offEnc e 5) 33 18 + 1)
  else s)

/-- ENCODER_LOSS (R448): every ENC coordinate on the encoder shows STALE while LOSS is 1. -/
def execEncoderLoss (e : Fin 16) (s : State) : Host.Outcome State Fault Refusal :=
  let e := e.val
  .next (if bit (s.reg (offEnc e 5)) 35 then s
  else
    let s := s.setRfld (offEnc e 5) 35 35 1
    s.cellEvent 9 (offEnc e 0) (s.reg (offEnc e 5)))

/-- ENCODER_LOSS_END (R448). -/
def execEncoderLossEnd (e : Fin 16) (s : State) : Host.Outcome State Fault Refusal :=
  .next (s.setRfld (offEnc e.val 5) 35 35 0)

end Sys2Proof.Machine
end

