-- ==== Sys2Proof/Machine/Window.lean ====
section
/-! DEFINITION. Window buffers and their ownership (R555 - R562). -/

namespace Sys2Proof.Machine

/-- Address of the descriptor of buffer b (R555). -/
def bufDesc (b : Nat) : Nat := Config.hostArea + 8 * (b % 1024)

/-- Word i of the descriptor of buffer b (R558). -/
def State.bufW (s : State) (b i : Nat) : Word := s.word (bufDesc b + i)

/-- CONF of buffer b. -/
def State.bufConf (s : State) (b : Nat) : Bool := bit (s.bufW b 0) 34

/-- Buffer b is configured and DEVICE owns it. -/
def State.bufDevice (s : State) (b : Nat) : Bool := s.bufConf b && bit (s.bufW b 0) 35

/-- First word address of buffer b. -/
def State.bufAddr (s : State) (b : Nat) : Nat := Config.hostArea + (s.bufW b 2).toNat

/-- Capacity of buffer b. -/
def State.bufCap (s : State) (b : Nat) : Nat := (s.bufW b 3).toNat

/-- The valid contents of buffer b. -/
def State.bufWords (s : State) (b : Nat) : List Word := s.words (s.bufAddr b) (s.bufW b 4).toNat

/-- Does a word of the contents of buffer b lie in a poisoned line. -/
def State.bufPoisoned (s : State) (b : Nat) : Bool := s.linesPoisoned (s.bufAddr b / 8) (lineSpan (s.bufAddr b) (s.bufW b 4).toNat)

/-- The contents of buffer b are read (R64): is a line of them poisoned. -/
def State.bufRead (s : State) (b : Nat) : Bool × State := s.meets (s.bufAddr b) (s.bufW b 4).toNat

/-- The descriptors of n buffers from buffer b are read (R64): is one of them poisoned. -/
def State.descRead (s : State) (b n : Nat) : Bool × State := s.meets (bufDesc b) (8 * n)

/-- Configured buffers, and those that DEVICE owns. -/
def State.bufCounts (s : State) : Nat × Nat :=
  let bs := (List.range 1024).filter (fun b => s.bufConf b)
  (bs.length, (bs.filter (fun b => bit (s.bufW b 0) 35)).length)

/-- The device passes buffer b to HOST with len words of contents and a USE (R561); the interrupt vector is the caller's, or
1 (R569). No passing occurs in HALT (R562). -/
def State.passBuf (s : State) (b len use_ vec : Nat) (crcBad : Bool) : State :=
  if s.mode = 7 then s
  else
    let (ws, _, s) := s.agentRead (s.bufAddr b) len
    let s := s.agentWrite (bufDesc b + 4) [wd len, wd (crc32cWords ws)]
    let s := s.agentWord (bufDesc b + 1) (s.bufW b 1 + 1)
    let s := s.agentWord (bufDesc b) (wd (at_ 1 34 + at_ (b2n crcBad) 33 + use_ % 256))
    s.msix vec

/-- Write words into buffer b from its first word, and pass it to HOST. -/
def State.fillBuf (s : State) (b : Nat) (ws : List Word) (use_ vec : Nat) : State :=
  (s.agentWrite (s.bufAddr b) ws).passBuf b ws.length use_ vec false

/-- Return an input buffer with its contents unchanged (USE 6). -/
def State.returnBuf (s : State) (b : Nat) : State :=
  if s.bufDevice b then s.passBuf b (s.bufW b 4).toNat 6 1 (bit (s.bufW b 0) 33) else s

end Sys2Proof.Machine
end

