-- ==== Sys2Proof/Machine/Can.lean ====
section
/-! DEFINITION. The fieldbus ports (R449 - R467): registers, mailboxes, receive FIFO, fault confinement and their events. -/

namespace Sys2Proof.Machine

/-- An error flag is seen on port p: ERRFRAMES, and the event recorder's tally (R451, R492). -/
def State.canFlagSeen (s : State) (p : Nat) : State := (s.satRfld (offCan p 4) 17 0 1).tallyAdd (38 + p) 1

/-- Port p beyond its registers. -/
def State.can (s : State) (p : Nat) : Can := Tab.get {} s.cans p

/-- Replace port p. -/
def State.setCan (s : State) (p : Nat) (x : Can) : State := { s with cans := Tab.put {} s.cans p x }

/-- Mailbox m of port p. -/
def State.box (s : State) (p m : Nat) : Mailbox := Tab.get {} (s.can p).boxes m

/-- Replace mailbox m of port p. -/
def State.setBox (s : State) (p m : Nat) (x : Mailbox) : State :=
  let c := s.can p
  s.setCan p { c with boxes := Tab.put {} c.boxes m x }

/-- Offset of word w of mailbox m. -/
def offBox (p m w : Nat) : Nat := offCan p (0x400 + 8 * m + w)

/-- EN of port p. -/
def State.canEn (s : State) (p : Nat) : Bool := bit (s.reg (offCan p 0)) 35
/-- POLICY: 0 ONESHOT, 1 RETRY, 2 LISTEN, 3 STOPPED. -/
def State.canPolicy (s : State) (p : Nat) : Nat := s.rfld (offCan p 3) 35 34
/-- FCS. -/
def State.canFcs (s : State) (p : Nat) : Nat := s.rfld (offCan p 3) 33 32

/-- The policy of a mode (R460). -/
def policyOf (mode : Nat) : Nat :=
  if mode = 4 ∨ mode = 5 ∨ mode = 6 ∨ mode = 9 then 0 else if mode = 8 then 2 else if mode = 7 then 3 else 1

/-- An event of port p (R467). -/
def State.canEvent (s : State) (p : Nat) (w : Nat) : State :=
  let w := wd (w + at_ p 30)
  s.postField (s.rfld (offCan p 0) 10 0) w (fun s => s.cellEvent 0x0A (offCan p 0) w)

/-! ### Bit timing (R452) -/

/-- Do words 1 and 2 satisfy the ranges of R451 and the limits of R452. -/
def canTimingOk (w1 w2 : Word) : Bool :=
  let n := 1 + fld w1 27 21 + fld w1 20 14 + fld w1 13 7
  let nb := (fld w1 35 28 + 1) * n
  let d := 1 + fld w2 30 26 + fld w2 25 21 + fld w2 20 16
  let db := (fld w2 35 31 + 1) * d
  decide (1 ≤ fld w1 27 21) && decide (1 ≤ fld w1 20 14) && decide (2 ≤ fld w1 13 7) && decide (1 ≤ fld w1 6 0)
    && decide (8 ≤ n) && decide (n ≤ 256) && decide (400 ≤ nb)
    && decide (fld w1 6 0 ≤ fld w1 20 14) && decide (fld w1 6 0 ≤ fld w1 13 7)
    && decide (1 ≤ fld w2 25 21) && decide (2 ≤ fld w2 20 16) && decide (1 ≤ fld w2 15 11)
    && decide (5 ≤ d) && decide (d ≤ 50) && decide (50 ≤ db) && decide (db ≤ nb)
    && decide (fld w2 15 11 ≤ fld w2 25 21) && decide (fld w2 15 11 ≤ fld w2 20 16)

/-! ### Memory of the owner's quadrant -/

/-- Quadrant of the tile that owns port p. -/
def State.canQuad (s : State) (p : Nat) : Option Nat :=
  match Tab.get 0 s.owners (offCan p 0) with
  | 0 => none
  | n + 1 => some (n / 16)

/-- Do n words from an address lie in the shared memory of the owner's quadrant. -/
def State.canMem (s : State) (p a n : Nat) : Bool :=
  match s.canQuad p with
  | none => false
  | some q => Config.quadBase + q * Config.quadWords ≤ a && a + n ≤ Config.quadBase + (q + 1) * Config.quadWords

/-! ### Transmit mailboxes (R457 - R462) -/

/-- Data bytes of a frame by its DLC; a remote frame has none. -/
def dlcBytes (fdf rtr : Bool) (dlc : Nat) : Nat :=
  if rtr then 0
  else if dlc ≤ 8 then dlc
  else if !fdf then 8
  else [12, 16, 20, 24, 32, 48, 64].getD (dlc - 9) 64

/-- A request ends DONE with a result (R459); a mailbox with POST posts ETASK. -/
def State.boxEnd (s : State) (p m result : Nat) : State :=
  let s := s.setBox p m { s.box p m with st := 3, result := result, cancel := false, produced := false }
  if bit (s.reg (offBox p m 0)) 33 then s.canEvent p (at_ 2 32 + at_ result 8 + m) else s

/-- A produced request is dropped under a reason (R462). -/
def State.boxDrop (s : State) (p m reason : Nat) : State :=
  if (s.box p m).produced then s.drop (strCanTx p) reason 1 else s

/-- The reference message counts as produced at its first arbitration win (R462, R466). -/
def State.refWon (s : State) (p : Nat) : State :=
  if (s.can p).refMade then s else (s.setCan p { s.can p with refMade := true }).produce (strCanTx p) 1

/-- The waiting reference message will not be sent again: one that was produced is dropped under a reason (R462). -/
def State.refDrop (s : State) (p reason : Nat) : State :=
  if (s.can p).refMade then (s.setCan p { s.can p with refMade := false }).drop (strCanTx p) reason 1 else s

/-- REQ (R458). -/
def State.boxReq (s : State) (p m : Nat) : State :=
  let b := s.box p m
  if b.st = 1 ∨ b.st = 2 then s
  else
    let s := s.setReg (offBox p m 6) 0
    let w := s.reg (offBox p m 1)
    let c := s.reg (offCan p 0)
    let fdf := bit w 34
    let n := dlcBytes fdf (bit w 32) (s.rfld (offBox p m 3) 35 32)
    let k := (n + 3) / 4
    let a := (s.reg (offBox p m 2)).toNat
    let bad := (fdf && !bit c 34) || (bit w 33 && (!fdf || !bit c 33)) || (bit w 32 && fdf) || (k != 0 && !s.canMem p a k)
    let s := s.setBox p m { st := 0, result := 0 }
    if bad then s.boxEnd p m 0x0A
    else
      let s := (List.range k).foldl (fun s i => s.decode ((a + i) / 8)) s
      if (List.range k).any (fun i => s.poisoned (a + i)) then s.boxEnd p m 0x0B
      else s.setBox p m { st := 1, data := (wordsToBytes (s.words a k)).take n }

/-- CANCEL (R461): before the SOF the request ends; later it is registered. -/
def State.boxCancel (s : State) (p m : Nat) : State :=
  let b := s.box p m
  if b.st != 1 && b.st != 2 then s
  else
    match (s.can p).chosen with
    | some (n, sof) =>
      if n = m ∧ sof ≤ s.cc then s.setBox p m { b with cancel := true }
      else
        let s := if n = m then s.setCan p { s.can p with chosen := none } else s
        (s.boxDrop p m 9).boxEnd p m (if b.produced then 4 else 3)
    | none => (s.boxDrop p m 9).boxEnd p m (if b.produced then 4 else 3)

/-- Write a register of mailbox m (R457). -/
def State.boxStore (s : State) (p m w : Nat) (v : Word) : State :=
  let st := (s.box p m).st
  match w with
  | 0 =>
    let s := s.setReg (offBox p m 0) (setBit 0 33 (bit v 33))
    if bit v 34 && (st = 1 || st = 2) then s.boxCancel p m else if bit v 35 then s.boxReq p m else s
  | 1 => if st = 1 ∨ st = 2 then s else s.setReg (offBox p m 1) (v &&& 0xF1FFFFFFF)
  | 2 => if st = 1 ∨ st = 2 then s else s.setReg (offBox p m 2) v
  | 3 => if st = 1 ∨ st = 2 then s else s.setReg (offBox p m 3) (v &&& 0xF00000000)
  | _ => s

/-! ### The receive FIFO (R455, R456) -/

/-- FIFORD := v where the count allows it: the entries passed are delivered (R456). -/
def State.fifoRd (s : State) (p : Nat) (v : Word) : State :=
  let rd := s.reg (offCan p 8)
  let n := (v - rd).toNat
  if n ≤ (s.reg (offCan p 7) - rd).toNat then (s.setReg (offCan p 8) v).deliver (strCanRx p) n else s

/-- Write a register of port p (R451 - R457). -/
def State.canStore (s : State) (p w : Nat) (v : Word) : State :=
  let en := s.canEn p
  if 0x400 ≤ w ∧ w < 0x600 then s.boxStore p ((w - 0x400) / 8) (w % 8) v
  else if 0x200 ≤ w ∧ w < 0x400 then
    s.setReg (offCan p w) (if w % 2 = 0 then v &&& 0xE1FFFFFFF else v &&& 0x1FFFFFFF)
  else match w with
    | 0 => s.setReg (offCan p 0) (v &&& 0xE000007FF)
    | 1 => if en || !canTimingOk v (s.reg (offCan p 2)) then s else s.setReg (offCan p 1) v
    | 2 =>
      let v := v &&& 0xFFFFFFFF8
      if en || !canTimingOk (s.reg (offCan p 1)) v then s else s.setReg (offCan p 2) v
    | 6 => if en then s else s.setReg (offCan p 6) v
    | 8 => s.fifoRd p v
    | 9 =>
      if en then s
      else
        let was := bit (s.reg (offCan p 9)) 35
        let s := s.setReg (offCan p 9) (v &&& 0xC1FFFFFFF)
        let x := s.can p
        if bit v 35 && !was then
          s.setCan p { x with refDue := s.elapsed + s.rfld (offCan p 10) 19 0 * tUs, refFirst := true, refPend := false }
        else if !bit v 35 then (s.setCan p { x with refPend := false }).refDrop p 9 else s
    | 10 =>
      let n := fld v 19 0
      if n < 100 ∨ 1000000 < n then s else s.setRfld (offCan p 10) 19 0 n
    | _ => s

/-- What a register of port p reads. -/
def State.canWord (s : State) (p w : Nat) : Word :=
  if 0x400 ≤ w ∧ w < 0x600 ∧ w % 8 = 0 then
    let b := s.box p ((w - 0x400) / 8)
    s.reg (offCan p w) ||| wd (at_ b.st 31 + at_ b.result 23)
  else if w = 3 then
    let v := s.reg (offCan p 3)
    setBit v 31 (96 ≤ fld v 27 20 || 96 ≤ fld v 19 12)
  else s.reg (offCan p w)

/-! ### Fault confinement (R463) -/

/-- Set TEC and REC; the state of fault confinement follows, and a change of it is an event (R463, R467)
(see assumption 21, PRESUMED). -/
def State.canErrors (s : State) (p tec rec_ : Nat) : State :=
  let old := s.canFcs p
  let fcs := if old = 2 ∨ 255 < tec then 2 else if 127 < tec ∨ 127 < rec_ then 1 else 0
  let s := (s.setRfld (offCan p 3) 27 20 (min tec 255)).setRfld (offCan p 3) 19 12 (min rec_ 255)
  if fcs = old then s
  else
    let s := s.setRfld (offCan p 3) 33 32 fcs
    let s := if fcs = 2 then s.satRfld (offCan p 5) 35 18 1 else s
    let s := s.canEvent p (at_ 3 32 + fcs)
    if fcs = 2 then s.cellEvent 0x0B (offCan p 0) (s.canWord p 3) else s

/-- Are the error counters frozen (R463). -/
def State.canFrozen (s : State) (p : Nat) : Bool := 2 ≤ s.canPolicy p

/-- TEC and REC of port p. -/
def State.txErr (s : State) (p : Nat) : Nat := s.rfld (offCan p 3) 27 20
/-- REC. -/
def State.rxErr (s : State) (p : Nat) : Nat := s.rfld (offCan p 3) 19 12

/-! ### Sending (R458 - R466) -/

/-- Arbitration field as a number: the lower wins on the bus. -/
def arbKey (ide rtr : Bool) (id : Nat) : Nat :=
  if ide then id / 2 ^ 18 * 2 ^ 21 + 2 ^ 20 + 2 ^ 19 + id % 2 ^ 18 * 2 + b2n rtr else id / 2 ^ 18 * 2 ^ 21 + b2n rtr * 2 ^ 20

/-- The frames that take part in the choice: number and key, the reference message (64) first (R458). -/
def State.canRivals (s : State) (p : Nat) : List (Nat × Nat) :=
  let x := s.can p
  let ts := s.reg (offCan p 9)
  (if x.refPend then [(64, arbKey (bit ts 34) false (fld ts 28 0))] else []) ++
    (List.range 64).filterMap (fun m =>
      let w := s.reg (offBox p m 1)
      if (s.box p m).st = 1 ∨ (s.box p m).st = 2 then some (m, arbKey (bit w 35) (bit w 32) (fld w 28 0)) else none)

/-- The winner of the choice: the lowest key, the first among equals. -/
def bestOf : List (Nat × Nat) → Option (Nat × Nat)
  | [] => none
  | a :: r => match bestOf r with
    | none => some a
    | some b => if b.2 < a.2 then some b else some a

/-- The arbitration timings of port p (R452). -/
def State.arbTiming (s : State) (p : Nat) : BitTiming := Machine.arbTiming (s.reg (offCan p 1))
/-- The data timings of port p. -/
def State.dataTiming (s : State) (p : Nat) : BitTiming := Machine.dataTiming (s.reg (offCan p 2))

/-- Is a frame of port p on the bus. -/
def State.canOnBus (s : State) (p : Nat) : Bool :=
  match (s.can p).chosen with
  | some (_, sof) => sof ≤ s.cc
  | none => false

/-- Port p takes the policy of a mode: entry into LISTEN or STOPPED ends every request (R460, R462)
(see assumption 21, PRESUMED). -/
def State.canSettle (s : State) (p mode : Nat) : State :=
  let pol := policyOf mode
  if s.canPolicy p = pol then s
  else
    let s := s.setRfld (offCan p 3) 35 34 pol
    if pol < 2 then s
    else
      let reason := if pol = 3 then 0x0B else 9
      let s := s.setCan p { s.can p with chosen := none }
      (List.range 64).foldl (fun s m =>
        let st := (s.box p m).st
        if st = 1 ∨ st = 2 then (s.boxDrop p m reason).boxEnd p m 9 else s) (s.refDrop p reason)

/-- A mode is entered: a port on a bus takes its policy at its next decision, one that is on none takes it now (R460). -/
def State.canMode (s : State) (mode : Nat) : State :=
  (List.range 4).foldl (fun s p => if s.canEn p then s else s.canSettle p mode) s

/-- The choice of R458. An error-passive port first waits the suspend time of 8 bits (R463). -/
def State.canChoose (s : State) (p : Nat) : State :=
  let x := s.can p
  if !s.canEn p || s.canFcs p = 2 || s.canFrozen p || x.chosen.isSome then s
  else match bestOf (s.canRivals p) with
    | none => s
    | some (n, _) =>
      let a := s.arbTiming p
      s.setCan p { x with chosen := some (n, s.cc + a.n2 * a.tq + if s.canFcs p = 1 then 8 * a.len else 0), won := false }

/-- CAN_TX_CHOICE (R458): a decision, at which a new policy takes effect (R460), and the frame for the next SOF. There is none while a frame of
the port is on the bus (see assumption 21, PRESUMED). -/
def execCanTxChoice (p : Fin 4) (s : State) : Host.Outcome State Fault Refusal :=
  .next (if s.canOnBus p.val then s else (s.canSettle p.val s.mode).canChoose p.val)

/-- The frame that a mailbox or the reference message sends. Of a base identifier only [28:18] is sent (R457). -/
def State.canFrame (s : State) (p n : Nat) : CanFrame :=
  let cut (ide : Bool) (id : Nat) : BitVec 29 := BitVec.ofNat 29 (if ide then id else id / 2 ^ 18 * 2 ^ 18)
  if n = 64 then
    let ts := s.reg (offCan p 9)
    let x := s.can p
    let prev := if x.refFirst then 0 else x.refSof / tNs % 2 ^ 56
    { ide := bit ts 34, fdf := false, brs := false, esi := false, rtr := false, id := cut (bit ts 34) (fld ts 28 0), dlc := 8
      data := unpackBytes 1 (s.rfld (offCan p 10) 35 28 + 1) ++ unpackBytes 7 prev }
  else
    let w := s.reg (offBox p n 1)
    { ide := bit w 35, fdf := bit w 34, brs := bit w 33, esi := bit w 34 && s.canFcs p = 1, rtr := bit w 32
      id := cut (bit w 35) (fld w 28 0), dlc := BitVec.ofNat 4 (s.rfld (offBox p n 3) 35 32), data := (s.box p n).data }

/-- An error in the body of a frame that the port sends: the identifier-collision event of R465. -/
def State.collision (s : State) (p : Nat) (f : CanFrame) : State :=
  let x := s.can p
  let k := b2n f.ide * 2 ^ 29 + f.id.toNat
  let last := Tab.get 0 x.errs k
  let s := s.setCan p { x with errs := Tab.put 0 x.errs k (s.elapsed + 1) }
  if last != 0 && decide (s.elapsed + 1 < last + 100 * tMs) then
    let s := s.setReg (offCan p 11) (wd (min ((s.reg (offCan p 11)).toNat + 1) (2 ^ 36 - 1)))
    let s := s.setReg (offCan p 12) (wd k)
    (s.cellEvent 0x0C (offCan p 0) (s.reg (offCan p 12))).canEvent p (at_ 4 32)
  else s

/-- A mailbox's frame wins arbitration: the first time the request is counted produced (R457, R462). -/
def State.boxWon (s : State) (p n : Nat) : State :=
  let b := s.box p n
  let s := s.setRfld (offBox p n 6) 35 28 (min (s.rfld (offBox p n 6) 35 28 + 1) 255)
  let s := if b.produced then s else s.produce (strCanTx p) 1
  s.setBox p n { s.box p n with produced := true, st := 2 }

/-- The frame on the bus wins arbitration (R457, R461, R462). -/
def State.canWin (s : State) (p n : Nat) : State :=
  if (s.can p).won then s
  else
    let s := s.setCan p { s.can p with won := true }
    if n = 64 then s.refWon p else s.boxWon p n

/-- Cell clocks from SOF to the sample point of the last bit of the arbitration field. -/
def State.wonAfter (s : State) (p n : Nat) : Nat :=
  let a := s.arbTiming p
  ((stuffHead (canArbBits (s.canFrame p n))).length - 1) * a.len + a.tq * a.n1

/-- A cell clock of port p: TSOF at the SOF of its frame; a frame that has not lost arbitration by the last bit of its arbitration field has
won it (R457, R461). -/
def State.canClock (s : State) (p : Nat) : State :=
  match (s.can p).chosen with
  | none => s
  | some (n, sof) =>
    let s := if sof = s.cc && n != 64 then (s.setReg (offBox p n 4) (dlo s.t72)).setReg (offBox p n 5) (dhi s.t72) else s
    if sof + s.wonAfter p n ≤ s.cc then s.canWin p n else s

/-- The end of frame f after the checks of its data phase (R453). -/
def State.checkedEnd (s : State) (p : Nat) (f : CanFrame) (e : CanEnd) : CanEnd :=
  let w := s.reg (offCan p 2)
  let check (rx : List Nat) (whole : Bool) : CanEnd :=
    match (if f.fdf && f.brs then dataPhaseError (s.arbTiming p) (s.dataTiming p) (bit w 3) (fld w 10 4) f rx whole else none) with
    | some k => .error k true rx
    | none => e
  match e with
  | .sent rx => check rx true
  | .error _ _ rx => check rx false
  | e => e

/-- The port drives an error flag, which is then on the bus; in LISTEN it drives none (R451, R460, R463). -/
def State.sendFlag (s : State) (p : Nat) : State :=
  if s.canPolicy p = 2 then s else State.canFlagSeen { s with outbox := s.outbox ++ [Msg.canFlag p (s.canFcs p = 1)] } p

/-- A frame that failed or lost is not sent again: the request ends with a result, the reference message waits for its next time. -/
def State.canGiveUp (s : State) (p n result : Nat) : State :=
  if n = 64 then (s.setCan p { s.can p with refPend := false }).refDrop p 9 else (s.boxDrop p n 9).boxEnd p n result

/-- The cell clock of the SOF edge on RX of a frame that ends so: RX follows TX by its first run (R466). -/
def rxEdge (sof : Nat) : CanEnd → Nat
  | .sent rx | .error _ _ rx => sof + rx.headD 0
  | _ => sof

/-- The frame of port p that is on the bus ends (R459 - R466) (see assumption 21, PRESUMED). -/
def State.canEnds (s : State) (p n sof : Nat) (e : CanEnd) : State :=
  let f := s.canFrame p n
  let oneshot := s.canPolicy p = 0
  let s := match e with
    | .sent _ | .error .. => s.canWin p n
    | _ => s
  let cancel := n != 64 && (s.box p n).cancel
  let edge := rxEdge sof e
  let t := Machine.t72 (s.timeAt edge)
  let s := if n = 64 || edge = sof then s else (s.setReg (offBox p n 4) (dlo t)).setReg (offBox p n 5) (dhi t)
  let s := s.setCan p { s.can p with chosen := none, won := false }
  let send (s : State) : State := { s with outbox := s.outbox ++ [Msg.can p f] }
  match e with
  | .lostArb => if cancel then s.canGiveUp p n 3 else if oneshot then s.canGiveUp p n 5 else s
  | .sent _ =>
    let s := send s
    let s := if s.canFrozen p then s else s.canErrors p (s.txErr p - 1) (s.rxErr p)
    if n = 64 then
      let s := s.setRfld (offCan p 10) 35 28 (s.rfld (offCan p 10) 35 28 + 1)
      (s.setCan p { s.can p with refPend := false, refMade := false, refFirst := false, refSof := s.timeAt edge }).deliver (strCanTx p) 1
    else (s.deliver (strCanTx p) 1).boxEnd p n (if cancel then 2 else 1)
  | .errorEarly kind =>
    let s := (s.setRfld (offCan p 3) 30 28 kind.toNat).sendFlag p
    -- a stuff error during arbitration keeps TEC (PRESUMED, assumption 22)
    let s := if s.canFrozen p || kind = 1 then s else s.canErrors p (s.txErr p + 8) (s.rxErr p)
    if cancel then s.canGiveUp p n 3 else if oneshot then s.canGiveUp p n 8 else s
  | .error kind inBody _ =>
    let s := ((send s).setRfld (offCan p 3) 30 28 kind.toNat).sendFlag p
    -- an error-passive sender that misses only its acknowledgement keeps TEC (PRESUMED, assumption 22)
    let s := if s.canFrozen p || (kind = 3 && s.canFcs p = 1) then s else s.canErrors p (s.txErr p + 8) (s.rxErr p)
    let s := if cancel then s.canGiveUp p n 4
      else if oneshot then s.canGiveUp p n (if inBody then 6 else if kind = 3 then 7 else 8) else s
    -- the post of the request's end comes before the COLLISION post (the worked example of R467)
    if inBody then s.collision p f else s

/-- CAN_TX_END (R453, R459 - R466): a policy that changed while the frame was on the bus takes effect after it; arbitration that is won
is not lost later (see assumptions 21, 22, PRESUMED). -/
def execCanTxEnd (p : Fin 4) (e : CanEnd) (s : State) : Host.Outcome State Fault Refusal :=
  let p := p.val
  let early := match e with
    | .lostArb | .errorEarly _ => true
    | _ => false
  .next (match (s.can p).chosen with
  | none => s
  | some (n, sof) =>
    if s.cc < sof || (early && (s.can p).won) then s
    else (s.canEnds p n sof (s.checkedEnd p (s.canFrame p n) e)).canSettle p s.mode)

/-- REFERENCE_MESSAGE_DUE (R466): every TSPER us; one that has not succeeded is replaced. -/
def execReferenceMessageDue (p : Fin 4) (s : State) : Host.Outcome State Fault Refusal :=
  let p := p.val
  let x := s.can p
  .next (if bit (s.reg (offCan p 9)) 35 && decide (x.refDue ≤ s.elapsed) then
    (s.refDrop p 9).setCan p {
      x with
      refPend := true
      refMade := false
      refDue := x.refDue + max 1 (s.rfld (offCan p 10) 19 0) * tUs }
  else s)

/-! ### Receiving (R454 - R456) -/

/-- The lowest filter that accepts a frame (R454). -/
def State.canFilter (s : State) (p : Nat) (f : CanFrame) : Option Nat :=
  (List.range 256).find? (fun i =>
    let w := s.reg (offCan p (0x200 + 2 * i))
    let m := fld (s.reg (offCan p (0x201 + 2 * i))) 28 0
    bit w 35 && bit w 34 = f.ide && (f.id.toNat ^^^ fld w 28 0) &&& m = 0)

/-- Words of a receive FIFO entry (R455). -/
def fifoEntry (f : CanFrame) (flt : Nat) (sof : DWord) : List Word :=
  let n := dlcBytes f.fdf f.rtr f.dlc.toNat
  [wd (at_ (b2n f.ide) 35 + at_ (b2n f.fdf) 34 + at_ (b2n f.brs) 33 + at_ (b2n f.esi) 32 + at_ (b2n f.rtr) 31 + f.id.toNat),
   wd (at_ f.dlc.toNat 32 + at_ flt 24), dlo sof, dhi sof] ++ bytesToWords 16 (f.data.take n)

/-- Does port p take part on the bus as a receiver: enabled, not STOPPED, not bus-off, and not sending itself (R454, R460, R463). -/
def State.canListens (s : State) (p : Nat) : Bool := s.canEn p && s.canPolicy p != 3 && s.canFcs p != 2 && !s.canOnBus p

/-- A frame whose bits port p has sampled, all of them by now (R452, R454). -/
def State.canHears (s : State) (p : Nat) (h : CanHeard) : Bool :=
  match Machine.canHears (s.arbTiming p) (s.dataTiming p) h.frame h.rx with
  | some t => h.sof + t ≤ s.cc
  | none => false

/-- A protocol exception (R449, R451). -/
def State.canException (s : State) (p : Nat) : State := (s.setRfld (offCan p 3) 30 28 7).satRfld (offCan p 5) 17 0 1

/-- A valid frame of another node: acknowledged but in LISTEN, filtered and stored (R454 - R456, R463). -/
def State.canReceive (s : State) (p : Nat) (f : CanFrame) (sof : DWord) : State :=
  let s := s.setCan p { s.can p with chosen := none }
  let s := if s.canPolicy p = 2 then s else { s with outbox := s.outbox ++ [Msg.canAck p] }
  let s := s.produce (strCanRx p) 1
  let r := s.rxErr p
  let s := if s.canFrozen p || r = 0 then s
    else if r ≤ 127 then s.canErrors p (s.txErr p) (r - 1)
    else
      -- back to a value from 119 to 127, which the standard leaves open
      let (w, s) := s.drawWord
      s.canErrors p (s.txErr p) (119 + w.toNat % 9)
  match s.canFilter p f with
  | none => (s.satRfld (offCan p 4) 35 18 1).drop (strCanRx p) 5 1
  | some flt =>
    let base := (s.reg (offCan p 6)).toNat
    let wr := s.reg (offCan p 7)
    if base % 4 != 0 || !s.canMem p base 10240 || (wr - s.reg (offCan p 8)).toNat = 512 then s.drop (strCanRx p) 8 1
    else
      let m := wr.toNat % 512
      let s := (s.agentWrite (base + 20 * m) (fifoEntry f flt sof)).setReg (offCan p 7) (wr + 1)
      if bit (s.reg (offCan p (0x200 + 2 * flt))) 33 then s.canEvent p (at_ 1 32 + at_ flt 9 + m) else s

/-- CAN_FRAME_VALIDATED (R449, R452, R454 - R456, R463): another node's frame also takes the place of a chosen one that has not started; an FD
frame with FDEN at 0 is a protocol exception (see assumption 21, PRESUMED). -/
def execCanFrameValidated (p : Fin 4) (f : CanHeard) (s : State) : Host.Outcome State Fault Refusal :=
  let p := p.val
  .next (if !s.canListens p || !s.canHears p f then s
  else if f.frame.fdf && !bit (s.reg (offCan p 0)) 34 then s.canException p
  else s.canReceive p f.frame (Machine.t72 (s.timeAt f.sof)))

/-- CAN_BUS_ERROR (R463): a protocol exception only with FDEN at 0 (R449) (see assumption 21, PRESUMED). -/
def execCanBusError (p : Fin 4) (e : CanBusEvent) (s : State) : Host.Outcome State Fault Refusal :=
  let p := p.val
  let failed (k : BitVec 3) (n : Nat) : State :=
    let s := (s.setRfld (offCan p 3) 30 28 k.toNat).sendFlag p
    if s.canFrozen p then s else s.canErrors p (s.txErr p) (min (s.rxErr p + n) 255)
  .next (if !s.canListens p then s
  else match e with
    | .receiveError k => failed k 1
    | .receiveErrorDominant k => failed k 8
    | .errorFlagSeen => s.canFlagSeen p
    | .protocolException => if bit (s.reg (offCan p 0)) 34 then s else s.canException p)

/-- BUS_OFF_RECOVERY (R463). -/
def execBusOffRecovery (p : Fin 4) (s : State) : Host.Outcome State Fault Refusal :=
  let p := p.val
  .next (if s.canFcs p != 2 || s.canFrozen p then s
  else
    let s := ((s.setRfld (offCan p 3) 27 20 0).setRfld (offCan p 3) 19 12 0).setRfld (offCan p 3) 33 32 0
    s.canEvent p (at_ 3 32))

end Sys2Proof.Machine
end

