-- ==== Sys2Proof/Machine/Rings.lean ====
section
/-! DEFINITION. The Ribriari rings (R329 - R395): configuration and its checks, band slot cells, frames, output assembly, and
what the band engine does with what comes back. Byte strings are in wire order; multi-byte fields little-endian (R331). -/

namespace Sys2Proof.Machine

/-! ### Configuration (R351 - R362) -/

/-- Ring r. -/
def State.ring (s : State) (r : Nat) : Ring := Tab.get {} s.rings r

/-- Replace ring r. -/
def State.setRing (s : State) (r : Nat) (x : Ring) : State := { s with rings := Tab.put {} s.rings r x }

/-- Word i of a configuration block. -/
def RingCfg.word (c : RingCfg) (i : Nat) : Word := c.w.getD i 0
/-- MODE: 0 OFF, 1 PASS, 2 SLOT. -/
def RingCfg.mode (c : RingCfg) : Nat := fld (c.word 0) 35 34
/-- SEGMENT. -/
def RingCfg.segment (c : RingCfg) : Nat := fld (c.word 0) 33 28
/-- COMMON. -/
def RingCfg.common (c : RingCfg) : Bool := bit (c.word 0) 27
/-- NNODES. -/
def RingCfg.nodes (c : RingCfg) : Nat := fld (c.word 0) 26 19
/-- CYCLEN. -/
def RingCfg.cyclen (c : RingCfg) : Nat := fld (c.word 0) 18 0
/-- LAYOUT. -/
def RingCfg.layout (c : RingCfg) : Nat := fld (c.word 1) 35 20
/-- CYCBYTES. -/
def RingCfg.cycbytes (c : RingCfg) : Nat := fld (c.word 1) 19 5
/-- MBXMAX. -/
def RingCfg.mbxmax (c : RingCfg) : Nat := fld (c.word 2) 35 25
/-- DROPN. -/
def RingCfg.dropn (c : RingCfg) : Nat := fld (c.word 2) 24 22
/-- SAMPOFF. -/
def RingCfg.sampoff (c : RingCfg) : Nat := fld (c.word 3) 18 0
/-- BUFBASE. -/
def RingCfg.bufbase (c : RingCfg) : Nat := (c.word 5).toNat
/-- SLOTLEN. -/
def RingCfg.slotlen (c : RingCfg) : Nat := fld (c.word 8) 35 26
/-- OUTSLOTS. -/
def RingCfg.outslots (c : RingCfg) : Nat := fld (c.word 8) 25 22 + 1
/-- DYNMS. -/
def RingCfg.dynms (c : RingCfg) : Nat := fld (c.word 8) 21 14

/-- Quotient rounded up. -/
def ceilDiv (a b : Nat) : Nat := (a + b - 1) / b

/-- NBLK of a band (R339). -/
def RingCfg.nblk (c : RingCfg) : Nat := ceilDiv (c.cycbytes + 16 + c.mbxmax) 256

/-- Bytes of the area that output assembly fills: the cyclic area, or the joined device slots (R340, R348). -/
def RingCfg.outBytes (c : RingCfg) : Nat := if c.mode = 2 then c.outslots * c.slotlen else c.cycbytes

/-- Limits of the row of a cycle length: nodes, cyclic bytes, mailbox bytes, link delay in ps (R361). -/
def rowLimits (cyclen : Nat) : Nat × Nat × Nat × Nat :=
  if cyclen < 12500 then (64, 4096, 1024, 480000)
  else if cyclen < 25000 then (160, 10240, 1024, 1500000)
  else (255, 24576, 1024, 3000000)

/-- Position in the layout in force of each position of a list of stations, with 0 for port A and N + 1 for port B, where a sweep has
measured it. -/
def Ring.measuredAt (x : Ring) (addrs : List Nat) : List (Option Nat) :=
  let old := match x.cfg with
    | some c => c.stations.map Prod.fst
    | none => []
  let held (o : Option Nat) : Option Nat := if x.swept then o else none
  held (some 0) :: addrs.map (fun a => held ((old.findIdx? (fun b => b = a)).map (· + 1))) ++ [held (some (old.length + 1))]

/-- The held delay of a link between two positions, if they are neighbours in the layout in force. -/
def Ring.linkHeld (x : Ring) (a b : Option Nat) : Option Int :=
  match a, b with
  | some p, some q => if q = p + 1 then some (Tab.get 0 x.links p) else none
  | _, _ => none

/-- Sums of forwarding and link delays in ps over the stations of a layout: of each node its held value, else 48 ns; the row limit where a
link has no measurement (R362, R371) (see assumption 35, DEDUCED). -/
def State.ringDelays (s : State) (r : Nat) (addrs : List Nat) (cyclen : Nat) : Int × Int :=
  let x := s.ring r
  let ps := x.measuredAt addrs
  let f (o : Option Nat) : Int := match o with
    | some p => max (Tab.get 0 x.fwd p) (Tab.get 0 x.rev p)
    | none => 48000
  let ls := (ps.zip ps.tail).map (fun e => x.linkHeld e.1 e.2)
  (((ps.drop 1).dropLast.map f).sum,
   if ls.all Option.isSome then (ls.map (fun o => o.getD 0)).sum else (rowLimits cyclen).2.2.2)

/-- OPEN, LOOPOPEN and APPLYMIN of a configuration (R349, R362). -/
def State.ringWindow (s : State) (r : Nat) (c : RingCfg) : Nat × Nat × Nat :=
  let (f, l) := s.ringDelays r (c.stations.map Prod.fst) c.cyclen
  let up (x : Int) : Nat := ceilDiv x.toNat 2500
  if c.mode = 2 then
    let rt := up (f + l)
    let tslot := ceilDiv (800 * (28 + 264 * ceilDiv c.slotlen 256) + 64000) 2500
    let o := rt + 50 + (c.outslots + c.nodes) * tslot + 160
    (o, o + rt, rt + 50 + c.outslots * tslot)
  else
    let w : Int := 800 * (76 + 264 * c.nblk)
    (up (w + f + l + 400000), up (w + 2 * f + 2 * l + 400000), up (w + f + l))

/-- TSLOT of SLOT mode (R349). -/
def RingCfg.tslot (c : RingCfg) : Nat := ceilDiv (800 * (28 + 264 * ceilDiv c.slotlen 256) + 64000) 2500

/-- Do two byte ranges overlap. -/
def overlap (a la b lb : Nat) : Bool := decide (a < b + lb) && decide (b < a + la)

/-- Does any pair of a list satisfy p. -/
def anyPair {α : Type} (p : α → α → Bool) : List α → Bool
  | [] => false
  | x :: r => r.any (p x) || anyPair p r

/-- The checks of R354 on the fields of R351. -/
def ringFieldsOk (c : RingCfg) : Bool :=
  let w := c.word
  c.mode != 3 && fld (w 1) 4 0 = 0 && fld (w 3) 35 19 = 0 && fld (w 4) 35 19 = 0 && fld (w 8) 13 0 = 0
    && (List.range 7).all (fun i => w (9 + i) = 0)
    && (c.mode = 0 ||
      (c.layout != 0 && decide (6250 ≤ c.cyclen) && decide (c.cyclen ≤ 400000) && c.cycbytes % 4 = 0 && c.mbxmax % 4 = 0
        && decide (c.mbxmax ≤ 1024) && decide (c.sampoff < c.cyclen)
        && (if c.mode = 2 then c.cycbytes = 0 && decide (64 ≤ c.slotlen) && decide (c.slotlen ≤ 512) && c.slotlen % 4 = 0
            else c.slotlen = 0)))

/-- The checks of R352 and R354 on the station table. -/
def ringStationsOk (c : RingCfg) : Bool :=
  c.stations.all (fun e => e.1 / 256 = c.segment && e.1 % 256 != 0 && e.2.1 % 4 = 0
      && (if c.mode = 2 then true else decide (4 ≤ e.2.2) && e.2.2 % 4 = 0)
      && decide (e.2.1 + e.2.2 ≤ c.outBytes))
    && !anyPair (fun a b => a.1 = b.1 || (c.mode = 1 && overlap a.2.1 a.2.2 b.2.1 b.2.2)) c.stations

/-- The check of R353 and R354 on the route table; own segments must not be reached by way of others. -/
def routesOk (c : RingCfg) (own : List Nat) : Bool :=
  (List.range c.routes.length).all (fun i =>
    let w := c.routes.getD i 0
    let via := fld w 34 33
    via != 3 && fld w 31 8 = 0
      && (via = 1 || fld w 7 0 = 0) && (via != 2 || !bit w 32)
      && !(own.contains i && bit w 35 && (via = 1 || via = 2)))

/-- Do the tables that a block names lie in Crown memory, where a ring that sends bands has them (R351, R354). -/
def RingCfg.tablesOk (c : RingCfg) : Bool :=
  let crown (a n : Nat) : Bool := Config.crownBase ≤ a && a + n ≤ Config.crownEnd
  c.mode = 0 || (crown (c.word 6).toNat (2 * c.nodes) && (c.word 7 = 0 || crown (c.word 7).toNat 64))

/-- Is every word from an address within quadrant shared memory. -/
def inQuads (a n : Nat) : Bool := Config.quadBase ≤ a && a + n ≤ Config.quadBase + 4 * Config.quadWords

/-- Words of the receive buffers and send buffers of a ring: two of each (R351) (see assumption 20, DESIGN CHOICE). -/
def RingCfg.bufWords (c : RingCfg) : Nat × Nat :=
  if c.mode = 2 then (c.nodes * c.slotlen / 4, c.outslots * c.slotlen / 4) else (ceilDiv c.cycbytes 4, ceilDiv c.cycbytes 4)

/-- The configuration with its window, or none where RINGSET returns RANGE (R354) (see assumption 35, DEDUCED). -/
def State.ringCheck (s : State) (r : Nat) (c : RingCfg) : Option RingCfg :=
  let (o, l, amin) := s.ringWindow r c
  let apply := if fld (c.word 4) 18 0 = 0 then amin else fld (c.word 4) 18 0
  let (nn, cb, mb, _) := rowLimits c.cyclen
  let other := match (s.ring (1 - r)).waiting with
    | some (x, _) => some x
    | none => (s.ring (1 - r)).cfg
  let (rx, tx) := c.bufWords
  let own := c.segment :: (match other with
    | some x => if x.mode = 0 then [] else [x.segment]
    | none => [])
  let (_, lsum) := s.ringDelays r (c.stations.map Prod.fst) c.cyclen
  let ok := ringFieldsOk c && c.tablesOk && ringStationsOk c && routesOk c own
    && (c.mode = 0 ||
      (decide (c.nodes ≤ nn) && decide (c.cycbytes ≤ cb) && decide (c.mbxmax ≤ mb) && decide (lsum ≤ ((rowLimits c.cyclen).2.2.2 : Nat))
        && (c.mode != 2 || (decide (c.nodes ≤ 32)
            && decide (50 + (c.outslots + c.nodes) * c.tslot + 64 * c.dynms ≤ c.cyclen)))
        && decide (o + 210 ≤ c.cyclen) && decide (l + 210 ≤ c.cyclen) && decide (amin ≤ apply)
        && (match other with
            | some x => x.mode = 0 || (x.segment != c.segment && !(c.common && x.common && x.cyclen != c.cyclen))
            | none => true)
        && inQuads c.bufbase (2 * rx + 2 * tx)))
  if ok then some { c with openAt := o, loopOpen := l, applyOff := apply, close := c.cyclen - 210 } else none

/-- The configuration block, station table and route table as pair 0 reads them (R351 - R353). -/
def State.ringBlock (s : State) (ws : List Word) : RingCfg :=
  let c : RingCfg := { w := ws, stations := [], routes := [], openAt := 0, loopOpen := 0, applyOff := 0, close := 0 }
  let t := (c.word 6).toNat
  let e (i : Nat) : Nat × Nat × Nat :=
    let w0 := s.word (t + 2 * i)
    let w1 := s.word (t + 2 * i + 1)
    -- reserved bits that are set spoil the address, so that the check refuses the entry
    (if fld w0 35 30 = 0 ∧ fld w1 35 16 = 0 then fld w0 29 16 else 2 ^ 14, fld w0 15 0, fld w1 15 0)
  let a := (c.word 7).toNat
  if !c.tablesOk then c
  else { c with
    stations := (List.range c.nodes).map e
    routes := if a = 0 then [] else s.words a 64 }

/-- Are rings 0 and 1 on common cycle numbering (R334). -/
def State.ringCommon (s : State) : Bool :=
  match (s.ring 0).cfg, (s.ring 1).cfg with
  | some a, some b => a.common && b.common && a.cyclen = b.cyclen && a.mode != 0 && b.mode != 0
  | _, _ => false

/-- The window opening in force: LOOPOPEN in loopback (R359). -/
def Ring.openNow (x : Ring) (c : RingCfg) : Nat := if x.loop then c.loopOpen else c.openAt

/-- RING.r.STAT (R366). -/
def State.ringStat (s : State) (r : Nat) : Word :=
  let x := s.ring r
  let m := match x.cfg with
    | some c => c.mode
    | none => 0
  wd (at_ m 34 + at_ (b2n x.run) 33 + at_ (b2n x.loop) 32 + at_ (b2n s.ringCommon) 31
    + (if x.loop then at_ x.breakA 23 + at_ x.breakB 15 else 0))

/-- Stations declared dropped out at present (R392). -/
def State.droppedCount (s : State) (r : Nat) : Nat :=
  match (s.ring r).cfg with
  | some c => ((List.range c.nodes).filter (fun p => (Tab.get {} (s.ring r).stations (p + 1)).dropped)).length
  | none => 0

/-- What a ring register reads. -/
def State.ringWord (s : State) (r w : Nat) : Word :=
  match w with
  | 0 => s.ringStat r
  | 1 => wd (s.ring r).cycle
  | _ => s.reg (offRing r w)

/-! ### Stations -/

/-- Position of a station address on ring r, from 1. -/
def State.posOf (s : State) (r addr : Nat) : Option Nat :=
  ((s.ring r).cfg.bind fun c => c.stations.findIdx? (fun e => e.1 = addr)).map (· + 1)

/-- The station at a position. -/
def State.station (s : State) (r p : Nat) : Station := Tab.get {} (s.ring r).stations p

/-- Replace the station at a position. -/
def State.setStation (s : State) (r p : Nat) (x : Station) : State :=
  let g := s.ring r
  s.setRing r { g with stations := Tab.put {} g.stations p x }

/-- Entry of a position in the layout: address, offset, length. -/
def RingCfg.entry (c : RingCfg) (p : Nat) : Nat × Nat × Nat := c.stations.getD (p - 1) (0, 0, 0)

/-- Bytes of the input area and of the output area of a position (R340, R348). -/
def RingCfg.areaLen (c : RingCfg) (p : Nat) (output : Bool) : Nat :=
  if c.mode = 2 then (if output then (c.entry p).2.2 else c.slotlen - 4) else (c.entry p).2.2 - 4

/-- Byte of the assembled area at which the output area of a position begins. -/
def RingCfg.outStart (c : RingCfg) (p : Nat) : Nat :=
  if c.mode = 2 then (c.entry p).2.1 else (c.entry p).2.1 + 4

/-- Bytes of a station's input area as last marked (R218). -/
def Station.input (x : Station) : List Byte := x.area.drop 4

/-! ### Band slot cells (R356, R357) -/

/-- Width in bytes of a slot cell's field. -/
def slotWidth (w : Word) : Nat := if bit w 33 then 2 else 4

/-- Does word 0 of a slot cell name a station and a field within its area in the layout in force. -/
def State.slotFits (s : State) (r : Nat) (w : Word) : Bool :=
  match (s.ring r).cfg, s.posOf r (fld w 29 16) with
  | some c, some p =>
    c.mode != 0 && fld w 15 0 % slotWidth w = 0 && decide (fld w 15 0 + slotWidth w ≤ c.areaLen p (bit w 34))
  | _, _ => false

/-- Byte of the assembled area at which the field of an output cell begins (R340, R348). -/
def State.outByte (s : State) (r : Nat) (w : Word) : Nat :=
  match (s.ring r).cfg, s.posOf r (fld w 29 16) with
  | some c, some p => c.outStart p + fld w 15 0
  | _, _ => fld w 15 0

/-- Does an output field overlap that of another valid output cell (R357). -/
def State.slotClash (s : State) (r i : Nat) (w : Word) : Bool :=
  bit w 34 && (List.range 1024).any (fun j =>
    let v := s.reg (offSlot r j 0)
    j != i && bit v 35 && bit v 34 && overlap (s.outByte r v) (slotWidth v) (s.outByte r w) (slotWidth w))

/-- Write a register of a band slot cell (R356, R357). -/
def State.slotStore (s : State) (r i w : Nat) (v : Word) : State :=
  match w with
  | 0 =>
    let v := v &&& 0xE3FFFFFFF
    let ok := bit v 35 && s.slotFits r v && !s.slotClash r i v
    s.setReg (offSlot r i 0) (setBit v 35 ok)
  | 1 => if bit (s.reg (offSlot r i 0)) 34 then s.setReg (offSlot r i 1) v else s
  | _ => s

/-! ### Bytes of frames -/

/-- n bytes of a number, least significant first. -/
def le (n v : Nat) : List Byte := unpackBytes n v

/-- A wire time of 12 bytes from a device time (R337). -/
def wireTime (t : Nat) : List Byte := le 6 (t / tSec % 2 ^ 42) ++ le 4 (t % tSec / tNs) ++ le 2 (t % tNs / 2 ^ 16)

/-- The device time of a wire time, in 2^-32 ns. -/
def ofWire (bs : List Byte) (i : Nat) : Nat := leAt bs i 6 * tSec + leAt bs (i + 6) 4 * tNs + leAt bs (i + 10) 2 * 2 ^ 16

/-- n bytes of a sparse byte array from an offset. -/
def tabBytes (t : Tab Nat) (a n : Nat) : List Byte := (List.range n).map (fun i => BitVec.ofNat 8 (Tab.get 0 t (a + i)))

/-- Write a number of `width` bits into bytes of an array, from bit 0 of byte a (R216, R331). -/
def putBits (t : Tab Nat) (a width v : Nat) : Tab Nat :=
  (List.range (ceilDiv width 8)).foldl (fun t i =>
    let n := min 8 (width - 8 * i)
    let old := Tab.get 0 t (a + i)
    Tab.put 0 t (a + i) (old - old % 2 ^ n + v / 2 ^ (8 * i) % 2 ^ n)) t

/-- A header of R336. -/
def bandHeader (type flags epoch cycle layout master nblk : Nat) (time : Nat) (c : RingCfg) (node cyc mbx : Nat)
    (trig : Option (List Byte)) : List Byte :=
  let h := le 1 type ++ le 1 (flags + (if trig.isSome then 4 else 0)) ++ le 2 epoch ++ le 6 cycle ++ le 2 layout ++ le 2 master
    ++ le 2 nblk ++ wireTime time ++ le 4 (c.sampoff * 5 / 2) ++ le 4 (c.applyOff * 5 / 2) ++ le 4 c.cyclen ++ le 2 node
    ++ le 2 cyc ++ le 2 mbx ++ le 2 0 ++ (trig.getD (le 12 0)).take 12
  h ++ le 4 (crc32Eth h)

/-- A block of 256 payload bytes (R338). -/
def blockOf (payload : List Byte) (poison : Bool) (idx : Nat) : List Byte :=
  let p := payload ++ List.replicate (256 - payload.length) 0
  p ++ le 4 (crc32Eth p) ++ le 1 (if poison then 0x11 else 0) ++ le 1 (idx % 256) ++ le 2 0

/-- The blocks of a payload. -/
def blocksOf (payload : List Byte) (bad : List Nat) (n : Nat) : List Byte :=
  (List.range n).flatMap (fun i => blockOf ((payload.drop (256 * i)).take 256) (bad.contains i) i)

/-- Station address of the device as master of a ring (R331). -/
def RingCfg.master (c : RingCfg) : Nat := 256 * c.segment

/-- Address of the node asked for stamps in this cycle, or 0 (R369). -/
def RingCfg.stampNode (c : RingCfg) (x : Ring) : Nat := if x.stampPos = 0 then 0 else (c.entry x.stampPos).1

/-- A band of a cycle (R336 - R339): flags give the half. -/
def Ring.band (x : Ring) (c : RingCfg) (half : Nat) : List Byte :=
  bandHeader 1 half x.epoch x.cycle c.layout c.master c.nblk x.startTime c (c.stampNode x) c.cycbytes c.mbxmax x.trig
    ++ blocksOf x.tx x.txBad c.nblk

/-- The delay probe of a cycle (R368). -/
def Ring.probe (x : Ring) (c : RingCfg) : List Byte :=
  bandHeader 0x11 0 x.epoch x.cycle c.layout c.master 1 x.startTime c (c.stampNode x) 0 0 none ++ blocksOf [] [] 1

/-- A slot frame or a dynamic frame of some payload (R348, R350). -/
def slotBody (type layout cycle sender : Nat) (payload : List Byte) (bad : List Nat) (n : Nat) : List Byte :=
  let h := le 1 type ++ le 1 0 ++ le 2 layout ++ le 4 (cycle % 2 ^ 32) ++ le 2 sender ++ le 2 n
  h ++ le 4 (crc32Eth h) ++ blocksOf payload bad n

/-- The cycle header and the device's slot frames of slotted mode (R348, R363). -/
def Ring.slotFrames (x : Ring) (c : RingCfg) (half : Nat) : List (List Byte) :=
  let n := ceilDiv c.slotlen 256
  bandHeader 2 half x.epoch x.cycle c.layout c.master 0 x.startTime c (c.stampNode x) 0 c.mbxmax x.trig ::
    (List.range c.outslots).map (fun k =>
      slotBody 3 c.layout x.cycle c.master ((x.tx.drop (c.slotlen * k)).take c.slotlen) (x.txBad.filterMap (fun b =>
        if b / n = k then some (b % n) else none)) n)

/-- A claim frame (R380). -/
def claimFrame (c : RingCfg) (epoch epochMax key time : Nat) : List Byte :=
  bandHeader 0x10 0 epoch 0 c.layout c.master 1 time c 0 0 0 none
    ++ blocksOf (le 5 (key % 2 ^ 40) ++ le 1 (key / 2 ^ 40) ++ le 2 epochMax) [] 1

/-! ### Output assembly (R340, R347, R358) -/

/-- Saturate a value to a field of n bytes; was it clamped. -/
def satField (n : Nat) (x : Int) : Int × Bool :=
  let r := clampI (-(2 ^ (8 * n - 1))) (2 ^ (8 * n - 1) - 1) x
  (r, r != x)

/-- The valid output slot cells of ring r laid over an area; clamped values are counted (R357, R358). -/
def State.assembleCells (s : State) (r : Nat) (c : RingCfg) (t : Tab Nat) : State × Tab Nat :=
  (List.range 1024).foldl (fun (acc : State × Tab Nat) i =>
    let w := acc.1.reg (offSlot r i 0)
    match bit w 35 && bit w 34, acc.1.posOf r (fld w 29 16) with
    | true, some p =>
      let n := slotWidth w
      let (v, sat) := satField n (s36 (acc.1.reg (offSlot r i 1)))
      let s := if sat then acc.1.satRfld (offSlot r i 2) 18 0 1 else acc.1
      (s, putBits acc.2 (c.outStart p + fld w 15 0) (8 * n) (v % 2 ^ (8 * n)).toNat)
    | _, _ => acc) (s, t)

/-- The forced station outputs of ring r laid over an area (R236, R238). -/
def State.assembleForces (s : State) (r : Nat) (c : RingCfg) (t : Tab Nat) : Tab Nat :=
  s.forces.foldl (fun t a =>
    let w := s.word a
    let src := s.word (a + 1)
    if bit w 34 && fld w 33 32 = 2 && fld src 35 35 = r then
      match s.posOf r (fld src 29 16) with
      | some p => putBits t (c.outStart p + fld src 15 0) (fld w 9 4) (s.word (a + 2)).toNat
      | none => t
    else t) t

/-- Bytes of a mailbox entry (R346). -/
def MbxMsg.bytes (m : MbxMsg) : List Byte :=
  le 2 m.dst ++ le 2 m.src ++ le 2 m.data.length ++ le 1 (m.seq % 256) ++ le 1 m.kind ++ m.data
    ++ List.replicate ((4 - m.data.length % 4) % 4) 0

/-- The mailbox area: outgoing entries in order while they fit (R346, R347), and how many lie in it. -/
def mbxArea (mbxmax : Nat) : List MbxMsg → List Byte → Nat → List Byte × Nat
  | [], acc, n => (acc, n)
  | m :: r, acc, n =>
    if 4 + acc.length + m.bytes.length ≤ mbxmax then mbxArea mbxmax r (acc ++ m.bytes) (n + 1) else (acc, n)

/-- Mailbox bytes of the largest dynamic frame that ends within n mini-slots of 64 cc (R349). -/
def dynBytes (n : Nat) : Nat := 256 * ((200 * n - 28) / 264)

/-- A dynamic frame of the entries that fit in it, if any does, and how many do (R350). -/
def dynFrame (layout cycle sender limit : Nat) (ms : List MbxMsg) : Option (List Byte) × Nat :=
  let (mb, n) := mbxArea limit ms [] 0
  if n = 0 then (none, 0) else (some (slotBody 4 layout cycle sender (le 4 mb.length ++ mb) [] (ceilDiv (4 + mb.length) 256)), n)

/-- Output assembly of the band that follows (R358): the area, the send buffer that the band engine writes and reads through its port
(R23, R26), and the poisoned blocks (see assumption 20, DESIGN CHOICE). -/
def State.assemble (s : State) (r : Nat) (c : RingCfg) : State :=
  let x := s.ring r
  let next := (x.cycle + 1) % 2 ^ 48
  let t : Tab Nat := if c.mode = 2 then [] else
    c.stations.foldl (fun t e => putBits t e.2.1 8 (next % 256 ^^^ 0x80)) []
  let t := x.out.foldl (fun t e => putBits t e.1 8 e.2) t
  let (s, t) := s.assembleCells r c t
  let t := s.assembleForces r c t
  let area := tabBytes t 0 c.outBytes
  -- the send buffer of the cycle's parity, after the two receive buffers (DESIGN CHOICE, assumption 20)
  let (rxn, txn) := c.bufWords
  let base := c.bufbase + 2 * rxn + txn * (next % 2)
  let (sent, s) := (s.bandPut r base (bytesToWords txn area) false).bandGet r base txn
  let x := s.ring r
  let (mb, n) := if c.mode = 2 ∨ c.mbxmax = 0 then ([], 0) else mbxArea c.mbxmax x.msgs [] 0
  let msgs := (x.msgs.take n).map (fun m => { m with sent := true }) ++ x.msgs.drop n
  let pay := if c.mode = 2 then area else
    area ++ List.replicate 16 0 ++ (if c.mbxmax = 0 then [] else le 4 mb.length ++ mb)
  let blocks := if c.mode = 2 then c.outslots * ceilDiv c.slotlen 256 else c.nblk
  -- a block that includes a poisoned line (R358)
  let step := if c.mode = 2 then ceilDiv c.slotlen 256 else 1
  let bad := (List.range blocks).filter (fun i =>
    let a := if c.mode = 2 then i / step * c.slotlen + i % step * 256 else 256 * i
    let e := if c.mode = 2 then (i / step + 1) * c.slotlen else c.outBytes
    (List.range 64).any (fun k => decide (a + 4 * k < e) && (sent.getD (a / 4 + k) (0, false)).2))
  (s.setRing r { x with
    tx := pay, txBad := bad, msgs := msgs, assembled := true
    trig := x.trigQ.head?, trigQ := x.trigQ.tail }).produce (strBandOut r) blocks

/-! ### Reception (R359, R364) -/

/-- Key of a block of a copy. -/
def rxKey (copy i : Nat) : Nat := copy * 65536 + i

/-- The station positions with bytes in block i of a returned copy (R339, R348). -/
def RingCfg.inBlock (c : RingCfg) (i : Nat) : List Nat :=
  if c.mode = 2 then [i / ceilDiv c.slotlen 256 + 1]
  else ((List.range c.nodes).map (· + 1)).filter (fun p => overlap (c.entry p).2.1 (c.entry p).2.2 (256 * i) 256)

/-- Where block i of a copy lies in the receive buffer of a cycle, and its words there (R351). -/
def RingCfg.rxPlace (c : RingCfg) (cycle i : Nat) : Nat × Nat :=
  let n := c.bufWords.1
  let base := c.bufbase + n * (cycle % 2)
  if c.mode = 2 then
    let k := ceilDiv c.slotlen 256
    (base + i / k * (c.slotlen / 4) + 64 * (i % k), min 64 (c.slotlen / 4 - 64 * (i % k)))
  else (base + 64 * i, min 64 (n - 64 * i))

/-- Are all stations with bytes in a block dropped out, by a verdict over positions: the block is discarded under 0x04 (R360). -/
def RingCfg.allOut (c : RingCfg) (out : Nat → Bool) (i : Nat) : Bool := c.inBlock i != [] && (c.inBlock i).all out

/-- A verified block goes into the receive buffer, unless its stations are dropped out, as far as is known before the window opens
(R359, R360). -/
def State.storeBlock (s : State) (r i : Nat) (pay : List Byte) : State :=
  match (s.ring r).cfg with
  | none => s
  | some c =>
    let (a, n) := c.rxPlace (s.ring r).cycle i
    if n = 0 || c.allOut (fun p => (Tab.get {} (s.ring r).stations p).dropped) i then s
    else s.bandPut r a (bytesToWords n pay) false

/-- One block of a returned frame, number i of the copy and bidx of its frame: stored, or discarded under 0x02 (R359, R360). Nothing is
taken once the cycle's blocks have been counted out. -/
def State.takeBlock (s : State) (r copy i bidx : Nat) (bs : List Byte) (headOk : Bool) : State :=
  let pay := bs.take 256
  let crc := bs.length = 264 && leAt bs 256 4 = crc32Eth pay
  let ok := headOk && crc && (byteAt bs 260) % 2 = 0 && (byteAt bs 260) / 16 % 2 = 0 && byteAt bs 261 = bidx % 256
  let x := s.ring r
  if !x.due || (Tab.get [] x.rx (rxKey copy i)) != [] || Tab.get false x.bad (rxKey copy i) then s
  else if ok then (s.setRing r { x with rx := Tab.put [] x.rx (rxKey copy i) pay }).storeBlock r i pay
  else
    ((s.setRing r { x with
        bad := Tab.put false x.bad (rxKey copy i) true
        crcBad := if headOk && !crc then Tab.put false x.crcBad (rxKey copy i) true else x.crcBad }).drop (strBandIn r) 2 1).setReg (offRing r 5)
      (wd (min ((s.reg (offRing r 5)).toNat + 1) (2 ^ 36 - 1)))

/-- n bytes of a copy's payload from an offset, 0 where a block is missing. -/
def Ring.rxBytes (x : Ring) (copy a n : Nat) : List Byte :=
  (List.range n).map (fun i => (Tab.get [] x.rx (rxKey copy ((a + i) / 256))).getD ((a + i) % 256) 0)

/-- Are all blocks stored that hold any of n bytes from an offset. -/
def Ring.rxHas (x : Ring) (copy a n : Nat) : Bool :=
  (List.range (ceilDiv (a % 256 + n) 256)).all (fun i => Tab.get [] x.rx (rxKey copy (a / 256 + i)) != [])

/-- Blocks of a copy, and where the slot of a position lies in its payload (R339, R348). -/
def RingCfg.slotAt (c : RingCfg) (p : Nat) : Nat := if c.mode = 2 then (p - 1) * (ceilDiv c.slotlen 256 * 256) else (c.entry p).2.1

/-- Bytes of a position's slot: mark word and input area. -/
def RingCfg.slotLen (c : RingCfg) (p : Nat) : Nat := if c.mode = 2 then c.slotlen else (c.entry p).2.2

/-- Has a station marked the cycle in a copy (R341). -/
def Ring.markedIn (x : Ring) (c : RingCfg) (p copy : Nat) : Bool :=
  x.rxHas copy (c.slotAt p) (c.slotLen p) && byteAt (x.rxBytes copy (c.slotAt p) 1) 0 = x.cycle % 256

/-- The copies of this cycle's band, in the order in which the device takes slot bytes (R364, R365). -/
def Ring.copies (x : Ring) : List Nat := if x.loop then [1, 2] else [0]

/-- The copy from which a station's slot is taken, if it has marked. -/
def Ring.markCopy (x : Ring) (c : RingCfg) (p : Nat) : Option Nat := x.copies.find? (fun k => x.markedIn c p k)

/-- The slot bytes of a station that has marked. -/
def Ring.slotBytes (x : Ring) (c : RingCfg) (p copy : Nat) : List Byte := x.rxBytes copy (c.slotAt p) (c.slotLen p)

/-- Blocks that a copy brings back. -/
def RingCfg.rxBlocks (c : RingCfg) : Nat := if c.mode = 2 then c.nodes * ceilDiv c.slotlen 256 else c.nblk

/-! ### Messages (R347) -/

/-- Queue an outgoing message on ring r: counted produced. -/
def State.mbxSend (s : State) (r dst src : Nat) (data : List Byte) : State :=
  let x := s.ring r
  let n := Tab.get 0 x.seqs src
  (s.setRing r { x with
    msgs := x.msgs ++ [{ dst := dst, src := src, seq := n, data := data }], seqs := Tab.put 0 x.seqs src ((n + 1) % 256) }).produce
    (strMbx r) 1

/-- DLY_p and DLYB_p in ps (R371). -/
def Ring.delays (x : Ring) (n p : Nat) : Int × Int :=
  if !x.swept then (0, 0)
  else
    (6400 + Tab.get 0 x.links 0 + ((List.range (p - 1)).map (fun i => Tab.get 0 x.fwd (i + 1) + Tab.get 0 x.links (i + 1))).sum,
     6400 + Tab.get 0 x.links n
       + ((List.range (n - p)).map (fun i => Tab.get 0 x.rev (p + 1 + i) + Tab.get 0 x.links (p + i))).sum)

/-- What pair 0 tells a node of its ring, cut to what an entry may hold; the manual gives its messages no form (R355, R371)
(see assumption 35, DEDUCED). -/
def State.mbxNews (s : State) (r : Nat) (c : RingCfg) (addr : Nat) (v : List Int) : State :=
  let room := match (s.ring r).cfg with
    | some d => if (s.ring r).run then min c.mbxmax d.mbxmax else c.mbxmax
    | none => c.mbxmax
  if room < 12 then s else s.mbxSend r addr c.master ((Config.nodeNews v).take (room - 12))

/-- A message for a station: its ring by the VALID entry of its segment in the route table of any ring of this device; the device's own
segments have their entries as others do (R332, R353, R564). -/
def State.routeOf (s : State) (dst : Nat) : Option Nat :=
  let seg := dst / 256 % 64
  let rt (r : Nat) : Option Nat := (s.ring r).cfg.bind fun c =>
    let w := c.routes.getD seg 0
    if !bit w 35 then none
    else if fld w 34 33 = 2 then (if (s.ring 0).parent then some 0 else if (s.ring 1).parent then some 1 else none)
    else some (fld w 32 32)
  (rt 0).orElse (fun _ => rt 1)

/-- A message that arrived for this device goes into the next buffer that MBXRECV gave (USE 5), else it is kept by no one
(see assumption 35, DEDUCED). -/
def State.mbxDeliver (s : State) (m : MbxMsg) : State :=
  match s.mbxBufs with
  | [] => s
  | b :: rest =>
    let ws := [wd m.src, wd m.data.length] ++ bytesToWords (ceilDiv m.data.length 4) m.data
    ({ s with mbxBufs := rest }).fillBuf b ws 5 1

/-- A mailbox entry at the head of some bytes, with its KIND (R346). -/
def mbxEntry (bs : List Byte) : MbxMsg :=
  { dst := leAt bs 0 2 % 2 ^ 14, src := leAt bs 2 2 % 2 ^ 14, seq := byteAt bs 6, data := (bs.drop 8).take (leAt bs 4 2), kind := byteAt bs 7 }

/-- Entries of a mailbox area from one byte of it on, each with its place, while they end by the fill. -/
def mbxWalk (area : List Byte) (fill : Nat) : Nat → Nat → List (Nat × MbxMsg)
  | 0, _ => []
  | fuel + 1, pos =>
    let bs := area.drop pos
    let n := 8 + 4 * ceilDiv (leAt bs 4 2) 4
    if 4 + fill < pos + n ∨ area.length < pos + n then [] else (pos, mbxEntry bs) :: mbxWalk area fill fuel (pos + n)

/-- All entries of a mailbox area. -/
def mbxEntries (area : List Byte) : List (Nat × MbxMsg) := mbxWalk area (leAt area 0 2) 128 4

/-- An entry that a node appended: delivered here or sent on along the route table (R347). -/
def State.mbxAppended (s : State) (r : Nat) (m : MbxMsg) : State :=
  let x := s.ring r
  let key := m.seq + 256 * 1 + 1
  if Tab.get 0 x.taken m.src = key then s
  else
    let s := (s.setRing r { x with taken := Tab.put 0 x.taken m.src key }).produce (strMbx r) 1
    let own := (x.cfg.map RingCfg.master).getD 0
    if m.dst = own ∨ ((s.ring (1 - r)).cfg.map RingCfg.master) = some m.dst then (s.deliver (strMbx r) 1).mbxDeliver m
    else match s.routeOf m.dst with
      | some q => (s.deliver (strMbx r) 1).mbxSend q m.dst m.src m.data
      | none => s.drop (strMbx r) 4 1

/-- An acknowledgement arrives: the entry of that source and sequence number is delivered (R350). -/
def State.mbxAcked (s : State) (r : Nat) (m : MbxMsg) : State :=
  let x := s.ring r
  let hit (y : MbxMsg) : Bool := y.seq % 256 = m.seq && y.src = m.src
  if x.msgs.any hit then
    (s.setRing r { x with msgs := x.msgs.filter (fun y => !hit y) }).deliver (strMbx r) (x.msgs.filter hit).length
  else s

/-- The places in the mailbox area of the messages that lie in the band (R347). -/
def mbxPlaces : Nat → List MbxMsg → List (Nat × MbxMsg)
  | _, [] => []
  | pos, m :: r => if m.sent then (pos, m) :: mbxPlaces (pos + m.bytes.length) r else mbxPlaces pos r

/-- The entries that nodes appended to a copy, each in verified blocks, from one place on (R347). -/
def Ring.appended (x : Ring) (c : RingCfg) (copy : Nat) : Nat → Nat → List MbxMsg
  | 0, _ => []
  | fuel + 1, pos =>
    let a := c.cycbytes + 16
    let bs := x.rxBytes copy (a + pos) (c.mbxmax - pos)
    let n := 8 + 4 * ceilDiv (leAt bs 4 2) 4
    if !x.rxHas copy a 4 || decide (4 + leAt (x.rxBytes copy a 4) 0 2 < pos + 8) || !x.rxHas copy (a + pos) 8
        || decide (c.mbxmax < pos + n) then []
    else (if x.rxHas copy (a + pos) n then [mbxEntry bs] else []) ++ Ring.appended x c copy fuel (pos + n)

/-- The mailbox area of a returned copy (R347), each entry by the blocks that hold it: consumed messages are delivered, others are sent
again, and those to a dropped station are dropped (see assumption 35, DEDUCED). -/
def State.mbxReturn (s : State) (r : Nat) (c : RingCfg) : State :=
  let x := s.ring r
  let a := c.cycbytes + 16
  let out := mbxPlaces 4 x.msgs
  let own := (x.msgs.filter (·.sent)).foldl (fun n m => n + m.bytes.length) 4
  let copies := if c.mode != 1 || c.mbxmax = 0 then [] else x.copies
  let consumed (e : Nat × MbxMsg) : Bool := copies.any (fun k =>
    x.rxHas k (a + e.1) e.2.bytes.length && byteAt (x.rxBytes k (a + e.1) 8) 7 = 2)
  let fin := (out.filter consumed).map Prod.snd
  let gone (m : MbxMsg) : Bool := match s.posOf r m.dst with
    | some p => (s.station r p).dropped
    | none => false
  let left := x.msgs.filter (fun m => !fin.contains m)
  let lost := left.filter gone
  let keep := (left.filter (fun m => !gone m)).map (fun m => { m with sent := false })
  let s := ((s.setRing r { x with msgs := keep }).deliver (strMbx r) fin.length).drop (strMbx r) 4 lost.length
  (copies.flatMap (fun k => x.appended c k 128 own)).foldl (fun s m => if m.kind = 1 then s.mbxAppended r m else s) s

end Sys2Proof.Machine
end

