-- ==== Sys2Proof/Machine/CellStore.lean ====
section
/-! DEFINITION. The one store and the one read of a cell register by its offset (R15, R17, R175, R251): tiles, the Crown, lanes and
images all come here. -/

namespace Sys2Proof.Machine

/-- Store a word into a cell register by the register's own rules. -/
def State.storeCell (s : State) (o : Nat) (v : Word) : State :=
  if 0x3000 ≤ o ∧ o < 0x3180 then s.pwmStore ((o - 0x3000) / 16) (o % 16) v
  else if 0x3200 ≤ o ∧ o < 0x3220 then s.tripStore ((o - 0x3200) / 4) (o % 4) v
  else if 0x3400 ≤ o ∧ o < 0x3480 then s.chopStore ((o - 0x3400) / 8) (o % 8) v
  else if 0x3480 ≤ o ∧ o < 0x3490 then (if o % 2 = 0 then s.chopperStore ((o - 0x3480) / 2) v else s)
  else if 0x4000 ≤ o ∧ o < 0x4080 then s.stepStore ((o - 0x4000) / 8) (o % 8) v
  else if 0x4080 ≤ o ∧ o < 0x4090 then s.stepOutStore (o - 0x4080) v
  else if 0x5000 ≤ o ∧ o < 0x5100 then s.convStore ((o - 0x5000) / 16) (o % 16) v
  else if 0x5400 ≤ o ∧ o < 0x5600 then s.ainStore ((o - 0x5400) / 8) (o % 8) v
  else if 0x6000 ≤ o ∧ o < 0x6100 then s.finStore ((o - 0x6000) / 8) (o % 8) v
  else if 0x6100 ≤ o ∧ o < 0x6140 then s.foutStore ((o - 0x6100) / 4) (o % 4) v
  else if 0x6400 ≤ o ∧ o < 0x6480 then s.encStore ((o - 0x6400) / 8) (o % 8) v
  else if 0xA000 ≤ o ∧ o < 0xC000 then s.slotStore ((o - 0xA000) / 0x1000) (o % 0x1000 / 4) (o % 4) v
  else if 0xC000 ≤ o ∧ o < 0xE000 then s.canStore ((o - 0xC000) / 0x800) (o % 0x800) v
  else s

/-- Does a cell register's rule refuse a word: DECAY 3 and MODE 3 (R413, R446, R615). -/
def cellRefuses (o : Nat) (v : Word) : Bool :=
  fld v 34 33 = 3 && ((0x3400 ≤ o && o < 0x3480 && o % 8 = 0) || (0x6400 ≤ o && o < 0x6480 && o % 8 = 0))

/-- What a cell register reads; none for an offset of no cell. -/
def State.readCell (s : State) (o : Nat) : Option Word :=
  if 0x3000 ≤ o ∧ o < 0x3180 then some (s.pwmWord ((o - 0x3000) / 16) (o % 16))
  else if 0x3200 ≤ o ∧ o < 0x3220 then some (s.reg o)
  else if 0x3400 ≤ o ∧ o < 0x3480 then some (s.chopWord ((o - 0x3400) / 8) (o % 8))
  else if 0x3480 ≤ o ∧ o < 0x3490 then some (s.reg o)
  else if 0x4000 ≤ o ∧ o < 0x4090 then some (s.reg o)
  else if 0x5000 ≤ o ∧ o < 0x5100 then some (s.convWord ((o - 0x5000) / 16) (o % 16))
  else if 0x5400 ≤ o ∧ o < 0x5600 then some (s.reg o)
  else if 0x6000 ≤ o ∧ o < 0x6100 then some (s.finWord ((o - 0x6000) / 8) (o % 8))
  else if 0x6100 ≤ o ∧ o < 0x6140 then some (s.foutWord ((o - 0x6100) / 4) (o % 4))
  else if 0x6400 ≤ o ∧ o < 0x6480 then some (s.reg o)
  else if 0xA000 ≤ o ∧ o < 0xC000 then some (s.reg o)
  else if 0xC000 ≤ o ∧ o < 0xE000 then some (s.canWord ((o - 0xC000) / 0x800) (o % 0x800))
  else none

/-- Fields of a cell register that a read clears (RC of R15): the new word, or none where a read clears nothing. -/
def State.cellClear (s : State) (o : Nat) : State :=
  let low (o : Nat) : State := s.setRfld o 17 0 0
  if 0x3000 ≤ o ∧ o < 0x3180 then (if o % 16 = 11 then s.setReg o 0 else s)
  else if 0x3200 ≤ o ∧ o < 0x3220 then (if o % 4 = 2 then low o else s)
  else if 0x3400 ≤ o ∧ o < 0x3480 then (if o % 8 = 5 then low o else s)
  else if 0x4000 ≤ o ∧ o < 0x4080 then (if o % 8 = 4 then s.setReg o 0 else s)
  else if 0x5000 ≤ o ∧ o < 0x5100 then (if o % 16 = 6 then s.setReg o 0 else s)
  else if 0x6000 ≤ o ∧ o < 0x6100 then (if o % 8 = 1 then low o else s)
  else if 0x6100 ≤ o ∧ o < 0x6140 then (if o % 4 = 1 then low o else s)
  else if 0x6400 ≤ o ∧ o < 0x6480 then (if o % 8 = 5 then low o else s)
  else if 0xA000 ≤ o ∧ o < 0xC000 then (if o % 4 = 2 then s.setRfld o 18 0 0 else s)
  else if 0xC000 ≤ o ∧ o < 0xE000 then
    (if o % 0x800 = 4 ∨ o % 0x800 = 5 ∨ o % 0x800 = 11 then s.setReg o 0 else s)
  else s

end Sys2Proof.Machine
end

