-- ==== Sys2Proof/Machine/RegFile.lean ====
section
/-! DEFINITION. Reading a system register: what each offset shows, which offsets exist, and the fields a read clears. -/

namespace Sys2Proof.Machine

/-- Ranges of offsets in use: first and last (R58: every other offset of the register range is unmapped). -/
def regRanges : List (Nat × Nat) :=
  [(0x0, 0x8), (0x10, 0x16), (0x19, 0x1D), (0x40, 0x42), (0x50, 0x56), (0x60, 0x65), (0x70, 0x70), (0x80, 0x87),
   (0x90, 0x93), (0x98, 0x9F), (0xA0, 0xA3), (0xB0, 0xBF), (0xC0, 0xCB), (0xD0, 0xD6), (0xE0, 0xE5), (0xF0, 0xF5),
   (0x100, 0x1FF)]
  ++ (List.range 4).map (fun k => (0x200 + 0x80 * k, 0x200 + 0x80 * k + 65))
  ++ [(0x1000, 0x143F), (0x1440, 0x144F), (0x1480, 0x14BF), (0x3000, 0x317F), (0x3200, 0x321F), (0x3400, 0x348F),
   (0x4000, 0x408F), (0x4200, 0x427F), (0x5000, 0x50FF), (0x5400, 0x55FF), (0x5600, 0x5600), (0x5800, 0x59FF),
   (0x6000, 0x60FF), (0x6100, 0x613F), (0x6200, 0x6201), (0x6400, 0x647F), (0x7000, 0x71FF), (0x7200, 0x7209),
   (0xA000, 0xBFFF)]
  ++ (List.range 4).map (fun p => (0xC000 + 0x800 * p, 0xC000 + 0x800 * p + 0x5FF))

/-- Is an offset in use (see assumption 7, DEDUCED). -/
def regMapped (o : Nat) : Bool := regRanges.any (fun r => r.1 ≤ o && o ≤ r.2)

/-- Word 0 of the registers of capture unit u (R479): PREHELD counts the stored samples held before a trigger. -/
def State.capWord0 (s : State) (u : Nat) : Word :=
  let x := s.cap u
  let pre := fld (x.w 9) 35 18
  wd (at_ x.st 34 + at_ (b2n (x.primedRise || x.primedFall)) 33 + at_ (b2n x.held.isSome) 32
    + (if x.st = 1 then min (min x.samples.length pre) 8191 else 0))

/-- Whole seconds of the confirmation window that have been spent: it runs from the end of BOOT (R586). -/
def State.windowUsed (s : State) : Nat :=
  s.store.spent + (if s.mode = 1 then 0 else (s.cc - s.store.spentAt) / 400000000)

/-- TIME.DISC (R375): SINCE counts the cycle periods of the parent ring since the last aligned band. -/
def State.timeDisc (s : State) : Word :=
  let w := s.reg offTimeDisc
  if s.rfld offTimeStat 1 0 < 2 then w
  else
    let x := if (s.ring 0).alignLen != 0 then s.ring 0 else s.ring 1
    setFld w 34 27 (if x.alignLen = 0 then 255 else min 255 ((s.cc - x.alignAt) / x.alignLen))

/-- The word that a read of the register at an offset returns. -/
def State.regRead (s : State) (o : Nat) : Word :=
  if o = offBlevel then setFld (s.reg o) 23 16 Config.native
  else if o = offForceStat then s.forceStat
  else if o = offMemStat then
    wd (at_ s.spareFree 1 + b2n (s.mem.spares0 = 32768 || s.mem.spares1 = 32768))
  else if o = offBrim 5 then 0
  else if o = offTimeDisc then s.timeDisc
  else if o = offUpd 0 then
    if bit (s.reg offSysMode) 5 then setFld (s.reg o) 15 0 (s.store.window - s.windowUsed) else s.reg o
  else if 0xB0 ≤ o ∧ o < 0xC0 then s.ringWord ((o - 0xB0) / 8) (o % 8)
  else if o = offRingFault 0 2 then wd (s.droppedCount 0)
  else if o = offRingFault 1 2 then wd (s.droppedCount 1)
  else if 0x100 ≤ o ∧ o < 0x200 then s.coordWord ((o - 0x100) / 8) (o % 8)
  else if 0x1000 ≤ o ∧ o < 0x1400 then (s.task (o - 0x1000)).stat
  else if 0x1440 ≤ o ∧ o < 0x1450 ∧ o % 4 = 0 then
    let q := (o - 0x1440) / 4
    wd (at_ (s.readyCount q) 17 + at_ (s.takingCount q) 12 + s.sched.tick % 16)
  else if 0x1480 ≤ o ∧ o < 0x14C0 then (s.task (1024 + (o - 0x1480))).stat
  else if 0x4200 ≤ o ∧ o < 0x4280 then (s.agroup ((o - 0x4200) / 4)).word (o % 4)
  else if 0x7000 ≤ o ∧ o < 0x7200 ∧ o % 32 = 0 then s.capWord0 ((o - 0x7000) / 32)
  else (s.readCell o).getD (s.reg o)

/-- What a read clears (RC of R15): the registers whose fields are RC. -/
def State.regClear (s : State) (o : Nat) : State :=
  if 0x98 ≤ o ∧ o < 0xA0 then s.setReg o 0
  else if o = 0x83 then s.setReg o 0
  else if 0xB0 ≤ o ∧ o < 0xC0 then (if o % 8 = 4 ∨ o % 8 = 5 then s.setReg o 0 else s)
  else if o = offFieldStat then s.setRfld o 17 0 0
  else if o = offRingFault 0 1 ∨ o = offRingFault 1 1 ∨ o = offTrigStat then s.setReg o 0
  else if 0x100 ≤ o ∧ o < 0x200 ∧ o % 8 = 7 then
    let c := (o - 0x100) / 8
    { s with coords := Tab.put {} s.coords c { s.coord c with corrmax := 0 } }
  else if 0x7000 ≤ o ∧ o < 0x7200 then (if o % 32 = 2 ∨ o % 32 = 3 then s.setReg o 0 else s)
  else s.cellClear o

end Sys2Proof.Machine
end

