-- ==== Sys2Proof/Machine/Operands.lean ====
section
/-! DEFINITION. Operand forms of the instructions: encodings of the five formats for the fault record, effective addresses,
what a core may address, its memory accesses, and the frame in which every instruction runs. -/

namespace Sys2Proof.Machine

/-! ### Instruction words (R111) -/

/-- Word of a register-format instruction. -/
def encR (op : Nat) (f : RF) : Word :=
  wd (at_ op 28 + at_ f.d.toNat 24 + at_ f.a.toNat 20 + at_ f.b.toNat 16 + f.fn.toNat)
/-- Word of an immediate-format instruction. -/
def encI (op : Nat) (f : IF) : Word := wd (at_ op 28 + at_ f.d.toNat 24 + at_ f.a.toNat 20 + f.imm.toNat)
/-- Word of a memory-format instruction. -/
def encM (op : Nat) (f : MF) : Word := wd (at_ op 28 + at_ f.d.toNat 24 + at_ f.base.toNat 20 + f.off.toNat)
/-- Word of a jump-format instruction. -/
def encJ (op : Nat) (f : JF) : Word := wd (at_ op 28 + at_ f.cond.toNat 24 + f.off.toNat)
/-- Word of a cell/system-format instruction. -/
def encC (op : Nat) (f : CF) : Word := wd (at_ op 28 + at_ f.d.toNat 24 + at_ f.a.toNat 20 + f.sel.toNat)
/-- Word of an R/I row: the immediate form has the next opcode (R157). -/
def encRI (op : Nat) : RIF → Word
  | .r f => encR op f
  | .i f => encI (op + 1) f

/-! ### Outcomes of an instruction body -/

/-- How an instruction goes on: at the next address, at a target, with its run ended, or in a fault. -/
inductive Res where
  | next (s : State)
  | jump (pc : Word) (s : State)
  | left (s : State)
  | flt (code : Nat) (addr : Word) (s : State)

/-- Is an address in the code region of a core (R114, R136, R616). -/
def inCode (k a : Nat) : Bool :=
  if k < 64 then a < 0xE000 else if k = 64 then a < 56 else Config.crownBase ≤ a && a < Config.crownEnd

/-- The poison of the instruction word at the pc (R66) (see assumption 10, DESIGN CHOICE). -/
def State.fetchPoison (s : State) (k a : Nat) : Bool × State :=
  if k ≤ 64 then let (_, p, s) := s.locRead k a; (p, s)
  else let s := s.decode (a / 8); (s.poisoned a, s)

/-- Count an instruction of a PROGRAM request; after 10,000 it ends with STATUS 7 (R616). -/
def State.programCount (s : State) (k : Nat) : State :=
  match s.host.prog with
  | none => s
  | some p =>
    if k != 64 then s
    else if p.count + 1 < 10000 then
      { s with host := { s.host with prog := some { p with count := p.count + 1 } } }
    else State.setCore ({ s with host := { s.host with prog := none } }.respond 0x01 7 p.tag []) 64 {}

/-- Does core k have an instruction stream to run: a granted task or a PROGRAM request, not HALT, and no journal instruction
that waits for the standby or for the end of hold-up (R167, R208, R321, R322, R616) (see assumption 10, DESIGN CHOICE). -/
def State.runs (s : State) (k : Nat) : Bool :=
  s.mode != 7 && !(s.core k).stalled && !s.mirror.any (fun m => m.core = k) && (if k = 64 then s.host.prog.isSome else
    match (s.core k).task with
    | none => false
    | some n => (s.task n).st = .running)

/-! ### Addresses (R112, R116, R124, R136, R616) -/

/-- The base value of a memory format (R112). -/
def State.baseOf (s : State) (k b : Nat) : Word :=
  let c := s.core k
  if b < 12 then Tab.get 0 c.g b else if b = 12 then c.ib else if b = 13 then c.sb else if b = 14 then c.sp else c.pc

/-- The effective address (R112). -/
def State.ea (s : State) (k : Nat) (f : MF) : Word := s.baseOf k f.base.toNat + f.off.signExtend 36

/-- What an access finds: it may go on, it raises fault 0x08, or it is a Crown access to an unmapped address (R58). -/
inductive Acc where
  | ok | fault | refused
  deriving DecidableEq, Repr

/-- Does window i of a task descriptor cover an address with the wanted permission (R116, R198)
(see assumption 7, DEDUCED). -/
def windowOk (d : List Word) (wr : Bool) (a i : Nat) : Bool :=
  let base := (d.getD (8 + 2 * i) 0).toNat
  let w := d.getD (9 + 2 * i) 0
  base ≤ a && a < base + fld w 31 0 && (!wr || bit w 35)

/-- Is an address in the system register range. -/
def inRegs (a : Nat) : Bool := Config.sysBase ≤ a && a < Config.sysEnd

/-- The journal region (R308): no task's access reaches it, not by a window (R310) and not from Crown pair 1, which reads the
journal through JQUERY alone (see assumption 51, DEDUCED). -/
def inJournal (a : Nat) : Bool := 0x2720000 ≤ a && a < 0x2730000

/-- The image tables, which no task writes (R215). -/
def inImages (a : Nat) : Bool := 0x2700000 ≤ a && a < 0x2701000

/-- May core k access an address: wr for a write, regs when the instruction may read system registers (LD, LDD)
(see assumption 7, DEDUCED; see assumption 12, DESIGN CHOICE). -/
def State.access (s : State) (k : Nat) (wr regs : Bool) (a : Nat) : Acc :=
  if k < 64 then
    if a < 0x10000 then (if wr && a < 0xE000 then .fault else .ok)
    else if inRegs a then (if regs && !wr && regMapped (a - Config.sysBase) then .ok else .fault)
    else
      let d := match (s.core k).task with
        | some n => (s.task n).desc
        | none => []
      if (targetOf a).isSome
          && (windowOk d wr a 0 || windowOk d wr a 1 || windowOk d wr a 2 || windowOk d wr a 3) then .ok else .fault
  else
    let own := k = 64 && ((!wr && a < 56) || (0xFC00 ≤ a && a < 0x10000))
    if own then .ok
    else if inRegs a then
      if !regMapped (a - Config.sysBase) then .refused else if wr || !regs then .fault else .ok
    else
      match targetOf a with
      | none => if k = 64 && wr && a < 56 then .fault else .refused
      | some _ =>
        if k = 65 && (inJournal a || (wr && inImages a)) then .fault
        else if k = 64 && wr && !(Config.hostArea ≤ a && a < Config.hostArea + 0x1000000) then .fault else .ok

/-- Access to n words from an address: the worst finding (see assumption 7, DEDUCED). -/
def State.accessN (s : State) (k : Nat) (wr regs : Bool) (a : Word) (n : Nat) : Acc :=
  let xs := (List.range n).map (fun i => s.access k wr regs (a + wd i).toNat)
  if xs.contains .fault then .fault else if xs.contains .refused then .refused else .ok

/-- Is a target reached without the spine: a tile's own quadrant (R19), Crown memory from the Crown (R136). -/
def directPath (k t : Nat) : Bool := if k < 64 then t = k / 16 else t = 4

/-- Port of a core's spine requests (R23). -/
def corePort (k : Nat) : Nat := if k < 64 then k / 16 else 4

/-- The core's ninth transaction, a load, a CAS or a posted store, waits until a tag returns (R118). -/
def State.slot (s : State) (k : Nat) : State := if 8 ≤ s.outstanding k then s.fence k else s

/-- Read n words that lie in one line, after the access check: the words, whether poison was consumed, the state. -/
def State.readIn (s : State) (k a n : Nat) : List Word × Bool × State :=
  if a < 0x10000 then
    let (w, p, s) := s.locRead k a
    if n = 1 then ([w], p, s)
    else (List.range (n - 1)).foldl (fun (acc : List Word × Bool × State) i =>
      let (w', p', s') := acc.2.2.locRead k (a + 1 + i)
      (acc.1 ++ [w'], acc.2.1 || p', s')) ([w], p, s)
  else if inRegs a then
    (List.range n).foldl (fun (acc : List Word × Bool × State) i =>
      let o := a + i - Config.sysBase
      (acc.1 ++ [acc.2.2.regRead o], acc.2.1, acc.2.2.regClear o)) ([], false, s)
  else
    match targetOf a with
    | none => (List.replicate n 0, false, s)
    | some t =>
      if directPath k t then
        let s := s.decode (a / 8)
        (s.words a n, s.poisoned a, s)
      else
        let (ws, p, s) := (s.slot k).transact (SpineReq.mk 0 (corePort k) 2 k t (a / 8) .read (maskOf (a % 8) n) [] false 0)
        ((List.range n).map (fun i => ws.getD (a % 8 + i) 0), p, s)

/-- Read n words from an address, line by line. -/
def State.readN (k : Nat) : Nat → State → Nat → Nat → List Word × Bool × State
  | 0, s, _, _ => ([], false, s)
  | fuel + 1, s, a, n =>
    if n = 0 then ([], false, s)
    else
      let m := min (8 - a % 8) n
      let (ws, p, s) := s.readIn k a m
      let (ws', p', s) := State.readN k fuel s (a + m) (n - m)
      (ws ++ ws', p || p', s)

/-- Write words that lie in one line, after the access check; spine writes are posted (R118). -/
def State.writeIn (s : State) (k a : Nat) (ws : List Word) : State :=
  if a < 0x10000 then s.locWrites k a ws
  else
    match targetOf a with
    | none => s
    | some t =>
      let mask := maskOf (a % 8) ws.length
      let data := List.replicate (a % 8) 0 ++ ws
      if directPath k t then s.lineWrite (a / 8) mask data false 1
      else
        ((s.slot k).issue (SpineReq.mk 0 (corePort k) 2 k t (a / 8) .write mask data false 0)).2

/-- Write words from an address, line by line. -/
def State.writeN (k : Nat) : Nat → State → Nat → List Word → State
  | 0, s, _, _ => s
  | fuel + 1, s, a, ws =>
    if ws.isEmpty then s
    else
      let m := min (8 - a % 8) ws.length
      State.writeN k fuel (s.writeIn k a (ws.take m)) (a + m) (ws.drop m)

/-- Read n words for an instruction that consumes them: fault 0x08 or 0x02 with the effective address, a refusal that
leaves zeros (R58), or the words. -/
def consume (s : State) (k : Nat) (regs : Bool) (a : Word) (n : Nat) (f : List Word → State → Res) : Res :=
  match s.accessN k false regs a n with
  | .fault => .flt 0x08 a s
  | .refused => f (List.replicate n 0) (s.refuse k 4)
  | .ok =>
    let (ws, p, s) := State.readN k n s a.toNat n
    if p then .flt 0x02 a s else f ws s

/-- Store words for an instruction: fault 0x08, a refused Crown access that writes nothing, or the stores. -/
def emit (s : State) (k : Nat) (a : Word) (ws : List Word) (f : State → Res) : Res :=
  match s.accessN k true false a ws.length with
  | .fault => .flt 0x08 a s
  | .refused => f (s.refuse k 4)
  | .ok => f (State.writeN k ws.length s a.toNat ws)

/-- Does an SP value satisfy R124 for core k. -/
def State.spOk (s : State) (k : Nat) (sp : Int) : Bool :=
  decide ((s.core k).stackLimit ≤ sp) && decide (sp ≤ (s.core k).stackTop)

/-! ### The end of an instruction, and the requests of compared twins (R141, R544) -/

/-- Does an instruction leave its tile as a request that twins share (R544): POST, cell, time, cue, lane, motion, journal and
recording instructions. IMGIN and IMGOUT have their own rule. -/
def leavesTile (w : Word) : Bool :=
  let op := fld w 35 28
  op = 0x6C || (0x72 ≤ op && op < 0xA0)

/-- The effective address of the memory-format instruction w (R112). -/
def State.eaOf (s : State) (k : Nat) (w : Word) : Word := s.baseOf k (fld w 23 20) + (w.setWidth 20).signExtend 36

/-- Is instruction w a load of system registers, which lie outside a twin's windows (R544)? -/
def State.loadsRegs (s : State) (k : Nat) (w : Word) : Bool :=
  let n := if fld w 35 28 = 1 then 1 else if fld w 35 28 = 3 then 2 else 0
  n != 0 && inRegs (s.eaOf k w).toNat && s.accessN k false true (s.eaOf k w) n = .ok

/-- The words at a core's address, as its compare unit sees them. -/
def State.seenWords (s : State) (k : Nat) (a : Word) (n : Nat) : List Word :=
  (List.range n).map (fun i =>
    let b := (a + wd i).toNat
    if b < 0x10000 then s.locWord k b else s.word b)

/-- The operand values of a request that leaves its tile (R544): the registers it reads, and for a block that it reads the block's words,
for each twin has its own windows (see assumption 39, DEDUCED). -/
def State.twinValues (s : State) (k : Nat) (w : Word) : List Word :=
  let op := fld w 35 28
  let d := s.g k (fld w 27 24)
  let a := s.g k (fld w 23 20)
  let b := s.g k (fld w 19 16)
  let cue := if bit w 19 then [d] else []
  match op with
  | 0x01 => [s.eaOf k w]
  | 0x03 => [s.eaOf k w]
  | 0x6C => [a, b]
  | 0x72 => [a]
  | 0x73 => [d, a]
  | 0x7A => cue ++ s.seenWords k a 4
  | 0x7B => cue
  | 0x80 => a :: s.seenWords k d 64
  | 0x81 => [d, a]
  | 0x82 => [d, a]
  | 0x83 => if fld w 17 16 = 0 then s.seenWords k a (1 + 2 * min 64 ((s.seenWords k a 1).getD 0 0).toNat) else []
  | 0x84 => [a]
  | 0x88 => d :: s.seenWords k a 6
  | 0x89 => if fld w 7 0 = 1 then d :: s.seenWords k a 16 else if fld w 7 0 = 8 then d :: s.seenWords k a 2 else [d, a]
  | 0x8A => [a]
  | 0x90 => [a]
  | 0x91 => [a, b]
  | 0x92 => [a]
  | 0x98 => [d]
  | 0x99 => s.seenWords k a 16
  | _ => []

/-- What a request wrote to a core: the general registers that changed, FL and ERRC. -/
def twinResult (w : Word) (vals block : List Word) (a b : Core) : TwinDone :=
  { word := w, vals := vals, block := block, fl := b.fl, errc := b.errc
    regs := (List.range 16).filterMap (fun i =>
      let x := Tab.get 0 b.g i
      if Tab.get 0 a.g i = x then none else some (i, x)) }

/-- The end of an instruction of core k that falls through or jumps. -/
def State.advance (s : State) (k : Nat) (pc : Word) : State :=
  ((s.setCore k { s.core k with pc := pc }).programCount k).watchdogBoundary k

/-- The twins of compare table entry e. -/
def State.twin (s : State) (e : Nat) : Twin := Tab.get {} s.twins e

/-- Replace them. -/
def State.setTwin (s : State) (e : Nat) (x : Twin) : State := { s with twins := Tab.put {} s.twins e x }

/-- The compare table entry of the task that core k runs, and whether it is the secondary twin. -/
def State.twinRole (s : State) (k : Nat) : Option (Nat × Bool) :=
  if k < 64 then
    match (s.core k).task with
    | some n => (s.twinOf n).map (fun t => (t.1, t.2.1))
    | none => none
  else none

/-- A request of core k stores a block at its Ga: where k is the primary twin the secondary receives it too (R544). -/
def State.twinBlock (s : State) (k : Nat) (ws : List Word) : State :=
  match s.twinRole k with
  | some (e, false) => s.setTwin e { s.twin e with block := ws }
  | _ => s

/-- The secondary twin on core k receives a result and goes on: a block is stored at the address in its own Ga, and a fault is its own too
(see assumption 39, DEDUCED). -/
def State.twinReceive (s : State) (k : Nat) (d : TwinDone) : State :=
  let c := s.core k
  let a := s.g k (fld d.word 23 20)
  match d.flt with
  | some (code, addr) => s.takeFault k code addr d.word
  | none =>
    if d.block != [] && s.accessN k true false a d.block.length != .ok then s.takeFault k 0x08 a d.word
    else
      let s := if d.block = [] then s else State.writeN k d.block.length s a.toNat d.block
      State.advance (s.setCore k { s.core k with
        g := d.regs.foldl (fun g e => Tab.put 0 g e.1 e.2) c.g
        fl := d.fl, errc := d.errc }) k (c.pc + 1)

/-- A request of the primary twin has been executed: the secondary receives its result, now or when it issues it (R544)
(see assumption 39, DEDUCED). -/
def State.twinShare (s : State) (e : Nat) (d : TwinDone) : State :=
  let t := { s.twin e with block := [] }
  match t.waiting with
  | some (true, k, w, v) =>
    if w = d.word ∧ v = d.vals then (s.setTwin e { t with waiting := none }).twinReceive k d
    else s.setTwin e { t with done := t.done ++ [d] }
  | _ => s.setTwin e { t with done := t.done ++ [d] }

/-- The secondary twin on core k issues a request: it takes the result of the primary's, or waits for it (R544). A request that
matches none in instruction word and operand values waits until the compare failure is declared (see assumption 39, DEDUCED). -/
def State.twinWait (s : State) (e k : Nat) (w : Word) : State :=
  let t := s.twin e
  let v := s.twinValues k w
  match t.done with
  | [] => s.setTwin e { t with waiting := some (true, k, w, v) }
  | d :: r => if d.word = w ∧ d.vals = v then (s.setTwin e { t with done := r }).twinReceive k d else s

/-- The body of an instruction has ended (R141, R544): `twin` is the compare table entry of a primary twin's request, with its operand
values. -/
def finishInstr (k : Nat) (w pc : Word) (twin : Option (Nat × List Word)) (before : Core) (r : Res) : State :=
  match r with
  | .next t =>
    let t := match twin with
      | some (e, v) => t.twinShare e (twinResult w v (t.twin e).block before (t.core k))
      | none => t
    t.advance k (pc + 1)
  | .jump a t => t.advance k a
  | .left t => t
  | .flt code addr t =>
    let t := match twin with
      | some (e, v) => t.twinShare e { twinResult w v [] before before with flt := some (code, addr) }
      | none => t
    t.takeFault k code addr w

/-- The frame of every instruction: core k fetches its word w; `bad` is a field that must be zero and is not, or another
cause of fault 0x06 that needs no state; then the body runs. A core that runs no task issues no instruction
(see assumption 10, DESIGN CHOICE). -/
def runInstr (c : CoreId) (w : Word) (bad : Bool) (body : Nat → State → Res) (s : State) :
    Host.Outcome State Fault Refusal :=
  let k := coreKey c
  if !s.runs k then .next s
  else
    let pc := (s.core k).pc
    if !inCode k pc.toNat then .next (s.takeFault k 0x08 pc w)
    else
      let (p, s) := s.fetchPoison k pc.toNat
      if p then .next (s.takeFault k 0x02 pc w)
      else if bad then .next (s.takeFault k 0x06 0 w)
      else
        match (if leavesTile w || s.loadsRegs k w then s.twinRole k else none) with
        | none => .next (finishInstr k w pc none (s.core k) (body k s))
        | some (e, false) => .next (finishInstr k w pc (some (e, s.twinValues k w)) (s.core k) (body k s))
        | some (e, true) => .next (s.twinWait e k w)

end Sys2Proof.Machine
end

