-- ==== Sys2Proof/Machine/Lanes.lean ====
section
/-! DEFINITION. Law lanes (R243 - R280): descriptors and their checks, enabling and disabling, due moments, samples, setpoint
groups. -/

namespace Sys2Proof.Machine

/-- Lane n. -/
def State.lane (s : State) (n : Nat) : Lane := Tab.get {} s.lanes n

/-- Replace lane n. -/
def State.setLane (s : State) (n : Nat) (x : Lane) : State := { s with lanes := Tab.put {} s.lanes n x }

/-- Word i of a lane descriptor. -/
def Lane.w (l : Lane) (i : Nat) : Word := Tab.get 0 l.desc i
/-- LAW. -/
def Lane.law (l : Lane) : Nat := fld (l.w 0) 35 32
/-- Law unit of lane n (R244). -/
def Lane.unit (l : Lane) (n : Nat) : Nat := 2 * (n / 256) + fld (l.w 0) 31 31
/-- COMPARED. -/
def Lane.compared (l : Lane) : Bool := bit (l.w 0) 30
/-- Is the lane paced by the band cycle (CYCLE), else by a coordinate. -/
def Lane.cycle (l : Lane) : Bool := fld (l.w 1) 35 34 = 1
/-- Pacing ring. -/
def Lane.ring (l : Lane) : Nat := fld (l.w 1) 33 33
/-- Pacing coordinate. -/
def Lane.coord (l : Lane) : Nat := fld (l.w 1) 33 29
/-- Setpoint kind (R249). -/
def Lane.spKind (l : Lane) : Nat := fld (l.w 9) 35 33
/-- Setpoint index. -/
def Lane.spIndex (l : Lane) : Nat := fld (l.w 9) 7 0

/-! ### The checks of LCFG (R246 - R251, R259, R260, R275, R278) -/

/-- Inputs that a law uses (R259). -/
def lawInputs (law : Nat) : Nat :=
  match law with
  | 0 => 2
  | 1 => 3
  | 6 => 4
  | _ => 1

/-- State words that a law uses. -/
def lawStates (law order spKind : Nat) : Nat :=
  match law with
  | 0 => 5
  | 1 => 2
  | 2 => 8
  | 3 => 2 * order
  | 4 => 1
  | 5 => if spKind = 4 then 7 else 5
  | 6 => 5
  | _ => 3

/-- Law steps of a sample (R262 - R269, R276). -/
def Lane.steps (l : Lane) : Nat :=
  (match l.law with
    | 0 => 14
    | 1 => 10
    | 2 => 12
    | 3 => 10 + 10 * fld (l.w 0) 29 26
    | 4 => 8
    | 5 => 22
    | 6 => 40
    | _ => 16)
  + (match fld (l.w 57) 35 34 with
    | 1 => 4
    | 2 => 6
    | _ => 0)

/-- HEADER (R246). -/
def headerOk (w : Word) : Bool :=
  let law := fld w 35 32
  let ord := fld w 29 26
  decide (law < 8) && fld w 17 0 = 0
    && (if law = 3 then decide (1 ≤ ord) && decide (ord ≤ 8) else ord = 0)
    && (if law = 5 then decide (fld w 25 20 ≤ 35) else fld w 25 20 = 0)
    && (law = 0 || !bit w 19) && (law = 2 || law = 3 || law = 4 || !bit w 18)

/-- PACING, PVALUE and PSTEP (R245, R247, R251). -/
def State.pacingOk (s : State) (d : Nat → Word) : Bool :=
  let w := d 1
  if fld w 35 34 = 1 then
    fld w 16 0 = 0 && decide (fld w 24 17 ≤ fld w 32 25) && d 2 = 0 && d 3 = 0 && d 4 = 0
  else if fld w 35 34 = 2 then
    let c := fld w 33 29
    let dir := fld w 28 27
    let v := cueValue c (dword (d 2) (d 3))
    fld w 26 0 = 0 && dir != 0 && (c != 0 || dir = 1) && d 4 != 0
      && (match s.coordMod c with
        | some m => decide (0 ≤ v) && decide (v < m)
        | none => true)
  else false

/-- An input word (R248, R259): law, number of the input. -/
def inputOk (law i : Nat) (w : Word) : Bool :=
  let k := fld w 35 32
  let idx := fld w 19 0
  let count := (law = 5 && i = 0) || (law = 6 && i = 2)
  decide (k < 4) && fld w 25 20 = 0
    && (if lawInputs law ≤ i then k = 0
        else if count then k = 1 && fld w 31 26 = 0 && isCell idx
        else match k with
          | 1 => decide (fld w 31 26 ≤ 35) && isCell idx
          | 2 => decide (idx < 2 ^ 13)
          | 3 => decide (fld w 31 26 ≤ 35) && decide (idx < 32) && idx != 0
          | _ => true)

/-- The setpoint words (R249, R260). -/
def setpointOk (law : Nat) (d : Nat → Word) : Bool :=
  let k := fld (d 9) 35 33
  let idx := fld (d 9) 7 0
  fld (d 9) 32 8 = 0 && (if law = 5 then k = 2 || k = 4 else k = 0 || k = 1 || k = 3)
    && (match k with
      | 2 => d 10 = 0
      | 3 => decide (idx < 64)
      | 4 => decide (idx < 16)
      | _ => idx = 0)
    && (match k with
      | 1 => decide (0 < s36 (d 11))
      | 3 => true
      | _ => d 11 = 0)

/-- OUTMAP (R250). -/
def outMapOk (law : Nat) (w : Word) : Bool :=
  let k := fld w 35 32
  let idx := fld w 19 0
  fld w 24 20 = 0
    && (if law = 6 then k = 2 else if law = 7 then k = 3 || k = 4 else k = 0 || k = 1)
    && (match k with
      | 1 => decide (fld w 31 26 ≤ 35) && isCell idx
      | 2 => decide (idx ≤ 21)
      | 3 => decide (idx < 16)
      | 4 => decide (idx < 24)
      | _ => true)

/-- Registers that outputs exclude each other on: a PWM pair counts whole (R251) (see assumption 24, DEDUCED). -/
def outKey (o : Nat) : Nat := if 0x3000 ≤ o ∧ o < 0x3180 then o / 16 * 16 else o

/-- Does a configured lane other than n write an output of these (R251) (see assumption 24, DEDUCED). -/
def State.outTaken (s : State) (n : Nat) (os : List Nat) : Bool :=
  s.lanes.any (fun e => e.1 != n && e.2.outs.any (fun o => os.any (fun p => outKey o = outKey p)))

/-- May LCFG load this descriptor into lane n; tile is the issuing tile, none for the Crown (R251). -/
def State.laneOk (s : State) (n : Nat) (tile : Option Nat) (ws : List Word) : Bool :=
  let d (i : Nat) : Word := ws.getD i 0
  let law := fld (d 0) 35 32
  let l : Lane := { desc := (List.range 64).foldl (fun t i => Tab.put 0 t i (d i)) [], configured := true }
  let pm := d 57
  headerOk (d 0) && s.pacingOk d && (List.range 4).all (fun i => inputOk law i (d (5 + i))) && setpointOk law d
    && outMapOk law (d 12) && decide (s36 (d 15) ≤ s36 (d 14)) && decide (0 ≤ s36 (d 16))
    && !((law = 6 || law = 7) && decide (s36 (d 15) < 0))
    && (List.range 16).all (fun i => decide (i < lawStates law (fld (d 0) 29 26) l.spKind) || d (41 + i) = 0)
    && fld pm 35 34 != 3 && fld pm 17 0 = 0 && fld pm 20 19 != 3 && (fld pm 35 34 = 0 || fld pm 28 21 != 0)
    && fld (d 62) 13 0 = 0 && d 63 = 0
    && l.outs.all (fun o => match tile, cellOf o with
        | some t, some c => Tab.get 0 s.owners c = 0 || Tab.get 0 s.owners c = t + 1
        | _, _ => true)
    && !s.outTaken n l.outs

/-! ### Outputs (R250, R251) -/

/-- An order to a cell register at this cell clock (R43, R251): stored if it wins; a tile that loses has E set. -/
def State.orderCell (s : State) (o : Nat) (v : Word) (src : Src) (code : Nat) : Bool × State :=
  let (won, s) := s.rankOrder { kind := 4, idx := o, value := s36 v, src := src, code := code }
  (won, if won then s.storeCell o v else s)

/-- The lane's output u (or burst `on`, or duties) goes to its registers (R250) (see assumption 24, DEDUCED). -/
def State.laneWrite (s : State) (n : Nat) (u : Int) (on : Bool) (duties : List Int) : State :=
  let l := s.lane n
  let w := l.w 12
  let i := fld w 19 0
  let put (s : State) (o : Nat) (v : Word) : State := (s.orderCell o v (.lane n) 0).2
  match fld w 35 32 with
  | 1 => put s i (wdI (rshRound u (fld w 31 26)))
  | 2 => (List.range 3).foldl (fun s k => put s (offPwm (i + k) 3) (wdI (duties.getD k 0))) s
  | 3 => put s (offFout i 0) (wd (at_ (b2n on) 35))
  | 4 => put s (offPwm i 3) (wd (if on then 2 ^ 35 - 1 else 0))
  | _ => s

/-! ### Inputs (R248) -/

/-- Input i of lane n before it saturates: S36 as S0.35, or a raw count for IN0 of L5 and IN2 of L6 (R248). What the reading of a cell
register clears, State.laneClears clears. -/
def State.laneRaw (s : State) (n i : Nat) : Int :=
  let l := s.lane n
  let w := l.w (5 + i)
  let idx := fld w 19 0
  match fld w 35 32 with
  | 1 =>
    let v := s36 (s.regRead idx)
    if (l.law = 5 && i = 0) || (l.law = 6 && i = 2) then v else v * 2 ^ fld w 31 26
  | 2 => match l.inputs.getD i none with
    | some v => v
    | none => (s.lane (fld w 9 0)).nodes.getD (fld w 12 10) 0
  | 3 => s36 (s.coordWord idx 2) * 2 ^ fld w 31 26
  | _ => 0

/-- Input i of lane n (R248). -/
def State.laneInput (s : State) (n i : Nat) : Int := satS36 (s.laneRaw n i)

/-- A sample has read the CELL inputs of lane n: the RC fields of those registers are clear (R15, R248, R357, R447). -/
def State.laneClears (s : State) (n : Nat) : State :=
  (List.range 4).foldl (fun t i =>
    let w := (s.lane n).w (5 + i)
    if fld w 35 32 = 1 then t.regClear (fld w 19 0) else t) s

/-- The words of a position lane to which SETPOS gives the position p at a count: p, the count held, i cleared (R267, R298). -/
def Lane.repos (l : Lane) (p cnt : Int) : Tab Word :=
  (List.range 5).foldl (fun t k =>
    Tab.put 0 t (41 + k) (if k = 0 then dlo (dwI p) else if k = 1 then dhi (dwI p)
      else if k = 2 then wd (cnt % 2 ^ 32).toNat else 0)) l.desc

/-! ### Enabling and disabling (R271, R301) -/

/-- Does the waiting setpoint order come from a group applied in cell clock c, so that no sample that starts there takes it (R100). -/
def Lane.spWaits (l : Lane) (c : Option Nat) : Bool :=
  match c, l.pendSp with
  | some c, some o => o.group && decide (c ≤ o.at_)
  | _, _ => false

/-- Coefficient and setpoint writes that wait for the lane's next sample go to its words: at a sample that starts in cell clock c,
or all of them (none) (R100, R181, R185, R279). -/
def Lane.takePend (l : Lane) (c : Option Nat) : Lane :=
  let d := l.pendCoef.foldl (fun t e => Tab.put 0 t (17 + e.1) e.2) l.desc
  let o := if l.spWaits c then l.oldSp else l.pendSp
  let d := match o with
    | some o => Tab.put 0 d 10 o.value
    | none => d
  let wrote := l.pendCoef != [] || (match o with
    | some o => !o.group
    | none => false)
  { l with
    desc := d, pendCoef := [], pendSp := if l.spWaits c then l.pendSp else none, oldSp := none, coefNew := l.coefNew || wrote }

/-- A lane that stops running: what waited for its next sample is in its words (R181, R184). -/
def Lane.stopped (l : Lane) : Lane :=
  { l.takePend none with
    enabled := false, due := none, pendEnable := none, waits := [], run := none, nodes := (l.run.map LaneRun.nodes).getD l.nodes }

/-- Members of applying groups that lie at lane n have taken their shadow: at a sample that starts in cell clock c, or in any case;
a group whose members all have is EMPTY (R100, R184). -/
def State.groupsTaken (s : State) (n : Nat) (c : Option Nat) : State :=
  { s with spGroups := s.spGroups.filterMap (fun e =>
      if e.2.st = .applying && c.all (fun c => decide (e.2.at_ < c)) && e.2.members.any (fun m => m.1 = n) && !e.2.taken.contains n then
        let t := n :: e.2.taken
        if e.2.members.all (fun m => t.contains m.1) then none else some (e.1, { e.2 with taken := t })
      else some e) }

/-- The orders that waited for lane n's next sample have been taken, and their conflicts are logged (R45, R184). -/
def State.samplePassed (s : State) (n : Nat) (c : Option Nat) : State :=
  let s := s.groupsTaken n c
  let stays (o : Order) : Bool := o.kind != 3 || o.idx != n || (match (s.lane n).pendSp with
    | some p => o.src = p.src
    | none => false)
  State.flushConflicts { s with orders := s.orders.filter stays } 3 n

/-- Axis a is disabled: its profile stops where it stands, and a SETPOS that waited for a sample is made (R298, R301). -/
def State.axisLeave (s : State) (a : Nat) : State :=
  let x := s.axis a
  if x.st = .unconf then s
  else
    let y : Axis := { x.settle with st := .disabled, stop := none, pref := (s.axisNow a).1 }
    match x.setpos with
    | none => s.setAxis a y
    | some p =>
      let l := s.lane x.plane
      (s.setLane x.plane { l with desc := l.repos p (s.laneInput x.plane 0) }).setAxis a { y with setpos := none, pref := p }

/-- The axes whose position lane n is disabled become DISABLED (R301). -/
def State.axesLeave (s : State) (n : Nat) : State :=
  (List.range 256).foldl (fun s a => if (s.axis a).plane = n then s.axisLeave a else s) s

/-! ### The end of a sample (R243, R278) -/

/-- The first law clock that starts in cell clock c or after its start: 600 MHz against 400 MHz. -/
def lawClock (c : Nat) : Nat := (3 * c + 1) / 2

/-- The cell clock in which law clock k starts. -/
def lawCell (k : Nat) : Nat := 2 * k / 3

/-- The nodes of a sample go to the history taps and to the capture units, with the moment of its start (R278, R469, R481). -/
def State.laneTaps (s : State) (n : Nat) (r : LaneRun) : State :=
  let l := s.lane n
  let tr := l.w 62
  (List.range 8).foldl (fun s j =>
    let src := 1024 * j + n
    let sig := fld tr 27 14 + j
    let tapped := bit tr (28 + j) && s.declared sig && fld (s.sigWord sig 0) 34 32 = 2 && fld (s.sigWord sig 0) 19 0 = src
    s.newValue 2 src r.cc r.stamp (wdI (r.nodes.getD j 0)) (if tapped then [sig] else [])) s

/-- The law clock after the last step of lane n's sample: its nodes, its output and its taps (R243, R278). -/
def State.laneEnd (s : State) (n : Nat) : State :=
  let l := s.lane n
  match l.run with
  | none => s
  | some r =>
    let s := s.setLane n { l with nodes := r.nodes, run := none }
    (if r.write then s.laneWrite n r.u r.on r.duty else s).laneTaps n r

/-- The samples that end in this cell clock (R243). -/
def State.lanesEnd (s : State) : State :=
  s.lanes.foldl (fun s e => if e.2.run.any (fun r => decide (lawCell r.at_ ≤ s.cc)) then s.laneEnd e.1 else s) s

/-- The lane is disabled now: a sample that runs ends, DISMODE decides the output, and the axis whose position lane it is becomes
DISABLED (see assumption 24, DEDUCED). -/
def State.laneOff (s : State) (n : Nat) : State :=
  let s := s.laneEnd n
  let l := s.lane n
  let s := (s.setLane n l.stopped).samplePassed n none
  let v := clampI 0 s36Max (s36 (l.w 13))
  let s := if bit (l.w 12) 25 then s.laneWrite n (s36 (l.w 13)) (decide (0 < s36 (l.w 13))) [v, v, v] else s
  s.axesLeave n

/-- A mode is entered that disables every lane (R271); every configured axis becomes DISABLED (R301). -/
def State.lanesOff (s : State) : State :=
  let s := s.lanes.foldl (fun s e => (State.samplePassed (s.setLane e.1 e.2.stopped) e.1 none).flushConflicts 2 e.1) s
  (List.range 256).foldl State.axisLeave s

/-- PSTEP of a lane in units of its coordinate. -/
def Lane.pstep (l : Lane) : Int := (l.w 4).toNat * (if l.coord = 0 then (tNs : Int) else 2 ^ 32)

/-- An order that enables lane n, accepted now (R252, R271). -/
def State.laneEnable (s : State) (n : Nat) (src : Src) : State :=
  let l := s.lane n
  let l := { l with pendEnable := some (true, src, s.cc) }
  if l.enabled || l.cycle then s.setLane n l
  else
    let c := l.coord
    let now := s.coordNow c
    let pv := if c = 0 ∧ l.pvalue ≤ now ∧ 0 < l.pstep then l.pvalue + ((now - l.pvalue) / l.pstep + 1) * l.pstep else l.pvalue
    s.setLane n { l with enabledAt := s.cc, ref := now, pvalue := pv }

/-- An order that disables lane n: at its next due moment, at once if it does not run (R271, R301). -/
def State.laneDisable (s : State) (n : Nat) (src : Src) : State :=
  let l := s.lane n
  if l.enabled then s.setLane n { l with pendEnable := some (false, src, s.cc) }
  else (s.setLane n { l with pendEnable := none, waits := [] }).axesLeave n

/-- An order of a source to enable or disable lane n, ranked at the lane's next sample (R43, R99); a lane that does not run takes a
disabling order at once. -/
def State.orderLane (s : State) (n : Nat) (on : Bool) (src : Src) (code : Nat) (cue : Option Nat) : State :=
  let axes := (s.axes.filter (fun e => e.2.plane = n)).map (fun e => (e.1, e.2))
  let (won, s) := s.rankOrder { kind := 2, idx := n, value := b2n on, src := src, code := code, cue := cue, axes := axes }
  let s := if !won then s else if on then s.laneEnable n src else s.laneDisable n src
  if (s.lane n).pendEnable.isSome then s else s.flushConflicts 2 n

/-! ### Due moments (R252 - R256) -/

/-- Has the pacing coordinate of lane n crossed PVALUE in this cell clock (R252; past values of coordinate 0 too). -/
def State.laneCrosses (s : State) (n : Nat) : Bool :=
  let l := s.lane n
  let c := l.coord
  let now := s.coordNow c
  decide (l.enabledAt < s.cc) && l.crossAt != s.cc + 1 &&
    (if c = 0 then decide (l.pvalue ≤ now)
     else
      let before := if l.crossAt = s.cc ∨ s.cc = l.enabledAt + 1 then l.ref else (s.coord c).prev
      crossed (fld (l.w 1) 28 27) (s.coordMod c) before now l.pvalue)

/-- One cell clock of the pacing of COORD lanes (R252): a crossing in F sets a due moment after the end of F + 1, and PVALUE
advances by PSTEP. -/
def State.lanesTick (s : State) : State :=
  s.lanes.foldl (fun t e =>
    let l := e.2
    if l.configured && !l.cycle && cellsRun s.mode && (l.enabled || l.pendEnable.isSome) && s.laneCrosses e.1 then
      t.setLane e.1 { l with
        pvalue := s.reduce l.coord (l.pvalue + l.pstep), ref := s.coordNow l.coord, crossAt := s.cc + 1
        waits := l.waits ++ [s.cc + 2] }
    else t) s

/-- The due moment of a CYCLE lane in this cell clock (R252): its cell clock, cycle number and CLOSE. -/
def State.cycleDue (s : State) (l : Lane) : Option (Nat × Nat × Nat) :=
  let g := s.ring l.ring
  if g.opened = s.cc + 1 ∧ g.cycle % (fld (l.w 1) 32 25 + 1) = fld (l.w 1) 24 17 then
    some (s.cc, g.cycle, g.start + (s.reg (offRingClose l.ring)).toNat)
  else none

/-- The due moment of lane n in this cell clock that LANE_DUE has not taken yet: its cell clock, cycle number and CLOSE (R252). -/
def State.laneMoment (s : State) (n : Nat) : Option (Nat × Nat × Nat) :=
  let l := s.lane n
  if !l.configured || !cellsRun s.mode || !(l.enabled || l.pendEnable.isSome) || l.dueAt = s.cc + 1 then none
  else if l.cycle then s.cycleDue l
  else l.waits.head?.bind (fun d => if d ≤ s.cc then some (d, 0, 0) else none)

/-- Does the waiting order to enable or disable take effect at a due moment in cell clock d: it was accepted before (R100, R271). -/
def Lane.takesEnable (l : Lane) (d : Nat) : Bool := l.pendEnable.any (fun p => decide (p.2.2 < d))

/-- Is the lane enabled at a due moment in cell clock d. -/
def Lane.wanted (l : Lane) (d : Nat) : Bool := if l.takesEnable d then (l.pendEnable.map Prod.fst).getD false else l.enabled

/-- Does a sample wait, or run at a due moment in cell clock d (R254). -/
def Lane.held (l : Lane) (d : Nat) : Bool := l.due.isSome || decide (lawClock d < l.busy)

/-- Does lane m become due at this moment with a sample: enabled, and no earlier sample of it waits or runs (R254). -/
def State.dueNow (s : State) (m : Nat) : Bool :=
  match s.laneMoment m with
  | none => false
  | some (d, _, _) => (s.lane m).wanted d && !(s.lane m).held d

/-- Law units that lane n runs on: with COMPARED both of its quadrant (R244). -/
def State.laneUnits (s : State) (n : Nat) : List Nat :=
  if (s.lane n).compared then [2 * (n / 256), 2 * (n / 256) + 1] else [(s.lane n).unit n]

/-- Does lane m take a unit of lane n. -/
def State.sharesUnit (s : State) (n m : Nat) : Bool := (s.laneUnits m).any (fun u => (s.laneUnits n).contains u)

/-- Node j of lane m as a reader finds it at its due moment, none where it takes the current sample's: the source runs on every unit
of the reader (R244, R256) (see assumption 24, DEDUCED). -/
def State.nodeDue (s : State) (n m j : Nat) : Option Int :=
  let r := s.lane n
  let l := s.lane m
  if (s.laneUnits n).all (fun u => (s.laneUnits m).contains u) ∧ l.w 1 = r.w 1 ∧ m < n then none
  else
    some ((if s.dueNow m then l.nodes else l.nodesDue).getD j 0)

/-- A LANE input as lane n finds it at its due moment: from another quadrant through the spine, class RT (R20, R26, R256); a value
whose flit failed its check is a free value (see assumption 24, DEDUCED). -/
def State.laneRead (s : State) (n m j : Nat) : Option Int × State :=
  let v := s.nodeDue n m j
  if m / 256 = n / 256 then (v, s)
  else
    let (ws, p, s) := s.transact (portReq (n / 256) 0 (m / 256) 0 (.lane (wdI (v.getD 0))) 1 [] false)
    if p then
      let (w, s) := s.drawWord
      (some (s36 w), s)
    else (some (s36 (ws.getD 0 0)), s)

/-- What the LANE inputs of lane n read at its due moment, none where one takes the current sample's node (R256). -/
def State.laneReads (s : State) (n : Nat) : List (Option Int) × State :=
  let l := s.lane n
  (List.range 4).foldl (fun a i =>
    let w := l.w (5 + i)
    let (v, s) := if fld w 35 32 = 2 then a.2.laneRead n (fld w 9 0) (fld w 12 10) else (some 0, a.2)
    (a.1 ++ [v], s)) ([], s)

/-- What the profile generator supplies lane n at its due moment (R292, R293), or none. -/
def State.laneProfile (s : State) (n : Nat) : Option (Int × Int × Int × Int × Bool) × State :=
  let l := s.lane n
  if l.law = 5 && l.spKind = 2 then
    let a := l.spIndex
    let s := State.axisRun a 66 s
    let s := if (s.axis a).plane = n then s.setAxis a { s.axis a with sampled := true } else s
    let o := s.axisOut a
    (some (o.pref, o.vref, o.aref, o.vel16, o.sat), s)
  else (none, s)

/-- LANE_DUE (R100, R252, R254, R271): an enable or disable accepted before takes effect; an enabled lane has a sample pending, or
misses the moment (see assumption 2, DESIGN CHOICE). A CMD coordinate whose update this misses is not STALE (see assumption 16,
DEDUCED). -/
def execLaneDue (n : Fin 1024) (s : State) : Host.Outcome State Fault Refusal :=
  let n := n.val
  let l := s.lane n
  .next (match s.laneMoment n with
  | none => s
  | some m =>
    let l := { l with waits := l.waits.drop 1 }
    let takes := l.takesEnable m.1
    let s := if takes then State.flushConflicts { s with orders := s.orders.filter (fun o => !(o.kind = 2 && o.idx = n)) } 2 n else s
    let l := { l with
      enabled := l.wanted m.1, pendEnable := if takes then none else l.pendEnable, dueAt := s.cc + 1 }
    if !l.enabled then (if takes then (s.setLane n l).laneOff n else s.setLane n l)
    else if l.held m.1 then s.setLane n { l with missed := satAdd l.missed 1 18 }
    else
      let (ins, s) := s.laneReads n
      let (prof, s) := (s.setLane n l).laneProfile n
      s.setLane n { l with due := some m, nodesDue := l.nodes, inputs := ins, prof := prof })

/-! ### Samples (R258 - R279) -/

/-- The setpoint r of a sample and whether it saturated (R258, R260), and whether a ramp goes on. -/
def State.laneSetpoint (s : State) (l : Lane) : Sat × Bool :=
  let sp := s36 (l.w 10)
  match l.spKind with
  | 0 => ({ v := sp }, false)
  | 1 =>
    let d := s36 (l.w 11)
    let r := clampI (l.prevSp - d) (l.prevSp + d) sp
    ({ v := r }, r != sp)
  | 3 =>
    let a := Sat.acc (mulSig sp (s36 (s.ain l.spIndex).good) + toAcc (s36 (l.w 11)))
    ({ toSig a.v with sat := a.sat || (toSig a.v).sat }, false)
  | _ => ({ v := 0 }, false)

/-- COUNT of the encoder of a PULSE setpoint (see assumption 24, DEDUCED). -/
def State.lanePulse (s : State) (l : Lane) : Nat := fld (s.reg (offEnc (l.spIndex % 16) 1)) 31 0

/-- The law's inputs for a sample of lane n. -/
def State.lawIn (s : State) (n : Nat) : LawIn :=
  let l := s.lane n
  let dn := sextN (s.lanePulse l + 2 ^ 32 - (l.prevCount % 2 ^ 32).toNat) 32
  let pulse := (dword (l.w 46) (l.w 47)).toInt + s36 (l.w 10) * dn * 2
  let (pref, vref, aref) := match l.prof with
    | some (p, v, a, _, _) => (p, v, a)
    | none => (satS72 pulse, 0, 0)
  { order := fld (l.w 0) 29 26, possh := fld (l.w 0) 25 20, donm := bit (l.w 0) 19, errin := bit (l.w 0) 18
    outMax := s36 (l.w 14), outMin := s36 (l.w 15), rateMax := s36 (l.w 16)
    c := (List.range 24).map (fun k => s36 (l.w (17 + k))), st := (List.range 16).map (fun k => l.w (41 + k))
    x := (List.range 4).map (fun i => s.laneInput n i), r := (s.laneSetpoint l).1.v
    pref := pref, vref := vref, aref := aref, last := l.lastOut
    preSat := (s.laneSetpoint l).1.sat || (List.range 4).any (fun i => s.laneRaw n i != s.laneInput n i)
      || (l.law = 5 && l.spKind = 4 && pulse != satS72 pulse) }

/-- The plant model of a sample (R276): m1, m2, the delay line and the residual, with saturation
(see assumption 24, DEDUCED). -/
def Lane.model (l : Lane) (u y : Int) : Int × Int × List Int × Sat :=
  let delay := fld (l.w 57) 33 29
  let line := l.dline ++ [u]
  let ud := if line.length ≤ delay then 0 else line.headD 0
  let line := if line.length ≤ delay then line else line.drop 1
  let a1 := s36 (l.w 59)
  let a2 := s36 (l.w 60)
  let d1 := Sat.acc (mulSig (s36 (l.w 58)) ud - l.m1)
  let m1 := Sat.acc (l.m1 + mulFrac a1 d1.v)
  let second := decide (fld (l.w 57) 35 34 = 2)
  let d2 := Sat.acc (m1.v - l.m2)
  let m2 := Sat.acc (l.m2 + mulFrac a2 d2.v)
  let dy := Sat.acc (toAcc y - (if second then m2.v else m1.v))
  let res := toSig dy.v
  (m1.v, if second then m2.v else 0, line,
    { res with sat := res.sat || dy.sat || d1.sat || m1.sat || (second && (d2.sat || m2.sat)) })

/-- The lane event of a plausibility fault (R277, R614). -/
def Lane.word0 (l : Lane) (group : Bool) : Word :=
  wd (at_ (b2n l.enabled) 35 + at_ (b2n l.pfault) 34 + at_ (b2n l.satnow) 33 + at_ (b2n l.late) 32 + at_ (b2n l.ramping) 31
    + at_ (b2n group) 30 + at_ (b2n l.compared) 29 + at_ (fld (l.w 39) 0 0) 28)

/-- Is a setpoint group shadow pending for lane n. -/
def State.groupPending (s : State) (n : Nat) : Bool :=
  s.spGroups.any (fun e => e.2.st = .applying && e.2.members.any (fun m => m.1 = n) && !e.2.taken.contains n)

/-- Status word w of lane n (R279). -/
def State.laneStat (s : State) (n w : Nat) : Word :=
  let l := s.lane n
  match w with
  | 0 => l.word0 (s.groupPending n)
  | 1 => wd l.samples
  | 2 => wdI l.out
  | 3 => wdI l.err
  | 4 => wdI l.resid
  | 5 => wd l.coefat
  | 6 => wd (at_ l.missed 18 + l.latecnt)
  | _ => wd (at_ l.satcnt 18 + l.pout)

/-- Pending coefficient and setpoint writes take effect at a sample that starts in this cell clock (R100, R181, R184, R185). -/
def State.lanePend (s : State) (n : Nat) : State :=
  let l := (s.lane n).takePend (some s.cc)
  let l := { l with coefNew := false, coefat := if l.coefNew then (l.samples + 1) % 2 ^ 36 else l.coefat }
  (s.setLane n l).samplePassed n (some s.cc)

/-- Is lane n the position lane of axis a. -/
def State.isPlane (s : State) (a n : Nat) : Bool := (s.axis a).st != .unconf && (s.axis a).plane = n

/-- SETPOS of the axis of a position lane takes effect at its sample (R298). -/
def State.laneSetpos (s : State) (n : Nat) : State :=
  let l := s.lane n
  let a := l.spIndex
  match l.prof, (s.axis a).setpos with
  | some (_, v, r, vel, sat), some p =>
    if !s.isPlane a n then s
    else (s.setLane n { l with desc := l.repos p (s.laneInput n 0), prof := some (p, v, r, vel, sat) }).setAxis a
      { s.axis a with setpos := none, pref := p }
  | _, _ => s

/-- Does a following error of axis x begin its quick stop: not while the stop of an earlier one goes on, or in the FAULT that it ended
in (R297). -/
def Axis.mayFollow (x : Axis) : Bool :=
  x.st != .unconf && x.st != .disabled && !(x.follow && (x.st = .fault || (x.st = .stopping && x.stop.any Stop.toFault)))

/-- The axis of its position lane takes the sample (R292, R293, R297): PREF, VCMD, SATREF, FEPEAK, the segments completed with no
sample, the CMD coordinates and the following-error check. -/
def State.laneAxis (s : State) (n : Nat) (p : Int) (dueCc : Nat) : State :=
  let l := s.lane n
  let a := l.spIndex
  match l.prof with
  | none => s
  | some (pref, _, _, vel, sat) =>
    if !s.isPlane a n then s
    else
    let x := (s.axis a).settle
    let fe := (pref - p).natAbs
    let s := s.setAxis a { x with
      prefs := pref, vcmd := vel, satref := if sat then satAdd x.satref 1 18 else x.satref
      fepeak := max x.fepeak (min (fe / 2 ^ 32) (2 ^ 36 - 1)) }
    let s := s.axisCmd a pref vel dueCc
    let x := s.axis a
    let femax := (x.w 10).toNat
    if x.mayFollow && femax != 0 && decide (femax * 2 ^ 32 < fe) then
      let s := (s.setAxis a { x with follow := true }).axisEvent a 5
      if x.st = .fault then s.setAxis a { s.axis a with queue := [] } else s.beginStop a (s.axis a).dquick true true
    else s

/-- The law clock in which lane n's sample starts, none while it may not start now: it is due, none of its unit is before it in the
order of R253, and the unit is free in this cell clock. The samples of a batch follow one another with no gap (R243). -/
def State.sampleStart (s : State) (n : Nat) : Option Nat :=
  let l := s.lane n
  match l.due with
  | none => none
  | some (d, _, _) =>
    let peers := s.lanes.filter (fun e => s.sharesUnit n e.1)
    let st := peers.foldl (fun k e => max k e.2.busy) (lawClock s.cc)
    if l.enabled && decide (d ≤ s.cc) && decide (lawCell st ≤ s.cc) && !peers.any (fun e => e.1 != n && (match e.2.due with
        | some (d', _, _) => decide (d' < d) || (d' = d && decide (e.1 < n))
        | none => false)) then some st else none

/-- May lane n's sample start now. -/
def State.sampleTurn (s : State) (n : Nat) : Bool := (s.sampleStart n).isSome

/-- Lateness of a CYCLE sample and LAW.u.LOAD, for a sample whose last step falls in law clock last - 1 (R254, R257). -/
def State.laneLoad (s : State) (n : Nat) (due : Nat × Nat × Nat) (last : Nat) : State :=
  let l := s.lane n
  if !l.cycle then s.setLane n { l with late := false }
  else
    let late := decide (3 * due.2.2 ≤ 2 * (last - 1))
    let s := s.setLane n { l with late := late, latecnt := if late then satAdd l.latecnt 1 18 else l.latecnt }
    (s.laneUnits n).foldl (fun s u =>
      let o := offLawLoad u
      let peak := last - lawClock due.1
      let s := s.setRfld o 35 18 (max (s.rfld o 35 18) (min peak (2 ^ 18 - 1)))
      let s := s.tallyMin (22 + u) ((((due.2.2 - due.1) * 3 / 2 : Nat) : Int) - peak)
      let k := 2 * u + l.ring
      if late && Tab.get 0 s.lawLate k != due.2.1 + 1 then
        { s with lawLate := Tab.put 0 s.lawLate k (due.2.1 + 1) }.satRfld o 17 0 1
      else s) s

/-- LANE_SAMPLE (R243, R253 - R279): the sample starts; what it leaves for others, State.laneEnd gives them
(see assumption 24, DEDUCED; see assumption 65, DESIGN CHOICE). -/
def execLaneSample (n : Fin 1024) (s : State) : Host.Outcome State Fault Refusal :=
  let n := n.val
  .next (match s.sampleStart n with
  | none => s
  | some start =>
    let due := (s.lane n).due.getD (0, 0, 0)
    let s := (s.lanePend n).laneSetpos n
    let l := s.lane n
    let i := s.lawIn n
    let o := law l.law i
    -- an L5 lane of a profile keeps S5 and S6 (R267)
    let st := (List.range 16).map (fun k => if l.law = 5 && l.spKind != 4 && (k = 5 || k = 6) then l.w (41 + k) else o.st.getD k 0)
    let u := if l.hold then l.lastOut else o.u
    let nodes := if l.hold then o.nodes.take 7 ++ [l.nodes.getD 7 0] else o.nodes
    let (m1, m2, line, res) := if fld (l.w 57) 35 34 = 0 then (0, 0, [], { v := 0 }) else l.model u (nodes.getD 1 0)
    let out := fld (l.w 57) 35 34 != 0 && decide (s36 (l.w 61) < res.v.natAbs)
    let pout := if out then l.pout + 1 else 0
    let trips := out && decide (fld (l.w 57) 28 21 = pout)
    let sat := o.sat || i.preSat || res.sat
    let hold := l.hold || (trips && fld (l.w 57) 20 19 = 1)
    let s := State.setLane (s.laneClears n) n { l with
      desc := (List.range 16).foldl (fun t k => Tab.put 0 t (41 + k) (st.getD k 0)) l.desc
      due := none, busy := start + l.steps, lastOut := u, prevSp := i.r, prevCount := s.lanePulse l
      run := some {
        at_ := start + l.steps, write := !hold, u := u, on := decide (0 < nodes.getD 7 0), duty := o.duty, nodes := nodes
        cc := s.cc, stamp := nsOf s.now }
      m1 := m1, m2 := m2, dline := line, satnow := sat, ramping := (s.laneSetpoint l).2
      samples := (l.samples + 1) % 2 ^ 36, out := nodes.getD 7 0, err := nodes.getD 2 0, resid := res.v
      satcnt := if sat then satAdd l.satcnt 1 18 else l.satcnt, pout := min pout (2 ^ 18 - 1)
      pfault := l.pfault || trips, hold := hold }
    let s := s.laneLoad n due (start + l.steps)
    let s := (s.tallyMax (14 + l.unit n) (s36 (s.laneStat n 3)).natAbs).laneAxis n o.pos due.1
    let s := if trips then s.crownEvent 0x003 (wd n) (s.laneStat n 0) else s
    -- ACTION DISABLE: at the next due moment (R271, R277)
    if trips && fld (l.w 57) 20 19 = 2 then s.setLane n { s.lane n with pendEnable := some (false, .lane n, s.cc) } else s)

/-! ### Setpoint groups (R183 - R185) -/

/-- Setpoint group g. -/
def State.spGroup (s : State) (g : Nat) : SpGroup := Tab.get {} s.spGroups g

/-- Replace setpoint group g. -/
def State.setSpGroup (s : State) (g : Nat) (x : SpGroup) : State := { s with spGroups := Tab.put {} s.spGroups g x }

/-- A setpoint order to a lane (R43, R99, R181, R185): at the next sample of an enabled lane, at once on a disabled one; the members
of groups that wait for it are taken with it. -/
def State.orderSetpoint (s : State) (n : Nat) (v : Word) (src : Src) (code : Nat) (group : Bool) (cue : Option Nat) : State :=
  let (won, s) := s.rankOrder { kind := 3, idx := n, value := s36 v, src := src, code := code, cue := cue }
  let l := s.lane n
  let keep := match l.pendSp with
    | some o => o.src = src && o.group && !group && o.at_ = s.cc
    | none => false
  -- a sample that starts in this cell clock takes the order that a group's replaces
  let old := match l.pendSp with
    | some o => if group && o.src = src then (if o.group && o.at_ = s.cc then l.oldSp else some o) else none
    | none => none
  if !l.enabled then
    let s := if won then s.setLane n { l with desc := Tab.put 0 l.desc 10 v, coefNew := l.coefNew || !group } else s
    if group then (s.groupsTaken n none).flushConflicts 3 n else s.flushConflicts 3 n
  else if won && !keep then s.setLane n { l with pendSp := some { value := v, src := src, at_ := s.cc, group := group }, oldSp := old }
  else s

/-- A group is applied at this moment F (R184); orders of losing sources are told to them
(see assumption 24, DEDUCED). -/
def State.applyGroup (s : State) (g : Nat) (src : Src) (code : Nat) (cue : Option Nat) : State :=
  let x := s.spGroup g
  if x.st != .loaded then s
  else
    let s := s.setSpGroup g { x with st := .applying, src := src, at_ := s.cc, taken := [] }
    x.members.foldl (fun s m => s.orderSetpoint m.1 m.2 src code true cue) s

/-! ### Lane instructions (R179 - R186) -/

/-- Does fault 0x08 of R18 stop core k at lane n. -/
def offQuad (k quad : Nat) : Bool := k < 64 && k / 16 != quad

/-- Lane number of a lane instruction: Ga[9:0] (R179). -/
def State.laneNo (s : State) (k : Nat) (f : CF) : Nat := fld (s.g k f.a.toNat) 9 0

/-- LCFG (R180, R251) (see assumption 24, DEDUCED). -/
def execLcfg (c : CoreId) (f : CF) (s : State) : Host.Outcome State Fault Refusal :=
  runInstr c (encC 0x80 f) (f.sel.toNat / 2 != 0) (fun k s =>
    let n := s.laneNo k f
    if offQuad k (n / 256) then .flt 0x08 (wd n) s
    else consume s k false (s.g k f.d.toNat) 64 (fun ws s =>
      if (s.lane n).enabled then .flt 0x0A (wd n) s
      else if !s.laneOk n (if k < 64 then some k else none) ws then .next (s.refuse k 2)
      else
        let l : Lane := {
          desc := (List.range 64).foldl (fun t i => Tab.put 0 t i (ws.getD i 0)) []
          configured := true, pvalue := cueValue (fld (ws.getD 1 0) 33 29) (dword (ws.getD 2 0) (ws.getD 3 0)) }
        let s := s.setLane n { l with prevCount := s.lanePulse l }
        .next (if f.sel.toNat % 2 = 1 then s.orderLane n true (coreSrc k) 0x80 none else s))) s

/-- LCOEF (R181, R182). -/
def execLcoef (c : CoreId) (f : CF) (s : State) : Host.Outcome State Fault Refusal :=
  runInstr c (encC 0x81 f) (24 ≤ f.sel.toNat) (fun k s =>
    let n := s.laneNo k f
    let v := s.g k f.d.toNat
    if offQuad k (n / 256) then .flt 0x08 (wd n) s
    else
      let l := s.lane n
      .next (if l.enabled then s.setLane n { l with pendCoef := l.pendCoef ++ [(f.sel.toNat, v)] }
        else s.setLane n { l with desc := Tab.put 0 l.desc (17 + f.sel.toNat) v, coefNew := true })) s

/-- LSP (R181, R185, R186). -/
def execLsp (c : CoreId) (f : CF) (s : State) : Host.Outcome State Fault Refusal :=
  runInstr c (encC 0x82 f) (f.sel != 0) (fun k s =>
    let n := s.laneNo k f
    let v := s.g k f.d.toNat
    let l := s.lane n
    if offQuad k (n / 256) then .flt 0x08 (wd n) s
    else if 2 ≤ l.spKind then .flt 0x0A (wd n) s
    else .next (s.orderSetpoint n v (coreSrc k) 0x82 false none)) s

/-- LSTAT (R279). -/
def execLstat (c : CoreId) (f : CF) (s : State) : Host.Outcome State Fault Refusal :=
  runInstr c (encC 0x84 f) (8 ≤ f.sel.toNat) (fun k s =>
    let n := s.laneNo k f
    if offQuad k (n / 256) then .flt 0x08 (wd n) s
    else .next (s.setG k f.d.toNat (s.laneStat n f.sel.toNat))) s

/-- State code of a group in Gd (R183). -/
def GState.code : GState → Nat
  | .empty => 0
  | .loaded => 1
  | .applying => 2

/-- The frame of the setpoint group instructions: quadrant check, then the operation. -/
def spgrpOp (c : CoreId) (f : CF) (op : Nat → Nat → State → Res) (s : State) : Host.Outcome State Fault Refusal :=
  runInstr c (encC 0x83 f) (3 ≤ f.sel.toNat / 2 ^ 16 || f.sel.toNat / 256 % 256 != 0) (fun k s =>
    let g := f.sel.toNat % 256
    if offQuad k (g / 64) then .flt 0x08 (wd g) s else op k g s) s

/-- First member of an applying group that has not taken its shadow (R184). -/
def SpGroup.firstLeft (x : SpGroup) : Word := wd (((x.members.find? (fun m => !x.taken.contains m.1)).map Prod.fst).getD 0)

/-- Members of a group image (R183). -/
def groupMembers (ws : List Word) (n : Nat) : List (Nat × Word) :=
  (List.range n).map (fun i => (fld (ws.getD (2 * i) 0) 9 0, ws.getD (2 * i + 1) 0))

/-- SPGRP LOAD (R183, R186) (see assumption 24, DEDUCED). -/
def execSpgrpLoad (c : CoreId) (f : CF) (s : State) : Host.Outcome State Fault Refusal :=
  spgrpOp c f (fun k g s =>
    let a := s.g k f.a.toNat
    let x := s.spGroup g
    let done (s : State) : Res := .next (s.setG k f.d.toNat (wd (s.spGroup g).st.code))
    consume s k false a 1 (fun ws s =>
      let n := (ws.getD 0 0).toNat
      if n = 0 ∨ 64 < n then (if x.st = .applying then .flt 0x0A x.firstLeft s else done (s.refuse k 2))
      else consume s k false (a + 1) (2 * n) (fun ws s =>
        let ms := groupMembers ws n
        let lanes := ms.map Prod.fst
        if lanes.any (fun m => m / 256 != g / 64) then .flt 0x08 (wd g) s
        else if x.st = .applying then .flt 0x0A x.firstLeft s
        else match lanes.find? (fun m => 2 ≤ (s.lane m).spKind) with
          | some m => .flt 0x0A (wd m) s
          | none =>
            if anyPair (fun a b => a = b) lanes then done (s.refuse k 2)
            else done (s.setSpGroup g { st := .loaded, members := ms })))) s

/-- SPGRP APPLY (R183, R184). -/
def execSpgrpApply (c : CoreId) (f : CF) (s : State) : Host.Outcome State Fault Refusal :=
  spgrpOp c f (fun k g s =>
    let s := s.applyGroup g (coreSrc k) 0x83 none
    .next (s.setG k f.d.toNat (wd (s.spGroup g).st.code))) s

/-- SPGRP CLEAR (R183, R184). -/
def execSpgrpClear (c : CoreId) (f : CF) (s : State) : Host.Outcome State Fault Refusal :=
  spgrpOp c f (fun k g s =>
    let x := s.spGroup g
    if x.st = .applying then .flt 0x0A x.firstLeft s
    else .next ((s.setSpGroup g {}).setG k f.d.toNat 0)) s

end Sys2Proof.Machine
end

