-- ==== Sys2Proof/Machine/Motion.lean ====
section
/-! DEFINITION. The motion instructions (R187 - R189, R282 - R303): SEGPUSH, AXCMD and AXSTAT. -/

namespace Sys2Proof.Machine

/-- Does Brim monitor axis a in a group whose STO output is STOPPING or OPEN (R516, R522, R526)
(see assumption 26, DEDUCED). -/
def State.brimHolds (s : State) (a : Nat) : Bool :=
  (List.range 64).any (fun i =>
    let w := s.brim.block.getD (16 + 4 * i) 0
    let k := fld w 33 32
    bit w 35 && fld w 31 24 = a && s.rfld (offBrim 0) (17 + 2 * k) (16 + 2 * k) != 1)

/-- Is axis a one that core k may not command: its owner tile is another (R187) (see assumption 15, DEDUCED). -/
def State.offAxisOwner (s : State) (k a : Nat) : Bool := k < 64 && Tab.get 0 s.owners (offAxis a) != k + 1

/-! ### SEGPUSH (R188, R287 - R289) -/

/-- The start of a segment appended now: none where it is not yet known. -/
def State.segStartState (s : State) (a : Nat) : Option (Int × Int) :=
  let x := s.axis a
  match x.queue.getLast? with
  | some g => some (g.pend, g.vend)
  | none =>
    match x.st with
    | .starving => none
    | .stopping => none
    | _ => some ((s.axisNow a).1, 0)

/-- The segment of six words for axis a, or none where the axis refuses it (R287 - R289). -/
def State.segOf (s : State) (a : Nat) (ws : List Word) : Option Seg :=
  let x := s.axis a
  let w0 := ws.getD 0 0
  let rel := bit w0 35
  let dur := (ws.getD 1 0).toNat
  let p := (dword (ws.getD 2 0) (ws.getD 3 0)).toInt
  let v := s36 (ws.getD 4 0)
  if fld w0 33 16 != 0 || dur = 0 || ws.getD 5 0 != 0 || x.st = .unconf then none
  else
    match s.segStartState a with
    | none =>
      if rel then none
      else some { tag := fld w0 15 0, postStart := bit w0 34, dur := dur, pend := p, vend := v, unchecked := true }
    | some (p0, v0) =>
      let pend := if rel then (dwI (p0 + p)).toInt else p
      if x.curveOk p0 v0 dur pend v then
        some { tag := fld w0 15 0, postStart := bit w0 34, dur := dur, pend := pend, vend := v, unchecked := false }
      else none

/-- SEGPUSH (R188, R289) (see assumption 26, DEDUCED). -/
def execSegpush (c : CoreId) (f : CF) (s : State) : Host.Outcome State Fault Refusal :=
  runInstr c (encC 0x88 f) (f.sel != 0) (fun k s =>
    let a := fld (s.g k f.d.toNat) 7 0
    let ad := s.g k f.a.toNat
    if s.accessN k false false ad 6 = .fault then .flt 0x08 ad s
    else if s.offAxisOwner k a then .flt 0x09 (wd (offAxis a)) s
    else consume s k false ad 6 (fun ws s =>
      let s := State.axisRun a 66 s
      let x := s.axis a
      if 64 ≤ x.queue.length + x.skipped then .flt 0x0B (wd a) s
      else
        match s.segOf a ws with
        | none => .next ((s.refuse k 2).setG k f.d.toNat (wd (64 - (x.queue.length + x.skipped))))
        | some g =>
          let s := s.setAxis a { x with queue := x.queue ++ [g] }
          .next (s.setG k f.d.toNat (wd (63 - (x.queue.length + x.skipped)))))) s

/-! ### AXCMD (R298 - R301) -/

/-- A result code in Gd, with E and ERRC.REFUSE where R300 says so. -/
def axResult (s : State) (k : Nat) (f : CF) (code refuse : Nat) : State :=
  let s := if refuse = 0 then s else s.refuse k refuse
  s.setG k f.d.toNat (wd code)

/-- The command codes of R298; the others raise 0x06 (R149). -/
def axCodes : List Nat := [1, 2, 3, 4, 5, 6, 7, 8, 9, 0x10, 0x11, 0x12]

/-- The order that a command of core k gives axis i: what it may change at once stands in it as it was, before an earlier order of
this cell clock changed it (R43, R44). -/
def State.axisOrder (s : State) (k sel gd : Nat) (ad : Word) (i : Nat) : Order :=
  let o : Order := { kind := 5, idx := i, value := sel * 2 ^ 36 + ad.toNat, src := coreSrc k, code := 0x89, gd := some gd }
  let b := (s.orders.filter o.same).foldl State.undoOrder s
  let x := b.axis i
  { o with axes := [(i, x)], lanes := (axisLanes x.desc).map (fun n => (n, b.lane n)), groups := [(x.group, b.agroup x.group)] }

/-- The frame of AXCMD: the axis in Gd[7:0], ownership, BUSY, the ranking of R43; then the command's own states and effect,
which answers a result code and an ERRC.REFUSE code (0 for none) (see assumption 26, DEDUCED). -/
def axcmd (c : CoreId) (f : CF) (group : Bool) (reads : Nat) (op : Nat → Nat → State → List Word → Nat × Nat × State)
    (s : State) : Host.Outcome State Fault Refusal :=
  runInstr c (encC 0x89 f) (!axCodes.contains f.sel.toNat) (fun k s =>
    let a := fld (s.g k f.d.toNat) 7 0
    let ad := s.g k f.a.toNat
    let members := if group then
        (List.range 256).filter (fun i => (s.axis i).st != .unconf && (s.axis i).group = (s.axis a).group) ++ [a]
      else [a]
    if reads != 0 && s.accessN k false false ad reads = .fault then .flt 0x08 ad s
    else match members.find? (fun i => s.offAxisOwner k i) with
    | some i => .flt 0x09 (wd (offAxis i)) s
    | none =>
      let body (ws : List Word) (s : State) : Res :=
        let s := State.axisRun a 66 s
        if members.any (fun i => (s.axis i).setpos.isSome) then .next (axResult s k f 3 0)
        else
          let os := members.eraseDups.map (fun i => s.axisOrder k f.sel.toNat f.d.toNat ad i)
          let (code, rf, _) := op a k (os.foldl State.beforeRivals s) ws
          if code != 0 then .next (axResult s k f code rf)
          else
            let lost := os.filter (fun o => (s.strongerThan o).isSome)
            if lost != [] then .next (axResult (lost.foldl (fun s o => (s.rankOrder o).2) s) k f 2 1)
            else .next (axResult (op a k (os.foldl (fun s o => (s.rankOrder o).2) s) ws).2.2 k f 0 0)
      if reads = 0 then body [] s else consume s k false ad reads (fun ws s => body ws s)) s

/-- Does lane n of axis a lie in its quadrant, configured with a law, and belong to no other axis (R283). -/
def State.axisLaneOk (s : State) (a n law : Nat) : Bool :=
  let l := s.lane n
  n / 256 = a / 64 && l.configured && l.law = law
    && !s.axes.any (fun e => e.1 != a && e.2.st != .unconf && (axisLanes e.2.desc).contains n)

/-- The checks of CONFIG (R283). -/
def State.axisConfigOk (s : State) (a : Nat) (ws : List Word) : Bool :=
  let w (i : Nat) : Word := ws.getD i 0
  let lo := (dword (w 6) (w 7)).toInt
  let hi := (dword (w 8) (w 9)).toInt
  let pl := s.lane (fld (w 0) 9 0)
  fld (w 0) 26 20 = 0 && fld (w 1) 27 10 = 0 && (List.range 5).all (fun i => w (11 + i) = 0)
    && s.axisLaneOk a (fld (w 0) 9 0) 5 && pl.spKind = 2 && pl.spIndex = a
    && (!bit (w 0) 30 || s.axisLaneOk a (fld (w 0) 19 10) 1) && (!bit (w 0) 29 || s.axisLaneOk a (fld (w 1) 9 0) 6)
    && w 2 != 0 && w 3 != 0 && w 4 != 0 && w 5 != 0 && decide ((w 4).toNat ≤ (w 5).toNat) && decide (lo ≤ hi)

/-- CONFIG (R282, R283). -/
def execConfig (c : CoreId) (f : CF) (s : State) : Host.Outcome State Fault Refusal :=
  axcmd c f false 16 (fun a _ s ws =>
    let x := s.axis a
    if x.st != .unconf && x.st != .disabled then (1, 0, s)
    else if !s.axisConfigOk a ws then (4, 2, s)
    else (0, 0, s.setAxis a { x with desc := ws, st := .disabled, queue := [], stop := none, segdone := 0, skipped := 0, starves := 0, satref := 0 })) s

/-- The position lane's unwrapped feedback p at this moment (R267, R299): that of its latest sample and the counts since. -/
def State.axisFeedback (s : State) (a : Nat) : Int :=
  let n := (s.axis a).plane
  let l := s.lane n
  let d := sextN ((s.laneInput n 0 % 2 ^ 32).toNat + 2 ^ 32 - (l.w 43).toNat % 2 ^ 32) 32
  satS72 ((dword (l.w 41) (l.w 42)).toInt + d * 2 ^ 32)

/-- ENABLE (R299). -/
def execEnable (c : CoreId) (f : CF) (s : State) : Host.Outcome State Fault Refusal :=
  axcmd c f false 0 (fun a k s _ =>
    let x := s.axis a
    if x.st != .disabled then (1, 0, s)
    else
      let s := s.setAxis a { x with st := .ready, pref := s.axisFeedback a, stop := none }
      (0, 0, (axisLanes x.desc).foldl (fun s n => s.orderLane n true (coreSrc k) 0x89 none) s)) s

/-- DISABLE (R298, R301). -/
def execDisable (c : CoreId) (f : CF) (s : State) : Host.Outcome State Fault Refusal :=
  axcmd c f false 0 (fun a k s _ =>
    let x := s.axis a
    if x.st = .unconf then (1, 0, s)
    else
      (0, 0, ((axisLanes x.desc).foldl (fun s n => s.orderLane n false (coreSrc k) 0x89 none) s).axisLeave a)) s

/-- May GO start axis a (R298, R301, R516): READY with a queue, and neither SAFESTOP nor Brim holds it. -/
def State.canGo (s : State) (a : Nat) : Bool :=
  let x := s.axis a
  x.st = .ready && x.queue != [] && s.mode != 6 && !s.brimHolds a

/-- Do the checks that waited for GO hold (R289, R298) (see assumption 26, DEDUCED). -/
def State.goChecks (s : State) (a : Nat) : Bool :=
  let x := s.axis a
  match x.queue with
  | g :: _ => !g.unchecked || x.curveOk x.pref 0 g.dur g.pend g.vend
  | [] => true

/-- GO (R290, R298). -/
def execGo (c : CoreId) (f : CF) (s : State) : Host.Outcome State Fault Refusal :=
  axcmd c f false 0 (fun a _ s _ =>
    if !s.canGo a then (1, 0, s) else if !s.goChecks a then (4, 4, s) else (0, 0, s.startMotion a)) s

/-- Is the axis in a state in which a stop is accepted. -/
def State.canStop (s : State) (a : Nat) : Bool :=
  let x := s.axis a
  x.st = .moving || x.st = .starving || x.st = .stopping

/-- A stop command from the present motion (R295): a stop that ends in FAULT goes on to do so
(see assumption 26, DEDUCED). -/
def State.stopAxis (s : State) (a : Nat) (quick : Bool) : State :=
  let x := s.axis a
  let decel := if quick then x.dquick else x.dstop
  match x.st, x.stop with
  | .stopping, some st =>
    if st.quick && !quick then s
    else if st.quick = quick then s.setAxis a { x.settle with queue := [] }
    else s.beginStop a decel quick st.toFault
  | _, _ => s.beginStop a decel quick false

/-- STOP (R295). -/
def execStop (c : CoreId) (f : CF) (s : State) : Host.Outcome State Fault Refusal :=
  axcmd c f false 0 (fun a _ s _ => if s.canStop a then (0, 0, s.stopAxis a false) else (1, 0, s)) s

/-- QSTOP (R295). -/
def execQstop (c : CoreId) (f : CF) (s : State) : Host.Outcome State Fault Refusal :=
  axcmd c f false 0 (fun a _ s _ => if s.canStop a then (0, 0, s.stopAxis a true) else (1, 0, s)) s

/-- FLUSH (R298). -/
def execFlush (c : CoreId) (f : CF) (s : State) : Host.Outcome State Fault Refusal :=
  axcmd c f false 0 (fun a _ s _ =>
    let x := s.axis a
    if x.st = .disabled || x.st = .ready || x.st = .fault then (0, 0, s.setAxis a { x.settle with queue := [] }) else (1, 0, s)) s

/-- SETPOS (R298): at the position lane's next sample, at once on a disabled lane (see assumption 26, DEDUCED). -/
def execSetpos (c : CoreId) (f : CF) (s : State) : Host.Outcome State Fault Refusal :=
  axcmd c f false 2 (fun a _ s ws =>
    let x := s.axis a
    let p := (dword (ws.getD 0 0) (ws.getD 1 0)).toInt
    let l := s.lane x.plane
    if x.st != .disabled && x.st != .ready then (1, 0, s)
    else if l.enabled || l.pendEnable.isSome then (0, 0, s.setAxis a { x with setpos := some p })
    else
      (0, 0, (s.setLane x.plane { l with desc := l.repos p (s.laneInput x.plane 0) }).setAxis a { x with pref := p })) s

/-- CLEAR (R298). -/
def execClear (c : CoreId) (f : CF) (s : State) : Host.Outcome State Fault Refusal :=
  axcmd c f false 0 (fun a _ s _ =>
    let x := s.axis a
    if x.st = .fault then (0, 0, s.setAxis a { x with st := .ready, limit := false, follow := false }) else (1, 0, s)) s

/-- GSTART (R298) (see assumption 26, DEDUCED). -/
def execGstart (c : CoreId) (f : CF) (s : State) : Host.Outcome State Fault Refusal :=
  axcmd c f true 0 (fun a _ s _ =>
    let s := (List.range 256).foldl (fun s i => if (s.axis i).st = .unconf then s else State.axisRun i 66 s) s
    let ms := (List.range 256).filter (fun i => (s.axis i).st != .unconf && (s.axis i).group = (s.axis a).group && s.canGo i)
    if ms = [] then (1, 0, s) else if !ms.all (fun i => s.goChecks i) then (4, 4, s)
    else (0, 0, ms.foldl State.startMotion s)) s

/-- GOVR (R285, R298, R300): an override above 2.0 is out of range (see assumption 26, DEDUCED). -/
def execGovr (c : CoreId) (f : CF) (s : State) : Host.Outcome State Fault Refusal :=
  axcmd c f true 0 (fun a k s _ =>
    let g := (s.axis a).group
    let v := fld (s.g k f.a.toNat) 17 0
    if 0x20000 < v then (4, 4, s) else (0, 0, s.setAgroup g { s.agroup g with ovrset := v })) s

/-- GSLEW (R285, R298). -/
def execGslew (c : CoreId) (f : CF) (s : State) : Host.Outcome State Fault Refusal :=
  axcmd c f true 0 (fun a k s _ =>
    let g := (s.axis a).group
    (0, 0, s.setAgroup g { s.agroup g with slew := fld (s.g k f.a.toNat) 15 0 })) s

/-- AXSTAT (R303): a read of word 7 clears FEPEAK. -/
def execAxstat (c : CoreId) (f : CF) (s : State) : Host.Outcome State Fault Refusal :=
  runInstr c (encC 0x8A f) (8 ≤ f.sel.toNat) (fun k s =>
    let a := fld (s.g k f.a.toNat) 7 0
    let x := s.axis a
    let t := s.setG k f.d.toNat (x.stat f.sel.toNat)
    .next (if f.sel = 7 then t.setAxis a { x with fepeak := 0 } else t)) s

end Sys2Proof.Machine
end

