-- ==== Sys2Proof/Machine/Capture.lean ====
section
/-! DEFINITION. History events and capture units (R469 - R489), with RECMARK and CAPARM. Times of samples are nanoseconds, times
of triggers 2^-16 ns. -/

namespace Sys2Proof.Machine

/-! ### History events (R469, R475 - R477) -/

/-- SIGNAL_SAMPLING_PERIOD (R469): COORD and CELL signals, every PER * 40 cc from their declaration. -/
def execSignalSamplingPeriod (n : Fin 16384) (s : State) : Host.Outcome State Fault Refusal :=
  let n := n.val
  let w0 := s.sigWord n 0
  let kind := fld w0 34 32
  let per := 40 * fld (s.sigWord n 1) 15 0
  let x := s.signal n
  .next (if s.declared n && (kind = 3 || kind = 4) && decide (x.declared < s.cc) && (s.cc - x.declared) % per = 0
      && x.took != s.cc + 1 then
    let v := if kind = 3 then [dlo (s.coordValue (fld w0 4 0)), dhi (s.coordValue (fld w0 4 0))] else [s.regRead (fld w0 19 0)]
    (s.setSignal n { x with took := s.cc + 1 }).histEntry n s.cc (nsOf s.now) v
  else s)

/-- SEGMENT_AGE_EXPIRY (R475): at a scheduler tick, an open segment of the age of SEGAGE closes
(see assumption 2, DESIGN CHOICE). -/
def execSegmentAgeExpiry (n : Fin 16384) (s : State) : Host.Outcome State Fault Refusal :=
  .next (match (s.signal n.val).seg with
  | none => s
  | some g => if g.born + s.rfld (offHist 0) 16 0 * tUs ≤ s.elapsedAt (s.sched.tick * tUs) then s.closeSeg n.val else s)

/-- A closed segment is written into the ring through the HIST port: room is made, WR and FILL advance, and its words are delivered
and produced (R472, R476, R477). -/
def State.ringWrite (s : State) (g : ClosedSeg) : State :=
  let n := g.words.length
  let wr := (s.reg (offHist 1)).toNat
  let s := if s.histLen < wr + n then s.histSkip (s.histLen - wr) else s
  let s := State.histRoom n (s.hist.resident.length + 1) s
  let wr := (s.reg (offHist 1)).toNat
  let s := s.histPut (s.histBase + wr) g.words
  let s := (s.setReg (offHist 1) (wd (if s.histLen ≤ wr + n then 0 else wr + n))).setReg (offHist 3)
    (wd ((s.reg (offHist 3)).toNat + n))
  let s := { s with hist := { s.hist with resident := s.hist.resident ++ [n] } }
  ((s.deliver strHist g.entryWords).produce strHistHost n).tallyMax 50 (s.reg (offHist 3)).toNat

/-- SEGMENT_WRITE_DONE (R472, R475 - R477): the oldest closed segment is in the ring; where the write finds an entry that the staging
code cannot correct, the part before it is. -/
def execSegmentWriteDone (s : State) : Host.Outcome State Fault Refusal :=
  .next (match s.hist.closed with
  | [] => s
  | g :: r =>
    match g.src, g.bad with
    | some o, i :: _ =>
      let (parts, s) := s.cutSegment g o i
      match parts with
      | [] => { s with hist := { s.hist with closed := r } }
      | p :: q =>
        if i = 0 then { s with hist := { s.hist with closed := p :: q ++ r } }
        else State.ringWrite { s with hist := { s.hist with closed := q ++ r } } p
    | _, _ => State.ringWrite { s with hist := { s.hist with closed := r } } g)

/-- RECMARK (R195, R474). -/
def execRecmark (c : CoreId) (f : CF) (s : State) : Host.Outcome State Fault Refusal :=
  runInstr c (encC 0x98 f) (f.a != 0 || 16384 ≤ f.sel.toNat) (fun k s =>
    .next (if s.declared f.sel.toNat then s.histMark f.sel.toNat (s.g k f.d.toNat) else s.refuse k 4)) s

/-! ### Arming (R480, R484) -/

/-- NCHM1 + 1. -/
def Capture.nch (x : Capture) : Nat := fld (x.w 0) 33 32 + 1
/-- FULLN. -/
def Capture.fulln (x : Capture) : Nat := fld (x.w 1) 34 31
/-- PRE. -/
def Capture.pre (x : Capture) : Nat := fld (x.w 9) 35 18
/-- POST. -/
def Capture.post (x : Capture) : Nat := fld (x.w 9) 17 0
/-- MEAS. -/
def Capture.meas (x : Capture) : Bool := bit (x.w 11) 35

/-- Record size in words of a descriptor (R480). -/
def Capture.size (x : Capture) : Nat := 16 + 16 * (if x.meas then x.nch else 0) + (x.pre + x.post) * x.nch

/-- Does a channel word name a source of its kind (R480) (see assumption 34, DEDUCED). -/
def chanOk (w : Word) : Bool :=
  let src := fld w 19 0
  fld w 31 20 = 0 &&
    (match fld w 35 32 with
      | 0 => true
      | 1 => decide (src < 64)
      | 2 => decide (src < 8192)
      | 3 => decide (src < 32) && src != 0
      | 4 => decide (src < 32)
      | 5 => isCell src
      | _ => false)

/-- The checks of CAPARM (R480). -/
def State.capOk (s : State) (ws : List Word) : Bool :=
  let x : Capture := { desc := ws }
  let w := x.w
  let kind (i : Nat) : Nat := fld (w (2 + i)) 35 32
  let tk := x.tkind
  let first := fld (w 10) 33 24
  let n := fld (w 10) 10 0
  fld (w 0) 20 0 = 0 && fld (w 1) 30 20 = 0 && decide (x.fulln ≤ 12) && decide (1 ≤ tk) && decide (tk ≤ 7)
    && (if x.native then fld (w 1) 19 0 = 0 else decide (16 ≤ fld (w 1) 19 0))
    && !((tk = 1 || tk = 2 || tk = 3) && fld (w 0) 27 26 = 0)
    && (List.range 4).all (fun i => chanOk (w (2 + i)) && (decide (i < x.nch) || kind i = 0)) && kind 0 != 0
    && (!x.native || kind 0 = 1 || kind 0 = 2)
    && !((tk = 1 || tk = 2) && (kind 0 = 3 || kind 0 = 4)) && (tk != 3 || kind 0 = 4)
    && (tk = 2 || w 7 = 0) && !bit (w 8) 35 && decide (1 ≤ x.post)
    && fld (w 10) 35 34 = 0 && fld (w 10) 23 11 = 0 && decide (1 ≤ n) && decide (n ≤ 1024) && decide (first + n ≤ 1024)
    && fld (w 11) 34 11 = 0 && (List.range 4).all (fun i => w (12 + i) = 0) && decide (x.size ≤ 8192)
    && (List.range n).all (fun i => decide (x.size ≤ s.bufCap (first + i)))

/-- Arm capture unit u with a descriptor: ARMED, unprimed, with an empty pre-trigger memory (R484)
(see assumption 34, DEDUCED). -/
def State.capArm (s : State) (u : Nat) (ws : List Word) : State :=
  let x := s.cap u
  let o (i : Nat) : Int :=
    let w := ws.getD (2 + i) 0
    if fld w 35 32 = 3 then s.coordNow (fld w 4 0) else 0
  s.setCap u { missed := x.missed, records := x.records, drive := x.drive, st := 1, desc := ws, armedAt := s.cc
               origin := (List.range 4).map o }

/-- Capture unit u becomes IDLE; its closed records go on to their buffers. -/
def State.capIdle (s : State) (u : Nat) : State :=
  let x := s.cap u
  s.setCap u { missed := x.missed, records := x.records, drive := x.drive }

/-- CAPARM (R195, R480, R484) (see assumption 34, DEDUCED). -/
def execCaparm (c : CoreId) (f : CF) (s : State) : Host.Outcome State Fault Refusal :=
  runInstr c (encC 0x99 f) (16 ≤ f.sel.toNat) (fun k s =>
    let u := f.sel.toNat % 16
    let a := s.g k f.a.toNat
    if s.accessN k false false a 16 = .fault then .flt 0x08 a s
    else if k < 64 && Tab.get 0 s.owners (offCap u 0) != k + 1 then .flt 0x09 (wd (offCap u 0)) s
    else consume s k false a 16 (fun ws s =>
      let x := s.cap u
      let was := wd x.st
      let stop := bit (ws.getD 0 0) 35
      let t :=
        if !stop && !s.capOk ws then s.refuse k 2
        else if 2 ≤ x.st then s.setCap u { x with held := some ws }
        else if stop then s.capIdle u else s.capArm u ws
      .next (t.setG k f.d.toNat was))) s

/-! ### Pacing and triggers (R481 - R483) -/

/-- The counts of a COORD channel from its ORIGIN, as S19.16 before saturation (R481). -/
def State.capCounts (s : State) (x : Capture) (i : Nat) : Int :=
  (s.coordNow (fld (x.w (2 + i)) 19 0) - x.origin.getD i 0) / 2 ^ 16

/-- Does the value of channel i saturate (R481, R486). -/
def State.capSat (s : State) (x : Capture) (i : Nat) : Bool :=
  fld (x.w (2 + i)) 35 32 = 3 && s.capCounts x i != satS36 (s.capCounts x i)

/-- The value of channel i of unit u (R481). -/
def State.capValue (s : State) (x : Capture) (i : Nat) : Int :=
  let w := x.w (2 + i)
  let src := fld w 19 0
  match fld w 35 32 with
  | 1 => s36 (s.reg (offAin src 3))
  | 2 => (s.lane (src % 1024)).nodes.getD (src / 1024) 0
  | 3 => satS36 (s.capCounts x i)
  | 4 => (b2n (bit (s.finWord src 1) 35) : Nat)
  | 5 => s36 (s.regRead src)
  | _ => 0

/-- Reading a CELL channel is a read of its register: an RC field of it is cleared (R15, R481). -/
def State.capReads (s : State) (x : Capture) : State :=
  (List.range x.nch).foldl (fun s i =>
    let w := x.w (2 + i)
    if fld w 35 32 = 5 then s.regClear (fld w 19 0) else s) s

/-- The crossing of a limit between two paced values, in 2^-16 ns, truncated (R483). -/
def crossTime (t0 t1 : Nat) (x0 x1 l : Int) : Nat :=
  t0 * 2 ^ 16 + (t1 - t0) * 2 ^ 16 * (l - x0).natAbs / (x1 - x0).natAbs

/-- The trigger of a new value v of channel 0 at time t, if any, and the priming after it (R482, R483)
(see assumption 34, DEDUCED). -/
def Capture.detect (x : Capture) (v : Int) (t : Nat) : Option (Nat × Nat) × Bool × Bool :=
  let dir := fld (x.w 0) 27 26
  let lev := s36 (x.w 6)
  let high := s36 (x.w 7)
  let hys := s36 (x.w 8)
  let up := dir = 1 || dir = 3
  let down := dir = 2 || dir = 3
  match x.tkind, x.prev with
  | 1, some (p, tp) =>
    let r := up && x.primedRise && decide (p < lev) && decide (lev ≤ v)
    let f := down && x.primedFall && decide (lev < p) && decide (v ≤ lev)
    -- the trigger clears what was primed; the value that fired one direction may prime the other
    if r || f then (some (1, crossTime tp t p v lev), up && decide (v < lev - hys), down && decide (lev + hys < v))
    else (none, x.primedRise || (up && decide (v < lev - hys)), x.primedFall || (down && decide (lev + hys < v)))
  | 1, none => (none, up && decide (v < lev - hys), down && decide (lev + hys < v))
  | 2, some (p, tp) =>
    let inside := decide (lev ≤ p) && decide (p ≤ high)
    let r := up && x.primedRise && inside && decide (high < v)
    let f := down && x.primedRise && inside && decide (v < lev)
    if r then (some (2, crossTime tp t p v high), false, false)
    else if f then (some (2, crossTime tp t p v lev), false, false)
    else (none, x.primedRise || (decide (lev + hys ≤ v) && decide (v ≤ high - hys)), false)
  | 2, none => (none, decide (lev + hys ≤ v) && decide (v ≤ high - hys), false)
  | 7, none => (some (7, t * 2 ^ 16), false, false)
  | _, _ => (none, x.primedRise, x.primedFall)

/-- The newest n of a list. -/
def newest {α : Type} (n : Nat) (l : List α) : List α := l.drop (l.length - n)

/-- CAPTURE_PACE (R481 - R483): at the pacing moment the channels are read, fulled and watched for the trigger. -/
def execCapturePace (u : Fin 16) (s : State) : Host.Outcome State Fault Refusal :=
  let u := u.val
  let x := s.cap u
  let per := fld (x.w 1) 19 0
  let due := x.st != 0 && cellsRun s.mode && x.pacedAt != s.cc + 1 &&
    (if x.native then x.fresh.isSome else decide (x.armedAt < s.cc) && (s.cc - x.armedAt) % per = 0)
  .next (if !due then s
  else
    let t := x.fresh.getD (nsOf s.now)
    let vs := (List.range x.nch).map (fun i => s.capValue x i)
    let sats := (List.range x.nch).map (fun i => x.sumSat.getD i false || s.capSat x i)
    let (hit, pr, pf) := x.detect (vs.getD 0 0) t
    let old := if x.st = 1 || x.index.isNone then newest x.pre x.samples else x.samples
    let first := x.n = 0
    let sums := if first then vs else (List.range x.nch).map (fun i => x.sums.getD i 0 + vs.getD i 0)
    let y := { x with
      pacedAt := s.cc + 1, fresh := none, prev := some (vs.getD 0 0, t), primedRise := pr, primedFall := pf, sums := sums
      n := x.n + 1, first := if first then t else x.first, firstCc := if first then s.cc else x.firstCc
      sumForced := x.sumForced || s.forceActive, samples := old, sumSat := sats }
    let full := decide (2 ^ x.fulln ≤ y.n)
    let y :=
      if x.st = 3 then { y with n := 0, samples := [], sumForced := false, sumSat := [] }
      else if !full then y
      else
        let smp : CapSample := { vals := sums.map (fun a => rshRound a x.fulln), time := y.first, cc := y.firstCc, last := t
                                 forced := y.sumForced, sat := sats }
        let reaches := x.st = 2 && x.index.isNone && (match x.trig with
          | some g => decide (g.target ≤ t * 2 ^ 16)
          | none => false)
        { y with n := 0, sumForced := false, sumSat := [], samples := old ++ [smp], index := if reaches then some old.length else x.index }
    let s := (s.capReads x).setCap u y
    match hit with
    | some (kind, time) => s.captureAt u kind time (t * 2 ^ 16)
    | none => s)

/-- The bytes of a trigger broadcast (R488): id, then fraction, nanoseconds and seconds of the time as 88 bits. -/
def trigBytes (id time : Nat) : List Byte :=
  let ns := time / 2 ^ 16
  le 1 id ++ le 11 (time % 2 ^ 16 + ns % 1000000000 * 2 ^ 16 + ns / 1000000000 % 2 ^ 42 * 2 ^ 46)

/-- A trigger broadcast waits at each running ring, at most 4 in order (R488) (see assumption 34, DEDUCED). -/
def State.broadcast (s : State) (id time : Nat) : State :=
  [0, 1].foldl (fun s r =>
    let x := s.ring r
    if !x.run then s
    else if x.trigQ.length < 4 then s.setRing r { x with trigQ := x.trigQ ++ [trigBytes id time] }
    else s.satRfld offTrigStat 17 0 1) s

/-- A trigger that finds the unit ARMED starts a record (R483, R484, R488, R489). -/
def State.capStart (s : State) (u : Nat) (g : Trigger) : State :=
  let x := s.cap u
  let paced := g.kind = 1 || g.kind = 2 || g.kind = 7
  let smps := if paced then x.samples else newest x.pre x.samples
  let late := !paced && (match smps.head? with
    | some h => decide (g.target < h.time * 2 ^ 16)
    | none => false)
  let index := if late then some 0 else smps.findIdx? (fun h => decide (g.target ≤ h.last * 2 ^ 16))
  let before := if paced then index.getD smps.length else smps.length
  let inc := (s.reg offTimeInc).toNat
  let due := g.time * 2 ^ 16 + s.rfld offTrigLat 15 0 * inc
  let out := bit (x.w 0) 24 && bit (s.reg (offTrigbus (fld (x.w 0) 23 21))) 35
  let s := s.setCap u { x with
    st := 2, samples := smps, trig := some g, index := index, late := late, short := decide (before < x.pre)
    drive := if out && decide (s.now ≤ due) then x.drive ++ [(fld (x.w 0) 23 21, due)] else x.drive }
  let s := if out && decide (due < s.now) then s.satRfld offTrigStat 35 18 1 else s
  if bit (x.w 0) 25 then s.broadcast (fld (x.w 6) 7 0) g.time else s

/-- CAPTURE_TRIGGER (R484): the triggers of one cell clock are one, with the earliest time; they start a record, or count as
RETRIG or MISSED (see assumption 34, DEDUCED). -/
def execCaptureTrigger (u : Fin 16) (kind : BitVec 4) (time : DWord) (frac : BitVec 16) (s : State) :
    Host.Outcome State Fault Refusal :=
  let u := u.val
  let x := s.cap u
  let t16 := nsOf (ofT72 time) * 2 ^ 16 + frac.toNat
  .next (match x.triggers.find? (fun g => g.kind = kind.toNat && g.time = t16) with
  | none => s
  | some g =>
    let same := x.triggers.filter (fun h => h.cc = g.cc)
    let best := same.foldl (fun a h => if h.time < a.time then h else a) g
    let s := s.setCap u { x with triggers := x.triggers.filter (fun h => h.cc != g.cc) }
    if x.st = 1 then s.capStart u best
    else if x.st = 2 then s.satRfld (offCap u 2) 17 0 1
    else if x.st = 3 then
      let s := (s.setCap u { s.cap u with missed := satAdd x.missed 1 36 }).satRfld (offCap u 2) 35 18 1
      (s.produce (strCap u) 1).drop (strCap u) 6 1
    else s)

/-! ### Records (R485, R486) -/

/-- Saturated word of an integer, and whether it saturated. -/
def satWord (x : Int) : Word × Bool := (wdI (satS36 x), x != satS36 x)

/-- Saturated unsigned word. -/
def satU (x : Int) : Word × Bool := (wd (min x.toNat (2 ^ 36 - 1)), decide (2 ^ 36 ≤ x))

/-- Rising crossings of level l (in 1/20) in 2^-16 ns; with `prime`, each is primed by a value below it (R483, R486). -/
def risings (l : Int) (prime : Option Int) : List (Int × Nat) → Bool → List Nat
  | (x0, t0) :: (x1, t1) :: r, primed =>
    let primed := primed || (match prime with
      | some p => decide (x0 < p)
      | none => true)
    if primed && decide (x0 < l) && decide (l ≤ x1) then
      crossTime t0 t1 x0 x1 l :: risings l prime ((x1, t1) :: r) false
    else risings l prime ((x1, t1) :: r) primed
  | _, _ => []

/-- Falling crossings of level l. -/
def fallings (l : Int) (xs : List (Int × Nat)) : List Nat := risings (-l) none (xs.map (fun e => (-e.1, e.2))) false

/-- First of the second list that is later than the first of the first list, less that one. -/
def riseTime (a b : List Nat) : Option Nat :=
  a.head?.bind (fun t => (b.find? (fun u => decide (t ≤ u))).map (· - t))

/-- The measurement block of one channel, of which a sample has saturated or not (R486) (see assumption 34, DEDUCED). -/
def measure (xs : List (Int × Nat)) (sat : Bool) : List Word :=
  let vs := xs.map Prod.fst
  let n : Int := max xs.length 1
  let mn := vs.foldl min (vs.headD 0)
  let mx := vs.foldl max (vs.headD 0)
  let ampl := mx - mn
  let mean := divRound vs.sum n
  -- four times the mean square, truncated: half of its root rounds to the nearest
  let sq := (vs.map (fun v => v * v)).sum * 4 / n
  let rms := (sqrtI sq + 1) / 2
  let ys := xs.map (fun e => (20 * e.1, e.2))
  let mid := 10 * (mn + mx)
  let cr := risings mid (some (mid - 2 * ampl)) ys false
  let per : Int := if cr.length < 2 then 0 else ((cr.getLast?.getD 0 : Nat) - (cr.headD 0 : Nat) : Int) / ((cr.length - 1) * 256)
  let freq : Int := if per = 0 then 0 else 1000000000000 * 256 / per
  let lo := 20 * mn + 2 * ampl
  let hi := 20 * mn + 18 * ampl
  let rise := riseTime (risings lo none ys false) (risings hi none ys false)
  let fall := riseTime (fallings hi ys) (fallings lo ys)
  let k : Nat := min 16 vs.length
  let i0 : Int := (vs.take k).sum
  let f0 : Int := (newest k vs).sum
  let ovs : Int := if f0 = i0 then 0 else
    let d := f0 - i0
    (k * mx - f0) * 2 ^ 35 * (if d < 0 then -1 else 1) / d.natAbs
  let w (p : Word × Bool) : Word := p.1
  let rs : List (Word × Bool) := [satWord mn, satWord mx, satWord mean, satWord rms, satWord ampl, satU per, satU freq,
    satU ((rise.getD 0 : Nat) / 256), satU ((fall.getD 0 : Nat) / 256), satWord ovs]
  let flags := b2n (decide (cr.length < 2)) + 2 * b2n rise.isNone + 4 * b2n fall.isNone + 8 * b2n (sat || rs.any Prod.snd)
  rs.map w ++ [wd flags, 0, 0, 0, 0, 0]

/-- The words of a record of unit u (R485); post samples counted from the trigger sample. -/
def State.capRecord (s : State) (u : Nat) (cut : Bool) : List Word :=
  let x := s.cap u
  let idx := x.index.getD x.samples.length
  let smps := if cut then x.samples else x.samples.take (idx + x.post)
  let g := x.trig.getD ⟨0, 0, 0, 0⟩
  let ccs := smps.map CapSample.cc
  let gap (i : Nat) : Nat := ccs.getD (i + 1) 0 - ccs.getD i 0
  let spacing := if !x.native then fld (x.w 1) 19 0 * 2 ^ x.fulln else if ccs.length < 2 then 0 else gap 0
  let irreg := x.native && (List.range (ccs.length - 1)).any (fun i => gap i != spacing)
  let forced := s.forceActive || x.sumForced || smps.any CapSample.forced
  let w0 := at_ u 32 + at_ (b2n x.short) 31 + at_ (b2n forced) 30 + at_ (b2n x.meas) 29 + at_ (x.nch - 1) 27 + at_ g.kind 23
    + at_ x.fulln 19 + at_ (b2n irreg) 18 + at_ (b2n x.late) 17 + at_ (b2n cut) 16
  let tt := t72ns (g.time / 2 ^ 16)
  let t0 := t72ns ((smps.head?.map CapSample.time).getD 0)
  let chans := List.range x.nch
  let org := match chans.find? (fun i => fld (x.w (2 + i)) 35 32 = 3) with
    | some i => dwI (x.origin.getD i 0)
    | none => 0
  let hdr := [wd w0, wd (at_ idx 18 + (smps.length - idx)), s.reg (offCap u 1), wd x.missed, dlo tt, dhi tt,
    wd (g.time % 2 ^ 16), wd spacing, dlo t0, dhi t0, dlo org, dhi org, wd idx, 0, 0, 0]
  let meas := if x.meas then chans.flatMap (fun i => measure (smps.map (fun h => (h.vals.getD i 0, h.time))) (smps.any (fun h => h.sat.getD i false))) else []
  hdr ++ meas ++ smps.flatMap (fun h => chans.map (fun i => wdI (h.vals.getD i 0)))

/-- ETASK of an arming (R480). -/
def Capture.etask (x : Capture) : Nat := fld (x.w 11) 10 0

/-- The word that task t, the ETASK of the record's arming, is posted with at the next tick (R487). -/
def State.capPost (s : State) (u t kind b : Nat) : State :=
  { s with sched := { s.sched with posts := s.sched.posts ++ [(t, wd (at_ kind 32 + at_ u 28 + b), s.cc)] } }

/-- The record of unit u closes (R484, R487): delivery begins, or it is dropped for want of a buffer
(see assumption 34, DEDUCED). -/
def State.capClose (s : State) (u : Nat) (cut : Bool) : State :=
  let x := s.cap u
  let ws := s.capRecord u cut
  let first := fld (x.w 10) 33 24
  let busy (b : Nat) : Bool := s.caps.any (fun e => e.2.records.any (fun r => r.buffer = b))
  let b := ((List.range (fld (x.w 10) 10 0)).map (· + first)).find? (fun b => s.bufDevice b && !busy b)
  let s := (s.incReg (offCap u 1) 1).produce (strCap u) 1
  let s := match b with
    | some b => s.setCap u { x with records := x.records ++ [CapRecord.mk ws b false x.etask] }
    | none => ((s.drop (strCap u) 0x0C 1).satRfld (offCap u 3) 35 18 1).capPost u x.etask 2 0
  let y := s.cap u
  let rearm := !cut && (bit (x.w 0) 34 || x.held.isSome)
  if rearm then s.setCap u { y with st := 3, missed := 0, samples := [], trig := none, index := none, n := 0 }
  else State.capIdle (s.setCap u { y with missed := 0 }) u

/-- RECORD_CLOSE (R484): the record holds POST samples from the trigger sample on. -/
def execRecordClose (u : Fin 16) (s : State) : Host.Outcome State Fault Refusal :=
  let x := s.cap u.val
  .next (match x.st, x.index with
  | 2, some i => if i + x.post ≤ x.samples.length then s.capClose u.val false else s
  | _, _ => s)

/-- A mode is entered in which units do not record (R484): records close CUT, every unit becomes IDLE. -/
def State.capsCut (s : State) : State :=
  (List.range 16).foldl (fun s u =>
    let s := if (s.cap u).st = 2 then s.capClose u true else s
    s.capIdle u) s

/-- Closed records that wait are dropped under a reason (R487). -/
def State.capsDrop (s : State) (reason : Nat) : State :=
  (List.range 16).foldl (fun s u =>
    let x := s.cap u
    (s.drop (strCap u) reason x.records.length).setCap u { x with records := [] }) s

/-- RECORD_COPY_DONE (R487): the oldest record's copy through the HIST port ends and its buffer passes to HOST; a copy that reads a
poisoned line is dropped under 0x02, and the buffer stays with DEVICE. -/
def execRecordCopyDone (u : Fin 16) (s : State) : Host.Outcome State Fault Refusal :=
  let u := u.val
  let x := s.cap u
  .next (match x.records with
  | [] => s
  | r :: rest =>
    let s := s.setCap u { x with records := rest }
    if r.poison then (s.drop (strCap u) 2 1).capPost u r.etask 2 0
    else
      (((s.histPut (s.bufAddr r.buffer) r.words).passBuf r.buffer r.words.length 1 (16 + u) false).deliver (strCap u) 1).capPost u
        r.etask 1 r.buffer)

/-- CAPTURE_REARM (R484): once a half of the record memory is free; a held CAPARM takes the place of the re-arm. -/
def execCaptureRearm (u : Fin 16) (s : State) : Host.Outcome State Fault Refusal :=
  let u := u.val
  let x := s.cap u
  .next (if x.st != 3 || 2 ≤ x.records.length then s
  else match x.held with
  | some ws => if bit (ws.getD 0 0) 35 then s.capIdle u else s.capArm u ws
  | none => s.capArm u x.desc)

/-! ### The trigger bus (R489) -/

/-- TRIGGER_BUS_PULSE: with RXEN, units of TKIND BUS on the line are triggered at the stamp less DLY and BUSLAT. -/
def execTriggerBusPulse (l : Fin 8) (stamp : DWord) (frac : BitVec 16) (s : State) : Host.Outcome State Fault Refusal :=
  let w := s.reg (offTrigbus l.val)
  let inc := (s.reg offTimeInc).toNat
  let back := (fld w 15 0 * inc / 32 + s.rfld offTrigLat 15 0 * inc) / 2 ^ 16
  let t := nsOf (ofT72 stamp) * 2 ^ 16 + frac.toNat - back
  .next (if !bit w 34 then s
  else (List.range 16).foldl (fun s u =>
    let x := s.cap u
    if x.tkind = 5 && fld (x.w 0) 23 21 = l.val then s.captureHit u 5 t else s) s)

/-- A past moment placed to 1/32 cc: the last such step not later than it (R489) (see assumption 34, DEDUCED). -/
def State.placed (s : State) (t : Nat) : Nat :=
  let inc := (s.reg offTimeInc).toNat
  s.now - ((s.now - t) * 32 + inc - 1) / max inc 1 * inc / 32

/-- BUS_PULSE_DRIVE: the pulse of unit u's trigger is driven with its rising edge at its moment, or counted in BUSLATE. -/
def execBusPulseDrive (u : Fin 16) (s : State) : Host.Outcome State Fault Refusal :=
  let u := u.val
  let x := s.cap u
  .next (match x.drive with
  | [] => s
  | (line, t) :: r =>
    if s.now < t then s
    else
      let last := Tab.get 0 s.pulses line
      let t := s.placed t
      let s := s.setCap u { x with drive := r }
      if last != 0 && decide (s.elapsedAt t < last - 1 + 16 * (s.reg offTimeInc).toNat) then s.satRfld offTrigStat 35 18 1
      else { s with outbox := s.outbox ++ [Msg.busPulse line t], pulses := Tab.put 0 s.pulses line (s.elapsedAt t + 1) })

end Sys2Proof.Machine
end

