-- ==== Sys2Proof/Machine/Journal.lean ====
section
/-! DEFINITION. The step journal (R190 - R194, R308 - R328): its lines in Crown memory, room and reclaiming, the journal
instructions, and the mirror in a pair. -/

namespace Sys2Proof.Machine

/-! ### Line records of the pair port (R60, R540) -/

/-- Number of a line within its own memory (R60). -/
def lineRel (l : Nat) : Nat :=
  let a := 8 * l
  if Config.dramBase ≤ a then (a - Config.dramBase) / 8
  else if Config.crownBase ≤ a then (a - Config.crownBase) / 8
  else (a - Config.quadBase) % Config.quadWords / 8

/-- TAG of a line (R60). -/
def lineTag (l : Nat) : Nat :=
  let n := lineRel l
  (n % 8192) ^^^ (n / 8192 % 8192) ^^^ (n / 2 ^ 26 % 32)

/-- The 24 metadata bits of a line (R60). -/
def LineMeta.bits (m : LineMeta) (l : Nat) : Nat :=
  at_ m.owner.toNat 22 + at_ (b2n m.poison) 21 + at_ (lineTag l) 8 + m.version.toNat

/-- The 64-byte record of a line with this metadata and these words (R540). -/
def lineBytes (l : Nat) (m : LineMeta) (ws : List Word) : List Byte :=
  let b := unpackBytes 5 (8 * l) ++ unpackBytes 1 1 ++ unpackBytes 3 (m.bits l)
    ++ unpackBytes 36 (packWords ws) ++ unpackBytes 15 0
  b ++ unpackBytes 4 (crc32c b)

/-- The 64-byte record of a stored line (R540). -/
def State.lineRecord (s : State) (l : Nat) : List Byte := lineBytes l (s.lineMeta l) (s.lineWords l)

/-! ### The journal region (R308 - R313) -/

/-- First word of the journal region (R308). -/
def jrnlBase : Nat := 0x2720000

/-- Word w of journal line i. -/
def State.jWord (s : State) (i w : Nat) : Word := s.word (jrnlBase + 8 * i + w)

/-- KIND of journal line i: 0 FREE, 1 INTENT, 2 PROGRESS, 3 DONE, 4 RESERVED (R311). -/
def State.jKind (s : State) (i : Nat) : Nat := fld (s.jWord i 0) 35 32

/-- The lines that are not FREE. -/
def State.jLines (s : State) : List Nat :=
  (s.mem.words.filter (fun e => jrnlBase ≤ e.1 && e.1 < jrnlBase + 65536 && e.1 % 8 = 0 && fld e.2 35 32 != 0)).map
    (fun e => (e.1 - jrnlBase) / 8)

/-- The lines of a step. -/
def State.jStep (s : State) (h : Word) : List Nat := s.jLines.filter (fun i => s.jWord i 1 = h)

/-- The line of a kind of a step, and for PROGRESS of a field. -/
def State.jFind (s : State) (h : Word) (kind field : Nat) : Option Nat :=
  (s.jStep h).find? (fun i => s.jKind i = kind && fld (s.jWord i 0) 31 28 = field)

/-- An open step has an intent record but no done record (R194). -/
def State.jOpen (s : State) (h : Word) : Bool := (s.jFind h 1 0).isSome && (s.jFind h 3 0).isNone

/-- Insert by a rank that rises. -/
def insertBy {α : Type} (f : α → Nat) (x : α) : List α → List α
  | [] => [x]
  | y :: r => if f x < f y then x :: y :: r else y :: insertBy f x r

/-- Sort by a rank that rises; equal ranks keep their order. -/
def sortBy {α : Type} (f : α → Nat) (l : List α) : List α := l.foldl (fun a x => insertBy f x a) []

/-- The open steps, oldest intent first: handles are issued in sequence (R312), so age is the distance from JRNL.HANDLE. -/
def State.jOpenSteps (s : State) : List Word :=
  let hs := (s.jLines.filter (fun i => s.jKind i = 1)).map (fun i => s.jWord i 1)
  sortBy (fun h => (h - s.reg (offJrnl 1)).toNat) ((hs.filter s.jOpen).map (fun h => h - 1)) |>.map (· + 1)

/-- The closed steps, oldest DONE stamp first (R314). -/
def State.jClosed (s : State) : List Word :=
  (sortBy (fun i => (dword (s.jWord i 2) (s.jWord i 3)).toNat) (s.jLines.filter (fun i => s.jKind i = 3))).map
    (fun i => s.jWord i 1)

/-- OPEN and FREE of JRNL.STAT follow the region (R319). -/
def State.jSync (s : State) : State :=
  (s.setRfld (offJrnl 0) 35 25 s.jOpenSteps.length).setRfld (offJrnl 0) 24 11 (8192 - s.jLines.length)

/-- The journal unit writes a whole line for core k, as a request of the core's port that the CROWN port serves (R309, R27): the state, and
whether Crown memory has acknowledged the line. A command beat that failed its check ends the request in an error response (R75). -/
def State.jPut (s : State) (k i : Nat) (ws : List Word) : Bool × State :=
  let (_, p, s) := s.transact (portReq (corePort k) 2 4 ((jrnlBase + 8 * i) / 8) .write 255 ws false)
  (!p, s.jSync)

/-- A journal instruction whose line i was not acknowledged consumes the poisoned error response (R66, R75), as does one that uses a poisoned
line: fault 0x02 at the line (see assumption 51, DEDUCED). -/
def jBad (i : Nat) (s : State) : Res := .flt 0x02 (wd (jrnlBase + 8 * i)) s

/-- The journal unit reads line i to rewrite it (R64, R66): is it poisoned. -/
def State.jMeets (s : State) (i : Nat) : Bool × State := s.meets (jrnlBase + 8 * i) 8

/-- The FREE line that a record takes: the manual does not say which (a free value) (see assumption 51, DEDUCED). -/
def State.jFreeLine (s : State) : Option (Nat × State) :=
  let used := s.jLines
  if 8192 ≤ used.length then none
  else
    let (w, s) := s.drawWord
    let n := w.toNat % (8192 - used.length)
    (((List.range 8192).filter (fun i => !used.contains i))[n]?).map (fun i => (i, s))

/-- Mark all lines of a closed step FREE (R314). -/
def State.jReclaim (s : State) (h : Word) : State :=
  ((s.jStep h).foldl (fun s i => s.agentWrite (jrnlBase + 8 * i) (List.replicate 8 0)) s).jSync

/-- Reclaim closed steps, the oldest first, until n lines are FREE; none where they never are. -/
def State.jRoom (n : Nat) : Nat → State → Option State
  | 0, s => if n + s.jLines.length ≤ 8192 then some s else none
  | fuel + 1, s =>
    if n + s.jLines.length ≤ 8192 then some s
    else match s.jClosed with
      | [] => none
      | h :: _ => State.jRoom n fuel (s.jReclaim h)

/-- The journal life (R325). -/
def State.jLife (s : State) : Nat := s.rfld (offJrnl 0) 10 3

/-- Word 0 of a record that core k writes (R311). -/
def State.jHead (s : State) (k kind field : Nat) : Word :=
  let n := ((s.core k).task).getD 0
  wd (at_ kind 32 + at_ field 28 + at_ (b2n (k = 65)) 27 + at_ (if k < 64 then k else 0) 21
    + at_ (if n < 1024 then n / 256 else 0) 16 + at_ (if n < 1024 then n % 256 else n % 64) 8 + s.jLife)

/-- A record (R311) (see assumption 51, DEDUCED). -/
def State.jRecord (s : State) (k kind field : Nat) (h w4 w5 : Word) : List Word :=
  [s.jHead k kind field, h, dlo s.t72, dhi s.t72, w4, w5, 0, 0]

/-- The next handle: after the last one issued, not 0, not one that still has records (R312). -/
def State.jNextHandle (s : State) : Nat → Word → Word
  | 0, h => h
  | fuel + 1, h => if h = 0 || s.jStep h != [] then State.jNextHandle s fuel (h + 1) else h

/-- Fault 0x0C: FULL is set and counted (R314, R319, R320). ADDR is the handle for JPROG, as R314 says of this fault, and
not the 0 of R145's general case (see assumption 51, DEDUCED). -/
def State.jFull (s : State) (addr : Word) : Res :=
  .flt 0x0C addr ((s.setRfld (offJrnl 0) 0 0 1).incReg (offJrnl 3) 1)

/-- Has hold-up begun: no journal write is served from then on (R321). -/
def State.holdup (s : State) : Bool := bit (s.reg offSysMode) 6

/-- The end of JBEGIN or JEND: Gd or Z. -/
def State.jFinish (s : State) (k : Nat) (begins : Bool) (d : Nat) (h : Word) : State :=
  if begins then s.setG k d h else s.flags k { z := some true }

/-- A journal instruction of hold-up is never completed: its core stands still until power is lost (R321). -/
def State.jStall (s : State) (k : Nat) : Res := .left (s.setCore k { s.core k with stalled := true })

/-- Complete a JBEGIN or JEND with instruction word w whose line i is written: at once, or after the standby's acknowledgement
(R322). -/
def State.jComplete (s : State) (k : Nat) (begins : Bool) (d : Nat) (h : Word) (i : Nat) (w : Word) : Res :=
  if bit (s.reg (offJrnl 0)) 2 then
    let s := { s with outbox := s.outbox ++ [Msg.pairRecord (s.lineRecord ((jrnlBase + 8 * i) / 8))] }
    .left { s with mirror := s.mirror ++ [MirrorWait.mk k begins d h w] }
  else .next (s.jFinish k begins d h)

/-- JBEGIN (R191, R312 - R314). -/
def execJbegin (c : CoreId) (f : CF) (s : State) : Host.Outcome State Fault Refusal :=
  runInstr c (encC 0x90 f) (f.sel != 0) (fun k s =>
    let s := s.fence k
    if s.holdup then s.jStall k
    else if 1024 ≤ s.jOpenSteps.length then s.jFull 0
    else match State.jRoom 2 8192 s with
    | none => s.jFull 0
    | some s =>
      let h := s.jNextHandle 8193 (s.reg (offJrnl 1) + 1)
      match s.jFreeLine with
      | none => s.jFull 0
      | some (i, s) =>
        let (ok, s) := s.jPut k i (s.jRecord k 1 0 h (s.g k f.a.toNat) 0)
        if !ok then jBad i s
        else
          let s := s.setReg (offJrnl 1) h
          match s.jFreeLine with
          | none => s.jFull 0
          | some (j, s) =>
            let (ok, s) := s.jPut k j (s.jRecord k 4 0 h 0 0)
            if !ok then jBad j s else s.jComplete k true f.d.toNat h i (encC 0x90 f)) s

/-- JPROG writes line i of a field: WRITES counts the writes of the field (R192, R311, R313). -/
def State.jProgress (s : State) (k i fd : Nat) (h v writes : Word) : Res :=
  let (ok, s) := s.jPut k i (s.jRecord k 2 fd h v writes)
  if !ok then jBad i s else .next { s with jLast := Tab.put 0 s.jLast h.toNat (i + 1) }

/-- JPROG (R192, R313, R314). -/
def execJprog (c : CoreId) (f : RF) (s : State) : Host.Outcome State Fault Refusal :=
  runInstr c (encR 0x91 f) (f.d != 0 || f.fn.toNat / 16 != 0) (fun k s =>
    let h := s.g k f.a.toNat
    let fd := f.fn.toNat % 16
    let v := s.g k f.b.toNat
    if s.holdup then s.jStall k
    else if !s.jOpen h then .next (s.refuse k 4)
    else match s.jFind h 2 fd with
    | some i =>
      let (p, s) := s.jMeets i
      if p then jBad i s else s.jProgress k i fd h v (s.jWord i 5 + 1)
    | none =>
      match State.jRoom 1 8192 s with
      | none => s.jFull h
      | some s =>
        match s.jFreeLine with
        | none => s.jFull h
        | some (i, s) => s.jProgress k i fd h v 1) s

/-- JEND (R193, R313): the RESERVED line becomes the DONE line. -/
def execJend (c : CoreId) (f : RF) (s : State) : Host.Outcome State Fault Refusal :=
  runInstr c (encR 0x92 f) (f.d != 0 || f.b != 0 || f.fn != 0) (fun k s =>
    let s := s.fence k
    let h := s.g k f.a.toNat
    if s.holdup then s.jStall k
    else match s.jOpen h, s.jFind h 1 0, s.jFind h 4 0 with
    | true, some i, some j =>
      let (p, s) := s.jMeets i
      if p then jBad i s
      else
        let (ok, s) := s.jPut k j (s.jRecord k 3 0 h (s.jWord i 4) 0)
        if !ok then jBad j s else s.jComplete k false 0 h j (encR 0x92 f)
    | _, _, _ => .next ((s.refuse k 4).flags k { z := some false })) s

/-- Was journal line i written after journal line j: by the journal life, which rises at each restart, then by the stamp (R318,
R325). -/
def State.jNewer (s : State) (i j : Nat) : Bool :=
  let age (n : Nat) : Nat := (s.jLife + 256 - fld (s.jWord n 0) 7 0) % 256
  decide (age i < age j) || (age i = age j && decide ((dword (s.jWord j 2) (s.jWord j 3)).toNat < (dword (s.jWord i 2) (s.jWord i 3)).toNat))

/-- The 64 words of a JQUERY entry (R318). The most recent PROGRESS write is the one that the journal unit served last; of those before the
latest restart, the newest by life and stamp (see assumption 51, DEDUCED). -/
def State.jEntry (s : State) (h : Word) : List Word :=
  let i := (s.jFind h 1 0).getD 0
  let p (k : Nat) : Option Nat := s.jFind h 2 k
  let fields := ((List.range 16).map (fun k => at_ (b2n (p k).isSome) k)).sum
  let stamp (k : Nat) : DWord := match p k with
    | some j => dword (s.jWord j 2) (s.jWord j 3)
    | none => 0
  let newest := ((List.range 16).filterMap p).foldl (fun (m : Option Nat) i => match m with
    | some j => if s.jNewer i j then some i else some j
    | none => some i) none
  let latest := ((List.range 16).filterMap p).find? (fun i => Tab.get 0 s.jLast h.toNat = i + 1)
  let last : DWord := match latest.orElse (fun _ => newest) with
    | some i => dword (s.jWord i 2) (s.jWord i 3)
    | none => 0
  [h, s.jWord i 4, s.jWord i 2, s.jWord i 3, s.jWord i 0, wd fields, dlo last, dhi last]
    ++ (List.range 16).map (fun k => match p k with
      | some j => s.jWord j 4
      | none => 0)
    ++ (List.range 16).flatMap (fun k => [dlo (stamp k), dhi (stamp k)]) ++ List.replicate 8 0

/-- The journal unit reads the lines of these steps (R64): is one of them poisoned, and the state after the reads. -/
def State.jRead (s : State) (hs : List Word) : Bool × State :=
  let ls := (hs.flatMap s.jStep).map (jrnlBase / 8 + ·)
  (ls.any (fun l => (ls.foldl State.decode s).poisoned (8 * l)), ls.foldl State.decode s)

/-- JQUERY (R194, R318): a poisoned line of a step that it reports is consumed (R66) (see assumption 51, DEDUCED). -/
def execJquery (c : CoreId) (f : CF) (s : State) : Host.Outcome State Fault Refusal :=
  runInstr c (encC 0x93 f) (f.sel.toNat / 4096 != 0) (fun k s =>
    let a := s.g k f.a.toNat
    let n := f.sel.toNat % 4096
    let hs := s.jOpenSteps
    match s.accessN k true false a (64 * n) with
    | .fault => .flt 0x08 a s
    | .refused => .next ((s.refuse k 4).setG k f.d.toNat (wd hs.length))
    | .ok =>
      let (p, s) := s.jRead (hs.take n)
      let ws := (hs.take n).flatMap s.jEntry
      if p then .flt 0x02 a s else .next ((State.writeN k ws.length (s.twinBlock k ws) a.toNat ws).setG k f.d.toNat (wd hs.length))) s

/-! ### The mirror, clearing, life and restart (R322 - R328) -/

/-- The waiting journal instruction of a core completes and goes on at the next address; a compared task's secondary twin receives
its result (R544). -/
def State.jRelease (s : State) (m : MirrorWait) : State :=
  let t := s.jFinish m.core m.begins m.d m.handle
  let t := match s.twinRole m.core with
    | some (e, false) => t.twinShare e (twinResult m.word (s.twinValues m.core m.word) [] (s.core m.core) (t.core m.core))
    | _ => t
  t.advance m.core ((s.core m.core).pc + 1)

/-- MIRROR_ACK (R322): the standby acknowledges the oldest line that waits (see assumption 51, DEDUCED). -/
def execMirrorAck (s : State) : Host.Outcome State Fault Refusal :=
  .next (match s.mirror with
  | [] => s
  | m :: r => { s with mirror := r }.jRelease m)

/-- The pair link is lost: MIRROR becomes 0 and the waiting instructions complete (R323). -/
def State.jUnmirror (s : State) : State :=
  let ms := s.mirror
  ms.foldl State.jRelease ({ s with mirror := [] }.setRfld (offJrnl 0) 2 2 0)

/-- The journal is emptied: by the host, or by BOOT without RESUME, which clears HANDLE and LIFE too (R328). -/
def State.jClear (s : State) (boot : Bool) : State :=
  let s := (s.jLines.foldl (fun s i => s.agentWrite (jrnlBase + 8 * i) (List.replicate 8 0)) s).jSync
  if boot then (s.setReg (offJrnl 1) 0).setRfld (offJrnl 0) 10 3 0 else s

/-- The journal life rises at RESUME and at a takeover (R325). -/
def State.jLifeUp (s : State) : State := s.setRfld (offJrnl 0) 10 3 (s.jLife + 1)

end Sys2Proof.Machine
end

