-- ==== Sys2Proof/Machine/TimeCue.lean ====
section
/-! DEFINITION. Time and cue instructions (R176 - R178). -/

namespace Sys2Proof.Machine

/-- TIMERD (R176): the T72 of this cell clock. -/
def execTimerd (c : CoreId) (f : RF) (s : State) : Host.Outcome State Fault Refusal :=
  runInstr c (encR 0x78 f) (f.a != 0 || f.b != 0 || f.fn != 0 || f.d.toNat % 2 = 1) (fun k s =>
    .next (s.setGG k f.d.toNat s.t72)) s

/-- CRD (R176): a coordinate's value, or with sel[5] its descriptor word 6. -/
def execCrd (c : CoreId) (f : CF) (s : State) : Host.Outcome State Fault Refusal :=
  let sel := f.sel.toNat
  runInstr c (encC 0x79 f) (f.a != 0 || sel / 64 != 0 || (sel / 32 = 0 && f.d.toNat % 2 = 1)) (fun k s =>
    if sel / 32 = 0 then .next (s.setGG k f.d.toNat (s.coordValue (sel % 32)))
    else .next (s.setG k f.d.toNat (s.coordWord6 (sel % 32)))) s

/-- The cue that CUE and CUEX name: sel[11:0], or Gd[11:0] when sel[19] is 1 (R177). -/
def State.cueNo (s : State) (k : Nat) (f : CF) : Nat :=
  if f.sel.getLsbD 19 then fld (s.g k f.d.toNat) 11 0 else f.sel.toNat % 4096

/-- CUE (R95 - R97, R177): arm a cue from the descriptor at Ga; Gd := the state before, Z := armed. A refused CUE on an own
armed cue leaves it CANCELLED, with REASON OWNER, or CROWN where pair 1 issues it (see assumption 15, DEDUCED). -/
def execCue (c : CoreId) (f : CF) (s : State) : Host.Outcome State Fault Refusal :=
  runInstr c (encC 0x7A f) (f.sel.toNat / 2 ^ 12 % 2 ^ 7 != 0) (fun k s =>
    let a := s.g k f.a.toNat
    let n := s.cueNo k f
    let x := s.cue n
    if s.accessN k false false a 4 = .fault then .flt 0x08 a s
    else if x.st = .armed && x.owner != some (coreSrc k) then .flt 0x09 (wd n) s
    else consume s k false a 4 (fun ws s =>
      let s := s.fireIfDue n
      let before := wd (s.cue n).st.code
      if s.cueOk ws then .next (((s.armCue n (coreSrc k) ws).setG k f.d.toNat before).flags k { z := some true })
      else
        let s := s.cancelCue n (if k < 64 then 1 else 2)
        .next (((s.refuse k 2).setG k f.d.toNat before).flags k { z := some false }))) s

/-- Store the fire record of cue n at an address and return its state in Gd. -/
def cueRecordTo (s : State) (k d n : Nat) (a : Word) : Res :=
  emit (s.twinBlock k (s.cue n).record) k a (s.cue n).record (fun s => .next (s.setG k d (wd (s.cue n).st.code)))

/-- CUEX READ (R178). -/
def execCuexRead (c : CoreId) (f : CF) (s : State) : Host.Outcome State Fault Refusal :=
  runInstr c (encC 0x7B f) (f.sel.getLsbD 18 || f.sel.getLsbD 17 || f.sel.toNat / 2 ^ 12 % 16 != 0) (fun k s =>
    cueRecordTo s k f.d.toNat (s.cueNo k f) (s.g k f.a.toNat)) s

/-- CUEX CANCEL (R96, R101, R178). -/
def execCuexCancel (c : CoreId) (f : CF) (s : State) : Host.Outcome State Fault Refusal :=
  runInstr c (encC 0x7B f) (f.sel.getLsbD 18 || f.sel.getLsbD 17 || f.sel.toNat / 2 ^ 12 % 16 != 0) (fun k s =>
    let a := s.g k f.a.toNat
    let n := s.cueNo k f
    let x := s.cue n
    if s.accessN k true false a 4 = .fault then .flt 0x08 a s
    else if k < 64 && x.st = .armed && x.owner != some (coreSrc k) then .flt 0x09 (wd n) s
    else
      -- a cue that fires in this cell clock is not stopped (R101)
      let s := s.fireIfDue n
      let s := if (s.cue n).firedAt = some s.cc then s else s.cancelCue n (if k < 64 then 1 else 2)
      cueRecordTo s k f.d.toNat n a) s

end Sys2Proof.Machine
end

