-- ==== Sys2Proof/Machine/RegWrite.lean ====
section
/-! DEFINITION. Writing a system register: what each register does with a write, which writes are refused and how (R15, R17, R88,
R175, R615), IOR and IOW, and the commands that are register accesses. -/

namespace Sys2Proof.Machine

/-! ### Coordinates (R85 - R89) -/

/-- Do the descriptor words 0 and 1 of a coordinate other than 0 pass R88. -/
def coordDescOk (w0 w1 : Word) : Bool :=
  let src := fld w0 35 32
  (src = 1 || src = 2 || src = 3 || src = 4 || src = 5 || src = 15) && !(bit w0 31 && w1 = 0) && !(src = 4 && w1 != 65536)

/-- Words 0 and 1 of coordinate c take new values: a new source starts without an update, ENC at its encoder's count, MAINS
unlocked (R85 - R87, R90); RING and CMD until their first update, VIRT and MAINS from there on, have the value of the source before
(see assumption 16, DEDUCED). -/
def State.coordDescribe (s : State) (c : Nat) (w0 w1 : Word) : State :=
  let old := s.reg (offCoord c 0)
  let s := (s.setReg (offCoord c 0) w0).setReg (offCoord c 1) w1
  let x := s.coord c
  let x := if old = w0 then x else
    { x with
      upd := false, stale := false, held := false, vel25 := 0, frac := 0
      unlock := fld w0 35 32 = 4
      raw := if fld w0 35 32 = 1 then s.rfld (offEnc (fld w0 19 16) 1) 31 0 else x.raw
      value := if fld w0 35 32 = 1 then sextN (s.rfld (offEnc (fld w0 19 16) 1) 31 0) 32 * 2 ^ 32 else x.value }
  s.setCoord c { x with value := if fld w0 35 32 = 15 then 0 else s.reduce c x.value }

/-- Write word w of the descriptor of coordinate c (R88, R89): the state, and the refusal code or 0. -/
def State.coordWrite (s : State) (c w : Nat) (v : Word) : State × Nat :=
  let src := s.coordSrc c
  if c = 0 then (s, 0)
  else match w with
  | 0 =>
    if s.cueOn c || !coordDescOk v (s.reg (offCoord c 1)) then (s, 2) else (s.coordDescribe c v (s.reg (offCoord c 1)), 0)
  | 1 =>
    if s.cueOn c || !coordDescOk (s.reg (offCoord c 0)) v then (s, 2) else (s.coordDescribe c (s.reg (offCoord c 0)) v, 0)
  | 2 => (if src = 4 ∨ src = 5 then s.setReg (offCoord c 2) v else s, 0)
  | 3 => (s.setReg (offCoord c 3) v, 0)
  | 6 =>
    let x := s.coord c
    (if bit v 32 then s.setCoord c { x with exceed := false } else s, 0)
  | n =>
    if src != 5 || (n != 4 && n != 5) then (s, 0)
    else
      -- a write of VALUE to a VIRT coordinate is a step (R89, R93)
      let x := s.coord c
      let d := dwI x.value
      let d := if n = 4 then dword v (dhi d) else dword (dlo d) v
      (s.setCoord c { x with value := s.reduce c d.toInt, stepped := true }, 0)

/-! ### Registers of the Crown -/

/-- Confirmation of every hood (R586). -/
def State.confirmHoods (s : State) : State :=
  if bit (s.reg offSysMode) 5 then
    let s := (s.setRfld offSysMode 5 5 0).setRfld (offUpd 0) 35 27 0
    { s with store := { s.store with spent := 0, window := 0 } }
  else s

/-- Clear the W1C bits of a register that are written as one, within a mask. -/
def State.w1c (s : State) (o : Nat) (mask v : Word) : State := s.setReg o (s.reg o &&& ~~~(mask &&& v))

/-- A take of scheduler trace entries (R224). -/
def State.takeTrace (s : State) (q : Nat) (v : Word) : State :=
  let rd := s.reg (offTrrd q)
  let n := (v - rd).toNat
  if n ≤ (s.reg (offTrwr q) - rd).toNat then (s.setReg (offTrrd q) v).deliver (strTrace q) n else s

/-- Write HIST.CTRL (R478) (see assumption 33, DEDUCED). -/
def State.histCtrl (s : State) (v : Word) : State :=
  let len := fld v 35 32
  let s := if s.mode = 2 && s.reg (offHist 3) = 0 && decide (1 ≤ len) && decide (len ≤ 8) then s.setRfld (offHist 0) 35 32 len else s
  s.setRfld (offHist 0) 16 0 (max 10 (min (fld v 16 0) 100000))

/-- A Crown core writes a system register that is no cell (R615): the state, and the refusal code or 0. A write of
SYS.BLEVEL that both refusals of R10 fit is refused for its mode, with 0x03 (see assumption 7, DEDUCED). -/
def State.crownWrite (s : State) (k o : Nat) (v : Word) : State × Nat :=
  let m := s.mode
  if o = offBlevel then
    let lv := fld v 15 8
    if m != 2 && m != 3 then (s, 3)
    else if lv = 0 ∨ Config.native < lv then (s, 4)
    else (s.setRfld offBlevel 15 8 lv, 0)
  else if o = offTimeInc then
    if 2 ≤ s.rfld offTimeStat 1 0 then (s, 3)
    else (s.setReg offTimeInc (wd (max 0x27FE00000 (min v.toNat 0x280200000))), 0)
  else if 0x1440 ≤ o ∧ o < 0x1450 ∧ o % 4 = 2 then (s.takeTrace ((o - 0x1440) / 4) v, 0)
  else if o = offHist 4 then (State.histTake (fld v 15 0) s, 0)
  else if o = offHist 0 then (s.histCtrl v, 0)
  else if o = offHist 5 then (s.w1c o (wd (at_ 3 33)) v, 0)
  else if o = offClaim 0 then
    if m != 2 && m != 3 && m != 8 then (s, 3) else (s.setReg o (v &&& 0x1FF), 0)
  else if o = offBrim 5 then (if k = 65 then s.setReg o (wd (at_ 1 35 + fld v 15 0)) else s, 0)
  else if o = offEvr 5 then
    (if bit v 0 then { s with evr := { s.evr with request := true } } else s, 0)
  else if o = offEvr 0 then (s.w1c o (wd (at_ 3 32)) v, 0)
  else if o = offUpd 1 then (s.setReg o (wd (max 10 (min (fld v 11 0) 3600))), 0)
  else if o = offUpd 2 then (if bit v 0 && k = 65 then s.confirmHoods else s, 0)
  else if o = offAdcCal then
    if !bit v 35 then (s, 0)
    else if (m != 2 && m != 3 && m != 11) || bit (s.reg offAdcCal) 34 then (s, 3)
    else (s.calBegin, 0)
  else if o = offJrnl 2 then
    if (targetOfWord (wd (fld v 10 0))).isNone then (s, 4) else (s.setReg o (v &&& 0x8000007FF), 0)
  else if o = offJrnl 0 then (s.w1c o 1 v, 0)
  else if o = offRingFault 0 0 ∨ o = offRingFault 1 0 then (s.w1c o (wd (at_ 1 24)) v, 0)
  else if o = offFieldStat then (s.w1c o (wd (at_ 1 32)) v, 0)
  else if 0x7200 ≤ o ∧ o < 0x7208 then (s.setReg o (v &&& 0xC0000FFFF), 0)
  else if o = offTrigLat then (s.setReg o (wd (max 64 (min v.toNat 65535))), 0)
  else (s, 0)

/-- A core writes the register at a mapped offset after every check of ownership: the state, and the refusal code or 0. -/
def State.regWrite (s : State) (k o : Nat) (v : Word) : State × Nat :=
  if 0x100 ≤ o ∧ o < 0x200 then s.coordWrite ((o - 0x100) / 8) (o % 8) v
  else if (cellOf o).isSome then
    if cellRefuses o v then (s, 4) else
    -- the order may lose under R43 and R251
    let (won, t) := s.orderCell o v (coreSrc k) 0x73
    (t, if won then 0 else 1)
  else if k < 64 then (s, 0)
  else s.crownWrite k o v

/-- What stops a core's write of the register at an offset (R17, R58, R175): a fault code with its ADDR, or a Crown refusal. -/
inductive WriteStop where
  | fault (code : Nat) (addr : Word)
  | refused

/-- May core k write the register at an offset. -/
def State.writeStop (s : State) (k o : Nat) : Option WriteStop :=
  if !regMapped o then (if k < 64 then some (.fault 0x08 (wd (Config.sysBase + o))) else some .refused)
  else if 64 ≤ k then none
  else match cellOf o with
  | none => some (.fault 0x08 (wd (Config.sysBase + o)))
  | some c => if Tab.get 0 s.owners c = k + 1 then none else some (.fault 0x09 (wd c))

/-- The write itself, with the refusal that it may meet (R615). -/
def State.doWrite (s : State) (k o : Nat) (v : Word) : State :=
  let (t, code) := s.regWrite k o v
  if code = 0 then t else t.refuse k code

/-- IOR (R175). -/
def execIor (c : CoreId) (f : CF) (s : State) : Host.Outcome State Fault Refusal :=
  runInstr c (encC 0x72 f) false (fun k s =>
    let o := ((s.g k f.a.toNat).toNat + f.sel.toNat) % 2 ^ 20
    if regMapped o then .next ((s.regClear o).setG k f.d.toNat (s.regRead o))
    else if k < 64 then .flt 0x08 (wd (Config.sysBase + o)) s
    else .next ((s.refuse k 4).setG k f.d.toNat 0)) s

/-- IOW (R175) (see assumption 10, DESIGN CHOICE). -/
def execIow (c : CoreId) (f : CF) (s : State) : Host.Outcome State Fault Refusal :=
  runInstr c (encC 0x73 f) false (fun k s =>
    let o := ((s.g k f.a.toNat).toNat + f.sel.toNat) % 2 ^ 20
    match s.writeStop k o with
    | some (.fault code a) => .flt code a s
    | some .refused => .next (s.refuse k 4)
    | none => .next (s.doWrite k o (s.g k f.d.toNat))) s

/-! ### The commands that are register writes -/

/-- A write of the register at an offset by a core, as IOW makes it. The command names no instruction word: that of a fault record is
free (see assumption 10, DESIGN CHOICE). -/
def writeReg (c : CoreId) (o : Nat) (v : Word) (s : State) : Host.Outcome State Fault Refusal :=
  let k := coreKey c
  .next (match s.writeStop k o with
  | some (.fault code a) => let (w, s) := s.drawWord; s.takeFault k code a w
  | some .refused => s.refuse k 4
  | none => s.doWrite k o v)

/-- SYS_BLEVEL_WRITE (R10) (see assumption 67, DEDUCED). -/
def execSysBlevelWrite (c : CoreId) (v : Word) (s : State) : Host.Outcome State Fault Refusal := writeReg c offBlevel v s
/-- TIME_INC_WRITE (R83). -/
def execTimeIncWrite (c : CoreId) (v : Word) (s : State) : Host.Outcome State Fault Refusal := writeReg c offTimeInc v s
/-- TRRD_WRITE (R224). -/
def execTrrdWrite (c : CoreId) (q : Fin 4) (v : Word) (s : State) : Host.Outcome State Fault Refusal :=
  writeReg c (offTrrd q.val) v s
/-- HIST_TAKE_WRITE (R476). -/
def execHistTakeWrite (c : CoreId) (v : Word) (s : State) : Host.Outcome State Fault Refusal := writeReg c (offHist 4) v s
/-- HIST_CTRL_WRITE (R478). -/
def execHistCtrlWrite (c : CoreId) (v : Word) (s : State) : Host.Outcome State Fault Refusal := writeReg c (offHist 0) v s
/-- RING_CLAIM_WRITE (R379). -/
def execRingClaimWrite (c : CoreId) (v : Word) (s : State) : Host.Outcome State Fault Refusal := writeReg c (offClaim 0) v s
/-- BRIM_RSTREQ_WRITE (R517, R527). -/
def execBrimRstreqWrite (c : CoreId) (v : Word) (s : State) : Host.Outcome State Fault Refusal := writeReg c (offBrim 5) v s
/-- EVR_SNAP_GO (R502). -/
def execEvrSnapGo (c : CoreId) (v : Word) (s : State) : Host.Outcome State Fault Refusal := writeReg c (offEvr 5) v s
/-- UPD_CONFIRM_GO (R586). -/
def execUpdConfirmGo (c : CoreId) (v : Word) (s : State) : Host.Outcome State Fault Refusal := writeReg c (offUpd 2) v s
/-- UPD_WIN_WRITE (R589). -/
def execUpdWinWrite (c : CoreId) (v : Word) (s : State) : Host.Outcome State Fault Refusal := writeReg c (offUpd 1) v s
/-- ADC_CAL_GO (R432). -/
def execAdcCalGo (c : CoreId) (v : Word) (s : State) : Host.Outcome State Fault Refusal := writeReg c offAdcCal v s
/-- JRNL_RTASK_WRITE (R320). -/
def execJrnlRtaskWrite (c : CoreId) (v : Word) (s : State) : Host.Outcome State Fault Refusal := writeReg c (offJrnl 2) v s
/-- FIFORD_WRITE (R456). -/
def execFifordWrite (c : CoreId) (p : Fin 4) (v : Word) (s : State) : Host.Outcome State Fault Refusal :=
  writeReg c (offCan p.val 8) v s
/-- REQ (R458). -/
def execReq (c : CoreId) (p : Fin 4) (m : Fin 64) (v : Word) (s : State) : Host.Outcome State Fault Refusal :=
  writeReg c (offCan p.val (0x400 + 8 * m.val)) v s
/-- CANCEL (R461). -/
def execCancel (c : CoreId) (p : Fin 4) (m : Fin 64) (v : Word) (s : State) : Host.Outcome State Fault Refusal :=
  writeReg c (offCan p.val (0x400 + 8 * m.val)) v s
/-- TSEN_WRITE (R466). -/
def execTsenWrite (c : CoreId) (p : Fin 4) (v : Word) (s : State) : Host.Outcome State Fault Refusal :=
  writeReg c (offCan p.val 9) v s
/-- SETPWM (R402). -/
def execSetpwm (c : CoreId) (p : Fin 24) (v : Word) (s : State) : Host.Outcome State Fault Refusal :=
  writeReg c (offPwm p.val 5) v s
/-- PWM_EN_WRITE (R398). -/
def execPwmEnWrite (c : CoreId) (p : Fin 24) (v : Word) (s : State) : Host.Outcome State Fault Refusal :=
  writeReg c (offPwm p.val 0) v s
/-- PWM_SHADOW_WRITE (R400): k is the register's offset in the pair. -/
def execPwmShadowWrite (c : CoreId) (p : Fin 24) (k : Fin 16) (v : Word) (s : State) : Host.Outcome State Fault Refusal :=
  writeReg c (offPwm p.val k.val) v s
/-- STEP_POS_WRITE (R304). -/
def execStepPosWrite (c : CoreId) (g : Fin 16) (v : Word) (s : State) : Host.Outcome State Fault Refusal :=
  writeReg c (offStep g.val 2) v s
/-- STEP_RUN_WRITE (R307). -/
def execStepRunWrite (c : CoreId) (g : Fin 16) (v : Word) (s : State) : Host.Outcome State Fault Refusal :=
  writeReg c (offStep g.val 0) v s
/-- ADC_INPUT_WRITE (R428). -/
def execAdcInputWrite (c : CoreId) (n : Fin 64) (v : Word) (s : State) : Host.Outcome State Fault Refusal :=
  writeReg c (offAin n.val 0) v s
/-- ADC_CONVERTER_WRITE (R419). -/
def execAdcConverterWrite (c : CoreId) (k : Fin 16) (v : Word) (s : State) : Host.Outcome State Fault Refusal :=
  writeReg c (offConv k.val 0) v s
/-- COORD_DESCRIPTOR_WRITE (R88). -/
def execCoordDescriptorWrite (c : CoreId) (k : Fin 32) (w : Fin 2) (v : Word) (s : State) : Host.Outcome State Fault Refusal :=
  writeReg c (offCoord k.val w.val) v s
/-- VIRT_VALUE_WRITE (R89). -/
def execVirtValueWrite (c : CoreId) (k : Fin 32) (hi : Bool) (v : Word) (s : State) : Host.Outcome State Fault Refusal :=
  writeReg c (offCoord k.val (if hi then 5 else 4)) v s
/-- ENCODER_WRITE (R446): word 0 or COUNT. -/
def execEncoderWrite (c : CoreId) (e : Fin 16) (w : Fin 2) (v : Word) (s : State) : Host.Outcome State Fault Refusal :=
  writeReg c (offEnc e.val w.val) v s
/-- FIELD_INPUT_WRITE (R438). -/
def execFieldInputWrite (c : CoreId) (i : Fin 32) (v : Word) (s : State) : Host.Outcome State Fault Refusal :=
  writeReg c (offFin i.val 0) v s
/-- FIELD_OUTPUT_WRITE (R443). -/
def execFieldOutputWrite (c : CoreId) (o : Fin 16) (v : Word) (s : State) : Host.Outcome State Fault Refusal :=
  writeReg c (offFout o.val 0) v s
/-- BAND_SLOT_CELL_WRITE (R357). -/
def execBandSlotCellWrite (c : CoreId) (r : Fin 2) (i : Fin 1024) (v : Word) (s : State) : Host.Outcome State Fault Refusal :=
  writeReg c (offSlot r.val i.val 0) v s
/-- CHOPPER_PHASE_WRITE (R413). -/
def execChopperPhaseWrite (c : CoreId) (f : Fin 16) (v : Word) (s : State) : Host.Outcome State Fault Refusal :=
  writeReg c (offChop f.val 0) v s
/-- TRIPPED_CLEAR (R408). -/
def execTrippedClear (c : CoreId) (i : Fin 8) (v : Word) (s : State) : Host.Outcome State Fault Refusal :=
  writeReg c (offTrip i.val 2) v s
/-- TOFAULT_CLEAR (R417). -/
def execTofaultClear (c : CoreId) (f : Fin 16) (v : Word) (s : State) : Host.Outcome State Fault Refusal :=
  writeReg c (offChop f.val 5) v s
/-- REGISTER_WRITE (R15): any register at an offset. -/
def execRegisterWrite (c : CoreId) (off : BitVec 20) (v : Word) (s : State) : Host.Outcome State Fault Refusal :=
  writeReg c off.toNat v s

/-! ### The commands that are register reads which clear -/

/-- A read of a mapped register by a core: the value to general register d, and what the read clears
(see assumption 10, DESIGN CHOICE). -/
def readReg (c : CoreId) (d : BitVec 4) (o : Nat) (s : State) : Host.Outcome State Fault Refusal :=
  .next ((s.regClear o).setG (coreKey c) d.toNat (s.regRead o))

/-- CORRMAX_READ (R88). -/
def execCorrmaxRead (c : CoreId) (d : BitVec 4) (k : Fin 32) (s : State) : Host.Outcome State Fault Refusal :=
  readReg c d (offCoord k.val 7) s
/-- LAW_LOAD_READ (R257). -/
def execLawLoadRead (c : CoreId) (d : BitVec 4) (u : Fin 8) (s : State) : Host.Outcome State Fault Refusal :=
  readReg c d (offLawLoad u.val) s
/-- RING_COUNTER_READ (R366): LATE or BADBLK. -/
def execRingCounterRead (c : CoreId) (d : BitVec 4) (r : Fin 2) (badblk : Bool) (s : State) :
    Host.Outcome State Fault Refusal := readReg c d (offRing r.val (if badblk then 5 else 4)) s
/-- RING_FRAMES_READ (R392). -/
def execRingFramesRead (c : CoreId) (d : BitVec 4) (r : Fin 2) (s : State) : Host.Outcome State Fault Refusal :=
  readReg c d (offRingFault r.val 1) s
/-- PAIR_STRETCH_READ (R551). -/
def execPairStretchRead (c : CoreId) (d : BitVec 4) (s : State) : Host.Outcome State Fault Refusal :=
  readReg c d (offPair 3) s
/-- ADC_STATS_READ (R419). -/
def execAdcStatsRead (c : CoreId) (d : BitVec 4) (k : Fin 16) (s : State) : Host.Outcome State Fault Refusal :=
  readReg c d (offConv k.val 6) s
/-- PWM_COUNTERS_READ (R397). -/
def execPwmCountersRead (c : CoreId) (d : BitVec 4) (p : Fin 24) (s : State) : Host.Outcome State Fault Refusal :=
  readReg c d (offPwm p.val 11) s
/-- STEP_COUNTERS_READ (R304). -/
def execStepCountersRead (c : CoreId) (d : BitVec 4) (g : Fin 16) (s : State) : Host.Outcome State Fault Refusal :=
  readReg c d (offStep g.val 4) s
/-- FIELD_COUNTERS_READ (R438, R442, R445). -/
def execFieldCountersRead (c : CoreId) (d : BitVec 4) (k : FieldCounter) (s : State) : Host.Outcome State Fault Refusal :=
  readReg c d (match k with
    | .badpkt => offFieldStat
    | .glitch i => offFin i.val 1
    | .tripcnt o => offFout o.val 1) s
/-- ENCODER_QERR_READ (R446). -/
def execEncoderQerrRead (c : CoreId) (d : BitVec 4) (e : Fin 16) (s : State) : Host.Outcome State Fault Refusal :=
  readReg c d (offEnc e.val 5) s
/-- CAN_COUNTERS_READ (R451): words 4, 5 and 11. -/
def execCanCountersRead (c : CoreId) (d : BitVec 4) (p : Fin 4) (k : Fin 3) (s : State) : Host.Outcome State Fault Refusal :=
  readReg c d (offCan p.val (if k = 0 then 4 else if k = 1 then 5 else 11)) s
/-- CAPTURE_COUNTERS_READ (R479). -/
def execCaptureCountersRead (c : CoreId) (d : BitVec 4) (u : Fin 16) (nobuf : Bool) (s : State) :
    Host.Outcome State Fault Refusal := readReg c d (offCap u.val (if nobuf then 3 else 2)) s

end Sys2Proof.Machine
end

