-- ==== Sys2Proof/Machine/Images.lean ====
section
/-! DEFINITION. The I/O images (R172 - R174, R215 - R219, R238, R544): the image table and point maps, IMGIN, IMGOUT. -/

namespace Sys2Proof.Machine

/-! ### Image table and point maps (R215, R216) -/

/-- Address of entry i of the image table of quadrant q. -/
def imgEntry (q i : Nat) : Nat := 0x2700000 + q * 0x400 + 16 * i

/-- An image table entry. -/
structure Img where
  q : Nat
  idx : Nat
  w0 : Word
  buf : Nat
  len : Nat
  map : Nat
  npts : Nat

/-- The table entry of image i of quadrant q. -/
def State.img (s : State) (q i : Nat) : Img :=
  let a := imgEntry q i
  { q := q, idx := i, w0 := s.word a, buf := (s.word (a + 1)).toNat, len := (s.word (a + 2)).toNat
    map := (s.word (a + 3)).toNat, npts := (s.word (a + 4)).toNat }

/-- Does a run of words from an address hold a poisoned word. -/
def State.anyPoison (s : State) (a n : Nat) : Bool := (List.range n).any (fun i => s.poisoned (a + i))

/-- The Crown receives an IMAGE event (R215, R614): the index of a point map entry, or all ones. -/
def State.imgEvent (s : State) (g : Img) (i : Word) : State := s.crownEvent 0x00A (wd (at_ g.q 8 + g.idx)) i

/-- A point map entry (R216). -/
structure Pt where
  kind : Nat
  word : Nat
  pos : Nat
  width : Nat
  subst : Nat
  src : Word
  fixed : Word

/-- Point map entry i of an image. -/
def State.pt (s : State) (g : Img) (i : Nat) : Pt :=
  let a := g.map + 4 * i
  let w := s.word a
  { kind := fld w 35 32, word := fld w 31 16, pos := fld w 15 10, width := fld w 9 4, subst := fld w 3 2
    src := s.word (a + 1), fixed := s.word (a + 2) }

/-- The points of an image whose entries are not poisoned; each poisoned entry is an event (R215). The map and the force table are
read (R64). -/
def State.points (s : State) (g : Img) : List Pt × State :=
  let s := (s.decodes (g.map / 8) (lineSpan g.map (4 * g.npts))).forcesMet.2
  (List.range g.npts).foldl (fun (acc : List Pt × State) i =>
    if acc.2.anyPoison (g.map + 4 * i) 4 then (acc.1, acc.2.imgEvent g (wd i)) else (acc.1 ++ [acc.2.pt g i], acc.2)) ([], s)

/-- Ring of a station point. -/
def Pt.ring (p : Pt) : Nat := fld p.src 35 35
/-- Station address. -/
def Pt.addr (p : Pt) : Nat := fld p.src 29 16
/-- First bit of the field in the station's area. -/
def Pt.bit0 (p : Pt) : Nat := 8 * fld p.src 15 0

/-- Replace those of the w bits from bit b of v that the wf bits from bit bf of fv cover. -/
def overlayBits (v b w fv bf wf : Nat) : Nat :=
  ((List.range w).map (fun j =>
    2 ^ j * (if bf ≤ b + j ∧ b + j < bf + wf then fv / 2 ^ (b + j - bf) % 2 else v / 2 ^ j % 2))).sum

/-- The forces on a station's input or output that overlap a point: value, first bit, width (R236). -/
def State.stationForces (s : State) (output : Bool) (p : Pt) : List (Nat × Nat × Nat) :=
  (s.forces.filter (fun a =>
    let w := s.word a
    let src := s.word (a + 1)
    bit w 34 = output && fld w 33 32 = 2 && fld src 35 35 = p.ring && fld src 29 16 = p.addr
      && overlap (8 * fld src 15 0) (fld w 9 4) p.bit0 p.width)).map
    (fun a => ((s.word (a + 2)).toNat, 8 * fld (s.word (a + 1)) 15 0, fld (s.word a) 9 4))

/-- The field input or output whose level a cell point covers: LEVEL of word 1, VALUE of word 0. -/
def Pt.fieldIn (p : Pt) : Option Nat :=
  let o := fld p.src 19 0
  if p.kind = 1 ∧ 0x6000 ≤ o ∧ o < 0x6100 ∧ o % 8 = 1 ∧ p.pos + p.width = 36 then some ((o - 0x6000) / 8) else none

/-- The field output of a point. -/
def Pt.fieldOut (p : Pt) : Option Nat :=
  let o := fld p.src 19 0
  if p.kind = 1 ∧ 0x6100 ≤ o ∧ o < 0x6140 ∧ o % 4 = 0 ∧ p.pos + p.width = 36 then some ((o - 0x6100) / 4) else none

/-- Bits [pos+width-1:pos] of an image word replaced by the low bits of v. -/
def putField (w : Word) (pos width v : Nat) : Word := if width = 0 then w else setFld w (pos + width - 1) pos v

/-! ### IMGIN (R173, R217 - R219) -/

/-- The rings that an image names. -/
def Img.rings (g : Img) : List Nat := (if bit g.w0 33 then [0] else []) ++ (if bit g.w0 34 then [1] else [])

/-- The newest cycle of ring r that was complete before this cell clock (R218). -/
def State.doneCycle (s : State) (r : Nat) : Option Nat :=
  let x := s.ring r
  if x.opened = s.cc + 1 then x.inPrev else x.inCycle

/-- The band cycle chosen for an image (R218): the newest that was complete on every ring it names before the latch. -/
def State.imgCycle (s : State) (g : Img) : Option Nat :=
  match g.rings.map s.doneCycle with
  | [] => none
  | [a] => a
  | some a :: some b :: _ => some (min a b)
  | _ => none

/-- The module as the node of an address on a parent ring (R332); that its images name that place as a station is the model's choice
(DEDUCED, assumption 37). -/
def State.nodeAt (s : State) (r addr : Nat) : Option Node :=
  if (s.ring r).parent then (s.ring r).node.filter (fun n => n.addr = addr) else none

/-- A station point of an input image: its value, and whether it is substituted, held, forced (R218, R219, R238). -/
def State.stationPoint (s : State) (p : Pt) (c : Option Nat) : Nat × Bool × Bool × Bool :=
  let r := p.ring
  match s.nodeAt r p.addr with
  | some n =>
    -- the module's own place on its parent ring: the outputs in force there (R332)
    (leAt n.outputs (p.bit0 / 8) 5 % 2 ^ p.width, false, false, false)
  | none =>
  let x := match s.posOf r p.addr with
    | some i => s.station r i
    | none => {}
  -- the station as the chosen cycle left it, and its substitute also from its declaration on (R219)
  let (area, marked, out) := match c.bind (fun c => x.past.find? (fun e => e.1 = c)) with
    | some (_, a, m, d) => (a, m, d || x.dropped)
    | none => (x.area, x.marked, x.dropped)
  let live := leAt (area.drop 4) (p.bit0 / 8) 5 % 2 ^ p.width
  let v := if out && p.subst = 1 then p.fixed.toNat % 2 ^ p.width else live
  let fs := s.stationForces false p
  (fs.foldl (fun v f => overlayBits v p.bit0 p.width f.1 f.2.1 f.2.2) v, out, !out && !marked, !fs.isEmpty)

/-- The words of an input image from word 4 on, with the flags SUBST, HELD and FORCED (R173, R217)
(see assumption 38, DEDUCED). -/
def State.imgWords (s : State) (pts : List Pt) (c : Option Nat) : Tab Word × Bool × Bool × Bool :=
  pts.foldl (fun (acc : Tab Word × Bool × Bool × Bool) p =>
    let (t, su, he, fo) := acc
    let old := Tab.get 0 t p.word
    if p.kind = 1 then
      let w := s.regRead (fld p.src 19 0)
      let f := p.fieldIn.bind (fun i => s.forcedField false i)
      let w := match f with
        | some b => setBit w 35 b
        | none => w
      (Tab.put 0 t p.word (putField old p.pos p.width (fld w (p.pos + p.width - 1) p.pos)), su, he, fo || f.isSome)
    else if p.kind = 2 then
      let (v, a, b, d) := s.stationPoint p c
      (Tab.put 0 t p.word (putField old p.pos p.width v), su || a, he || b, fo || d)
    else acc) ([], false, false, false)

/-- What stops IMGIN or IMGOUT of image i by core k, and the entry (R172, R215): for IMGIN also SB and SB + 1 in a writable window (R217);
`output` is the direction. The entry is read (R64) (see assumption 38, DEDUCED). -/
def State.imgCheck (s : State) (k i : Nat) (output : Bool) : Option Img × State :=
  match (s.core k).task with
  | none => (none, s)
  | some n =>
    if 64 ≤ k ∨ 1024 ≤ n then (none, s)
    else
      let s := s.decodes (imgEntry (n / 256) i / 8) 2
      let g := s.img (n / 256) i
      if s.anyPoison (imgEntry (n / 256) i) 16 then (none, s.imgEvent g (wd (2 ^ 36 - 1)))
      else
        let d := (s.task n).desc
        let inWin (wr : Bool) (a : Nat) : Bool := (targetOf a).isSome && (List.range 4).any (windowOk d wr a)
        let ok := bit g.w0 24 && bit g.w0 35 = output && fld g.w0 32 25 = n % 256
          && (List.range g.len).all (fun j => inWin false (g.buf + j))
          && (output || (inWin true (s.core k).sb.toNat && inWin true ((s.core k).sb + 1).toNat))
        (if ok then some g else none, s)

/-- Latch an input image for core k (R173): the header of R217 in words 0 to 3 with SUBST, HELD and FORCED, the points, the latch T72 also at
SB and SB + 1, and Gd. -/
def State.imgLatch (s : State) (k d : Nat) (g : Img) : State :=
  let (pts, s) := s.points g
  let c := s.imgCycle g
  let (t, su, he, fo) := s.imgWords pts c
  -- a read clears RC fields (R15)
  let s := (pts.filter (fun p => p.kind = 1)).foldl (fun s p => s.regClear (fld p.src 19 0)) s
  let cyc := wd (c.getD 0)
  let hdr := [dlo s.t72, dhi s.t72, cyc, wd (b2n su + at_ (b2n he) 1 + at_ (b2n fo) 2)]
  let ws := hdr ++ (List.range (g.len - 4)).map (fun j => Tab.get 0 t (4 + j))
  let s := s.agentWrite g.buf ws
  let sb := (s.core k).sb.toNat
  (s.agentWrite sb [dlo s.t72, dhi s.t72]).setG k d cyc

/-- IMGIN by core k of image i into register d (see assumption 38, DEDUCED). -/
def imgIn (k i d : Nat) (s : State) : Res :=
  match s.imgCheck k i false with
  | (none, s) => .flt 0x08 (wd i) s
  | (some g, s) => .next (s.imgLatch k d g)

/-- Image instructions of compared twins (R544): the first twin waits, and with the second both act in one cell clock
(see assumption 39, DEDUCED). -/
def imgTwins (w : Word) (i d : Nat) (act : Nat → Nat → Nat → State → Res) (k : Nat) (s : State) : Res :=
  match s.twinRole k with
  | none => act k i d s
  | some (e, sec) =>
    let t := s.twin e
    match t.waiting with
    | some (sec2, k2, w2, _) =>
      if sec2 = sec ∨ w2 ≠ w then .left s
      else
        let s := s.setTwin e { t with waiting := none }
        let s := match act k2 i d s with
          | .next u => u.advance k2 ((u.core k2).pc + 1)
          | .flt code addr u => u.takeFault k2 code addr w
          | .jump _ u => u
          | .left u => u
        act k i d s
    | none => .left (s.setTwin e { t with waiting := some (sec, k, w, []) })

/-- IMGIN (R172, R173). -/
def execImgin (c : CoreId) (f : CF) (s : State) : Host.Outcome State Fault Refusal :=
  let w := encC 0x70 f
  runInstr c w (f.a != 0 || f.sel.toNat / 64 != 0) (imgTwins w (f.sel.toNat % 64) f.d.toNat imgIn) s

/-! ### IMGOUT (R174, R238, R242) -/

/-- The stored word over which an image point of a cell register is laid; a word of write-one-to-clear bits gives zeros. -/
def State.imgBase (s : State) (o : Nat) : Word :=
  if (0x3200 ≤ o && o < 0x3220 && o % 4 = 2) || (0x3400 ≤ o && o < 0x3480 && o % 8 = 5)
      || (0x6400 ≤ o && o < 0x6480 && o % 8 = 5) then 0
  else s.reg o

/-- Target index of a station point in the conflict log (R45) (see assumption 38, DEDUCED). -/
def Pt.target (p : Pt) : Nat :=
  if p.kind = 1 then fld p.src 19 0 else 2 ^ 27 + at_ p.ring 26 + at_ (p.addr % 2 ^ 14) 12 + fld p.src 11 0

/-- One point of an output image goes to its cell or to the band (R174), ranked with the order of core k (R43). A cell that refuses the
word (R413, R446) is left as it is, and E and ERRC of the core stay: R615 speaks of the core that writes (see assumption 38, DEDUCED). -/
def State.imgOrder (s : State) (k : Nat) (p : Pt) (v : Nat) : State :=
  let src := coreSrc k
  if p.kind = 1 then
    let o := fld p.src 19 0
    (s.orderCell o (putField (s.imgBase o) p.pos p.width v) src 0x71).2
  else
    let x := s.ring p.ring
    match s.nodeAt p.ring p.addr, x.cfg, s.posOf p.ring p.addr with
    | some n, _, _ =>
      let (won, s) := s.rankOrder { kind := 4, idx := p.target, value := v, src := src, code := 0x71 }
      if !won then s
      else s.setRing p.ring { s.ring p.ring with node := some { n with fill := putBits n.fill (p.bit0 / 8) p.width v } }
    | none, some c, some i =>
      let (won, s) := s.rankOrder { kind := 4, idx := p.target, value := v, src := src, code := 0x71 }
      if !won then s
      else
        let x := s.ring p.ring
        s.setRing p.ring { x with out := putBits x.out (c.outStart i + p.bit0 / 8) p.width v }
    | _, _, _ => s

/-- Is a point of an output image forced at its cell or station. -/
def State.outForced (s : State) (p : Pt) : Bool :=
  match p.fieldOut with
  | some o => (s.forcedField true o).isSome
  | none => p.kind = 2 && !(s.stationForces true p).isEmpty

/-- Do the two words that name a force (R236) name a point of an image. -/
def Pt.named (p : Pt) (w0 src : Word) : Bool :=
  if fld w0 33 32 = 1 then (if bit w0 34 then p.fieldOut else p.fieldIn) = some (fld src 4 0)
  else p.kind = 2 && p.ring = fld src 35 35 && p.addr = fld src 29 16 && overlap (8 * fld src 15 0) (fld w0 9 4) p.bit0 p.width

/-- What an image point of value v gives the bits of the force that two words name (R216, R236): a field point's VALUE is bit 35 of the
register; a station's bits lie where the force's byte offset counts them from. -/
def Pt.forcedBits (p : Pt) (w0 src : Word) (v : Nat) : Nat :=
  if p.kind = 1 then v / 2 ^ (35 - p.pos) % 2
  else
    let b := 8 * fld src 15 0
    (if b ≤ p.bit0 then v * 2 ^ (p.bit0 - b) else v / 2 ^ (b - p.bit0)) % 2 ^ fld w0 9 4

/-- Entries of the exchange report that wait for the first IMGOUT of their point are completed (R242); the report passes to HOST
when none is left. -/
def State.reportWrites (s : State) (vals : List (Pt × Nat)) : State :=
  let ws := s.exch.writes
  if ws.isEmpty then s
  else
    let s := ws.foldl (fun s e =>
      match vals.filter (fun v => v.1.named e.2.1 e.2.2) with
      | [] => s
      | vs =>
        let n := vs.foldl (fun n v => n ||| v.1.forcedBits e.2.1 e.2.2 v.2) 0
        s.agentWord e.1 (setBit (setFld (s.word e.1) 31 0 n) 33 true)) s
    let left := ws.filter (fun e => !vals.any (fun v => v.1.named e.2.1 e.2.2))
    let s := { s with exch := { s.exch with writes := left } }
    if left.isEmpty then s.passBuf s.exch.buffer (s.bufW s.exch.buffer 4).toNat 2 1 false else s

/-- The band cycle that takes the values of an output image, or 0 (R174). -/
def State.outCycle (s : State) (g : Img) : Nat :=
  (g.rings.map (fun r =>
    let x := s.ring r
    if x.run then x.cycle + (if x.assembled then 2 else 1) else 0)).foldl max 0

/-- Publish an output image (R174): the image words of its points are read (R64), and the header of R217 is written with FORCED and POISONED;
without `orders` only the header is written, for a secondary twin. -/
def State.imgPublish (s : State) (k d : Nat) (g : Img) (orders : Bool) : State :=
  let (pts, s) := s.points g
  let s := (pts.map (fun p => (g.buf + p.word) / 8)).eraseDups.foldl State.decode s
  let bad (p : Pt) : Bool := s.poisoned (g.buf + p.word)
  let good := pts.filter (fun p => (p.kind = 1 || p.kind = 2) && !bad p)
  let vals := good.map (fun p => (p, fld (s.word (g.buf + p.word)) (p.pos + p.width - 1) p.pos))
  let cyc := wd (s.outCycle g)
  let hdr := [dlo s.t72, dhi s.t72, cyc, wd (at_ (b2n (pts.any s.outForced)) 2 + at_ (b2n (pts.any bad)) 3)]
  let s := if orders then (vals.foldl (fun s v => s.imgOrder k v.1 v.2) s).reportWrites vals else s
  (s.agentWrite g.buf hdr).setG k d cyc

/-- IMGOUT by core k of image i into register d; a secondary twin's image is published by its primary
(see assumption 38, DEDUCED). -/
def imgOut (k i d : Nat) (s : State) : Res :=
  match s.imgCheck k i true with
  | (none, s) => .flt 0x08 (wd i) s
  | (some g, s) => .next (s.imgPublish k d g ((s.twinRole k).map Prod.snd != some true))

/-- IMGOUT (R172, R174). -/
def execImgout (c : CoreId) (f : CF) (s : State) : Host.Outcome State Fault Refusal :=
  let w := encC 0x71 f
  runInstr c w (f.a != 0 || f.sel.toNat / 64 != 0) (imgTwins w (f.sel.toNat % 64) f.d.toNat imgOut) s

end Sys2Proof.Machine
end

