-- ==== Sys2Proof/Machine/Scheduler.lean ====
section
/-! DEFINITION. The task scheduler's events: the tick with its tick-paced changes, the dispatch rounds, deadlines, timeouts and scan
watchdogs (R198 - R214). -/

namespace Sys2Proof.Machine

/-! ### The tick (R202 - R204) -/

/-- Number of the tick whose boundary the present device time has reached. -/
def State.tickNow (s : State) : Nat := s.now / tUs

/-- Is a boundary due: the device time has reached a whole microsecond beyond the last tick (R202)
(see assumption 17, DEDUCED). -/
def State.tickDue (s : State) : Bool := decide (s.sched.tick < s.tickNow)

/-- The boundary of the tick of this cell clock, if it has come: its number, and immediate changes count anew (R202, R203). -/
def State.beginTick (s : State) : State :=
  if s.tickDue then
    { s with sched := { s.sched with
        tick := s.tickNow, tickCc := s.cc, seq := s.sched.seq + 1, imm := 0, taken := false } }
  else s

/-- Was a change of cell clock c accepted before the boundary of this tick (R202) (see assumption 17, DEDUCED). -/
def State.accepted (s : State) (c : Nat) : Bool := decide (c < s.sched.tickCc)

/-- Has the scan watchdog of a task run out (R214): it stands still while the task is TRAPPED
(see assumption 11, DEDUCED). -/
def State.wdogOut (s : State) (t : Task) : Bool :=
  t.scanning && t.wdogUs != 0 && t.pausedAt.isNone && decide (t.grant + t.paused + t.wdogUs * tUs ≤ s.elapsed)

/-- The watchdog of task n has run out at this tick (R144, R214). Words of a poisoned context poison the lines of the fault record (R64, R78)
(see assumption 11, DEDUCED). -/
def State.wdogExpire (s : State) (n : Nat) : State :=
  let t := s.task n
  match t.st with
  | .running => s.setTask n { t with wdog := true }
  | .ready | .delayed | .evwait =>
    let (ws, p, s) := s.agentRead (t.ctx + 16) 8
    let u := s.faultTask (if n < 1024 then t.tile else 65) n 7 (ws.getD 2 0) 0 0 (ws.getD 3 0) (ws.getD 5 0) false 0x0E
    if p then { u with mem := (List.range (lineSpan t.slot 8)).foldl (fun m i =>
      m.putMeta (t.slot / 8 + i) { u.lineMeta (t.slot / 8 + i) with poison := true }) u.mem }
    else u
  | _ => s

/-- A TRAPPED task becomes READY by the host's resume, and its watchdog goes on (R164, R214). -/
def State.trapResume (s : State) (n : Nat) : State :=
  let t := s.task n
  (s.setTask n { t with paused := t.paused + (s.elapsed - t.pausedAt.getD s.elapsed), pausedAt := none }).readyAtTick n 0x0F

/-- A post makes task n READY: fresh, or to resume with its word (R171, R201). -/
def State.readyByPost (s : State) (n : Nat) : State :=
  let t := s.task n
  if t.st = .evwait then
    match s.takePost n with
    | (some p, s) => (s.setTask n { s.task n with evGot := some (some p.word) }).readyAtTick n 0x01
    | (none, s) => s
  else (s.setTask n { t with fresh := true, errCode := if t.kind = 1 then 0 else t.postCode }).readyAtTick n 0x01

/-- A deadline or timeout of task n is reached (R171, R204, R210). -/
def State.readyByDeadline (s : State) (n : Nat) : State :=
  let t := s.task n
  let t := if t.st = .evwait then { t with evGot := some none } else t
  (s.setTask n t).readyAtTick n 0x02

/-- Has a post accepted before this boundary come for task n; `hw` are the tasks that hardware posted at the tick
(see assumption 18, DEDUCED). -/
def State.postDue (s : State) (hw : List Nat) (n : Nat) : Bool :=
  let t := s.task n
  t.posted && t.queue != [] && (s.accepted t.postAcc || hw.contains n)

/-- The deadline or timeout of a suspended task, if this tick reaches it (R168, R202, R204). -/
def State.deadlineDue (s : State) (n : Nat) : Bool :=
  let t := s.task n
  match t.st with
  | .delayed => s.accepted t.acc && (match t.deadline with | some d => decide (d ≤ s.now) | none => false)
  | .evwait => s.accepted t.acc && (match t.timeout with | some d => decide (d ≤ s.now) | none => false)
  | _ => false

/-- The changes that a tick makes to a task, in the order of precedence of R204 and R214. -/
inductive TickChange where
  | none | expire | byPost | byDeadline | resume | byMode
  deriving DecidableEq, Repr

/-- What this tick does to task n (R201 - R204, R208, R214). -/
def State.tickChange (s : State) (hw : List Nat) (n : Nat) : TickChange :=
  let t := s.task n
  if s.wdogOut t && (t.st = .ready || t.st = .delayed || t.st = .evwait || t.st = .running) then .expire
  else match t.st with
  | .idle =>
    if t.held || !s.granted n then .none
    else if s.postDue hw n then .byPost
    else if s.sched.entered && (t.kind = 2 || t.queue != []) then .byMode
    else .none
  | .faulted => if !t.held && s.granted n && s.postDue hw n then .byPost else .none
  | .evwait => if s.postDue hw n then .byPost else if s.deadlineDue n then .byDeadline else .none
  | .delayed => if s.deadlineDue n then .byDeadline else .none
  | .trapped => if t.resume && s.accepted t.acc then .resume else .none
  | _ => .none

/-- Carry out a change (see assumption 17, DEDUCED). -/
def State.applyChange (s : State) (n : Nat) : TickChange → State
  | .none => s
  | .expire => s.wdogExpire n
  | .byPost => s.readyByPost n
  | .byDeadline => s.readyByDeadline n
  | .resume => s.trapResume n
  | .byMode => s.readyAtTick n 0x04

/-- The posts of the station error tables of one station event (R219) (see assumption 18, DEDUCED). -/
def State.stationPosts (s : State) (e : StationEvent) : List (Nat × Word) :=
  (List.range 256).filterMap (fun i =>
    let w := s.word (0x2701000 + i)
    if bit w 35 && !s.poisoned (0x2701000 + i) && fld w 30 30 = e.ring && fld w 29 16 = e.station then
      some (i / 64 * 256 + fld w 7 0, wd (at_ (b2n e.recover) 35 + at_ e.ring 14 + e.station))
    else none)

/-- The post of the restart task (R327), if a mode that grants tasks was entered after RESUME or a takeover
(see assumption 18, DEDUCED). -/
def State.restartPost (s : State) : List (Nat × Word) :=
  let w := s.reg (offJrnl 2)
  if s.modes.restart != 0 && s.sched.entered && bit w 35 then
    match targetOfWord (wd (fld w 10 0)) with
    | some n => [(n, wd (at_ s.modes.restart 32 + at_ s.jOpenSteps.length 8 + s.jLife))]
    | none => []
  else []

/-- The tasks of a list of posts, made in order; the keys of those queued are the answer (R170, R219)
(see assumption 18, DEDUCED). -/
def State.postAll (s : State) (ps : List (Nat × Word)) : State := ps.foldl (fun s p => s.post p.1 p.2) s

/-- The posts that hardware makes at this tick, of events and records accepted before its boundary, and of the restart task (R202,
R219, R327, R487). -/
def State.tickPosts (s : State) : List (Nat × Word) :=
  (s.sched.stations.filter (fun e => s.accepted e.acc)).flatMap s.stationPosts
    ++ (s.sched.posts.filter (fun p => s.accepted p.2.2)).filterMap (fun p =>
      (targetOfWord (wd p.1)).map (fun n => (n, p.2.1)))
    ++ s.restartPost

/-- Everything a tick does (R202, R208, R214, R219, R286). A frozen scheduler does nothing (R208)
(see assumption 17, DEDUCED). -/
def State.schedTick (s : State) : State :=
  if s.mode = 7 then s
  else
    let s := s.beginTick
    if s.sched.taken then s
    else
      -- the station error tables are read (R64)
      let s := if s.sched.stations.isEmpty then s else s.decodes (0x2701000 / 8) 32
      let hwPosts := s.tickPosts
      let s := s.postAll hwPosts
      let s := if s.sched.entered then { s with modes := { s.modes with restart := 0 } } else s
      let changes := s.tasks.map (fun e => (e.1, s.tickChange (hwPosts.map Prod.fst) e.1))
      -- a post has its tick only once
      let cc := s.sched.tickCc
      let clear (e : Nat × Task) : Nat × Task :=
        (e.1, if e.2.postAcc < cc ∨ (hwPosts.map Prod.fst).contains e.1 then { e.2 with posted := false } else e.2)
      let s := { s with tasks := s.tasks.map clear }
      let s := changes.foldl (fun s e => s.applyChange e.1 e.2) s
      let s := { s with sched := { s.sched with
        stations := s.sched.stations.filter (fun e => !s.accepted e.acc)
        posts := s.sched.posts.filter (fun p => !s.accepted p.2.2), entered := false, taken := true } }
      s.groupsSlew

/-- One of the tick's changes to one task, when it is due at the boundary of this cell clock and SCHEDULER_TICK has not taken it. A task
that hardware posts at this tick is SCHEDULER_TICK's to change, for its post comes first (R204). -/
def State.tickOne (s : State) (n : Nat) (p : TickChange → Bool) : State :=
  if s.mode = 7 then s
  else
    let s := s.beginTick
    let c := s.tickChange [] n
    if !s.sched.taken && p c && !(s.tickPosts.map Prod.fst).contains n then s.applyChange n c else s

/-- WAIT_DEADLINE (R204): a task DELAYED by WAIT (see assumption 17, DEDUCED). -/
def execWaitDeadline (k : TaskRef) (s : State) : Host.Outcome State Fault Refusal :=
  .next (if (s.task (taskKey k)).st = .delayed && !(s.task (taskKey k)).fresh then
    s.tickOne (taskKey k) (fun c => c = .byDeadline) else s)

/-- EVWAIT_TIMEOUT (R171): a post of the same tick wins (R204). -/
def execEvwaitTimeout (k : TaskRef) (s : State) : Host.Outcome State Fault Refusal :=
  .next (if (s.task (taskKey k)).st = .evwait then s.tickOne (taskKey k) (fun c => c = .byDeadline || c = .byPost) else s)

/-- CYCMIN_EXPIRY (R210): a CYCLIC task DELAYED after DONE. -/
def execCycminExpiry (k : TaskRef) (s : State) : Host.Outcome State Fault Refusal :=
  .next (if (s.task (taskKey k)).st = .delayed && (s.task (taskKey k)).fresh then
    s.tickOne (taskKey k) (fun c => c = .byDeadline) else s)

/-- SCAN_WATCHDOG_EXPIRY (R214) (see assumption 2, DESIGN CHOICE; see assumption 11, DEDUCED). -/
def execScanWatchdogExpiry (k : TaskRef) (s : State) : Host.Outcome State Fault Refusal :=
  .next (s.tickOne (taskKey k) (fun c => c = .expire))

/-! ### Dispatch (R205 - R207) -/

/-- Is a list of keys before another: the first key that differs decides. -/
def keysBefore : List Nat → List Nat → Bool
  | a :: r, b :: t => a < b || (a = b && keysBefore r t)
  | _, _ => false

/-- Does task n come before task m in the order of grants: by priority, then the ready order of R203 (see assumption 17, DEDUCED). -/
def State.before (s : State) (n m : Nat) : Bool :=
  let key (n : Nat) : List Nat :=
    let t := s.task n
    [t.prio, t.rdyTick, t.rdyCc, t.rdyTile, t.rdyRank, n]
  keysBefore (key n) (key m)

/-- The task that core k is granted: the first READY one that it admits (R205, R212); pair 1 admits every class (R200). -/
def State.candidate (s : State) (k : Nat) : Option Nat :=
  let q := if k < 64 then k / 16 else 4
  let mask := if k < 64 then (s.core k).admits.toNat else 0xFFFF
  s.tasks.foldl (fun best e =>
    let n := e.1
    if e.1 / 256 = q && e.2.st = .ready && !e.2.held && (s.granted n || e.2.stopping) && mask.testBit e.2.class_ then
      match best with
      | none => some n
      | some m => if s.before n m then some n else some m
    else best) none

/-- Tiles of quadrant q in the tile order of the present tick (R205); q = 4 stands for Crown pair 1. -/
def State.tileOrder (s : State) (q : Nat) : List Nat :=
  if q < 4 then (List.range 16).map (fun i => 16 * q + (s.sched.tick + i) % 16) else [65]

/-- A grant with the checks of the words that a resume reads: the lines of the context area are decoded (R64), a poisoned
one among its 24 words is consumed and raises fault 0x02 (R66), and a poisoned stack word stays poisoned in tile-local
memory (R76, R78). The INSTR word of that fault's record is 0, for no instruction has faulted (see assumption 10, DESIGN
CHOICE). -/
def State.grantChecked (s : State) (k n : Nat) : State :=
  let t := s.task n
  let a := t.ctx
  if t.fresh then s.grant k n
  else
    let m := if k < 64 then min (0x10000 - (s.word (a + 21)).toNat) t.stack else 0
    let s := (List.range ((a + 23 + m) / 8 - a / 8 + 1)).foldl (fun s i => s.decode (a / 8 + i)) s
    let u := s.grant k n
    match (List.range 24).find? (fun i => s.poisoned (a + i)) with
    | some i => u.takeFault k 0x02 (wd (a + i)) 0
    | none =>
      let sp := (s.word (a + 21)).toNat
      { u with loc := { u.loc with
          poison := ((List.range m).filter (fun i => s.poisoned (a + 24 + i))).foldl
            (fun p i => Tab.put false p (locKey k (sp + i)) true) u.loc.poison } }

/-- One dispatch round of quadrant q (R205). -/
def State.dispatch (s : State) (q : Nat) : State :=
  let ks := (s.tileOrder q).filter (fun k => (s.core k).taking)
  ks.foldl (fun s k =>
    match s.candidate k with
    | some n => s.grantChecked k n
    | none => s) s

/-- DISPATCH_ROUND (R205). -/
def execDispatchRound (q : Fin 5) (s : State) : Host.Outcome State Fault Refusal :=
  .next (if s.mode = 7 ∨ s.modes.inReset = true then s else s.dispatch q.val)

end Sys2Proof.Machine
end

