-- ==== Sys2Proof/Machine/TimeLoad.lean ====
section
/-! DEFINITION. The one load of device time (R80, R81). -/

namespace Sys2Proof.Machine

/-- A moment of device time moved by an offset: one that is to come stays to come. What counts from a moment in the past counts in time since
the start, which no load moves (`State.elapsed`). -/
def moved (d : Int) (t : Nat) : Nat := ((t : Int) + d).toNat

/-- The times that a task holds, moved (R81). -/
def Task.moved (t : Task) (d : Int) : Task :=
  { t with
    deadline := t.deadline.map (Machine.moved d), timeout := t.timeout.map (Machine.moved d) }

/-- PVALUE of a lane paced by coordinate 0, moved with the reference of its next crossing (R81). -/
def Lane.moved (l : Lane) (d : Int) : Lane :=
  if !l.cycle && l.coord = 0 then { l with pvalue := l.pvalue + d, ref := l.ref + d } else l

/-- A map over the values of a sparse array. -/
def mapTab {α : Type} (f : α → α) (t : Tab α) : Tab α := t.map (fun e => (e.1, f e.2))

/-- The moments that units keep in device time, moved: fieldbus periods and trigger bus pulses. -/
def State.unitsMoved (s : State) (d : Int) : State :=
  { s with
    cans := mapTab (fun (x : Can) => { x with refSof := moved d x.refSof, refDue := moved d x.refDue, refFirst := true }) s.cans
    caps := mapTab (fun (x : Capture) => { x with drive := mapTab (moved d) x.drive }) s.caps }

/-- Device time is loaded with t (R80, R81); the state of the time unit is the caller's. A counter that is loaded is never loaded
again. -/
def State.timeLoad (s : State) (t : Nat) : State :=
  if s.rfld offTimeStat 3 3 = 1 then s
  else
    let d : Int := (t : Int) - s.now
    let s := s.cancelCues (fun x => x.coord = 0) 3
    let s := s.closeAll
    let s := { s with
      tasks := mapTab (fun x => Task.moved x d) s.tasks
      lanes := mapTab (fun l => Lane.moved l d) s.lanes }
    let s := s.unitsMoved d
    let s := { s with
      now := t, prevNow := moved d s.prevNow, loadD := s.loadD + d
      census := { s.census with lastMs := (t + 100 * tUs + tMs - 1) / tMs } }
    let dn := dwI (d / (tNs : Int))
    let s := (s.setReg offTimeLoadd (dlo dn)).setReg (offTimeLoadd + 1) (dhi dn)
    let s := s.setRfld offTimeStat 3 3 1
    -- one tick in this cell clock, numbered from the loaded time
    let s := { s with sched := { s.sched with
      tick := s.tickNow, tickCc := s.cc, seq := s.sched.seq + 1, imm := 0, taken := false } }
    s.schedTick

end Sys2Proof.Machine
end

