-- ==== Sys2Proof/Machine/Force.lean ====
section
/-! DEFINITION. The force table and its operations (R235 - R240), the result codes of privileged instructions (R197), and FORCE. -/

namespace Sys2Proof.Machine

/-! ### Result codes (R197) -/

/-- The result codes of R197. -/
def resOk : Nat := 0
/-- NOT_ALLOWED. -/
def resNotAllowed : Nat := 1
/-- CONFLICT. -/
def resConflict : Nat := 2
/-- BUSY. -/
def resBusy : Nat := 3
/-- RANGE. -/
def resRange : Nat := 4

/-- ERRC.REFUSE of a result code. -/
def refuseOf (res : Nat) : Nat := match res with
  | 1 => 3
  | 2 => 1
  | 3 => 6
  | _ => 4

/-- Gd := result code; every code but ACCEPTED sets E and ERRC.REFUSE (R197). -/
def State.result (s : State) (k d : Nat) (res : Nat) : State :=
  State.setG (if res = 0 then s else s.refuse k (refuseOf res)) k d (wd res)

/-- The frame of a privileged instruction (R138, R139): fault 0x05 on a tile, and on pair 1 for a commissioning one. -/
def privileged (c : CoreId) (w : Word) (bad comm : Bool) (body : Nat → State → Res) (s : State) :
    Host.Outcome State Fault Refusal :=
  runInstr c w bad (fun k s => if k < 64 || (comm && k = 65) then .flt 0x05 0 s else body k s) s

/-! ### The table (R235, R236, R239) -/

/-- FORCE.STAT follows the table, whoever has written it; a change of ACTIVE closes open segments and drives FORCE_N,
and records in progress have seen it (R239, R475, R485). -/
def State.forceSync (s : State) : State :=
  let w := s.forceStat
  let s := if bit (s.reg offForceStat) 0 = s.forceActive then s else
    let u := s.closeAll
    let mark (x : Capture) : Capture := if x.st = 0 then x else { x with sumForced := true }
    let u := if s.forceActive then { u with caps := mapTab mark u.caps } else u
    { u with outbox := u.outbox ++ [Msg.pin "FORCE_N" (!s.forceActive)] }
  s.setReg offForceStat w

/-- What a request answers when pair 0 has consumed a poisoned word on the way: no result of R197, but an integrity fault (R66, R140). -/
def resPoisoned : Nat := 256

/-- Is a point forceable, its words 0 and 1 with every other bit zero (R235, R236). -/
def forcePointOk (w0 src : Word) : Bool :=
  !bit w0 35 && fld w0 31 16 = 0 && fld w0 3 0 = 0 &&
  (match fld w0 33 32 with
   | 1 => fld w0 15 10 = 0 && fld w0 9 4 = 1 && decide (src.toNat < (if bit w0 34 then 16 else 32))
   | 2 => decide (1 ≤ fld w0 9 4) && decide (fld w0 9 4 ≤ 32) && decide (fld w0 15 10 + fld w0 9 4 ≤ 36) && fld src 34 30 = 0
   | _ => false)

/-- Do the entry at an address and a point lie on the same bits of one point: first exactly, then at all
(see assumption 50, DEDUCED). -/
def State.forceSame (s : State) (a : Nat) (w0 src : Word) : Bool × Bool :=
  let e := s.word a
  let f := s.word (a + 1)
  let kind := fld w0 33 32
  let place := bit e 34 = bit w0 34 && fld e 33 32 = kind && (if kind = 1 then f = src else fld f 35 16 = fld src 35 16)
  (place && f = src && fld e 9 4 = fld w0 9 4,
   place && (kind = 1 || overlap (8 * fld f 15 0) (fld e 9 4) (8 * fld src 15 0) (fld w0 9 4)))

/-- The entry that holds exactly this point. -/
def State.forceFind (s : State) (w0 src : Word) : Option Nat := s.forces.find? (fun a => (s.forceSame a w0 src).1)

/-- The lowest free entry. -/
def State.forceFree (s : State) : Option Nat :=
  ((List.range 4096).find? (fun e => !bit (s.word (forceBase + 4 * e)) 35)).map (fun e => forceBase + 4 * e)

/-- A point as the target of an order: direction, kind, width and words of the entry that would hold it. -/
def forcePoint (w0 src : Word) : Nat := (fld w0 34 32 * 64 + fld w0 9 4) * 2 ^ 36 + src.toNat

/-- Rank a request of core k on a point, or on all, against those of this cell clock (R43, R237); the log names the entry at the
address that holds the point or would hold it (see assumption 50, DEDUCED). -/
def State.forceRank (s : State) (k point : Nat) (a : Option Nat) (value : Int) (gd : Option Nat) : Bool × State :=
  let r := s.respOf k
  s.rankOrder
    { kind := 6, idx := point, value := value, src := coreSrc k, code := if r.isSome then 3 else 0xF1
      log := some ((a.getD forceBase - forceBase) / 4), resp := r, gd := gd }

/-- SET of a force: result code and state (R237) (see assumption 50, DEDUCED). -/
def State.forceSet (s : State) (k : Nat) (w0 src v : Word) (gd : Option Nat) : Nat × State :=
  let clash := s.forces.any (fun a => (s.forceSame a w0 src).2 && !(s.forceSame a w0 src).1)
  if k = 65 ∨ (s.mode ≠ 4 ∧ s.mode ≠ 5 ∧ s.mode ≠ 11) then (resNotAllowed, s)
  else if !forcePointOk w0 src || decide (2 ^ fld w0 9 4 ≤ v.toNat) || clash then (resRange, s)
  else
    match (s.forceFind w0 src).orElse (fun _ => s.forceFree) with
    | none => (resRange, s)
    | some a =>
      let (won, s) := s.forceRank k (forcePoint w0 src) (some a) (v.toNat + 1) gd
      if won then
        (resOk, (s.agentWrite a [setBit w0 35 true, src, v, wd s.sched.tick]).forceSync)
      else (resConflict, s)

/-- RELEASE of the force on a point (R237), refused for KIND 0 and 3 (R236): a point that is not forced stays so (see assumption 50, DEDUCED). -/
def State.forceRelease (s : State) (k : Nat) (w0 src : Word) (gd : Option Nat) : Nat × State :=
  if s.mode = 0 then (resNotAllowed, s)
  else if fld w0 33 32 = 0 ∨ fld w0 33 32 = 3 then (resRange, s)
  else
    let e := s.forceFind w0 src
    let (won, s) := s.forceRank k (forcePoint w0 src) (e.orElse (fun _ => s.forceFree)) 0 gd
    if !won then (resConflict, s)
    else
      match e with
      | none => (resOk, s)
      | some a => (resOk, (s.agentWrite a [0, 0, 0, 0]).forceSync)

/-- Every entry is emptied (R237, R240). -/
def State.forcesEmpty (s : State) : State :=
  (s.forces.foldl (fun s a => s.agentWrite a [0, 0, 0, 0]) s).forceSync

/-- RELEASE_ALL (R237). -/
def State.forceReleaseAll (s : State) (k : Nat) (gd : Option Nat) : Nat × State :=
  if s.mode = 0 then (resNotAllowed, s)
  else
    let (won, s) := s.forceRank k forceAll s.forces.head? 0 gd
    if won then (resOk, s.forcesEmpty) else (resConflict, s)

/-- A force request of four words (R237), of an instruction with its result code in register gd: result code and state. The table is read for it, and a poisoned entry of it is consumed
(R64, R66, R140) (see assumption 50, DEDUCED). -/
def State.forceRequest (s : State) (k : Nat) (ws : List Word) (gd : Option Nat := none) : Nat × State :=
  let op := fld (ws.getD 0 0) 35 34
  let (p, s) := s.forcesMet
  if p then (resPoisoned, s)
  else if op = 3 ∨ fld (ws.getD 0 0) 33 0 ≠ 0 then (resRange, s)
  else if op = 0 then s.forceSet k (ws.getD 1 0) (ws.getD 2 0) (ws.getD 3 0) gd
  else if op = 1 then s.forceRelease k (ws.getD 1 0) (ws.getD 2 0) gd
  else s.forceReleaseAll k gd

/-- FORCE of an operation: another operation in word 0 is the business of its own row (R196, R237). -/
def forceInstr (c : CoreId) (f : CF) (op : Nat) (s : State) : Host.Outcome State Fault Refusal :=
  privileged c (encC 0xF1 f) (f.sel != 0) false (fun k s =>
    consume s k false (s.g k f.a.toNat) 4 (fun ws s =>
      if fld (ws.getD 0 0) 35 34 = op ∨ fld (ws.getD 0 0) 35 34 = 3 then
        let (res, s) := s.forceRequest k ws (some f.d.toNat)
        if res = resPoisoned then .flt 0x02 (wd forceBase) s else .next (s.result k f.d.toNat res)
      else .left s)) s

/-- FORCE_SET (R237). -/
def execForceSet (c : CoreId) (f : CF) (s : State) : Host.Outcome State Fault Refusal := forceInstr c f 0 s
/-- FORCE_RELEASE (R237). -/
def execForceRelease (c : CoreId) (f : CF) (s : State) : Host.Outcome State Fault Refusal := forceInstr c f 1 s
/-- FORCE_RELEASE_ALL (R237). -/
def execForceReleaseAll (c : CoreId) (f : CF) (s : State) : Host.Outcome State Fault Refusal := forceInstr c f 2 s

end Sys2Proof.Machine
end

