-- ==== Sys2Proof/Machine/Program.lean ====
section
/-! DEFINITION. Programs: task descriptors, owners, class masks, code loads, ring configurations, the loading of a program image, and
the migration of data blocks at an exchange (R17, R128, R138, R196, R198 - R200, R226 - R234). -/

namespace Sys2Proof.Machine

/-! ### Task descriptors (R198 - R200) -/

/-- Does a run of n words from a lie in [lo, hi). -/
def within (a n lo hi : Nat) : Bool := lo ≤ a && a + n ≤ hi

/-- First word of quadrant q's shared memory. -/
def quadLo (q : Nat) : Nat := Config.quadBase + q * Config.quadWords

/-- Does a run of words lie wholly in one of the three ranges of R199. -/
def inOneRange (a n : Nat) : Bool :=
  within a n Config.quadBase (Config.quadBase + 4 * Config.quadWords) || within a n Config.crownBase Config.crownEnd
    || within a n Config.dramBase Config.dramEnd

/-- Memory that no window may overlap: the journal (R310), the event recorder's area (R493), the unit state area and the pair area
(R538). -/
def reservedAreas : List (Nat × Nat) :=
  [(0x2720000, 0x10000), (0x2750000, 0x1000), (0x2760000, 0x40000), (Config.dramBase, 0x2000000)]

/-- Memory that no window with WR may overlap: the image tables (R215), the host area (R556), the census table and the conflict log (R613). -/
def writeReserved : List (Nat × Nat) := [(0x2700000, 0x1000), (Config.hostArea, 0x1000000), (0x27A0000, 1840), (0x27B0000, 1024)]

/-- Window i of a descriptor passes R199 and the cases that R310, R493, R538, R556 and R613 add. -/
def windowDescOk (w : Nat → Word) (i : Nat) : Bool :=
  let base := (w (8 + 2 * i)).toNat
  let l := w (9 + 2 * i)
  let n := fld l 31 0
  fld l 34 32 = 0 && (n = 0 ||
    (inOneRange base n && !reservedAreas.any (fun r => overlap base n r.1 r.2)
      && !(bit l 35 && writeReserved.any (fun r => overlap base n r.1 r.2))))

/-- The reserved bits of word 0 (R198, R200). -/
def word0Ok (crown : Bool) (w0 : Word) : Bool := fld w0 9 0 = 0 && (!crown || fld w0 22 21 = 0)

/-- Stages 2 and 3 of R199 for task n, with the differences of R200. -/
def taskDescOk (n : Nat) (ws : List Word) : Bool :=
  let w := fun i => ws.getD i 0
  let crown := decide (1024 ≤ n)
  let kind := fld (w 0) 35 34
  let stack := fld (w 4) 12 0
  let lo := if crown then Config.crownBase else quadLo (n / 256)
  let hi := if crown then 0x2700000 else quadLo (n / 256) + Config.quadWords
  word0Ok crown (w 0) && (kind = 0 ||
    (kind != 3 && decide (1 ≤ fld (w 0) 14 10) && decide (fld (w 0) 14 10 ≤ 16)
      && decide (16 ≤ stack) && decide (stack ≤ 4096) && fld (w 4) 15 13 = 0
      && (if crown then inCode 65 (w 1).toNat else inCode 0 (w 1).toNat)
      && within (w 5).toNat (24 + stack) lo hi && within (w 6).toNat 8 lo hi
      && (if crown then (List.range 8).all (fun i => w (8 + i) = 0) else (List.range 4).all (windowDescOk w))))

/-- Is a task in a state in which TASKSET is refused (stage 1 of R199). -/
def Task.busy (t : Task) : Bool :=
  t.st = .ready || t.st = .running || t.st = .delayed || t.st = .evwait || t.st = .trapped

/-- A descriptor that passed is in force; the post queue stays (R199). -/
def State.putDesc (s : State) (n : Nat) (ws : List Word) : State :=
  let t := s.task n
  if fld (ws.getD 0 0) 35 34 = 0 then s.setTask n { t with desc := [], st := .unused }
  else s.setTask n { t with desc := ws, st := if t.st = .unused then .idle else t.st }

/-- TASKSET (R199, R200): result code and state (see assumption 19, DESIGN CHOICE). -/
def State.taskSet (s : State) (n : Nat) (ws : List Word) : Nat × State :=
  if (s.task n).busy then (resNotAllowed, s)
  else if taskDescOk n ws then (resOk, s.putDesc n ws)
  else (resRange, s)

/-- Modes of the commissioning instructions (R139). In EXCHANGE only the exchange's own TASKSET and CODELOAD are accepted, and that
work is part of the exchange's commands; an instruction of a host's PROGRAM is none of it. -/
def State.commissioning (s : State) : Bool := s.mode = 2 || s.mode = 3

/-- TASKSET (R196) (see assumption 19, DESIGN CHOICE). -/
def execTaskset (c : CoreId) (f : CF) (s : State) : Host.Outcome State Fault Refusal :=
  privileged c (encC 0xF5 f) (f.sel.toNat / 2 ^ 11 != 0) true (fun k s =>
    let t := f.sel.toNat
    if !s.commissioning then .next (s.result k f.d.toNat resNotAllowed)
    else consume s k false (s.g k f.a.toNat) 16 (fun ws s =>
      if t.testBit 10 && t / 64 % 16 != 0 then .next (s.result k f.d.toNat resRange)
      else
        let (res, s) := s.taskSet (if t.testBit 10 then 1024 + t % 64 else t % 1024) ws
        .next (s.result k f.d.toNat res))) s

/-! ### Owners and class masks (R17, R212) -/

/-- Does an offset name a cell, coordinate or capture unit (R17, R195, R196). -/
def ownable (o : Nat) : Bool := cellOf o = some o || (0x3480 ≤ o && o < 0x3490 && o % 2 = 0)

/-- Assign an owner tile. -/
def State.setOwner (s : State) (o t : Nat) : State :=
  { s with owners := Tab.put 0 s.owners ((cellOf o).getD o) (t + 1) }

/-- OWNSET (R138, R196). -/
def execOwnset (c : CoreId) (f : CF) (s : State) : Host.Outcome State Fault Refusal :=
  privileged c (encC 0xF3 f) (f.sel != 0) true (fun k s =>
    let o := fld (s.g k f.a.toNat) 19 0
    let t := fld (s.g k f.d.toNat) 5 0
    if !s.commissioning then .next (s.result k f.d.toNat resNotAllowed)
    else if !ownable o then .next (s.result k f.d.toNat resRange)
    else .next ((s.setOwner o t).result k f.d.toNat resOk)) s

/-- CLASSSET (R196, R212): used from the tile's next TAKE. -/
def execClassset (c : CoreId) (f : CF) (s : State) : Host.Outcome State Fault Refusal :=
  privileged c (encC 0xF4 f) (f.sel != 0) true (fun k s =>
    let m := s.g k f.a.toNat
    let t := fld (s.g k f.d.toNat) 5 0
    if !s.commissioning then .next (s.result k f.d.toNat resNotAllowed)
    else if fld m 35 16 != 0 then .next (s.result k f.d.toNat resRange)
    else .next ((s.setReg (offMask t) m).result k f.d.toNat resOk)) s

/-! ### Code (R114, R196) -/

/-- Write words into the code region of the tiles whose bit of the mask is set (see assumption 19, DESIGN CHOICE). -/
def State.loadCode (s : State) (mask off : Nat) (ws : List Word) : State :=
  (List.range 64).foldl (fun s t => if mask.testBit t then s.locWrites t off ws else s) s

/-- CODELOAD (R196). The spec names the parts of the load descriptor; their words are the model's: source, length, code-region
offset, and the tile mask as a double word (see assumption 19, DESIGN CHOICE). -/
def execCodeload (c : CoreId) (f : CF) (s : State) : Host.Outcome State Fault Refusal :=
  privileged c (encC 0xF6 f) (f.sel != 0) true (fun k s =>
    if !s.commissioning then .next (s.result k f.d.toNat resNotAllowed)
    else consume s k false (s.g k f.a.toNat) 5 (fun ds s =>
      let src := ds.getD 0 0
      let n := (ds.getD 1 0).toNat
      let off := (ds.getD 2 0).toNat
      let mask := (dword (ds.getD 3 0) (ds.getD 4 0)).toNat
      if !inOneRange src.toNat n || decide (0xE000 < off + n) || decide (2 ^ 64 ≤ mask) then
        .next (s.result k f.d.toNat resRange)
      else consume s k false src n (fun ws s => .next ((s.loadCode mask off ws).result k f.d.toNat resOk)))) s

/-! ### Ring configurations (R351 - R355) -/

/-- Pair 0 sends each node its slot, the new LAYOUT, SAMPOFF, APPLYOFF and its delays (R355, R371). -/
def State.tellLayout (s : State) (r : Nat) (c : RingCfg) : State :=
  if c.mode = 0 then s
  else (List.range c.nodes).foldl (fun s i =>
    let (addr, off, len) := c.entry (i + 1)
    let x := s.ring r
    let same := x.cfg.map RingCfg.stations = some c.stations
    let d := if same then x.delays c.nodes (i + 1) else (0, 0)
    -- what has been sent counts against the next change (R371)
    let s := if same && x.swept then s.setRing r { x with told := Tab.put none x.told (i + 1) (some d) } else s
    s.mbxNews r c addr [0, c.layout, off, len, c.slotlen, c.sampoff, c.applyOff, fld (c.word 2) 21 0, d.1, d.2]) s

/-- RINGSET of a block: result code and state; an accepted configuration waits, and the nodes are told of it (R354, R355). -/
def State.ringSet (s : State) (r : Nat) (ws : List Word) : Nat × State :=
  match s.ringCheck r (s.ringBlock ws) with
  | none => (resRange, s)
  | some c => (resOk, (s.setRing r { s.ring r with waiting := some (c, s.cc) }).tellLayout r c)

/-- Pair 0 reads the station table and the route table that a block names (R64, R352, R353): the first table with a poisoned line, if
any, and the state after the reads. -/
def State.tableRead (s : State) (ws : List Word) : Option Word × State :=
  let c : RingCfg := { w := ws, stations := [], routes := [], openAt := 0, loopOpen := 0, applyOff := 0, close := 0 }
  if c.mode = 0 || !c.tablesOk then (none, s)
  else
  let (_, p, s) := s.agentRead (c.word 6).toNat (2 * c.nodes)
  let (_, q, s) := if c.word 7 = 0 then ([], false, s) else s.agentRead (c.word 7).toNat 64
  (if p then some (c.word 6) else if q then some (c.word 7) else none, s)

/-- RINGSET (R196, R354): a poisoned word of its tables is consumed (R66). -/
def execRingset (c : CoreId) (f : CF) (s : State) : Host.Outcome State Fault Refusal :=
  privileged c (encC 0xF7 f) (f.sel.toNat / 2 != 0) true (fun k s =>
    if !s.commissioning then .next (s.result k f.d.toNat resNotAllowed)
    else consume s k false (s.g k f.a.toNat) 16 (fun ws s =>
      match s.tableRead ws with
      | (some a, s) => .flt 0x02 a s
      | (none, s) =>
        let (res, s) := s.ringSet (f.sel.toNat % 2) ws
        .next (s.result k f.d.toNat res))) s

/-! ### Program images: checks and loading (R226, R564) -/

/-- A program of nothing. -/
def noProgram : ProgramImage :=
  { areas := [], tasks := [], images := [], stations := [], owners := [], masks := [], signals := [], instances := []
    codeTile := 0, types := [] }

/-- The program that runs, as its image describes it (R577). -/
def State.oldProgram (s : State) : ProgramImage := (Config.parseImage s.store.program).getD noProgram

/-- Tile of an area, 64 for memory. -/
def areaTile (a : ProgramArea) : Nat :=
  match a.tile with
  | some t => t.val
  | none => 64

/-- Does an area lie where a program may be loaded: a code region, or memory outside the journal region (R308). -/
def areaOk (a : ProgramArea) : Bool :=
  match a.tile with
  | some _ => decide (a.addr + a.words.length ≤ 0xE000)
  | none => inOneRange a.addr a.words.length && !overlap a.addr a.words.length 0x2720000 0x10000

/-- Load one area. -/
def State.loadArea (s : State) (a : ProgramArea) : State :=
  match a.tile with
  | some t => s.locWrites t.val a.addr a.words
  | none => s.agentWrite a.addr a.words

/-- Load areas. -/
def State.loadAreas (s : State) (as : List ProgramArea) : State := as.foldl (fun s a => s.loadArea a) s

/-- Image table entry words pass R215. -/
def State.imageOk (s : State) (ws : List Word) : Bool :=
  let w := fun i => ws.getD i 0
  !bit (w 0) 24 ||
    (fld (w 0) 23 0 = 0 && decide (5 ≤ (w 2).toNat) && decide ((w 2).toNat ≤ 65536)
      && (List.range 11).all (fun i => w (5 + i) = 0) && !(bit (w 0) 34 && bit (w 0) 33 && !s.ringCommon))

/-- The type descriptor at an address of a tile's code region (R128). -/
def State.typeDesc (s : State) (t a : Nat) : List Word := (List.range 8).map (fun i => s.locWord t (a + i))

/-- TYPEID and VERSION of a type descriptor or of a block header (R128, R129). -/
def typeOf (w0 : Word) : Nat := fld w0 35 12

/-- Does a type descriptor at an address satisfy R128. -/
def typeDescOk (a : Nat) (d : List Word) : Bool :=
  let w := fun i => d.getD i 0
  let size := (w 1).toNat
  let im := (w 4).toNat
  a % 8 = 0 && fld (w 0) 35 20 != 0 && fld (w 0) 11 0 = 0 && decide (2 ≤ size) && decide (size ≤ 65536)
    && decide ((w 2).toNat < 0xE000) && decide ((w 3).toNat < 0xE000) && (im = 0 || decide (im + (size - 2) ≤ 0xE000))
    && w 5 = 0 && w 6 = 0 && w 7 = 0

/-- A migration map block: what it serves, and its entries as (DST, SRC, LEN) (R232). -/
structure MapBlock where
  serves : Nat
  entries : List (Nat × Nat × Nat)
  reservedOk : Bool
  deriving DecidableEq, Repr

/-- The block at an address of a tile's code region. -/
def State.mapBlock (s : State) (t a : Nat) : MapBlock :=
  let w0 := s.locWord t a
  let e (j : Nat) : Word × Word := (s.locWord t (a + 2 + 2 * j), s.locWord t (a + 3 + 2 * j))
  let es := (List.range (fld w0 11 0)).map e
  { serves := typeOf w0
    entries := es.map (fun x => (fld x.1 31 16, fld x.1 15 0, fld x.2 15 0))
    reservedOk := es.all (fun x => fld x.1 35 32 = 0 && fld x.2 35 16 = 0) && fld w0 11 0 != 0 }

/-- The chain of map blocks from an address, and whether every block of it lies within the code region (R232). -/
def State.mapChain (s : State) (t : Nat) : Nat → Nat → List MapBlock × Bool
  | 0, a => ([], a = 0)
  | fuel + 1, a =>
    if a = 0 then ([], true)
    else if 0xE000 < a + 2 + 2 * fld (s.locWord t a) 11 0 then ([], false)
    else
      let (r, ok) := State.mapChain s t fuel (s.locWord t (a + 1)).toNat
      (s.mapBlock t a :: r, ok)

/-- The words of the blocks of a chain: first word and number. -/
def State.chainSpans (s : State) (t : Nat) : Nat → Nat → List (Nat × Nat)
  | 0, _ => []
  | fuel + 1, a =>
    if a = 0 ∨ 0xE000 ≤ a then []
    else (a, min (2 + 2 * fld (s.locWord t a) 11 0) (0xE000 - a)) :: State.chainSpans s t fuel (s.locWord t (a + 1)).toNat

/-- Is a chain valid for a new size, with the sizes of the old types that are known (R232). -/
def chainOk (size : Nat) (oldSize : Nat → Option Nat) (bs : List MapBlock) : Bool :=
  bs.all (fun b =>
    b.reservedOk && b.entries.all (fun e => decide (2 ≤ e.1) && decide (2 ≤ e.2.1) && decide (1 ≤ e.2.2)
        && decide (e.1 + e.2.2 ≤ size)
        && (match oldSize b.serves with
            | some n => decide (e.2.1 + e.2.2 ≤ n)
            | none => true))
      && !anyPair (fun x y => overlap x.1 x.2.2 y.1 y.2.2) b.entries)
    && !anyPair (fun x y => x.serves = y.serves) bs

/-- Longest chain that is followed: the code region holds no more blocks of four words. -/
def chainFuel : Nat := 14336

/-- Every type descriptor of a program: those of its instances and the others that its image names. -/
def typeList (img : ProgramImage) : List (Nat × Nat) :=
  img.instances.map (fun i => (img.codeTile.val, i.2)) ++ img.types.map (fun t => (t.1.val, t.2))

/-- SIZE of an old type, from the old program's type descriptors. -/
def State.oldSize (s : State) (old : ProgramImage) (ty : Nat) : Option Nat :=
  ((typeList old).find? (fun t => typeOf (s.locWord t.1 t.2) = ty)).map (fun t => (s.locWord t.1 (t.2 + 1)).toNat)

/-- Words of a code region that pair 0 reads for the type descriptor at an address: the descriptor, its maps and its first-scan image. -/
def State.typeSpans (s : State) (t a : Nat) : List (Nat × Nat) :=
  let d := s.typeDesc t a
  (a, 8) :: ((d.getD 4 0).toNat, if d.getD 4 0 = 0 then 0 else (d.getD 1 0).toNat - 2)
    :: State.chainSpans s t chainFuel (d.getD 3 0).toNat

/-- Pair 0 reads words of a tile's code region (R59): is one of them poisoned, and the state after the code has acted. -/
def State.locReads (s : State) (t : Nat) (spans : List (Nat × Nat)) : Bool × State :=
  (spans.flatMap (fun r => (List.range r.2).map (r.1 + ·))).foldl (fun x a =>
    let (_, p, u) := x.2.locRead t a
    (x.1 || p, u)) (false, s)

/-- Pair 0 reads the type descriptors, maps and first-scan images of a program (R59, R66, R128, R232). -/
def State.readTypes (s : State) (img : ProgramImage) : Bool × State :=
  (typeList img).eraseDups.foldl (fun x t =>
    let (p, u) := x.2.locReads t.1 (x.2.typeSpans t.1 t.2)
    (x.1 || p, u)) (false, s)

/-- Pair 0 reads words 0 and 1 of every type descriptor of a program: TYPEID, VERSION and SIZE (R59, R66, R128). -/
def State.readSizes (s : State) (img : ProgramImage) : Bool × State :=
  (typeList img).eraseDups.foldl (fun x t =>
    let (p, u) := x.2.locReads t.1 [(t.2, 2)]
    (x.1 || p, u)) (false, s)

/-- Pair 0 reads the headers of data blocks (R64, R66, R129). -/
def State.readHeads (s : State) (is : List (Nat × Nat)) : Bool × State :=
  is.foldl (fun x i =>
    let (p, u) := x.2.meets i.1 2
    (x.1 || p, u)) (false, s)

/-- All that pair 0 reads to check a new program beside an old one (R226, R470). -/
def State.readProgram (s : State) (old img : ProgramImage) : Bool × State :=
  let (p, s) := s.readTypes img
  let (q, s) := s.readSizes old
  let (r, s) := s.readHeads (old.instances ++ img.instances)
  let (t, s) := s.readSignals
  (p || q || r || t, s)

/-- Pair 0 reads the data blocks of a program, with the SIZE of each (R59, R64, R66, R231). -/
def State.readBlocks (s : State) (img : ProgramImage) : Bool × State :=
  img.instances.foldl (fun x i =>
    let (q, u) := x.2.locReads img.codeTile.val [(i.2, 2)]
    let (p, u) := u.meets i.1 (u.locWord img.codeTile.val (i.2 + 1)).toNat
    (x.1 || q || p, u)) (false, s)

/-- The data blocks of a program pass R226, in the state that holds its code and areas: descriptors, maps, IIDs, room. -/
def State.blocksOk (s : State) (old img : ProgramImage) : Bool :=
  (typeList img).all (fun t =>
    let d := s.typeDesc t.1 t.2
    let (bs, ends) := s.mapChain t.1 chainFuel (d.getD 3 0).toNat
    typeDescOk t.2 d && ends && chainOk (d.getD 1 0).toNat (s.oldSize old) bs)
    && img.instances.all (fun i =>
      let size := (s.locWord img.codeTile.val (i.2 + 1)).toNat
      img.areas.any (fun a => a.tile = none && within i.1 size a.addr (a.addr + a.words.length)))
    && !anyPair (fun x y => s.word (x.1 + 1) = s.word (y.1 + 1)) img.instances

/-- Do the new code areas leave the old ones in place: they are the same, or lie elsewhere (R226, R228). -/
def codeFits (old img : ProgramImage) : Bool :=
  img.areas.all (fun a => areaOk a && old.areas.all (fun b =>
    a = b || areaTile a != areaTile b || !overlap a.addr a.words.length b.addr b.words.length))

/-- The tables and descriptors of an image pass R199, R215 and R468. -/
def State.tablesOk (s : State) (img : ProgramImage) : Bool :=
  img.tasks.all (fun t => decide (t.1 < 1088) && taskDescOk t.1 t.2)
    && img.images.all (fun e => decide (e.1 < 4) && decide (e.2.1 < 64) && s.imageOk e.2.2)
    && img.stations.all (fun e => decide (e.1 < 4) && decide (e.2.1 < 64))
    && img.owners.all (fun e => ownable e.1 && decide (e.2 < 64))
    && img.masks.all (fun e => decide (e.1 < 64) && decide (e.2 < 65536))
    && (s.setSignals img.signals).isSome

/-- The image tables and station error tables that an image names are written (R215, R219). -/
def State.loadTables (s : State) (img : ProgramImage) : State :=
  let s := img.images.foldl (fun s e => s.agentWrite (imgEntry e.1 e.2.1) ((List.range 16).map (fun i => e.2.2.getD i 0))) s
  let s := img.stations.foldl (fun s e => s.agentWord (0x2701000 + 64 * e.1 + e.2.1) e.2.2) s
  (s.setSignals img.signals).getD s

/-! ### Data blocks (R231 - R234) -/

/-- The first-scan state of a type (R234): FIRST 1, MIGRATED 0, then the first-scan image. -/
def State.firstScan (s : State) (t : Nat) (d : List Word) (iid : Word) : List Word :=
  let size := (d.getD 1 0).toNat
  let im := (d.getD 4 0).toNat
  let body := (List.range (size - 2)).map (fun i => if im = 0 then 0 else s.locWord t (im + i))
  [wd (at_ (typeOf (d.getD 0 0)) 12 + 1), iid] ++ body

/-- Replace a run of a list from an index. -/
def splice (l : List Word) (i : Nat) (ws : List Word) : List Word := l.take i ++ ws ++ l.drop (i + ws.length)

/-- What the swap does with one new block (R231, R233): its words and the report's two words. s0 is the state before the swap, s the
state with the new code. -/
def State.migrateOne (s0 s : State) (old img : ProgramImage) (i : Nat × Nat) : List Word × List Word :=
  let t := img.codeTile.val
  let d := s.typeDesc t i.2
  let iid := s.word (i.1 + 1)
  let new := typeOf (d.getD 0 0)
  let fresh := s.firstScan t d iid
  let report (action oldTy : Nat) : List Word :=
    [iid, wd (at_ action 33 + at_ (new / 256) 16 + at_ (new % 256) 8 + oldTy % 256)]
  match old.instances.find? (fun o => s0.word (o.1 + 1) = iid) with
  | none => (fresh, report 4 0)
  | some o =>
    let ty := typeOf (s0.word o.1)
    if ty = new then (s0.words o.1 (d.getD 1 0).toNat, report 1 ty)
    else
      match (s.mapChain t chainFuel (d.getD 3 0).toNat).1.find? (fun b => b.serves = ty) with
      | none => (fresh, report 3 ty)
      | some b =>
        let ws := b.entries.foldl (fun ws e => splice ws e.1 (s0.words (o.1 + e.2.1) e.2.2)) fresh
        (splice ws 0 [wd (at_ new 12 + 2)], report 2 ty)

/-- The blocks that the new program has no more (R231, R241). -/
def State.droppedBlocks (s0 s : State) (old img : ProgramImage) : List (List Word) :=
  (old.instances.filter (fun o => !img.instances.any (fun i => s.word (i.1 + 1) = s0.word (o.1 + 1)))).map (fun o =>
    let ty := typeOf (s0.word o.1)
    [s0.word (o.1 + 1), wd (at_ 5 33 + at_ (ty / 256) 16 + ty % 256)])

/-- Migrate every block (R231), a nested one after the block that holds it: the state, the report's words, and the words written. -/
def State.migrate (s0 : State) (old img : ProgramImage) : State × List Word × Nat :=
  let is_ := sortBy (fun (i : Nat × Nat) => i.1) img.instances
  let r := is_.foldl (fun (acc : State × List Word × Nat) i =>
    let (ws, rep) := State.migrateOne s0 s0 old img i
    (acc.1.agentWrite i.1 ws, acc.2.1 ++ rep, acc.2.2 + ws.length)) (s0, [], 0)
  (r.1, r.2.1 ++ (State.droppedBlocks s0 s0 old img).flatten, r.2.2)

/-- Every block of a program takes its first-scan state (R234), as at a load. -/
def State.firstScans (s : State) (img : ProgramImage) : State :=
  (sortBy (fun (i : Nat × Nat) => i.1) img.instances).foldl (fun t i =>
    t.agentWrite i.1 (s.firstScan img.codeTile.val (s.typeDesc img.codeTile.val i.2) (s.word (i.1 + 1)))) s

/-- Load a program image: result code and state (LOAD of R564). The caller answers a poisoned word by an integrity fault (see assumptions 19, 64, DESIGN CHOICE). -/
def State.loadProgram (s : State) (ws : List Word) : Nat × State :=
  match Config.parseImage ws with
  | none => (resRange, s)
  | some img =>
    let (p, t) := (s.loadAreas img.areas).readProgram noProgram img
    if img.tasks.any (fun e => (s.task e.1).busy) then (resNotAllowed, s)
    else if !img.areas.all areaOk then (resRange, s)
    else if p then (resPoisoned, t)
    else if !s.tablesOk img || !t.blocksOk noProgram img then (resRange, s)
    else
      let t := (t.firstScans img).loadTables img
      let t := img.tasks.foldl (fun s e => s.putDesc e.1 e.2) t
      let t := img.owners.foldl (fun s e => s.setOwner e.1 e.2) t
      let t := img.masks.foldl (fun s e => s.setReg (offMask e.1) (wd e.2)) t
      (resOk, { t with store := { t.store with program := ws } })

end Sys2Proof.Machine
end

