-- ==== Sys2Proof/Machine/Exchange.lean ====
section
/-! DEFINITION. The on-line exchange: its checks, holding, the swap, and what commit and abort do (R225 - R230, R241, R242). -/

namespace Sys2Proof.Machine

/-! ### Affected tasks (R227) -/

/-- The descriptor that a program gives a task, none where it removes it. -/
def imageDesc (img : ProgramImage) (n : Nat) : Option (List Word) :=
  match img.tasks.find? (fun e => e.1 = n) with
  | some e => if fld (e.2.getD 0 0) 35 34 = 0 then none else some e.2
  | none => none

/-- Blocks of the new program that do not stay as they are at their address, as ranges of old and new memory (R231)
(see assumption 49, DEDUCED). -/
def State.changedBlocks (s : State) (old img : ProgramImage) : List (Nat × Nat) :=
  let newSize (i : Nat × Nat) : Nat := (s.locWord img.codeTile.val (i.2 + 1)).toNat
  let oldRange (o : Nat × Nat) : Nat × Nat := (o.1, (s.locWord old.codeTile.val (o.2 + 1)).toNat)
  let same (o i : Nat × Nat) : Bool :=
    o.1 = i.1 && typeOf (s.word o.1) = typeOf (s.locWord img.codeTile.val i.2)
  (old.instances.filter (fun o => !img.instances.any (fun i => same o i))).map oldRange
    ++ (img.instances.filter (fun i => !old.instances.any (fun o => same o i))).map (fun i => (i.1, newSize i))

/-- Does a window of a descriptor overlap one of the ranges. -/
def inWindows (d : List Word) (rs : List (Nat × Nat)) : Bool :=
  (List.range 4).any (fun i =>
    let n := fld (d.getD (9 + 2 * i) 0) 31 0
    n != 0 && rs.any (fun r => overlap (d.getD (8 + 2 * i) 0).toNat n r.1 r.2))

/-- The tasks that the new program affects: descriptor or a block in a window changed, removed, or added. New code lies beside
the old, so a task whose code changes has a new descriptor. -/
def State.affectedTasks (s : State) (rs : List (Nat × Nat)) (img : ProgramImage) : List Nat :=
  let present := (s.tasks.filter (fun e => e.2.st != .unused)).map Prod.fst
  let added := (img.tasks.map Prod.fst).filter (fun n => !present.contains n && (imageDesc img n).isSome)
  present.filter (fun n => imageDesc img n != some (s.task n).desc || inWindows (s.task n).desc rs) ++ added

/-! ### The report (R241, R242) -/

/-- Write the exchange report into the buffer that the request named, as far as it fits, and pass it unless `stay`
(see assumption 49, DEDUCED). -/
def State.exReport (s : State) (buf : Nat) (result pause us : Nat) (insts forces : List Word) (stay : Bool) : State :=
  if !s.bufDevice buf then s
  else
    let t := s.t72
    let ws := [dlo t, dhi t, wd (at_ result 34 + pause), wd (at_ (insts.length / 2) 18 + forces.length / 4), wd us, 0, 0, 0]
      ++ insts ++ forces
    let ws := ws.take (s.bufCap buf)
    if stay then (s.agentWrite (s.bufAddr buf) ws).agentWord (bufDesc buf + 4) (wd ws.length)
    else s.fillBuf buf ws 2 1

/-- A point from words 0 and 1 of its point map entry. -/
def Pt.ofWords (e : Word × Word) : Pt :=
  { kind := fld e.1 35 32, word := fld e.1 31 16, pos := fld e.1 15 10, width := fld e.1 9 4, subst := fld e.1 3 2
    src := e.2, fixed := 0 }

/-- The points of the images in use among the named ones: output, and words 0 and 1. -/
def State.imagePoints (s : State) (names : List (Nat × Nat)) : List (Bool × Word × Word) :=
  names.flatMap (fun e =>
    let g := s.img e.1 e.2
    if bit g.w0 24 then
      (List.range g.npts).map (fun j => (bit g.w0 35, s.word (g.map + 4 * j), s.word (g.map + 4 * j + 1)))
    else [])

/-- The images that a program names. -/
def imageNames (img : ProgramImage) : List (Nat × Nat) := img.images.map (fun e => (e.1, e.2.1))

/-- The force entries of the report: words 0-2, and INNEW and INOLD, each for images of the force's direction (R241). -/
def State.forceEntries (s : State) (new old : List (Bool × Word × Word)) : List Word :=
  s.forces.flatMap (fun a =>
    let w0 := s.word a
    let src := s.word (a + 1)
    let has (l : List (Bool × Word × Word)) : Bool := l.any (fun e => e.1 = bit w0 34 && (Pt.ofWords e.2).named w0 src)
    [w0, src, s.word (a + 2), wd (at_ (b2n (has new)) 35 + at_ (b2n (has old)) 34)])

/-- Forced outputs that the new program writes: the address of their report word 3 and the words that name them (R242). -/
def reportWaits (base : Nat) (entries : List Word) : List (Nat × Word × Word) :=
  (List.range (entries.length / 4)).filterMap (fun i =>
    let w0 := entries.getD (4 * i) 0
    if bit w0 34 && bit (entries.getD (4 * i + 3) 0) 35 then
      some (base + 4 * i + 3, w0, entries.getD (4 * i + 1) 0)
    else none)

/-- A report that still waits for values passes as it stands. -/
def State.reportFlush (s : State) : State :=
  if s.exch.writes.isEmpty then s
  else
    let b := s.exch.buffer
    let s := { s with exch := { s.exch with writes := [] } }
    if s.bufDevice b then s.passBuf b (s.bufW b 4).toNat 2 1 false else s

/-! ### Beginning (R225, R226) -/

/-- An exchange request with an image, a hold limit, its report buffer and tag: the result code, and on ACCEPTED the state with
the new code and areas loaded; the caller enters the mode. A refusal writes the report and changes nothing else
(see assumption 49, DEDUCED; see assumption 64, DESIGN CHOICE). -/
def State.exPrepare (s : State) (ws : List Word) (limit buf : Nat) (tag : Word) : Nat × State :=
  let s := s.reportFlush
  let refused := (resRange, s.exReport buf 3 0 0 [] [] false)
  match Config.parseImage ws with
  | none => refused
  | some img =>
    let old := s.oldProgram
    let (p, t) := (s.loadAreas (img.areas.filter (fun a => !old.areas.contains a))).readProgram old img
    if 10000 < limit ∨ !s.bufDevice buf ∨ s.bufCap buf < 8 ∨ !codeFits old img then refused
    else if p then (resPoisoned, t)
    else if !s.tablesOk img || !t.blocksOk old img then refused
    else
      let rs := t.changedBlocks old img
      let aff := s.affectedTasks rs img
      (resOk, { t with exch := {
        phase := .loading, limitMs := if limit = 0 then 100 else limit, img := ws, affected := aff
        added := aff.filter (fun n => (s.task n).st = .unused)
        removed := aff.filter (fun n => (s.task n).st != .unused && (imageDesc img n).isNone)
        buffer := buf, tag := tag, tick := s.tickNow } })

/-! ### Holding and the swap (R227, R228) -/

/-- Holding starts: affected tasks that are IDLE or FAULTED are at their boundary (R227)
(see assumption 49, DEDUCED). -/
def State.exHold (s : State) : State :=
  let s := { s with exch := { s.exch with phase := .holding, holdAt := s.elapsed } }
  s.exch.affected.foldl (fun s n =>
    let t := s.task n
    if t.st = .idle ∨ t.st = .faulted then s.setTask n { t with held := true } else s) s

/-- Is every affected task held. -/
def State.allHeld (s : State) : Bool :=
  s.exch.affected.all (fun n => (s.task n).held || (s.task n).st = .unused)

/-- The swap (R228): blocks, descriptors, tables. The length of the pause is free within its bound
(see assumption 49, DEDUCED). -/
def State.exSwap (s : State) : State :=
  match Config.parseImage s.exch.img with
  | none => s
  | some img =>
    let old := s.oldProgram
    let x := s.exch
    let (t, rep, n) := s.migrate old img
    let changed := img.tasks.filter (fun e => (imageDesc img e.1).isSome && (s.task e.1).desc != e.2)
    let t := changed.foldl (fun t e =>
      let t := t.putDesc e.1 e.2
      t.setTask e.1 { t.task e.1 with held := true }) t
    let u := t.loadTables img
    -- what an abort puts back: table words and words of the blocks (R229)
    let blocks := img.instances.map (fun i => (i.1, (s.locWord img.codeTile.val (i.2 + 1)).toNat))
    let olds := ((0x2700000, 0x1100) :: blocks).flatMap (fun r => (List.range r.2).filterMap (fun i =>
      if s.word (r.1 + i) = u.word (r.1 + i) then none else some (r.1 + i, s.word (r.1 + i))))
    let (w, u) := u.drawWord
    { u with exch := { x with
      phase := .swapped, swapCc := s.cc, pause := w.toNat % (16000 + 400 * ((n + 63) / 64) + 1), entries := rep
      holdUs := (s.elapsed - x.holdAt) / tUs, oldPoints := s.imagePoints (imageNames old)
      oldDescs := changed.map (fun e => (e.1, (s.task e.1).desc)), oldWords := olds
      oldSignals := img.signals.map (fun e => (e.1, s.sigWord e.1 0, s.sigWord e.1 1)) } }

/-! ### Commit and abort (R228 - R230, R242) -/

/-- The commit at a tick (R228): the tasks that were held or added become READY, removed ones UNUSED; the report is written. The
caller enters RUN (see assumption 49, DEDUCED). -/
def State.exCommit (s : State) : State :=
  let x := s.exch
  let s := s.beginTick
  let s := s.tasks.foldl (fun s e =>
    let n := e.1
    if x.removed.contains n then s.setTask n { s.task n with st := .unused, desc := [], held := false }
    else if (s.task n).held then
      (s.setTask n { s.task n with held := false, fresh := true }).readyAtTick n 0x04
    else s) s
  let new := s.imagePoints (((Config.parseImage x.img).map imageNames).getD [])
  let fs := s.forceEntries new x.oldPoints
  -- what a report cut at CAP does not hold is not completed
  let waits := (reportWaits (s.bufAddr x.buffer + 8 + x.entries.length) fs).filter (fun e =>
    decide (e.1 < s.bufAddr x.buffer + s.bufCap x.buffer))
  let s := s.exReport x.buffer 1 x.pause x.holdUs x.entries fs (waits != [])
  { s with
    exch := { buffer := x.buffer, writes := if s.bufDevice x.buffer then waits else [] }
    store := { s.store with program := x.img } }

/-- The abort (R229, R230): held tasks are released on their old code, and what the swap had changed is put back
(see assumption 49, DEDUCED). -/
def State.exAbort (s : State) : State :=
  let x := s.exch
  if x.phase = .none then s
  else
    let s := if x.phase = .swapped then
        let s := x.oldDescs.foldl (fun s e =>
          let t := s.task e.1
          s.setTask e.1 { t with desc := e.2, st := if e.2 = [] then .unused else t.st }) s
        let s := x.oldWords.foldl (fun s e => s.agentWord e.1 e.2) s
        (s.setSignals x.oldSignals).getD s
      else s
    let s := x.affected.foldl (fun s n => s.setTask n { s.task n with held := false }) s
    let us := if x.phase = .loading then 0 else (s.elapsed - x.holdAt) / tUs
    let s := s.exReport x.buffer 2 0 us [] [] false
    { s with exch := {} }

end Sys2Proof.Machine
end

