-- ==== Sys2Proof/Machine/Modes.lean ====
section
/-! DEFINITION. Major modes: requests, transitions and their orderly stops, what entering a mode does, integrity faults and the ways
into HALT (R4, R38, R207, R208, R271, R410, R433, R460, R545, R572, R573). -/

namespace Sys2Proof.Machine

/-! ### The table of transitions (R572) -/

/-- The transitions that a MODE request may ask for (R572), from and to; those out of BOOT hold while RESUMEOK is 1. -/
def modePairs : List (Nat × Nat) :=
  [(1, 2), (1, 4), (2, 3), (2, 11), (2, 10), (2, 1), (2, 0), (10, 1), (3, 2), (3, 4), (3, 11), (4, 2), (4, 11), (4, 6), (5, 6),
   (6, 4), (6, 2), (11, 2), (11, 3), (11, 4), (8, 2)]

/-- State of STO output k (R526): 0 OPEN, 1 CLOSED, 2 STOPPING. -/
def State.stoState (s : State) (k : Nat) : Nat := s.rfld (offBrim 0) (17 + 2 * k) (16 + 2 * k)

/-- Every USED output is CLOSED and no pair is in demand (R572). -/
def State.brimClear (s : State) : Bool :=
  (List.range 4).all (fun k => !bit (s.brim.block.getD (12 + k) 0) 35 || s.stoState k = 1) && s.rfld (offBrim 1) 11 8 = 0

/-- Is a MODE request of the table allowed now (R572). -/
def State.modeAllowed (s : State) (target : Nat) : Bool :=
  modePairs.contains (s.mode, target) && (s.mode != 1 || bit (s.reg offSysMode) 4) && (!(s.mode = 6 && target = 4) || s.brimClear)
    && !(s.mode = 5 && s.exch.phase = .none)

/-- Is every task that RUN grants of a class that a tile of its quadrant admits (R208). -/
def State.classesOk (s : State) : Bool :=
  s.tasks.all (fun e => e.2.st = .unused || e.2.diag || 1024 ≤ e.1 ||
    (List.range 16).any (fun i => (s.reg (offMask (16 * (e.1 / 256) + i))).toNat.testBit e.2.class_))

/-! ### The beginning of a transition (R208, R571) -/

/-- The orderly stop of a running task that the mode entered does not grant, and the resume of a TRAPPED one (R164, R208). One that is
READY, DELAYED or EVWAIT stops when the cell clock ends (State.stopsTick), so that an order that loses in it stops nothing (R44). -/
def State.stopFor (s : State) (target n : Nat) : State :=
  let t := s.task n
  let stop := !modeGrants target t.diag
  match t.st with
  | .running => if stop then s.setTask n { t with stopping := true } else s
  | .trapped => s.setTask n { t with stopping := stop, resume := true, acc := s.cc }
  | _ => s

/-- Is the task one that the transition in progress stops at once (R208). -/
def State.stopsNow (s : State) (t : Task) : Bool :=
  s.modes.trans.any (fun p => !modeGrants p.1 t.diag) && (t.st = .delayed || t.st = .evwait || (t.st = .ready && !t.stopping))

/-- The orderly stops of the tasks that a transition begun in this cell clock finds READY, DELAYED or EVWAIT (R208). -/
def State.stopsTick (s : State) : State :=
  s.tasks.foldl (fun s e => if s.stopsNow e.2 then s.stopTask e.1 else s) s

/-- A transition begins: TRANS is 1, and orderly stops begin (R208, R571) (see assumption 55, DEDUCED). -/
def State.beginTransition (s : State) (target cause : Nat) : State :=
  let s := s.setRfld offSysMode 7 7 1
  let s := { s with modes := { s.modes with trans := some (target, cause) } }
  s.tasks.foldl (fun s e => s.stopFor target e.1) s

/-- Has every orderly stop finished (R208). -/
def State.stopsDone (s : State) : Bool := !s.tasks.any (fun e => e.2.stopping || s.stopsNow e.2)

/-! ### Entering a mode -/

/-- Modes that disable lanes, cancel cues and empty the force table (R104, R240, R271). -/
def modeQuiet (m : Nat) : Bool := m = 0 || m = 2 || m = 7 || m = 8 || m = 10

/-- The cells take the states of the second row of R410, with the rules of R433 and R443. -/
def State.cellsOff (s : State) : State :=
  let s := (List.range 24).foldl (fun s p =>
    (s.setReg (offPwm p 0) (setBit (s.reg (offPwm p 0)) 0 false)).setPair p { s.pair p with start := 0, driven := false }) s
  let s := (List.range 16).foldl (fun s g => if bit (s.reg (offStep g 0)) 0 || (s.stepGen g).goAt.isSome then s.stepHalt g else s) s
  let s := (List.range 16).foldl (fun s f => s.chopStore f 0 (setBit (s.reg (offChop f 0)) 35 false)) s
  let s := (List.range 16).foldl (fun s k => (s.setRfld (offConv k 0) 35 34 0).convEmpty k) s
  let s := (List.range 64).foldl (fun s n => s.setRfld (offAin n 4) 35 35 0) s
  (List.range 16).foldl (fun s o => s.foutStore o 0 0) s

/-- SYS.MODE at the end of a transition (R571). -/
def State.putMode (s : State) (m cause : Nat) : State :=
  let w := s.reg offSysMode
  let s := s.setReg offSysMode (wd (at_ cause 12 + at_ s.mode 8 + at_ (fld w 6 5) 5 + m))
  { s with modes := { s.modes with trans := none } }

/-- A cause of a FAULT snapshot (R498). -/
def State.faultKind (s : State) (k : Nat) : State :=
  if s.evr.causes.contains k then s else { s with evr := { s.evr with causes := s.evr.causes ++ [k] } }

/-- The scheduler, the streams of R33 that list 0x0B and the units stop in HALT (R208, R477, R487). -/
def State.haltUnits (s : State) : State := ((s.drainAll.histDrop 0x0B true)).capsDrop 0x0B

/-- The mode leaves COMMISSION or TEST: a task that is TRAPPED still resumes (R164). -/
def State.untrap (s : State) : State :=
  let f (t : Task) : Task := if t.st = .trapped ∧ t.resume = false then { t with resume := true, acc := s.cc } else t
  { s with tasks := mapTab f s.tasks }

/-- A mode is entered (see assumption 55, DEDUCED). -/
def State.enterMode (s : State) (m cause : Nat) : State :=
  let s := if (s.mode = 3 ∨ s.mode = 11) ∧ m ≠ 7 then s.untrap else s
  let s := if m = 4 ∧ s.exch.phase = .none ∨ m = 5 then s else s.exAbort
  let s := s.putMode m cause
  let s := if modeQuiet m then ((s.lanesOff).cancelCues (fun _ => true) 4).forcesEmpty else s
  let s := if cellsRun m then s else s.cellsOff.capsCut
  let s := s.canMode m
  let s := if m = 7 ∨ m = 6 then s.faultKind snapStop else s
  let s := if m = 7 then s.haltUnits else s
  let s := if m = 10 then
      { s.setRfld (offUpd 0) 35 32 1 with store := { s.store with installed := [] } }
    else s
  let s := if modeGrants m false || modeGrants m true then { s with sched := { s.sched with entered := true } } else s
  let s := State.msix (s.eventEntry (wd (at_ 2 28 + m)) 0 0) 3
  -- a request of Brim that met the transition takes effect now (R573)
  if s.brim.wantSafe then
    let s := { s with brim := { s.brim with wantSafe := false } }
    if m = 4 ∨ m = 5 then s.beginTransition 6 4 else s
  else s

/-- Brim requests SAFESTOP (R515, R521, R573). -/
def State.brimSafestop (s : State) : State :=
  if s.modes.trans.isSome then { s with brim := { s.brim with wantSafe := true } }
  else if s.mode = 4 ∨ s.mode = 5 then s.beginTransition 6 4 else s

/-! ### HALT (R38, R208, R545) -/

/-- HALT is entered at once from every mode but BOOT and RECOVERY (R572, R573); a trial falls back at the next reset (R587)
(see assumption 55, DEDUCED). -/
def State.halt (s : State) : State :=
  if s.mode = 1 ∨ s.mode = 0 ∨ s.mode = 7 then s
  else
    let s := if bit (s.reg offSysMode) 5 then { s with store := { s.store with fallback := true } } else s
    let s := { s with tasks := mapTab (fun (t : Task) => { t with stopping := false }) s.tasks }
    s.enterMode 7 5

/-- Every item resident in a stream is dropped under a reason, and its buffer is emptied: at hold-up (R40), and when a module gives
up its role in a pair (R545, R548, R567) (see assumption 55, DEDUCED). -/
def State.dropResident (s : State) (reason : Nat) : State :=
  let s := s.histDrop reason true
  let s := (List.range 16).foldl (fun s u => s.setCap u { s.cap u with records := [] }) s
  let s := (List.range 45).foldl (fun s i => s.drop i reason (s.stream i).resident) s
  let s := (List.range 4).foldl (fun s q => s.setReg (offTrrd q) (s.reg (offTrwr q))) s
  let s := (List.range 4).foldl (fun s p =>
    let s := s.setReg (offCan p 8) (s.reg (offCan p 7))
    let x := s.can p
    s.setCan p { x with
      chosen := none, refPend := false, refMade := false
      boxes := mapTab (fun (b : Mailbox) => if b.st = 1 ∨ b.st = 2 then { b with st := 3, result := 9 } else b) x.boxes }) s
  let s := (List.range 2).foldl (fun s r => s.setRing r { s.ring r with msgs := [], rx := [], bad := [], due := false, assembled := false }) s
  let s := { s with field := { s.field with sent := [] } }
  { s with
    tasks := mapTab (fun (t : Task) => { t with queue := [], posted := false }) s.tasks
    host := { s.host with reqci := s.host.reqpi, rspci := s.host.rsppi } }

/-- ROLE of PAIR.STAT (R550): 0 UNPAIRED, 1 ACTIVE, 2 STANDBY, 3 FAILED. -/
def State.role (s : State) : Nat := s.rfld (offPair 0) 35 34

/-- A paired active module fails (R38, R545): the output gate closes, the release message goes out, resident items are dropped under
0x07, and HALT is entered with ROLE FAILED (see assumption 55, DEDUCED). -/
def State.pairFail (s : State) : State :=
  let s := State.cellsOff { s with peer := { s.peer with gate := true } }
  let s := { s with outbox := s.outbox ++ [Msg.release 1] }
  let s := s.dropResident 0x07
  (s.setRfld (offPair 0) 35 34 3).halt

/-- An integrity fault (R38): the first since the reset is declared, with its kind and item in CENSUS.STAT. -/
def State.integrityFault (s : State) (kind id : Nat) : State :=
  if s.rfld offCensusStat 2 2 = 1 then s
  else
    let s := ((s.setRfld offCensusStat 19 8 id).setRfld offCensusStat 7 4 kind).setRfld offCensusStat 2 2 1
    let s := s.faultKind snapIntegrity
    let s := if bit (s.reg offSysMode) 5 then { s with store := { s.store with fallback := true } } else s
    if s.role = 1 then s.pairFail else s.halt

/-! ### Requests (R196, R572, R573) -/

/-- A MODE request (R572, R573), of an instruction with its result code in register gd: result code and state
(see assumption 55, DEDUCED). -/
def State.modeRequest (s : State) (k target : Nat) (gd : Option Nat := none) : Nat × State :=
  let src := coreSrc k
  let r := s.respOf k
  -- orders to the mode that stand at this cell clock
  let standing := s.orders.filter (fun x => x.kind = 1)
  let o : Order := {
    kind := 1, idx := 0, value := target, src := src, code := if r.isSome then 2 else 0xF0, resp := r, gd := gd
    tasks := (standing.foldl State.undoOrder s).tasks }
  if s.holdup || s.modes.inReset then (resNotAllowed, s)
  else if s.modes.trans.isSome && standing = [] then (resBusy, s)
  else if s.mode = 5 && target != 6 then (resBusy, s)
  else if !s.modeAllowed target then (resNotAllowed, s)
  else if target = 4 && s.mode != 1 && !s.classesOk then (resRange, s)
  else
    let same := standing.any (fun x => x.value = target)
    let (won, s) := s.rankOrder o
    if !won then (resConflict, s)
    else if same then (resOk, s)
    else (resOk, State.beginTransition (if standing = [] then s else s.undoOrder o) target (if k = 65 then 2 else 3))

/-- MODE (R196) (see assumption 55, DEDUCED). -/
def execMode (c : CoreId) (f : CF) (s : State) : Host.Outcome State Fault Refusal :=
  privileged c (encC 0xF0 f) (f.sel != 0) false (fun k s =>
    let (res, s) := s.modeRequest k (fld (s.g k f.a.toNat) 3 0) (some f.d.toNat)
    .next (s.result k f.d.toNat res)) s

/-! ### Exchange events (R227 - R229) -/

/-- EXCHANGE_HOLD_START (R227): at the first tick after loading. -/
def execExchangeHoldStart (s : State) : Host.Outcome State Fault Refusal :=
  .next (if s.exch.phase = .loading && s.mode = 5 && decide (s.exch.tick < s.tickNow) then s.exHold else s)

/-- SWAP (R228): when every affected task is held. Pair 0 reads the blocks that it moves; a poisoned word of them is an integrity
fault (R64, R66, R140). -/
def execSwap (s : State) : Host.Outcome State Fault Refusal :=
  .next (if s.exch.phase = .holding && s.mode = 5 && s.allHeld then
    let (p, s) := s.readBlocks s.oldProgram
    let (q, s) := match Config.parseImage s.exch.img with
      | some img => s.readProgram s.oldProgram img
      | none => (false, s)
    if p || q then s.integrityFault 6 2 else s.exSwap
  else s)

/-- EXCHANGE_COMMIT (R228): at the first tick after the swap pause; the mode returns to RUN. Hold-up lets no commit follow (R230). Pair 0
reads the force table for the report; a poisoned word of it is an integrity fault (R66, R140, R241). -/
def execExchangeCommit (s : State) : Host.Outcome State Fault Refusal :=
  .next (if s.exch.phase = .swapped && s.mode = 5 && !s.holdup && decide (s.exch.swapCc + s.exch.pause ≤ s.cc)
      && (s.tickDue || s.sched.tickCc = s.cc) then
    let (p, s) := s.forcesMet
    if p then s.integrityFault 6 2
    else
      let s := s.exCommit
      let t := s.modes.trans
      let s := s.enterMode 4 9
      match t with
      | some (m, c) => s.beginTransition m c
      | none => s
  else s)

/-- EXCHANGE_ABORT (R229): the hold limit has run out and a task is not held; the mode returns to RUN. -/
def execExchangeAbort (s : State) : Host.Outcome State Fault Refusal :=
  .next (if s.exch.phase = .holding && s.mode = 5 && !s.allHeld
      && decide (s.exch.holdAt + s.exch.limitMs * tMs ≤ s.elapsed) then
    let t := s.modes.trans
    let s := s.exAbort.enterMode 4 9
    match t with
    | some (m, c) => s.beginTransition m c
    | none => s
  else s)

end Sys2Proof.Machine
end

