-- ==== Sys2Proof/Machine/Census.lean ====
section
/-! DEFINITION. The census (R36 - R42, R613), CENSUS, the scrubbers (R69 - R73), and the spine's events (R21, R27 - R31, R75). -/

namespace Sys2Proof.Machine

/-! ### Sampling (R36) -/

/-- Do census instants occur: from the end of BOOT self-test until the final sample of hold-up (R39, R40). -/
def State.censusRuns (s : State) : Bool := s.host.ready && !s.census.final && s.mode != 0

/-- The values of this cell clock. -/
def State.censusSample (s : State) : CensusSample :=
  let (conf, dev) := s.bufCounts
  { time := s.now, streams := s.census.streams, credits := s.spine.credits
    tagsHeld := s.spine.waiting.length + s.spine.acked.length, winHost := conf - dev, winDevice := dev, winConf := conf }

/-- Is this cell clock a whole millisecond that has not been sampled (R36, R81). -/
def State.censusDue (s : State) : Bool := decide (s.census.lastMs ≤ s.now / tMs)

/-- Is an extra sample due. -/
def State.extraDue (s : State) : Bool :=
  match s.census.extra with
  | some c => decide (c ≤ s.cc)
  | none => false

/-- Samples that wait for their check. -/
def Census.unchecked (x : Census) : Nat := if x.sample.isSome then x.older.length + 1 else 0

/-- A census instant: the sample is taken and its check begins (R36, R41), after those of earlier samples; history credits start anew at a whole millisecond
(see assumption 63, DEDUCED). -/
def State.censusTake (s : State) : State :=
  let whole := s.censusDue
  let both := s.extraDue && !(whole && s.census.apart)
  let s := { s with census := { s.census with
    sample := some s.censusSample
    older := s.census.older ++ s.census.sample.toList
    lastMs := if whole then s.now / tMs + 1 else s.census.lastMs
    extra := if both then none else s.census.extra, apart := false } }
  let s := s.setRfld offCensusStat 3 3 1
  if whole then s.histCredits else s

/-! ### The check (R37, R38, R42) -/

/-- The sum of a stream's dropped counts. -/
def Stream.drops (x : Stream) : Nat := (x.dropped.map Prod.snd).sum

/-- Does a stream conserve its items (R37). -/
def Stream.conserves (x : Stream) : Bool := x.produced = x.delivered + x.drops + x.resident

/-- The first item of the sample whose equation fails: kind and index (R41). -/
def CensusSample.failure (x : CensusSample) : Option (Nat × Nat) :=
  match (List.range 45).find? (fun i => !(Tab.get {} x.streams i).conserves) with
  | some i => some (1, i)
  | none =>
    match (List.range 96).find? (fun j => let c := Tab.get {} x.credits j; c.held + c.link + c.occupied != 16) with
    | some j => some (2, 45 + j)
    | none =>
      if 512 < x.tagsHeld then some (3, 141)
      else if x.winHost + x.winDevice != x.winConf then some (4, 142)
      else none

/-- A count as two words, the low one first. -/
def u72 (n : Nat) : List Word := [dlo (dw n), dhi (dw n)]

/-- The census table (R613) of a sample whose check bears the number seq. -/
def CensusSample.table (x : CensusSample) (seq : Word) : List Word :=
  let t := t72 x.time
  [seq, dlo t, dhi t] ++ List.replicate 5 0
    ++ (List.range 45).flatMap (fun i =>
      let st := Tab.get {} x.streams i
      u72 st.produced ++ u72 st.delivered ++ u72 st.resident
        ++ (List.range 13).flatMap (fun c => u72 (Tab.get 0 st.dropped (c + 1))))
    ++ (List.range 96).flatMap (fun j =>
      let c := Tab.get {} x.credits j
      [wd c.held, wd c.link, wd c.occupied, wd (c.held + c.link + c.occupied)])
    ++ [wd (512 - x.tagsHeld), wd x.tagsHeld, 512, 0, wd x.winHost, wd x.winDevice, wd x.winConf, 0]

/-- First word of the census table. -/
def censusBase : Nat := 0x27A0000

/-- The sample that is checked next, and the audit without it. -/
def Census.nextCheck (x : Census) : Option (CensusSample × Census) :=
  match x.sample, x.older with
  | none, _ => none
  | some y, [] => some (y, { x with sample := none })
  | some _, y :: r => some (y, { x with older := r })

/-- CENSUS_CHECK (R37, R38, R42, R613). After the final sample nothing is checked, and SEQ does not advance (R40)
(see assumption 63, DEDUCED). -/
def execCensusCheck (s : State) : Host.Outcome State Fault Refusal :=
  .next (match (if s.census.final then none else s.census.nextCheck) with
  | none => s
  | some (x, c) =>
    let seq := s.reg offCensusSeq + 1
    let s := { s with census := c }
    let s := (s.agentWrite censusBase (x.table seq)).setReg offCensusSeq seq
    let s := s.setRfld offCensusStat 3 3 (b2n c.sample.isSome)
    match x.failure with
    | none => s
    | some (kind, id) => s.integrityFault kind id)

/-- CENSUS op 0 (R42, R196): the table goes to Ga. -/
def execCensusCopy (c : CoreId) (f : CF) (s : State) : Host.Outcome State Fault Refusal :=
  privileged c (encC 0xF2 f) (f.sel.toNat / 2 != 0) false (fun k s =>
    if s.accessN k true false (s.g k f.a.toNat) 1840 = .fault then .flt 0x08 (s.g k f.a.toNat) s
    else
    let (ws, p, s) := s.agentRead censusBase 1840
    if p then .flt 0x02 (wd censusBase) s
    else emit s k (s.g k f.a.toNat) ws (fun s => .next (s.setG k f.d.toNat (s.reg offCensusSeq)))) s

/-- CENSUS op 1 (R196): an extra check sampled at the next cell clock; Gd := the number it will bear, after that of a sample that is due
now (see assumption 63, DEDUCED). -/
def execCensusExtraCheck (c : CoreId) (f : CF) (s : State) : Host.Outcome State Fault Refusal :=
  privileged c (encC 0xF2 f) (f.sel.toNat / 2 != 0) false (fun k s =>
    let due := s.censusRuns && s.censusDue
    let n := s.reg offCensusSeq + 1 + wd (s.census.unchecked + b2n due)
    .next (State.setG { s with census := { s.census with extra := some (s.cc + 1), apart := due } } k f.d.toNat n)) s

/-! ### Scrubbing (R69 - R73) -/

/-- Number of a memory target: quadrants 0-3, Crown 4, DRAM 5 and 6. -/
def memNo : MemTarget → Nat
  | .quad q => q.val
  | .crown => 4
  | .dram0 => 5
  | .dram1 => 6

/-- Lines of a target. -/
def memLines (m : Nat) : Nat :=
  if m < 4 then Config.quadWords / 8 else if m = 4 then (Config.crownEnd - Config.crownBase) / 8
  else (Config.dramEnd - Config.dramBase) / 16

/-- The n-th line of a target. -/
def memLine (m n : Nat) : Nat :=
  if m < 4 then (Config.quadBase + m * Config.quadWords) / 8 + n
  else if m = 4 then Config.crownBase / 8 + n
  else Config.dramBase / 8 + 2 * n + (m - 5)

/-- A scrub of line l (R69, R70): decode, write-back, retirement after two consecutive passes of correction. A visit that finds
the line good, poisoned or uncorrectable ends the run of corrections. -/
def State.scrubLine (s : State) (l : Nat) : State :=
  let e := Tab.get {} s.mem.errs l
  let clear (t : State) : State := { t with mem := { t.mem with needed := Tab.put false t.mem.needed l false } }
  if (s.lineMeta l).poison || (e.symbols = 0 && !e.tagWrong) then clear s
  else
    let t := s.decode l
    if 4 < e.symbols || e.tagWrong then clear t
    else
      let moved := Tab.get 0 t.mem.remap l != Tab.get 0 s.mem.remap l
      let t := { t with mem := { t.mem with errs := Tab.put {} t.mem.errs l {} } }
      if moved || decide (8 * l < Config.dramBase) then t
      else if Tab.get false s.mem.needed l then (if 3 ≤ e.symbols then t else t.retire l)
      else { t with mem := { t.mem with needed := Tab.put false t.mem.needed l true } }

/-- DRAM passes that both targets have completed (R73). -/
def Memory.passes (m : Memory) : Nat := min m.passes0 m.passes1

/-- SCRUB_VISIT (R69, R73): the target's scrubber visits its next line; MEM.SCRUBPASS counts a DRAM pass when both targets have
completed it (see assumption 13, DESIGN CHOICE; see assumption 63, DEDUCED). -/
def execScrubVisit (m : MemTarget) (s : State) : Host.Outcome State Fault Refusal :=
  let m := memNo m
  .next (if !s.host.ready then s
  else
    let n := Tab.get 0 s.mem.scrub m
    let s := s.scrubLine (memLine m n)
    let done := n + 1 = memLines m
    let x := { s.mem with
      scrub := Tab.put 0 s.mem.scrub m ((n + 1) % memLines m)
      passes0 := s.mem.passes0 + b2n (m = 5 && done), passes1 := s.mem.passes1 + b2n (m = 6 && done) }
    if x.passes = s.mem.passes then { s with mem := x }
    else State.incReg { s with mem := x } offMemScrubpass (x.passes - s.mem.passes))

/-! ### The spine's events (R21, R27 - R31, R75) -/

/-- COMMAND_BEAT_CRC_FAIL (R75): the transaction ends at its requester with a poisoned error response, and its tag returns. A tag
that no transaction holds stands for the next one that takes it (see assumption 14, DEDUCED). -/
def execCommandBeatCrcFail (tag : Fin 512) (s : State) : Host.Outcome State Fault Refusal :=
  .next (if s.spine.waiting.any (fun r => r.tag = tag.val) then
    State.incReg { s with spine := { s.spine with waiting := s.spine.waiting.filter (fun r => r.tag != tag.val) } }
      offSpineCrcerr 1
  else if s.spine.acked.any (fun a => a.tag = tag.val) || s.spine.badBeats.contains tag.val then s
  else { s with spine := { s.spine with badBeats := tag.val :: s.spine.badBeats } })

/-- SPINE_TARGET_SERVICE (R27) (see assumption 14, DEDUCED). -/
def execSpineTargetService (m : MemTarget) (flitOk : Bool) (s : State) : Host.Outcome State Fault Refusal :=
  .next (match s.serveOne (memNo m) flitOk with
  | some (_, _, t) => t
  | none => s)

/-- Does a response have to wait for that of an earlier request of its port to the same target (R30)? -/
def Spine.early (x : Spine) (a : SpineAck) : Bool :=
  x.waiting.any (fun r => r.port = a.port && r.target = a.target && decide (r.seq < a.seq))
    || x.acked.any (fun b => b.port = a.port && b.target = a.target && decide (b.seq < a.seq))

/-- TRANSACTION_COMPLETE (R29, R30): the response crosses its link and the tag returns, unless an earlier response is still to
come or the link has no slot (R31). -/
def execTransactionComplete (tag : Fin 512) (s : State) : Host.Outcome State Fault Refusal :=
  .next (match s.spine.acked.find? (fun a => a.tag = tag.val) with
  | none => s
  | some a =>
    if s.spine.early a || s.spine.full a.port 1 a.cls then s
    else
      let s := s.returnTag tag.val
      { s with spine := s.spine.hop a.port 1 a.cls })

/-- CREDIT_RETURN (R31): a slot at the receiver has become free, and its credit returns to the sender. While every occupied slot holds a
request that still waits, none has (see assumption 14, DEDUCED). -/
def execCreditReturn (port : Fin 12) (toPort : Bool) (cls : Fin 4) (s : State) : Host.Outcome State Fault Refusal :=
  let j := loopNo port.val (b2n toPort) cls.val
  let c := Tab.get {} s.spine.credits j
  .next (if c.occupied ≤ s.spine.kept port.val (b2n toPort) cls.val then s
  else { s with spine := { s.spine with credits := Tab.put {} s.spine.credits j c.back } })

/-- CROWN_LOCKSTEP_DIFFERENCE (R21, R38). -/
def execCrownLockstepDifference (s : State) : Host.Outcome State Fault Refusal := .next (s.integrityFault 5 0)

end Sys2Proof.Machine
end

