-- ==== Sys2Proof/Machine/Evr.lean ====
section
/-! DEFINITION. The event recorder (R490 - R502): the fold, the records and their slots in MRAM. -/

namespace Sys2Proof.Machine

/-- The live record in Crown memory (R501). -/
def evrBase : Nat := 0x2750000

/-- Words of a record (R496). -/
def evrWords : Nat := 2832

/-- The bin of a value under LIN(LO, W). -/
def linBin (lo w v : Int) : Nat := if v < lo + w then 0 else min 31 ((v - lo) / w).toNat

/-- The bin of a value under LOG. -/
def logBin (v : Int) : Nat := if v < 1 then 0 else min 31 (Nat.log2 v.toNat + 1)

/-- The bin of histogram h for a value (R492); w50 is LEN/32 (see assumption 52, DEDUCED). -/
def evrBin (w50 : Int) (h : Nat) (v : Int) : Nat :=
  if h < 4 then linBin (-2560) 1024 v
  else if h < 12 then linBin (-160000) 10000 v
  else if h = 12 then linBin 0 1000 v
  else if h = 13 then linBin 0 2500 v
  else if h < 22 then logBin v
  else if h < 30 then linBin 0 64 v
  else if h < 45 then logBin v
  else if h = 45 then linBin 0 256 v
  else if h < 50 then linBin 0 8 v
  else if h = 50 then linBin 0 w50 v
  else logBin v

/-- The counter behind a histogram that takes the increase of a counter over the second. -/
def State.evrCounter (s : State) (h : Nat) : Nat :=
  let d (i r : Nat) : Nat := Tab.get 0 (s.stream i).dropped r
  if h = 30 ∨ h = 31 then d (strBandIn (h - 30)) 2 + d (strBandOut (h - 30)) 2
  else if h = 42 then (s.reg offMemCorr).toNat
  else if h = 43 then (s.reg offMemUncorr).toNat + (s.reg offSpineCrcerr).toNat
  else if h = 44 then d strBarOut 2 + d strBarIn 2
  else ((List.range 16).map (fun u => d (strCap u) 6 + d (strCap u) 12)).sum

/-- The recorder takes the increase of every counter into its own tallies (R491) (see assumption 52, DEDUCED). -/
def State.evrCollect (s : State) : State :=
  [30, 31, 42, 43, 44, 51].foldl (fun s h =>
    let v := s.evrCounter h % 2 ^ 36
    let s := s.tallyAdd h ((v + 2 ^ 36 - Tab.get 0 s.evr.last h) % 2 ^ 36)
    { s with evr := { s.evr with last := Tab.put 0 s.evr.last h v } }) s

/-- The value of histogram h for the second that ends, if its source ran (R492, R493). Temperatures, rails and the input power
come with the event. -/
def State.evrValue (s : State) (sensors : List (Option Int)) (h : Nat) : Option Int :=
  let t := Tab.get none s.evr.tally h
  if h < 12 ∨ h = 13 then (sensors[h]?).join
  else if h = 12 then (if bit (s.reg offFieldStat) 35 then t else none)
  else if h < 30 then t
  else if h < 38 then
    (if (Tab.get {} s.rings (h % 2)).run || (Tab.get none s.evr.tally (64 + h % 2)).isSome then some (t.getD 0) else none)
  else if h = 45 then
    (if s.rfld offTimeStat 1 0 = 2 then some (max (t.getD 0) ((s36 (s.reg offTimeOffs)).natAbs : Int)) else none)
  else if h < 46 then some (t.getD 0)
  else if h < 50 then some (max (t.getD 0) (s.readyCount (h - 46)))
  else if h = 50 then some (max (t.getD 0) (s.reg (offHist 3)).toNat)
  else if h = 51 then some (t.getD 0)
  else none

/-- Tracked quantity q takes a value (R495). -/
def State.evrTrack (s : State) (q : Nat) (v : Int) : State :=
  let a := evrBase + 2064 + 6 * q
  let o := s.reg (offEvr 2)
  let p := s.reg (offEvr 3)
  let s := s.decode (a / 8)
  let s := if v < s36 (s.word a) then (s.agentWord a (wdI v)).agentWrite (a + 2) [o, p] else s
  if s36 (s.word (a + 1)) < v then (s.agentWord (a + 1) (wdI v)).agentWrite (a + 4) [o, p] else s

/-- The tracked quantities take the second's values and the user words (R494). -/
def State.evrTrackAll (s : State) (vals : List (Option Int)) : State :=
  let s := (List.range 52).foldl (fun s q =>
    match (vals[q]?).join with
    | some v => s.evrTrack q v
    | none => s) s
  (List.range 64).foldl (fun s k =>
    let a := evrBase + 0xC00 + 2 * k
    let s := s.decode (a / 8)
    if bit (s.word a) 35 && !s.poisoned a then s.evrTrack (64 + k) (s36 (s.word (a + 1))) else s) s

/-- Slot of record n in MRAM (R497): 0-255 the permanent area, from 256 the circulating area. -/
def evrSlot (n : Nat) : Nat := if n < 256 then n else 256 + (n - 256) % 4096

/-- FAULTS of the kinds seen (R498), bit 24 first (see assumption 52, DEDUCED). -/
def evrFaults (ks : List Nat) : Nat := ((List.range 8).map (fun k => if ks.contains k then at_ 1 (24 + k) else 0)).sum

/-- The words of a record with its check (R496). -/
def sealRecord (ws : List Word) : List Word := ws.set 6 (wd (crc32cWords (ws.take 6 ++ ws.drop 7)))

/-- A snapshot (R496, R497): the record waits for its write to MRAM. The live record is read (R64); a record with words of a poisoned line
carries a check that fails, for MRAM has no other mark (R78) (see assumption 52, DEDUCED). -/
def State.evrSnapshot (s : State) (cause : Nat) : State :=
  let t := if s.rfld offTimeStat 3 3 = 1 then s.t72 else 0
  let head := [wd (at_ cause 32 + evrFaults s.evr.causes + at_ (s.rfld offBlevel 7 0) 16 + s.mode), s.reg (offEvr 4),
    s.reg (offEvr 2), s.reg (offEvr 3), dlo t, dhi t, 0] ++ List.replicate 9 0
  let (ws, p, s) := s.agentRead (evrBase + 16) (evrWords - 16)
  let r := sealRecord (head ++ ws)
  let r := if p then r.set 6 (~~~(r.getD 6 0)) else r
  let s := (s.incReg (offEvr 4) 1).setRfld (offEvr 0) 35 35 1
  { s with evr := { s.evr with causes := [], writing := s.evr.writing ++ [r] } }

/-- The cause of the record that a fold takes, the first that applies (R498) (see assumption 52, DEDUCED). -/
def State.evrCause (s : State) : Option Nat :=
  if !s.evr.causes.isEmpty then some 2
  else if (s.reg (offEvr 2)).toNat % 3600 = 0 then some 1
  else if s.evr.request then some 5
  else if s.evr.powerup then some 4
  else none

/-- The tallies with which a second begins: the largest of a level that stands starts at the level (R492). -/
def State.evrOpening (s : State) : Tab (Option Int) :=
  let t := (List.range 4).foldl (fun t q => Tab.put none t (46 + q) (some ((s.readyCount q : Nat) : Int))) []
  let t := Tab.put none t 50 (some (((s.reg (offHist 3)).toNat : Nat) : Int))
  if s.rfld offTimeStat 1 0 = 2 then Tab.put none t 45 (some (((s36 (s.reg offTimeOffs)).natAbs : Nat) : Int)) else t

/-- EVR_FOLD (R491): one operating second ends (see assumption 52, DEDUCED). -/
def execEvrFold (sensors : List (Option Int)) (s : State) : Host.Outcome State Fault Refusal :=
  .next (if s.modes.holdAt.isSome then s
  else
    let s := (s.incReg (offEvr 2) 1).evrCollect
    let vals := (List.range 52).map (s.evrValue sensors)
    let w := max 1 ((s.histLen / 32 : Nat) : Int)
    let s := (List.range 52).foldl (fun s h =>
      match (vals[h]?).join with
      | some v =>
        let a := evrBase + 16 + 32 * h + evrBin w h v
        let s := s.decode (a / 8)
        s.agentWord a (s.word a + 1)
      | none => s) s
    let s := (s.evrTrackAll vals).incReg (offEvr 1) 2
    let s := s.agentWrite (evrBase + 2) [s.reg (offEvr 2), s.reg (offEvr 3)]
    let s := { s with evr := { s.evr with tally := s.evrOpening } }
    match s.evrCause with
    | none => s
    | some c =>
      let s := s.evrSnapshot c
      { s with evr := { s.evr with request := false, powerup := false } })

/-- The record at the head of those that wait is in its slot (R497, R502). -/
def State.evrWritten (s : State) : State :=
  match s.evr.writing with
  | [] => s
  | r :: rest =>
    let n := (r.getD 1 0).toNat
    let s := { s with evr := { s.evr with writing := rest, slots := Tab.put [] s.evr.slots (evrSlot n) r } }
    let s := if n = 255 then s.setRfld (offEvr 0) 34 34 1 else s
    if rest.isEmpty then s.setRfld (offEvr 0) 35 35 0 else s

/-- SNAPSHOT_WRITE_DONE (R497): writes are made one at a time, in RSEQ order. -/
def execSnapshotWriteDone (s : State) : Host.Outcome State Fault Refusal := .next s.evrWritten

/-- Every record that waits is written. -/
def State.evrFlush (s : State) : State := s.evr.writing.foldl (fun s _ => s.evrWritten) s

/-- Hold-up begins (R500): records in progress complete, the partial second goes into the tracked quantities alone, and a
POWERFAIL record is written. The sensors' part of the partial second is not known to the model (DESIGN CHOICE, assumption 40). -/
def State.evrPowerfail (s : State) : State :=
  let s := s.evrFlush.evrCollect
  let s := s.evrTrackAll ((List.range 52).map (s.evrValue []))
  (s.evrSnapshot 3).evrFlush

/-- Is a record's check good. -/
def recordGood (r : List Word) : Bool := r.getD 6 0 = wd (crc32cWords (r.take 6 ++ r.drop 7))

/-- The newest of some records by RSEQ. -/
def newestRecord (rs : List (List Word)) : Option (List Word) :=
  rs.foldl (fun b r =>
    match b with
    | none => some r
    | some x => if (x.getD 1 0).toNat < (r.getD 1 0).toNat then some r else b) none

/-- Power-up of the recorder (R490, R499): the live record comes from the newest good record. -/
def State.evrPowerUp (s : State) (pcyc : Word) : State :=
  let rs := s.evr.slots.map Prod.snd
  let best := newestRecord (rs.filter recordGood)
  let last := newestRecord rs
  let next := match last with
    | some r => r.getD 1 0 + 1
    | none => 0
  let skipped := decide (last.map (fun r => r.getD 1 0) ≠ best.map (fun r => r.getD 1 0))
  let s := ((s.setReg (offEvr 4) next).setReg (offEvr 3) (pcyc + 1)).setReg (offEvr 0)
    (wd (at_ (b2n (decide (255 < next.toNat))) 34 + at_ (b2n skipped) 32))
  let s := { s with evr := { s.evr with causes := [], request := false, powerup := true, tally := [], last := [] } }
  match best with
  | none => s
  | some r =>
    let s := ((s.agentWrite (evrBase + 16) (r.drop 16)).agentWrite (evrBase + 2) [r.getD 2 0, r.getD 3 0]).setReg (offEvr 2)
      (r.getD 2 0)
    if fld (r.getD 0 0) 35 32 = 3 then s else s.setRfld (offEvr 0) 33 33 1

end Sys2Proof.Machine
end

