-- ==== Sys2Proof/Machine/Brim.lean ====
section
/-! DEFINITION. Brim, the safety island (R503 - R529): its cycle, its decision point, its tests and its parameter block. -/

namespace Sys2Proof.Machine

/-! ### Registers and the block in force -/

/-- STATE of BRIM.STAT (R526): 0 NOPARAM, 1 ACTIVE, 2 FAULT. -/
def State.brimState (s : State) : Nat := s.rfld (offBrim 0) 35 34

/-- Word i of the parameter block in force. -/
def State.pb (s : State) (i : Nat) : Word := s.brim.block.getD i 0

/-- ACTION of pair i (R508): 0 UNUSED, 1 STO, 2 SS1, 3 RESET. -/
def State.pairAction (s : State) (i : Nat) : Nat := fld (s.pb (8 + i)) 35 34

/-- Does pair i act on output k. -/
def State.pairGroup (s : State) (i k : Nat) : Bool := bit (s.pb (8 + i)) (30 + k)

/-- Is output k used (R522). -/
def State.outUsed (s : State) (k : Nat) : Bool := bit (s.pb (12 + k)) 35

/-- The used axis entries. -/
def State.brimAxes (s : State) : List Nat := (List.range 64).filter (fun a => bit (s.pb (16 + 4 * a)) 35)

/-- The output of axis entry a. -/
def State.axisGroup (s : State) (a : Nat) : Nat := fld (s.pb (16 + 4 * a)) 33 32

/-- Axis entries of output k. -/
def State.groupAxes (s : State) (k : Nat) : List Nat := s.brimAxes.filter (fun a => s.axisGroup a = k)

/-- Pair i. -/
def State.bpair (s : State) (i : Nat) : BrimPair := Tab.get {} s.brim.pairs i
/-- Axis entry a. -/
def State.baxis (s : State) (a : Nat) : BrimAxis := Tab.get {} s.brim.axes a
/-- Stop of output k. -/
def State.bstop (s : State) (k : Nat) : BrimStop := Tab.get {} s.brim.stops k
/-- Replace pair i. -/
def State.setBpair (s : State) (i : Nat) (x : BrimPair) : State :=
  { s with brim := { s.brim with pairs := Tab.put {} s.brim.pairs i x } }
/-- Replace axis entry a. -/
def State.setBaxis (s : State) (a : Nat) (x : BrimAxis) : State :=
  { s with brim := { s.brim with axes := Tab.put {} s.brim.axes a x } }
/-- Replace the stop of output k. -/
def State.setBstop (s : State) (k : Nat) (x : BrimStop) : State :=
  { s with brim := { s.brim with stops := Tab.put {} s.brim.stops k x } }

/-- Pair i is in demand, is in discrepancy (R527). -/
def State.inDemand (s : State) (i : Nat) : Bool := bit (s.reg (offBrim 1)) (8 + i)
/-- Pair i is in discrepancy. -/
def State.inDisc (s : State) (i : Nat) : Bool := bit (s.reg (offBrim 1)) (12 + i)

/-- Name of the pins of output k. -/
def stoPin (k : Nat) : String := "STO" ++ toString k

/-- An output changes its state (R515, R521, R527): 0 OPEN, 1 CLOSED, 2 STOPPING. -/
def State.setSto (s : State) (k st cause : Nat) : State :=
  if s.stoState k = st then s
  else
    let pin := decide (s.stoState k = 0) || st = 0
    let s := s.setRfld (offBrim 0) (17 + 2 * k) (16 + 2 * k) st
    let s := if st = 0 then (s.setRfld (offBrim 2) (8 * k + 7) (8 * k) cause).incReg (offBrim 4) 1 else s
    let s := s.setBstop k {}
    let s := if pin then { s with outbox := s.outbox ++ [Msg.pin (stoPin k) (st != 0)] } else s
    s.crownEvent 0x004 (s.reg (offBrim 0)) (s.reg (offBrim 2))

/-- Every output opens. -/
def State.openAll (s : State) (cause : Nat) : State := (List.range 4).foldl (fun s k => s.setSto k 0 cause) s

/-- A Brim fault (R521): every output opens at once, SAFESTOP is requested and the Crown told. The first fault stands
(see assumption 53, DEDUCED). -/
def State.brimFault (s : State) (code out : Nat) : State :=
  if s.brimState = 2 then s
  else
    let s := ((s.setRfld (offBrim 0) 35 34 2).setRfld (offBrim 0) 33 26 code).setRfld (offBrim 0) 25 24 out
    let s := (s.openAll 8).crownEvent 0x004 (s.reg (offBrim 0)) (s.reg (offBrim 2))
    s.brimSafestop

/-! ### The cycle start (R506 - R508, R512 - R514, R517) -/

/-- Three consecutive samples of one level: demand with false, release with true (R506). -/
def shows (level : Bool) (x : List Bool) : Bool := x.length = 3 && x.all (fun b => b = level)

/-- A pair's discrepancy (R507): the channels have differed for longer than DISCT. -/
def State.discrepant (s : State) (i : Nat) : State :=
  if s.pairAction i != 0 && decide (fld (s.pb 1) 15 0 < (s.bpair i).differ) && !s.inDisc i then
    let s := if s.inDemand i then s else s.setBpair i { s.bpair i with both := false }
    s.setReg (offBrim 1) (setBit (setBit (s.reg (offBrim 1)) (8 + i) true) (12 + i) true)
  else s

/-- The samples of pair i at a cycle start (R506 - R508). -/
def State.samplePair (s : State) (i : Nat) (a b : Bool) : State :=
  let x := s.bpair i
  let x := { x with a := (a :: x.a).take 3, b := (b :: x.b).take 3, differ := if a = b then 0 else x.differ + 1 }
  let act := s.pairAction i
  if act = 0 then s.setBpair i { x with differ := 0, both := false, pressed := 0 }
  else
    let entered := !s.inDemand i && (shows false x.a || shows false x.b)
    let x := if entered then { x with both := false } else x
    let dem := s.inDemand i || entered
    let x := if dem && shows false x.a && shows false x.b then { x with both := true } else x
    let leaves := dem && x.both && shows true x.a && shows true x.b
    let w := setBit (s.reg (offBrim 1)) (8 + i) (dem && !leaves)
    let w := if leaves then setBit w (12 + i) false else w
    let held := a && b && !bit w (12 + i)
    let given := act = 3 && !held && !bit w (12 + i) && decide (400 ≤ x.pressed) && decide (x.pressed ≤ 8000)
    let x := { x with pressed := if act = 3 && held then x.pressed + 1 else 0 }
    let s := (s.setBpair i x).setReg (offBrim 1) w
    if given then { s with brim := { s.brim with reset := true } } else s

/-- CRC-32 of R338 with an initial value of its own, over the bytes of a container (R513). -/
def containerCrc (cid : Nat) (bs : List Byte) : Nat := crcFold 0xEDB88320 cid (bs.take 12) ^^^ 0xFFFFFFFF

/-- Byte of the receive buffer at which the slot of a position begins (R351) (see assumption 20, DESIGN CHOICE). -/
def RingCfg.bufAt (c : RingCfg) (p : Nat) : Nat := if c.mode = 2 then (p - 1) * c.slotlen else (c.entry p).2.1

/-- Address of the receive buffer of the latest completed cycle of ring r (R351, R359)
(see assumption 20, DESIGN CHOICE). -/
def State.rxBuf (s : State) (r : Nat) (c : RingCfg) : Nat := c.bufbase + c.bufWords.1 * ((s.ring r).inCycle.getD 0 % 2)

/-- The bytes of a safety container as received, none where a block of it was discarded or late or its line is poisoned, with the
state after its lines have been decoded (R64, R513). -/
def State.container (s : State) (r addr off : Nat) : Option (List Byte) × State :=
  match (s.ring r).cfg, s.posOf r addr with
  | some c, some p =>
    let at0 := c.bufAt p + 4 + off
    let b0 := c.slotAt p + 4 + off
    let (ws, bad, s) := s.agentRead (s.rxBuf r c + at0 / 4) 4
    (if (s.ring r).inCycle.isSome
        && (s.station r p).blocks.contains (b0 / 256) && (s.station r p).blocks.contains ((b0 + 15) / 256)
        && decide (4 + off + 16 ≤ c.slotLen p) && !bad then some ((wordsToBytes ws).take 16)
    else none, s)
  | _, _ => (none, s)

/-- The speed in a valid container, with its SEQ (R513); the first container of a station has no last SEQ to be held against
(see assumption 53, DEDUCED). -/
def validContainer (cid addr lastSeq : Nat) (bs : List Byte) : Option (Int × Nat) :=
  let seq := leAt bs 4 2
  let step := (seq + 2 ^ 16 + 1 - lastSeq) % 2 ^ 16
  if leAt bs 12 4 = containerCrc cid bs && leAt bs 6 2 = 0 && leAt bs 8 2 = addr && leAt bs 10 2 = 0
      && (lastSeq = 0 || (decide (1 ≤ step) && decide (step ≤ 255))) then
    some (sextN (leAt bs 0 4) 32, seq)
  else none

/-- The speed of axis entry a at a cycle start, with Brim's own counts of the encoders (R512, R513). -/
def State.sampleAxis (s : State) (a : Nat) (counts : List Int) : State :=
  let w := s.pb (16 + 4 * a)
  let x := s.baxis a
  let (bytes, s) := if bit w 34 then s.container (fld w 23 23) (fld w 13 0) (4 * fld (s.pb (19 + 4 * a)) 11 0) else (none, s)
  let x :=
    if bit w 34 then
      match bytes.bind (validContainer (fld (s.pb (17 + 4 * a)) 31 0) (fld w 13 0) x.seq) with
      | some (v, q) => { x with speed := v.natAbs, seq := q + 1, age := 0, lost := false }
      | none => { x with age := x.age + 1 }
    else
      let n := counts.getD (fld w 22 19) 0
      let d : Int := match x.count with
        | some o => n - o
        | none => 0
      { x with count := some n, speed := d.natAbs * 256 / 250 }
  let k := s.axisGroup a
  let m := (s.bstop k).m
  let limit := max ((fld (s.pb (18 + 4 * a)) 17 0 : Nat) : Int)
    ((x.v0 : Int) + fld (s.pb (18 + 4 * a)) 35 18 - (m * fld (s.pb (19 + 4 * a)) 35 20 : Nat))
  let x := if s.stoState k = 2 then
      { x with
        above := if limit < x.speed then x.above + 1 else 0
        still := if x.speed ≤ fld (s.pb (18 + 4 * a)) 17 0 then x.still + 1 else 0 }
    else x
  s.setBaxis a x

/-- LOST of BRIM.SI: outputs with a lost container in their group (R527). -/
def State.brimLostBits (s : State) : State :=
  (List.range 4).foldl (fun s k =>
    s.setReg (offBrim 1) (setBit (s.reg (offBrim 1)) (16 + k) ((s.groupAxes k).any (fun a => (s.baxis a).lost)))) s

/-- A container is lost (R514): none valid for TOUT Brim cycles. -/
def State.brimLost (s : State) (a : Nat) : State :=
  let w := s.pb (16 + 4 * a)
  if bit w 35 && bit w 34 && decide (fld (s.pb (19 + 4 * a)) 19 12 ≤ (s.baxis a).age) then
    (s.setBaxis a { s.baxis a with lost := true }).brimLostBits
  else s

/-- Brim takes the reset request word and clears it (R517) (see assumption 53, DEDUCED). -/
def State.takeReset (s : State) : State :=
  let w := s.reg (offBrim 5)
  let s := s.setReg (offBrim 5) 0
  if bit w 35 && s.brimState = 1 && bit (s.pb 0) 20 && fld w 15 0 = fld (s.reg (offBrim 3)) 15 0 then
    { s with brim := { s.brim with reset := true } }
  else s

/-! ### The decision point (R515 - R520) -/

/-- TMAX of output k has passed since its stop began (R515) (see assumption 53, DEDUCED). -/
def State.tmaxOver (s : State) (k : Nat) : State :=
  if s.stoState k = 2 && decide (4 * fld (s.pb (12 + k)) 15 0 ≤ (s.bstop k).m) then
    s.setBstop k { s.bstop k with expired := true }
  else s

/-- Modes in which Brim closes an output (R519). -/
def brimMode (m : Nat) : Bool := m = 3 || m = 4 || m = 5 || m = 6 || m = 11

/-- A plausibility fault that Brim sees (R277, R518). -/
def State.plausible (s : State) : Bool := !s.lanes.any (fun e => e.2.pfault && bit (Tab.get 0 e.2.desc 57) 18)

/-- The cause of a demand that opens output k, if one is present (R508, R510, R514, R519, R520). -/
def State.openDemand (s : State) (k : Nat) : Option Nat :=
  if (List.range 4).any (fun i => s.pairAction i = 1 && s.inDemand i && s.pairGroup i k) then some 1
  else if s.brim.f24 then some 0xA
  else if !brimMode s.mode then some 6
  else if s.brim.holdAt != 0 && decide (s.brim.holdAt - 1 ≤ s.brim.cycle) then some 7
  else if (s.groupAxes k).any (fun a => (s.baxis a).lost) then some 4
  else none

/-- The cause of an SS1 demand on output k, if one is present (R508, R518, R520). -/
def State.stopDemand (s : State) (k : Nat) : Option Nat :=
  if (List.range 4).any (fun i => s.pairAction i = 2 && s.inDemand i && s.pairGroup i k) then some 1
  else if bit (s.pb 0) (16 + k) && !s.plausible then some 5
  else if s.brim.holdAt != 0 then some 7
  else none

/-- Brim's QSTOP on every axis of output k (R295, R515). -/
def State.brimQstop (s : State) (k : Nat) : State :=
  (s.groupAxes k).foldl (fun s e =>
    let a := fld (s.pb (16 + 4 * e)) 31 24
    let s := State.axisRun a 66 s
    if s.canStop a then
      let o : Order := { kind := 5, idx := a, value := 0x6 * 2 ^ 36, src := .brim, code := 0x89 }
      let t := (s.rankOrder o).2
      if t.canStop a then t.stopAxis a true else t
    else s) s

/-- An SS1 demand acts on a CLOSED output (R515). -/
def State.beginSs1 (s : State) (k cause : Nat) : State :=
  let s := s.setSto k 2 cause
  let s := s.setBstop k { cause := cause }
  let s := (s.groupAxes k).foldl (fun s a =>
    let x := s.baxis a
    s.setBaxis a { x with v0 := x.speed, above := 0, still := 0 }) s
  (s.brimQstop k).brimSafestop

/-- What the decision point does with output k (R515 - R517). -/
def State.decideOut (s : State) (reset : Bool) (k : Nat) : State :=
  match s.stoState k, s.openDemand k with
  | 0, some _ => s
  | 0, none => if reset && s.outUsed k && (s.stopDemand k).isNone then s.setSto k 1 0 else s
  | _, some c => s.setSto k 0 c
  | 2, none =>
    let ax := s.groupAxes k
    if ax.any (fun a => decide (2 ≤ (s.baxis a).above)) then s.setSto k 0 2
    else if ax != [] && ax.all (fun a => decide (4 ≤ (s.baxis a).still)) then s.setSto k 0 (s.bstop k).cause
    else if (s.bstop k).expired then s.setSto k 0 3
    else s
  | _, none =>
    match s.stopDemand k with
    | some c => s.beginSs1 k c
    | none => s

/-- The work of a decision point (R515 - R520). -/
def State.brimDecide (s : State) : State :=
  let s := (List.range 4).foldl State.discrepant s
  let s := s.brimAxes.foldl State.brimLost s
  let s := (List.range 4).foldl State.tmaxOver s
  let reset := s.brim.reset
  let s : State := { s with brim := { s.brim with reset := false } }
  if s.brimState = 1 then (List.range 4).foldl (fun s k => s.decideOut reset k) s else s

/-- BRIM_DECISION_POINT (R515 - R520): once in each Brim cycle, 125 us after its start (see assumption 53, DEDUCED). -/
def execBrimDecisionPoint (s : State) : Host.Outcome State Fault Refusal :=
  .next (if s.brim.due then State.brimDecide { s with brim := { s.brim with due := false } } else s)

/-- DISCREPANCY (R507) (see assumption 2, DESIGN CHOICE). -/
def execDiscrepancy (i : Fin 4) (s : State) : Host.Outcome State Fault Refusal := .next (s.discrepant i.val)

/-- CONTAINER_LOST (R514): the output opens at the next decision point. -/
def execContainerLost (a : Fin 64) (s : State) : Host.Outcome State Fault Refusal := .next (s.brimLost a.val)

/-- TMAX_EXPIRY (R515): the output opens at the next decision point. -/
def execTmaxExpiry (k : Fin 4) (s : State) : Host.Outcome State Fault Refusal := .next (s.tmaxOver k.val)

/-! ### Tests and faults (R503, R510, R520, R521, R525) -/

/-- The read-back that a test expects (R510). -/
def pulseGood (closed lowSide : Bool) (pinMv : Int) (loadUa : Nat) : Bool :=
  decide (loadUa < 1000) &&
    (match closed, lowSide with
     | true, false => decide (pinMv < 5000)
     | true, true => decide (12000 < pinMv)
     | false, false => decide (18000 < pinMv)
     | false, true => decide (pinMv < 5000))

/-- The switch that the present Brim cycle tests: its output and its side (R510). -/
def State.pulseOf (s : State) : Option (Nat × Bool) :=
  let c := s.brim.cycle - 1
  let p := c % 4000 / 500
  if s.brim.cycle != 0 && !s.brim.f24 && decide (s.brim.testFrom ≤ c) && decide (c % 500 < 2) then some (p / 2, p % 2 = 1) else none

/-- Is a switch of output k closed (R509, R510): both of an output that is not OPEN, but for the one that a test opens; of an OPEN one
only the switch that a test closes alone. A demand within a pulse leaves the tested switch as it is. -/
def State.switchClosed (s : State) (k : Nat) (lowSide : Bool) : Bool :=
  if s.brimState != 2 && s.pulseOf = some (k, lowSide) then !s.brim.pulseOn else s.stoState k != 0

/-- SWITCH_TEST_PULSE (R510): the read-back at the second cycle of the pulse, by the state of the output in which the pulse began
(see assumption 53, DEDUCED). -/
def execSwitchTestPulse (k : Fin 4) (lowSide : Bool) (pinMv : Int) (loadUa : Nat) (s : State) : Host.Outcome State Fault Refusal :=
  .next (if s.pulseOf = some (k.val, lowSide) && (s.brim.cycle - 1) % 500 = 1 && (s.brim.pulseOn || s.stoState k.val = 0)
      && !pulseGood s.brim.pulseOn lowSide pinMv loadUa then s.brimFault 4 k.val
  else s)

/-- BRIM_OSCILLATOR_CHECK (R503). -/
def execBrimOscillatorCheck (differencePpm : Int) (s : State) : Host.Outcome State Fault Refusal :=
  .next (if 10000 < differencePpm.natAbs then s.brimFault 2 0 else s)

/-- The block CRC (R523). -/
def blockCrc (ws : List Word) : Nat := foldForced (fun c (w : Word) => crc16 36 w.toNat c) 0xFFFF ws

/-- A block comes into force (R524, R525). -/
def State.brimAccept (s : State) (ws : List Word) : State :=
  let s := { s with brim := { s.brim with block := ws, axes := [], stops := [], reset := false } }
  (s.setRfld (offBrim 0) 35 34 1).setReg (offBrim 3) (wd (blockCrc ws))

/-- BRIM_SWITCH_READ (R525): at power-up the stored block is loaded; the check of its stored copy, and the switches, each second
(see assumption 53, DEDUCED). -/
def execBrimSwitchRead (code : BitVec 16) (storedOk : Bool) (s : State) : Host.Outcome State Fault Refusal :=
  .next (
    let old := s.rfld (offBrim 0) 15 0
    let up := !s.brim.booted
    let s := { s.setRfld (offBrim 0) 15 0 code.toNat with brim := { s.brim with booted := true } }
    if s.brim.stored != [] && !storedOk then s.brimFault 6 0
    else if up then
      if s.brim.stored != [] && code != 0 && blockCrc s.brim.stored = code.toNat && s.brimState = 0 then s.brimAccept s.brim.stored
      else s
    else if s.brimState = 1 && old != code.toNat then s.brimFault 5 0
    else s)

/-- F24V_MISSING (R510): a measurement of F24V at the switches; below 10.0 V it is missing, and it is back once it has been above
11.0 V for 1 s. -/
def execF24vMissing (mv : Nat) (s : State) : Host.Outcome State Fault Refusal :=
  .next (let b := s.brim
    if mv < 10000 then { s with brim := { b with f24 := true, f24Good := 0 } }
    else if mv ≤ 11000 then { s with brim := { b with f24Good := 0 } }
    else if b.f24 && b.f24Good = 0 then { s with brim := { b with f24Good := b.cycle + 1 } }
    else s)

/-- BRIM_RAIL_LOW (R520, R521). -/
def execBrimRailLow (s : State) : Host.Outcome State Fault Refusal := .next (s.brimFault 3 0)

/-- BRIM_LOCKSTEP_MISMATCH (R504, R521). -/
def execBrimLockstepMismatch (s : State) : Host.Outcome State Fault Refusal := .next (s.brimFault 1 0)

/-! ### The load of a block (R522 - R524) -/

/-- Is an axis entry of a block good; n is NAXES. -/
def axisEntryOk (w : Nat → Word) (n a : Nat) : Bool :=
  let x := w (16 + 4 * a)
  let y := w (19 + 4 * a)
  if n ≤ a then (List.range 4).all (fun i => w (16 + 4 * a + i) = 0)
  else bit x 35 && fld x 18 14 = 0 && fld (w (17 + 4 * a)) 35 32 = 0 && fld y 35 20 != 0 && decide (2 ≤ fld y 19 12)
    && bit (w (12 + fld x 33 32)) 35 && (!bit x 34 || fld x 7 0 != 0)

/-- Are the fields of a block valid (R522, R524) (see assumption 53, DEDUCED). -/
def blockOk (ws : List Word) : Bool :=
  let w (i : Nat) : Word := ws.getD i 0
  let n := fld (w 0) 27 21
  let axes := (List.range n).map (fun a => fld (w (16 + 4 * a)) 31 24)
  let cids := ((List.range n).filter (fun a => bit (w (16 + 4 * a)) 34)).map (fun a => (w (17 + 4 * a)).toNat)
  ws.length = 272 && fld (w 0) 35 28 = 1 && decide (n ≤ 64) && fld (w 0) 15 0 = 0
    && fld (w 1) 35 16 = 0 && decide (4 ≤ fld (w 1) 15 0) && decide (fld (w 1) 15 0 ≤ 2000)
    && (List.range 5).all (fun i => w (2 + i) = 0)
    && (List.range 4).all (fun i =>
      let a := fld (w (8 + i)) 35 34
      fld (w (8 + i)) 29 0 = 0 && ((a != 0 && a != 3) || fld (w (8 + i)) 33 30 = 0))
    && (List.range 4).all (fun k =>
      let x := w (12 + k)
      if bit x 35 then fld x 34 16 = 0 && decide (1 ≤ fld x 15 0) && decide (fld x 15 0 ≤ 60000) else x = 0)
    && (List.range 64).all (fun a => axisEntryOk w n a)
    && !anyPair (fun a b => a = b) axes && !anyPair (fun a b => a = b) cids
    && (bit (w 0) 20 || (List.range 4).any (fun i => fld (w (8 + i)) 35 34 = 3))

/-- The load of a safety parameter block (R22, R524): the result code and the state. A Brim in FAULT takes none (R521). -/
def State.brimLoad (s : State) (ws : List Word) : Nat × State :=
  if (s.mode != 3 && s.mode != 10) || s.brimState = 2 then (resNotAllowed, s)
  else
    let s := s.openAll 9
    let clear (e : BrimPair) : BrimPair := { e with both := false, differ := 0, pressed := 0 }
    let s := { s with brim := { s.brim with
      block := [], axes := [], stops := [], reset := false, pairs := mapTab clear s.brim.pairs } }
    let s := ((s.setRfld (offBrim 0) 35 34 0).setReg (offBrim 3) 0).setRfld (offBrim 1) 19 8 0
    if !blockOk ws then (resRange, s)
    else if blockCrc ws = 0 || blockCrc ws != s.rfld (offBrim 0) 15 0 then (5, s)
    else
      let s := s.brimAccept ws
      (resOk, { s with brim := { s.brim with stored := ws } })

/-! ### The start of a Brim cycle (R22, R506) -/

/-- Brim reads its block mailbox: it loads the block, pair 0 returns the buffer and answers the request (R22, R524, R567)
(see assumption 53, DEDUCED). -/
def State.takeMailbox (s : State) : State :=
  match s.brim.mailbox with
  | none => s
  | some m =>
    let r := State.brimLoad { s with brim := { s.brim with mailbox := none } } m.words
    (r.2.returnBuf m.buffer).respond 0xA r.1 m.tag []

/-- BRIM_CYCLE_START (R22, R506, R512 - R514, R517): the decision point of the cycle before has passed; Brim reads both its mailboxes
(see assumption 53, DEDUCED). -/
def execBrimCycleStart (si : BitVec 8) (counts : List Int) (s : State) : Host.Outcome State Fault Refusal :=
  .next (if s.brim.due then s
  else
    let b := s.brim
    let back := b.f24 && b.f24Good != 0 && decide (b.f24Good - 1 + 4000 ≤ b.cycle + 1)
    let s := { s with brim := { b with
      cycle := b.cycle + 1, due := true, f24 := b.f24 && !back
      testFrom := if back then (b.cycle / 4000 + 1) * 4000 else b.testFrom
      pulseOn := if b.cycle % 500 = 0 then s.stoState (b.cycle % 4000 / 1000) != 0 else b.pulseOn } }
    let s := s.setRfld (offBrim 1) 7 0 si.toNat
    let s := (List.range 4).foldl (fun s k =>
      if s.stoState k = 2 then s.setBstop k { s.bstop k with m := (s.bstop k).m + 1 } else s) s
    let s := (List.range 4).foldl (fun s i => s.samplePair i (si.getLsbD (2 * i)) (si.getLsbD (2 * i + 1))) s
    let s := s.brimAxes.foldl (fun s a => s.sampleAxis a counts) s
    s.brimLostBits.takeReset.takeMailbox)

end Sys2Proof.Machine
end

