-- ==== Sys2Proof/Machine/Boot.lean ====
section
/-! DEFINITION. Reset, BOOT, hold-up, the restart state and RESUME (R40, R571 - R579, R585 - R592, R605), and the end of a mode
transition. -/

namespace Sys2Proof.Machine

/-! ### The units' state (R538, R576) -/

/-- Registers that a restart state holds: the coordinate descriptors, JRNL.HANDLE and the journal life in JRNL.STAT (R321, R576). -/
def restartReg (o : Nat) : Bool := (0x100 ≤ o && o < 0x200) || o = offJrnl 0 || o = offJrnl 1

/-- SHA-256 of the stored program, five bytes a word (R558, R577). -/
def State.programHash (s : State) : List Byte := Config.sha256 (s.store.program.flatMap wordBytes5)

/-- Versions of the running images, classes 1-5 (R577, R589). -/
def State.imageSet (s : State) : List Nat := (List.range 5).map (fun c => (s.reg (offVer (c + 1))).toNat)

/-- The configuration of ring r: the one that waits, else the one in force. -/
def State.ringConfig (s : State) (r : Nat) : Option RingCfg :=
  match (s.ring r).waiting with
  | some (c, _) => some c
  | none => (s.ring r).cfg

/-- The words of the journal region, and its poisoned lines, each line decoded as it is read (R64, R78). -/
def State.journalWords (s : State) : Tab Word × List Nat :=
  let s := (s.meets jrnlBase 65536).2
  (s.mem.words.filter (fun e => jrnlBase ≤ e.1 && e.1 < jrnlBase + 65536),
    (s.mem.lines.filter (fun e => jrnlBase / 8 ≤ e.1 && e.1 < jrnlBase / 8 + 8192 && e.2.poison)).map Prod.fst)

/-- The tasks of the program in force: between a swap and its commit the old program's (R230). -/
def State.programTasks (s : State) : Tab Task :=
  if s.exch.phase = .swapped then
    s.exch.oldDescs.foldl (fun t e => Tab.put {} t e.1 { (Tab.get {} t e.1) with
      desc := e.2, st := if e.2 = [] then .unused else (Tab.get {} t e.1).st }) s.tasks
  else s.tasks

/-- The image of the units' state that hardware writes: the manual gives its contents (R538, R576) and no layout
(DESIGN CHOICE, assumption 43). -/
opaque Config.unitWords : Units → List Word

/-- The check of a restart state over its stored bytes, five to a word (R576, R612). -/
def restartCrc (u : Units) : Nat := crc32cWords (Config.unitWords u)

/-- The restart state of R576, all but the census counters. -/
def State.restartUnits (s : State) : Units :=
  { mode := s.mode, level := s.rfld offBlevel 7 0, time := s.now
    regs := s.regs.filter (fun e => restartReg e.1)
    cues := s.cues, lanes := s.lanes, spGroups := s.spGroups, axes := s.axes, axGroups := s.axGroups, tasks := s.programTasks
    rings := (List.range 2).map (fun r => (s.ringConfig r, (s.ring r).epoch))
    journal := s.journalWords.1, journalBad := s.journalWords.2, program := s.programHash, images := s.imageSet }

/-- A lane at rest, with its descriptor, states and last output (R271). -/
def Lane.asleep (l : Lane) : Lane :=
  { l.stopped with
    byCore := none, due := none, busy := 0, dueAt := 0, inputs := []
    prof := none, crossAt := 0, waits := [], enabledAt := 0, late := false, ramping := false }

/-- An axis after a restart: DISABLED, with queue kept (R301). -/
def Axis.asleep (x : Axis) : Axis :=
  { x.settle with
    st := if x.st = .unconf then .unconf else .disabled
    pref := if x.st = .moving ∨ x.st = .starving ∨ x.st = .stopping then x.prefs else x.pref
    stop := none, setpos := none, starved := false }

/-- A task after a restart: IDLE, with its posts (R208). -/
def Task.asleep (t : Task) : Task :=
  { desc := t.desc, st := if t.st = .unused then .unused else .idle, queue := t.queue }

/-- Two streams' counters added (see assumption 41, DEDUCED). -/
def Stream.plus (x y : Stream) : Stream :=
  { produced := x.produced + y.produced, delivered := x.delivered + y.delivered
    dropped := y.dropped.foldl (fun t e => Tab.put 0 t e.1 (Tab.get 0 t e.1 + e.2)) x.dropped
    resident := x.resident + y.resident }

/-- The counters of a restart state go on with what the streams have counted since BOOT (R40; DEDUCED, assumption 41). -/
def State.restoreStreams (s : State) (t : Tab Stream) : State :=
  t.foldl (fun s e => s.setStream e.1 (e.2.plus (s.stream e.1))) s

/-- The tasks of a restart state, each restored post counted produced once more in the stream of its quadrant, quadrant 0 for the
Crown task list (R40, R170, R208). -/
def State.restoreTasks (s : State) (t : Tab Task) : State :=
  t.foldl (fun s e =>
    (s.setTask e.1 e.2.asleep).produce (strPost (taskQuad e.1)) e.2.queue.length) s

/-- The journal region of a restart state, its poisoned lines poisoned again (R78), the handle counter and the journal life (R312, R321). -/
def State.restoreJournal (s : State) (t : Tab Word) (bad : List Nat) (handle : Word) (life : Nat) : State :=
  let s := t.foldl (fun s e => s.agentWord e.1 e.2) s
  let s := bad.foldl (fun s l => s.lineWrite l 0 [] true 1) s
  ((s.setReg (offJrnl 1) handle).setRfld (offJrnl 0) 10 3 life).jSync

/-- The coordinate descriptors of a restart state; sources start without an update (R85, R90)
(see assumption 54, DEDUCED). -/
def State.restoreCoords (s : State) (t : Tab Word) : State :=
  (List.range 31).foldl (fun s i =>
    let c := i + 1
    let w (k : Nat) : Word := Tab.get (regReset (offCoord c k)) t (offCoord c k)
    (((s.coordDescribe c (w 0) (w 1)).setReg (offCoord c 2) (w 2)).setReg (offCoord c 3) (w 3))) s

/-- Bring the restart state back (R578): what R104, R208, R271, R301, R325 and R326 make of it. -/
def State.restore (s : State) (u : Units) : State :=
  let s := { s with cues := u.cues, spGroups := u.spGroups, axGroups := u.axGroups }
  let s := State.cancelCues s (fun _ => true) 5
  let s := { s with lanes := mapTab Lane.asleep u.lanes, axes := mapTab Axis.asleep u.axes }
  let s := (s.restoreCoords u.regs).restoreStreams u.streams
  ((s.restoreTasks u.tasks).restoreJournal u.journal u.journalBad (Tab.get 0 u.regs (offJrnl 1))
    (fld (Tab.get 0 u.regs (offJrnl 0)) 10 3)).jLifeUp

/-! ### Reset (R574, R585, R587, R591) -/

/-- Registers that flash, MRAM or a unit with a reset of its own keeps through a reset; the calibration factors last until the power goes
(R430, R433). -/
def keptReg (powerOn : Bool) (o : Nat) : Bool :=
  o = offBlevel || o = offUpd 0 || (offVer 1 ≤ o && o ≤ offVer 5) || o = offMemRetired || (offEvr 0 ≤ o && o ≤ offEvr 5)
    || (!powerOn && ((offBrim 0 ≤ o && o ≤ offBrim 5) || offCalFac 0 0 0 ≤ o && o < offCalFac 0 0 0 + 0x200))

/-- The module in reset: everything at its reset value, but what is kept through a reset. Device time starts from zero, unloaded, at any
BOOT, and not after a power-up alone (R80) (see assumption 54, DEDUCED). -/
def State.bare (s : State) (powerOn : Bool) : State :=
  let live (e : Nat × Word) : Bool := !powerOn && decide (evrBase ≤ e.1) && decide (e.1 < evrBase + evrWords)
  { free := s.free, pending := s.pending, outbox := s.outbox, store := s.store
    evr := s.evr
    brim := if powerOn then { stored := s.brim.stored } else { s.brim with mailbox := none }
    mem := { words := s.mem.words.filter live, remap := s.mem.remap, spares0 := s.mem.spares0, spares1 := s.mem.spares1 }
    rings := (List.range 2).foldl (fun t r => Tab.put {} t r { epoch := (s.ring r).epoch }) []
    peer := { portsOff := !powerOn && s.peer.portsOff, gate := !powerOn && s.peer.gate }
    regs := s.regs.filter (fun e => keptReg powerOn e.1) }

/-- A hash in eight words, the first most significant (R580). -/
def hashWords (bs : List Byte) : List Word :=
  (List.range 8).map (fun i => wd (((List.range 4).map (fun j => byteAt bs (4 * i + j) * 256 ^ (3 - j))).sum))

/-- SHA-256 of words, packed as R558 packs them. -/
def hashOf (ws : List Word) : List Word := hashWords (Config.sha256 (ws.flatMap wordBytes5))

/-- Does a bank verify: its SHA-256 is the one of its stored header, or nothing has been written to it since the module was made (R574,
R591) (see assumption 54, DEDUCED). -/
def Bank.good (b : Bank) : Bool := b = {} || hashOf b.words = (b.header.drop 16).take 8

/-- Version of a bank's image (R580). -/
def Bank.version (b : Bank) : Word := b.header.getD 2 0

/-- MIN and MAX that a bank's image declares for class c; 0 and 0 allow any version (R580, R584). -/
def Bank.allows (b : Bank) (c : Nat) (v : Word) : Bool :=
  let lo := b.header.getD (22 + 2 * c) 0
  let hi := b.header.getD (23 + 2 * c) 0
  (lo = 0 && hi = 0) || (decide (lo.toNat ≤ v.toNat) && decide (v.toNat ≤ hi.toNat))

/-- Do the images of a set of banks, by class 1-5, go together (R584)? (see assumption 54, DEDUCED). -/
def setCompatible (bank : Nat → Bank) : Bool :=
  (List.range 5).all (fun i => (List.range 5).all (fun j => i = j || (bank (i + 1)).allows (j + 1) (bank (j + 1)).version))

/-- The running bank of class c. -/
def State.runBank (s : State) (c : Nat) : Bank := Tab.get {} s.store.running c
/-- The spare bank of class c. -/
def State.spareBank (s : State) (c : Nat) : Bank := Tab.get {} s.store.spare c

/-- The banks of some classes change places (R585, R587); UPD.VER follows. -/
def State.swapBanks (s : State) (cs : List Nat) : State :=
  cs.foldl (fun s c =>
    let a := s.runBank c
    let b := s.spareBank c
    State.setReg { s with store := { s.store with
      running := Tab.put {} s.store.running c b, spare := Tab.put {} s.store.spare c a } } (offVer c) b.version) s

/-- Classes on trial by HOOD of UPD.STAT (R589). -/
def State.hoods (s : State) : List Nat := (List.range 5).filterMap (fun i => if bit (s.reg (offUpd 0)) (27 + i) then some (i + 1) else none)

/-- The choice of banks at a reset (R585 - R587): the state, the cause, and TRIAL. -/
def State.chooseBanks (s : State) (cause : Nat) : State × Nat × Bool :=
  let trial := bit (s.reg offSysMode) 5
  let session := s.rfld (offUpd 0) 35 32 = 1
  if s.store.fallback && trial then
    let s := s.swapBanks s.hoods
    ({ (s.setRfld (offUpd 0) 31 27 0).setRfld (offUpd 0) 35 32 3 with
       store := { s.store with fallback := false, spent := 0, installed := [] } }, 0xC, false)
  else if cause = 0xB && s.store.installed != [] then
    let cs := s.store.installed
    let hood := ((List.range 5).map (fun i => if cs.contains (i + 1) || s.hoods.contains (i + 1) then 2 ^ i else 0)).sum
    let w := s.rfld (offUpd 1) 11 0
    let s := s.swapBanks cs
    ({ (s.setRfld (offUpd 0) 31 27 hood).setRfld (offUpd 0) 35 32 2 with
       store := { s.store with installed := [], spent := 0, window := w, fallback := false } }, cause, true)
  else
    let s := if session then s.setRfld (offUpd 0) 35 32 (if trial then 2 else 0) else s
    ({ s with store := { s.store with
        installed := [], spent := if trial then s.windowUsed else 0, fallback := false } }, cause, trial)

/-- The ROM in RECOVERY configures buffer 0 with the whole buffer space, owned by HOST, and serves doorbells (R592). -/
def State.recoveryBuffer (s : State) : State :=
  let s := s.agentWrite (bufDesc 0) [wd (at_ 1 34), 0, 0x9000, 16740352, 0, 0, 0, 0]
  { s with host := { s.host with ready := true }, store := { s.store with recv := [], mseq := 0 } }

/-- Brim starts another firmware with every output open: no block is in force until BRIM_SWITCH_READ holds the stored one against the
switches (R525, R585, R587) (see assumption 54, DEDUCED). -/
def State.brimRestart (s : State) : State :=
  let s := s.openAll 6
  let s := ((s.setRfld (offBrim 0) 35 16 0).setReg (offBrim 1) 0).setReg (offBrim 3) 0
  { s with brim := { stored := s.brim.stored } }

/-- A reset (R574, R591): power-on or other, its cause, and whether RECOV_N is low at its release
(see assumption 54, DEDUCED). -/
def State.reboot (s : State) (powerOn : Bool) (cause : Nat) (recov : Bool) : State :=
  let old := if s.modes.inReset then s.rfld offSysMode 11 8 else s.mode
  let brim := s.runBank 5
  let (s, cause, trial) := s.evrCollect.chooseBanks cause
  let s := if s.runBank 5 != brim && s.brimState != 2 then s.brimRestart else s
  let incompatible := old = 0 && !setCompatible s.runBank
  let noCrown := !(s.runBank 4).good && !(s.spareBank 4).good
  let rec_ := recov || s.store.recover || decide (3 ≤ s.store.bootFails) || noCrown || incompatible
  let pcyc := s.reg (offEvr 3)
  let s := s.bare powerOn
  let s := { s with store := { s.store with recover := false, bootFails := if rec_ then 0 else s.store.bootFails, spentAt := 0 } }
  let s := if powerOn then s.evrPowerUp pcyc else { s with evr := { s.evr with last := [] } }
  let m := if rec_ then 0 else 1
  let s := s.setReg offSysMode (wd (at_ cause 12 + (if powerOn then 0 else at_ old 8) + at_ (b2n trial) 5 + m))
  if rec_ then s.recoveryBuffer.canMode 0 else s

/-- SYS.MODE of a module held in reset: TRIAL stays, and the mode that the reset ended stands in PREV. -/
def resetWord (m : Word) : Word := wd (at_ (fld m 3 0) 8 + at_ (fld m 5 5) 5 + 1)

/-- POWER_ON_RESET (R574): while RESET_N is low it is extended until the pin is high (R605) (see assumption 54, DEDUCED). -/
def execPowerOnReset (s : State) : Host.Outcome State Fault Refusal :=
  .next (if s.modes.pinLow then
    let m := s.reg offSysMode
    State.setReg { s with modes := { inReset := true, pinLow := true, porWaits := true } } offSysMode (if s.modes.inReset then m else resetWord m)
  else s.reboot true 0 false)

/-- RESET_PIN (R605): low, it holds the module in reset, but not during hold-up nor after it until the power-on reset; high, the
reset is released, a power-on reset that waited for it as such (see assumption 54, DEDUCED). -/
def execResetPin (low recovLow : Bool) (s : State) : Host.Outcome State Fault Refusal :=
  let s : State := { s with modes := { s.modes with pinLow := low } }
  .next (if s.modes.holdAt.isSome then s
  else if low then
    if s.modes.inReset then s
    else
      let m := s.reg offSysMode
      let s := s.evrCollect
      let s := if bit m 5 && s.mode != 1 then { s with store := { s.store with spent := s.windowUsed } } else s
      State.setReg { s.bare false with modes := { inReset := true, pinLow := true } } offSysMode (resetWord m)
  else if s.modes.inReset then s.reboot s.modes.porWaits (if s.modes.porWaits then 0 else 1) recovLow
  else s)

/-! ### The end of BOOT (R574, R577, R579) -/

/-- Why RESUME is not offered (R577, R579): 0 where it is. -/
def State.restartWhy (s : State) : Nat :=
  match s.store.restart with
  | none => 1
  | some u =>
    if s.store.restartCrc != restartCrc u then 2
    else if u.level != s.rfld offBlevel 7 0 then 3
    else if u.images != s.imageSet then 4
    else if u.program != s.programHash then 5
    else 0

/-- Tiles and Crown pair 1 wait in TAKE. -/
def State.coresReady (s : State) : State :=
  (List.range 64 ++ [65]).foldl (fun s k => s.setCore k { s.core k with taking := true, admits := s.reg (offMask k) }) s

/-- Steps 7 and 8 of R574 (see assumption 54, DEDUCED). -/
def State.bootEnd (s : State) : State :=
  let s := s.setRfld offBlevel 7 0 (s.rfld offBlevel 15 8)
  let s := { s with host := { s.host with ready := true }, store := { s.store with spentAt := s.cc, bootFails := 0 } }
  let s := (s.setRfld (offHist 5) 35 35 1).coresReady
  let why := s.restartWhy
  let valid := s.store.restart.isSome && why != 2
  let t := match s.store.restart with
    | some u => if valid then Machine.t72 u.time else 0
    | none => 0
  let s := s.setReg offSysRestart (wd (at_ (b2n valid) 35 + at_ why 32))
  let s := (s.setReg offSysHoldt (dlo t)).setReg (offSysHoldt + 1) (dhi t)
  if why = 0 then s.setRfld offSysMode 4 4 1 else s.enterMode 2 0xA

/-- A BOOT fails (R574): the module is in reset, and the failure counts for R591; the hoods fall back at the next reset (R587). -/
def State.bootFail (s : State) : State :=
  let m := s.reg offSysMode
  let s := { s with store := { s.store with bootFails := s.store.bootFails + 1, fallback := s.store.fallback || bit m 5 } }
  State.setReg { s.bare false with modes := { inReset := true } } offSysMode (resetWord m)

/-- BOOT goes on: the images are verified and the calibration starts, and when it is done BOOT ends (see assumption 54, DEDUCED). -/
def State.bootStep (s : State) : State :=
  if !(List.range 5).all (fun i => (s.runBank (i + 1)).good) then s.bootFail
  else if bit (s.reg offSysMode) 4 then s
  else if s.rfld offAdcCal 33 33 = 1 then s.bootEnd
  else if s.rfld offAdcCal 34 34 = 1 then s
  else s.calBegin

/-! ### RESUME (R577, R578) -/

/-- The restart state is consumed (R577). -/
def State.consume (s : State) : State :=
  { s.setRfld offSysRestart 35 35 0 with store := { s.store with restart := none } }

/-- RESUME begins: the stored program is loaded, the restart state restored, and each configured ring waits to claim
(see assumption 54, DEDUCED). -/
def State.resumeBegin (s : State) : State :=
  match s.store.restart with
  | none => s
  | some u =>
    let s := if s.store.program = [] then s else (s.loadProgram s.store.program).2
    let s := s.restore u
    let s := (List.range 2).foldl (fun s r =>
      match (u.rings.getD r (none, 0)).1 with
      | some c => if c.mode = 0 then s else s.setRing r { s.ring r with waiting := some (c, s.cc) }
      | none => s) s
    { s with modes := { s.modes with resume := 1, goal := 4, opened := [] } }

/-- Rings that RESUME or a takeover waits for: those that are configured, and neither parent nor passive (R546, R578). -/
def State.ringsAwaited (s : State) : List Nat :=
  (List.range 2).filter (fun r =>
    (match s.ringConfig r with
     | some c => c.mode != 0
     | none => false) && !(s.ring r).parent && !(s.ring r).passive)

/-- RESUME or a takeover completes once the window of every running ring has opened (R546, R578). The restart task is posted at the
first tick of the mode (R327) (see assumption 54, DEDUCED). -/
def State.resumeStep (s : State) : State :=
  if s.modes.resume = 0 || s.holdup || !s.ringsAwaited.all (fun r => s.modes.opened.contains r) then s
  else
    let kind := s.modes.resume
    let cause := if kind = 2 then 7 else match s.modes.trans with
      | some (_, c) => c
      | none => 3
    let s := if kind = 1 then s.consume else s.jLifeUp.setReg (offPair 5) (wd ((s.elapsed - s.peer.takeAt) / tUs))
    let goal := s.modes.goal
    let s := { s with modes := { s.modes with resume := 0, restart := kind } }
    s.enterMode goal cause

/-- SCHEDULER_TICK (R202). With no configured ring RESUME ends at the tick (R578). -/
def execSchedulerTick (s : State) : Host.Outcome State Fault Refusal :=
  .next (if s.ringsAwaited = [] then s.schedTick.resumeStep else s.schedTick)

/-! ### The end of a transition (R208, R571, R572) -/

/-- MODE IDLE from STANDBY: this module's part in a pair ends, and its rings may start again (R382, R572). -/
def State.leavePair (s : State) : State :=
  let s := (List.range 2).foldl (fun s r => s.setRing r { s.ring r with passive := false }) s
  if s.role = 0 then s
  else
    let s := (s.jUnmirror.dropResident 0x07).setRfld (offPair 0) 35 30 0
    { s with peer := { portsOff := s.peer.portsOff, gate := s.peer.gate } }

/-- A MODE BOOT activates the session: classes are installed, and the set that would run goes together (R584, R585). -/
def State.activates (s : State) : Bool :=
  s.mode = 10 && s.store.installed != [] && setCompatible (fun k => if s.store.installed.contains k then s.spareBank k else s.runBank k)

/-- The transition in progress is complete. -/
def State.modeDone (s : State) (target cause : Nat) : State :=
  if target = 1 then s.reboot false (if s.activates then 0xB else cause) false
  else if target = 0 then State.reboot { s with store := { s.store with recover := true } } false cause false
  else if s.mode = 1 && target = 4 then (if s.modes.resume = 0 then s.resumeBegin else s)
  else if s.mode = 1 then s.consume.enterMode target cause
  else if s.mode = 8 && target = 2 then s.leavePair.enterMode 2 cause
  else s.enterMode target cause

/-- MODE_TRANSITION_COMPLETE (R208, R571, R574): every orderly stop has finished; in BOOT its next step is taken
(see assumption 55, DEDUCED). -/
def execModeTransitionComplete (s : State) : Host.Outcome State Fault Refusal :=
  .next (if s.modes.inReset || s.holdup then s
  else match s.modes.trans with
  | some (m, c) => if s.stopsDone then s.modeDone m c else s
  | none => if s.mode = 1 then s.bootStep else s)

/-! ### Hold-up (R40, R575, R576) -/

/-- HOLDUP_BEGIN (R575). -/
def execHoldupBegin (cause : HoldupCause) (s : State) : Host.Outcome State Fault Refusal :=
  -- the J2 logic supply is rail 5 (R409, R600)
  let s := if cause = .railTrip 5 then State.hiZ { s with modes := { s.modes with vioLow := true } } (fun _ => true) else s
  .next (if s.modes.holdAt.isSome || s.modes.inReset then s
  else
    let keep := s.mode = 3 || s.mode = 4 || s.mode = 5 || s.mode = 6 || s.mode = 11
    let s := (s.meets jrnlBase 65536).2
    let u := s.restartUnits
    let s := { s.setRfld offSysMode 6 6 1 with
      census := { s.census with final := true, sample := some s.censusSample }
      modes := { s.modes with holdAt := some s.now }
      brim := { s.brim with holdAt := if s.brim.due then s.brim.cycle + 57 else s.brim.cycle + 58 } }
    let s := (s.evrPowerfail.dropResident 0x03).setRfld (offHist 5) 35 35 0
    if keep then { s with store := { s.store with
      restart := some { u with streams := s.census.streams }
      restartCrc := restartCrc { u with streams := s.census.streams } } } else s)

/-- HOLDUP_END (R575): the module stays in reset until a power-on reset follows. -/
def execHoldupEnd (s : State) : Host.Outcome State Fault Refusal :=
  .next (if s.modes.holdAt.isSome && !s.modes.inReset then
    let m := s.reg offSysMode
    let s := if bit m 5 && s.mode != 1 then { s with store := { s.store with spent := s.windowUsed } } else s
    State.setReg { s.bare false with modes := { inReset := true, holdAt := s.modes.holdAt, pinLow := s.modes.pinLow } } offSysMode (resetWord m)
  else s)

end Sys2Proof.Machine
end

