-- ==== Sys2Proof/Machine/Actions.lean ====
section
/-! DEFINITION. Cues that fire, and the actions that they carry out in the order of R99 (R97 - R102). -/

namespace Sys2Proof.Machine

/-- CUE_FIRE (R97): the cue fires if the present cell clock crosses it (see assumption 56, DEDUCED). -/
def execCueFire (n : Fin 4096) (s : State) : Host.Outcome State Fault Refusal := .next (s.fireIfDue n.val)

/-- The code under which a cue's order stands in the conflict log: the CUE instruction that armed it (R45). -/
def cueCode : Nat := 0x7A

/-- Carry out the action at the head of the queue, if it is this cue's and of this code: at most 16 in a cell clock, the rest
deferred (R99). DEFERCC stops at 255, the most that its field holds (see assumption 56, DEDUCED). -/
def State.act (s : State) (code n : Nat) (effect : Action → State → State) : State :=
  match s.actions with
  | [] => s
  | a :: rest =>
    if a.cue = n && a.code = code && decide (s.actionsDone < 16) then
      let s := { s with actions := rest, actionsDone := s.actionsDone + 1 }
      let late := s.cc - a.f
      let s := if late = 0 then s else s.setCue n { s.cue n with defer := true, deferCc := min late 255 }
      effect a s
    else s

/-- The crossing time of an action in 2^-16 ns (R98): the time of cell clock F - 1 plus FINE/32 cc. -/
def State.crossTime (s : State) (a : Action) : Nat := (a.time + a.fine * (s.reg offTimeInc).toNat / 32) / 2 ^ 16

/-- CONV (R100, R421): the start arrives 2 cc later (see assumption 56, DEDUCED). -/
def execConv (n : Fin 4096) (s : State) : Host.Outcome State Fault Refusal :=
  .next (s.act 0x1 n.val (fun a s => s.startTo a.param (bit (s.reg (offConv a.param 0)) 28) (max (a.f + 2) s.cc)))

/-- PWMLD (R100, R404): the shadows load at the end of the next cell clock (see assumption 56, DEDUCED). -/
def execPwmld (n : Fin 4096) (s : State) : Host.Outcome State Fault Refusal :=
  .next (s.act 0x2 n.val (fun a s =>
    let p := a.param % 32
    let load := (max (a.f + 2) (s.cc + 1), if a.param / 32 % 2 = 1 then some a.fine else none)
    s.setPair p { s.pair p with loads := (s.pair p).loads ++ [load] }))

/-- An order of a cue to a field output (R43, R99, R100) (see assumption 56, DEDUCED). -/
def State.cueOut (s : State) (a : Action) (on : Bool) : State :=
  let o := offFout a.param 0
  let v : Word := wd (at_ (b2n on) 35)
  let (won, s) := s.rankOrder { kind := 4, idx := o, value := s36 v, src := a.src, code := cueCode, cue := some a.cue }
  if won then s.storeCell o v else s

/-- OUTSET (R100). -/
def execOutset (n : Fin 4096) (s : State) : Host.Outcome State Fault Refusal := .next (s.act 0x3 n.val (fun a s => s.cueOut a true))

/-- OUTCLR (R100). -/
def execOutclr (n : Fin 4096) (s : State) : Host.Outcome State Fault Refusal := .next (s.act 0x4 n.val (fun a s => s.cueOut a false))

/-- CAPTRIG (R98, R100, R482): a trigger of the unit at the crossing time; samples are taken from F. -/
def execCaptrig (n : Fin 4096) (s : State) : Host.Outcome State Fault Refusal :=
  .next (s.act 0x5 n.val (fun a s => s.captureHit a.param 4 (s.crossTime a)))

/-- POST of a cue (R100): the task is posted with the cue's number. -/
def execCuePost (n : Fin 4096) (s : State) : Host.Outcome State Fault Refusal :=
  .next (s.act 0x6 n.val (fun a s => s.post a.param (wd n.val)))

/-- SPGRP (R100, R184): the group is applied. -/
def execSpgrp (n : Fin 4096) (s : State) : Host.Outcome State Fault Refusal :=
  .next (s.act 0x7 n.val (fun a s => s.applyGroup a.param a.src cueCode (some a.cue)))

/-- LANEEN (R100, R271). -/
def execLaneen (n : Fin 4096) (s : State) : Host.Outcome State Fault Refusal :=
  .next (s.act 0x8 n.val (fun a s => s.orderLane a.param true a.src cueCode (some n.val)))

/-- LANEDIS (R100, R271). -/
def execLanedis (n : Fin 4096) (s : State) : Host.Outcome State Fault Refusal :=
  .next (s.act 0x9 n.val (fun a s => s.orderLane a.param false a.src cueCode (some n.val)))

/-- STEPGO (R100, R307): the additions run from F + 2 (see assumption 56, DEDUCED). -/
def execStepgo (n : Fin 4096) (s : State) : Host.Outcome State Fault Refusal :=
  .next (s.act 0xA n.val (fun a s => s.setStep a.param { s.stepGen a.param with goAt := some (max (a.f + 2) (s.cc + 1)) }))

/-- LATCH (R100, R102): the values of cell clock F, also where the action is deferred (see assumption 56, DEDUCED). -/
def execLatch (n : Fin 4096) (s : State) : Host.Outcome State Fault Refusal :=
  .next (s.act 0xB n.val (fun a s => s.latchBank a.param (a.held.getD s.coordValues)))

end Sys2Proof.Machine
end

