-- ==== Sys2Proof/Machine/Arith.lean ====
section
/-! DEFINITION. Integer and fixed-point instructions (R157, R158). -/

namespace Sys2Proof.Machine

/-- Number of the destination of an R/I row. -/
def riD : RIF → Nat
  | .r f => f.d.toNat
  | .i f => f.d.toNat

/-- Value of Ga of an R/I row. -/
def State.riA (s : State) (k : Nat) : RIF → Word
  | .r f => s.g k f.a.toNat
  | .i f => s.g k f.a.toNat

/-- Value of the operand of an R/I row: Gb, or imm20 sign-extended. -/
def State.riB (s : State) (k : Nat) : RIF → Word
  | .r f => s.g k f.b.toNat
  | .i f => f.imm.signExtend 36

/-- The function field of a register form must be zero (R149). -/
def riBad : RIF → Bool
  | .r f => f.fn != 0
  | .i _ => false

/-- Write a register and flags, and go on. -/
def putRes (s : State) (k d : Nat) (v : Word) (f : FlagSet) : Res := .next ((s.setG k d v).flags k f)

/-- ADD (R157). -/
def execAdd (c : CoreId) (f : RIF) (s : State) : Host.Outcome State Fault Refusal :=
  runInstr c (encRI 0x10 f) (riBad f) (fun k s =>
    putRes s k (riD f) (s.riA k f + s.riB k f) (addFlags (s.riA k f) (s.riB k f))) s

/-- SUB (R157). -/
def execSub (c : CoreId) (f : RIF) (s : State) : Host.Outcome State Fault Refusal :=
  runInstr c (encRI 0x12 f) (riBad f) (fun k s =>
    putRes s k (riD f) (s.riA k f - s.riB k f) (subFlags (s.riA k f) (s.riB k f))) s

/-- ADDS (R157): the sum saturated to S36; C is the carry of the addition. -/
def execAdds (c : CoreId) (f : RIF) (s : State) : Host.Outcome State Fault Refusal :=
  runInstr c (encRI 0x14 f) (riBad f) (fun k s =>
    let a := s.riA k f
    let b := s.riB k f
    let x := s36 a + s36 b
    putRes s k (riD f) (wdI (satS36 x)) (satFlags x (2 ^ 36 ≤ a.toNat + b.toNat))) s

/-- SUBS (R157): the difference saturated to S36; C = 1 means no borrow. -/
def execSubs (c : CoreId) (f : RIF) (s : State) : Host.Outcome State Fault Refusal :=
  runInstr c (encRI 0x16 f) (riBad f) (fun k s =>
    let a := s.riA k f
    let b := s.riB k f
    let x := s36 a - s36 b
    putRes s k (riD f) (wdI (satS36 x)) (satFlags x (b.toNat ≤ a.toNat))) s

/-- MUL (R157): the low 36 bits of the signed product; V when the product lies outside S36. -/
def execMul (c : CoreId) (f : RF) (s : State) : Host.Outcome State Fault Refusal :=
  runInstr c (encR 0x18 f) (f.fn != 0) (fun k s =>
    let x := s36 (s.g k f.a.toNat) * s36 (s.g k f.b.toNat)
    putRes s k f.d.toNat (wdI x) { znOf (wdI x) with v := some (x != satS36 x) }) s

/-- MULS (R157): the product shifted right by 0 to 35, rounded and saturated to S36. -/
def execMuls (c : CoreId) (f : RF) (s : State) : Host.Outcome State Fault Refusal :=
  runInstr c (encR 0x19 f) (f.fn.toNat / 64 != 0 || 35 < f.fn.toNat % 64) (fun k s =>
    let x := rshRound (s36 (s.g k f.a.toNat) * s36 (s.g k f.b.toNat)) (f.fn.toNat % 64)
    let r := wdI (satS36 x)
    putRes s k f.d.toNat r { znOf r with sat := x != satS36 x }) s

/-- ACC after a MAC (R158), exact before saturation. -/
def macValue (acc : Int) (a b : Word) (fn : Nat) : Int :=
  let p := rshRound (s36 a * s36 b) (fn % 64)
  let base := if fn / 128 % 2 = 1 then 0 else acc
  if fn / 64 % 2 = 1 then base - p else base + p

/-- MAC (R158). -/
def execMac (c : CoreId) (f : RF) (s : State) : Host.Outcome State Fault Refusal :=
  runInstr c (encR 0x1A f) (f.d != 0 || f.fn.toNat / 256 != 0) (fun k s =>
    let x := macValue (s.core k).acc.toInt (s.g k f.a.toNat) (s.g k f.b.toNat) f.fn.toNat
    let r := satS72 x
    let s := s.setCore k { s.core k with acc := dwI r }
    .next (s.flags k { z := some (r = 0), n := some (r < 0), sat := x != r })) s

/-- DIV (R157, R108): truncated toward zero; a zero divisor traps while DZT is 1 and saturates otherwise. -/
def execDiv (c : CoreId) (f : RF) (s : State) : Host.Outcome State Fault Refusal :=
  runInstr c (encR 0x1B f) (f.fn != 0) (fun k s =>
    let a := s36 (s.g k f.a.toNat)
    let b := s36 (s.g k f.b.toNat)
    if b = 0 then
      if flag (s.core k).fl 7 then .flt 0x01 0 s
      else
        let r := wdI (if 0 ≤ a then s36Max else s36Min)
        putRes s k f.d.toNat r { znOf r with v := some true, sat := true }
    else
      let q := a.tdiv b
      let r := wdI (satS36 q)
      putRes s k f.d.toNat r { znOf r with v := some (q != satS36 q), sat := q != satS36 q }) s

/-- REM (R157, R108): the remainder has the sign of Ga; a zero divisor traps or returns the dividend. -/
def execRem (c : CoreId) (f : RF) (s : State) : Host.Outcome State Fault Refusal :=
  runInstr c (encR 0x1C f) (f.fn != 0) (fun k s =>
    let a := s36 (s.g k f.a.toNat)
    let b := s36 (s.g k f.b.toNat)
    if b = 0 then
      if flag (s.core k).fl 7 then .flt 0x01 0 s
      else putRes s k f.d.toNat (wdI a) { znOf (wdI a) with v := some true, sat := true }
    else
      let r := wdI (a - b * a.tdiv b)
      putRes s k f.d.toNat r { znOf r with v := some false }) s

/-- NEG (R157). -/
def execNeg (c : CoreId) (f : RF) (s : State) : Host.Outcome State Fault Refusal :=
  runInstr c (encR 0x1D f) (f.fn != 0) (fun k s =>
    let x := -(s36 (s.g k f.a.toNat))
    let r := wdI (satS36 x)
    putRes s k f.d.toNat r { znOf r with v := some (x != satS36 x), sat := x != satS36 x }) s

/-- ABS (R157). -/
def execAbs (c : CoreId) (f : RF) (s : State) : Host.Outcome State Fault Refusal :=
  runInstr c (encR 0x1E f) (f.fn != 0) (fun k s =>
    let a := s36 (s.g k f.a.toNat)
    let x := if a < 0 then -a else a
    let r := wdI (satS36 x)
    putRes s k f.d.toNat r { znOf r with v := some (x != satS36 x), sat := x != satS36 x }) s

/-- CMP (R157): the flags of Ga - operand; d must be zero. -/
def execCmp (c : CoreId) (f : RIF) (s : State) : Host.Outcome State Fault Refusal :=
  runInstr c (encRI 0x1F f) (riBad f || riD f != 0) (fun k s =>
    .next (s.flags k (subFlags (s.riA k f) (s.riB k f)))) s

/-- MIN (R157). -/
def execMin (c : CoreId) (f : RIF) (s : State) : Host.Outcome State Fault Refusal :=
  runInstr c (encRI 0x21 f) (riBad f) (fun k s =>
    let r := if s36 (s.riB k f) < s36 (s.riA k f) then s.riB k f else s.riA k f
    putRes s k (riD f) r (znOf r)) s

/-- MAX (R157). -/
def execMax (c : CoreId) (f : RIF) (s : State) : Host.Outcome State Fault Refusal :=
  runInstr c (encRI 0x23 f) (riBad f) (fun k s =>
    let r := if s36 (s.riA k f) < s36 (s.riB k f) then s.riB k f else s.riA k f
    putRes s k (riD f) r (znOf r)) s

/-- CLAMP (R157): Gd into [Ga, Gb]; if Ga > Gb the result is Ga; S is set when Gd changes. -/
def execClamp (c : CoreId) (f : RF) (s : State) : Host.Outcome State Fault Refusal :=
  runInstr c (encR 0x25 f) (f.fn != 0) (fun k s =>
    let d := s.g k f.d.toNat
    let a := s.g k f.a.toNat
    let b := s.g k f.b.toNat
    let r := if s36 b < s36 a then a else if s36 d < s36 a then a else if s36 b < s36 d then b else d
    putRes s k f.d.toNat r { znOf r with sat := r != d }) s

end Sys2Proof.Machine
end

