-- ==== Sys2Proof/Machine/Bit.lean ====
section
/-! DEFINITION. Bit instructions (R159). -/

namespace Sys2Proof.Machine

/-- AND (R159). -/
def execAnd (c : CoreId) (f : RIF) (s : State) : Host.Outcome State Fault Refusal :=
  runInstr c (encRI 0x30 f) (riBad f) (fun k s =>
    let r := s.riA k f &&& s.riB k f
    putRes s k (riD f) r (znOf r)) s

/-- OR (R159). -/
def execOr (c : CoreId) (f : RIF) (s : State) : Host.Outcome State Fault Refusal :=
  runInstr c (encRI 0x32 f) (riBad f) (fun k s =>
    let r := s.riA k f ||| s.riB k f
    putRes s k (riD f) r (znOf r)) s

/-- XOR (R159). -/
def execXor (c : CoreId) (f : RIF) (s : State) : Host.Outcome State Fault Refusal :=
  runInstr c (encRI 0x34 f) (riBad f) (fun k s =>
    let r := s.riA k f ^^^ s.riB k f
    putRes s k (riD f) r (znOf r)) s

/-- NOT (R159). -/
def execNot (c : CoreId) (f : RF) (s : State) : Host.Outcome State Fault Refusal :=
  runInstr c (encR 0x36 f) (f.fn != 0) (fun k s =>
    let r := ~~~(s.g k f.a.toNat)
    putRes s k f.d.toNat r (znOf r)) s

/-- The amount of a shift (R159): Gb[5:0] when function[6] is 1, else function[5:0]. -/
def State.shiftN (s : State) (k : Nat) (f : RF) : Nat :=
  if f.fn.getLsbD 6 then fld (s.g k f.b.toNat) 5 0 else f.fn.toNat % 64

/-- Function bits [15:7] of a shift must be zero. -/
def shiftBad (f : RF) : Bool := f.fn.toNat / 128 != 0

/-- SHL (R159): C is the last bit shifted out, zero for an amount above 36 and for 0. -/
def execShl (c : CoreId) (f : RF) (s : State) : Host.Outcome State Fault Refusal :=
  runInstr c (encR 0x37 f) (shiftBad f) (fun k s =>
    let n := s.shiftN k f
    let a := s.g k f.a.toNat
    let r := a <<< n
    putRes s k f.d.toNat r { znOf r with c := some (1 ≤ n && n ≤ 36 && bit a (36 - n)) }) s

/-- SHR (R159). -/
def execShr (c : CoreId) (f : RF) (s : State) : Host.Outcome State Fault Refusal :=
  runInstr c (encR 0x38 f) (shiftBad f) (fun k s =>
    let n := s.shiftN k f
    let a := s.g k f.a.toNat
    let r := a >>> n
    putRes s k f.d.toNat r { znOf r with c := some (1 ≤ n && n ≤ 36 && bit a (n - 1)) }) s

/-- SAR (R159): for an amount above 36 C is the sign bit. -/
def execSar (c : CoreId) (f : RF) (s : State) : Host.Outcome State Fault Refusal :=
  runInstr c (encR 0x39 f) (shiftBad f) (fun k s =>
    let n := s.shiftN k f
    let a := s.g k f.a.toNat
    let r := a.sshiftRight n
    putRes s k f.d.toNat r { znOf r with c := some (1 ≤ n && (if n ≤ 36 then bit a (n - 1) else bit a 35)) }) s

/-- ROT (R159): left by n modulo 36; C is bit 0 of the result, and an amount of 0 clears C. -/
def execRot (c : CoreId) (f : RF) (s : State) : Host.Outcome State Fault Refusal :=
  runInstr c (encR 0x3A f) (shiftBad f) (fun k s =>
    let n := s.shiftN k f
    let r := (s.g k f.a.toNat).rotateLeft (n % 36)
    putRes s k f.d.toNat r { znOf r with c := some (n != 0 && bit r 0) }) s

/-- The bit number of BSET, BCLR and BTST must be 0 to 35, with the bits above it zero. -/
def bitBad (f : RF) : Bool := f.fn.toNat / 64 != 0 || 35 < f.fn.toNat

/-- BSET (R159). -/
def execBset (c : CoreId) (f : RF) (s : State) : Host.Outcome State Fault Refusal :=
  runInstr c (encR 0x3B f) (bitBad f) (fun k s =>
    let r := setBit (s.g k f.a.toNat) f.fn.toNat true
    putRes s k f.d.toNat r (znOf r)) s

/-- BCLR (R159). -/
def execBclr (c : CoreId) (f : RF) (s : State) : Host.Outcome State Fault Refusal :=
  runInstr c (encR 0x3C f) (bitBad f) (fun k s =>
    let r := setBit (s.g k f.a.toNat) f.fn.toNat false
    putRes s k f.d.toNat r (znOf r)) s

/-- BTST (R159): Z := not Ga[n]. -/
def execBtst (c : CoreId) (f : RF) (s : State) : Host.Outcome State Fault Refusal :=
  runInstr c (encR 0x3D f) (bitBad f || f.d != 0) (fun k s =>
    .next (s.flags k { z := some !(bit (s.g k f.a.toNat) f.fn.toNat) })) s

/-- Position and width of BEXT and BINS. -/
def posOf (f : RF) : Nat := f.fn.toNat % 64
/-- Width of BEXT and BINS. -/
def widOf (f : RF) : Nat := f.fn.toNat / 64 % 64

/-- BEXT (R159): zero-extended, or sign-extended when function[12] is 1. -/
def execBext (c : CoreId) (f : RF) (s : State) : Host.Outcome State Fault Refusal :=
  runInstr c (encR 0x3E f) (f.fn.toNat / 2 ^ 13 != 0 || widOf f = 0 || 36 < posOf f + widOf f) (fun k s =>
    let v := fld (s.g k f.a.toNat) (posOf f + widOf f - 1) (posOf f)
    let r := if f.fn.getLsbD 12 then wdI (sextN v (widOf f)) else wd v
    putRes s k f.d.toNat r (znOf r)) s

/-- BINS (R159): Gd[p+w-1:p] := Ga[w-1:0]. -/
def execBins (c : CoreId) (f : RF) (s : State) : Host.Outcome State Fault Refusal :=
  runInstr c (encR 0x3F f) (f.fn.toNat / 2 ^ 12 != 0 || widOf f = 0 || 36 < posOf f + widOf f) (fun k s =>
    let r := setFld (s.g k f.d.toNat) (posOf f + widOf f - 1) (posOf f) (s.g k f.a.toNat).toNat
    putRes s k f.d.toNat r (znOf r)) s

/-- Leading zero bits of a word, looking at the n low bits. -/
def clzFrom (w : Word) : Nat → Nat
  | 0 => 0
  | n + 1 => if bit w n then 0 else clzFrom w n + 1

/-- CLZ (R159). -/
def execClz (c : CoreId) (f : RF) (s : State) : Host.Outcome State Fault Refusal :=
  runInstr c (encR 0x40 f) (f.fn != 0) (fun k s =>
    let r := wd (clzFrom (s.g k f.a.toNat) 36)
    putRes s k f.d.toNat r { z := some (r = 0) }) s

/-- POPC (R159). -/
def execPopc (c : CoreId) (f : RF) (s : State) : Host.Outcome State Fault Refusal :=
  runInstr c (encR 0x41 f) (f.fn != 0) (fun k s =>
    let r := wd ((List.range 36).filter (fun i => bit (s.g k f.a.toNat) i)).length
    putRes s k f.d.toNat r { z := some (r = 0) }) s

end Sys2Proof.Machine
end

