-- ==== Sys2Proof/Machine/Float.lean ====
section
/-! DEFINITION. F36 arithmetic and its instructions (R50 - R53, R160, R161): exact values, rounded once to nearest even. -/

namespace Sys2Proof.Machine

/-- A floating-point datum: NaN with its sign, infinity, or sign, magnitude m and exponent e for m * 2^e. -/
inductive Fp where
  | nan (neg : Bool)
  | inf (neg : Bool)
  | fin (neg : Bool) (m : Nat) (e : Int)
  deriving DecidableEq, Repr

/-- Shift right by sh, to nearest, ties to even (R52). -/
def rne (m sh : Nat) : Nat :=
  let q := m / 2 ^ sh
  let r := m % 2 ^ sh
  if 2 ^ sh < 2 * r ∨ (2 ^ sh = 2 * r ∧ q % 2 = 1) then q + 1 else q

/-- Code of a format with eb exponent bits and fb fraction bits for (-1)^neg * m * 2^e, rounded to nearest even, with
overflow to infinity and underflow to subnormal or zero (R52, R53). -/
def encodeFp (eb fb : Nat) (neg : Bool) (m : Nat) (e : Int) : Nat :=
  let sgn := b2n neg * 2 ^ (eb + fb)
  if m = 0 then sgn
  else
    let bias : Int := 2 ^ (eb - 1) - 1
    let q : Int := max ((Nat.log2 m : Int) + e) (1 - bias) - fb
    let r := if q ≤ e then m * 2 ^ (e - q).toNat else rne m (q - e).toNat
    let mag := (q + fb + bias - 1).toNat * 2 ^ fb + r
    sgn + min mag ((2 ^ eb - 1) * 2 ^ fb)

/-- The datum of a code of a format (R51, R53). -/
def decodeFp (eb fb : Nat) (c : Nat) : Fp :=
  let neg := c / 2 ^ (eb + fb) % 2 = 1
  let ex := c / 2 ^ fb % 2 ^ eb
  let fr := c % 2 ^ fb
  let bias : Int := 2 ^ (eb - 1) - 1
  if ex = 2 ^ eb - 1 then (if fr = 0 then .inf neg else .nan neg)
  else if ex = 0 then .fin neg fr (1 - bias - fb)
  else .fin neg (2 ^ fb + fr) (ex - bias - fb)

/-- The datum of an F36 word. -/
def ofF36 (w : Word) : Fp := decodeFp 9 26 w.toNat

/-- The canonical NaN with a sign (R52). -/
def f36Nan (neg : Bool) : Word := wd (b2n neg * 2 ^ 35 + 0x7FE000000)

/-- The F36 word of a datum, rounded (R52). -/
def toF36 : Fp → Word
  | .nan neg => f36Nan neg
  | .inf neg => wd (b2n neg * 2 ^ 35 + 0x7FC000000)
  | .fin neg m e => wd (encodeFp 9 26 neg m e)

/-- A code of another format: NaN keeps its sign and has only the top fraction bit set (R53). -/
def toFp (eb fb : Nat) : Fp → Nat
  | .nan neg => b2n neg * 2 ^ (eb + fb) + (2 ^ eb - 1) * 2 ^ fb + 2 ^ (fb - 1)
  | .inf neg => b2n neg * 2 ^ (eb + fb) + (2 ^ eb - 1) * 2 ^ fb
  | .fin neg m e => encodeFp eb fb neg m e

/-- The other sign. -/
def Fp.neg : Fp → Fp
  | .nan n => .nan n
  | .inf n => .inf !n
  | .fin n m e => .fin (!n) m e

/-- Signed magnitude. -/
def sgnI (neg : Bool) (m : Nat) : Int := if neg then -(m : Int) else m

/-- The exact sum (R52): an exact zero sum is +0 except for two negative zeros. -/
def fpAdd : Fp → Fp → Fp
  | .nan a, _ => .nan a
  | _, .nan b => .nan b
  | .inf a, .inf b => if a = b then .inf a else .nan false
  | .inf a, _ => .inf a
  | _, .inf b => .inf b
  | .fin na ma ea, .fin nb mb eb =>
    let e := min ea eb
    let x := sgnI na ma * 2 ^ (ea - e).toNat + sgnI nb mb * 2 ^ (eb - e).toNat
    if x = 0 then .fin (na && nb) 0 e else .fin (decide (x < 0)) x.natAbs e

/-- The exact product (R52). -/
def fpMul : Fp → Fp → Fp
  | .nan a, _ => .nan a
  | _, .nan b => .nan b
  | .inf a, .inf b => .inf (a != b)
  | .inf a, .fin nb mb _ => if mb = 0 then .nan false else .inf (a != nb)
  | .fin na ma _, .inf b => if ma = 0 then .nan false else .inf (na != b)
  | .fin na ma ea, .fin nb mb eb => .fin (na != nb) (ma * mb) (ea + eb)

/-- The quotient to 80 bits and a sticky bit, enough to round exactly (R52). -/
def fpDiv : Fp → Fp → Fp
  | .nan a, _ => .nan a
  | _, .nan b => .nan b
  | .inf _, .inf _ => .nan false
  | .inf a, .fin nb _ _ => .inf (a != nb)
  | .fin na _ _, .inf b => .fin (na != b) 0 0
  | .fin na ma ea, .fin nb mb eb =>
    if mb = 0 then (if ma = 0 then .nan false else .inf (na != nb))
    else
      let n := ma * 2 ^ 80
      .fin (na != nb) (2 * (n / mb) + b2n (n % mb != 0)) (ea - eb - 81)

/-- Integer square root by bits, from bit i down. -/
def isqrt : Nat → Nat → Nat → Nat
  | 0, _, r => r
  | i + 1, n, r => if (r + 2 ^ i) * (r + 2 ^ i) ≤ n then isqrt i n (r + 2 ^ i) else isqrt i n r

/-- The square root to 50 bits and a sticky bit (R52, R160). -/
def fpSqrt : Fp → Fp
  | .nan a => .nan a
  | .inf a => if a then .nan false else .inf false
  | .fin neg m e =>
    if m = 0 then .fin neg 0 e
    else if neg then .nan false
    else
      let odd := e % 2 != 0
      let n := (if odd then 2 * m else m) * 2 ^ 100
      let e := (if odd then e - 1 else e) - 100
      let r := isqrt 70 n 0
      .fin false (2 * r + b2n (r * r != n)) (e / 2 - 1)

/-- Flags of an F36 result (R160): Z for either zero, N the sign, V for a NaN. -/
def fpFlags (r : Word) : FlagSet :=
  { z := some (fld r 34 0 = 0), n := some (bit r 35), v := some (decide (0x7FC000000 < fld r 34 0)) }

/-- A two-operand F36 instruction. -/
def fpOp (op : Nat) (g : Fp → Fp → Fp) (c : CoreId) (f : RF) (s : State) : Host.Outcome State Fault Refusal :=
  runInstr c (encR op f) (f.fn != 0) (fun k s =>
    let r := toF36 (g (ofF36 (s.g k f.a.toNat)) (ofF36 (s.g k f.b.toNat)))
    putRes s k f.d.toNat r (fpFlags r)) s

/-- FADD (R160). -/
def execFadd (c : CoreId) (f : RF) (s : State) : Host.Outcome State Fault Refusal := fpOp 0x48 fpAdd c f s

/-- FSUB (R160): the sign of a NaN operand is kept, so only a number is negated. -/
def execFsub (c : CoreId) (f : RF) (s : State) : Host.Outcome State Fault Refusal :=
  fpOp 0x49 (fun a b => fpAdd a b.neg) c f s

/-- FMUL (R160). -/
def execFmul (c : CoreId) (f : RF) (s : State) : Host.Outcome State Fault Refusal := fpOp 0x4A fpMul c f s

/-- FDIV (R160). -/
def execFdiv (c : CoreId) (f : RF) (s : State) : Host.Outcome State Fault Refusal := fpOp 0x4B fpDiv c f s

/-- FSQRT (R160). -/
def execFsqrt (c : CoreId) (f : RF) (s : State) : Host.Outcome State Fault Refusal :=
  runInstr c (encR 0x4C f) (f.fn != 0) (fun k s =>
    let r := toF36 (fpSqrt (ofF36 (s.g k f.a.toNat)))
    putRes s k f.d.toNat r (fpFlags r)) s

/-- Magnitude of an F36 word with its sign, for comparison: +0 equals -0. -/
def f36Key (w : Word) : Int := sgnI (bit w 35) (fld w 34 0)

/-- Is an F36 word a NaN. -/
def isNan (w : Word) : Bool := decide (0x7FC000000 < fld w 34 0)

/-- Flags of FCMP (R161). -/
def fcmpFlags (a b : Word) : FlagSet :=
  if isNan a || isNan b then { z := some false, n := some false, c := some false, v := some true }
  else if f36Key a < f36Key b then { z := some false, n := some true, c := some false, v := some false }
  else if f36Key a = f36Key b then { z := some true, n := some false, c := some true, v := some false }
  else { z := some false, n := some false, c := some true, v := some false }

/-- FCMP (R161); d must be zero. -/
def execFcmp (c : CoreId) (f : RF) (s : State) : Host.Outcome State Fault Refusal :=
  runInstr c (encR 0x4D f) (f.fn != 0 || f.d != 0) (fun k s =>
    .next (s.flags k (fcmpFlags (s.g k f.a.toNat) (s.g k f.b.toNat)))) s

/-- FCVT (R53, R160): k = function[1:0]; a pair of k = 2 or 3 must be even. -/
def execFcvt (c : CoreId) (f : RF) (s : State) : Host.Outcome State Fault Refusal :=
  let m := f.fn.toNat
  runInstr c (encR 0x4E f) (m / 4 != 0 || (m = 2 && f.d.toNat % 2 = 1) || (m = 3 && f.a.toNat % 2 = 1)) (fun k s =>
    let a := s.g k f.a.toNat
    if m = 0 then .next (s.setG k f.d.toNat (wd (toFp 8 23 (ofF36 a))))
    else if m = 1 then .next (s.setG k f.d.toNat (toF36 (decodeFp 8 23 (fld a 31 0))))
    else if m = 2 then
      let x := toFp 11 52 (ofF36 a)
      .next ((s.setG k f.d.toNat (wd (x % 2 ^ 32))).setG k (f.d.toNat + 1) (wd (x / 2 ^ 32)))
    else
      let x := fld (s.g k (f.a.toNat + 1)) 31 0 * 2 ^ 32 + fld a 31 0
      .next (s.setG k f.d.toNat (toF36 (decodeFp 11 52 x)))) s

/-- The integer nearest to a datum times 2^f, ties to even, before saturation; none for a NaN. -/
def fpToInt (f : Nat) : Fp → Option Int
  | .nan _ => none
  | .inf neg => some (if neg then -(2 ^ 40) else 2 ^ 40)
  | .fin neg m e =>
    let e := e + f
    -- magnitudes beyond 2^36 saturate, so larger exponents need no exact value
    if 0 ≤ e then some (sgnI neg (if m = 0 then 0 else if 40 < e then 2 ^ 40 else m * 2 ^ e.toNat))
    else some (sgnI neg (rne m (-e).toNat))

/-- FTOI (R160): saturation or a NaN sets V and S; a NaN gives 0. -/
def execFtoi (c : CoreId) (f : RF) (s : State) : Host.Outcome State Fault Refusal :=
  runInstr c (encR 0x4F f) (f.fn.toNat / 64 != 0) (fun k s =>
    match fpToInt f.fn.toNat (ofF36 (s.g k f.a.toNat)) with
    | none => putRes s k f.d.toNat 0 { znOf 0 with v := some true, sat := true }
    | some x =>
      let r := wdI (satS36 x)
      putRes s k f.d.toNat r { znOf r with v := some (x != satS36 x), sat := x != satS36 x }) s

/-- ITOF (R160): Ga * 2^-f as F36. -/
def execItof (c : CoreId) (f : RF) (s : State) : Host.Outcome State Fault Refusal :=
  runInstr c (encR 0x50 f) (f.fn.toNat / 64 != 0) (fun k s =>
    let x := s36 (s.g k f.a.toNat)
    let r := toF36 (.fin (decide (x < 0)) x.natAbs (-(f.fn.toNat : Int)))
    putRes s k f.d.toNat r { fpFlags r with v := none }) s

end Sys2Proof.Machine
end

