-- ==== Sys2Proof/Machine/Flow.lean ====
section
/-! DEFINITION. Flow instructions (R162 - R165): jumps, calls, function blocks, TRAP, NOP and FENCE. -/

namespace Sys2Proof.Machine

/-- Target of a jump format: words from the instruction itself (R113). -/
def State.jumpTo (s : State) (k : Nat) (f : JF) : Word := (s.core k).pc + f.off.signExtend 36

/-- Go to a target if it lies in the code region, else fault 0x08 with the target in ADDR (R115, R145). -/
def goTo (s : State) (k : Nat) (t : Word) : Res := if inCode k t.toNat then .jump t s else .flt 0x08 t s

/-- J (R162). -/
def execJ (c : CoreId) (f : JF) (s : State) : Host.Outcome State Fault Refusal :=
  runInstr c (encJ 0x58 f) (f.cond != 0) (fun k s => goTo s k (s.jumpTo k f)) s

/-- JC (R110, R162): code 0xF raises 0x06. -/
def execJc (c : CoreId) (f : JF) (s : State) : Host.Outcome State Fault Refusal :=
  runInstr c (encJ 0x59 f) (f.cond = 0xF) (fun k s =>
    if condHolds (s.core k).fl f.cond.toNat = some true then goTo s k (s.jumpTo k f) else .next s) s

/-- CALL (R126): pushes the address of the next instruction and jumps. -/
def execCall (c : CoreId) (f : JF) (s : State) : Host.Outcome State Fault Refusal :=
  runInstr c (encJ 0x5A f) (f.cond != 0) (fun k s =>
    let sp := (s.core k).sp - 1
    let t := s.jumpTo k f
    if !s.spOk k sp.toNat then .flt 0x04 0 s
    else if !inCode k t.toNat then .flt 0x08 t s
    else emit s k sp [(s.core k).pc + 1] (fun s => .jump t (s.setCore k { s.core k with sp := sp }))) s

/-- RET (R126): pops a word into PC. -/
def execRet (c : CoreId) (f : RF) (s : State) : Host.Outcome State Fault Refusal :=
  runInstr c (encR 0x5B f) (f.d != 0 || f.a != 0 || f.b != 0 || f.fn != 0) (fun k s =>
    let sp := (s.core k).sp
    if !s.spOk k (sp + 1).toNat then .flt 0x04 0 s
    else consume s k true sp 1 (fun ws s =>
      let t := ws.getD 0 0
      if inCode k t.toNat then .jump t (s.setCore k { s.core k with sp := sp + 1 }) else .flt 0x08 t s)) s

/-- CALLFB (R130, R163): type descriptor at PC + off20, instance at Ga. -/
def execCallfb (c : CoreId) (f : IF) (s : State) : Host.Outcome State Fault Refusal :=
  runInstr c (encI 0x5C f) (f.d != 0) (fun k s =>
    let inst := s.g k f.a.toNat
    let desc := (s.core k).pc + f.imm.signExtend 36
    let sp := (s.core k).sp - 2
    if desc.toNat % 8 != 0 || !inCode k desc.toNat then .flt 0x06 0 s
    else if !s.spOk k sp.toNat then .flt 0x04 0 s
    else if s.access k false false inst.toNat = .fault then .flt 0x08 inst s
    else
      -- of the descriptor only ENTRY and word 0 are used; a clean word is judged before poison is (R130, R143)
      let (te, pe, s) := s.readIn k (desc.toNat + 2) 1
      let (td, pd, s) := s.readIn k desc.toNat 1
      let entry := te.getD 0 0
      if !pe && !inCode k entry.toNat then .flt 0x08 entry s
      else
        let (w, pi, s) := match s.access k false false inst.toNat with
          | .ok => let (ws, p, s) := s.readIn k inst.toNat 1
                   (ws.getD 0 0, p, s)
          | _ => (0, false, s.refuse k 4)
        if !pd && !pi && (fld w 35 12 != fld (td.getD 0 0) 35 12 || fld w 11 2 != 0) then .flt 0x03 inst s
        else if pe then .flt 0x02 (desc + 2) s
        else if pd then .flt 0x02 desc s
        else if pi then .flt 0x02 inst s
        else emit s k sp [(s.core k).ib, (s.core k).pc + 1] (fun s =>
          .jump entry (s.setCore k { s.core k with sp := sp, ib := inst }))) s

/-- RETFB (R130): pops IB and then PC. -/
def execRetfb (c : CoreId) (f : RF) (s : State) : Host.Outcome State Fault Refusal :=
  runInstr c (encR 0x5D f) (f.d != 0 || f.a != 0 || f.b != 0 || f.fn != 0) (fun k s =>
    let sp := (s.core k).sp
    if !s.spOk k (sp + 2).toNat then .flt 0x04 0 s
    else if s.accessN k false true sp 2 != .ok then consume s k true sp 2 (fun _ s => .flt 0x08 0 s)
    else
      -- a clean PC word is judged before a poisoned IB word (R143)
      let (ib, p0, s) := s.readIn k sp.toNat 1
      let (pc, p1, s) := s.readIn k (sp + 1).toNat 1
      let t := pc.getD 0 0
      if !p1 && !inCode k t.toNat then .flt 0x08 t s
      else if p0 || p1 then .flt 0x02 sp s
      else .jump t (s.setCore k { s.core k with sp := sp + 2, ib := ib.getD 0 0 })) s

/-- LOOP (R162): Gd := Gd - 1; jumps while Gd is not 0. -/
def execLoop (c : CoreId) (f : IF) (s : State) : Host.Outcome State Fault Refusal :=
  runInstr c (encI 0x5E f) (f.a != 0) (fun k s =>
    let v := s.g k f.d.toNat - 1
    let t := (s.core k).pc + f.imm.signExtend 36
    if v = 0 then .next (s.setG k f.d.toNat v)
    else if inCode k t.toNat then .jump t (s.setG k f.d.toNat v)
    else .flt 0x08 t s) s

/-- TRAP (R164): suspends in COMMISSION and TEST a task with TRAPEN that is under no orderly stop; else a NOP. -/
def execTrap (c : CoreId) (f : RF) (s : State) : Host.Outcome State Fault Refusal :=
  runInstr c (encR 0x5F f) (f.d != 0 || f.a != 0 || f.b != 0) (fun k s =>
    match (s.core k).task with
    | none => .next s
    | some n =>
      let t := s.task n
      if (s.mode = 3 || s.mode = 11) && t.trapen && !t.stopping then
        let pc := (s.core k).pc
        let tid := tidOf k (some n)
        let s := s.fence k
        let s := s.runSuspend k n (pc + 1) 0x0A (fun t => { t with st := .trapped, pausedAt := some s.elapsed })
        .left (s.eventEntry (wd (at_ 1 28 + f.fn.toNat)) tid pc)
      else .next s) s

/-- NOP (R162). -/
def execNop (c : CoreId) (f : RF) (s : State) : Host.Outcome State Fault Refusal :=
  runInstr c (encR 0x60 f) (f.d != 0 || f.a != 0 || f.b != 0 || f.fn != 0) (fun _ s => .next s) s

/-- FENCE (R165): every spine transaction of the core has returned its tag. -/
def execFence (c : CoreId) (f : RF) (s : State) : Host.Outcome State Fault Refusal :=
  runInstr c (encR 0x61 f) (f.d != 0 || f.a != 0 || f.b != 0 || f.fn != 0) (fun k s => .next (s.fence k)) s

end Sys2Proof.Machine
end

