-- ==== Sys2Proof/Machine/RingTime.lean ====
section
/-! DEFINITION. Ribriari time: delay measurement (R368 - R371), alignment to a parent ring (R372 - R378), mains and ring coordinates
(R86, R87, R90 - R92). -/

namespace Sys2Proof.Machine

/-! ### Epochs (R385) -/

/-- Is epoch a newer than epoch b (see assumption 36, DEDUCED). -/
def epochNewer (a b : Nat) : Bool :=
  let d := (a + 2 ^ 16 - b % 2 ^ 16) % 2 ^ 16
  decide (1 ≤ d) && decide (d ≤ 32767)

/-- The newer of two epochs. -/
def epochMax (a b : Nat) : Nat := if epochNewer b a then b else a

/-! ### Coordinates (R86, R87, R90) -/

/-- RING, station address and OFFSET of a RING coordinate (R88). -/
def State.ringSource (s : State) (k : Nat) : Nat × Nat × Nat :=
  let w := s.reg (offCoord k 0)
  (fld w 30 30, fld w 29 16, fld w 15 0)

/-- The update of RING coordinate k that the present cycle has brought and that is not yet applied: count, velocity in
counts per us as S15.16, and cell clock of the sampling instant (R86, R90). -/
def State.ringUpdate (s : State) (k : Nat) : Option (Nat × Int × Nat) :=
  let (r, addr, off) := s.ringSource k
  let x := s.ring r
  if s.coordSrc k != 2 || !x.run then none
  else match x.cfg, s.posOf r addr with
  | some c, some p =>
    let at0 := x.start + c.sampoff
    match x.markCopy c p with
    | some copy =>
      let bs := x.slotBytes c p copy
      if ((s.coord k).upd && (s.coord k).at_ = at0) || bs.length < off + 12 then none
      else some (leAt bs (4 + off) 4, sextN (leAt bs (8 + off) 4) 32, at0)
    | none => none
  | _, _ => none

/-- Apply the update of RING coordinate k (R86, R90 - R92): the count is unwrapped by its differences
(see assumption 16, DEDUCED). -/
def State.ringApply (s : State) (k : Nat) : State :=
  match s.ringUpdate k with
  | none => s
  | some (n, v, at0) =>
    let x := s.coord k
    let pos : Int := if x.upd then x.pos + sextN (n + 2 ^ 32 - x.raw) 32 * 2 ^ 32 else sextN n 32 * 2 ^ 32
    let s := s.coordUpdate k pos (v * 2 ^ 12) at0
    s.setCoord k { s.coord k with raw := n }

/-- RING_UPDATE_APPLY (R90): once the blocks that hold it have been verified (see assumption 37, DEDUCED). -/
def execRingUpdateApply (k : Fin 32) (s : State) : Host.Outcome State Fault Refusal := .next (s.ringApply k.val)

/-- MAINS_LOCK_CHANGE (R87): the tracker locks at a frequency from 45 to 66 Hz and a phase, or runs on at the nominal frequency. A phase
that jumps at the lock is a step of the coordinate (R93) (see assumption 16, DEDUCED). -/
def execMainsLockChange (k : Fin 32) (locked : Bool) (mHz : Word) (phase : BitVec 16) (s : State) :
    Host.Outcome State Fault Refusal :=
  .next (if s.coordSrc k.val != 4 then s
  else
    let x := s.coord k.val
    let locked := locked && decide (45000 ≤ mHz.toNat) && decide (mHz.toNat ≤ 66000)
    let pos : Int := if locked then (phase.toNat : Int) * 2 ^ 32 else x.value
    s.setCoord k.val { x with
      frac := 0
      unlock := !locked, mHz := if locked then mHz.toNat else x.mHz, upd := true, pos := pos, at_ := s.cc
      value := pos, stepped := x.stepped || pos != x.value })

/-! ### Delay measurement (R368 - R371) -/

/-- A 48-bit stamp in 2^-16 ns within its four seconds (R342). -/
def stampOf (bs : List Byte) (i : Nat) : Nat :=
  let v := leAt bs i 6
  v / 2 ^ 46 * (1000000000 * 2 ^ 16) + v % 2 ^ 46

/-- A moment of device time in 2^-16 ns. -/
def time16 (t : Nat) : Nat := t / 2 ^ 16

/-- 6.4 ns in 2^-16 ns. -/
def headTime : Nat := 419430

/-- A stamp reduced to an offset from a departure, in 2^-16 ns: within half of the four seconds that a stamp spans (R369). -/
def reduceStamp (v dep : Nat) : Int :=
  let span : Int := 4000000000 * 2 ^ 16
  ((v : Int) - dep + span / 2) % span - span / 2

/-- A stamp area reports the stamps of the cycle before (R342, R368). -/
def State.takeStamps (s : State) (r : Nat) (bs : List Byte) : State :=
  match s.posOf r (leAt bs 0 2) with
  | none => s
  | some p =>
    let dep := time16 (s.ring r).prevStart + headTime
    let a := reduceStamp (stampOf bs 2) dep
    let d := reduceStamp (stampOf bs 8) dep
    let x := s.station r p
    if byteAt bs 14 = 0 then s.setStation r p { x with af := some a, df := some d }
    else if byteAt bs 14 = 1 then s.setStation r p { x with ar := some a, dr := some d }
    else s

/-- 2^-16 ns as ps, to the nearest. -/
def toPs (x : Int) : Int := divRound (x * 1000) (2 ^ 16)

/-- The link delay L_k of the present sweep in ps (R370), if every stamp of it is known. -/
def State.linkOf (s : State) (r n k : Nat) : Option Int :=
  let x := s.ring r
  let df := if k = 0 then some 0 else (s.station r k).df
  let ar := if k = 0 then x.ar0 else (s.station r k).ar
  let af := if k = n then x.afN else (s.station r (k + 1)).af
  let dr := if k = n then some 0 else (s.station r (k + 1)).dr
  match af, df, ar, dr with
  | some af, some df, some ar, some dr => some (divRound ((af - df + (ar - dr)) * 1000) (2 ^ 17))
  | _, _, _, _ => none

/-- F_p and F'_p of the present sweep in ps (R370). -/
def State.forwardOf (s : State) (r p : Nat) : Option (Int × Int) :=
  let x := s.station r p
  match x.af, x.df, x.ar, x.dr with
  | some af, some df, some ar, some dr => some (toPs (df - af), toPs (dr - ar))
  | _, _, _, _ => none

/-- A held delay after a new measurement (R371). -/
def heldAfter (swept : Bool) (old new : Int) : Int := if swept then old + divRound (new - old) 16 else new

/-- BABBLE is set with a suspected position in the cycle of this update, and the Crown told (R392, R393). -/
def State.babble (s : State) (r pos : Nat) : State :=
  let s := ((s.setRfld (offRingFault r 0) 24 24 1).setRfld (offRingFault r 0) 23 15 pos).setRfld (offRingFault r 0) 14 0 ((s.ring r).cycle % 2 ^ 15)
  s.crownEvent 0x006 (wd (at_ 2 28 + r)) (s.reg (offRingFault r 0))

/-- Pair 0 sends a node its DLY and DLYB where it has not been sent them or one has moved by more than 0.5 ns (R371)
(see assumption 35, DEDUCED). -/
def State.tellDelays (s : State) (r : Nat) : State :=
  match (s.ring r).cfg with
  | none => s
  | some c =>
    (List.range c.nodes).foldl (fun s i =>
      let x := s.ring r
      let (a, b) := x.delays c.nodes (i + 1)
      let near (u v : Int) : Bool := decide ((u - v).natAbs ≤ 500)
      let stands := match Tab.get none x.told (i + 1) with
        | some (a0, b0) => near a a0 && near b b0
        | none => false
      if stands then s
      else
        (s.setRing r { x with told := Tab.put none x.told (i + 1) (some (a, b)) }).mbxNews r c (c.entry (i + 1)).1 [1, a, b]) s

/-- A sweep ends (R369 - R371): the held delays take the measured ones, and the nodes are told theirs; forwarding delays that no node may
have, or that have changed by more than 2 ns since the sweep before, are evidence of a babbling node (R393). -/
def State.endSweep (s : State) (r n : Nat) : State :=
  let ls := (List.range (n + 1)).map (s.linkOf r n)
  let fs := (List.range n).map (fun i => s.forwardOf r (i + 1))
  if !(ls.all Option.isSome && fs.all Option.isSome) then s
  else
    let x := s.ring r
    let far (a b : Int) : Bool := x.swept && decide (2000 < (a - b).natAbs)
    let of (i : Nat) : Int × Int := (fs.getD i none).getD (0, 0)
    let suspects := (List.range n).filter (fun i =>
      let (f, g) := of i
      let (f0, g0) := Tab.get (0, 0) x.measured (i + 1)
      decide (48000 < f) || decide (48000 < g) || far f f0 || far g g0)
    let put (t : Tab Int) (k : Nat) (v : Int) : Tab Int := Tab.put 0 t k (heldAfter x.swept (Tab.get 0 t k) v)
    let s := s.setRing r { x with
      links := (List.range (n + 1)).foldl (fun t k => put t k ((ls.getD k none).getD 0)) x.links
      fwd := (List.range n).foldl (fun t i => put t (i + 1) (of i).1) x.fwd
      rev := (List.range n).foldl (fun t i => put t (i + 1) (of i).2) x.rev
      measured := (List.range n).foldl (fun t i => Tab.put (0, 0) t (i + 1) (of i)) []
      swept := true }
    suspects.foldl (fun s i => s.babble r (i + 1)) (s.tellDelays r)

/-! ### The root device (R80, R367, R378) -/

/-- The device starts a network as its first node, or becomes a root device with its counter loaded: MASTER (R80, R378). -/
def State.timeMaster (s : State) : State :=
  if s.rfld offTimeStat 1 0 = 1 || (s.ring 0).parent || (s.ring 1).parent then s
  else
    let s := (s.timeLoad 0).setRfld offTimeStat 1 0 1
    (s.setReg offTimeOffs 0).setReg offTimeDisc 0

/-- A device that was MASTER and now has a ring above it, or follows a winner's time as a passive node, leaves MASTER: no rule names the state
until its first aligned band; FREERUN here, with no band aligned to yet (R367, R382, R387; DEDUCED, assumption 37). -/
def State.timeFollow (s : State) : State :=
  if s.rfld offTimeStat 1 0 = 1 then
    let s := (List.range 2).foldl (fun s r => s.setRing r { s.ring r with alignLen := 0, newEpoch := none }) s
    s.setRfld offTimeStat 1 0 3
  else s

/-! ### A node of a parent ring (R372 - R377) -/

/-- 100 ppm of the nominal increment (R373). -/
def steerLimit : Nat := 1073741

/-- The increment that would remove an offset of `theta` 2^-16 ns within one cycle, as its distance from the estimate. -/
def steerNeed (cyclen : Nat) (theta : Int) : Nat := theta.natAbs * 2 ^ 16 / max 1 cyclen

/-- SLEW (R375): theta exceeds 20 ns, and the limit is in use. -/
def slews (cyclen : Nat) (theta : Int) : Bool :=
  decide (20 * 2 ^ 16 < theta.natAbs) && decide (steerLimit ≤ steerNeed cyclen theta)

/-- A steering device sets its increment on the side of its frequency estimate that removes theta: by 100 ppm while a whole cycle of that
does not remove it, else by no more than a cycle removes; the estimate, and how much of that it uses, the manual leaves open (R83, R372, R373)
(see assumption 37, DEDUCED). -/
def State.steer (s : State) (cyclen : Nat) (theta : Int) : State :=
  let (w, s) := s.drawWord
  let (v, s) := s.drawWord
  let est := 0x27FE00000 + w.toNat % 0x400001
  let need := steerNeed cyclen theta
  let m : Nat := if steerLimit ≤ need then steerLimit else if theta = 0 then 0 else 1 + v.toNat % max 1 need
  let inc := clampI 0x27FE00000 0x280200000 (if 0 < theta then (est : Int) - m else est + m)
  { s with freqEst := est }.setReg offTimeInc (wdI inc)

/-- The device aligns to a band of its parent ring (R372 - R375); theta in 2^-16 ns (see assumption 37, DEDUCED). -/
def State.alignTo (s : State) (r epoch cyclen : Nat) (theta : Int) : State :=
  let loaded := s.rfld offTimeStat 3 3 = 1
  let s := if loaded then s.steer cyclen theta else s.timeLoad (((s.now : Int) - theta * 2 ^ 16).toNat)
  let s := (s.setRfld offTimeStat 1 0 2).setRfld offTimeStat 19 4 epoch
  let s := s.setReg offTimeOffs (wdI (satS36 (theta / 2 ^ 8)))
  let s := s.setReg offTimeDisc (wd (at_ (b2n (loaded && slews cyclen theta)) 35))
  let s := s.tallyMax 45 (theta / 2 ^ 8).natAbs
  let x := s.ring r
  s.setRing r { x with alignAt := s.cc, alignLen := cyclen, newEpoch := none }

/-- A DISCIPLINED device free-runs: the increment holds its last value, and no slewing limit is in use (R375, R377). -/
def State.freerun (s : State) : State :=
  if s.rfld offTimeStat 1 0 = 2 then (s.setRfld offTimeStat 1 0 3).setRfld offTimeDisc 35 35 0 else s

/-- A band with a good header arrives at a device that follows the ring's time: an epoch newer than the one in TIME.STAT.EPOCH begins
FREERUN, whichever copy of its cycle it is (R377). -/
def State.epochMet (s : State) (r epoch : Nat) : State :=
  let x := s.ring r
  let known := s.rfld offTimeStat 19 4
  if s.rfld offTimeStat 1 0 < 2 || x.alignLen = 0 || !epochNewer epoch known then s
  else match x.newEpoch with
  | some (e, _) => if epochNewer epoch e then s.setRing r { x with newEpoch := some (epoch, s.cc) } else s
  | none => (s.setRing r { x with newEpoch := some (epoch, s.cc) }).freerun

/-- A band passes a device that is a node of the ring (R343, R372 - R377): the device holds its DLY and DLYB, whose message has no form
in the manual, from the first band on, as free values (DESIGN CHOICE, assumption 42). After an epoch change it aligns again 16 cycles on. -/
def State.bandAlign (s : State) (r : Nat) (portB : Bool) (arrival : Nat) (body : List Byte) : State :=
  let x := s.ring r
  if s.rfld offTimeStat 1 0 = 1 then s
  else match x.dly with
  | none =>
    let (a, s) := s.drawWord
    let (b, s) := s.drawWord
    s.setRing r { x with dly := some (a.toNat, b.toNat) }
  | some (a, b) =>
    let epoch := leAt body 2 2
    let cyclen := leAt body 36 4
    let d : Int := divRound ((if portB then b else a) * 2 ^ 16) 1000
    let theta := (arrival : Int) - (time16 (ofWire body 16) + d)
    match x.newEpoch with
    | none => s.alignTo r epoch cyclen theta
    | some (e, c) => if e = epoch && decide (c + 16 * cyclen ≤ s.cc) then s.alignTo r epoch cyclen theta else s

/-- Has ring r brought aligned bands, but none for four of its cycle periods (R377). -/
def State.alignStale (s : State) (r : Nat) : Bool := decide ((s.ring r).alignAt + 4 * (s.ring r).alignLen ≤ s.cc)

/-- FREERUN_ENTRY (R377): no aligned band for 4 cycle periods on any ring that has brought one (see assumption 37, DEDUCED). -/
def execFreerunEntry (s : State) : Host.Outcome State Fault Refusal :=
  let rs := (List.range 2).filter (fun r => (s.ring r).alignLen != 0)
  .next (if rs != [] && rs.all s.alignStale then s.freerun else s)

end Sys2Proof.Machine
end

