-- ==== Sys2Proof/Machine/Node.lean ====
section
/-! DEFINITION. Frames on the ring ports, and the module as a node of a parent ring (R332, R340 - R350, R368, R395): what it reads from a
band as it passes, and what it writes into it. -/

namespace Sys2Proof.Machine

/-! ### Sending -/

/-- May the ring ports send: not behind a closed output gate, nor once the pair watchdog has disabled them (R535, R545). -/
def State.ringTx (s : State) : Bool := !s.peer.gate && !s.peer.portsOff

/-- Put a message of a ring port on its wire. -/
def State.portSend (s : State) (m : Msg) : State := if s.ringTx then { s with outbox := s.outbox ++ [m] } else s

/-- Send a frame from a port, with its tail (R330). -/
def State.sendBand (s : State) (r port : Nat) (body : List Byte) (tail : BitVec 24 := 0) : State := s.portSend (.band r port body tail)

/-- The port from which a node sends on what arrived: the other one, or the same where that one is lost (R345). -/
def State.onward (s : State) (r : Nat) (portB : Bool) : Nat :=
  let x := s.ring r
  b2n (portB = (if portB then x.lostA else x.lostB))

/-- Forward a frame as a node does, with its tail (R330, R345). -/
def State.forwardBand (s : State) (r : Nat) (portB : Bool) (body : List Byte) (tail : BitVec 24 := 0) : State :=
  s.sendBand r (s.onward r portB) body tail

/-- BADBLK of a ring counts (R330, R359, R366). -/
def State.badBlk (s : State) (r : Nat) : State := s.setReg (offRing r 5) (wd (min ((s.reg (offRing r 5)).toNat + 1) (2 ^ 36 - 1)))

/-- A frame arrives: one without the delimiter is discarded and counted; a tail that is not zero is counted (R330). -/
def State.framed (s : State) (r : Nat) (f : RingFrame) : State := if f.delimited && f.tail = 0 then s else s.badBlk r

/-- Payload bytes of a one-block frame. -/
def oneBlock (body : List Byte) : List Byte := (body.drop 64).take 264

/-- Is the header's check good (R336). -/
def headGood (body : List Byte) : Bool := decide (64 ≤ body.length) && leAt body 60 4 = crc32Eth (body.take 60)

/-- Is the check of a block good (R338). -/
def blockCrcGood (b : List Byte) : Bool := b.length = 264 && leAt b 256 4 = crc32Eth (b.take 256)

/-- Is a block free of POISON in both copies (R338). -/
def blockClean (b : List Byte) : Bool := byteAt b 260 % 2 = 0 && byteAt b 260 / 16 % 2 = 0

/-- Is a block good: length, check, no POISON (R338). -/
def blockGood (b : List Byte) (idx : Nat) : Bool := blockCrcGood b && blockClean b && byteAt b 261 = idx % 256

/-- Blocks of a frame that arrived at all. -/
def blocksIn (body : List Byte) (a n : Nat) : Nat := min n ((body.length - a) / 264)

/-! ### What a node writes into blocks (R343) -/

/-- Block i of a band. -/
def bandBlock (body : List Byte) (i : Nat) : List Byte := (body.drop (64 + 264 * i)).take 264

/-- The payload of a band's blocks, joined (R339). -/
def bandPayload (body : List Byte) : List Byte := (List.range (blocksIn body 64 (leAt body 14 2))).flatMap (fun i => (bandBlock body i).take 256)

/-- Are all blocks that hold any of n payload bytes from a verified and free of poison (R343). -/
def bandHas (body : List Byte) (a n : Nat) : Bool :=
  (List.range (ceilDiv (a % 256 + n) 256)).all (fun i =>
    blockCrcGood (bandBlock body (a / 256 + i)) && blockClean (bandBlock body (a / 256 + i)))

/-- Blocks of a band whose check fails, of the first n. -/
def bandBad (body : List Byte) (n : Nat) : Nat :=
  ((List.range (min n (blocksIn body 64 (leAt body 14 2)))).filter (fun i => !blockCrcGood (bandBlock body i))).length

/-- A block after a node has written bytes into it: the new check over the outgoing payload, and both copies of POISON where the old check
failed (R343). A block without a written byte is as it was. -/
def rewriteBlock (b : List Byte) (puts : Tab (Option Byte)) (i : Nat) : List Byte :=
  if !puts.any (fun e => e.1 / 256 = i) then b
  else
    let p := (List.range 256).map (fun k => (Tab.get none puts (256 * i + k)).getD (b.getD k 0))
    p ++ le 4 (crc32Eth p) ++ le 1 (if blockCrcGood b then byteAt b 260 else byteAt b 260 ||| 0x11) ++ b.drop 261

/-- A band after a node has written payload bytes into it. -/
def rewriteBand (body : List Byte) (puts : Tab (Option Byte)) : List Byte :=
  let n := blocksIn body 64 (leAt body 14 2)
  body.take 64 ++ (List.range n).flatMap (fun i => rewriteBlock (bandBlock body i) puts i) ++ body.drop (64 + 264 * n)

/-- Write bytes at a place. -/
def putBytes (t : Tab (Option Byte)) (a : Nat) (bs : List Byte) : Tab (Option Byte) :=
  (bs.foldl (fun (e : Nat × Tab (Option Byte)) b => (e.1 + 1, Tab.put none e.2 e.1 (some b))) (a, t)).2

/-! ### The node's state (R340, R342, R395) -/

/-- n free bytes. -/
def State.drawBytes (s : State) (n : Nat) : List Byte × State :=
  ((List.range n).map (fun i => (Config.freeWord (s.free + i)).truncate 8), { s with free := s.free + n })

/-- The node's record, made at the first band that reaches it: the address that its place on the ring gives it, whose source no rule
gives, and its forwarding delays in either direction, up to 47 ns (R395) (see assumption 37, DEDUCED). -/
def State.nodeOf (s : State) (r segment : Nat) : Node × State :=
  match (s.ring r).node with
  | some n => (n, s)
  | none =>
    let (w, s) := s.drawWord
    let (a, s) := s.drawWord
    let (b, s) := s.drawWord
    let delay (w : Word) : Nat := w.toNat % (47 * 2 ^ 16 + 1)
    let n : Node := { addr := 256 * segment + 1 + w.toNat % 255, delayA := delay a, delayB := delay b }
    (n, s.setRing r { s.ring r with node := some n })

/-- Keep the node's record. -/
def State.setNode (s : State) (r : Nat) (n : Node) : State := s.setRing r { s.ring r with node := some n }

/-- The input area as the module's images have filled it (R332). -/
def Node.inputs (n : Node) (len : Nat) : List Byte := tabBytes n.fill 0 len

/-- Every instant that has passed has had its effect: inputs are sampled at the sampling instants (R335); the outputs whose apply instant
has passed are applied, unless the node is in SAFE; HOLD us without an application put it there (R395) (see assumption 37, DEDUCED). -/
def Node.upTo (n : Node) (now : Nat) : Node :=
  let n := if n.sampDue.any (fun t => decide (t ≤ now)) then
      { n with sample := n.inputs 1024, sampDue := n.sampDue.filter (fun t => decide (now < t)) } else n
  let n := match n.next with
    | some (b, t) => if decide (t ≤ now) && !n.safe then { n with outputs := b, applied := t, next := none } else n
    | none => n
  match n.layout with
  | some l => { n with safe := n.safe || decide (n.applied + l.hold * tUs < now) }
  | none => n

/-- Node state of the mark word: 0 INIT, 1 OPERATE, 2 HOLD, 3 SAFE (R340, R395). -/
def Node.state (n : Node) (delays : Bool) : Nat :=
  if n.layout.isNone || !delays then 0 else if n.safe then 3 else if n.outbad then 2 else 1

/-- The mark word of a cycle (R340). -/
def State.nodeMark (s : State) (r : Nat) (n : Node) (cycle mcrc epoch : Nat) : List Byte :=
  let x := s.ring r
  let st := n.state x.dly.isSome
  le 1 (cycle % 256) ++ le 1 (st + 4 * b2n (n.outbad || st = 3) + 8 * b2n (x.lostA || x.lostB)) ++ le 1 (mcrc % 256) ++ le 1 (epoch % 256)

/-- A stamp of six bytes from a moment in 2^-16 ns (R342). -/
def stampBytes (t : Nat) : List Byte := le 6 (t / (1000000000 * 2 ^ 16) % 4 * 2 ^ 46 + t % (1000000000 * 2 ^ 16))

/-- The 16 bytes of a stamp area (R342). -/
def stampArea (addr arrive depart side : Nat) : List Byte := le 2 addr ++ stampBytes arrive ++ stampBytes depart ++ le 1 side ++ le 1 0

/-- The moment at which a byte that arrived leaves: within 48 ns, constant in each direction within 1 ns, which is a free value (R343, R395)
(see assumption 37, DEDUCED). -/
def State.departs (s : State) (n : Node) (portB : Bool) (arrival : Nat) : Nat × State :=
  let (w, s) := s.drawWord
  (arrival + (if portB then n.delayB else n.delayA) + w.toNat % (2 ^ 16 + 1), s)

/-- A node counts blocks or frames whose check failed in MCRC (R343). -/
def State.nodeCounts (s : State) (r k : Nat) : State :=
  match (s.ring r).node with
  | some n => if k = 0 then s else s.setNode r { n with mcrc := (n.mcrc + k) % 256 }
  | none => s

/-! ### Messages for the node (R347, R355, R395) -/

/-- Does the module as a node take an entry for this destination: its own address, or a station that lies beyond it (R332, R347, R353)
(see assumption 37, DEDUCED). -/
def State.nodeTakes (s : State) (r : Nat) (n : Node) (dst : Nat) : Bool :=
  dst = n.addr || (dst / 256 != n.addr / 256 && (match s.routeOf dst with
    | some q => q != r
    | none => false))

/-- A message that a node takes: its layout, its rearm message, or one for the host, since the manual gives these messages no form: which,
and a layout's contents, are free values; a message for a station beyond goes on (R347, R353, R355, R395)
(see assumption 37, DEDUCED). -/
def State.nodeMessage (s : State) (r : Nat) (m : MbxMsg) : State :=
  match (s.ring r).node with
  | none => s
  | some n =>
    let s := (s.produce (strMbx r) 1).deliver (strMbx r) 1
    if m.dst != n.addr then
      match s.routeOf m.dst with
      | some q => s.mbxSend q m.dst m.src m.data
      | none => s
    else
      let (w, s) := s.drawWord
      if w.toNat % 3 = 0 then s.mbxDeliver m
      else if w.toNat % 3 = 1 then s.setNode r { n with safe := false, applied := s.now }
      else
        let (a, s) := s.drawWord
        let (b, s) := s.drawWord
        let (c, s) := s.drawWord
        let l : NodeLayout := {
          id := fld a 15 0, offset := 4 * fld b 12 0, len := 4 * fld b 25 13, slotlen := 4 * fld c 7 0, hold := fld c 29 8 }
        s.setNode r { n with layout := some l, applied := s.now }

/-- The node hears an entry whose blocks are good: one that it has taken already is discarded (R347). -/
def State.nodeHears (s : State) (r : Nat) (m : MbxMsg) : State :=
  match (s.ring r).node with
  | none => s
  | some n =>
    if Tab.get 0 n.heard m.src = m.seq + 1 then s
    else (s.setNode r { n with heard := Tab.put 0 n.heard m.src (m.seq + 1) }).nodeMessage r m

/-- The node appends the oldest waiting message to the mailbox area, if it fits: the new fill word and the entry (R347). -/
def State.nodeAppends (s : State) (r : Nat) (a mbx : Nat) (area : List Byte) (puts : Tab (Option Byte)) : Tab (Option Byte) × State :=
  let x := s.ring r
  let fill := leAt area 0 2
  match x.msgs with
  | [] => (puts, s)
  | m :: rest =>
    if mbx < 4 + fill + m.bytes.length then (puts, s)
    else
      (putBytes (putBytes puts a (le 4 (fill + m.bytes.length))) (a + 4 + fill) m.bytes,
        (s.setRing r { x with msgs := rest }).deliver (strMbx r) 1)

/-! ### A band passes the node (R343) -/

/-- Is this the layout that the node obeys; a node that has been given none yet ignores no band for it (R343, R355)
(see assumption 37, DEDUCED). -/
def Node.obeys (n : Node) (layout : Nat) : Bool :=
  match n.layout with
  | some l => l.id = layout
  | none => true

/-- The slot of the node in a pass-through band, if it lies in the cyclic area: offset and length. -/
def Node.slot (n : Node) (cycbytes : Nat) : Option (Nat × Nat) :=
  n.layout.bind fun l => if 4 ≤ l.len ∧ l.offset + l.len ≤ cycbytes then some (l.offset, l.len) else none

/-- Has a cycle gone by, since the last band that the node processed, whose band it has not processed (R343). -/
def Node.gap (n : Node) (cycle : Nat) : Bool :=
  match n.band with
  | some (c, _, _, _) => (c + 1) % 2 ^ 48 != cycle
  | none => false

/-- The node's sampling and apply instants of a cycle, and its processing port (R335, R344): it knows the next cycle's sampling instant from
CYCLEN; the inputs of a cycle whose instant it has passed unknowing are taken now. A band after a gap finds that the outputs of the cycles
between were not applied (see assumption 37, DEDUCED). -/
def Node.seenAt (n : Node) (body : List Byte) (portB : Bool) (now : Nat) : Node :=
  let at_ := ofWire body 16 + leAt body 28 4 * tNs
  let period := leAt body 36 4 * (5 * tNs / 2)
  let gap := n.gap (leAt body 4 6)
  { n with
    sample := if n.band.isNone || gap then n.inputs 1024 else n.sample
    sampDue := [at_, at_ + period].filter (fun t => decide (now < t))
    outbad := n.outbad || gap, applyAt := ofWire body 16 + leAt body 32 4 * tNs, portB := portB }

/-- The outputs of a band go to the node, to be applied at APPLYOFF if every block of its output area is good; else it keeps its outputs and
shows OUTBAD in its next mark word (R335, R343). -/
def Node.takeOutputs (n : Node) (body : List Byte) : Node :=
  match n.slot (leAt body 42 2) with
  | none => n
  | some (o, len) =>
    if bandHas body (o + 4) (len - 4) then
      { n with
        outbad := false
        next := some (((bandPayload body).drop (o + 4)).take (len - 4), n.applyAt) }
    else { n with outbad := true }

/-- The mailbox area of a band at the node (R347): the entries it takes read CONSUMED, and it may append one. -/
def State.nodeMailbox (s : State) (r : Nat) (body : List Byte) (puts : Tab (Option Byte)) : Tab (Option Byte) × State :=
  let a := leAt body 42 2 + 16
  let mbx := leAt body 44 2
  let area := ((bandPayload body).drop a).take mbx
  match (s.ring r).node with
  | none => (puts, s)
  | some n =>
    if area.length < mbx ∨ mbx < 4 then (puts, s)
    else
      let mine := (mbxEntries area).filter (fun e => e.2.kind = 1 && s.nodeTakes r n e.2.dst)
      let puts := mine.foldl (fun t e => putBytes t (a + e.1 + 7) [2]) puts
      let (puts, s) := s.nodeAppends r a mbx area puts
      (puts, mine.foldl (fun s e => if bandHas body (a + e.1) e.2.bytes.length then s.nodeHears r e.2 else s) s)

/-- The node processes a pass-through band (R340, R342, R343, R347): the frame that it sends on, with its inputs as sampled. -/
def State.nodeBand (s : State) (r : Nat) (portB : Bool) (arrival : Nat) (body : List Byte) : List Byte × State :=
  match (s.ring r).node with
  | none => (body, s)
  | some n =>
    let cycle := leAt body 4 6
    let cyc := leAt body 42 2
    let last := n.band
    let (depart, s) := s.departs n portB arrival
    let n := n.seenAt body portB s.now
    let seen := (n.mcrc + bandBad body (match n.slot cyc with
      | some (o, _) => o / 256
      | none => 0)) % 256
    let mark := s.nodeMark r n cycle seen (leAt body 2 2)
    let puts : Tab (Option Byte) := match n.slot cyc with
      | some (o, len) => putBytes [] o (mark ++ (List.range (len - 4)).map (fun i => n.sample.getD i 0))
      | none => []
    let puts := match last with
      | some (c, at_, dp, side) =>
        if leAt body 40 2 = n.addr ∧ (c + 1) % 2 ^ 48 = cycle then putBytes puts cyc (stampArea n.addr at_ dp (b2n side)) else puts
      | none => puts
    let n := n.takeOutputs body
    let n := { n with mcrc := (n.mcrc + bandBad body (leAt body 14 2)) % 256, band := some (cycle, arrival, depart, portB), slots := 0 }
    let (puts, s) := (s.setNode r n).nodeMailbox r body puts
    (rewriteBand body puts, s)

/-- The node named by STAMPNODE writes the stamps of the probe before into a delay probe; on a slotted ring, where it has seen device slots,
the probe stays as it is (R368). A block whose check fails counts (R343). -/
def State.nodeProbe (s : State) (r : Nat) (portB : Bool) (arrival : Nat) (body : List Byte) : List Byte × State :=
  match (s.ring r).node with
  | none => (body, s)
  | some n =>
    let cycle := leAt body 4 6
    let (depart, s) := s.departs n portB arrival
    let s := s.setNode r { n with probe := some (cycle, arrival, depart), mcrc := (n.mcrc + bandBad body 1) % 256 }
    match n.probe with
    | some (c, at_, dp) =>
      if leAt body 40 2 = n.addr ∧ (c + 1) % 2 ^ 48 = cycle ∧ n.slots = 0 then
        (rewriteBand body (putBytes [] 0 (stampArea n.addr at_ dp 1)), s)
      else (body, s)
    | none => (body, s)

/-! ### Slotted mode (R348 - R350) -/

/-- A STAMP entry (R350, R368). -/
def stampEntry (n : Node) (arrive depart side : Nat) : MbxMsg :=
  { dst := n.addr / 256 * 256, src := n.addr, seq := 0, data := stampArea n.addr arrive depart side, kind := 4 }

/-- A cycle header passes the node (R348 - R350, R368): its own slot, and in its mini-slot a frame of acknowledgements, stamps and
messages; whether one can end before the dynamic segment does is a free value (see assumption 37, DEDUCED). -/
def State.nodeHeader (s : State) (r : Nat) (portB : Bool) (arrival : Nat) (body : List Byte) : State :=
  match (s.ring r).node with
  | none => s
  | some n =>
    let cycle := leAt body 4 6
    let (depart, s) := s.departs n portB arrival
    let asked := leAt body 40 2 = n.addr
    let stamps := (match n.band with
      | some (c, a, d, side) => if asked && (c + 1) % 2 ^ 48 = cycle then [stampEntry n a d (b2n side)] else []
      | none => []) ++ (match n.probe with
      | some (c, a, d) => if asked && (c + 1) % 2 ^ 48 = cycle then [stampEntry n a d 1] else []
      | none => [])
    let missed := match n.layout with
      | some l => n.band.isSome && decide (n.got.length < l.len)
      | none => false
    let gap := n.gap cycle
    let n := n.seenAt body portB s.now
    let n := { n with outbad := missed || gap, slots := 1, got := [], band := some (cycle, arrival, depart, portB) }
    let out := s.onward r portB
    let s := match n.layout with
      | some l =>
        if l.slotlen < 64 then s
        else
          let ins := (List.range (l.slotlen - 4)).map (fun i => n.sample.getD i 0)
          s.sendBand r out (slotBody 3 l.id cycle n.addr (s.nodeMark r n cycle n.mcrc (leAt body 2 2) ++ ins) [] (ceilDiv l.slotlen 256))
      | none => s
    let (w, s) := s.drawWord
    let limit := min (leAt body 44 2) (dynBytes (w.toNat % 256))
    match n.layout, dynFrame (leAt body 10 2) cycle n.addr limit (n.acks ++ stamps ++ (s.ring r).msgs) with
    | some _, (some f, k) => (s.setNode r { n with acks := n.acks.drop k }).sendBand r out f
    | _, _ => s.setNode r n

/-- A device slot of the cycle brings bytes of the node's output area (R348, R350): with the last of them the outputs wait for their apply
instant. -/
def State.nodeSlot (s : State) (r : Nat) (portB : Bool) (body : List Byte) : State :=
  match (s.ring r).node with
  | none => s
  | some n =>
    match n.layout, n.band with
    | some l, some (cycle, _, _, _) =>
      if leAt body 8 2 != n.addr / 256 * 256 || leAt body 4 4 != cycle % 2 ^ 32 || n.portB != portB || n.slots = 0 then s
      else
        let k := n.slots - 1
        let nb := ceilDiv l.slotlen 256
        let block (i : Nat) : List Byte := (body.drop (16 + 264 * i)).take 264
        let headOk := leAt body 12 4 = crc32Eth (body.take 12) && leAt body 2 2 = l.id
        let bad := ((List.range (blocksIn body 16 nb)).filter (fun i => !blockCrcGood (block i))).length
        let got := if !headOk then n.got
          else (List.range (min l.slotlen 1024)).foldl (fun t i =>
            if blockCrcGood (block (i / 256)) && blockClean (block (i / 256)) && decide (l.offset ≤ k * l.slotlen + i)
                && decide (k * l.slotlen + i < l.offset + l.len) then
              Tab.put none t (k * l.slotlen + i - l.offset) (some ((block (i / 256)).getD (i % 256) 0))
            else t) n.got
        let n := { n with slots := n.slots + 1, got := got, mcrc := (n.mcrc + bad) % 256 }
        s.setNode r (if got.length < l.len then n
          else { n with next := some ((List.range l.len).map (fun i => (Tab.get none got i).getD 0), n.applyAt) })
    | _, _ => s

/-- A dynamic frame of the device at the node (R350): entries for it are taken and acknowledged, acknowledged messages are delivered. -/
def State.nodeDyn (s : State) (r : Nat) (body : List Byte) : State :=
  match (s.ring r).node with
  | none => s
  | some n =>
    let nb := leAt body 10 2
    let bs := (List.range nb).map (fun i => (body.drop (16 + 264 * i)).take 264)
    if leAt body 12 4 != crc32Eth (body.take 12) || !(List.range nb).all (fun i => blockGood (bs.getD i []) i) then s
    else
      (mbxEntries (bs.flatMap (fun b => b.take 256))).foldl (fun s e =>
        let m := e.2
        if m.kind = 1 && s.nodeTakes r n m.dst then
          let s := s.nodeHears r m
          match (s.ring r).node with
          | some n => s.setNode r { n with acks := n.acks ++ [{ m with data := [], kind := 3 }] }
          | none => s
        else if m.kind = 3 then s.mbxAcked r m
        else s) s

/-! ### Every frame that passes (R343 - R345, R372, R488) -/

/-- A frame passes a node (R343, R344, R372, R488): the first good copy of a cycle that the node must obey is processed; every other frame
goes on unchanged (see assumption 37, DEDUCED). -/
def State.nodeFrame (s : State) (r : Nat) (portB : Bool) (arrival : Nat) (tail : BitVec 24) (body : List Byte) : State :=
  let t := byteAt body 0
  let x := s.ring r
  if t = 3 then (if x.parent then s.nodeSlot r portB body else s).forwardBand r portB body tail
  else if t = 4 then (if x.parent then s.nodeDyn r body else s).forwardBand r portB body tail
  else if !headGood body then
    (match x.parent, x.node with
      | true, some _ => s.nodeCounts r 1
      | _, _ => s).forwardBand r portB body tail
  else
    let epoch := leAt body 2 2
    -- it obeys the newest epoch that it has seen, and any newer one (R385)
    let fresh := epoch = x.epoch || epochNewer epoch x.epoch
    let first := leAt body 4 6 + 1 != x.processed
    if t = 0x11 then
      if x.parent && fresh then
        let (f, s) := s.nodeProbe r portB arrival body
        s.forwardBand r portB f tail
      else s.forwardBand r portB body tail
    else if t != 1 && t != 2 then s.forwardBand r portB body tail
    else
      let s := if fresh then s.setRing r { x with epoch := epoch } else s
      let s := s.epochMet r epoch
      if !fresh then s.forwardBand r portB body tail
      else if !first then (s.nodeCounts r (if t = 1 then bandBad body (leAt body 14 2) else 0)).forwardBand r portB body tail
      else
      let s := s.setRing r { s.ring r with processed := leAt body 4 6 + 1 }
      if !x.parent then (s.bandAlign r portB arrival body).forwardBand r portB body tail
      else
        let (n, s) := s.nodeOf r (leAt body 12 2 / 256 % 64)
        if !n.obeys (leAt body 10 2) then s.forwardBand r portB body tail
        else
          let s := (s.setNode r (n.upTo s.now)).bandAlign r portB arrival body
          let s := if byteAt body 1 / 4 % 2 = 1 then
              s.bandTrigger (byteAt body 48)
                (leAt body 49 2 + (leAt body 51 4 % 2 ^ 30) * 2 ^ 16 + (leAt body 51 9 / 2 ^ 30 % 2 ^ 42) * (1000000000 * 2 ^ 16))
            else s
          if t = 2 then (s.forwardBand r portB body tail).nodeHeader r portB arrival body
          else
            let (f, s) := s.nodeBand r portB arrival body
            s.forwardBand r portB f tail

end Sys2Proof.Machine
end

