-- ==== Sys2Proof/Machine/RingEvents.lean ====
section
/-! DEFINITION. What happens on the Ribriari rings: cycle starts and window openings, frames that arrive, claims and their loss, a band
of another master, lost ports (R329 - R393). -/

namespace Sys2Proof.Machine

/-! ### A configuration takes effect (R355, R389) -/

/-- The configuration of ring r that takes effect at a cycle start in cell clock c (R355). -/
def State.configDue (s : State) (r c : Nat) : Option RingCfg :=
  match (s.ring r).waiting with
  | some (g, a) => if decide (a + 8000 ≤ c) || !(s.ring r).run then some g else none
  | none => none

/-- The stations of the configuration in force join those of former ones, by their addresses (R390). -/
def Ring.formerWith (x : Ring) : Tab Station :=
  match x.cfg with
  | some c => (List.range c.nodes).foldl (fun t i => Tab.put {} t (c.entry (i + 1)).1 (Tab.get {} x.stations (i + 1))) x.former
  | none => x.former

/-- The station of an address in a new configuration: dropped out until it marks OPERATE, and without a mark under it; what it counted
since BOOT, its miss run, its last mark and its last values stay with its address (R218, R388 - R390) (see assumption 35, DEDUCED). -/
def Ring.carryStation (x : Ring) (addr : Nat) : Station :=
  { Tab.get {} x.formerWith addr with
    dropped := true, seen := false, marked := false, past := [], blocks := [], af := none, df := none, ar := none, dr := none }

/-- Band slot cells that no longer fit the layout have VALID cleared (R355). -/
def State.slotsRefit (s : State) (r : Nat) : State :=
  (List.range 1024).foldl (fun s i =>
    let w := s.reg (offSlot r i 0)
    if bit w 35 && !s.slotFits r w then s.setReg (offSlot r i 0) (setBit w 35 false) else s) s

/-- Blocks that were assembled for a band that does not go out any more are late for it: dropped under 0x0A, so that each is counted
once (R32, R360) (see assumption 35, DEDUCED). -/
def State.unassemble (s : State) (r : Nat) : State :=
  let x := s.ring r
  if x.assembled then (s.drop (strBandOut r) 0xA (s.stream (strBandOut r)).resident).setRing r { x with assembled := false, txBad := [] } else s

/-- A configuration takes effect (R355) (see assumption 35, DEDUCED). -/
def State.configEffect (s : State) (r : Nat) (c : RingCfg) : State :=
  let x := s.ring r
  let same := x.cfg.map RingCfg.stations = some c.stations
  let st := (List.range c.nodes).foldl (fun t i => Tab.put {} t (i + 1) (x.carryStation (c.entry (i + 1)).1)) []
  let s := s.unassemble r
  let s := s.setRing r { x with
    cfg := some c, waiting := none, stations := st, former := x.formerWith, out := [], assembled := false, stampPos := 0
    run := x.run && c.mode != 0, swept := x.swept && same
    links := if same then x.links else [], fwd := if same then x.fwd else [], rev := if same then x.rev else []
    measured := if same then x.measured else [], told := if same then x.told else [] }
  let s := (s.setReg (offRingOpen r) (wd c.openAt)).setReg (offRingClose r) (wd c.close)
  let s := (s.setReg (offRing r 2) (wd c.loopOpen)).setReg (offRing r 3) (wd c.applyOff)
  s.slotsRefit r

/-! ### Cycle starts (R333, R363, R365, R368) -/

/-- Does ring r follow the cycles of ring 0: ring 1 on common cycle numbering, while ring 0 sends bands (R334). -/
def State.followsRing0 (s : State) (r : Nat) : Bool := r = 1 && s.ringCommon && (s.ring 0).run

/-- The cell clock of the next cycle start of ring r, if it sends bands; where it follows ring 0, the first on that ring's grid that is
CYCLEN away or more (R333, R334) (see assumption 35, DEDUCED). -/
def State.nextStart (s : State) (r : Nat) : Option Nat :=
  let x := s.ring r
  match x.first, x.cfg with
  | some f, _ => some f
  | none, some c =>
    let t := x.start + c.cyclen
    if !x.run then none
    else if s.followsRing0 r then some (t + ((((s.ring 0).start : Int) - t) % c.cyclen).toNat)
    else some t
  | none, none => none

/-- The number of a first cycle that starts in cell clock f (R383). -/
def State.firstNumber (s : State) (f cyclen : Nat) : Nat := s.timeAt f * 2 / (5 * cyclen * tNs) % 2 ^ 48

/-- The number of a cycle of ring 1 that starts in cell clock t, on ring 0's numbering (R334, R383). -/
def State.commonNumber (s : State) (t cyclen : Nat) : Nat :=
  let o := s.ring 0
  (((o.cycle : Int) + ((t : Int) - o.start) / cyclen) % 2 ^ 48).toNat

/-- The next cycle takes number n: the marks of a band that is assembled already follow (R340). -/
def Ring.renumber (x : Ring) (c : RingCfg) (n : Nat) : Ring :=
  { x with
    cycle := (n + 2 ^ 48 - 1) % 2 ^ 48
    tx := if c.mode = 2 then x.tx else c.stations.foldl (fun t e => t.set e.2.1 (BitVec.ofNat 8 (n % 256 ^^^ 0x80))) x.tx }

/-- RING_CONFIG_EFFECT (R355): at a cycle start that is due, before its band. -/
def State.effectDue (s : State) (r : Nat) : State :=
  match s.nextStart r with
  | none => s
  | some t =>
    if decide (s.cc < t) then s
    else match s.configDue r t with
    | some c => s.configEffect r c
    | none => s

/-- The frames of a cycle (R348 - R350, R363, R368): what the device sends at a cycle start. Its dynamic frame, in mini-slot 0, ends before
the dynamic segment does (see assumption 35, DEDUCED). -/
def State.sendCycle (s : State) (r : Nat) (c : RingCfg) : State :=
  let x := s.ring r
  if c.mode = 2 then
    let (dyn, k) := dynFrame c.layout x.cycle c.master (min c.mbxmax (dynBytes c.dynms)) (x.acks ++ x.msgs)
    let s := s.setRing r { x with acks := x.acks.drop k }
    let s := (x.slotFrames c (b2n x.loop) ++ dyn.toList).foldl (fun s f => s.sendBand r 0 f) s
    if x.loop then (x.slotFrames c 2 ++ dyn.toList).foldl (fun s f => s.sendBand r 1 f) s else s.sendBand r 1 (x.probe c)
  else if x.loop then (s.sendBand r 0 (x.band c 1)).sendBand r 1 (x.band c 2)
  else (s.sendBand r 0 (x.band c 0)).sendBand r 1 (x.probe c)

/-- The output stream at a cycle start: blocks sent, a poisoned one dropped; the blocks due back (R360). -/
def State.countCycle (s : State) (r : Nat) (c : RingCfg) : State :=
  let x := s.ring r
  let n := if c.mode = 2 then c.outslots * ceilDiv c.slotlen 256 else c.nblk
  let bad := x.txBad.length
  let k := if x.loop then 2 else 1
  let s := s.produce (strBandOut r) ((k - 1) * n)
  let s := (s.deliver (strBandOut r) (k * (n - bad))).drop (strBandOut r) 2 (k * bad)
  (s.setRing r { s.ring r with due := true }).produce (strBandIn r) (k * c.rxBlocks)

/-- Blocks of the cycle when its window opens, or when the cycle ends without one (R359, R360): once for each cycle, those that all of
`out` discards are dropped under 0x04, the other stored ones delivered, and the rest late. -/
def State.settleBlocks (s : State) (r : Nat) (c : RingCfg) (out : Nat → Bool) : State :=
  let x := s.ring r
  if !x.due then s
  else
    let ks := x.copies.flatMap (fun k => (List.range c.rxBlocks).map (fun i => (k, i)))
    let stored := ks.filter (fun e => Tab.get [] x.rx (rxKey e.1 e.2) != [])
    let out := (stored.filter (fun e => out e.2)).length
    let bad := (ks.filter (fun e => Tab.get false x.bad (rxKey e.1 e.2))).length
    let late := ks.length - stored.length - bad
    let s := ((s.deliver (strBandIn r) (stored.length - out)).drop (strBandIn r) 4 out).drop (strBandIn r) 0xA late
    let s := s.setRing r { x with due := false }
    if late = 0 then s
    else (s.setReg (offRing r 4) (wd (min ((s.reg (offRing r 4)).toNat + 1) (2 ^ 36 - 1)))).tallyAdd (34 + r) 1

/-- A cycle ends whose window has not opened: its blocks are counted out (R32). -/
def State.settleEnd (s : State) (r : Nat) : State :=
  match (s.ring r).cfg with
  | some c => s.settleBlocks r c (c.allOut (fun p => (s.station r p).dropped))
  | none => s

/-- One cycle start of ring r in cell clock t. -/
def State.cycleBegin (s : State) (r t : Nat) : State :=
  match (s.ring r).cfg with
  | none => s
  | some c =>
    let x := s.ring r
    -- the first cycle: its number, one less until the assembly has been made for it
    let s := if x.first.isSome then
        -- a port that is lost brings the ring into loopback at its first cycle start (R363)
        s.setRing r { x with
          run := true, first := none, cycle := (s.firstNumber t c.cyclen + 2 ^ 48 - 1) % 2 ^ 48, loop := false
          wantLoop := x.lostA || x.lostB }
      else s
    let n := s.commonNumber t c.cyclen
    let s := if s.followsRing0 r && n != ((s.ring r).cycle + 1) % 2 ^ 48 then s.setRing r ((s.ring r).renumber c n) else s
    let s := s.settleEnd r
    -- a slotted ring has the last node's stamps by the end of the cycle (R350, R368)
    let s := if c.mode = 2 && (s.ring r).run && !(s.ring r).loop && (s.ring r).stampPos = c.nodes && c.nodes != 0 then s.endSweep r c.nodes else s
    let s := if (s.ring r).assembled then s else s.assemble r c
    let x := s.ring r
    let enter := x.wantLoop && !x.loop
    let leave := x.leaveLoop && x.loop && !x.wantLoop
    let s := if enter then s.incReg (offRing r 6) 1 else s
    let time := s.timeAt t
    let s := s.setRing r { x with
      loop := (x.loop || enter) && !leave, wantLoop := false, leaveLoop := false
      breakA := if enter || leave then 0 else x.breakA, breakB := if enter || leave then 0 else x.breakB
      cycle := (x.cycle + 1) % 2 ^ 48, start := t, prevStart := x.startTime, startTime := time, opened := 0, assembled := false
      rx := [], bad := [], crcBad := [], back := false, crossA := false, crossB := false, atA := false
      halfA := none, halfB := none, ownA := 0, ownB := 0
      stampPos := if c.nodes = 0 then 0 else if x.loop || enter then x.stampPos else x.stampPos % c.nodes + 1 }
    let s := (s.countCycle r c).sendCycle r c
    let s := s.tallyAdd (64 + r) 1
    if (s.ring r).loop then s.tallyAdd (36 + r) 1 else s

/-- CYCLE_START (R333). -/
def execCycleStart (r : Fin 2) (s : State) : Host.Outcome State Fault Refusal :=
  .next (match s.nextStart r.val with
  | none => s
  | some t =>
    if decide (s.cc < t) || !s.ringTx then s
    else
      let s := s.effectDue r.val
      if (s.ring r.val).run || (s.ring r.val).first.isSome then s.cycleBegin r.val t else s)

/-- RING_CONFIG_EFFECT (R355). -/
def execRingConfigEffect (r : Fin 2) (s : State) : Host.Outcome State Fault Refusal := .next (s.effectDue r.val)

/-- OUTPUT_ASSEMBLY (R358): at CLOSE. The assembly for a new configuration is made when that takes effect. -/
def execOutputAssembly (r : Fin 2) (s : State) : Host.Outcome State Fault Refusal :=
  let r := r.val
  .next (match (s.ring r).cfg with
  | none => s
  | some c =>
    let x := s.ring r
    if !x.run || x.assembled || decide (s.cc < x.start + c.close) || (s.configDue r (x.start + c.cyclen)).isSome then s
    else s.assemble r c)

/-! ### Window openings (R341, R357, R359, R364, R388 - R393) -/

/-- Is a station dropped out once the window has opened (R388, R389). -/
def Ring.outAfter (x : Ring) (c : RingCfg) (p : Nat) : Bool :=
  let old := Tab.get {} x.stations p
  match x.markCopy c p with
  | some k => old.dropped && byteAt (x.slotBytes c p k) 1 % 4 != 1
  | none => old.dropped || decide (c.dropn ≤ old.missrun)

/-- Word j of block i of the receive buffer, each word from the copy in which its station marked (R364). -/
def Ring.rxWord (x : Ring) (c : RingCfg) (i j : Nat) : Option Word :=
  let a := 256 * i + 4 * j
  let own := (c.inBlock i).filter (fun p => overlap (c.slotAt p) (c.slotLen p) a 4)
  let ks := own.filterMap (fun p => x.markCopy c p) ++ x.copies
  (ks.find? (fun k => x.rxHas k a 4)).map (fun k => wd (packBytes (x.rxBytes k a 4)))

/-- At the opening, a block of the receive buffer is written again where its arrival has not left it as it belongs: each slot from the copy
in which its station marked, in loopback, and blocks whose stations are taken back (R351, R359, R364); `out` says which are discarded. -/
def State.writeRx (s : State) (r : Nat) (c : RingCfg) (out : Nat → Bool) : State :=
  let x := s.ring r
  let late (i : Nat) : Bool := c.allOut (fun p => (Tab.get {} x.stations p).dropped) i && !out i
  (List.range c.rxBlocks).foldl (fun s i =>
    let (a, n) := c.rxPlace x.cycle i
    if out i || !(x.loop || late i) then s
    else match (List.range n).mapM (fun j => x.rxWord c i j) with
    | some ws => if n = 0 then s else s.bandPut r a ws false
    | none => s) s

/-- A station event to the Crown (R388, R389): reason, position. -/
def State.stationEvent (s : State) (r p reason : Nat) (w0 : Word) (addr : Nat) : State :=
  s.crownEvent 0x007 (wd (at_ reason 28 + at_ r 14 + addr)) w0 |> fun s => if reason = 3 || p = 0 then s else
    { s with sched := { s.sched with stations := s.sched.stations ++ [⟨r, addr, reason = 2, s.cc⟩] } }

/-- Word 0 of a station's entry in the status table (R390). -/
def Station.word0 (x : Station) : Word :=
  wd (at_ (b2n x.dropped) 35 + at_ x.nstate 33 + at_ (b2n x.outbad) 32 + at_ (b2n x.loop) 31 + at_ (min x.missrun 15) 27
    + at_ x.mcrc 19 + at_ x.mepoch 11 + at_ (b2n x.seen) 10)

/-- The station at position p after a window opening, with the increase of its MCRC (R388 - R391). -/
def Ring.judge (x : Ring) (c : RingCfg) (p : Nat) (old : Station) : Station × Nat :=
  match x.markCopy c p with
  | none =>
    ({ old with missrun := old.missrun + 1, marked := false, blocks := [] }, 0)
  | some k =>
    let bs := x.slotBytes c p k
    let st := byteAt bs 1
    let inc := if old.known then (byteAt bs 2 + 256 - old.mcrc) % 256 else 0
    ({ old with
       missrun := 0, marked := true, area := bs, nstate := st % 4
       outbad := decide (st / 4 % 2 = 1), loop := decide (st / 8 % 2 = 1), mcrc := byteAt bs 2, mepoch := byteAt bs 3
       crcsum := (old.crcsum + inc) % 2 ^ 36, seen := true, known := true
       blocks := (List.range (ceilDiv (c.slotAt p % 256 + c.slotLen p) 256)).map (fun i => c.slotAt p / 256 + i) }, inc)

/-- RING coordinates of a station of ring r. -/
def State.stationCoords (s : State) (r addr : Nat) : List Nat :=
  (List.range 32).filter (fun k => s.coordSrc k = 2 && (s.ringSource k).1 = r && (s.ringSource k).2.1 = addr)

/-- The cycles that an image may choose from now on, beside the one that completes on ring r (R218). -/
def State.cyclesKept (s : State) (r : Nat) : List Nat :=
  [(s.ring r).inCycle, (s.ring (1 - r)).inCycle, (s.ring (1 - r)).inPrev].filterMap id

/-- One station at a window opening: marks, drop-out, take-back, node state, its coordinates (R92, R388, R389). Where a block of its slot is
discarded with its stations (R360), it has not marked for its readers, and its values stay (R359) (see assumption 37, DEDUCED). -/
def State.openStation (s : State) (r : Nat) (c : RingCfg) (out : Nat → Bool) (p : Nat) : State :=
  let old := s.station r p
  let (x, inc) := (s.ring r).judge c p old
  let addr := (c.entry p).1
  let after := (s.ring r).outAfter c p
  let drop := !old.dropped && after
  let back := old.dropped && !after
  let lost := x.blocks.any out
  let x := { x with
    dropped := after, dropcnt := if drop then (x.dropcnt + 1) % 2 ^ 36 else x.dropcnt
    marked := x.marked && !lost, area := if lost then old.area else x.area }
  let x := { x with
    past := ((s.ring r).cycle, x.area, x.marked, x.dropped) :: x.past.filter (fun e => (s.cyclesKept r).contains e.1) }
  let s := (s.setStation r p x).tallyAdd (32 + r) inc
  let s := if drop then s.stationEvent r p 1 x.word0 addr else s
  let s := if back then s.stationEvent r p 2 x.word0 addr else s
  let s := if !old.dropped && x.marked && old.seen && x.nstate != old.nstate then s.stationEvent r p 3 x.word0 addr else s
  (s.stationCoords r addr).foldl (fun s k =>
    if drop then s.coordHold k
    else if x.marked then s.ringApply k
    else if (s.coord k).held then s
    else s.coordStale k) s

/-- The increase of each station's MCRC at this opening, from the stations before and after it (R391). -/
def mcrcRises (old new : List Station) : List Nat :=
  (List.range new.length).map (fun i => (((new.getD i {}).crcsum + 2 ^ 36 - (old.getD i {}).crcsum) % 2 ^ 36))

/-- The fault position in a direction of travel (R391): positions in that order, and the position that stands for the band engine's own
failures. -/
def faultPos (rises : List Nat) (order : List Nat) (own : Bool) (ownPos : Nat) : Option Nat :=
  match order.find? (fun p => rises.getD (p - 1) 0 != 0) with
  | some p => some p
  | none => if own then some ownPos else none

/-- Fault location at a window opening (R391 - R393). -/
def State.locate (s : State) (r : Nat) (c : RingCfg) (rises : List Nat) : State :=
  let x := s.ring r
  let n := c.nodes
  let up := (List.range n).map (· + 1)
  let own (k : Nat) : Bool := (List.range c.rxBlocks).any (fun i => Tab.get false x.crcBad (rxKey k i))
  let near (k : Nat) : List Nat := up.filter (fun p => x.markCopy c p = some k)
  let f := if x.loop then
      (faultPos rises (near 1) (own 1) (n + 1)).orElse (fun _ => faultPos rises (near 2).reverse (own 2) 0)
    else faultPos rises up (own 0) (n + 1)
  match f with
  | none => s.setRing r { x with fposRun := 0 }
  | some pos =>
    let before := if x.loop && pos != n + 1 && ((near 2).contains pos || pos = 0) then up.filter (fun p => pos < p) else up.filter (fun p => p < pos)
    let ambig := before.any (fun p => (x.markCopy c p).isNone)
    let same := bit (s.reg (offRingFault r 0)) 35 && s.rfld (offRingFault r 0) 34 26 = pos
    let run := if same then x.fposRun + 1 else 1
    let w := s.reg (offRingFault r 0)
    let s := s.setReg (offRingFault r 0) (wd (at_ 1 35 + at_ pos 26 + at_ (b2n ambig) 25 + at_ (fld w 24 15) 15 + x.cycle % 2 ^ 15))
    let s := s.setRing r { x with fposRun := run }
    if run = 16 then s.babble r pos else s

/-- The station status table (R390). -/
def State.statusTable (s : State) (r : Nat) (c : RingCfg) : State :=
  let x := s.ring r
  let base := 0x2730000 + 0x800 * r
  let s := (List.range c.nodes).foldl (fun s i =>
    let p := i + 1
    let t := s.station r p
    let (a, b) := x.delays c.nodes p
    s.agentWrite (base + 8 * i) [t.word0, wd t.crcsum, wd t.dropcnt, wdI (Tab.get 0 x.fwd p), wdI (Tab.get 0 x.rev p),
      wdI (Tab.get 0 x.links i), wdI a, wdI b]) s
  s.agentWrite (base + 8 * c.nodes) [0, 0, 0, 0, 0, wdI (Tab.get 0 x.links c.nodes), 0, 0]

/-- The valid input slot cells of ring r take their fields (R357, R469). -/
def State.openCells (s : State) (r : Nat) (c : RingCfg) : State :=
  let at0 := (s.ring r).start + c.sampoff
  (List.range 1024).foldl (fun s i =>
    let w := s.reg (offSlot r i 0)
    match bit w 35 && !bit w 34, s.posOf r (fld w 29 16) with
    | true, some p =>
      let t := s.station r p
      if t.marked then
        let n := slotWidth w
        let v := wdI (sextN (leAt t.input (fld w 15 0) n) (8 * n))
        let s := ((s.setReg (offSlot r i 1) v).setRfld (offSlot r i 2) 35 35 0).setRfld (offSlot r i 2) 34 19 0
        (s.signalsOf 6 (1024 * r + i)).foldl (fun s g => s.histEntry g at0 (nsOf (s.timeAt at0)) [v]) s
      else (s.setRfld (offSlot r i 2) 35 35 1).satRfld (offSlot r i 2) 34 19 1
    | _, _ => s) s

/-- Loopback's breaks, and what the next cycle start does about loopback (R363 - R365) (see assumption 35, DEDUCED). -/
def State.judgeLoop (s : State) (r : Nat) (c : RingCfg) : State :=
  let x := s.ring r
  let up := (List.range c.nodes).map (· + 1)
  if x.loop then
    let a := up.filter (fun p => x.markedIn c p 1)
    let b := up.filter (fun p => x.markedIn c p 2)
    s.setRing r { x with breakA := a.getLastD 0, breakB := b.headD 0 }
  else s.setRing r { x with wantLoop := x.wantLoop || !x.back }

/-- The window of ring r opens (see assumption 35, DEDUCED). -/
def State.openWindow (s : State) (r : Nat) (c : RingCfg) : State :=
  let olds := (List.range c.nodes).map (fun i => s.station r (i + 1))
  let x := s.ring r
  let out := c.allOut (x.outAfter c)
  let s := (s.settleBlocks r c out).writeRx r c out
  let s := (s.ring r).copies.foldl (fun s k =>
    let a := c.cycbytes
    if c.mode = 1 && k != 2 && (s.ring r).rxHas k a 16 then s.takeStamps r ((s.ring r).rxBytes k a 16) else s)
    s
  let s := (List.range c.nodes).foldl (fun s i => s.openStation r c out (i + 1)) s
  let news := (List.range c.nodes).map (fun i => s.station r (i + 1))
  let s := s.locate r c (mcrcRises olds news)
  let s := s.judgeLoop r c
  let x := s.ring r
  let s := if c.mode = 1 && !x.loop && x.stampPos = c.nodes && c.nodes != 0 then s.endSweep r c.nodes else s
  let s := (s.openCells r c).statusTable r c
  let s := s.mbxReturn r c
  let x := s.ring r
  let s := s.setRing r { x with opened := s.cc + 1, inCycle := some x.cycle, inPrev := x.inCycle }
  let s := { s with modes := { s.modes with opened := if s.modes.opened.contains r then s.modes.opened else r :: s.modes.opened } }
  s.resumeStep

/-- WINDOW_OPENING (R359): at OPEN, in loopback at LOOPOPEN (see assumption 2, DESIGN CHOICE). -/
def execWindowOpening (r : Fin 2) (s : State) : Host.Outcome State Fault Refusal :=
  .next (match (s.ring r.val).cfg with
  | none => s
  | some c =>
    let x := s.ring r.val
    if !x.run || x.opened != 0 || decide (s.cc < x.start + x.openNow c) then s else s.openWindow r.val c)

/-! ### Claims (R379 - R386) -/

/-- The claim key (R379). -/
def State.claimKey (s : State) : Nat := s.rfld (offClaim 0) 7 0 * 2 ^ 40 + Config.serial.toNat

/-- The LOSE action: NODE, unless the module is paired (R379, R533). -/
def State.loseNode (s : State) : Bool := bit (s.reg (offClaim 0)) 8 && s.role = 0

/-- The configuration that ring r claims with. -/
def State.claimCfg (s : State) (r : Nat) : Option RingCfg := (s.ring r).waiting.map Prod.fst

/-- A claim goes out on every port that is not lost (R381) (see assumption 36, DEDUCED). -/
def State.sendClaim (s : State) (r : Nat) : State :=
  match s.claimCfg r, (s.ring r).claim with
  | some c, some m =>
    let f := claimFrame c (s.ring r).epoch m.epochMax s.claimKey s.now
    let s := if (s.ring r).lostA then s else s.sendBand r 0 f
    if (s.ring r).lostB then s else s.sendBand r 1 f
  | _, _ => s

/-- RING_START (R381). -/
def execRingStart (r : Fin 2) (s : State) : Host.Outcome State Fault Refusal :=
  let x := s.ring r.val
  .next (if x.run || x.claim.isSome || x.first.isSome || x.passive || x.parent || (x.lostA && x.lostB) || !s.ringTx
      || (match s.claimCfg r.val with
          | some c => c.mode = 0
          | none => true) then s
  else
    let s := s.setRing r.val { x with claim := some ⟨s.cc, s.cc, x.epoch⟩ }
    ((s.setReg (offClaim 1) (wd (at_ 1 32))).setReg (offClaim 2) 0).sendClaim r.val)

/-- CLAIM_REPEAT (R381): once every 8 us for 256 us. -/
def execClaimRepeat (r : Fin 2) (s : State) : Host.Outcome State Fault Refusal :=
  let x := s.ring r.val
  .next (match x.claim with
  | some m =>
    if decide (s.cc < m.last + 3200) || decide (m.start + 102400 ≤ s.cc) then s
    else (s.setRing r.val { x with claim := some { m with last := m.last + 3200 } }).sendClaim r.val
  | none => s)

/-- A ring's part as master or claimant ends; its ports forward as a passive node's, or as a node's of a parent ring (R382, R387). -/
def State.ringOut (s : State) (r : Nat) (parent : Bool) : State :=
  let s := ((s.settleEnd r).unassemble r).timeFollow
  let x := s.ring r
  s.setRing r { x with claim := none, first := none, run := false, passive := !parent, parent := parent, node := none }

/-- The device enters STANDBY: by claim loss 6, or by a band of a newer epoch 8 (R382, R387, R572). -/
def State.enterStandby (s : State) (cause : Nat) : State :=
  let s := (s.ringOut 0 false).ringOut 1 false
  let s := if s.modes.resume = 1 then { s.consume with modes := { s.modes with resume := 0 } } else s
  if s.mode = 8 || s.holdup then s else s.beginTransition 8 cause

/-- A claim is lost (R382, R384): RESULT 3 or 4, and the winner's key (see assumption 36, DEDUCED). -/
def State.claimLost (s : State) (r result key : Nat) : State :=
  let s := s.setReg (offClaim 1) (wd (at_ result 32 + at_ (key / 2 ^ 40) 24 + key / 2 ^ 36 % 16))
  let s := s.setReg (offClaim 2) (wd key)
  if s.loseNode then
    let s := if s.modes.resume = 1 then s.consume else s
    s.ringOut r true
  else s.enterStandby 6

/-- A claim with EPOCHMAX replaced by the newer of it and an epoch that a node has seen (R380). -/
def claimForward (body : List Byte) (epoch : Nat) : List Byte :=
  rewriteBand body (putBytes [] 6 (le 2 (epochMax (leAt (oneBlock body) 6 2) epoch)))

/-- CLAIM_RECEIVED (R330, R380, R381) (see assumption 36, DEDUCED). -/
def execClaimReceived (r : Fin 2) (portB : Bool) (f : RingFrame) (s : State) : Host.Outcome State Fault Refusal :=
  let r := r.val
  let body := f.body
  let s := s.framed r f
  let x := s.ring r
  .next (if !f.delimited || !headGood body || byteAt body 0 != 0x10 then s
  else
    let b := oneBlock body
    let key := leAt b 0 5 + byteAt b 5 * 2 ^ 40
    let met := leAt b 6 2
    if x.claim.isSome || (x.first.isSome && !x.run) then
      -- a claim that cannot be read is forwarded as every other frame (R338, R381)
      if !blockGood b 0 then s.forwardBand r portB (claimForward body x.epoch) f.tail
      else if s.claimKey < key then (s.forwardBand r portB (claimForward body x.epoch) f.tail).claimLost r 3 key
      else match x.claim with
      | some m => s.setRing r { x with claim := some { m with epochMax := epochMax m.epochMax met } }
      | none => s
    else if x.passive || x.parent then
      let seen := epochMax x.epoch (leAt body 2 2)
      ((s.setRing r { x with epoch := seen }).nodeCounts r (bandBad body 1)).forwardBand r portB (claimForward body seen) f.tail
    else s)

/-- The first cycle start of a ring that has won its claim: 10 us or more after the claim's end, with the other ring's on common
numbering (R334, R381). -/
def State.firstStart (s : State) (r : Nat) : Nat :=
  let t := s.cc + 4000
  let o := s.ring (1 - r)
  match s.claimCfg r, (if o.run then o.cfg else s.claimCfg (1 - r)), (if o.run then some o.start else o.first) with
  | some c, some d, some f =>
    if c.common && d.common && c.cyclen = d.cyclen && d.mode != 0 then
      if t ≤ f then f else f + ceilDiv (t - f) d.cyclen * d.cyclen
    else t
  | _, _, _ => t

/-- CLAIM_END (R381, R386): 256 us without a loss (see assumption 36, DEDUCED). -/
def execClaimEnd (r : Fin 2) (s : State) : Host.Outcome State Fault Refusal :=
  let r := r.val
  let x := s.ring r
  .next (match x.claim with
  | none => s
  | some m =>
    if decide (s.cc < m.start + 102400) then s
    else
      let e := (epochMax m.epochMax x.epoch + 1) % 2 ^ 16
      let s := s.timeMaster
      -- the winner is this module (R384)
      let key := s.claimKey
      let s := (s.setReg (offClaim 1) (wd (at_ 2 32 + at_ (key / 2 ^ 40) 24 + key / 2 ^ 36 % 16))).setReg (offClaim 2) (wd key)
      s.setRing r { s.ring r with claim := none, epoch := e, first := some (s.firstStart r) })

/-! ### A band of another master (R387) -/

/-- A running master met a band of another master (R387); a claimant loses to it (R381) (see assumption 36, DEDUCED). -/
def State.foreign (s : State) (r epoch : Nat) : State :=
  let x := s.ring r
  if x.claim.isSome || (x.first.isSome && !x.run) then s.claimLost r 4 0
  else if !x.run || epochNewer x.epoch epoch then s
  else
    let m := s.mode
    let s := s.ringOut r false
    let s := s.setRing r { s.ring r with epoch := epochMax x.epoch epoch }
    let s := s.crownEvent 0x006 (wd (at_ 1 28 + r)) (s.ringStat r)
    if s.role = 1 then
      -- the paired active module gives up its role (R548)
      let s := (s.jUnmirror.dropResident 0x07).setRfld (offPair 0) 35 34 2
      (s.setRfld (offPair 0) 33 32 0).enterStandby 8
    else if m = 4 || m = 5 || m = 6 then s.enterStandby 8
    else if s.loseNode then s.ringOut r true
    else s.enterStandby 8

/-- FOREIGN_BAND (R387) (see assumption 36, DEDUCED). -/
def execForeignBand (r : Fin 2) (epoch : BitVec 16) (s : State) : Host.Outcome State Fault Refusal :=
  .next (s.foreign r.val epoch.toNat)

/-! ### Frames that arrive (R330, R359, R365, R368) -/

/-- The blocks of a frame, from byte a, into a copy from its block number i0 on. -/
def State.takeBlocks (s : State) (r copy i0 a n : Nat) (body : List Byte) (headOk : Bool) : State :=
  (List.range n).foldl (fun s i => s.takeBlock r copy (i0 + i) i ((body.drop (a + 264 * i)).take 264) headOk) s

/-- A frame that no rule allows (R330, R392, R393). -/
def State.strayFrame (s : State) (r : Nat) : State :=
  let s := s.setReg (offRingFault r 1) (wd (min ((s.reg (offRingFault r 1)).toNat + 1) (2 ^ 36 - 1)))
  s.babble r (if bit (s.reg (offRingFault r 0)) 35 then s.rfld (offRingFault r 0) 34 26 else 0)

/-- A stamp at the device's own port, reduced (R369). -/
def Ring.ownStamp (x : Ring) (arrival : Nat) : Int := reduceStamp (arrival % (4000000000 * 2 ^ 16)) (time16 x.startTime + headTime)

/-- The device's own band of this cycle returns (R359, R363 - R365). -/
def State.ownBand (s : State) (r : Nat) (c : RingCfg) (portB : Bool) (arrival : Nat) (body : List Byte) : State :=
  let x := s.ring r
  let half := byteAt body 1 % 4
  let whole := blocksIn body 64 c.nblk = c.nblk
  let s := if x.opened = 0 && half < 3 then s.takeBlocks r half 0 64 (blocksIn body 64 c.nblk) body true else s
  let x := s.ring r
  let x := { x with
    back := x.back || (half = 0 && portB && whole && x.opened = 0)
    atA := x.atA || (half = 0 && !portB)
    wantLoop := x.wantLoop || (half = 0 && !portB && !x.loop)
    crossA := x.crossA || (half = 1 && portB && whole), crossB := x.crossB || (half = 2 && !portB && whole)
    afN := if half = 0 && portB then some (x.ownStamp arrival) else x.afN }
  let x := { x with leaveLoop := x.leaveLoop || (x.crossA && x.crossB) }
  let s := s.setRing r x
  if decide (64 + 264 * c.nblk < body.length) then s.babble r (if bit (s.reg (offRingFault r 0)) 35 then s.rfld (offRingFault r 0) 34 26 else 0)
  else s

/-- The delay probe arrives at port A (R368 - R370). -/
def State.probeBack (s : State) (r : Nat) (arrival : Nat) (body : List Byte) : State :=
  let x := s.ring r
  let s := s.setRing r { x with ar0 := some (x.ownStamp arrival) }
  if blockGood (oneBlock body) 0 then s.takeStamps r (oneBlock body) else s

/-- The device's own cycle of a slotted ring has come back to a port so far: its CYCHDR with HALF h and then all its slot frames
(R348, R363, R365). -/
def Ring.slotsBack (x : Ring) (c : RingCfg) (portB : Bool) (h : Nat) : Bool :=
  if portB then x.halfB = some h && x.ownB = c.outslots else x.halfA = some h && x.ownA = c.outslots

/-- What the frames that have returned say of loopback (R363, R365). -/
def Ring.judgeSlots (x : Ring) (c : RingCfg) : Ring :=
  let back := x.back || (x.slotsBack c true 0 && x.opened = 0)
  let crossA := x.crossA || x.slotsBack c true 1
  let crossB := x.crossB || x.slotsBack c false 2
  { x with back := back, crossA := crossA, crossB := crossB, leaveLoop := x.leaveLoop || (crossA && crossB) }

/-- The device's own CYCHDR returns (R348, R363, R365). -/
def State.ownHeader (s : State) (r : Nat) (c : RingCfg) (portB : Bool) (arrival : Nat) (body : List Byte) : State :=
  let x := s.ring r
  let half := byteAt body 1 % 4
  let x := if portB then { x with halfB := some half, ownB := 0 } else { x with halfA := some half, ownA := 0 }
  s.setRing r (Ring.judgeSlots { x with
    atA := x.atA || (half = 0 && !portB), wantLoop := x.wantLoop || (half = 0 && !portB && !x.loop)
    afN := if half = 0 && portB then some (x.ownStamp arrival) else x.afN } c)

/-- The copy to which a slot frame at a port belongs: the half whose CYCHDR came before it (R363). -/
def Ring.slotCopy (x : Ring) (portB : Bool) : Nat :=
  if !x.loop then 0 else ((if portB then x.halfB else x.halfA).getD (if portB then 2 else 1))

/-- The position whose static slot begins to arrive at port B at a moment, by which a frame with a bad header is told (R349). -/
def State.slotAtTime (s : State) (r : Nat) (c : RingCfg) (arrival : Nat) : Option Nat :=
  let x := s.ring r
  let (f, l) := s.ringDelays r (c.stations.map Prod.fst) c.cyclen
  let t := (reduceStamp (arrival % (4000000000 * 2 ^ 16)) (time16 x.startTime)).toNat * 2 / (5 * 2 ^ 16)
  let k := (t + c.tslot / 2 - min (t + c.tslot / 2) (ceilDiv (f + l).toNat 2500 + 50)) / c.tslot
  if c.outslots ≤ k ∧ k < c.outslots + c.nodes then some (k - c.outslots + 1) else none

/-- A frame whose header failed carries blocks of the band, whatever its TYPE byte now says, or of the slot in whose time it came: they are
discarded (R348, R349, R359) (see assumption 35, DEDUCED). -/
def State.badHeader (s : State) (r : Nat) (c : RingCfg) (portB : Bool) (arrival : Nat) (body : List Byte) : State :=
  let x := s.ring r
  if x.opened != 0 || !(x.loop || portB) then s
  else if c.mode = 1 then s.takeBlocks r (if x.loop then (if portB then 2 else 1) else 0) 0 64 (blocksIn body 64 c.nblk) body false
  else match s.slotAtTime r c arrival with
  | some p => s.takeBlocks r (x.slotCopy portB) ((p - 1) * ceilDiv c.slotlen 256) 16 (blocksIn body 16 (ceilDiv c.slotlen 256)) body false
  | none => s

/-- A slot frame or dynamic frame of slotted mode (R348, R350): node 0 acknowledges each entry that it takes, as every node does; its own
frames only tell that the cycle comes back (see assumption 35, DEDUCED). -/
def State.slotFrame (s : State) (r : Nat) (c : RingCfg) (portB : Bool) (arrival : Nat) (body : List Byte) : State :=
  let x := s.ring r
  let n := ceilDiv c.slotlen 256
  if leAt body 12 4 != crc32Eth (body.take 12) then s.badHeader r c portB arrival body
  else if leAt body 8 2 = c.master then
    if byteAt body 0 = 3 && leAt body 4 4 = x.cycle % 2 ^ 32 then
      s.setRing r (Ring.judgeSlots (if portB then { x with ownB := x.ownB + 1 } else { x with ownA := x.ownA + 1 }) c)
    else s
  else if byteAt body 0 = 3 then
    match s.posOf r (leAt body 8 2) with
    | some p =>
      if x.opened != 0 || leAt body 4 4 != x.cycle % 2 ^ 32 then s
      else s.takeBlocks r (x.slotCopy portB) ((p - 1) * n) 16 (blocksIn body 16 n) body (leAt body 2 2 = c.layout)
    | none => s.strayFrame r
  else
    let nb := leAt body 10 2
    let bs := (List.range nb).map (fun i => (body.drop (16 + 264 * i)).take 264)
    if !(List.range nb).all (fun i => blockGood (bs.getD i []) i) then s
    else
      let area := bs.flatMap (fun b => b.take 256)
      (mbxEntries area).foldl (fun s e =>
        let m := e.2
        if m.kind = 3 then s.mbxAcked r m
        else if m.kind = 1 then
          let s := s.mbxAppended r m
          let x := s.ring r
          s.setRing r { x with acks := x.acks ++ [{ m with data := [], kind := 3 }] }
        else if m.kind = 4 then s.takeStamps r m.data
        else s) s

/-- A frame arrives at a ring that the device runs. A band of another master goes on unchanged (R387); what no rule allows on a ring of
this mode counts in FRAMES (R392). -/
def State.masterFrame (s : State) (r : Nat) (c : RingCfg) (portB : Bool) (arrival : Nat) (tail : BitVec 24) (body : List Byte) : State :=
  let x := s.ring r
  let t := byteAt body 0
  let mine := leAt body 12 2 = c.master && leAt body 2 2 = x.epoch
  if c.mode = 2 && (t = 3 || t = 4) then s.slotFrame r c portB arrival body
  else if !headGood body then s.badHeader r c portB arrival body
  else if (t = 1 || t = 2) && !mine then (s.foreign r (leAt body 2 2)).forwardBand r portB body tail
  else if (t = 1 && c.mode = 1) || (t = 2 && c.mode = 2) then
    if leAt body 4 6 != x.cycle then s
    else if t = 1 then s.ownBand r c portB arrival body
    else s.ownHeader r c portB arrival body
  else if t = 0x11 && mine then (if !portB && leAt body 4 6 = x.cycle then s.probeBack r arrival body else s)
  else if t = 0x10 then s
  else s.strayFrame r

/-- A frame with its delimiter arrives. -/
def State.bodyArrives (s : State) (r : Nat) (portB : Bool) (arrival : Nat) (tail : BitVec 24) (body : List Byte) : State :=
  let x := s.ring r
  match x.run, x.cfg with
  | true, some c => s.masterFrame r c portB arrival tail body
  | _, _ =>
    if x.claim.isSome || x.first.isSome then
      if headGood body && (byteAt body 0 = 1 || byteAt body 0 = 2) then s.claimLost r 4 0
      else s.forwardBand r portB body tail
    else if x.passive || x.parent then s.nodeFrame r portB arrival tail body
    else s

/-- BAND_FRAME_RECEIVED (R330, R343, R359): a frame other than a claim arrives at a port of ring r. -/
def execBandFrameReceived (r : Fin 2) (portB : Bool) (arrival : Nat) (f : RingFrame) (s : State) :
    Host.Outcome State Fault Refusal :=
  let x := s.ring r.val
  .next (if s.peer.portsOff || (if portB then x.lostB else x.lostA) then s
  else
    let s := s.framed r.val f
    if f.delimited then s.bodyArrives r.val portB arrival f.tail f.body else s)

/-! ### Ports (R345, R363) -/

/-- PORT_LOST (R345, R363): the port sends Remote Fault from now on, one lost since reset too, and a running ring goes into loopback, or
stays in it, at its next cycle start. -/
def execPortLost (r : Fin 2) (portB : Bool) (s : State) : Host.Outcome State Fault Refusal :=
  let x := s.ring r.val
  let s := s.setRing r.val { x with
    lostA := x.lostA || !portB, lostB := x.lostB || portB, faultA := x.faultA || !portB, faultB := x.faultB || portB
    wantLoop := x.wantLoop || x.run }
  .next (if if portB then x.faultB else x.faultA then s else s.portSend (.remoteFault r.val (b2n portB) true))

/-- PORT_RESTORED (R345): the Remote Fault ends, where one was sent. -/
def execPortRestored (r : Fin 2) (portB : Bool) (s : State) : Host.Outcome State Fault Refusal :=
  let x := s.ring r.val
  .next (if s.peer.portsOff then s
  else
    let s := s.setRing r.val { x with
      lostA := x.lostA && portB, lostB := x.lostB && !portB, faultA := x.faultA && portB, faultB := x.faultB && !portB }
    if if portB then x.faultB else x.faultA then s.portSend (.remoteFault r.val (b2n portB) false) else s)

end Sys2Proof.Machine
end

