-- ==== Sys2Proof/Machine/Pair.lean ====
section
/-! DEFINITION. Paired modules: forming a pair, heartbeats, the pair watchdog, checkpoints, compare failures and takeover
(R530 - R551), and the census instant at which a checkpoint is cut (R36, R537). -/

namespace Sys2Proof.Machine

/-- The units' state that an image of the unit state area stands for (R546; DESIGN CHOICE, assumption 43). -/
opaque Config.unitsOf : List Word → Option Units

/-! ### Places (R538) -/

/-- First word and length of the Crown memory range of a checkpoint (R538). -/
def cpCrown : Nat × Nat := (0x2700000, 0x100000)
/-- First word and length of the unit state area (R538). -/
def cpUnits : Nat × Nat := (0x2760000, 0x40000)
/-- First word and length of the pair area (R538). -/
def pairArea : Nat × Nat := (0x100000000, 0x2000000)
/-- Where a word of the Crown range lies in the standby's copy; the manual gives the area and not the place (DESIGN CHOICE, assumption 44). -/
def cpCopy (a : Nat) : Nat := pairArea.1 + (a - cpCrown.1)

/-- Do two runs of words overlap. -/
def runsOverlap (a b : Nat × Nat) : Bool := decide (a.1 < b.1 + b.2) && decide (b.1 < a.1 + a.2)

/-- LINK and CPOK of PAIR.STAT. -/
def State.pairLink (s : State) : Bool := bit (s.reg (offPair 0)) 33
/-- CPOK. -/
def State.pairCpok (s : State) : Bool := bit (s.reg (offPair 0)) 32

/-! ### Forming a pair (R530, R533) -/

/-- The DRAM regions of a pairing request (DESIGN CHOICE, assumption 45): pairs of words from word 5, first word and length, a length of 0 is none. -/
def pairRegions (args : List Word) : List (Nat × Nat) :=
  ((List.range 8).map (fun i => ((args.getD (2 + 2 * i) 0).toNat, (args.getD (3 + 2 * i) 0).toNat))).filter (fun r => r.2 != 0)

/-- Is a pairing request refused with RANGE (R530, R556); args are words 3 to 20 of the entry
(see assumption 45, DESIGN CHOICE). -/
def State.pairRefused (s : State) (args : List Word) (p : PeerView) : Bool :=
  let role := fld (args.getD 0 0) 35 34
  let rs := pairRegions args
  let loaded := if role = 2 then s.rfld offTimeStat 3 3 = 1 else p.loaded
  !(role = 1 || role = 2) || p.level.toNat != s.rfld offBlevel 7 0 || p.lengi.toNat != s.rfld (offHist 0) 35 32
    || rs.any (fun r => decide (r.1 < Config.dramBase) || decide (Config.dramEnd < r.1 + r.2)
      || runsOverlap r (s.histBase, s.histLen) || runsOverlap r pairArea || runsOverlap r (Config.hostArea, 0x1000000))
    || decide (0x400000 < (rs.map Prod.snd).sum) || (loaded && decide (1000000 < p.aheadNs.natAbs))

/-- The pair is formed with this module as active or standby (R530, R533, R536) (see assumption 45, DESIGN CHOICE). -/
def State.pairForm (s : State) (args : List Word) : State :=
  let w := args.getD 0 0
  let s := (s.setReg (offPair 6) (wd (fld w 3 0))).setReg (offPair 7) (args.getD 1 0)
  let s := s.setReg (offPair 0) (wd (at_ (fld w 35 34) 34))
  let s := { s with peer := {
    regions := pairRegions args, full := true, goodAt := s.elapsed, beatAt := s.elapsed
    gate := s.peer.gate, portsOff := s.peer.portsOff } }
  if fld w 35 34 = 2 then ((s.ringOut 0 false).ringOut 1 false).beginTransition 8 3 else s

/-! ### Heartbeats and the pair watchdog (R534, R535) -/

/-- HEARTBEAT_SEND (R534, R535): every 100 us; on the active module by Crown pair 0, which stands still in HALT
(see assumption 57, DEDUCED). -/
def execHeartbeatSend (s : State) : Host.Outcome State Fault Refusal :=
  .next (if (s.role = 1 || s.role = 2) && s.mode != 7 && decide (s.peer.beatAt + 100 * tUs ≤ s.elapsed) then
    let h : Heartbeat := {
      role := BitVec.ofNat 2 s.role, epoch0 := BitVec.ofNat 16 (s.ring 0).epoch, epoch1 := BitVec.ofNat 16 (s.ring 1).epoch
      time := s.t72, aheadNs := 0, checkpoint := s.reg (offPair 1) }
    { s with outbox := s.outbox ++ [Msg.heartbeat h], peer := { s.peer with beatAt := s.elapsed } }
  else s)

/-- The standby's clock follows the active module's (R80, R373, R533): it is ahead by d ns. -/
def State.pairAlign (s : State) (d : Int) : State :=
  if s.rfld offTimeStat 3 3 = 0 then
    let s := s.timeLoad ((s.now : Int) - d * tNs).toNat
    State.setRfld { s with peer := { s.peer with aligned := true } } offTimeStat 1 0 2
  else
    -- heartbeats come every 100 us
    let s := (s.steer 40000 (d * 2 ^ 16)).setRfld offTimeStat 1 0 2
    let s := s.setReg offTimeOffs (wdI (satS36 (d * 2 ^ 8)))
    let s := s.setReg offTimeDisc (wd (at_ (b2n (slews 40000 (d * 2 ^ 16))) 35))
    { s with peer := { s.peer with aligned := decide (d.natAbs ≤ 2) } }

/-- CPOK is set once a checkpoint is committed and the clock follows (R533, R536). -/
def State.setCpok (s : State) : State :=
  if s.peer.committed && s.peer.aligned then s.setRfld (offPair 0) 32 32 1 else s

/-- A good frame has come from the peer (R534): the link is up; when it has returned, the next checkpoint is full (R536)
(see assumption 57, DEDUCED). -/
def State.pairGood (s : State) : State :=
  let s := { s with peer := { s.peer with goodAt := s.elapsed, full := s.peer.full || !s.pairLink } }
  s.setRfld (offPair 0) 33 33 1

/-- HEARTBEAT_RECEIVE (R533, R534) (see assumption 57, DEDUCED). -/
def execHeartbeatReceive (h : Heartbeat) (s : State) : Host.Outcome State Fault Refusal :=
  .next (if s.role = 1 || s.role = 2 then
    let s := s.pairGood
    let s := { s with peer := { s.peer with epochs := [h.epoch0.toNat, h.epoch1.toNat] } }
    if s.role = 2 then (s.pairAlign h.aheadNs).setCpok else s
  else s)

/-- PAIR_WATCHDOG_EXPIRY (R535): 3 ms without a heartbeat close the output gate and disable the ring ports
(see assumption 57, DEDUCED). -/
def execPairWatchdogExpiry (s : State) : Host.Outcome State Fault Refusal :=
  .next (if s.role = 1 && !s.peer.portsOff && decide (s.peer.beatAt + 3 * tMs ≤ s.elapsed) then
    State.cellsOff { s with peer := { s.peer with gate := true, portsOff := true } }
  else s)

/-! ### Checkpoints: the active module (R537 - R542) -/

/-- Registers that the unit state area holds: coordinates, latches, class masks, force status, the journal, cells, band slot cells and fieldbus
ports (R538); calibration, capture and link status are each module's own (see assumption 58, DEDUCED). -/
def unitReg (o : Nat) : Bool :=
  o = offForceStat || (offJrnl 0 ≤ o && o ≤ offJrnl 2) || (0x100 ≤ o && o < 0x400) || (0x1400 ≤ o && o < 0x1440) || (0x3000 ≤ o && o < 0x5600)
    || (0x6000 ≤ o && o < 0x6140) || (0x6400 ≤ o && o < 0x7000) || (0x8000 ≤ o && o < 0xE000)

/-- The image of the unit state area: SYS.MODE and the ACTIVE level first, then the units (R13, R538)
(see assumption 43, DESIGN CHOICE). -/
def unitImage (u : Units) : List Word := wd u.mode :: wd u.level :: Config.unitWords u

/-- What hardware captures in the cell clock of the cut (R538) (see assumption 43, DESIGN CHOICE). -/
def State.cutUnits (s : State) : Units :=
  { s.restartUnits with
    regs := (s.regs.filter (fun e => unitReg e.1)), owners := s.owners, steps := s.steps, pwm := s.pwm, chops := s.chops
    convs := s.convs, ains := s.ains, cans := s.cans, streams := s.census.streams
    outs := (List.range 2).map (fun r => (s.ring r).out) }

/-- Every line of the scope (R536, R538). -/
def State.scopeLines (s : State) : List Nat :=
  ((List.range (4 * Config.quadWords / 8)).map (· + Config.quadBase / 8)
    ++ (List.range (cpCrown.2 / 8)).map (· + cpCrown.1 / 8)
    ++ s.peer.regions.flatMap (fun (r : Nat × Nat) => (List.range ((r.1 + r.2 + 7) / 8 - r.1 / 8)).map (· + r.1 / 8))).filter s.inScope

/-- The END record of a checkpoint (R540). -/
def endRecord (number lines secs : Nat) : List Byte :=
  let b := unpackBytes 5 0 ++ unpackBytes 1 2 ++ unpackBytes 39 0 ++ unpackBytes 5 number ++ unpackBytes 5 lines
    ++ unpackBytes 5 secs
  b ++ unpackBytes 4 (crc32c b)

/-- May Crown pair 0 start a cut now (R536, R537)? -/
def State.mayCut (s : State) : Bool :=
  s.role = 1 && s.pairLink && !s.peer.waiting && !s.holdup && s.exch.phase != .swapped
    && (s.mode = 3 || s.mode = 4 || s.mode = 5 || s.mode = 6 || s.mode = 11)

/-- The interval of the checkpoint before ends at this cut (R540, R551). -/
def State.endInterval (s : State) : State :=
  match s.peer.cutAt with
  | none => s
  | some t =>
    let us := min ((s.elapsed - t) / tUs) (2 ^ 18 - 1)
    let s := s.setRfld (offPair 2) 17 0 us
    if s.peer.wasFull then s else s.setRfld (offPair 3) 17 0 (max us (s.rfld (offPair 3) 17 0))

/-- The checkpoint reader takes lines through the PAIR port and makes their records (R23, R26, R540): a line that the spine or its
target poisons travels with POISON set. -/
def State.pairRecords (s : State) (ls : List Nat) : List (List Byte) × State :=
  ls.foldl (fun a l =>
    let (ws, p, t) := a.2.portRead 9 1 l 255
    (a.1 ++ [lineBytes l { t.lineMeta l with poison := p } ws], t)) ([], s)

/-- A cut, and the records of its lines (R537 - R540); all leave at the cut, so that each holds its line as it stood there
(see assumption 58, DEDUCED). -/
def State.cut (s : State) : State :=
  if !s.mayCut then s
  else
    let s := s.endInterval
    let s := s.agentWrite cpUnits.1 ((unitImage s.cutUnits).take cpUnits.2)
    let full := s.peer.full
    let lines := if full then s.scopeLines else s.peer.dirty.map Prod.fst
    let number := s.peer.number + 1
    -- what is written from now on is dirty for the next cut
    let (recs, s) := State.pairRecords { s with peer := { s.peer with dirty := [] } } lines
    let recs := recs ++ [endRecord number.toNat lines.length (s.now / tSec % 2 ^ 40)]
    let s := { s with
      outbox := s.outbox ++ recs.map Msg.pairRecord
      peer := { s.peer with
        sending := lines, full := false, wasFull := full, waiting := true, cutAt := some s.elapsed, number := number } }
    let s := (s.produce strCp lines.length).setRfld (offJrnl 0) 2 2 1
    if !full && decide (16384 < lines.length) then
      let s := s.satRfld (offPair 3) 35 18 1
      s.crownEvent 0x008 (wd (at_ 2 28)) (s.reg (offPair 0))
    else s

/-- CENSUS_INSTANT (R36, R537): the sample, and a cut if one is due (see assumption 63, DEDUCED). -/
def execCensusInstant (s : State) : Host.Outcome State Fault Refusal :=
  .next (if s.censusRuns && (s.censusDue || s.extraDue) then
    let whole := s.censusDue
    let s := s.censusTake
    if whole then s.cut else s
  else s)

/-- The records of a checkpoint that failed: some reached the standby's staging good, the others failed their check. How many, the
active module is not told (a free value; DESIGN CHOICE, assumption 46). -/
def State.cutLost (s : State) : State :=
  let n := s.peer.sending.length
  let (w, s) := s.drawWord
  let k := w.toNat % (n + 1)
  (s.deliver strCp k).drop strCp 2 (n - k)

/-- The sending set returns to the dirty set; a full checkpoint is made again in full (R541). -/
def State.cutAgain (s : State) : State :=
  { s with peer := { s.peer with
    dirty := s.peer.sending.foldl (fun t l => Tab.put false t l true) s.peer.dirty
    full := s.peer.full || s.peer.wasFull, sending := [], waiting := false } }

/-- CHECKPOINT_ACK (R540, R541) (see assumption 58, DEDUCED). -/
def execCheckpointAck (number : Word) (accepted : Bool) (s : State) : Host.Outcome State Fault Refusal :=
  .next (if s.role != 1 || !s.peer.waiting || number != s.peer.number then s
  else
    let s := s.pairGood
    let n := s.peer.sending.length
    if accepted then
      let s := (s.deliver strCp n).setReg (offPair 1) number
      let s := (s.setReg (offPair 2) (wd (at_ (min n (2 ^ 18 - 1)) 18))).setRfld (offPair 0) 32 32 1
      { s with peer := { s.peer with sending := [], waiting := false } }
    else (s.cutLost.incReg (offPair 4) 1).cutAgain)

/-! ### Checkpoints: the standby (R540, R541) -/

/-- Is a 64-byte record good (R540)? -/
def cpGood (b : List Byte) : Bool := b.length = 64 && leAt b 60 4 = crc32c (b.take 60)

/-- Line, metadata bits and words of a LINE record (R540). -/
def recordLine (b : List Byte) : Nat × Nat × List Word :=
  let n := leAt b 9 36
  (leAt b 0 5 % 2 ^ 36 / 8, leAt b 6 3, (List.range 8).map (fun i => wd (n / 2 ^ (36 * i))))

/-- A record that failed its check (R541, R542). -/
def State.recordBad (s : State) : State := (s.produce strCp 1).drop strCp 2 1

/-- CHECKPOINT_RECORD (R322, R541): the standby checks and stages a record, or keeps a mirrored journal line and acknowledges it
(see assumption 58, DEDUCED). -/
def execCheckpointRecord (mirror : Bool) (bytes : List Byte) (s : State) : Host.Outcome State Fault Refusal :=
  .next (if s.role != 2 || s.mode != 8 then s
  else if !cpGood bytes || byteAt bytes 5 != 1 then
    if mirror then s else
      let s := s.recordBad
      { s with peer := { s.peer with bad := true } }
  else
    let s := s.pairGood
    let x := recordLine bytes
    let p := s.peer
    if mirror then { s with outbox := s.outbox ++ [Msg.mirrorAck], peer := { p with mirrorNew := p.mirrorNew ++ [x] } }
    else
      let s := (s.produce strCp 1).deliver strCp 1
      -- the first record of a checkpoint: the lines mirrored before belong to its cut
      let p := if p.staging = [] then { p with mirrorOld := p.mirrorOld ++ p.mirrorNew, mirrorNew := [] } else p
      { s with peer := { p with staging := p.staging ++ [x] } })

/-- Where the standby keeps a word of a checkpoint (R541): the Crown range in the pair area, the rest at its own address. -/
def cpPlace (a : Nat) : Nat := if cpCrown.1 ≤ a ∧ a < cpCrown.1 + cpCrown.2 then cpCopy a else a

/-- The standby's copy of a staged record through the PAIR port (R23, R541): OWNER becomes CHECKPOINT, POISON and VERSION are the
record's. -/
def State.commitLine (s : State) (e : Nat × Nat × List Word) : State :=
  let b := cpPlace (8 * e.1)
  match targetOf b with
  | some _ =>
    let s := s.portWrite 9 1 (b / 8) 255 e.2.2 (e.2.1.testBit 21)
    { s with mem := s.mem.putMeta (b / 8) { s.lineMeta (b / 8) with owner := 3, version := BitVec.ofNat 8 e.2.1 } }
  | none => s

/-- The standby commits the staged checkpoint (R541, R551) (see assumption 58, DEDUCED). -/
def State.commit (s : State) (number : Word) (lines : Nat) : State :=
  let s := s.peer.staging.foldl State.commitLine s
  let us := match s.peer.cutAt with
    | some t => (s.elapsed - t) / tUs
    | none => 0
  let s := s.setReg (offPair 1) number
  let s := s.setReg (offPair 2) (wd (at_ (min lines (2 ^ 18 - 1)) 18 + min us (2 ^ 18 - 1)))
  State.setCpok { s with peer := { s.peer with
    staging := [], bad := false, committed := true, mirrorOld := [], cutAt := some s.elapsed, number := number } }

/-- CHECKPOINT_END (R541) (see assumption 58, DEDUCED). -/
def execCheckpointEnd (bytes : List Byte) (s : State) : Host.Outcome State Fault Refusal :=
  .next (if s.role != 2 || s.mode != 8 then s
  else
    let good := cpGood bytes && byteAt bytes 5 = 2
    let number := wd (leAt bytes 45 5)
    let s := if good then s.pairGood else s.recordBad
    if good && !s.peer.bad && leAt bytes 50 5 = s.peer.staging.length then
      let s := s.commit number (leAt bytes 50 5)
      { s with outbox := s.outbox ++ [Msg.checkpointAnswer number true] }
    else
      let s := s.incReg (offPair 4) 1
      { s with
        outbox := s.outbox ++ [Msg.checkpointAnswer number false]
        peer := { s.peer with staging := [], bad := false } })

/-! ### Compare failures (R545) -/

/-- What a compare failure may name (R544, R545, R550): a lane marked COMPARED, or a VALID entry of the compare table
(see assumption 39, DEDUCED). -/
def State.comparesAt (s : State) (kind index : Nat) : Bool :=
  if kind = 1 then (s.lane index).configured && (s.lane index).compared
  else decide (2 ≤ kind) && decide (kind ≤ 5) && decide (index < 64) && bit (s.word (0x2702000 + 2 * index)) 35

/-- COMPARE_FAILURE (R545): a paired active module fails and releases; another enters HALT as at an integrity fault of R38, the
first after a reset alone (see assumptions 39, 57, DEDUCED). -/
def execCompareFailure (kind : BitVec 4) (index : BitVec 10) (s : State) : Host.Outcome State Fault Refusal :=
  .next (if !s.comparesAt kind.toNat index.toNat || s.modes.inReset then s
  else
    let s := (s.setRfld (offPair 0) 29 26 kind.toNat).setRfld (offPair 0) 25 16 index.toNat
    if s.rfld offCensusStat 2 2 = 1 then s
    else
      let s := (s.setRfld offCensusStat 2 2 1).faultKind snapIntegrity
      if s.role = 1 then s.pairFail else s.halt)

/-! ### Takeover (R546 - R549) -/

/-- The Crown range takes the standby's copy (R546). -/
def State.crownRestore (s : State) : State :=
  let own (a : Nat) : Bool := cpCrown.1 ≤ a && a < cpCrown.1 + cpCrown.2 && !(0x2750000 ≤ a && a < 0x2751000)
  let mine := ((s.mem.words.map Prod.fst).filter own).map (· / 8)
  let theirs := ((s.mem.words.map (fun e => e.1 + cpCrown.1 - pairArea.1)).filter own).map (· / 8)
  (mine ++ theirs).eraseDups.foldl (fun s l =>
    let (ws, p, s) := s.agentRead (cpCopy (8 * l)) 8
    s.lineWrite l 255 ws p 1) s

/-- A mirrored INTENT or DONE line enters the journal with the POISON of its record (R67, R322, R324). The handle of an INTENT was issued, so
that the next one follows it (R312). -/
def State.mirrorRestore (s : State) (e : Nat × Nat × List Word) : State :=
  if jrnlBase ≤ 8 * e.1 ∧ 8 * e.1 < jrnlBase + 65536 then
    let s := State.portPut 4 2 (e.2.1.testBit 21) 8 s (8 * e.1) e.2.2
    let h := e.2.2.getD 1 0
    if fld (e.2.2.getD 0 0) 35 32 = 1 && decide ((h - s.reg (offJrnl 1)).toNat < 2 ^ 35) then s.setReg (offJrnl 1) h else s
  else s

/-- An open step whose RESERVED line no checkpoint has brought takes a FREE one, for which closed steps are reclaimed as R314 says
(R313; DEDUCED, assumption 47). -/
def State.reserveOpen (s : State) : State :=
  s.jOpenSteps.foldl (fun s h =>
    let s' := (State.jRoom 1 8192 s).getD s
    if (s.jFind h 4 0).isSome then s
    else match s'.jFind h 1 0, s'.jFreeLine with
    | some i, some (j, s) => (s.jPut 64 j [setFld (s.jWord i 0) 35 32 4, h, s.jWord i 2, s.jWord i 3, 0, 0, 0, 0]).2
    | _, _ => s) s

/-- A stream of the cut: what was resident is dropped under 0x07; the new active module's own resident items count on (R549)
(see assumption 58, DEDUCED). -/
def Stream.takenOver (cutS own : Stream) : Stream :=
  { produced := cutS.produced + own.resident, delivered := cutS.delivered
    dropped := Tab.put 0 cutS.dropped 7 (Tab.get 0 cutS.dropped 7 + cutS.resident), resident := own.resident }

/-- The units load from the unit state area (R546, R549) (see assumption 43, DESIGN CHOICE). -/
def State.unitsLoad (s : State) (u : Units) : State :=
  let s := (s.regs.filter (fun e => unitReg e.1)).foldl (fun s e => s.setReg e.1 (regReset e.1)) s
  let s := (u.regs.filter (fun e => unitReg e.1)).foldl (fun s e => s.setReg e.1 e.2) s
  let s := { s with owners := u.owners, cues := u.cues, spGroups := u.spGroups, axGroups := u.axGroups }
  let s := State.cancelCues s (fun _ => true) 5
  let s := { s with
    lanes := mapTab Lane.asleep u.lanes, axes := mapTab Axis.asleep u.axes, steps := u.steps, pwm := u.pwm, chops := u.chops
    convs := u.convs, ains := u.ains
    cans := mapTab (fun (c : Can) => { c with
      chosen := none, refPend := false, refMade := false
      boxes := mapTab (fun (b : Mailbox) => if b.st = 1 ∨ b.st = 2 then { b with st := 3, result := 9 } else b) c.boxes }) u.cans }
  let ax (n : Nat) : Bool := u.axes.any (fun e => e.2.st != .unconf && e.2.plane = n)
  let s := u.lanes.foldl (fun s e => if e.2.enabled && !ax e.1 then s.laneEnable e.1 (e.2.byCore.getD .host) else s) s
  let s := s.restoreCoords u.regs
  -- the standby's own history ring is emptied (R477, R549)
  let s := s.histDrop 7 false
  let s := (List.range 45).foldl (fun s i => s.setStream i (Stream.takenOver (Tab.get {} u.streams i) (s.stream i))) s
  let s := s.restoreTasks u.tasks
  let s := (s.peer.mirrorOld ++ s.peer.mirrorNew).foldl State.mirrorRestore s
  (s.setRfld (offJrnl 0) 2 2 0).jSync.reserveOpen.cellsOff

/-- DLY and DLYB come from the checkpointed station status table; the links that now pass the former active module come from stamps of
the pair port, which are free (R547, R532; DESIGN CHOICE, assumption 48). -/
def State.delaysRestore (s : State) (r n : Nat) : State :=
  let base := 0x2730000 + 0x800 * r
  let (a, s) := s.drawWord
  let (b, s) := s.drawWord
  let at3 (w : Nat) : Tab Int := (List.range n).foldl (fun t i => Tab.put 0 t (i + 1) (s36 (s.word (base + 8 * i + w)))) []
  let links : Tab Int := (List.range n).foldl (fun t i => Tab.put 0 t i (s36 (s.word (base + 8 * i + 5)))) []
  let (f, g) := (at3 3, at3 4)
  s.setRing r { s.ring r with
    fwd := f, rev := g, links := Tab.put 0 (Tab.put 0 links 0 a.toNat) n b.toNat, swept := true
    measured := (List.range n).foldl (fun t i => Tab.put (0, 0) t (i + 1) (Tab.get 0 f (i + 1), Tab.get 0 g (i + 1))) [] }

/-- A ring of the checkpoint runs from the first cycle start 20 us or more away, with a newer epoch and without a claim (R383, R546)
(see assumption 58, DEDUCED). -/
def State.ringTake (s : State) (r : Nat) (u : Units) : State :=
  let (cfg, e) := u.rings.getD r (none, 0)
  let x := s.ring r
  let seen := epochMax (epochMax e x.epoch) (s.peer.epochs.getD r 0)
  match cfg with
  | none => s
  | some c =>
    if c.mode = 0 then s
    else
      let s := s.setRing r { x with passive := false, run := false, claim := none, waiting := none, epoch := (seen + 1) % 2 ^ 16 }
      let s := s.configEffect r c
      let s := (s.delaysRestore r c.nodes).tellDelays r
      -- cycle starts lie at whole multiples of the cycle period of device time
      let per := c.cyclen * 5 * tNs / 2
      let t := s.now + 20 * tUs
      let first := s.cc + ceilDiv (ceilDiv t per * per - s.now) (5 * tNs / 2)
      s.setRing r { s.ring r with out := u.outs.getD r [], first := some first }

/-- The unit state area of the last committed checkpoint (R538, R546): its words, whether one of its lines is poisoned, and the state after
each line has been decoded (R64). -/
def State.cpImage (s : State) : List Word × Bool × State := s.agentRead (cpCopy cpUnits.1) cpUnits.2

/-- The ACTIVE level of a checkpoint (R13). -/
def imageLevel (ws : List Word) : Nat := (ws.getD 1 0).toNat

/-- The mode that a takeover enters: the checkpointed one, with EXCHANGE taken as RUN (R546). A checkpoint is cut in COMMISSION, RUN,
EXCHANGE, SAFESTOP and TEST alone (R537); a word of another mode ends in IDLE, so that no code without a mode is ever shown (R5)
(see assumption 43, DESIGN CHOICE). -/
def imageGoal (ws : List Word) : Nat :=
  let m := (ws.getD 0 0).toNat
  if m = 5 then 4 else if m = 3 ∨ m = 4 ∨ m = 6 ∨ m = 11 then m else 2

/-- A takeover (R546): T0 is now. One that is refused because the ACTIVE levels differ (R13) ends the standby's readiness as one without
a checkpoint does: CPOK is cleared and the committed checkpoint is no longer taken (see assumption 58, DEDUCED). -/
def State.takeover (s : State) (cause : Nat) : State :=
  if s.role != 2 || s.mode != 8 || s.modes.trans.isSome || s.holdup then s
  else
    -- no takeover: its cause is reported, and beside it whether the ACTIVE levels differ (R13)
    let refused (s : State) (mismatch : Bool) : State :=
      { (s.setRfld (offPair 0) 31 30 cause).setRfld (offPair 0) 32 32 0 with
        peer := { s.peer with committed := false, mismatch := mismatch } }
    let (ws, poison, t) := s.cpImage
    let u := (Config.unitsOf (ws.drop 2)).getD {}
    if !s.pairCpok then refused s false
    -- pair 0 consumes the units' state (R66)
    else if poison then (refused t false).integrityFault 6 2
    else if imageLevel ws != s.rfld offBlevel 7 0 then refused t true
    else
      let s := (t.setRfld (offPair 0) 31 30 cause).enterMode 9 7
      let s := ((s.setRfld (offPair 0) 35 34 1).setRfld (offPair 0) 33 32 0)
      let s := { s with peer := { s.peer with
        staging := [], bad := false, full := true, committed := false, cutAt := none, waiting := false, takeAt := s.elapsed
        beatAt := s.elapsed } }
      let s := s.crownRestore.unitsLoad u
      let s := { s with modes := { s.modes with resume := 2, goal := imageGoal ws, opened := [] } }
      let s := ((s.timeMaster).ringTake 0 u).ringTake 1 u
      { s with peer := { s.peer with mirrorOld := [], mirrorNew := [] } }

/-- RELEASE (R546). -/
def execRelease (s : State) : Host.Outcome State Fault Refusal := .next (s.takeover 1)

/-- PAIR_LINK_LOST (R323, R534, R536, R546): no good frame for 2 ms. -/
def execPairLinkLost (s : State) : Host.Outcome State Fault Refusal :=
  .next (if (s.role = 1 || s.role = 2) && s.pairLink && decide (s.peer.goodAt + 2 * tMs ≤ s.elapsed) then
    let s := s.setRfld (offPair 0) 33 33 0
    let s := s.crownEvent 0x008 (wd (at_ 1 28)) (s.reg (offPair 0))
    if s.role = 1 then
      let s := s.jUnmirror.setRfld (offPair 0) 32 32 0
      if s.peer.waiting then s.cutLost.cutAgain else s
    else s.takeover 2
  else s)

end Sys2Proof.Machine
end

