-- ==== Sys2Proof/Machine/Update.lean ====
section
/-! DEFINITION. Firmware update (R580 - R589), the end of a trial, and RECOVERY (R590 - R593). -/

namespace Sys2Proof.Machine

/-! ### Images (R580 - R582) -/

/-- CLASS of an image header. -/
def imgClass (h : List Word) : Nat := fld (h.getD 0 0) 27 20
/-- FULL. -/
def imgFull (h : List Word) : Bool := bit (h.getD 0 0) 19
/-- RESLEN. -/
def imgResLen (h : List Word) : Nat := (h.getD 4 0).toNat

/-- HCRC and the zero fields (step 1 of R582). -/
def headerSound (h : List Word) : Bool :=
  let w (i : Nat) : Word := h.getD i 0
  let c := imgClass h
  h.length = 256 && (w 239).toNat = crc32cWords (h.take 239)
    && fld (w 0) 18 0 = 0 && fld (w 5) 35 8 = 0 && w 6 = 0 && w 7 = 0
    && (List.range 16).all (fun i => fld (w (8 + i)) 35 32 = 0) && (List.range 16).all (fun i => fld (w (240 + i)) 35 32 = 0)
    && (List.range 205).all (fun i => w (34 + i) = 0)
    && (!(decide (1 ≤ c) && decide (c ≤ 5)) || (w (22 + 2 * c) = 0 && w (23 + 2 * c) = 0))
    && (!imgFull h || (List.range 8).all (fun i => w (8 + i) = 0))

/-- PART, CLASS and FORMAT (step 2). -/
def headerPart (h : List Word) : Bool :=
  h.getD 1 0 = 0x9636 && decide (1 ≤ imgClass h) && decide (imgClass h ≤ 5) && fld (h.getD 0 0) 35 28 = 1

/-- The signature over words 0 to 239 (step 7). -/
def headerSigned (h : List Word) : Bool :=
  Config.signatureGood ((h.take 240).flatMap wordBytes5) (((h.drop 240).take 16).flatMap wordBytes5)

/-- Is the header's compatibility good with the set that would run (R584)? -/
def State.imageFits (s : State) (h : List Word) : Bool :=
  let c := imgClass h
  setCompatible (fun k => if k = c then { header := h } else if s.store.installed.contains k then s.spareBank k else s.runBank k)

/-- Every STO output is OPEN (step 6). -/
def State.stoAllOpen (s : State) : Bool := (List.range 4).all (fun k => s.stoState k = 0)

/-- The checks of a header in the order of R582: the cause code of the first failure, or 0. In RECOVERY steps 3 to 5 are left out, and
only FULL images pass (R590). -/
def State.headerCause (s : State) (h : List Word) : Nat :=
  let rec_ := s.mode = 0
  let c := imgClass h
  if !headerSound h then 1
  else if !headerPart h then 2
  else if !rec_ && s.store.installed.any (fun k => decide (c ≤ k)) then 3
  else if rec_ && !imgFull h then 4
  else if !rec_ && (imgFull h || (h.drop 8).take 8 != hashOf (s.runBank c).words) then 4
  else if !rec_ && !s.imageFits h then 5
  else if c = 5 && !s.stoAllOpen then 6
  else if !headerSigned h then 7
  else 0

/-- Run the command words of a body (R581): the result so far grows; none for a bad command or an overrun
(see assumption 59, DEDUCED). -/
def runBody (old : List Word) (full : Bool) (len : Nat) : Nat → List Word → List Word → Option (List Word)
  | 0, _, _ => none
  | _ + 1, [], _ => none
  | fuel + 1, w :: r, acc =>
    let n := fld w 33 0
    match fld w 35 34 with
    | 1 =>
      match r with
      | [] => none
      | o :: r =>
        if full || decide (old.length < o.toNat + n) || decide (len < acc.length + n) then none
        else runBody old full len fuel r (acc ++ (old.drop o.toNat).take n)
    | 2 => if r.length < n ∨ len < acc.length + n then none else runBody old full len fuel (r.drop n) (acc ++ r.take n)
    | 3 => if n = 0 ∧ r = [] then some acc else none
    | _ => none

/-- The result of an image of header h and body: cause code and words (R581, R582) (see assumption 59, DEDUCED). -/
def State.imageResult (s : State) (h body : List Word) : Nat × List Word :=
  if 0x1000000 < imgResLen h ∨ body.length ≠ (h.getD 3 0).toNat then (8, [])
  else match runBody (s.runBank (imgClass h)).words (imgFull h) (imgResLen h) (body.length + 1) body [] with
  | none => (8, [])
  | some ws => if ws.length ≠ imgResLen h ∨ hashOf ws ≠ (h.drop 16).take 8 then (9, []) else (0, ws)

/-! ### The UPDATE request (R582 - R584) -/

/-- LASTCLASS and LASTCAUSE of UPD.STAT. -/
def State.updLast (s : State) (h : List Word) (cause : Nat) : State :=
  (s.setRfld (offUpd 0) 26 24 (imgClass h % 8)).setRfld (offUpd 0) 23 16 cause

/-- An update image outside RECOVERY: the request's status, the cause code, and the state
(see assumption 59, DEDUCED). -/
def State.updateImage (s : State) (ws : List Word) : Nat × Nat × State :=
  let h := ws.take 256
  let c := imgClass h
  let cause := s.headerCause h
  if cause != 0 then ((if cause = 3 then resNotAllowed else resRange), cause, s.updLast h cause)
  else
    let (cause, res) := s.imageResult h ((ws.drop 256).take (h.getD 3 0).toNat)
    let s := s.updLast h cause
    if cause != 0 then (resRange, cause, { s with store := { s.store with spare := Tab.put {} s.store.spare c {} } })
    else
      (resOk, 0, { s with store := { s.store with
        spare := Tab.put {} s.store.spare c ⟨h, res⟩
        installed := if s.mode = 10 then s.store.installed ++ [c] else s.store.installed } })

/-! ### The end of a trial (R586, R587) -/

/-- CONFIRM_WINDOW_EXPIRY (R587): the window ends unconfirmed; the module resets at once and falls back
(see assumption 59, DEDUCED). -/
def execConfirmWindowExpiry (s : State) : Host.Outcome State Fault Refusal :=
  .next (if bit (s.reg offSysMode) 5 && s.mode != 1 && !s.modes.inReset && decide (s.store.window ≤ s.windowUsed) then
    State.reboot { s with store := { s.store with fallback := true } } false 0xC false
  else s)

/-! ### RECOVERY (R590 - R593) -/

/-- The image received in RECOVERY ends: its cause code; a verified one is written into both banks of its class (R590)
(see assumption 59, DEDUCED). -/
def State.recoveryEnd (s : State) : Nat × State :=
  let ws := s.store.recv
  let s := { s with store := { s.store with recv := [], mseq := 0 } }
  let h := ws.take 256
  let c := imgClass h
  let cause := s.headerCause h
  if cause != 0 then (cause, s)
  else
    let (cause, res) := s.imageResult h (ws.drop 256)
    if cause != 0 then (cause, s)
    else
      let b : Bank := ⟨h, res⟩
      (0, State.setReg { s with store := { s.store with
        running := Tab.put {} s.store.running c b, spare := Tab.put {} s.store.spare c b } } (offVer c) b.version)

/-- A part of an image arrives in buffer 0 (R592): its words are taken, the buffer goes back, and the response tells the cause and the
words received so far. The header is checked once it is whole (see assumption 59, DEDUCED). -/
def State.recoveryPart (s : State) : State :=
  let ws := s.bufWords 0
  let status (cause : Nat) : Nat := if cause = 0 then resOk else resRange
  if ws = [] then
    let n := s.store.recv.length
    let (cause, s) := s.recoveryEnd
    (s.returnBuf 0).respond 0x0F (status cause) 0 [wd cause, wd n]
  else
    let before := s.store.recv.length
    let all := s.store.recv ++ ws
    let cause := if decide (before < 256) && decide (256 ≤ all.length) then s.headerCause (all.take 256) else 0
    let s := { s with store := { s.store with recv := if cause = 0 then all else [] } }
    (s.returnBuf 0).respond 0x0F (status cause) 0 [wd cause, wd all.length]

/-- Words of five bytes each (R558). -/
def words5 : Nat → List Byte → List Word
  | 0, _ => []
  | n + 1, bs => wd (packBytes (bs.take 5)) :: words5 n (bs.drop 5)

/-- The ROM's answer to a maintenance frame (R593): 0x06 or 0x15, the SEQ, and at the end of an image the cause code. -/
def State.answer (s : State) (ack : Bool) (seq : Nat) (cause : List Nat) : State :=
  { s with outbox := s.outbox ++ [Msg.maintenance
    (unpackBytes 1 (if ack then 0x06 else 0x15) ++ unpackBytes 2 seq ++ cause.flatMap (unpackBytes 1))] }

/-- MAINTENANCE_FRAME (R593) (see assumption 59, DEDUCED). -/
def execMaintenanceFrame (bytes : List Byte) (s : State) : Host.Outcome State Fault Refusal :=
  .next (if s.mode != 0 || s.modes.inReset then s
  else
    let seq := leAt bytes 0 2
    let n := leAt bytes 2 2
    let good := bytes.length = n + 8 && decide (n ≤ 1020) && n % 5 = 0 && leAt bytes (n + 4) 4 = crc32c (bytes.take (n + 4))
    let want := s.store.mseq
    if good && want != 0 && seq = (want - 1) % 65536 then s.answer true seq []
    else if !good || seq != want % 65536 then s.answer false seq []
    else if n = 0 then
      let (cause, s) := s.recoveryEnd
      s.answer true seq [cause]
    else
      let ws := words5 (n / 5) ((bytes.drop 4).take n)
      let s := { s with store := { s.store with recv := s.store.recv ++ ws, mseq := want + 1 } }
      s.answer true seq [])

end Sys2Proof.Machine
end

