-- ==== Sys2Proof/Machine/HostReq.lean ====
section
/-! DEFINITION. Requests of the host that Crown pair 0 takes from the request ring (R563 - R567, R616): one meaning for each row. -/

namespace Sys2Proof.Machine

/-! ### Entries (R563, R566) -/

/-- First word of the request entry that the device takes next. -/
def State.reqAddr (s : State) : Nat := Config.hostArea + 0x2000 + 64 * (s.host.reqci.toNat % 256)

/-- The state after the entry has been read (R64). -/
def State.reqRead (s : State) : State := s.decodes (s.reqAddr / 8) 8

/-- The words of that entry. -/
def State.reqWords (s : State) : List Word := s.words s.reqAddr 64

/-- Does the entry's check hold, with no poisoned word (R563, R566)? -/
def State.reqGood (s : State) : Bool :=
  let ws := s.reqWords
  fld (ws.getD 2 0) 31 0 = crc32cWords (ws.take 2 ++ ws.drop 3)
    && (List.range 8).all (fun i => !s.poisoned (s.reqAddr + 8 * i))

/-- May pair 0 take an entry now: one is posted, the response ring has room, and no request runs (R565, R566, R574, R592). -/
def State.mayTake (s : State) : Bool :=
  s.host.ready && s.mode != 0 && s.host.reqci != s.host.reqpi && decide ((s.host.rsppi - s.host.rspci).toNat < 256)
    && s.host.prog.isNone && s.brim.mailbox.isNone

/-- An entry as a request reads it: CODE, TAG, the buffer that it names, and its words. -/
structure ReqEntry where
  code : Nat
  tag : Word
  buf : Option Nat
  w : List Word
  deriving DecidableEq, Repr

/-- The entry that is taken (see assumption 60, DEDUCED). -/
def State.reqEntry (s : State) : ReqEntry :=
  let ws := s.reqWords
  let w0 := ws.getD 0 0
  { code := fld w0 35 28, tag := ws.getD 1 0, buf := if bit w0 11 then some (fld w0 9 0) else none, w := ws }

/-- Word i of an entry. -/
def ReqEntry.word (e : ReqEntry) (i : Nat) : Word := e.w.getD i 0

/-- What a request answers: a status and results, none while it runs on or keeps its answer; whether its buffer stays with the
device; and the state. -/
structure Answer where
  status : Option Nat
  res : List Word := []
  keep : Bool := false
  st : State

/-- The request ends: its buffer is returned unless it was filled or kept, and its response is written (R564, R567). -/
def Answer.finish (a : Answer) (e : ReqEntry) : State :=
  match a.status with
  | none => a.st
  | some n =>
    let s := match e.buf, a.keep with
      | some b, false => a.st.returnBuf b
      | _, _ => a.st
    s.respond e.code n e.tag a.res

/-- One request is taken under the row of `code`, whose arguments `sub` tells apart (R564, R566). A bad entry and an unknown code are
answered BADREQ by whichever row comes (see assumption 60, DEDUCED). -/
def takeReq (code : Nat) (sub : ReqEntry → Bool) (modes : Nat → Bool) (act : ReqEntry → State → Answer) (s : State) :
    Host.Outcome State Fault Refusal :=
  .next (if !s.mayTake then s
  else
    let u := s.reqRead
    let e := u.reqEntry
    let t : State := { u with host := { u.host with reqci := u.host.reqci + 1 } }
    if !u.reqGood then (t.drop strReq 2 1).respond e.code 6 e.tag []
    else if e.code = 0 ∨ 0x11 < e.code then
      Answer.finish { status := some 6, st := t.deliver strReq 1 } e
    else if e.code != code || !sub e then s
    else
      let t := t.deliver strReq 1
      if !modes s.mode then Answer.finish { status := some resNotAllowed, st := t } e
      else (act e t).finish e)

/-- A request that uses the buffer it names (R66, R563): RANGE without a DEVICE-owned buffer; Crown pair 0 that consumes a poisoned word of
its descriptor meets an integrity fault (see assumption 60, DEDUCED). -/
def withDesc (act : ReqEntry → Nat → State → Answer) (e : ReqEntry) (s : State) : Answer :=
  match e.buf with
  | none => { status := some resRange, st := s }
  | some b =>
    let (p, s) := s.descRead b 1
    if p then { status := some resRange, st := s.integrityFault 6 2 }
    else if !s.bufDevice b then { status := some resRange, st := s }
    else act e b s

/-- A request that reads the contents of its buffer: a poisoned word of them is an integrity fault too (R66, R563) (see assumption 60, DEDUCED). -/
def withBuf (act : ReqEntry → Nat → State → Answer) (e : ReqEntry) (s : State) : Answer :=
  withDesc (fun e b s =>
    let (p, s) := s.bufRead b
    if p then { status := some resRange, st := s.integrityFault 6 2 } else act e b s) e s

/-- An answer of a status and the state; where pair 0 has consumed a poisoned word, an integrity fault (R66, R140)
(see assumption 60, DEDUCED). -/
def answered (r : Nat × State) : Answer :=
  if r.1 = resPoisoned then { status := some resRange, st := r.2.integrityFault 6 2 } else { status := some r.1, st := r.2 }

/-- Every entry of a row's code. -/
def anyEntry (_ : ReqEntry) : Bool := true

/-- Modes of the rows that are open in all but RECOVERY, which serves no request. -/
def notRecovery (m : Nat) : Bool := m != 0

/-- Modes of the mailbox requests. -/
def mbxModes (m : Nat) : Bool := m = 3 || m = 4 || m = 5 || m = 6 || m = 11

/-! ### Programs and modes -/

/-- PROGRAM begins (R616) (see assumption 12, DESIGN CHOICE). -/
def beginProgram (e : ReqEntry) (s : State) : Answer :=
  let s := s.locWrites 64 0 (e.w.drop 8)
  let c : Core := { sp := 0x10000, stackTop := 0x10000, stackLimit := 0xFC00 }
  { status := none, st := State.setCore { s with host := { s.host with prog := some { tag := e.tag } } } 64 c }

/-- PROGRAM (R616) (see assumption 60, DEDUCED). -/
def execProgram (s : State) : Host.Outcome State Fault Refusal :=
  takeReq 1 anyEntry (fun m => m != 0 && m != 7) beginProgram s

/-- MODE (R564, R572). -/
def execModeRequest (s : State) : Host.Outcome State Fault Refusal :=
  takeReq 2 anyEntry (fun _ => true) (fun e s => answered (s.modeRequest 64 (fld (e.word 3) 3 0))) s

/-- FORCE (R237, R564). -/
def execForceRequest (s : State) : Host.Outcome State Fault Refusal :=
  takeReq 3 anyEntry (fun _ => true) (fun e s => answered (s.forceRequest 64 ((e.w.drop 3).take 4))) s

/-- EXCHANGE with an image (R225, R226): the response is given at acceptance (see assumption 60, DEDUCED). -/
def beginExchange (e : ReqEntry) (b : Nat) (s : State) : Answer :=
  if s.modes.trans.isSome then { status := some resBusy, st := s }
  else
    let (res, s) := s.exPrepare (s.bufWords b) (e.word 3).toNat (fld (e.word 4) 9 0) e.tag
    answered (res, if res = resOk then s.enterMode 5 9 else s)

/-- EXCHANGE (R225, R226). -/
def execExchange (s : State) : Host.Outcome State Fault Refusal :=
  takeReq 4 anyEntry (fun m => m = 4) (withBuf beginExchange) s

/-- TRAPRESUME (R164): the task becomes READY at the next tick. -/
def resumeTrapped (e : ReqEntry) (s : State) : Answer :=
  let n := 256 * fld (e.word 3) 9 8 + fld (e.word 3) 7 0
  let t := s.task n
  if t.st = .unused then { status := some resRange, st := s }
  else if t.st != .trapped then { status := some resNotAllowed, st := s }
  else { status := some resOk, st := s.setTask n { t with resume := true, acc := s.cc } }

/-- TRAPRESUME (R164). -/
def execTrapresume (s : State) : Host.Outcome State Fault Refusal :=
  takeReq 5 anyEntry (fun m => m = 3 || m = 11) resumeTrapped s

/-! ### Journal, history, trace, event recorder -/

/-- JOURNAL 0 (R564): the region goes into the buffer; a poisoned word of it is consumed by pair 0 (R66). -/
def dumpJournal (_ : ReqEntry) (b : Nat) (s : State) : Answer :=
  if s.bufCap b < 65536 then { status := some resRange, st := s }
  else
    let (ws, p, s) := s.agentRead jrnlBase 65536
    if p then { status := some resRange, st := s.integrityFault 6 2 }
    else { status := some resOk, keep := true, st := s.fillBuf b ws 3 1 }

/-- JOURNAL_DUMP (R564); a value of word 3 that no rule gives is RANGE. -/
def execJournalDump (s : State) : Host.Outcome State Fault Refusal :=
  takeReq 6 (fun e => e.word 3 != 1) notRecovery
    (fun e s => if e.word 3 = 0 then withDesc dumpJournal e s else { status := some resRange, st := s }) s

/-- JOURNAL_CLEAR (R328). -/
def execJournalClear (s : State) : Host.Outcome State Fault Refusal :=
  takeReq 6 (fun e => e.word 3 = 1) (fun m => m = 2) (fun _ s => { status := some resOk, st := s.jClear false }) s

/-- HISTORY 0 (R476). -/
def takeHistory (e : ReqEntry) (s : State) : Answer :=
  let n := (e.word 4).toNat
  if n = 0 ∨ 65535 < n then { status := some resRange, st := s } else { status := some resOk, st := State.histTake n s }

/-- HISTORY_TAKE (R476); a value of word 3 that no rule gives is RANGE (see assumption 60, DEDUCED). -/
def execHistoryTake (s : State) : Host.Outcome State Fault Refusal :=
  takeReq 7 (fun e => e.word 3 != 1) notRecovery
    (fun e s => if e.word 3 = 0 then takeHistory e s else { status := some resRange, st := s }) s

/-- HISTORY 1 (R470): the buffer holds the entries from signal 0 on. -/
def tableHistory (_ : ReqEntry) (b : Nat) (s : State) : Answer :=
  let ws := s.bufWords b
  let es := (List.range (ws.length / 2)).map (fun i => (i, ws.getD (2 * i) 0, ws.getD (2 * i + 1) 0))
  let (bad, s) := s.readSignals
  if bad then { status := some resRange, st := s.integrityFault 6 2 }
  else match s.setSignals es with
  | some t => { status := some resOk, st := t }
  | none => { status := some resRange, st := s }

/-- HISTORY_TABLE (R470). -/
def execHistoryTable (s : State) : Host.Outcome State Fault Refusal :=
  takeReq 7 (fun e => e.word 3 = 1) (fun m => m = 2 || m = 3) (withBuf tableHistory) s

/-- TRACE (R224): a value that the register would ignore is RANGE. -/
def writeTrace (e : ReqEntry) (s : State) : Answer :=
  let q := fld (e.word 3) 1 0
  let v := e.word 4
  if (s.reg (offTrwr q) - s.reg (offTrrd q)).toNat < (v - s.reg (offTrrd q)).toNat then { status := some resRange, st := s }
  else { status := some resOk, st := s.takeTrace q v }

/-- TRACE (R224). -/
def execTrace (s : State) : Host.Outcome State Fault Refusal := takeReq 8 anyEntry notRecovery writeTrace s

/-- EVR_SNAPSHOT (R498); a value of word 3 that no rule gives is RANGE. -/
def execEvrSnapshot (s : State) : Host.Outcome State Fault Refusal :=
  takeReq 9 (fun e => e.word 3 != 1) notRecovery (fun e s =>
    if e.word 3 = 0 then { status := some resOk, st := { s with evr := { s.evr with request := true } } }
    else { status := some resRange, st := s }) s

/-- A record of MRAM as EVR 1 returns it: a word that is 0 for a good record, 1 for an overwritten one and 2 for one whose check fails,
then the record's words, zero where there is none (R501). -/
def State.evrReturn (s : State) (n : Nat) : List Word :=
  let r := Tab.get [] s.evr.slots (evrSlot n)
  if r = [] ∨ r.getD 1 0 ≠ wd n then 1 :: List.replicate evrWords 0
  else (if recordGood r then 0 else 2) :: r

/-- EVR 1 (R501) (see assumption 52, DEDUCED). -/
def readRecords (e : ReqEntry) (b : Nat) (s : State) : Answer :=
  let n := (e.word 5).toNat
  if s.bufCap b < n * (evrWords + 1) then { status := some resRange, st := s }
  else
    let ws := (List.range n).flatMap (fun i => s.evrReturn ((e.word 4).toNat + i))
    { status := some resOk, keep := true, st := s.fillBuf b ws 4 1 }

/-- EVR_READ (R501). -/
def execEvrRead (s : State) : Host.Outcome State Fault Refusal :=
  takeReq 9 (fun e => e.word 3 = 1) notRecovery (withDesc readRecords) s

/-! ### Safety, pairing, mailbox -/

/-- Pair 0 puts a block into Brim's mailbox; the answer comes when Brim has taken it (R22, R524) (see assumption 53, DEDUCED). -/
def mailBlock (e : ReqEntry) (b : Nat) (s : State) : Answer :=
  let m : BrimMail := { words := s.bufWords b, tag := e.tag, buffer := b }
  { status := none, st := { s with brim := { s.brim with mailbox := some m } } }

/-- SAFETY (R524): the modes are Brim's to judge, at its next cycle start (see assumption 53, DEDUCED). -/
def execSafety (s : State) : Host.Outcome State Fault Refusal :=
  takeReq 0xA anyEntry (fun _ => true) (withBuf mailBlock) s

/-- PAIR (R530) (see assumption 45, DESIGN CHOICE). -/
def execPair (p : PeerView) (s : State) : Host.Outcome State Fault Refusal :=
  takeReq 0xB anyEntry (fun m => m = 2) (fun e s =>
    let args := (e.w.drop 3).take 18
    if s.modes.trans.isSome then { status := some resBusy, st := s }
    else if s.pairRefused args p then { status := some resRange, st := s }
    else { status := some resOk, st := s.pairForm args }) s

/-- MBXSEND (R332, R347, R353, R564): a message for another segment goes by the route table, and is dropped under 0x04 without a route; one
whose words are poisoned is dropped under 0x02 (see assumption 60, DEDUCED). -/
def sendMessage (e : ReqEntry) (b : Nat) (s : State) : Answer :=
  let r := fld (e.word 3) 14 14
  let dst := fld (e.word 3) 13 0
  match (s.ring r).cfg with
  | some c =>
    let n := 4 * (s.bufW b 4).toNat
    if c.mode = 0 || decide (c.mbxmax < n + 12) || (dst / 256 = c.segment && (s.posOf r dst).isNone) then
      { status := some resRange, st := s }
    else
      let (p, s) := s.bufRead b
      if p then { status := some resOk, st := (s.produce (strMbx r) 1).drop (strMbx r) 2 1 }
      else
        let data := wordsToBytes (s.bufWords b)
        match s.routeOf dst with
        | some q => { status := some resOk, st := s.mbxSend q dst c.master data }
        | none => { status := some resOk, st := (s.produce (strMbx r) 1).drop (strMbx r) 4 1 }
  | none => { status := some resRange, st := s }

/-- MBXSEND (R564). -/
def execMbxsend (s : State) : Host.Outcome State Fault Refusal := takeReq 0xC anyEntry mbxModes (withDesc sendMessage) s

/-- MBXRECV (R564): every buffer of the range is DEVICE-owned and not given yet (see assumption 60, DEDUCED). -/
def giveBuffers (e : ReqEntry) (s : State) : Answer :=
  let b := fld (e.word 3) 9 0
  let n := fld (e.word 4) 10 0
  let bs := (List.range n).map (· + b)
  let (p, s) := s.descRead b n
  if p then { status := some resRange, st := s.integrityFault 6 2 }
  else if 1024 < b + n ∨ !bs.all (fun i => s.bufDevice i && !s.mbxBufs.contains i) then { status := some resRange, st := s }
  else { status := some resOk, keep := true, st := { s with mbxBufs := s.mbxBufs ++ bs } }

/-- MBXRECV (R564). -/
def execMbxrecv (s : State) : Host.Outcome State Fault Refusal := takeReq 0xD anyEntry mbxModes giveBuffers s

/-! ### Loading, update, buffers -/

/-- LOAD (R564). -/
def execLoad (s : State) : Host.Outcome State Fault Refusal :=
  takeReq 0xE anyEntry (fun m => m = 2 || m = 3) (withBuf (fun _ b s => answered (s.loadProgram (s.bufWords b)))) s

/-- UPDATE (R582): pair 0 reads the header alone, and the body only of one that passes its checks (see assumption 59, DEDUCED). -/
def takeImage (_ : ReqEntry) (b : Nat) (s : State) : Answer :=
  let (p, s) := s.meets (s.bufAddr b) (min 256 (s.bufW b 4).toNat)
  let (q, s) := if p || s.headerCause ((s.bufWords b).take 256) != 0 then (p, s) else s.bufRead b
  if q then { status := some resRange, st := s.integrityFault 6 2 }
  else
    let (st, cause, s) := s.updateImage (s.bufWords b)
    { status := some st, res := [wd cause], st := s }

/-- UPDATE (R564, R582). -/
def execUpdate (s : State) : Host.Outcome State Fault Refusal :=
  takeReq 0xF anyEntry (fun m => m = 2 || m = 10) (withDesc takeImage) s

/-- ADDR and CAP of the buffers that BUFCFG configures (R564). -/
def cfgPairs (e : ReqEntry) (n : Nat) : List (Nat × Nat) :=
  (List.range n).map (fun i => ((e.word (5 + 2 * i)).toNat, (e.word (6 + 2 * i)).toNat))

/-- BUFCFG (R559): every descriptor is read (R66); buffers from `first` on; they overlap neither one another nor any other buffer, and lie in the buffer space. -/
def configureBuffers (e : ReqEntry) (s : State) : Answer :=
  let first := fld (e.word 3) 9 0
  let n := fld (e.word 4) 10 0
  let ps := cfgPairs e n
  let (bad, s) := s.descRead 0 1024
  let others := ((List.range 1024).filter (fun b => s.bufConf b && !(first ≤ b && b < first + n))).map
    (fun b => ((s.bufW b 2).toNat, s.bufCap b))
  if bad then { status := some resRange, st := s.integrityFault 6 2 }
  else if 29 < n ∨ 1024 < first + n ∨ !ps.all (fun p => decide (0x9000 ≤ p.1) && decide (p.1 + p.2 ≤ 0x1000000))
      ∨ anyPair (fun x y => runsOverlap x y) ps ∨ ps.any (fun p => others.any (runsOverlap p)) then
    { status := some resRange, st := s }
  else
    let s := { s with mbxBufs := s.mbxBufs.filter (fun b => !(first ≤ b && b < first + n)) }
    { status := some resOk, st := (List.range n).foldl (fun s i =>
      let p := ps.getD i (0, 0)
      s.agentWrite (bufDesc (first + i)) [wd (at_ 1 34), 0, wd p.1, wd p.2, 0, 0, 0, 0]) s }

/-- BUFCFG (R559) (see assumption 60, DEDUCED). -/
def execBufcfg (s : State) : Host.Outcome State Fault Refusal :=
  takeReq 0x10 anyEntry (fun m => m = 2 || m = 3) configureBuffers s

/-- CONFIRM (R586): while TRIAL is 1. -/
def execConfirm (s : State) : Host.Outcome State Fault Refusal :=
  takeReq 0x11 anyEntry (fun m => m != 0 && m != 7) (fun _ s =>
    if bit (s.reg offSysMode) 5 then { status := some resOk, st := s.confirmHoods }
    else { status := some resNotAllowed, st := s }) s

end Sys2Proof.Machine
end

