-- ==== Sys2Proof/Machine/HostAccess.lean ====
section
/-! DEFINITION. What the host does to BAR0 and BAR2, and resets of the link (R552 - R570). -/

namespace Sys2Proof.Machine

/-- A saturating counter word plus one. -/
def satInc (w : Word) : Word := wd (min (w.toNat + 1) (2 ^ 36 - 1))

/-- A refused doorbell (R557). -/
def State.badDoorbell (s : State) : State := { s with host := { s.host with baddb := satInc s.host.baddb } }

/-- HOST_REQPI_WRITE (R557, R565). -/
def execHostReqpiWrite (v : Word) (s : State) : Host.Outcome State Fault Refusal :=
  .next (if !s.host.ready then s
  else
    let n := (v - s.host.reqpi).toNat
    if n ≤ 256 - (s.host.reqpi - s.host.reqci).toNat then
      State.produce { s with host := { s.host with reqpi := v } } strReq n
    else s.badDoorbell)

/-- HOST_RSPCI_WRITE (R557, R567). -/
def execHostRspciWrite (v : Word) (s : State) : Host.Outcome State Fault Refusal :=
  .next (if !s.host.ready then s
  else
    let n := (v - s.host.rspci).toNat
    if n ≤ (s.host.rsppi - s.host.rspci).toNat then
      State.deliver { s with host := { s.host with rspci := v } } strRsp n
    else s.badDoorbell)

/-- A buffer whose check failed at its passing (R77, R560): its lines are poisoned, and it passes back with CRCBAD and its contents
unchanged (see assumption 61, DEDUCED). -/
def State.giveBad (s : State) (b : Nat) : State :=
  let a := s.bufAddr b
  let s := (List.range ((a + s.bufCap b + 7) / 8 - a / 8)).foldl (fun s i =>
    let l := a / 8 + i
    (s.lineWrite l 0 [] true 1)) s
  let s := (s.produce strReq 1).drop strReq 2 1
  let s := s.agentWord (bufDesc b + 1) (s.bufW b 1 + 1)
  (s.agentWord (bufDesc b) (wd (at_ 1 34 + at_ 1 33 + 6))).msix 1

/-- GIVE (R560, R562, R592): a poisoned descriptor shows no buffer that HOST owns (R66) (see assumption 61, DEDUCED). -/
def execGive (v : Word) (s : State) : Host.Outcome State Fault Refusal :=
  let b := fld v 9 0
  .next (if !s.host.ready then s
  else
    let (bad, s) := s.descRead b 1
    let w0 := s.bufW b 0
    let n := (s.bufW b 4).toNat
    if bad || s.mode = 7 || !bit w0 34 || bit w0 35 || fld v 25 10 != fld (s.bufW b 1) 15 0 || decide (s.bufCap b < n) then s.badDoorbell
    else
      let s := (s.bufRead b).2
      let good := !s.bufPoisoned b && fld (s.bufW b 5) 31 0 = crc32cWords (s.bufWords b)
      let s := s.agentWord (bufDesc b + 1) (s.bufW b 1 + 1)
      let s := s.agentWord (bufDesc b) (wd (at_ 1 35 + at_ 1 34 + fld w0 7 0))
      if !good then s.giveBad b else if s.mode = 0 && b = 0 then s.recoveryPart else s)

/-- HOST_WIN_WRITE (R557, R604): a BASE above 10,224 is ignored (see assumption 61, DEDUCED). -/
def execHostWinWrite (a : Fin 7) (v : Word) (s : State) : Host.Outcome State Fault Refusal :=
  .next (if !s.host.ready || 10224 < fld v 13 0 then s
  else { s with host := { s.host with win := Tab.put 32 s.host.win (a.val + 1) (fld v 13 0) } })

/-! ### BAR2 (R553, R554, R556) -/

/-- DRAM word of a byte offset in BAR2 (R553, R557). -/
def State.windowWord (s : State) (off : Nat) : Nat :=
  let a := off / 0x8000000
  let i := off % 0x8000000 / 8
  if a = 0 then Config.hostArea + i else Config.dramBase + Tab.get 32 s.host.win a * 0x100000 + i

/-- Does HOST own the configured buffer b? A poisoned descriptor shows none (see assumption 61, DEDUCED). -/
def State.bufHost (s : State) (b : Nat) : Bool := s.bufConf b && !bit (s.bufW b 0) 35 && !s.poisoned (bufDesc b)

/-- Is a host write to a word of the host area accepted (R556)? -/
def State.hostMayWrite (s : State) (a : Nat) : Bool :=
  let o := a - Config.hostArea
  if o < 0x2000 then (o % 8 = 4 || o % 8 = 5) && s.bufHost (o / 8)
  else if o < 0x6000 then
    -- entries from REQCI to REQPI - 1 belong to the device (R565)
    let e := (o - 0x2000) / 64
    decide ((s.host.reqpi - s.host.reqci).toNat ≤ (e + 256 - s.host.reqci.toNat % 256) % 256)
  else if o < 0x9000 then false
  else (List.range 1024).any (fun b => s.bufHost b && decide ((s.bufW b 2).toNat ≤ o) && decide (o < (s.bufW b 2).toNat + s.bufCap b))

/-- A word with those bytes replaced that a slot covers (R554). -/
def slotMerge (old : Word) (x : HostSlot) : Word :=
  wd (((List.range 5).map (fun i =>
    at_ (if x.enables.getLsbD i then fldN x.data.toNat (8 * i + 7) (8 * i) else fld old (8 * i + 7) (8 * i)) (8 * i))).sum)

/-- The part of a write that falls into line l: the slots by their word, those that are accepted (R554, R556, R67). -/
def State.windowLine (s : State) (l : Nat) (xs : List (Nat × HostSlot)) (ep : Bool) : State :=
  let full := (List.range 8).all (fun i => xs.any (fun x => x.1 = 8 * l + i && x.2.enables.toNat = 255))
  let s := State.drainWhere (fun r => r.line = l) s.spine.waiting.length s
  let data := (List.range 8).map (fun i =>
    match xs.find? (fun x => x.1 = 8 * l + i) with
    | some x => slotMerge (s.word (8 * l + i)) x.2
    | none => 0)
  let mask := ((List.range 8).map (fun i => if xs.any (fun x => x.1 = 8 * l + i) then 2 ^ i else 0)).sum
  s.portWrite 8 3 l (if full then 255 else mask) data ep

/-- A line of eight slots written in part by byte must keep the read-modify-write of R65: mask 255 is the full-line write alone, so a
line whose eight slots are all touched but not all covered is written in two halves. -/
def State.windowPut (s : State) (l : Nat) (xs : List (Nat × HostSlot)) (ep : Bool) : State :=
  let full := xs.all (fun x => x.2.enables.toNat = 255)
  if xs.length = 8 && !full then (s.windowLine l (xs.take 4) ep).windowLine l (xs.drop 4) ep else s.windowLine l xs ep

/-- HOST_WINDOW_WRITE (R554, R556, R604): a write TLP. Slots without an enabled byte write nothing; those that R556 does not accept are
discarded, and the write is counted (see assumption 61, DEDUCED). -/
def execHostWindowWrite (off : BitVec 30) (slots : List HostSlot) (ep : Bool) (s : State) : Host.Outcome State Fault Refusal :=
  .next (if !s.host.ready then s
  else
    let o := off.toNat
    let xs := (List.range slots.length).filterMap (fun i =>
      (slots[i]?).bind (fun x => if x.enables = 0 then none else some (o / 8 + i, x)))
    let ok (i : Nat) : Bool := decide (8 * i < 0x8000000) && s.hostMayWrite (Config.hostArea + i)
    let ys := (xs.filter (fun x => ok x.1)).map (fun x => (Config.hostArea + x.1, x.2))
    let ls := (ys.map (fun x => x.1 / 8)).eraseDups
    let s := if ys.length = xs.length then s else { s with host := { s.host with wrdrop := satInc s.host.wrdrop } }
    ls.foldl (fun s l => s.windowPut l (ys.filter (fun x => x.1 / 8 = l)) ep) s)

/-- HOST_WINDOW_READ (R67, R554, R604): the line of the slot at a byte offset is read; a poisoned one completes with EP
(see assumption 61, DEDUCED); before READY the read returns zero and no line is read. -/
def execHostWindowRead (off : BitVec 30) (s : State) : Host.Outcome State Fault Refusal :=
  .next (if !s.host.ready then
    { s with host := { s.host with read := 0 }, outbox := s.outbox ++ [Msg.completion (List.replicate 8 0) false] }
  else
    let a := s.windowWord off.toNat
    let (ws, p, s) := s.portRead 8 3 (a / 8) (2 ^ (a % 8))
    { s with host := { s.host with read := ws.getD (a % 8) 0 }, outbox := s.outbox ++ [Msg.completion ws p] })

/-- What the BAR0 register at a byte offset reads; those that are not listed read as zero (R557), and
before READY every one does (R604). -/
def State.hostReg (s : State) (off : Nat) : Word :=
  if !s.host.ready then 0
  else if off = 0x00 then wd Config.serial.toNat
  else if off = 0x08 then wd (Config.serial.toNat / 2 ^ 36 % 16)
  else if off = 0x10 then wd (s.mode + at_ (s.rfld offBlevel 7 0) 4 + at_ (b2n s.host.ready) 12)
  else if off = 0x20 then s.host.reqpi
  else if off = 0x28 then s.host.reqci
  else if off = 0x30 then s.host.rsppi
  else if off = 0x38 then s.host.rspci
  else if off = 0x40 then s.host.evpi
  else if off = 0x50 then s.host.baddb
  else if off = 0x58 then s.host.wrdrop
  else if 0x100 ≤ off ∧ off < 0x138 ∧ off % 8 = 0 then wd (Tab.get 32 s.host.win ((off - 0x100) / 8 + 1))
  else 0

/-- HOST_COUNTERS_READ (R557, R604): BADDB or WRDROP is returned and cleared; a read before READY returns zero and clears nothing
(see assumption 61, DEDUCED). -/
def execHostCountersRead (wrdrop : Bool) (s : State) : Host.Outcome State Fault Refusal :=
  let v := s.hostReg (if wrdrop then 0x58 else 0x50)
  .next { s with
    host := { s.host with
      read := v
      wrdrop := if wrdrop && s.host.ready then 0 else s.host.wrdrop
      baddb := if !wrdrop && s.host.ready then 0 else s.host.baddb }
    outbox := s.outbox ++ [Msg.completion [v] false] }

/-- PCIE_RESET (R570): only the endpoint's configuration space and MSI-X table are reset
(see assumption 61, DEDUCED). -/
def execPcieReset (s : State) : Host.Outcome State Fault Refusal :=
  .next { s with host := { s.host with vecAt := [], vecWait := [] } }

end Sys2Proof.Machine
end

