-- ==== Sys2Proof/Machine/Move.lean ====
section
/-! DEFINITION. Move and memory instructions (R152 - R156). -/

namespace Sys2Proof.Machine

/-- LD (R152): Gd := word at ea. -/
def execLd (c : CoreId) (f : MF) (s : State) : Host.Outcome State Fault Refusal :=
  runInstr c (encM 0x01 f) false (fun k s =>
    consume s k true (s.ea k f) 1 (fun ws s => .next (s.setG k f.d.toNat (ws.getD 0 0)))) s

/-- ST (R152): word at ea := Gd, posted. -/
def execSt (c : CoreId) (f : MF) (s : State) : Host.Outcome State Fault Refusal :=
  runInstr c (encM 0x02 f) false (fun k s => emit s k (s.ea k f) [s.g k f.d.toNat] .next) s

/-- LDD (R120): the double word at ea. -/
def execLdd (c : CoreId) (f : MF) (s : State) : Host.Outcome State Fault Refusal :=
  runInstr c (encM 0x03 f) (f.d.toNat % 2 = 1) (fun k s =>
    consume s k true (s.ea k f) 2 (fun ws s => .next (s.setGG k f.d.toNat (dword (ws.getD 0 0) (ws.getD 1 0))))) s

/-- STD (R120): double word at ea := Gd:Gd+1. -/
def execStd (c : CoreId) (f : MF) (s : State) : Host.Outcome State Fault Refusal :=
  runInstr c (encM 0x04 f) (f.d.toNat % 2 = 1) (fun k s =>
    emit s k (s.ea k f) [s.g k f.d.toNat, s.g k (f.d.toNat + 1)] .next) s

/-- LDI (R152): Gd := imm20, sign-extended. -/
def execLdi (c : CoreId) (f : IF) (s : State) : Host.Outcome State Fault Refusal :=
  runInstr c (encI 0x05 f) (f.a != 0) (fun k s => .next (s.setG k f.d.toNat (f.imm.signExtend 36))) s

/-- LDH (R152): Gd[35:20] := imm16. -/
def execLdh (c : CoreId) (f : RF) (s : State) : Host.Outcome State Fault Refusal :=
  runInstr c (encR 0x06 f) (f.a != 0 || f.b != 0) (fun k s =>
    .next (s.setG k f.d.toNat (setFld (s.g k f.d.toNat) 35 20 f.fn.toNat))) s

/-- MOV form 0 (R154): Gd := Ga. The forms 5 to 15, which the instruction does not define, raise 0x06 (R149). -/
def execMov (c : CoreId) (f : RF) (s : State) : Host.Outcome State Fault Refusal :=
  runInstr c (encR 0x07 f) (f.fn.toNat % 4096 != 0 || 5 ≤ f.fn.toNat / 4096) (fun k s => .next (s.setG k f.d.toNat (s.g k f.a.toNat))) s

/-- The value of special register n of core k (R105). -/
def State.special (s : State) (k n : Nat) : Word :=
  let c := s.core k
  match n with
  | 0 => c.pc
  | 1 => c.ib
  | 2 => c.sb
  | 3 => c.sp
  | 4 => c.fl
  | 5 => tidOf k c.task
  | 6 => c.errc
  | 7 => dhi c.acc
  | 8 => dlo c.acc
  | _ => 0

/-- Write special register n (R105, R154): FL and ERRC keep their reserved bits at zero, SP is not checked. -/
def State.setSpecial (s : State) (k n : Nat) (v : Word) : State :=
  let c := s.core k
  s.setCore k (match n with
    | 1 => { c with ib := v }
    | 2 => { c with sb := v }
    | 3 => { c with sp := v }
    | 4 => { c with fl := v &&& 0xBF }
    | 6 => { c with errc := v &&& 0xFFFF }
    | 7 => { c with acc := dword (dlo c.acc) v }
    | 8 => { c with acc := dword v (dhi c.acc) }
    | _ => c)

/-- MOV form 1 (R154): Gd := the special register whose number is in the a field; 9 to 15 raise 0x06. -/
def execMovFromSpecial (c : CoreId) (f : RF) (s : State) : Host.Outcome State Fault Refusal :=
  runInstr c (encR 0x07 f) (f.fn.toNat % 4096 != 0 || 9 ≤ f.a.toNat) (fun k s =>
    .next (s.setG k f.d.toNat (s.special k f.a.toNat))) s

/-- MOV form 2 (R154): the special register in the d field := Ga; 0, 5 and 9 to 15 raise 0x06. -/
def execMovToSpecial (c : CoreId) (f : RF) (s : State) : Host.Outcome State Fault Refusal :=
  runInstr c (encR 0x07 f) (f.fn.toNat % 4096 != 0 || 9 ≤ f.d.toNat || f.d = 0 || f.d = 5) (fun k s =>
    .next (s.setSpecial k f.d.toNat (s.g k f.a.toNat))) s

/-- MOV form 3 (R154): Gd := ACC shifted right, rounded and saturated to S36. -/
def execMovFromAcc (c : CoreId) (f : RF) (s : State) : Host.Outcome State Fault Refusal :=
  runInstr c (encR 0x07 f) (f.fn.toNat % 4096 / 64 != 0) (fun k s =>
    let x := rshRound (s.core k).acc.toInt (f.fn.toNat % 64)
    .next ((s.setG k f.d.toNat (wdI (satS36 x))).flags k { sat := x != satS36 x })) s

/-- MOV form 4 (R154): ACC := Ga sign-extended and shifted left by 0 to 35. -/
def execMovToAcc (c : CoreId) (f : RF) (s : State) : Host.Outcome State Fault Refusal :=
  runInstr c (encR 0x07 f) (f.fn.toNat % 4096 / 64 != 0 || 35 < f.fn.toNat % 64) (fun k s =>
    .next (s.setCore k { s.core k with acc := dwI (s36 (s.g k f.a.toNat) * 2 ^ (f.fn.toNat % 64)) })) s

/-- LEA (R152): Gd := ea. -/
def execLea (c : CoreId) (f : MF) (s : State) : Host.Outcome State Fault Refusal :=
  runInstr c (encM 0x08 f) false (fun k s => .next (s.setG k f.d.toNat (s.ea k f))) s

/-- PUSH (R126): SP decrements, then the word at SP := Gd; R124 checks the new SP first. -/
def execPush (c : CoreId) (f : RF) (s : State) : Host.Outcome State Fault Refusal :=
  runInstr c (encR 0x09 f) (f.a != 0 || f.b != 0 || f.fn != 0) (fun k s =>
    let sp := (s.core k).sp - 1
    if !s.spOk k sp.toNat then .flt 0x04 0 s
    else emit s k sp [s.g k f.d.toNat] (fun s => .next (s.setCore k { s.core k with sp := sp }))) s

/-- POP (R126): Gd := word at SP, then SP increments. -/
def execPop (c : CoreId) (f : RF) (s : State) : Host.Outcome State Fault Refusal :=
  runInstr c (encR 0x0A f) (f.a != 0 || f.b != 0 || f.fn != 0) (fun k s =>
    let sp := (s.core k).sp
    if !s.spOk k (sp + 1).toNat then .flt 0x04 0 s
    else consume s k true sp 1 (fun ws s =>
      let s := s.setG k f.d.toNat (ws.getD 0 0)
      .next (s.setCore k { s.core k with sp := sp + 1 }))) s

/-- CAS at its target: the word read, whether it was poisoned, and the state (R155, R156). -/
def State.casAt (s : State) (k a : Nat) (expect new : Word) : Word × Bool × State :=
  if a < 0x10000 then
    let (w, p, s) := s.locRead k a
    (w, p, if !p && w = expect then s.locWrite k a new else s)
  else
    match targetOf a with
    | none => (0, false, s)
    | some t =>
      let r := SpineReq.mk 0 (corePort k) 2 k t (a / 8) (.cas (a % 8) expect new) (2 ^ (a % 8)) [expect, new] false 0
      if directPath k t then
        let (s, ws, p) := s.perform r true
        (ws.getD (a % 8) 0, p, s)
      else
        let (ws, p, s) := (s.slot k).transact r
        (ws.getD (a % 8) 0, p, s)

/-- CAS (R155, R156): A = Ga + imm16; a match writes Gb and sets Z; Gd receives the word read. -/
def execCas (c : CoreId) (f : RF) (s : State) : Host.Outcome State Fault Refusal :=
  runInstr c (encR 0x0B f) false (fun k s =>
    let a := s.g k f.a.toNat + f.fn.signExtend 36
    match s.access k true false a.toNat with
    | .fault => .flt 0x08 a s
    | .refused => .next ((s.refuse k 4).setG k f.d.toNat 0)
    | .ok =>
      let e := s.g k f.d.toNat
      let (w, p, s) := s.casAt k a.toNat e (s.g k f.b.toNat)
      if p then .flt 0x02 a s
      else .next ((s.setG k f.d.toNat w).flags k { z := some (w = e) })) s

/-- STL (R153): the line at ea := G[d] to G[d+7]; d must be 0 or 8, ea a multiple of 8. -/
def execStl (c : CoreId) (f : MF) (s : State) : Host.Outcome State Fault Refusal :=
  runInstr c (encM 0x0C f) (f.d != 0 && f.d != 8) (fun k s =>
    let a := s.ea k f
    if a.toNat % 8 != 0 then .flt 0x08 a s
    else emit s k a ((List.range 8).map (fun i => s.g k (f.d.toNat + i))) .next) s

end Sys2Proof.Machine
end

