-- ==== Sys2Proof/Machine/TaskInstr.lean ====
section
/-! DEFINITION. Task instructions (R166 - R171): TAKE, DONE, YIELD, WAIT, POST and EVWAIT. -/

namespace Sys2Proof.Machine

/-- TAKE inside code raises 0x06 (R167); the hardware's own TAKE is the `taking` of a core without a task. -/
def execTake (c : CoreId) (s : State) : Host.Outcome State Fault Refusal :=
  runInstr c (wd (at_ 0x68 28)) true (fun _ s => .next s) s

/-- DONE (R123, R166, R209, R210); of a PROGRAM request it returns G0-G5 (R616). -/
def execDone (c : CoreId) (f : RF) (s : State) : Host.Outcome State Fault Refusal :=
  runInstr c (encR 0x69 f) (f.d != 0 || f.a != 0 || f.b != 0 || f.fn != 0) (fun k s =>
    let s := s.fence k
    match (s.core k).task with
    | some n => .left (s.runDone k n)
    | none =>
      match s.host.prog with
      | none => .left s
      | some p =>
        let res := (List.range 6).map (fun i => s.g k i)
        .left (State.setCore ({ s with host := { s.host with prog := none } }.respond 0x01 0 p.tag res) k {})) s

/-- YIELD (R122, R166): the context is saved and the task is READY in the next round. -/
def execYield (c : CoreId) (f : RF) (s : State) : Host.Outcome State Fault Refusal :=
  runInstr c (encR 0x6A f) (f.d != 0 || f.a != 0 || f.b != 0 || f.fn != 0 || c = .crown0) (fun k s =>
    let s := s.fence k
    match (s.core k).task with
    | none => .left s
    | some n =>
      let s := s.runSuspend k n ((s.core k).pc + 1) 0x08 id
      .left (if (s.task n).st = .running then s.readyNow k n else s)) s

/-- WAIT (R168): m = 0 a duration of Ga us, m = 1 the T72 in Ga:Ga+1. -/
def execWait (c : CoreId) (f : RF) (s : State) : Host.Outcome State Fault Refusal :=
  runInstr c (encR 0x6B f) (f.d != 0 || f.b != 0 || 1 < f.fn.toNat || (f.fn = 1 && f.a.toNat % 2 = 1) || c = .crown0)
    (fun k s =>
      let s := s.fence k
      match (s.core k).task with
      | none => .left s
      | some n =>
        let dl := if f.fn = 0 then s.now + (s.g k f.a.toNat).toNat * tUs else ofT72 (s.gg k f.a.toNat)
        .left (s.runSuspend k n ((s.core k).pc + 1) 0x09
          (fun t => { t with st := .delayed, deadline := some dl }))) s

/-- POST (R169): Z := 1 when the post is queued; else Z := 0, E and ERRC.REFUSE 0x04 or 0x05. -/
def execPost (c : CoreId) (f : RF) (s : State) : Host.Outcome State Fault Refusal :=
  runInstr c (encR 0x6C f) (f.d != 0 || f.fn != 0) (fun k s =>
    let s := s.fence k
    match targetOfWord (s.g k f.a.toNat) with
    | none => .next ((s.refuse k 4).flags k { z := some false })
    | some n =>
      match s.postTo n (s.g k f.b.toNat) 0 with
      | (.ok, s) => .next (s.flags k { z := some true })
      | (.full, s) => .next ((s.refuse k 5).flags k { z := some false })
      | (_, s) => .next ((s.refuse k 4).flags k { z := some false })) s

/-- EVWAIT takes fault 0x06 in a PROGRAM request, for a nonzero b, for function bits [15:2] and for m = 3 (R149, R171, R616). -/
def evBad (c : CoreId) (f : RF) : Bool := f.b != 0 || 3 ≤ f.fn.toNat || c = .crown0

/-- EVWAIT m = 0 (R171): take the oldest post at once, or suspend with a timeout of Ga us, 0 meaning none. -/
def execEvwait (c : CoreId) (f : RF) (s : State) : Host.Outcome State Fault Refusal :=
  runInstr c (encR 0x6D f) (evBad c f) (fun k s =>
    match (s.core k).task with
    | none => .next s
    | some n =>
      match s.takePost n with
      | (some p, s) => .next ((s.setG k f.d.toNat p.word).flags k { z := some false })
      | (none, s) =>
        let s := s.fence k
        let us := (s.g k f.a.toNat).toNat
        let tmo := if us = 0 then none else some (s.now + us * tUs)
        .left (s.runSuspend k n ((s.core k).pc + 1) 0x09
          (fun t => { t with st := .evwait, timeout := tmo, evReg := f.d.toNat }))) s

/-- EVWAIT m = 1, POLL (R171): never suspends. -/
def execEvwaitPoll (c : CoreId) (f : RF) (s : State) : Host.Outcome State Fault Refusal :=
  runInstr c (encR 0x6D f) (evBad c f) (fun k s =>
    match (s.core k).task with
    | none => .next s
    | some n =>
      match s.takePost n with
      | (some p, s) => .next ((s.setG k f.d.toNat p.word).flags k { z := some false })
      | (none, s) => .next ((s.setG k f.d.toNat 0).flags k { z := some true })) s

/-- EVWAIT m = 2, START (R171): Gd := the start word. -/
def execEvwaitStart (c : CoreId) (f : RF) (s : State) : Host.Outcome State Fault Refusal :=
  runInstr c (encR 0x6D f) (evBad c f) (fun k s =>
    match (s.core k).task with
    | none => .next s
    | some n => .next ((s.setG k f.d.toNat (s.task n).start).flags k { z := some false })) s

end Sys2Proof.Machine
end

