-- ==== Sys2Proof/Machine/Dispatch.lean ====
section
/-! DEFINITION. The dispatch: one arm per command, each one direct call of its meaning. -/

namespace Sys2Proof.Machine

/-- What a command does to everything but the queue. -/
def exec (i : Instr) (s : State) : Host.Outcome State Fault Refusal :=
  match i with
  | .ld c f => Sys2Proof.Machine.execLd c f s
  | .st c f => Sys2Proof.Machine.execSt c f s
  | .ldd c f => Sys2Proof.Machine.execLdd c f s
  | .std c f => Sys2Proof.Machine.execStd c f s
  | .ldi c f => Sys2Proof.Machine.execLdi c f s
  | .ldh c f => Sys2Proof.Machine.execLdh c f s
  | .mov c f => Sys2Proof.Machine.execMov c f s
  | .movFromSpecial c f => Sys2Proof.Machine.execMovFromSpecial c f s
  | .movToSpecial c f => Sys2Proof.Machine.execMovToSpecial c f s
  | .movFromAcc c f => Sys2Proof.Machine.execMovFromAcc c f s
  | .movToAcc c f => Sys2Proof.Machine.execMovToAcc c f s
  | .lea c f => Sys2Proof.Machine.execLea c f s
  | .push c f => Sys2Proof.Machine.execPush c f s
  | .pop c f => Sys2Proof.Machine.execPop c f s
  | .cas c f => Sys2Proof.Machine.execCas c f s
  | .stl c f => Sys2Proof.Machine.execStl c f s
  | .add c f => Sys2Proof.Machine.execAdd c f s
  | .sub c f => Sys2Proof.Machine.execSub c f s
  | .adds c f => Sys2Proof.Machine.execAdds c f s
  | .subs c f => Sys2Proof.Machine.execSubs c f s
  | .mul c f => Sys2Proof.Machine.execMul c f s
  | .muls c f => Sys2Proof.Machine.execMuls c f s
  | .mac c f => Sys2Proof.Machine.execMac c f s
  | .div c f => Sys2Proof.Machine.execDiv c f s
  | .rem c f => Sys2Proof.Machine.execRem c f s
  | .neg c f => Sys2Proof.Machine.execNeg c f s
  | .abs c f => Sys2Proof.Machine.execAbs c f s
  | .cmp c f => Sys2Proof.Machine.execCmp c f s
  | .min c f => Sys2Proof.Machine.execMin c f s
  | .max c f => Sys2Proof.Machine.execMax c f s
  | .clamp c f => Sys2Proof.Machine.execClamp c f s
  | .and c f => Sys2Proof.Machine.execAnd c f s
  | .or c f => Sys2Proof.Machine.execOr c f s
  | .xor c f => Sys2Proof.Machine.execXor c f s
  | .not c f => Sys2Proof.Machine.execNot c f s
  | .shl c f => Sys2Proof.Machine.execShl c f s
  | .shr c f => Sys2Proof.Machine.execShr c f s
  | .sar c f => Sys2Proof.Machine.execSar c f s
  | .rot c f => Sys2Proof.Machine.execRot c f s
  | .bset c f => Sys2Proof.Machine.execBset c f s
  | .bclr c f => Sys2Proof.Machine.execBclr c f s
  | .btst c f => Sys2Proof.Machine.execBtst c f s
  | .bext c f => Sys2Proof.Machine.execBext c f s
  | .bins c f => Sys2Proof.Machine.execBins c f s
  | .clz c f => Sys2Proof.Machine.execClz c f s
  | .popc c f => Sys2Proof.Machine.execPopc c f s
  | .fadd c f => Sys2Proof.Machine.execFadd c f s
  | .fsub c f => Sys2Proof.Machine.execFsub c f s
  | .fmul c f => Sys2Proof.Machine.execFmul c f s
  | .fdiv c f => Sys2Proof.Machine.execFdiv c f s
  | .fsqrt c f => Sys2Proof.Machine.execFsqrt c f s
  | .fcmp c f => Sys2Proof.Machine.execFcmp c f s
  | .fcvt c f => Sys2Proof.Machine.execFcvt c f s
  | .ftoi c f => Sys2Proof.Machine.execFtoi c f s
  | .itof c f => Sys2Proof.Machine.execItof c f s
  | .j c f => Sys2Proof.Machine.execJ c f s
  | .jc c f => Sys2Proof.Machine.execJc c f s
  | .call c f => Sys2Proof.Machine.execCall c f s
  | .ret c f => Sys2Proof.Machine.execRet c f s
  | .callfb c f => Sys2Proof.Machine.execCallfb c f s
  | .retfb c f => Sys2Proof.Machine.execRetfb c f s
  | .loop c f => Sys2Proof.Machine.execLoop c f s
  | .trap c f => Sys2Proof.Machine.execTrap c f s
  | .nop c f => Sys2Proof.Machine.execNop c f s
  | .fence c f => Sys2Proof.Machine.execFence c f s
  | .take c => Sys2Proof.Machine.execTake c s
  | .done c f => Sys2Proof.Machine.execDone c f s
  | .yield c f => Sys2Proof.Machine.execYield c f s
  | .wait c f => Sys2Proof.Machine.execWait c f s
  | .post c f => Sys2Proof.Machine.execPost c f s
  | .evwait c f => Sys2Proof.Machine.execEvwait c f s
  | .evwaitPoll c f => Sys2Proof.Machine.execEvwaitPoll c f s
  | .evwaitStart c f => Sys2Proof.Machine.execEvwaitStart c f s
  | .imgin c f => Sys2Proof.Machine.execImgin c f s
  | .imgout c f => Sys2Proof.Machine.execImgout c f s
  | .ior c f => Sys2Proof.Machine.execIor c f s
  | .iow c f => Sys2Proof.Machine.execIow c f s
  | .timerd c f => Sys2Proof.Machine.execTimerd c f s
  | .crd c f => Sys2Proof.Machine.execCrd c f s
  | .cue c f => Sys2Proof.Machine.execCue c f s
  | .cuexRead c f => Sys2Proof.Machine.execCuexRead c f s
  | .cuexCancel c f => Sys2Proof.Machine.execCuexCancel c f s
  | .lcfg c f => Sys2Proof.Machine.execLcfg c f s
  | .lcoef c f => Sys2Proof.Machine.execLcoef c f s
  | .lsp c f => Sys2Proof.Machine.execLsp c f s
  | .spgrpLoad c f => Sys2Proof.Machine.execSpgrpLoad c f s
  | .spgrpApply c f => Sys2Proof.Machine.execSpgrpApply c f s
  | .spgrpClear c f => Sys2Proof.Machine.execSpgrpClear c f s
  | .lstat c f => Sys2Proof.Machine.execLstat c f s
  | .segpush c f => Sys2Proof.Machine.execSegpush c f s
  | .config c f => Sys2Proof.Machine.execConfig c f s
  | .enable c f => Sys2Proof.Machine.execEnable c f s
  | .disable c f => Sys2Proof.Machine.execDisable c f s
  | .go c f => Sys2Proof.Machine.execGo c f s
  | .stop c f => Sys2Proof.Machine.execStop c f s
  | .qstop c f => Sys2Proof.Machine.execQstop c f s
  | .flush c f => Sys2Proof.Machine.execFlush c f s
  | .setpos c f => Sys2Proof.Machine.execSetpos c f s
  | .clear c f => Sys2Proof.Machine.execClear c f s
  | .gstart c f => Sys2Proof.Machine.execGstart c f s
  | .govr c f => Sys2Proof.Machine.execGovr c f s
  | .gslew c f => Sys2Proof.Machine.execGslew c f s
  | .axstat c f => Sys2Proof.Machine.execAxstat c f s
  | .jbegin c f => Sys2Proof.Machine.execJbegin c f s
  | .jprog c f => Sys2Proof.Machine.execJprog c f s
  | .jend c f => Sys2Proof.Machine.execJend c f s
  | .jquery c f => Sys2Proof.Machine.execJquery c f s
  | .recmark c f => Sys2Proof.Machine.execRecmark c f s
  | .caparm c f => Sys2Proof.Machine.execCaparm c f s
  | .mode c f => Sys2Proof.Machine.execMode c f s
  | .forceSet c f => Sys2Proof.Machine.execForceSet c f s
  | .forceRelease c f => Sys2Proof.Machine.execForceRelease c f s
  | .forceReleaseAll c f => Sys2Proof.Machine.execForceReleaseAll c f s
  | .censusCopy c f => Sys2Proof.Machine.execCensusCopy c f s
  | .censusExtraCheck c f => Sys2Proof.Machine.execCensusExtraCheck c f s
  | .ownset c f => Sys2Proof.Machine.execOwnset c f s
  | .classset c f => Sys2Proof.Machine.execClassset c f s
  | .taskset c f => Sys2Proof.Machine.execTaskset c f s
  | .codeload c f => Sys2Proof.Machine.execCodeload c f s
  | .ringset c f => Sys2Proof.Machine.execRingset c f s
  | .program => Sys2Proof.Machine.execProgram s
  | .modeRequest => Sys2Proof.Machine.execModeRequest s
  | .forceRequest => Sys2Proof.Machine.execForceRequest s
  | .exchange => Sys2Proof.Machine.execExchange s
  | .trapresume => Sys2Proof.Machine.execTrapresume s
  | .journalDump => Sys2Proof.Machine.execJournalDump s
  | .journalClear => Sys2Proof.Machine.execJournalClear s
  | .historyTake => Sys2Proof.Machine.execHistoryTake s
  | .historyTable => Sys2Proof.Machine.execHistoryTable s
  | .trace => Sys2Proof.Machine.execTrace s
  | .evrSnapshot => Sys2Proof.Machine.execEvrSnapshot s
  | .evrRead => Sys2Proof.Machine.execEvrRead s
  | .safety => Sys2Proof.Machine.execSafety s
  | .pair p => Sys2Proof.Machine.execPair p s
  | .mbxsend => Sys2Proof.Machine.execMbxsend s
  | .mbxrecv => Sys2Proof.Machine.execMbxrecv s
  | .load => Sys2Proof.Machine.execLoad s
  | .update => Sys2Proof.Machine.execUpdate s
  | .bufcfg => Sys2Proof.Machine.execBufcfg s
  | .confirm => Sys2Proof.Machine.execConfirm s
  | .hostReqpiWrite v => Sys2Proof.Machine.execHostReqpiWrite v s
  | .hostRspciWrite v => Sys2Proof.Machine.execHostRspciWrite v s
  | .give v => Sys2Proof.Machine.execGive v s
  | .hostWinWrite a v => Sys2Proof.Machine.execHostWinWrite a v s
  | .hostWindowWrite off slots ep => Sys2Proof.Machine.execHostWindowWrite off slots ep s
  | .hostWindowRead off => Sys2Proof.Machine.execHostWindowRead off s
  | .pcieReset => Sys2Proof.Machine.execPcieReset s
  | .sysBlevelWrite c v => Sys2Proof.Machine.execSysBlevelWrite c v s
  | .timeIncWrite c v => Sys2Proof.Machine.execTimeIncWrite c v s
  | .trrdWrite c q v => Sys2Proof.Machine.execTrrdWrite c q v s
  | .histTakeWrite c v => Sys2Proof.Machine.execHistTakeWrite c v s
  | .histCtrlWrite c v => Sys2Proof.Machine.execHistCtrlWrite c v s
  | .ringClaimWrite c v => Sys2Proof.Machine.execRingClaimWrite c v s
  | .brimRstreqWrite c v => Sys2Proof.Machine.execBrimRstreqWrite c v s
  | .evrSnapGo c v => Sys2Proof.Machine.execEvrSnapGo c v s
  | .updConfirmGo c v => Sys2Proof.Machine.execUpdConfirmGo c v s
  | .updWinWrite c v => Sys2Proof.Machine.execUpdWinWrite c v s
  | .adcCalGo c v => Sys2Proof.Machine.execAdcCalGo c v s
  | .jrnlRtaskWrite c v => Sys2Proof.Machine.execJrnlRtaskWrite c v s
  | .fifordWrite c p v => Sys2Proof.Machine.execFifordWrite c p v s
  | .req c p m v => Sys2Proof.Machine.execReq c p m v s
  | .cancel c p m v => Sys2Proof.Machine.execCancel c p m v s
  | .tsenWrite c p v => Sys2Proof.Machine.execTsenWrite c p v s
  | .setpwm c p v => Sys2Proof.Machine.execSetpwm c p v s
  | .pwmEnWrite c p v => Sys2Proof.Machine.execPwmEnWrite c p v s
  | .pwmShadowWrite c p k v => Sys2Proof.Machine.execPwmShadowWrite c p k v s
  | .stepPosWrite c g v => Sys2Proof.Machine.execStepPosWrite c g v s
  | .stepRunWrite c g v => Sys2Proof.Machine.execStepRunWrite c g v s
  | .adcInputWrite c n v => Sys2Proof.Machine.execAdcInputWrite c n v s
  | .adcConverterWrite c k v => Sys2Proof.Machine.execAdcConverterWrite c k v s
  | .coordDescriptorWrite c k w v => Sys2Proof.Machine.execCoordDescriptorWrite c k w v s
  | .virtValueWrite c k hi v => Sys2Proof.Machine.execVirtValueWrite c k hi v s
  | .encoderWrite c e w v => Sys2Proof.Machine.execEncoderWrite c e w v s
  | .fieldInputWrite c n v => Sys2Proof.Machine.execFieldInputWrite c n v s
  | .fieldOutputWrite c o v => Sys2Proof.Machine.execFieldOutputWrite c o v s
  | .bandSlotCellWrite c r n v => Sys2Proof.Machine.execBandSlotCellWrite c r n v s
  | .chopperPhaseWrite c f v => Sys2Proof.Machine.execChopperPhaseWrite c f v s
  | .trippedClear c n v => Sys2Proof.Machine.execTrippedClear c n v s
  | .tofaultClear c f v => Sys2Proof.Machine.execTofaultClear c f v s
  | .registerWrite c off v => Sys2Proof.Machine.execRegisterWrite c off v s
  | .corrmaxRead c d k => Sys2Proof.Machine.execCorrmaxRead c d k s
  | .lawLoadRead c d u => Sys2Proof.Machine.execLawLoadRead c d u s
  | .ringCounterRead c d r badblk => Sys2Proof.Machine.execRingCounterRead c d r badblk s
  | .ringFramesRead c d r => Sys2Proof.Machine.execRingFramesRead c d r s
  | .pairStretchRead c d => Sys2Proof.Machine.execPairStretchRead c d s
  | .adcStatsRead c d k => Sys2Proof.Machine.execAdcStatsRead c d k s
  | .pwmCountersRead c d p => Sys2Proof.Machine.execPwmCountersRead c d p s
  | .stepCountersRead c d g => Sys2Proof.Machine.execStepCountersRead c d g s
  | .fieldCountersRead c d k => Sys2Proof.Machine.execFieldCountersRead c d k s
  | .encoderQerrRead c d e => Sys2Proof.Machine.execEncoderQerrRead c d e s
  | .canCountersRead c d p k => Sys2Proof.Machine.execCanCountersRead c d p k s
  | .captureCountersRead c d u nobuf => Sys2Proof.Machine.execCaptureCountersRead c d u nobuf s
  | .hostCountersRead wrdrop => Sys2Proof.Machine.execHostCountersRead wrdrop s
  | .powerOnReset => Sys2Proof.Machine.execPowerOnReset s
  | .resetPin low recovLow => Sys2Proof.Machine.execResetPin low recovLow s
  | .holdupBegin cause => Sys2Proof.Machine.execHoldupBegin cause s
  | .holdupEnd => Sys2Proof.Machine.execHoldupEnd s
  | .modeTransitionComplete => Sys2Proof.Machine.execModeTransitionComplete s
  | .censusInstant => Sys2Proof.Machine.execCensusInstant s
  | .censusCheck => Sys2Proof.Machine.execCensusCheck s
  | .scrubVisit m => Sys2Proof.Machine.execScrubVisit m s
  | .commandBeatCrcFail tag => Sys2Proof.Machine.execCommandBeatCrcFail tag s
  | .schedulerTick => Sys2Proof.Machine.execSchedulerTick s
  | .dispatchRound q => Sys2Proof.Machine.execDispatchRound q s
  | .waitDeadline k => Sys2Proof.Machine.execWaitDeadline k s
  | .evwaitTimeout k => Sys2Proof.Machine.execEvwaitTimeout k s
  | .cycminExpiry k => Sys2Proof.Machine.execCycminExpiry k s
  | .scanWatchdogExpiry k => Sys2Proof.Machine.execScanWatchdogExpiry k s
  | .exchangeHoldStart => Sys2Proof.Machine.execExchangeHoldStart s
  | .swap => Sys2Proof.Machine.execSwap s
  | .exchangeCommit => Sys2Proof.Machine.execExchangeCommit s
  | .exchangeAbort => Sys2Proof.Machine.execExchangeAbort s
  | .cueFire n => Sys2Proof.Machine.execCueFire n s
  | .conv n => Sys2Proof.Machine.execConv n s
  | .pwmld n => Sys2Proof.Machine.execPwmld n s
  | .outset n => Sys2Proof.Machine.execOutset n s
  | .outclr n => Sys2Proof.Machine.execOutclr n s
  | .captrig n => Sys2Proof.Machine.execCaptrig n s
  | .cuePost n => Sys2Proof.Machine.execCuePost n s
  | .spgrp n => Sys2Proof.Machine.execSpgrp n s
  | .laneen n => Sys2Proof.Machine.execLaneen n s
  | .lanedis n => Sys2Proof.Machine.execLanedis n s
  | .stepgo n => Sys2Proof.Machine.execStepgo n s
  | .latch n => Sys2Proof.Machine.execLatch n s
  | .ringUpdateApply k => Sys2Proof.Machine.execRingUpdateApply k s
  | .mainsLockChange k locked mHz phase => Sys2Proof.Machine.execMainsLockChange k locked mHz phase s
  | .laneDue n => Sys2Proof.Machine.execLaneDue n s
  | .laneSample n => Sys2Proof.Machine.execLaneSample n s
  | .cycleStart r => Sys2Proof.Machine.execCycleStart r s
  | .outputAssembly r => Sys2Proof.Machine.execOutputAssembly r s
  | .bandFrameReceived r portB arrival body => Sys2Proof.Machine.execBandFrameReceived r portB arrival body s
  | .windowOpening r => Sys2Proof.Machine.execWindowOpening r s
  | .portLost r portB => Sys2Proof.Machine.execPortLost r portB s
  | .portRestored r portB => Sys2Proof.Machine.execPortRestored r portB s
  | .ringConfigEffect r => Sys2Proof.Machine.execRingConfigEffect r s
  | .ringStart r => Sys2Proof.Machine.execRingStart r s
  | .claimReceived r portB body => Sys2Proof.Machine.execClaimReceived r portB body s
  | .claimEnd r => Sys2Proof.Machine.execClaimEnd r s
  | .foreignBand r epoch => Sys2Proof.Machine.execForeignBand r epoch s
  | .freerunEntry => Sys2Proof.Machine.execFreerunEntry s
  | .barrierPacketOut => Sys2Proof.Machine.execBarrierPacketOut s
  | .barrierPacketIn p => Sys2Proof.Machine.execBarrierPacketIn p s
  | .barrierLinkLost => Sys2Proof.Machine.execBarrierLinkLost s
  | .barrierLinkRestart => Sys2Proof.Machine.execBarrierLinkRestart s
  | .fieldEdgeAccepted n level tick ticksHeld => Sys2Proof.Machine.execFieldEdgeAccepted n level tick ticksHeld s
  | .fieldOutputTrip o => Sys2Proof.Machine.execFieldOutputTrip o s
  | .encoderEdge e a b => Sys2Proof.Machine.execEncoderEdge e a b s
  | .zLatch e rising => Sys2Proof.Machine.execZLatch e rising s
  | .encoderLoss e => Sys2Proof.Machine.execEncoderLoss e s
  | .trip n run => Sys2Proof.Machine.execTrip n run s
  | .pwmReload p => Sys2Proof.Machine.execPwmReload p s
  | .converterTrigger n => Sys2Proof.Machine.execConverterTrigger n s
  | .stepCarry g => Sys2Proof.Machine.execStepCarry g s
  | .stepPulseStart g => Sys2Proof.Machine.execStepPulseStart g s
  | .chopperSwitchOn f current => Sys2Proof.Machine.execChopperSwitchOn f current s
  | .chopperDecay f current => Sys2Proof.Machine.execChopperDecay f current s
  | .tonmaxExpiry f => Sys2Proof.Machine.execTonmaxExpiry f s
  | .adcTimer k => Sys2Proof.Machine.execAdcTimer k s
  | .startArrival k => Sys2Proof.Machine.execStartArrival k s
  | .delayLineExit k => Sys2Proof.Machine.execDelayLineExit k s
  | .converterFree k => Sys2Proof.Machine.execConverterFree k s
  | .resultWrite k raw => Sys2Proof.Machine.execResultWrite k raw s
  | .calibrationDone measured => Sys2Proof.Machine.execCalibrationDone measured s
  | .canFrameValidated p f => Sys2Proof.Machine.execCanFrameValidated p f s
  | .canTxChoice p => Sys2Proof.Machine.execCanTxChoice p s
  | .canTxEnd p e => Sys2Proof.Machine.execCanTxEnd p e s
  | .busOffRecovery p => Sys2Proof.Machine.execBusOffRecovery p s
  | .referenceMessageDue p => Sys2Proof.Machine.execReferenceMessageDue p s
  | .capturePace u => Sys2Proof.Machine.execCapturePace u s
  | .captureTrigger u kind time frac => Sys2Proof.Machine.execCaptureTrigger u kind time frac s
  | .recordClose u => Sys2Proof.Machine.execRecordClose u s
  | .recordCopyDone u => Sys2Proof.Machine.execRecordCopyDone u s
  | .captureRearm u => Sys2Proof.Machine.execCaptureRearm u s
  | .triggerBusPulse l stamp frac => Sys2Proof.Machine.execTriggerBusPulse l stamp frac s
  | .busPulseDrive u => Sys2Proof.Machine.execBusPulseDrive u s
  | .segmentAgeExpiry n => Sys2Proof.Machine.execSegmentAgeExpiry n s
  | .segmentWriteDone => Sys2Proof.Machine.execSegmentWriteDone s
  | .evrFold sensors => Sys2Proof.Machine.execEvrFold sensors s
  | .snapshotWriteDone => Sys2Proof.Machine.execSnapshotWriteDone s
  | .brimCycleStart si counts => Sys2Proof.Machine.execBrimCycleStart si counts s
  | .brimDecisionPoint => Sys2Proof.Machine.execBrimDecisionPoint s
  | .discrepancy n => Sys2Proof.Machine.execDiscrepancy n s
  | .containerLost a => Sys2Proof.Machine.execContainerLost a s
  | .tmaxExpiry k => Sys2Proof.Machine.execTmaxExpiry k s
  | .switchTestPulse k lowSide pinMv loadUa => Sys2Proof.Machine.execSwitchTestPulse k lowSide pinMv loadUa s
  | .brimOscillatorCheck differencePpm => Sys2Proof.Machine.execBrimOscillatorCheck differencePpm s
  | .brimSwitchRead code storedOk => Sys2Proof.Machine.execBrimSwitchRead code storedOk s
  | .f24vMissing mv => Sys2Proof.Machine.execF24vMissing mv s
  | .brimRailLow => Sys2Proof.Machine.execBrimRailLow s
  | .heartbeatSend => Sys2Proof.Machine.execHeartbeatSend s
  | .heartbeatReceive h => Sys2Proof.Machine.execHeartbeatReceive h s
  | .pairLinkLost => Sys2Proof.Machine.execPairLinkLost s
  | .pairWatchdogExpiry => Sys2Proof.Machine.execPairWatchdogExpiry s
  | .checkpointRecord mirror bytes => Sys2Proof.Machine.execCheckpointRecord mirror bytes s
  | .checkpointEnd bytes => Sys2Proof.Machine.execCheckpointEnd bytes s
  | .checkpointAck number accepted => Sys2Proof.Machine.execCheckpointAck number accepted s
  | .mirrorAck => Sys2Proof.Machine.execMirrorAck s
  | .compareFailure kind index => Sys2Proof.Machine.execCompareFailure kind index s
  | .release => Sys2Proof.Machine.execRelease s
  | .confirmWindowExpiry => Sys2Proof.Machine.execConfirmWindowExpiry s
  | .maintenanceFrame bytes => Sys2Proof.Machine.execMaintenanceFrame bytes s
  | .crownLockstepDifference => Sys2Proof.Machine.execCrownLockstepDifference s
  | .brimLockstepMismatch => Sys2Proof.Machine.execBrimLockstepMismatch s
  | .spineTargetService m flitOk => Sys2Proof.Machine.execSpineTargetService m flitOk s
  | .transactionComplete tag => Sys2Proof.Machine.execTransactionComplete tag s
  | .creditReturn port toPort cls => Sys2Proof.Machine.execCreditReturn port toPort cls s
  | .signalSamplingPeriod n => Sys2Proof.Machine.execSignalSamplingPeriod n s
  | .canBusError p e => Sys2Proof.Machine.execCanBusError p e s
  | .encoderLossEnd e => Sys2Proof.Machine.execEncoderLossEnd e s
  | .cellClockLoss => Sys2Proof.Machine.execCellClockLoss s
  | .claimRepeat r => Sys2Proof.Machine.execClaimRepeat r s

end Sys2Proof.Machine
end

