-- ==== Sys2Proof/Machine/Tick.lean ====
section
/-! DEFINITION. One cell clock (R54, R79): what runs on its own whatever is commanded. -/

namespace Sys2Proof.Machine

/-- The reload that PWMLDs make at the end of this cell clock; the count restarts by the last of them that says so (R100, R404)
(see assumption 28, DEDUCED). -/
def State.pwmLoad (s : State) (p : Nat) : State :=
  let x := s.pair p
  let now := x.loads.filter (fun e => e.1 = s.cc + 1)
  if now.isEmpty then s
  else
    let s := if x.reloadAt = s.cc + 1 && x.held = 0 then s else s.pwmCopy p
    let y := s.pair p
    let fine := (now.filterMap Prod.snd).getLast?
    s.setPair p { y with
      loads := x.loads.filter (fun e => e.1 != s.cc + 1), driven := y.driven || s.mayDrive p
      start := if fine.isSome && s.pwmEn p then 2 else y.start, fine := fine.getD y.fine }

/-- The record of past times with cell clock cc: a new entry where the last one does not give it. No unit looks back over 2^21 cc. -/
def clocksNext (cc now inc : Nat) (l : List (Nat × Nat × Nat)) : List (Nat × Nat × Nat) :=
  match l with
  | [] => [(cc, now, inc)]
  | (c, t, i) :: r =>
    if i = inc ∧ t + (cc - c) * i = now then l
    else (cc, now, inc) :: (if c + 2 ^ 21 ≤ cc then [(c, t, i)] else (c, t, i) :: r)

/-- The device time of the next cell clock (R79, R83), with no action executed in it yet (R99). Orders of this cell clock are past;
those of a lane's next sample still wait (R43) (see assumptions 1, 62, DESIGN CHOICE). -/
def State.nextClock (s : State) : State :=
  { s with
    now := s.now + (s.reg offTimeInc).toNat, prevNow := s.now, cc := s.cc + 1, actionsDone := 0
    clocks := clocksNext s.cc s.now (s.reg offTimeInc).toNat s.clocks
    field := { s.field with forced := s.forcedOuts }
    actions := s.actions.map (fun a => if a.code = 0xB && a.held.isNone then { a with held := some s.coordValues } else a)
    orders := s.orders.filter (fun o =>
      (o.kind = 2 && (s.lane o.idx).pendEnable.isSome) || (o.kind = 3 && (s.lane o.idx).pendSp.isSome)) }

/-- The filters of the trip inputs count the cell clock that ends (R408). -/
def State.tripsTick (s : State) : State := s.trips.foldl (fun s e => s.tripClock e.1) s

/-- The instants of the module as a node of a parent ring that have come (R335). -/
def State.nodesTick (s : State) : State :=
  (List.range 2).foldl (fun s r => match (s.ring r).node with
    | some n => if n.upTo s.now = n then s else s.setRing r { s.ring r with node := some (n.upTo s.now) }
    | none => s) s

/-- One cell clock passes; nothing runs in reset (DESIGN CHOICE, assumption 1) (see assumption 62, DESIGN CHOICE). -/
def State.tick (s : State) : State :=
  if s.modes.inReset then s
  else
    let inc := (s.reg offTimeInc).toNat
    -- a store has changed the force table
    let s := if s.reg offForceStat = s.forceStat then s else s.forceSync
    -- the clock that ends: what crossed in it, and the reloads at its end
    let s := ((List.range 24).foldl State.pwmLoad (s.stopsTick.lanesTick.tripsTick).pwmEdges).pwmTick
    -- the clock that begins: encoders before the coordinates that follow them, groups before their axes, samples that end
    let s := (((List.range 4).foldl State.canClock s.nextClock).encsTick.coordsTick).groupsTick inc
    (((s.axes.foldl (fun s e => State.axisRun e.1 66 s) s).lanesEnd).stepsTick).nodesTick.msixDue

end Sys2Proof.Machine
end

