-- ==== Sys2Proof/WellFormed.lean ====
section
/-! DEFINITION. Well-formed commands: rows that share an opcode carry their form in fixed bits (R111, R154, R171, R178, R183, R196,
R298), and what comes from outside fits the place it comes from. A selector that no row defines goes to the first row of its
opcode, which raises fault 0x06 for it (R149). The other field checks that raise fault 0x06 are not here: an instruction that fails
them is well formed, runs and faults. -/

namespace Sys2Proof

/-- The form of MOV: function bits [15:12] (R154). -/
def movForm (f : RF) : Nat := f.fn.toNat / 4096

/-- The operation of CUEX and SPGRP: sel[17:16] (R178, R183). -/
def selOp (f : CF) : Nat := f.sel.toNat / 2 ^ 16 % 4

/-- The command code of AXCMD: sel[7:0] (R298). -/
def axCode (f : CF) : Nat := f.sel.toNat % 256

/-- The command codes that AXCMD defines (R298). -/
def axKnown : List Nat := [1, 2, 3, 4, 5, 6, 7, 8, 9, 0x10, 0x11, 0x12]

/-- Bytes that the DLC of a frame stands for (R454). -/
def dlcBytes (fd : Bool) (n : Nat) : Nat :=
  if n ≤ 8 then n else if fd then [12, 16, 20, 24, 32, 48, 64].getD (n - 9) 64 else 8

/-- A CAN frame that a node can send: a base identifier in [28:18] (R457), data of its length, no remote frame in FD (R454, R455). -/
def CanFrame.wf (f : CanFrame) : Bool :=
  (f.ide || f.id.toNat % 2 ^ 18 = 0) && !(f.fdf && f.rtr) && (f.fdf || !(f.brs || f.esi))
    && decide (f.data.length = (if f.rtr then 0 else dlcBytes f.fdf f.dlc.toNat))

/-- Is the command one that the row of its constructor names (see assumption 68, DESIGN CHOICE). -/
def Instr.wf : Instr → Bool
  | .mov _ f => movForm f = 0 || 5 ≤ movForm f
  | .movFromSpecial _ f => movForm f = 1
  | .movToSpecial _ f => movForm f = 2
  | .movFromAcc _ f => movForm f = 3
  | .movToAcc _ f => movForm f = 4
  | .evwait _ f => f.fn.toNat % 4 = 0 || f.fn.toNat % 4 = 3
  | .evwaitPoll _ f => f.fn.toNat % 4 = 1
  | .evwaitStart _ f => f.fn.toNat % 4 = 2
  | .cuexRead _ f => selOp f != 1
  | .cuexCancel _ f => selOp f = 1
  | .spgrpLoad _ f => selOp f = 0 || selOp f = 3
  | .spgrpApply _ f => selOp f = 1
  | .spgrpClear _ f => selOp f = 2
  | .config _ f => axCode f = 1 || !axKnown.contains (axCode f)
  | .enable _ f => axCode f = 2
  | .disable _ f => axCode f = 3
  | .go _ f => axCode f = 4
  | .stop _ f => axCode f = 5
  | .qstop _ f => axCode f = 6
  | .flush _ f => axCode f = 7
  | .setpos _ f => axCode f = 8
  | .clear _ f => axCode f = 9
  | .gstart _ f => axCode f = 0x10
  | .govr _ f => axCode f = 0x11
  | .gslew _ f => axCode f = 0x12
  | .censusCopy _ f => f.sel.toNat % 2 = 0
  | .censusExtraCheck _ f => f.sel.toNat % 2 = 1
  | .hostWindowWrite off slots _ => off.toNat % 8 = 0 && decide (slots.length ≤ 64)
      && decide (off.toNat % 0x8000000 + 8 * slots.length ≤ 0x8000000)
  | .hostWindowRead off => off.toNat % 8 = 0
  | .canFrameValidated _ f => f.frame.wf
  | .evrFold sensors => sensors.length = 14
  | .calibrationDone measured => measured.length = 256
  | _ => true

end Sys2Proof
end

