-- ==== Sys2Proof/Safety.lean ====
section
/-! DEFINITION. What a safe run is, and the terms in which claims speak of one instruction: when a core can issue it, and what it
leaves when it completes. -/

namespace Sys2Proof.Machine

/-- The front command, or the passing of a cell clock, ends in a next state. -/
def State.Steps (s : State) : Prop := ∃ t, step s = .next t

/-- n steps from s all answer next states. -/
def State.runs_safe : Nat → State → Prop
  | 0, _ => True
  | n + 1, s => ∃ t, step s = .next t ∧ State.runs_safe n t

/-! ### Instructions -/

/-- The instruction word at address a of core k is neither poisoned nor disturbed (R59, R64, R66). -/
def State.fetchClean (s : State) (k a : Nat) : Bool :=
  if k ≤ 64 then !Tab.get false s.loc.poison (locKey k a) && Tab.get 0 s.loc.errs (locKey k a) = 0
  else
    let e := Tab.get {} s.mem.errs (a / 8)
    !(s.lineMeta (a / 8)).poison && e.symbols = 0 && !e.tagWrong

/-- Core c issues an instruction: it runs a task or a PROGRAM request, its pc lies in its code region at a word that fetches
cleanly, and neither the scan watchdog (R144) nor the 10,000 instructions of a PROGRAM request (R616) have run out. -/
def coreReady (c : CoreId) (s : State) : Bool :=
  let k := coreKey c
  let x := s.core k
  s.runs k && inCode k x.pc.toNat && s.fetchClean k x.pc.toNat
  && (match x.task with
      | none => true
      | some n => !(s.task n).wdog)
  && (k != 64 || (match s.host.prog with
      | none => true
      | some p => decide (p.count + 1 < 10000)))

/-- The same for a request of R544: and the core is none of a pair of twins. -/
def requestReady (c : CoreId) (s : State) : Bool := coreReady c s && (s.twinRole (coreKey c)).isNone

/-- What an instruction of core k that completes leaves in every part of the state: core k as given, a PROGRAM request on Crown
pair 0 one instruction further, all else as before. -/
def State.instrEnd (s : State) (k : Nat) (x : Core) : State :=
  { s with
    cores := Tab.put {} s.cores k x
    host := if k = 64 then { s.host with prog := s.host.prog.map (fun p => { p with count := p.count + 1 }) } else s.host }

/-- Core k of s after the instruction at its pc, going on at the next word. -/
def State.afterI (s : State) (k : Nat) : Core := { s.core k with pc := (s.core k).pc + 1 }

/-- The same with result r in general register d. -/
def State.afterR (s : State) (k d : Nat) (r : Word) : Core :=
  { s.afterI k with g := Tab.put 0 (s.core k).g d r }

/-- The same with a result and flags. -/
def State.afterF (s : State) (k d : Nat) (r : Word) (f : FlagSet) : Core :=
  { s.afterR k d r with fl := f.apply (s.core k).fl }

/-- Instruction i of core c completes in s and leaves its core as x, and all else as before. -/
def Completes (i : Instr) (c : CoreId) (s : State) (x : Core) : Prop := exec i s = .next (s.instrEnd (coreKey c) x)

/-- Instruction i of core c, with instruction word w, takes fault `code` with ADDR a in s (R141). -/
def Faults (i : Instr) (c : CoreId) (w : Word) (s : State) (code : Nat) (a : Word) : Prop :=
  exec i s = .next (s.takeFault (coreKey c) code a w)

/-! ### Memory as a core sees it -/

/-- No request waits on the spine, no disturbance is on its links, no command beat is going to fail, and every service list holds
every port (R27). -/
def State.spineQuiet (s : State) : Bool :=
  s.spine.waiting.isEmpty && s.spine.strikes.isEmpty && s.spine.badBeats.isEmpty
    && s.spine.lists.all (fun e => (List.range 10).all (fun p => e.2.contains p))

/-- Word a is in core k's tile-local memory or in a memory that the core reaches without the spine, and neither poisoned nor
disturbed (R59, R64). -/
def State.wordClean (s : State) (k a : Nat) : Bool :=
  if a < 0x10000 then !Tab.get false s.loc.poison (locKey k a) && Tab.get 0 s.loc.errs (locKey k a) = 0
  else
    match targetOf a with
    | none => false
    | some t =>
      let e := Tab.get {} s.mem.errs (a / 8)
      directPath k t && !(s.lineMeta (a / 8)).poison && e.symbols = 0 && !e.tagWrong

/-- The words a to a + n - 1 are clean, and core k may access them, for a write if wr. -/
def State.mayReach (s : State) (k : Nat) (wr : Bool) (a : Word) (n : Nat) : Bool :=
  (List.range n).all (fun i => s.access k wr true (a + wd i).toNat = .ok && s.wordClean k (a + wd i).toNat)

/-- The word at address a of core k's address space. -/
def State.wordAt (s : State) (k a : Nat) : Word := if a < 0x10000 then s.locWord k a else s.word a

/-- Core k has stored words from address a on between s and t, and come to x: every other word of every memory, every other core
and every other part of the state is as before, but for the lines that a checkpoint must send (R539). -/
structure Stored (s t : State) (k : Nat) (x : Core) (a : Nat) (ws : List Word) : Prop where
  written : ∀ i < ws.length, t.wordAt k (a + i) = ws.getD i 0
  frame : ∀ b, b < a ∨ a + ws.length ≤ b → t.wordAt k b = s.wordAt k b
  others : ∀ j b, j ≠ k → b < 0x10000 → t.locWord j b = s.locWord j b
  lines : ∀ l, l < a / 8 ∨ (a + ws.length - 1) / 8 < l → t.lineMeta l = s.lineMeta l
  rest : t = { s.instrEnd k x with mem := t.mem, loc := t.loc, peer := { s.peer with dirty := t.peer.dirty } }

/-- Value of an F36 datum in units of 2^-280, below every normal number's last bit; an infinity lies beyond all numbers (R51). -/
def f36Value : Fp → Int
  | .nan _ => 0
  | .inf neg => sgnI neg (2 ^ 600)
  | .fin neg m e => sgnI neg m * 2 ^ (e + 280).toNat

/-- A NaN. -/
def Fp.isNan : Fp → Bool
  | .nan _ => true
  | _ => false

/-! ### Requests of the host -/

/-- Crown pair 0 takes a good request entry with this code now, in a mode that serves it (R564 - R566). -/
def State.entryFor (s : State) (code : Nat) : Bool :=
  s.mayTake && s.reqGood && decide (s.reqEntry.code = code) && s.mem.errs.isEmpty

/-- The entry is taken: REQCI rises by one and the host request stream delivers one item (R33, R566). -/
def State.taken (s : State) : State :=
  State.deliver { s with host := { s.host with reqci := s.host.reqci + 1 } } strReq 1

/-- Request i of a code is answered with a status and results, and leaves t before its response (R567). -/
def Answers (i : Instr) (s t : State) (code status : Nat) (res : List Word) : Prop :=
  exec i s = .next (t.respond code status s.reqEntry.tag res)

end Sys2Proof.Machine
end

