-- ==== Sys2Proof/Certificates/Slice0/Obligations.lean ====
section
/-! DEFINITION. The statements for the provers, made from the numbered rules of spec/. -/

open Sys2Proof Sys2Proof.Machine

/-! ### The queue (the block's step) -/

/-- A step takes the command at the front of the queue and is its meaning on the state with the queue's rest. -/
def Obligations.StepRunsFrontCommand : Prop :=
  ∀ (c : Instr) (r : List Instr) (s : State), s.pending = c :: r → step s = exec c { s with pending := r }

/-- With no command waiting, one cell clock passes: outside reset, device time advances by TIME.INC and the cell clocks since
reset by one (R54, R79), and no core changes; no memory and no task changes while no mode transition, trip input, axis or
lane is at work and FORCE.STAT follows the force table; in reset nothing changes. That an empty queue is a cell clock is the
model's choice (assumption 1). -/
def Obligations.IdleStepIsOneCellClock : Prop :=
  ∀ s : State, s.pending = [] →
    ∃ t, step s = .next t ∧ t.pending = [] ∧
      (s.modes.inReset = true → t = s) ∧
      (s.modes.inReset = false → t.now = s.now + (s.reg offTimeInc).toNat ∧ t.prevNow = s.now ∧ t.cc = s.cc + 1 ∧
        t.cores = s.cores ∧
        (s.modes.trans = none → s.trips = [] → s.axes = [] → s.lanes = [] → s.reg offForceStat = s.forceStat →
          t.mem = s.mem ∧ t.tasks = s.tasks))

/-- Every command in every state answers a next state. No run ends: from every state, every number of steps answers next
states. -/
def Obligations.EveryCommandAnswersNext : Prop :=
  (∀ (i : Instr) (s : State), ∃ t, exec i s = .next t) ∧
  (∀ (n : Nat) (s : State), State.runs_safe n s)

/-- The queue is first in, first out and only the sender fills it: no meaning takes from it, adds to it or reorders it. -/
def Obligations.CommandsLeaveQueue : Prop := ∀ (i : Instr) (s t : State), exec i s = .next t → t.pending = s.pending

/-- Every step keeps the canonical form of the line memories. -/
def Obligations.StepKeepsMemoryForm : Prop :=
  ∀ s t : State, s.mem.wf = true → step s = .next t → t.mem.wf = true

/-! ### Flags -/

/-- Completion (exec answers a next state with the own effect, on conditions of state and operands alone) of add, sub, cmp.
What a flag set does to FL (R106): each flag that it names takes the value, every other bit stays, and S is only ever set.
ADD, SUB and CMP (R157), register and immediate forms: the result modulo 2^36, C the carry or the absence of a borrow, V when
the exact value lies outside S36; nothing else changes. -/
def Obligations.AddSubCompare : Prop :=
  (∀ (f : FlagSet) (fl : Word) (i : Nat), i < 36 →
     (f.apply fl).getLsbD i =
       (if i = 0 then f.z.getD (fl.getLsbD 0)
        else if i = 1 then f.n.getD (fl.getLsbD 1)
        else if i = 2 then f.c.getD (fl.getLsbD 2)
        else if i = 3 then f.v.getD (fl.getLsbD 3)
        else if i = 4 then f.sat || fl.getLsbD 4
        else fl.getLsbD i)) ∧
  (∀ (c : CoreId) (f : RIF) (s : State), coreReady c s = true → riBad f = false →
     let k := coreKey c
     let a := s.riA k f
     let b := s.riB k f
     Completes (.add c f) c s (s.afterF k (riD f) (a + b)
       { z := some (decide (a + b = 0)), n := some (a + b).msb, c := some (decide (2 ^ 36 ≤ a.toNat + b.toNat))
         v := some (decide (a.toInt + b.toInt < -2 ^ 35 ∨ 2 ^ 35 ≤ a.toInt + b.toInt)) }) ∧
     Completes (.sub c f) c s (s.afterF k (riD f) (a - b)
       { z := some (decide (a = b)), n := some (a - b).msb, c := some (decide (b.toNat ≤ a.toNat))
         v := some (decide (a.toInt - b.toInt < -2 ^ 35 ∨ 2 ^ 35 ≤ a.toInt - b.toInt)) }) ∧
     (riD f = 0 → Completes (.cmp c f) c s { s.afterI k with
       fl := FlagSet.apply
         { z := some (decide (a = b)), n := some (a - b).msb, c := some (decide (b.toNat ≤ a.toNat))
           v := some (decide (a.toInt - b.toInt < -2 ^ 35 ∨ 2 ^ 35 ≤ a.toInt - b.toInt)) } (s.core k).fl }))

/-! ### Integer and fixed-point instructions (R157, R158) -/

/-- Completion (exec answers a next state with the own effect, on conditions of state and operands alone) of adds, subs, min,
max, mul, muls, mac. ADDS, SUBS, MIN and MAX (R157), register and immediate forms: the register holds r, the exact sum or
difference clamped to S36, or the signed minimum or maximum; V and S tell that the clamp changed the value. MUL, MULS and MAC
(R151, R157, R158): products of 72 bits; MULS and MAC round a shifted product to nearest, ties toward plus infinity, and
saturate; MAC writes ACC alone. -/
def Obligations.SaturatingSumsAndProducts : Prop :=
  (∀ (c : CoreId) (f : RIF) (s : State), coreReady c s = true → riBad f = false →
     let k := coreKey c
     let a := s.riA k f
     let b := s.riB k f
     (∀ r : Word, r.toInt = max (-2 ^ 35) (min (2 ^ 35 - 1) (a.toInt + b.toInt)) →
       Completes (.adds c f) c s (s.afterF k (riD f) r
         { z := some (decide (r = 0)), n := some r.msb, c := some (decide (2 ^ 36 ≤ a.toNat + b.toNat))
           v := some (decide (r.toInt ≠ a.toInt + b.toInt)), sat := decide (r.toInt ≠ a.toInt + b.toInt) })) ∧
     (∀ r : Word, r.toInt = max (-2 ^ 35) (min (2 ^ 35 - 1) (a.toInt - b.toInt)) →
       Completes (.subs c f) c s (s.afterF k (riD f) r
         { z := some (decide (r = 0)), n := some r.msb, c := some (decide (b.toNat ≤ a.toNat))
           v := some (decide (r.toInt ≠ a.toInt - b.toInt)), sat := decide (r.toInt ≠ a.toInt - b.toInt) })) ∧
     (∀ r : Word, r.toInt = min a.toInt b.toInt →
       Completes (.min c f) c s (s.afterF k (riD f) r { z := some (decide (r = 0)), n := some r.msb })) ∧
     (∀ r : Word, r.toInt = max a.toInt b.toInt →
       Completes (.max c f) c s (s.afterF k (riD f) r { z := some (decide (r = 0)), n := some r.msb }))) ∧
  (∀ (c : CoreId) (f : RF) (s : State), coreReady c s = true →
     let k := coreKey c
     let x := (s.g k f.a.toNat).toInt * (s.g k f.b.toNat).toInt
     let sh := f.fn.toNat % 64
     let p := if sh = 0 then x else (x + 2 ^ (sh - 1)) / 2 ^ sh
     let acc := (if f.fn.getLsbD 7 then 0 else (s.core k).acc.toInt) + (if f.fn.getLsbD 6 then -p else p)
     (f.fn = 0 → Completes (.mul c f) c s (s.afterF k f.d.toNat (BitVec.ofInt 36 x)
       { z := some (decide (BitVec.ofInt 36 x = 0)), n := some (BitVec.ofInt 36 x).msb
         v := some (decide (x < -2 ^ 35 ∨ 2 ^ 35 ≤ x)) })) ∧
     (∀ r : Word, f.fn.toNat ≤ 35 → r.toInt = max (-2 ^ 35) (min (2 ^ 35 - 1) p) →
       Completes (.muls c f) c s (s.afterF k f.d.toNat r
         { z := some (decide (r = 0)), n := some r.msb, sat := decide (r.toInt ≠ p) })) ∧
     (∀ r : DWord, f.d = 0 → f.fn.toNat < 256 → r.toInt = max (-2 ^ 71) (min (2 ^ 71 - 1) acc) →
       Completes (.mac c f) c s { s.afterI k with
         acc := r
         fl := FlagSet.apply { z := some (decide (r = 0)), n := some r.msb, sat := decide (r.toInt ≠ acc) } (s.core k).fl }))

/-- Completion (exec answers a next state with the own effect, on conditions of state and operands alone) of div, rem, neg,
abs, clamp. DIV, REM, NEG, ABS and CLAMP (R157, R108): the quotient truncated toward zero and clamped, the remainder with the
sign of the dividend, and with DZT at 0 a zero divisor saturates, returns the dividend, and sets V and S. -/
def Obligations.DivideNegateClamp : Prop :=
  ∀ (c : CoreId) (f : RF) (s : State), coreReady c s = true → f.fn = 0 →
    let k := coreKey c
    let a := (s.g k f.a.toNat).toInt
    let b := (s.g k f.b.toNat).toInt
    let d := (s.g k f.d.toNat).toInt
    let dzt := (s.core k).fl.getLsbD 7
    (∀ r : Word, b ≠ 0 → r.toInt = min (2 ^ 35 - 1) (a.tdiv b) →
      Completes (.div c f) c s (s.afterF k f.d.toNat r
        { z := some (decide (r = 0)), n := some r.msb, v := some (decide (r.toInt ≠ a.tdiv b))
          sat := decide (r.toInt ≠ a.tdiv b) })) ∧
    (∀ r : Word, b = 0 → dzt = false → r.toInt = (if 0 ≤ a then 2 ^ 35 - 1 else -2 ^ 35) →
      Completes (.div c f) c s (s.afterF k f.d.toNat r
        { z := some (decide (r = 0)), n := some r.msb, v := some true, sat := true })) ∧
    (∀ r : Word, b ≠ 0 → r.toInt = a.tmod b →
      Completes (.rem c f) c s (s.afterF k f.d.toNat r
        { z := some (decide (r = 0)), n := some r.msb, v := some false })) ∧
    (∀ r : Word, b = 0 → dzt = false → r.toInt = a →
      Completes (.rem c f) c s (s.afterF k f.d.toNat r
        { z := some (decide (r = 0)), n := some r.msb, v := some true, sat := true })) ∧
    (∀ r : Word, r.toInt = min (2 ^ 35 - 1) (-a) →
      Completes (.neg c f) c s (s.afterF k f.d.toNat r
        { z := some (decide (r = 0)), n := some r.msb, v := some (decide (a = -2 ^ 35)), sat := decide (a = -2 ^ 35) })) ∧
    (∀ r : Word, r.toInt = min (2 ^ 35 - 1) |a| →
      Completes (.abs c f) c s (s.afterF k f.d.toNat r
        { z := some (decide (r = 0)), n := some r.msb, v := some (decide (a = -2 ^ 35)), sat := decide (a = -2 ^ 35) })) ∧
    (∀ r : Word, r.toInt = (if d < a then a else if b < a then a else if b < d then b else d) →
      Completes (.clamp c f) c s (s.afterF k f.d.toNat r
        { z := some (decide (r = 0)), n := some r.msb, sat := decide (r.toInt ≠ d) }))

/-! ### Bit instructions (R159) -/

/-- Completion (exec answers a next state with the own effect, on conditions of state and operands alone) of and, or, xor,
not, bset, bclr, btst, bext, bins, shl, shr, sar, rot, clz, popc. AND, OR, XOR, NOT, BSET, BCLR, BTST, BEXT and BINS (R159),
bit by bit: the register holds the word r whose bits the rule gives. The shifts, CLZ and POPC (R159): the amount comes from
Gb[5:0] when function[6] is 1, and else from function[5:0]; C is the last bit shifted out. -/
def Obligations.BitwiseAndShifts : Prop :=
  ((∀ (c : CoreId) (f : RIF) (s : State) (r : Word), coreReady c s = true → riBad f = false →
     let k := coreKey c
     let a := s.riA k f
     let b := s.riB k f
     let t := s.afterF k (riD f) r { z := some (decide (r = 0)), n := some r.msb }
     ((∀ i < 36, r.getLsbD i = (a.getLsbD i && b.getLsbD i)) → Completes (.and c f) c s t) ∧
     ((∀ i < 36, r.getLsbD i = (a.getLsbD i || b.getLsbD i)) → Completes (.or c f) c s t) ∧
     ((∀ i < 36, r.getLsbD i = (a.getLsbD i != b.getLsbD i)) → Completes (.xor c f) c s t)) ∧
   (∀ (c : CoreId) (f : RF) (s : State) (r : Word), coreReady c s = true →
     let k := coreKey c
     let a := s.g k f.a.toNat
     let d := s.g k f.d.toNat
     let n := f.fn.toNat % 64
     let w := f.fn.toNat / 64 % 64
     let t := s.afterF k f.d.toNat r { z := some (decide (r = 0)), n := some r.msb }
     (f.fn = 0 → (∀ i < 36, r.getLsbD i = !a.getLsbD i) → Completes (.not c f) c s t) ∧
     (f.fn.toNat < 36 → (∀ i < 36, r.getLsbD i = (decide (i = n) || a.getLsbD i)) → Completes (.bset c f) c s t) ∧
     (f.fn.toNat < 36 → (∀ i < 36, r.getLsbD i = (!decide (i = n) && a.getLsbD i)) → Completes (.bclr c f) c s t) ∧
     (f.fn.toNat < 36 → f.d = 0 → Completes (.btst c f) c s { s.afterI k with
       fl := FlagSet.apply { z := some !(a.getLsbD n) } (s.core k).fl }) ∧
     (f.fn.toNat < 2 ^ 13 → 1 ≤ w → n + w ≤ 36 →
       (∀ i < 36, r.getLsbD i = (if i < w then a.getLsbD (n + i) else f.fn.getLsbD 12 && a.getLsbD (n + w - 1))) →
       Completes (.bext c f) c s t) ∧
     (f.fn.toNat < 2 ^ 12 → 1 ≤ w → n + w ≤ 36 →
       (∀ i < 36, r.getLsbD i = (if n ≤ i ∧ i < n + w then a.getLsbD (i - n) else d.getLsbD i)) →
       Completes (.bins c f) c s t))) ∧
  (∀ (c : CoreId) (f : RF) (s : State) (r : Word), coreReady c s = true →
     let k := coreKey c
     let a := s.g k f.a.toNat
     let n := if f.fn.getLsbD 6 then (s.g k f.b.toNat).toNat % 64 else f.fn.toNat % 64
     let t := fun cy => s.afterF k f.d.toNat r { z := some (decide (r = 0)), n := some r.msb, c := some cy }
     (f.fn.toNat < 128 → r.toNat = a.toNat * 2 ^ n % 2 ^ 36 →
       Completes (.shl c f) c s (t (decide (1 ≤ n ∧ n ≤ 36) && a.getLsbD (36 - n)))) ∧
     (f.fn.toNat < 128 → r.toNat = a.toNat / 2 ^ n →
       Completes (.shr c f) c s (t (decide (1 ≤ n ∧ n ≤ 36) && a.getLsbD (n - 1)))) ∧
     (f.fn.toNat < 128 → r.toInt = a.toInt / 2 ^ n →
       Completes (.sar c f) c s (t (decide (1 ≤ n) && (if n ≤ 36 then a.getLsbD (n - 1) else a.msb)))) ∧
     (f.fn.toNat < 128 → (∀ i < 36, r.getLsbD ((i + n) % 36) = a.getLsbD i) →
       Completes (.rot c f) c s (t (decide (1 ≤ n) && r.getLsbD 0))) ∧
     (f.fn = 0 → r.toNat ≤ 36 → (∀ i < 36, 36 - r.toNat ≤ i → a.getLsbD i = false) →
       (r.toNat < 36 → a.getLsbD (35 - r.toNat) = true) →
       Completes (.clz c f) c s (s.afterF k f.d.toNat r { z := some (decide (r = 0)) })) ∧
     (f.fn = 0 → r.toNat = ((List.range 36).filter (fun i => a.getLsbD i)).length →
       Completes (.popc c f) c s (s.afterF k f.d.toNat r { z := some (decide (r = 0)) })))

/-! ### F36 (R52, R160, R161) -/

/-- Completion (exec answers a next state with the own effect, on conditions of state and operands alone) of fadd, fsub,
fmul, fdiv, fsqrt, fcmp, fcvt, ftoi, itof. FADD, FSUB, FMUL, FDIV, FSQRT, FCMP, FTOI and ITOF (R160, R161): the operation on
the values that the words stand for, rounded once; FCVT writes one register, or for k = 2 a register pair. Flags as R160 and
R161 give them; nothing else changes. Rounding to nearest, ties to even (R52): the integer is within half a unit of the
value, and even at half a unit. FCMP's flags (R161): unordered with a NaN on either side, else by value with +0 equal to -0. -/
def Obligations.FloatInstructions : Prop :=
  (∀ (c : CoreId) (f : RF) (s : State), coreReady c s = true →
     let k := coreKey c
     let wa := s.g k f.a.toNat
     let a := ofF36 wa
     let wb := s.g k f.b.toNat
     let b := ofF36 wb
     let t := fun (x : Fp) => s.afterF k f.d.toNat (toF36 x)
       { z := some (decide ((toF36 x).toNat % 2 ^ 35 = 0)), n := some (toF36 x).msb
         v := some (decide (0x7FC000000 < (toF36 x).toNat % 2 ^ 35)) }
     (f.fn = 0 → Completes (.fadd c f) c s (t (fpAdd a b)) ∧ Completes (.fsub c f) c s (t (fpAdd a b.neg)) ∧
       Completes (.fmul c f) c s (t (fpMul a b)) ∧ Completes (.fdiv c f) c s (t (fpDiv a b)) ∧
       Completes (.fsqrt c f) c s (t (fpSqrt a))) ∧
     (f.fn = 0 → f.d = 0 → Completes (.fcmp c f) c s { s.afterI k with
       fl := (fcmpFlags wa wb).apply (s.core k).fl }) ∧
     (f.fn = 0 → Completes (.fcvt c f) c s (s.afterR k f.d.toNat (wd (toFp 8 23 a)))) ∧
     (f.fn = 1 → Completes (.fcvt c f) c s (s.afterR k f.d.toNat (toF36 (decodeFp 8 23 (wa.toNat % 2 ^ 32))))) ∧
     (f.fn = 2 → f.d.toNat % 2 = 0 → Completes (.fcvt c f) c s { s.afterI k with
       g := Tab.put 0 (Tab.put 0 (s.core k).g f.d.toNat (wd (toFp 11 52 a % 2 ^ 32))) (f.d.toNat + 1)
         (wd (toFp 11 52 a / 2 ^ 32)) }) ∧
     (f.fn = 3 → f.a.toNat % 2 = 0 → Completes (.fcvt c f) c s (s.afterR k f.d.toNat
       (toF36 (decodeFp 11 52 ((s.g k (f.a.toNat + 1)).toNat % 2 ^ 32 * 2 ^ 32 + wa.toNat % 2 ^ 32))))) ∧
     (∀ r : Word, f.fn.toNat < 64 → fpToInt f.fn.toNat a = none → r = 0 → Completes (.ftoi c f) c s (s.afterF k f.d.toNat r
       { z := some true, n := some false, v := some true, sat := true })) ∧
     (∀ (x : Int) (r : Word), f.fn.toNat < 64 → fpToInt f.fn.toNat a = some x →
       r.toInt = max (-2 ^ 35) (min (2 ^ 35 - 1) x) → Completes (.ftoi c f) c s (s.afterF k f.d.toNat r
       { z := some (decide (r = 0)), n := some r.msb, v := some (decide (r.toInt ≠ x)), sat := decide (r.toInt ≠ x) })) ∧
     (f.fn.toNat < 64 → Completes (.itof c f) c s (
       let x := toF36 (.fin (decide (wa.toInt < 0)) wa.toInt.natAbs (-(f.fn.toNat : Int)))
       s.afterF k f.d.toNat x { z := some (decide (x.toNat % 2 ^ 35 = 0)), n := some x.msb }))) ∧
  (∀ m sh : Nat, 2 * (2 ^ sh * rne m sh) ≤ 2 * m + 2 ^ sh ∧ 2 * m ≤ 2 * (2 ^ sh * rne m sh) + 2 ^ sh ∧
     (2 * (2 ^ sh * rne m sh) = 2 * m + 2 ^ sh ∨ 2 * m = 2 * (2 ^ sh * rne m sh) + 2 ^ sh → rne m sh % 2 = 0)) ∧
  (∀ a b : Word,
     fcmpFlags a b =
       (if (ofF36 a).isNan || (ofF36 b).isNan then
         { z := some false, n := some false, c := some false, v := some true }
       else
         let x := f36Value (ofF36 a)
         let y := f36Value (ofF36 b)
         { z := some (decide (x = y)), n := some (decide (x < y)), c := some (decide (y ≤ x)), v := some false }))

/-! ### Moves and memory (R105, R112, R114 - R126, R152 - R156) -/

/-- Completion (exec answers a next state with the own effect, on conditions of state and operands alone) of ldi, lea, ldh,
mov, movFromSpecial, movToSpecial, movFromAcc, movToAcc. LDI, LDH, LEA and MOV (R152, R154, R112, R105): one register is
written, from the immediate, the effective address, a general or special register or ACC; MOV to FL writes the fields RW of
R106, MOV to ERRC its 16 bits, and MOV from ACC sets S when it saturates. -/
def Obligations.MovesWithinCore : Prop :=
  (∀ (c : CoreId) (f : IF) (s : State) (r : Word), coreReady c s = true → f.a = 0 → r.toInt = f.imm.toInt →
    Completes (.ldi c f) c s (s.afterR (coreKey c) f.d.toNat r)) ∧
  (∀ (c : CoreId) (f : MF) (s : State), coreReady c s = true →
    let x := s.core (coreKey c)
    let base := ((List.range 12).map (fun i => Tab.get 0 x.g i) ++ [x.ib, x.sb, x.sp, x.pc]).getD f.base.toNat 0
    Completes (.lea c f) c s (s.afterR (coreKey c) f.d.toNat (base + BitVec.ofInt 36 f.off.toInt))) ∧
  (∀ (c : CoreId) (f : RF) (s : State) (r : Word), coreReady c s = true →
    let k := coreKey c
    let x := s.core k
    let d := s.g k f.d.toNat
    let a := s.g k f.a.toNat
    let sh := f.fn.toNat % 64
    let p := if sh = 0 then x.acc.toInt else (x.acc.toInt + 2 ^ (sh - 1)) / 2 ^ sh
    (f.a = 0 → f.b = 0 → (∀ i < 36, r.getLsbD i = (if i < 20 then d.getLsbD i else f.fn.getLsbD (i - 20))) →
      Completes (.ldh c f) c s (s.afterR k f.d.toNat r)) ∧
    (f.fn = 0 → Completes (.mov c f) c s (s.afterR k f.d.toNat a)) ∧
    (f.fn = 0x1000 → f.a.toNat < 9 →
      Completes (.movFromSpecial c f) c s (s.afterR k f.d.toNat
        ([x.pc, x.ib, x.sb, x.sp, x.fl, tidOf k x.task, x.errc, dhi x.acc, dlo x.acc].getD f.a.toNat 0))) ∧
    (f.fn = 0x2000 →
      let y := s.afterI k
      (f.d = 1 → Completes (.movToSpecial c f) c s { y with ib := a }) ∧
      (f.d = 2 → Completes (.movToSpecial c f) c s { y with sb := a }) ∧
      (f.d = 3 → Completes (.movToSpecial c f) c s { y with sp := a }) ∧
      (f.d = 4 → Completes (.movToSpecial c f) c s { y with fl := a &&& 0xBF }) ∧
      (f.d = 6 → Completes (.movToSpecial c f) c s { y with errc := a &&& 0xFFFF }) ∧
      (f.d = 7 → Completes (.movToSpecial c f) c s { y with acc := dword (dlo x.acc) a }) ∧
      (f.d = 8 → Completes (.movToSpecial c f) c s { y with acc := dword a (dhi x.acc) })) ∧
    (f.fn.toNat / 64 = 3 * 64 → r.toInt = max (-2 ^ 35) (min (2 ^ 35 - 1) p) →
      Completes (.movFromAcc c f) c s (s.afterF k f.d.toNat r { sat := decide (r.toInt ≠ p) })) ∧
    (∀ q : DWord, f.fn.toNat / 64 = 4 * 64 → sh ≤ 35 → q.toInt = a.toInt * 2 ^ sh →
      Completes (.movToAcc c f) c s { s.afterI k with acc := q }))

/-- Completion (exec answers a next state with the own effect, on conditions of state and operands alone) of ld, ldd, pop,
st, std, stl, push, cas. LD, LDD and POP from memory that the core reaches without the spine (R114, R116, R120, R124, R126):
the words go to the registers, POP raises SP by one, and no memory changes. ST, STD, STL and PUSH to memory that the core
reaches without the spine (R116, R120, R124, R126, R153), and CAS (R155), which stores only where the word read equals Gd:
exactly the words of the operation change, PUSH lowers SP by one. A write to part of a line (R60, R65, R68): exactly the
words of the mask change, the line's OWNER is set and its VERSION rises by one, and poison stays; a write of the whole line
clears it. -/
def Obligations.LoadsAndStores : Prop :=
  ((∀ (c : CoreId) (f : MF) (s : State), coreReady c s = true →
     let k := coreKey c
     let a := s.ea k f
     (s.mayReach k false a 1 = true → Completes (.ld c f) c s (s.afterR k f.d.toNat (s.wordAt k a.toNat))) ∧
     (f.d.toNat % 2 = 0 → s.mayReach k false a 2 = true → Completes (.ldd c f) c s { s.afterI k with
       g := Tab.put 0 (Tab.put 0 (s.core k).g f.d.toNat (s.wordAt k a.toNat)) (f.d.toNat + 1)
         (s.wordAt k (a + 1).toNat) })) ∧
   (∀ (c : CoreId) (f : RF) (s : State), coreReady c s = true → f.a = 0 → f.b = 0 → f.fn = 0 →
     let k := coreKey c
     let sp := (s.core k).sp
     s.spOk k (sp + 1).toNat = true → s.mayReach k false sp 1 = true →
       Completes (.pop c f) c s { s.afterR k f.d.toNat (s.wordAt k sp.toNat) with sp := sp + 1 })) ∧
  ((∀ (c : CoreId) (f : MF) (s : State), coreReady c s = true →
     let k := coreKey c
     let a := s.ea k f
     let g := fun i => s.g k (f.d.toNat + i)
     (s.mayReach k true a 1 = true → a.toNat < 2 ^ 36 - 1 →
       ∃ t, exec (.st c f) s = .next t ∧ Stored s t k (s.afterI k) a.toNat [g 0]) ∧
     (f.d.toNat % 2 = 0 → s.mayReach k true a 2 = true → a.toNat < 2 ^ 36 - 2 →
       ∃ t, exec (.std c f) s = .next t ∧ Stored s t k (s.afterI k) a.toNat [g 0, g 1]) ∧
     (f.d = 0 ∨ f.d = 8 → a.toNat % 8 = 0 → s.mayReach k true a 8 = true →
       ∃ t, exec (.stl c f) s = .next t ∧ Stored s t k (s.afterI k) a.toNat ((List.range 8).map g))) ∧
   (∀ (c : CoreId) (f : RF) (s : State), coreReady c s = true →
     let k := coreKey c
     let sp := (s.core k).sp - 1
     let a := s.g k f.a.toNat + BitVec.ofInt 36 f.fn.toInt
     let w := s.wordAt k a.toNat
     (f.a = 0 → f.b = 0 → f.fn = 0 → s.spOk k sp.toNat = true → s.mayReach k true sp 1 = true →
       ∃ t, exec (.push c f) s = .next t ∧ Stored s t k { s.afterI k with sp := sp } sp.toNat [s.g k f.d.toNat]) ∧
     (s.mayReach k true a 1 = true → w = s.g k f.d.toNat →
       ∃ t, exec (.cas c f) s = .next t ∧
         Stored s t k (s.afterF k f.d.toNat w { z := some true }) a.toNat [s.g k f.b.toNat]) ∧
     (s.mayReach k true a 1 = true → w ≠ s.g k f.d.toNat →
       Completes (.cas c f) c s (s.afterF k f.d.toNat w { z := some false })))) ∧
  (∀ (s : State) (l mask : Nat) (data : List Word) (owner : BitVec 2), data.length = 8 → mask < 256 →
     Tab.get {} s.mem.errs l = {} →
     let t := s.lineWrite l mask data false owner
     (∀ a, a / 8 ≠ l → t.word a = s.word a ∧ t.lineMeta (a / 8) = s.lineMeta (a / 8)) ∧
     (∀ i < 8, t.word (8 * l + i) = if mask.testBit i then data.getD i 0 else s.word (8 * l + i)) ∧
     t.lineMeta l = { owner := owner, version := (s.lineMeta l).version + 1
                      poison := if mask = 255 then false else (s.lineMeta l).poison })

/-- What a task on a tile may access (R114, R116, R198): its local memory, the code region not for a write; mapped system
registers for reading with LD and LDD; and its task windows. An access that R116 forbids raises fault 0x08 with the address,
a push or pop out of the stack fault 0x04 (R124), and both before anything is read or written; DIV and REM by zero trap with
fault 0x01 while DZT is 1 (R106). -/
def Obligations.AccessRuleAndFaults : Prop :=
  (∀ (s : State) (k n a : Nat) (wr regs : Bool), k < 64 → (s.core k).task = some n →
     (s.access k wr regs a = .ok ↔
       (a < 0x10000 ∧ (wr = true → 0xE000 ≤ a)) ∨
       (0x100000 ≤ a ∧ a < 0x200000 ∧ regs = true ∧ wr = false ∧ regMapped (a - 0x100000) = true) ∨
       ((targetOf a).isSome = true ∧ ∃ i < 4,
         let base := ((s.task n).desc.getD (8 + 2 * i) 0).toNat
         let w := (s.task n).desc.getD (9 + 2 * i) 0
         base ≤ a ∧ a < base + w.toNat % 2 ^ 32 ∧ (wr = true → w.getLsbD 35 = true)))) ∧
  ((∀ (c : CoreId) (f : MF) (s : State), coreReady c s = true →
     let k := coreKey c
     let a := s.ea k f
     (s.accessN k false true a 1 = .fault → Faults (.ld c f) c (encM 0x01 f) s 0x08 a) ∧
     (s.accessN k true false a 1 = .fault → Faults (.st c f) c (encM 0x02 f) s 0x08 a) ∧
     (f.d.toNat % 2 = 0 → s.accessN k false true a 2 = .fault → Faults (.ldd c f) c (encM 0x03 f) s 0x08 a) ∧
     (f.d.toNat % 2 = 0 → s.accessN k true false a 2 = .fault → Faults (.std c f) c (encM 0x04 f) s 0x08 a) ∧
     (f.d.toNat % 2 = 1 → Faults (.ldd c f) c (encM 0x03 f) s 0x06 0) ∧
     (f.d = 0 ∨ f.d = 8 → a.toNat % 8 ≠ 0 → Faults (.stl c f) c (encM 0x0C f) s 0x08 a)) ∧
   (∀ (c : CoreId) (f : RF) (s : State), coreReady c s = true →
     let k := coreKey c
     (f.a = 0 → f.b = 0 → f.fn = 0 → s.spOk k ((s.core k).sp - 1).toNat = false →
       Faults (.push c f) c (encR 0x09 f) s 0x04 0) ∧
     (f.a = 0 → f.b = 0 → f.fn = 0 → s.spOk k ((s.core k).sp + 1).toNat = false →
       Faults (.pop c f) c (encR 0x0A f) s 0x04 0) ∧
     (f.fn = 0 → s.g k f.b.toNat = 0 → (s.core k).fl.getLsbD 7 = true →
       Faults (.div c f) c (encR 0x1B f) s 0x01 0 ∧ Faults (.rem c f) c (encR 0x1C f) s 0x01 0) ∧
     (f.fn ≠ 0 → Faults (.mul c f) c (encR 0x18 f) s 0x06 0 ∧ Faults (.fadd c f) c (encR 0x48 f) s 0x06 0)))

/-! ### Flow (R110, R113, R115, R126, R130, R162 - R165) -/

/-- Completion (exec answers a next state with the own effect, on conditions of state and operands alone) of j, jc, loop,
ret, retfb, nop, fence, trap, call, callfb. J, JC, LOOP, RET, RETFB, NOP and FENCE, and TRAP where it does not suspend (R162
- R165): where the core goes on, and that nothing else changes; a target outside the code region raises fault 0x08 (R115).
CALL and CALLFB (R126, R130, R163): the return address, and for CALLFB then IB, go to the stack below SP; CALLFB loads IB
with the instance address and PC with the descriptor's ENTRY. -/
def Obligations.ControlFlow : Prop :=
  ((∀ (c : CoreId) (f : JF) (s : State), coreReady c s = true →
     let k := coreKey c
     let x := s.core k
     let t := x.pc + BitVec.ofInt 36 f.off.toInt
     (f.cond = 0 → inCode k t.toNat = true → Completes (.j c f) c s { x with pc := t }) ∧
     (f.cond = 0 → inCode k t.toNat = false → Faults (.j c f) c (encJ 0x58 f) s 0x08 t) ∧
     (condHolds x.fl f.cond.toNat = some true → inCode k t.toNat = true → Completes (.jc c f) c s { x with pc := t }) ∧
     (condHolds x.fl f.cond.toNat = some false → Completes (.jc c f) c s (s.afterI k))) ∧
   (∀ (c : CoreId) (f : IF) (s : State), coreReady c s = true → f.a = 0 →
     let k := coreKey c
     let v := s.g k f.d.toNat - 1
     let t := (s.core k).pc + BitVec.ofInt 36 f.imm.toInt
     (v = 0 → Completes (.loop c f) c s (s.afterR k f.d.toNat v)) ∧
     (v ≠ 0 → inCode k t.toNat = true → Completes (.loop c f) c s { s.afterR k f.d.toNat v with pc := t })) ∧
   (∀ (c : CoreId) (f : RF) (s : State), coreReady c s = true → f.d = 0 → f.a = 0 → f.b = 0 →
     let k := coreKey c
     let x := s.core k
     (f.fn = 0 → s.spOk k (x.sp + 1).toNat = true → s.mayReach k false x.sp 1 = true →
       inCode k (s.wordAt k x.sp.toNat).toNat = true →
       Completes (.ret c f) c s { x with pc := s.wordAt k x.sp.toNat, sp := x.sp + 1 }) ∧
     (f.fn = 0 → s.spOk k (x.sp + 2).toNat = true → s.mayReach k false x.sp 2 = true →
       inCode k (s.wordAt k (x.sp + 1).toNat).toNat = true →
       Completes (.retfb c f) c s
         { x with pc := s.wordAt k (x.sp + 1).toNat, sp := x.sp + 2, ib := s.wordAt k x.sp.toNat }) ∧
     (f.fn = 0 → Completes (.nop c f) c s (s.afterI k)) ∧
     (f.fn = 0 → s.outstanding k = 0 → Completes (.fence c f) c s (s.afterI k)) ∧
     ((∀ n, x.task = some n → (s.mode ≠ 3 ∧ s.mode ≠ 11) ∨ (s.task n).trapen = false ∨ (s.task n).stopping = true) →
       Completes (.trap c f) c s (s.afterI k)))) ∧
  ((∀ (c : CoreId) (f : JF) (s : State), coreReady c s = true → f.cond = 0 →
     let k := coreKey c
     let x := s.core k
     let sp := x.sp - 1
     let t := x.pc + BitVec.ofInt 36 f.off.toInt
     inCode k t.toNat = true → s.spOk k sp.toNat = true → s.mayReach k true sp 1 = true →
       ∃ u, exec (.call c f) s = .next u ∧ Stored s u k { x with pc := t, sp := sp } sp.toNat [x.pc + 1]) ∧
   (∀ (c : CoreId) (f : IF) (s : State), coreReady c s = true → f.d = 0 →
     let k := coreKey c
     let x := s.core k
     let inst := s.g k f.a.toNat
     let desc := x.pc + BitVec.ofInt 36 f.imm.toInt
     let sp := x.sp - 2
     let h := s.wordAt k inst.toNat
     let d0 := s.wordAt k desc.toNat
     let entry := s.wordAt k (desc + 2).toNat
     desc.toNat % 8 = 0 → inCode k desc.toNat = true → s.spOk k sp.toNat = true →
     s.access k false false inst.toNat = .ok → s.wordClean k inst.toNat = true → inCode k entry.toNat = true →
     (∀ i < 3, s.wordClean k (desc + wd i).toNat = true) → s.mayReach k true sp 2 = true →
     h.toNat / 2 ^ 12 = d0.toNat / 2 ^ 12 → h.toNat % 2 ^ 12 < 4 →
       ∃ u, exec (.callfb c f) s = .next u ∧
         Stored s u k { x with pc := entry, sp := sp, ib := inst } sp.toNat [x.ib, x.pc + 1]))

/-! ### Tasks (R121 - R124, R166 - R171, R209, R210) -/

/-- Completion (exec answers a next state with the own effect, on conditions of state and operands alone) of done, yield,
wait, evwait, take, trap. DONE, YIELD and WAIT (R123, R166, R168, R209, R210), with nothing of the core on the spine: the
core gives its task back and takes the next; an EVENT task becomes IDLE, a CYCLIC task READY or DELAYED to its cycle, YIELD
leaves READY and WAIT DELAYED to the deadline, both with the context saved. Other tasks and cores do not change. DONE ends a
PROGRAM request (R616): pair 0 runs no program any more, and one response entry goes to the host; TAKE in code raises fault
0x06 (R167), and so do YIELD, WAIT and EVWAIT in a PROGRAM request. TRAP (R164) suspends in COMMISSION and TEST a task with
TRAPEN that is under no orderly stop. -/
def Obligations.RunsEnd : Prop :=
  (∀ (c : CoreId) (f : RF) (s : State) (n : Nat), coreReady c s = true → c ≠ .crown0 →
     let k := coreKey c
     let x := s.task n
     (s.core k).task = some n → x.stopping = false → s.exch.phase = .none → s.outstanding k = 0 → s.loc.errs = [] → f.b = 0 → f.d = 0 →
     let ended := fun (u : State) => (u.core k).task = none ∧ (u.core k).taking = true ∧ (∀ j, j ≠ k → u.core j = s.core j) ∧
       (∀ m, m ≠ n → u.task m = s.task m) ∧ u.loc = s.loc ∧ u.cues = s.cues ∧ u.lanes = s.lanes ∧ u.axes = s.axes
     (f.a = 0 → f.fn = 0 → ∃ u, exec (.done c f) s = .next u ∧ ended u ∧
       (u.task n).saved = false ∧ (u.task n).fresh = true ∧ (u.task n).scanning = false ∧ (u.task n).queue = x.queue ∧
       (x.kind = 1 → (u.task n).st = .idle) ∧
       (x.kind ≠ 1 → (x.cycmin = 0 ∨ x.grant + x.cycmin * tUs ≤ s.elapsed) → (u.task n).st = .ready) ∧
       (x.kind ≠ 1 → x.cycmin ≠ 0 → s.elapsed < x.grant + x.cycmin * tUs →
         (u.task n).st = .delayed ∧ (u.task n).deadline = some (s.deviceAt (x.grant + x.cycmin * tUs)))) ∧
     (f.a = 0 → f.fn = 0 → ∃ u, exec (.yield c f) s = .next u ∧ ended u ∧
       (u.task n).st = .ready ∧ (u.task n).saved = true ∧ (u.task n).fresh = false) ∧
     (f.fn = 0 → ∃ u, exec (.wait c f) s = .next u ∧ ended u ∧ (u.task n).st = .delayed ∧ (u.task n).saved = true ∧
       (u.task n).deadline = some (s.now + (s.g k f.a.toNat).toNat * tUs)) ∧
     (f.fn = 1 → f.a.toNat % 2 = 0 → ∃ u, exec (.wait c f) s = .next u ∧ ended u ∧ (u.task n).st = .delayed ∧
       (u.task n).saved = true ∧ (u.task n).deadline = some (ofT72 (s.gg k f.a.toNat)))) ∧
  ((∀ (f : RF) (s : State) (p : Prog), coreReady .crown0 s = true → s.host.prog = some p → (s.core 64).task = none →
     s.outstanding 64 = 0 →
     (f = ⟨0, 0, 0, 0⟩ → ∃ u, exec (.done .crown0 f) s = .next u ∧ u.host.prog = none ∧ u.core 64 = {} ∧
       u.host.rsppi = s.host.rsppi + 1 ∧ (∀ j, j ≠ 64 → u.core j = s.core j) ∧ u.tasks = s.tasks) ∧
     Faults (.yield .crown0 f) .crown0 (encR 0x6A f) s 0x06 0 ∧ Faults (.wait .crown0 f) .crown0 (encR 0x6B f) s 0x06 0 ∧
     Faults (.evwait .crown0 f) .crown0 (encR 0x6D f) s 0x06 0) ∧
   (∀ (c : CoreId) (s : State), coreReady c s = true → Faults (.take c) c 0x680000000 s 0x06 0)) ∧
  (∀ (c : CoreId) (f : RF) (s : State) (n : Nat), coreReady c s = true → f.d = 0 → f.a = 0 → f.b = 0 →
     (s.core (coreKey c)).task = some n → s.outstanding (coreKey c) = 0 → s.mode = 3 ∨ s.mode = 11 →
     (s.task n).trapen = true → (s.task n).stopping = false →
       ∃ u, exec (.trap c f) s = .next u ∧ (u.core (coreKey c)).task = none ∧ (u.core (coreKey c)).taking = true ∧
         (u.task n).st = .trapped ∧ (u.task n).saved = true ∧ (u.task n).fresh = false ∧ u.host.evpi = s.host.evpi + 1 ∧
         (∀ m, m ≠ n → u.task m = s.task m) ∧ (∀ j, j ≠ coreKey c → u.core j = s.core j))

/-- Completion (exec answers a next state with the own effect, on conditions of state and operands alone) of post, evwait,
evwaitPoll, evwaitStart. POST (R169, R170): a post goes to the end of the target's queue and Z is set; a target without a
descriptor or outside the layout, or a full queue, refuses it with E, ERRC.REFUSE and Z = 0, and queues nothing. EVWAIT
(R171): m = 0 and POLL take the oldest post; with an empty queue POLL goes on with 0 and Z = 1 and m = 0 suspends; START
reads the start word. -/
def Obligations.PostsAndEventWaits : Prop :=
  (∀ (c : CoreId) (f : RF) (s : State), requestReady c s = true → f.d = 0 → f.fn = 0 → s.outstanding (coreKey c) = 0 →
     let k := coreKey c
     let refused := fun code => { s.afterI k with
       fl := FlagSet.apply { z := some false } (setBit (s.core k).fl 5 true), errc := setFld (s.core k).errc 15 8 code }
     (∀ n, targetOfWord (s.g k f.a.toNat) = some n → (s.task n).st ≠ .unused → (s.task n).queue.length < (s.task n).qdepth →
       ∃ u, exec (.post c f) s = .next u ∧
         u.core k = { s.afterI k with fl := FlagSet.apply { z := some true } (s.core k).fl } ∧
         u.task n = { s.task n with
           queue := (s.task n).queue ++ [{ word := s.g k f.b.toNat }], posted := true
           postAcc := if (s.task n).posted then (s.task n).postAcc else s.cc
           postCode := if (s.task n).posted then (s.task n).postCode else 0 } ∧
         (∀ m, m ≠ n → u.task m = s.task m) ∧ (∀ j, j ≠ k → u.core j = s.core j) ∧ u.mem = s.mem ∧ u.loc = s.loc ∧
         u.regs = s.regs) ∧
     (∀ n, targetOfWord (s.g k f.a.toNat) = some n → (s.task n).st ≠ .unused → (s.task n).qdepth ≤ (s.task n).queue.length →
       ∃ u, exec (.post c f) s = .next u ∧ u.core k = refused 5 ∧ u.tasks = s.tasks ∧ u.loc = s.loc) ∧
     (targetOfWord (s.g k f.a.toNat) = none ∨ (∃ n, targetOfWord (s.g k f.a.toNat) = some n ∧ (s.task n).st = .unused) →
       Completes (.post c f) c s (refused 4))) ∧
  (∀ (c : CoreId) (f : RF) (s : State) (n : Nat), coreReady c s = true → c ≠ .crown0 → f.b = 0 →
     let k := coreKey c
     let x := s.task n
     (s.core k).task = some n → x.stopping = false → s.outstanding k = 0 → s.loc.errs = [] →
     let took := fun (i : Instr) => ∀ p r, x.queue = p :: r → ∃ u, exec i s = .next u ∧
       u.core k = s.afterF k f.d.toNat p.word { z := some false } ∧ u.task n = { x with queue := r } ∧
       (∀ m, m ≠ n → u.task m = s.task m) ∧ u.mem = s.mem ∧ u.regs = s.regs
     (f.fn = 0 → took (.evwait c f)) ∧
     (f.fn = 1 → took (.evwaitPoll c f)) ∧
     (f.fn = 1 → x.queue = [] → Completes (.evwaitPoll c f) c s (s.afterF k f.d.toNat 0 { z := some true })) ∧
     (f.fn = 2 → Completes (.evwaitStart c f) c s (s.afterF k f.d.toNat x.start { z := some false })) ∧
     (f.fn = 0 → x.queue = [] → ∃ u, exec (.evwait c f) s = .next u ∧ (u.core k).task = none ∧ (u.core k).taking = true ∧
       (u.task n).st = .evwait ∧ (u.task n).saved = true ∧ (u.task n).evReg = f.d.toNat ∧
       (u.task n).timeout = (if s.g k f.a.toNat = 0 then none else some (s.now + (s.g k f.a.toNat).toNat * tUs)) ∧
       (∀ m, m ≠ n → u.task m = s.task m) ∧ (∀ j, j ≠ k → u.core j = s.core j) ∧ u.loc = s.loc))

/-- Completion (exec answers a next state with the own effect, on conditions of state and operands alone) of imgin, imgout.
The context (R122): the 24 words stand in the context area in their order, and a core restored from them has the registers,
ACC, PC, IB, SB, SP, FL and ERRC that were saved. IMGIN and IMGOUT (R172 - R174, R215, R217), of a tile whose task is the
TASK of a VALID entry with DIR as the instruction asks and the buffer in the task's windows, no word of the entry or the
point map poisoned or disturbed: both complete. The buffer's header holds the T72 of the cell clock and the band cycle's
number, which Gd receives; lanes and axes do not change. IMGIN, whose SB and SB + 1 lie in a writable window beside the
buffer, stores the T72 there too, and changes no other word of memory outside the buffer, no ring, task or other core. Where
the check fails, either takes fault 0x08. -/
def Obligations.ContextsAndImages : Prop :=
  ((∀ (s : State) (k n : Nat) (pc : Word), ∀ i < 24,
     (s.saveContext k n pc).word ((s.task n).ctx + i) = ((s.core k).context pc).getD i 0) ∧
   (∀ (x : Core) (pc : Word),
     let y := ({} : Core).restored (x.context pc)
     (∀ i < 16, Tab.get 0 y.g i = Tab.get 0 x.g i) ∧ y.acc = x.acc ∧ y.pc = pc ∧ y.ib = x.ib ∧ y.sb = x.sb ∧ y.sp = x.sp ∧
       y.fl = x.fl ∧ y.errc = x.errc)) ∧
  (∀ (c : CoreId) (f : CF) (s : State), requestReady c s = true → f.a = 0 → f.sel.toNat < 64 →
     let k := coreKey c
     let i := f.sel.toNat
     let kept := fun (u : State) => (∀ j, j ≠ k → u.core j = s.core j) ∧ u.tasks = s.tasks ∧ u.lanes = s.lanes ∧
       u.axes = s.axes
     (∀ n, k < 64 → (s.core k).task = some n → n < 1024 → s.mem.errs = [] →
       let g := s.img (n / 256) i
       let inWin := fun (wr : Bool) (a : Nat) => (targetOf a).isSome = true ∧
         (List.range 4).any (windowOk (s.task n).desc wr a) = true
       let sb := (s.core k).sb.toNat
       s.anyPoison (imgEntry (n / 256) i) 16 = false → s.anyPoison g.map (4 * g.npts) = false →
       bit g.w0 24 = true → fld g.w0 32 25 = n % 256 → (∀ j < g.len, inWin false (g.buf + j)) →
       (bit g.w0 35 = false → inWin true sb → inWin true (sb + 1) → sb + 2 ≤ g.buf ∨ g.buf + 4 ≤ sb → ∃ u,
         exec (.imgin c f) s = .next u ∧ kept u ∧ u.rings = s.rings ∧
         u.core k = s.afterR k f.d.toNat (wd ((s.imgCycle g).getD 0)) ∧
         u.word g.buf = dlo s.t72 ∧ u.word (g.buf + 1) = dhi s.t72 ∧ u.word (g.buf + 2) = wd ((s.imgCycle g).getD 0) ∧
         u.word sb = dlo s.t72 ∧ u.word (sb + 1) = dhi s.t72 ∧
         (∀ b, b < g.buf ∨ g.buf + max 4 g.len ≤ b → b < sb ∨ sb + 2 ≤ b → u.word b = s.word b)) ∧
       (bit g.w0 35 = true → ∃ u,
         exec (.imgout c f) s = .next u ∧ u.lanes = s.lanes ∧ u.axes = s.axes ∧ u.g k f.d.toNat = wd (s.outCycle g) ∧
         (∀ j, j ≠ f.d.toNat → u.g k j = s.g k j) ∧ (u.core k).pc = (s.core k).pc + 1 ∧
         u.word g.buf = dlo s.t72 ∧ u.word (g.buf + 1) = dhi s.t72 ∧ u.word (g.buf + 2) = wd (s.outCycle g))) ∧
     (∀ u, s.imgCheck k i false = (none, u) → exec (.imgin c f) s = .next (u.takeFault k 0x08 (wd i) (encC 0x70 f))) ∧
     (∀ u, s.imgCheck k i true = (none, u) → exec (.imgout c f) s = .next (u.takeFault k 0x08 (wd i) (encC 0x71 f))))

/-! ### Images and cell access (R17, R172 - R175, R58) -/

/-- Completion (exec answers a next state with the own effect, on conditions of state and operands alone) of ior, iow,
registerWrite. IOR, IOW and REGISTER_WRITE (R17, R58, R175, R15): IOR reads a mapped register and clears its RC fields; a
cell's owner, or the Crown, writes its register, shown by VEL of a step generator; another tile takes fault 0x09, a register
of no cell gives a tile fault 0x08 and ignores a Crown write to an RO register; an unmapped offset gives a tile fault 0x08
and the Crown a refusal. -/
def Obligations.CellRegisterAccess : Prop :=
  (∀ (c : CoreId) (f : CF) (s : State), requestReady c s = true →
    let k := coreKey c
    let o := ((s.g k f.a.toNat).toNat + f.sel.toNat) % 2 ^ 20
    let v := s.g k f.d.toNat
    let refused := { s.afterI k with fl := setBit (s.core k).fl 5 true, errc := setFld (s.core k).errc 15 8 4 }
    (regMapped o = true →
      exec (.ior c f) s = .next ((s.regClear o).instrEnd k (s.afterR k f.d.toNat (s.regRead o)))) ∧
    (regMapped o = false → k < 64 → Faults (.ior c f) c (encC 0x72 f) s 0x08 (wd (0x100000 + o)) ∧
      Faults (.iow c f) c (encC 0x73 f) s 0x08 (wd (0x100000 + o))) ∧
    (regMapped o = false → 64 ≤ k → Completes (.iow c f) c s refused) ∧
    (regMapped o = true → k < 64 → cellOf o = none → Faults (.iow c f) c (encC 0x73 f) s 0x08 (wd (0x100000 + o))) ∧
    (∀ n, regMapped o = true → k < 64 → cellOf o = some n → Tab.get 0 s.owners n ≠ k + 1 →
      Faults (.iow c f) c (encC 0x73 f) s 0x09 (wd n)) ∧
    (64 ≤ k → o < 8 → Completes (.iow c f) c s (s.afterI k)) ∧
    (∀ g : Fin 16, o = offStep g.val 1 → 64 ≤ k ∨ Tab.get 0 s.owners (offStep g.val 0) = k + 1 → s.orders = [] →
      ∃ u, exec (.iow c f) s = .next u ∧ u.reg o = v ∧ (∀ j, j ≠ o → u.reg j = s.reg j) ∧
        u = { s.instrEnd k (s.afterI k) with regs := u.regs, orders := u.orders })) ∧
  (∀ (c : CoreId) (g : Fin 16) (v : Word) (s : State),
    let k := coreKey c
    let o := offStep g.val 1
    64 ≤ k ∨ Tab.get 0 s.owners (offStep g.val 0) = k + 1 → s.orders = [] →
      ∃ u, exec (.registerWrite c (BitVec.ofNat 20 o) v) s = .next u ∧ u.reg o = v ∧ (∀ j, j ≠ o → u.reg j = s.reg j) ∧
        u = { s with regs := u.regs, orders := u.orders })

/-! ### Time and cues (R95 - R104, R176 - R178) -/

/-- Completion (exec answers a next state with the own effect, on conditions of state and operands alone) of timerd, crd,
cue, cuexRead, cuexCancel. TIMERD and CRD (R176), CUE (R95, R96, R177) and CUEX (R178), of a cue that does not fire in this
cell clock: TIMERD reads the T72, CRD a coordinate or its word 6; CUE arms the cue for the issuing core from the descriptor
at Ga, or refuses a descriptor with E and ERRC.REFUSE 0x02; CUEX stores the fire record at Ga, CANCEL after an armed cue has
become CANCELLED. -/
def Obligations.TimeAndCueInstructions : Prop :=
  (∀ (c : CoreId) (f : RF) (s : State), requestReady c s = true → f.a = 0 → f.b = 0 → f.fn = 0 → f.d.toNat % 2 = 0 →
    Completes (.timerd c f) c s { s.afterI (coreKey c) with
      g := Tab.put 0 (Tab.put 0 (s.core (coreKey c)).g f.d.toNat (dlo s.t72)) (f.d.toNat + 1) (dhi s.t72) }) ∧
  (∀ (c : CoreId) (f : CF) (s : State), requestReady c s = true →
    let k := coreKey c
    let sel := f.sel.toNat
    let a := s.g k f.a.toNat
    let n := if f.sel.getLsbD 19 then (s.g k f.d.toNat).toNat % 4096 else sel % 4096
    let x := s.cue n
    let ws := (List.range 4).map (fun i => s.wordAt k (a + wd i).toNat)
    let src := coreSrc k
    (f.a = 0 → sel < 32 → f.d.toNat % 2 = 0 → Completes (.crd c f) c s { s.afterI k with
      g := Tab.put 0 (Tab.put 0 (s.core k).g f.d.toNat (dlo (s.coordValue sel))) (f.d.toNat + 1) (dhi (s.coordValue sel)) }) ∧
    (f.a = 0 → 32 ≤ sel → sel < 64 → Completes (.crd c f) c s (s.afterR k f.d.toNat (s.coordWord6 (sel - 32)))) ∧
    (sel / 2 ^ 12 % 2 ^ 7 = 0 → s.mayReach k false a 4 = true → x.st ≠ .armed ∨ x.owner = some src → s.cueCrosses n = false →
      (s.cueOk ws = true → ∃ u, exec (.cue c f) s = .next u ∧
        u.core k = s.afterF k f.d.toNat (wd x.st.code) { z := some true } ∧
        (u.cue n).st = .armed ∧ (u.cue n).owner = some src ∧ (u.cue n).w0 = ws.getD 0 0 ∧ (u.cue n).armedAt = s.cc ∧
        (u.cue n).value = cueValue (fld (ws.getD 0 0) 35 31) (dword (ws.getD 1 0) (ws.getD 2 0)) ∧
        (u.cue n).step = (ws.getD 3 0).toNat ∧ (u.cue n).ref = s.coordNow (fld (ws.getD 0 0) 35 31) ∧
        (u.cue n).fires = 0 ∧ (∀ m, m ≠ n → u.cue m = s.cue m) ∧ u = { s.instrEnd k (u.core k) with cues := u.cues }) ∧
      (s.cueOk ws = false → ∃ u, exec (.cue c f) s = .next u ∧
        u.core k = { s.afterF k f.d.toNat (wd x.st.code) {} with
          fl := FlagSet.apply { z := some false } (setBit (s.core k).fl 5 true), errc := setFld (s.core k).errc 15 8 2 } ∧
        (u.cue n).st = (if x.st = .armed then .cancelled else x.st) ∧ (∀ m, m ≠ n → u.cue m = s.cue m) ∧
        u = { s.instrEnd k (u.core k) with cues := u.cues })) ∧
    (sel / 2 ^ 12 % 2 ^ 7 = 0 → s.accessN k false false a 4 = .ok → x.st = .armed → x.owner ≠ some src →
      Faults (.cue c f) c (encC 0x7A f) s 0x09 (wd n)) ∧
    (sel / 2 ^ 12 % 2 ^ 7 = 0 → s.mayReach k true a 4 = true → a.toNat < 2 ^ 36 - 4 →
      ∃ u, exec (.cuexRead c f) s = .next u ∧ Stored s u k (s.afterR k f.d.toNat (wd x.st.code)) a.toNat x.record) ∧
    (sel / 2 ^ 12 % 2 ^ 7 = 16 → s.mayReach k true a 4 = true → a.toNat < 2 ^ 36 - 4 →
      x.st ≠ .armed ∨ x.owner = some src ∨ 64 ≤ k → s.cueCrosses n = false → x.firedAt ≠ some s.cc →
      let y := if x.st = .armed then { x with st := .cancelled, reason := if k < 64 then 1 else 2 } else x
      ∃ u, exec (.cuexCancel c f) s = .next u ∧
        Stored (s.setCue n y) u k (s.afterR k f.d.toNat (wd y.st.code)) a.toNat y.record))

/-! ### Lane instructions (R18, R179 - R186, R279) -/

/-- Completion (exec answers a next state with the own effect, on conditions of state and operands alone) of lcfg, lcoef,
lsp, lstat, spgrpLoad, spgrpApply, spgrpClear. LCFG, LCOEF, LSP and LSTAT (R180 - R182, R185, R279) by a core of the lane's
quadrant or of the Crown: LCFG gives a disabled lane its 64 words, and with ENABLE orders it enabled; a coefficient or a
setpoint of an enabled lane waits for its next sample, that of a disabled one is stored at once; a refused descriptor sets E
and ERRC.REFUSE 0x02; a tile of another quadrant takes fault 0x08. SPGRP (R183, R184): LOAD of a group image gives LOADED,
APPLY puts every shadow before its enabled lane at one moment and gives APPLYING, CLEAR gives EMPTY; a group that is APPLYING
takes neither LOAD nor CLEAR. -/
def Obligations.LaneInstructions : Prop :=
  (∀ (c : CoreId) (f : CF) (s : State), requestReady c s = true →
     let k := coreKey c
     let n := (s.g k f.a.toNat).toNat % 1024
     let l := s.lane n
     let v := s.g k f.d.toNat
     let ws := (List.range 64).map (fun i => s.wordAt k (v + wd i).toNat)
     let only := fun (u : State) => (∀ m, m ≠ n → u.lane m = s.lane m) ∧
       u = { s.instrEnd k (s.afterI k) with lanes := u.lanes, orders := u.orders }
     (k < 64 → k / 16 ≠ n / 256 →
       (f.sel.toNat < 2 → Faults (.lcfg c f) c (encC 0x80 f) s 0x08 (wd n)) ∧
       (f.sel.toNat < 24 → Faults (.lcoef c f) c (encC 0x81 f) s 0x08 (wd n)) ∧
       (f.sel = 0 → Faults (.lsp c f) c (encC 0x82 f) s 0x08 (wd n)) ∧
       (f.sel.toNat < 8 → Faults (.lstat c f) c (encC 0x84 f) s 0x08 (wd n))) ∧
     (64 ≤ k ∨ k / 16 = n / 256 →
       (f.sel.toNat < 2 → l.enabled = false → s.mayReach k false v 64 = true →
         s.laneOk n (if k < 64 then some k else none) ws = true → s.orders = [] →
         ∃ u, exec (.lcfg c f) s = .next u ∧ only u ∧ (∀ i < 64, (u.lane n).w i = ws.getD i 0) ∧
           (u.lane n).configured = true ∧ (u.lane n).enabled = false ∧ (u.lane n).samples = 0 ∧
           (u.lane n).pendEnable = (if f.sel = 1 then some (true, coreSrc k, s.cc) else none)) ∧
       (f.sel.toNat < 2 → l.enabled = false → s.mayReach k false v 64 = true →
         s.laneOk n (if k < 64 then some k else none) ws = false →
         Completes (.lcfg c f) c s { s.afterI k with
           fl := setBit (s.core k).fl 5 true, errc := setFld (s.core k).errc 15 8 2 }) ∧
       (f.sel.toNat < 2 → l.enabled = true → s.mayReach k false v 64 = true →
         Faults (.lcfg c f) c (encC 0x80 f) s 0x0A (wd n)) ∧
       (f.sel.toNat < 24 → ∃ u, exec (.lcoef c f) s = .next u ∧ only u ∧ u.lane n =
         (if l.enabled then { l with pendCoef := l.pendCoef ++ [(f.sel.toNat, v)] }
          else { l with desc := Tab.put 0 l.desc (17 + f.sel.toNat) v, coefNew := true })) ∧
       (f.sel = 0 → l.spKind < 2 → l.enabled = false → s.orders = [] → s.conflicts = [] →
         ∃ u, exec (.lsp c f) s = .next u ∧ only u ∧ u.lane n = { l with desc := Tab.put 0 l.desc 10 v, coefNew := true }) ∧
       (f.sel = 0 → l.spKind < 2 → l.enabled = true → s.orders = [] → l.pendSp = none →
         ∃ u, exec (.lsp c f) s = .next u ∧ only u ∧
           u.lane n = { l with pendSp := some { value := v, src := coreSrc k, at_ := s.cc, group := false }, oldSp := none }) ∧
       (f.sel = 0 → 2 ≤ l.spKind → Faults (.lsp c f) c (encC 0x82 f) s 0x0A (wd n)) ∧
       (f.sel.toNat < 8 → Completes (.lstat c f) c s (s.afterR k f.d.toNat (s.laneStat n f.sel.toNat))))) ∧
  (∀ (c : CoreId) (f : CF) (s : State), requestReady c s = true →
     let k := coreKey c
     let g := f.sel.toNat % 256
     let a := s.g k f.a.toNat
     let n := (s.wordAt k a.toNat).toNat
     let ms := (List.range n).map (fun i =>
       ((s.wordAt k (a + 1 + wd (2 * i)).toNat).toNat % 1024, s.wordAt k (a + 1 + wd (2 * i + 1)).toNat))
     let x := s.spGroup g
     64 ≤ k ∨ k / 16 = g / 64 →
     (f.sel.toNat < 256 → x.st ≠ .applying → 1 ≤ n → n ≤ 64 → s.mayReach k false a 1 = true →
       s.mayReach k false (a + 1) (2 * n) = true → (∀ m ∈ ms, m.1 / 256 = g / 64 ∧ (s.lane m.1).spKind < 2) →
       (ms.map Prod.fst).Nodup →
       ∃ u, exec (.spgrpLoad c f) s = .next u ∧ u.core k = s.afterR k f.d.toNat 1 ∧
         u.spGroup g = { st := .loaded, members := ms } ∧ (∀ j, j ≠ g → u.spGroup j = s.spGroup j) ∧
         u = { s.instrEnd k (u.core k) with spGroups := u.spGroups }) ∧
     (f.sel.toNat / 256 = 256 → x.st = .loaded → x.members ≠ [] → (x.members.map Prod.fst).Nodup →
       (∀ m ∈ x.members, (s.lane m.1).enabled = true) → s.orders = [] →
       ∃ u, exec (.spgrpApply c f) s = .next u ∧ u.core k = s.afterR k f.d.toNat 2 ∧
         u.spGroup g = { x with st := .applying, src := coreSrc k, at_ := s.cc, taken := [] } ∧
         (∀ m ∈ x.members, (u.lane m.1).pendSp =
           some { value := m.2, src := coreSrc k, at_ := s.cc, group := true }) ∧
         (∀ j, j ∉ x.members.map Prod.fst → u.lane j = s.lane j) ∧
         u = { s.instrEnd k (u.core k) with spGroups := u.spGroups, lanes := u.lanes, orders := u.orders }) ∧
     (f.sel.toNat / 256 = 512 → x.st ≠ .applying →
       ∃ u, exec (.spgrpClear c f) s = .next u ∧ u.core k = s.afterR k f.d.toNat 0 ∧ u.spGroup g = {} ∧
         (∀ j, j ≠ g → u.spGroup j = s.spGroup j) ∧ u = { s.instrEnd k (u.core k) with spGroups := u.spGroups }) ∧
     (f.sel.toNat / 256 = 512 → x.st = .applying → Faults (.spgrpClear c f) c (encC 0x83 f) s 0x0A x.firstLeft))

/-! ### Motion (R187 - R189, R283 - R303) -/

/-- Completion (exec answers a next state with the own effect, on conditions of state and operands alone) of segpush, config,
enable, disable, go, stop, qstop, flush, setpos, clear, gstart, govr, gslew, axstat. SEGPUSH, AXSTAT and the AXCMD commands
of one axis (R188, R282, R283, R295, R298, R299, R303), for an axis that the core owns and that has no segment or stop to
complete: the state that R298 gives the axis, 0 in Gd, and no other axis changes. GSTART, GOVR and GSLEW (R285, R298) for a
group whose axes the core owns, and AXSTAT (R303): GSTART starts every axis of the group that may start; GOVR and GSLEW write
the group's override and slew alone; a read of FEPEAK clears it. -/
def Obligations.AxisCommands : Prop :=
  (∀ (c : CoreId) (f : CF) (s : State), requestReady c s = true →
     let k := coreKey c
     let a := (s.g k f.d.toNat).toNat % 256
     let ad := s.g k f.a.toNat
     let x := s.axis a
     let l := s.lane x.plane
     let ws := fun n => (List.range n).map (fun i => s.wordAt k (ad + wd i).toNat)
     s.offAxisOwner k a = false → State.axisRun a 66 s = s → s.orders = [] → x.setpos = none →
     let done := fun (u : State) => u.g k f.d.toNat = 0 ∧ (u.core k).pc = (s.core k).pc + 1 ∧
       (∀ i, i ≠ a → u.axis i = s.axis i) ∧ u.mem = s.mem
     (f.sel = 0 → s.mayReach k false ad 6 = true → x.queue.length + x.skipped < 64 → ∀ g, s.segOf a (ws 6) = some g →
       ∃ u, exec (.segpush c f) s = .next u ∧ u.core k = s.afterR k f.d.toNat (wd (63 - (x.queue.length + x.skipped))) ∧
         u = (s.setAxis a { x with queue := x.queue ++ [g] }).instrEnd k (u.core k)) ∧
     (f.sel = 0 → s.mayReach k false ad 6 = true → x.queue.length + x.skipped = 64 →
       Faults (.segpush c f) c (encC 0x88 f) s 0x0B (wd a)) ∧
     (f.sel = 1 → s.mayReach k false ad 16 = true → x.st = .unconf ∨ x.st = .disabled → s.axisConfigOk a (ws 16) = true →
       ∃ u, exec (.config c f) s = .next u ∧ done u ∧ u.axis a = { x with
         desc := ws 16, st := .disabled, queue := [], stop := none, segdone := 0, skipped := 0, starves := 0, satref := 0 }) ∧
     (f.sel = 2 → x.st = .disabled → ∃ u, exec (.enable c f) s = .next u ∧ done u ∧
       u.axis a = { x with st := .ready, pref := s.axisFeedback a, stop := none } ∧
       (u.lane x.plane).pendEnable = some (true, coreSrc k, s.cc)) ∧
     (f.sel = 3 → x.st ≠ .unconf → s.conflicts = [] →
       (∀ i, i ≠ a → (s.axis i).st ≠ .unconf → (s.axis i).plane ∉ axisLanes x.desc) →
       ∃ u, exec (.disable c f) s = .next u ∧ done u ∧
       u.axis a = { x.settle with st := .disabled, stop := none, pref := (s.axisNow a).1 } ∧
       (u.lane x.plane).pendEnable = (if l.enabled then some (false, coreSrc k, s.cc) else none)) ∧
     (f.sel = 4 → s.canGo a = true → s.goChecks a = true → ∃ u, exec (.go c f) s = .next u ∧
       u.g k f.d.toNat = 0 ∧ (u.core k).pc = (s.core k).pc + 1 ∧ (∀ i, i ≠ a → u.axis i = s.axis i) ∧
       (bit (x.w 0) 27 = false → u.mem = s.mem) ∧
       (u.axis a).st = .moving ∧ (u.axis a).p0 = x.pref ∧ (u.axis a).v0 = 0 ∧ (u.axis a).g0 = (s.agroup x.group).gt ∧
       (u.axis a).queue.length = x.queue.length ∧ (u.axis a).starved = false) ∧
     (x.st = .moving ∨ x.st = .starving →
       let stopped := fun (u : State) d q => done u ∧
         (let st := { p := (s.axisNow a).1, v := (s.axisNow a).2, t := s.elapsed, decel := d, toFault := false, quick := q }
          u.axis a = { x.settle with st := .stopping, queue := [], stop := some st })
       (f.sel = 5 → ∃ u, exec (.stop c f) s = .next u ∧ stopped u x.dstop false) ∧
       (f.sel = 6 → ∃ u, exec (.qstop c f) s = .next u ∧ stopped u x.dquick true)) ∧
     (f.sel = 7 → x.st = .disabled ∨ x.st = .ready ∨ x.st = .fault →
       ∃ u, exec (.flush c f) s = .next u ∧ done u ∧ u.axis a = { x.settle with queue := [] }) ∧
     (f.sel = 8 → s.mayReach k false ad 2 = true → x.st = .disabled ∨ x.st = .ready →
       let p := (dword ((ws 2).getD 0 0) ((ws 2).getD 1 0)).toInt
       (l.enabled = true → ∃ u, exec (.setpos c f) s = .next u ∧ done u ∧ u.axis a = { x with setpos := some p }) ∧
       (l.enabled = false → l.pendEnable = none → ∃ u, exec (.setpos c f) s = .next u ∧ done u ∧
         u.axis a = { x with pref := p } ∧ (u.lane x.plane).w 41 = (ws 2).getD 0 0 ∧
         (u.lane x.plane).w 42 = (ws 2).getD 1 0 ∧ (u.lane x.plane).w 43 = wd (s.laneInput x.plane 0 % 2 ^ 32).toNat ∧
         (u.lane x.plane).w 44 = 0 ∧ (u.lane x.plane).w 45 = 0)) ∧
     (f.sel = 9 → x.st = .fault → ∃ u, exec (.clear c f) s = .next u ∧ done u ∧
       u.axis a = { x with st := .ready, limit := false, follow := false }) ∧
     (f.sel = 5 ∨ f.sel = 6 → x.st = .ready → ∃ u, exec (.stop c { f with sel := 5 }) s = .next u ∧
       u.g k f.d.toNat = 1 ∧ u.axes = s.axes)) ∧
  (∀ (c : CoreId) (f : CF) (s : State), requestReady c s = true →
     let k := coreKey c
     let a := (s.g k f.d.toNat).toNat % 256
     let ad := s.g k f.a.toNat
     let gr := (s.axis a).group
     let inGroup := fun i => i < 256 ∧ (s.axis i).st ≠ .unconf ∧ (s.axis i).group = gr
     ((∀ i, i = a ∨ inGroup i → s.offAxisOwner k i = false ∧ (s.axis i).setpos = none) → (∀ i < 256, State.axisRun i 66 s = s) → s.orders = [] →
       (f.sel = 16 → (∃ i, inGroup i ∧ s.canGo i = true) → (∀ i, inGroup i → s.canGo i = true → s.goChecks i = true) →
         ∃ u, exec (.gstart c f) s = .next u ∧ u.g k f.d.toNat = 0 ∧
           (∀ i, inGroup i → s.canGo i = true → (u.axis i).st = .moving ∧ (u.axis i).p0 = (s.axis i).pref ∧
             (u.axis i).g0 = (s.agroup gr).gt) ∧
           (∀ i, ¬ (inGroup i ∧ s.canGo i = true) → u.axis i = s.axis i)) ∧
       (f.sel = 17 → 0x20000 < ad.toNat % 2 ^ 18 → ∃ u, exec (.govr c f) s = .next u ∧ u.g k f.d.toNat = 4 ∧
         u.axGroups = s.axGroups) ∧
       (f.sel = 17 → ad.toNat % 2 ^ 18 ≤ 0x20000 → ∃ u, exec (.govr c f) s = .next u ∧ u.core k = s.afterR k f.d.toNat 0 ∧
         u.agroup gr = { s.agroup gr with ovrset := ad.toNat % 2 ^ 18 } ∧ (∀ g, g ≠ gr → u.agroup g = s.agroup g) ∧
         u = { s.instrEnd k (u.core k) with axGroups := u.axGroups, orders := u.orders }) ∧
       (f.sel = 18 → ∃ u, exec (.gslew c f) s = .next u ∧ u.core k = s.afterR k f.d.toNat 0 ∧
         u.agroup gr = { s.agroup gr with slew := ad.toNat % 2 ^ 16 } ∧ (∀ g, g ≠ gr → u.agroup g = s.agroup g) ∧
         u = { s.instrEnd k (u.core k) with axGroups := u.axGroups, orders := u.orders })) ∧
     (f.sel.toNat < 8 →
       let b := ad.toNat % 256
       exec (.axstat c f) s = .next
         ((if f.sel = 7 then s.setAxis b { s.axis b with fepeak := 0 } else s).instrEnd k
           (s.afterR k f.d.toNat ((s.axis b).stat f.sel.toNat)))))

/-! ### The journal (R190 - R194, R308 - R322) -/

/-- Completion (exec answers a next state with the own effect, on conditions of state and operands alone) of jbegin, jprog,
jend, jquery, mirrorAck. JBEGIN, JPROG, JEND and JQUERY (R191 - R194, R311 - R314, R318), without a mirror and with room:
JBEGIN writes the INTENT line and a RESERVED line into two FREE ones and issues the next handle; JPROG rewrites the field's
line with its count one higher, or takes a FREE one; JEND turns the RESERVED line into DONE and sets Z; a step that is not
open is refused with ERRC.REFUSE 0x04; the 1,025th step takes fault 0x0C; JQUERY stores 64 words for each open step and
answers their number. The mirror (R322): a journal instruction of a mirrored journal whose line is written waits, and the
line goes to the standby; at the acknowledgement the oldest waiting instruction completes, JBEGIN with its handle in Gd, JEND
with Z = 1, and its core goes on. -/
def Obligations.JournalInstructions : Prop :=
  (∀ (c : CoreId) (s : State), requestReady c s = true → s.outstanding (coreKey c) = 0 → s.holdup = false →
     s.spineQuiet = true → let k := coreKey c
     let only := fun (u : State) (ls : List Nat) => (∀ a, a < jrnlBase ∨ (a - jrnlBase) / 8 ∉ ls → u.word a = s.word a) ∧
       (∀ o, o ≠ offJrnl 0 → o ≠ offJrnl 1 → u.reg o = s.reg o) ∧
       u = { s.instrEnd k (u.core k) with mem := u.mem, regs := u.regs, free := u.free, spine := u.spine, jLast := u.jLast, peer := { s.peer with dirty := u.peer.dirty } }
     let line := fun (u : State) (i kind field : Nat) h w4 w5 => i < 8192 ∧
       ∀ w < 8, u.jWord i w = (s.jRecord k kind field h w4 w5).getD w 0
     let refused := { s.afterI k with fl := setBit (s.core k).fl 5 true, errc := setFld (s.core k).errc 15 8 4 }
     (∀ f : CF, f.sel = 0 →
       let h := s.reg (offJrnl 1) + 1
       (s.jOpenSteps.length < 1024 → s.jLines.length + 2 ≤ 8192 → h ≠ 0 → s.jStep h = [] → bit (s.reg (offJrnl 0)) 2 = false →
         ∃ u i j, exec (.jbegin c f) s = .next u ∧ i ≠ j ∧ s.jKind i = 0 ∧ s.jKind j = 0 ∧
           line u i 1 0 h (s.g k f.a.toNat) 0 ∧ line u j 4 0 h 0 0 ∧ u.reg (offJrnl 1) = h ∧
           u.core k = s.afterR k f.d.toNat h ∧ only u [i, j]) ∧
       (1024 ≤ s.jOpenSteps.length → exec (.jbegin c f) s = .next
         (State.takeFault ((s.setRfld (offJrnl 0) 0 0 1).incReg (offJrnl 3) 1) k 0x0C 0 (encC 0x90 f)))) ∧
     (∀ f : RF, f.d = 0 → f.fn.toNat < 16 →
       let h := s.g k f.a.toNat
       let v := s.g k f.b.toNat
       (∀ i, s.jOpen h = true → s.jFind h 2 f.fn.toNat = some i → s.jMeets i = (false, s) → ∃ u, exec (.jprog c f) s = .next u ∧
         line u i 2 f.fn.toNat h v (s.jWord i 5 + 1) ∧ u.core k = s.afterI k ∧ only u [i]) ∧
       (s.jOpen h = true → s.jFind h 2 f.fn.toNat = none → s.jLines.length < 8192 → ∃ u i, exec (.jprog c f) s = .next u ∧
         s.jKind i = 0 ∧ line u i 2 f.fn.toNat h v 1 ∧ u.core k = s.afterI k ∧ only u [i]) ∧
       (s.jOpen h = false → Completes (.jprog c f) c s refused)) ∧
     (∀ f : RF, f.d = 0 → f.b = 0 → f.fn = 0 →
       let h := s.g k f.a.toNat
       (∀ i j, s.jOpen h = true → s.jFind h 1 0 = some i → s.jFind h 4 0 = some j → s.jMeets i = (false, s) →
         bit (s.reg (offJrnl 0)) 2 = false →
         ∃ u, exec (.jend c f) s = .next u ∧ line u j 3 0 h (s.jWord i 4) 0 ∧
           u.core k = { s.afterI k with fl := FlagSet.apply { z := some true } (s.core k).fl } ∧ only u [j]) ∧
       (s.jOpen h = false → Completes (.jend c f) c s
         { refused with fl := FlagSet.apply { z := some false } refused.fl })) ∧
     (∀ f : CF, f.sel.toNat < 4096 → s.mayReach k true (s.g k f.a.toNat) (64 * f.sel.toNat) = true →
       (s.g k f.a.toNat).toNat + 64 * f.sel.toNat < 2 ^ 36 →
       (∀ h ∈ s.jOpenSteps, ∀ i ∈ s.jStep h, Tab.get {} s.mem.errs (jrnlBase / 8 + i) = {} ∧ s.poisoned (jrnlBase + 8 * i) = false) →
       ∃ u, exec (.jquery c f) s = .next u ∧ Stored s u k (s.afterR k f.d.toNat (wd s.jOpenSteps.length))
         (s.g k f.a.toNat).toNat ((s.jOpenSteps.take f.sel.toNat).flatMap s.jEntry))) ∧
  ((∀ (c : CoreId) (f : RF) (s : State) (i j : Nat), requestReady c s = true → s.outstanding (coreKey c) = 0 → s.holdup = false →
     s.spineQuiet = true → let k := coreKey c
     let h := s.g k f.a.toNat
     f.d = 0 → f.b = 0 → f.fn = 0 → s.jOpen h = true → s.jFind h 1 0 = some i → s.jFind h 4 0 = some j →
     s.jMeets i = (false, s) → bit (s.reg (offJrnl 0)) 2 = true →
       ∃ u, exec (.jend c f) s = .next u ∧ u.core k = s.core k ∧ u.jKind j = 3 ∧
         u.mirror = s.mirror ++ [MirrorWait.mk k false 0 h (encR 0x92 f)] ∧
         u.outbox = s.outbox ++ [Msg.pairRecord (u.lineRecord ((jrnlBase + 8 * j) / 8))]) ∧
   (∀ (s : State) (m : MirrorWait) (r : List MirrorWait), s.mirror = m :: r → m.core ≠ 64 → s.twinRole m.core = none →
     (∀ n, (s.core m.core).task = some n → (s.task n).wdog = false) →
       exec .mirrorAck s = .next (State.setCore { s with mirror := r } m.core (if m.begins then s.afterR m.core m.d m.handle
         else { s.afterI m.core with fl := FlagSet.apply { z := some true } (s.core m.core).fl }))))

/-! ### Recording and privileged instructions (R195 - R197, R136 - R139) -/

/-- Completion (exec answers a next state with the own effect, on conditions of state and operands alone) of recmark, caparm,
forceSet, forceRelease, forceReleaseAll. RECMARK (R195, R474) and CAPARM (R195, R480, R484): a mark closes a MARKER segment
with the value word and the present time, for 8 words of credit and one item, and of a signal that is not declared it is
refused with ERRC.REFUSE 0x04; CAPARM arms an IDLE or ARMED unit that the core owns, stops one by STOP, holds a descriptor
for a RECORDING one, refuses a bad descriptor with 0x02, and answers the unit's state before; without ownership a tile takes
fault 0x09. FORCE (R235 - R239): SET writes the point and its value into the lowest free entry, RELEASE empties the point's
entry and RELEASE_ALL every one, with ACCEPTED in Gd; COUNT and ACTIVE of FORCE.STAT follow, and nothing else of memory
changes. SET by pair 1, or outside RUN, EXCHANGE and TEST, is NOT_ALLOWED; RELEASE with KIND 0 or 3 is RANGE. No line of the
table is poisoned or disturbed. -/
def Obligations.RecordingAndForceInstructions : Prop :=
  (∀ (c : CoreId) (f : CF) (s : State), requestReady c s = true →
     let k := coreKey c
     let u := f.sel.toNat % 16
     let x := s.cap u
     let a := s.g k f.a.toNat
     let ws := (List.range 16).map (fun i => s.wordAt k (a + wd i).toNat)
     let y := s.afterR k f.d.toNat (wd x.st)
     let refused := fun (z : Core) code => { z with
       fl := setBit (s.core k).fl 5 true, errc := setFld (s.core k).errc 15 8 code }
     let n := f.sel.toNat
     let sg := s.signal n
     (n < 16384 → f.a = 0 → s.declared n = false → Completes (.recmark c f) c s (refused (s.afterI k) 4)) ∧
     (n < 16384 → f.a = 0 → s.declared n = true → s.recording = true → s.sigReads n = (false, s) → sg.seg = none → 8 ≤ sg.credit →
       ∃ t, exec (.recmark c f) s = .next t ∧ t.core k = s.afterI k ∧
         t.signal n = { sg with credit := sg.credit - 8, sseq := (sg.sseq + 1) % 2 ^ 36, overcnt := 0, dropcnt := 0 } ∧
         (∃ g ∈ t.hist.closed, g.signal = n ∧ g.cc = s.cc ∧ g.entryWords = 1 ∧ g.words = [
           wd (at_ 3 32 + at_ (b2n s.forceActive) 31 + n), wd sg.sseq, dlo s.t72, dhi s.t72, dlo s.t72, dhi s.t72,
           s.g k f.d.toNat, wd (at_ sg.overcnt 18 + sg.dropcnt)]) ∧
         (t.stream strHist).produced = (s.stream strHist).produced + 1 ∧ (∀ m, m ≠ n → t.signal m = s.signal m) ∧
         t = { s.instrEnd k (s.afterI k) with hist := t.hist, census := t.census }) ∧
     (f.sel.toNat < 16 → s.mayReach k false a 16 = true → k < 64 → Tab.get 0 s.owners (offCap u 0) ≠ k + 1 →
       Faults (.caparm c f) c (encC 0x99 f) s 0x09 (wd (offCap u 0))) ∧
     (f.sel.toNat < 16 → s.mayReach k false a 16 = true → 64 ≤ k ∨ Tab.get 0 s.owners (offCap u 0) = k + 1 →
       (bit (ws.getD 0 0) 35 = false → s.capOk ws = false → Completes (.caparm c f) c s (refused y 2)) ∧
       (x.st < 2 → bit (ws.getD 0 0) 35 = false → s.capOk ws = true → ∃ t, exec (.caparm c f) s = .next t ∧
         (t.cap u).st = 1 ∧ (t.cap u).desc = ws ∧ (t.cap u).armedAt = s.cc ∧ (t.cap u).samples = [] ∧
         (t.cap u).records = x.records ∧ (∀ v, v ≠ u → t.cap v = s.cap v) ∧ t = { s.instrEnd k y with caps := t.caps }) ∧
       (x.st < 2 → bit (ws.getD 0 0) 35 = true → ∃ t, exec (.caparm c f) s = .next t ∧
         (t.cap u).st = 0 ∧ (t.cap u).records = x.records ∧ (∀ v, v ≠ u → t.cap v = s.cap v) ∧
         t = { s.instrEnd k y with caps := t.caps }) ∧
       (2 ≤ x.st → s.capOk ws = true → ∃ t, exec (.caparm c f) s = .next t ∧ t.cap u = { x with held := some ws } ∧
         (∀ v, v ≠ u → t.cap v = s.cap v) ∧ t = { s.instrEnd k y with caps := t.caps }))) ∧
  (∀ (c : CoreId) (f : CF) (s : State), requestReady c s = true →
     let k := coreKey c
     let a := s.g k f.a.toNat
     let ws := (List.range 4).map (fun i => s.wordAt k (a + wd i).toNat)
     let p := ws.getD 1 0
     let src := ws.getD 2 0
     let v := ws.getD 3 0
     let stat := fun (u : State) => u.reg offForceStat = wd (2 * u.forces.length + b2n (u.forces.length != 0)) ∧
       (∀ o, o ≠ offForceStat → u.reg o = s.reg o) ∧ (∀ j, j ≠ k → u.core j = s.core j)
     let entry := fun (u : State) (e : Nat) (l : List Word) => (∀ i < 4, u.word (e + i) = l.getD i 0) ∧
       (∀ b, b < e ∨ e + 4 ≤ b → u.word b = s.word b)
     let named := fld p 33 32 = 1 ∨ fld p 33 32 = 2
     64 ≤ k → f.sel = 0 → s.mayReach k false a 4 = true → fld (ws.getD 0 0) 33 0 = 0 → s.forcesMet = (false, s) →
     (fld (ws.getD 0 0) 35 34 = 0 → k = 65 ∨ (s.mode ≠ 4 ∧ s.mode ≠ 5 ∧ s.mode ≠ 11) → Completes (.forceSet c f) c s
       { s.afterR k f.d.toNat 1 with fl := setBit (s.core k).fl 5 true, errc := setFld (s.core k).errc 15 8 3 }) ∧
     (∀ e, fld (ws.getD 0 0) 35 34 = 0 → k = 64 → s.mode = 4 ∨ s.mode = 5 ∨ s.mode = 11 → forcePointOk p src = true →
       v.toNat < 2 ^ fld p 9 4 → (∀ x ∈ s.forces, (s.forceSame x p src).2 = false) → s.forceFree = some e → s.orders = [] →
       s.wordClean 65 e = true → ∃ u, exec (.forceSet c f) s = .next u ∧ u.core k = s.afterR k f.d.toNat 0 ∧
         entry u e [setBit p 35 true, src, v, wd s.sched.tick] ∧ stat u) ∧
     (fld (ws.getD 0 0) 35 34 = 1 → s.mode ≠ 0 → ¬ named → Completes (.forceRelease c f) c s
       { s.afterR k f.d.toNat 4 with fl := setBit (s.core k).fl 5 true, errc := setFld (s.core k).errc 15 8 4 }) ∧
     (∀ e, fld (ws.getD 0 0) 35 34 = 1 → s.mode ≠ 0 → named → s.forceFind p src = some e → s.orders = [] → s.wordClean 65 e = true →
       ∃ u, exec (.forceRelease c f) s = .next u ∧ u.core k = s.afterR k f.d.toNat 0 ∧ entry u e [0, 0, 0, 0] ∧ stat u) ∧
     (fld (ws.getD 0 0) 35 34 = 1 → s.mode ≠ 0 → named → s.forceFind p src = none → s.orders = [] →
       ∃ u, exec (.forceRelease c f) s = .next u ∧ u = { s.instrEnd k (s.afterR k f.d.toNat 0) with orders := u.orders }) ∧
     (fld (ws.getD 0 0) 35 34 = 2 → s.mode ≠ 0 → s.orders = [] → s.forces.Nodup → (∀ x ∈ s.forces, s.wordClean 65 x = true) →
       ∃ u, exec (.forceReleaseAll c f) s = .next u ∧ u.core k = s.afterR k f.d.toNat 0 ∧ u.forces = [] ∧ stat u ∧
         (∀ b, b < forceBase ∨ forceBase + 0x4000 ≤ b → u.word b = s.word b)))

/-- Completion (exec answers a next state with the own effect, on conditions of state and operands alone) of mode, forceSet,
forceRelease, forceReleaseAll, censusCopy, censusExtraCheck, ownset, classset, taskset, codeload, ringset. The privileged
instructions fault 0x05 on a tile, and OWNSET, CLASSSET, TASKSET, CODELOAD and RINGSET on Crown pair 1 too (R138, R139);
outside INIT and COMMISSION the commissioning ones answer NOT_ALLOWED with E and ERRC.REFUSE 0x03 (R139, R197). MODE, CENSUS,
OWNSET, CLASSSET, TASKSET, CODELOAD and RINGSET on the Crown (R196, R197, R17, R199, R212, R354, R571, R572): the effect of
each, with ACCEPTED (0) in Gd; an accepted RINGSET waits for its cycle and queues one message for each node of the layout.
MODE begins the transition: TRANS is 1, the mode stays, and running tasks that the target does not grant come under an
orderly stop; a transition that the table does not hold is NOT_ALLOWED. -/
def Obligations.CrownInstructions : Prop :=
  (∀ (c : CoreId) (f : CF) (s : State), requestReady c s = true → f.sel = 0 →
     let k := coreKey c
     let denied := { s.afterR k f.d.toNat 1 with
       fl := setBit (s.core k).fl 5 true, errc := setFld (s.core k).errc 15 8 3 }
     (k < 64 →
       Faults (.mode c f) c (encC 0xF0 f) s 5 0 ∧ Faults (.forceSet c f) c (encC 0xF1 f) s 5 0 ∧
       Faults (.forceRelease c f) c (encC 0xF1 f) s 5 0 ∧ Faults (.forceReleaseAll c f) c (encC 0xF1 f) s 5 0 ∧
       Faults (.censusCopy c f) c (encC 0xF2 f) s 5 0 ∧ Faults (.censusExtraCheck c { f with sel := 1 }) c
         (encC 0xF2 { f with sel := 1 }) s 5 0) ∧
     (k < 64 ∨ k = 65 →
       Faults (.ownset c f) c (encC 0xF3 f) s 5 0 ∧ Faults (.classset c f) c (encC 0xF4 f) s 5 0 ∧
       Faults (.taskset c f) c (encC 0xF5 f) s 5 0 ∧ Faults (.codeload c f) c (encC 0xF6 f) s 5 0 ∧
       Faults (.ringset c f) c (encC 0xF7 f) s 5 0) ∧
     (k = 64 → s.mode ≠ 2 → s.mode ≠ 3 →
       Completes (.ownset c f) c s denied ∧ Completes (.classset c f) c s denied ∧
       Completes (.ringset c f) c s denied ∧ Completes (.taskset c f) c s denied ∧ Completes (.codeload c f) c s denied)) ∧
  (∀ (c : CoreId) (f : CF) (s : State), requestReady c s = true →
     let k := coreKey c
     let a := s.g k f.a.toNat
     let b := s.g k f.d.toNat
     let y := s.afterR k f.d.toNat 0
     let answer := fun (code refuse : Nat) => { s.afterR k f.d.toNat (wd code) with
       fl := setBit (s.core k).fl 5 true, errc := setFld (s.core k).errc 15 8 refuse }
     let m := fld a 3 0
     (64 ≤ k → f.sel = 0 → s.holdup = false → s.modes.inReset = false → s.modes.trans = none → s.mode ≠ 5 →
       (s.modeAllowed m = false → Completes (.mode c f) c s (answer 1 3)) ∧
       (s.modeAllowed m = true → m = 4 → s.mode ≠ 1 → s.classesOk = false → Completes (.mode c f) c s (answer 4 4)) ∧
       (s.modeAllowed m = true → m ≠ 4 ∨ s.mode = 1 ∨ s.classesOk = true → s.orders = [] →
         ∃ u, exec (.mode c f) s = .next u ∧ u.core k = y ∧ bit (u.reg offSysMode) 7 = true ∧ u.mode = s.mode ∧
           u.modes.trans = some (m, if k = 65 then 2 else 3) ∧ u.loc = s.loc ∧ u.lanes = s.lanes ∧ u.axes = s.axes ∧
           (∀ n, (s.task n).st = .running → u.task n = { s.task n with
             stopping := (s.task n).stopping || !modeGrants m (s.task n).diag }))) ∧
     (f.sel = 0 → s.mayReach k true a 1840 = true → 64 ≤ k → a.toNat + 1840 < 2 ^ 36 →
       s.meets censusBase 1840 = (false, s) →
       ∃ u, exec (.censusCopy c f) s = .next u ∧
         Stored s u k (s.afterR k f.d.toNat (s.reg offCensusSeq)) a.toNat (s.words censusBase 1840)) ∧
     (f.sel = 1 → 64 ≤ k → s.census.sample = none → ∃ u, exec (.censusExtraCheck c f) s = .next u ∧
       (let due := s.censusRuns && s.censusDue
        u.core k = s.afterR k f.d.toNat (s.reg offCensusSeq + 1 + (if due then 1 else 0)) ∧
        u = { s.instrEnd k (u.core k) with census := { s.census with extra := some (s.cc + 1), apart := due } })) ∧
     (k = 64 → s.mode = 2 ∨ s.mode = 3 →
       (f.sel = 0 → ownable (fld a 19 0) = true → exec (.ownset c f) s = .next
         ((s.setOwner (fld a 19 0) (fld b 5 0)).instrEnd k y)) ∧
       (f.sel = 0 → ownable (fld a 19 0) = false → Completes (.ownset c f) c s (answer 4 4)) ∧
       (f.sel = 0 → a.toNat < 2 ^ 16 → exec (.classset c f) s = .next
         ((s.setReg (offMask (fld b 5 0)) a).instrEnd k y)) ∧
       (f.sel = 0 → 2 ^ 16 ≤ a.toNat → Completes (.classset c f) c s (answer 4 4)) ∧
       (f.sel.toNat < 2048 → s.mayReach k false a 16 = true → (f.sel.toNat < 1024 ∨ f.sel.toNat / 64 % 16 = 0) →
         let ws := (List.range 16).map (fun i => s.wordAt k (a + wd i).toNat)
         let n := if f.sel.toNat < 1024 then f.sel.toNat else 1024 + f.sel.toNat % 64
         ((s.task n).busy = true → Completes (.taskset c f) c s (answer 1 3)) ∧
         ((s.task n).busy = false → taskDescOk n ws = false → Completes (.taskset c f) c s (answer 4 4)) ∧
         ((s.task n).busy = false → taskDescOk n ws = true → ∃ u, exec (.taskset c f) s = .next u ∧
           (u.task n).desc = (if fld (ws.getD 0 0) 35 34 = 0 then [] else ws) ∧ (u.task n).queue = (s.task n).queue ∧
           ((u.task n).st = .unused ↔ fld (ws.getD 0 0) 35 34 = 0) ∧ (∀ j, j ≠ n → u.task j = s.task j) ∧
           u = { s.instrEnd k y with tasks := u.tasks })) ∧
       (f.sel = 0 → s.mayReach k false a 5 = true →
         let ds := fun i => s.wordAt k (a + wd i).toNat
         let src := ds 0
         let n := (ds 1).toNat
         let mask := (dword (ds 3) (ds 4)).toNat
         inOneRange src.toNat n = true → (ds 2).toNat + n ≤ 0xE000 → mask < 2 ^ 64 → s.mayReach k false src n = true →
         ∃ u, exec (.codeload c f) s = .next u ∧ u.core k = y ∧
           (∀ t < 64, mask.testBit t = true → ∀ i < n, u.locWord t ((ds 2).toNat + i) = s.wordAt k (src + wd i).toNat) ∧
           (∀ t < 64, mask.testBit t = false → ∀ i < 65536, u.locWord t i = s.locWord t i) ∧
           u = { s.instrEnd k y with loc := u.loc }) ∧
       (f.sel.toNat < 2 → s.mayReach k false a 16 = true →
         let ws := (List.range 16).map (fun i => s.wordAt k (a + wd i).toNat)
         s.tableRead ws = (none, s) →
         (s.ringCheck f.sel.toNat (s.ringBlock ws) = none → Completes (.ringset c f) c s (answer 4 4)) ∧
         (∀ x, s.ringCheck f.sel.toNat (s.ringBlock ws) = some x →
           let n := f.sel.toNat
           let room := match (s.ring n).cfg with
             | some d => if (s.ring n).run then min x.mbxmax d.mbxmax else x.mbxmax
             | none => x.mbxmax
           ∃ u, exec (.ringset c f) s = .next u ∧ u = { s.instrEnd k y with rings := u.rings, census := u.census } ∧
             (u.ring n).waiting = some (x, s.cc) ∧ (u.ring n).cfg = (s.ring n).cfg ∧ (∀ q, q ≠ n → u.ring q = s.ring q) ∧
             (x.mode = 0 → u.ring n = { s.ring n with waiting := some (x, s.cc) }) ∧
             (x.mode ≠ 0 → 12 ≤ room → (u.ring n).msgs.map MbxMsg.dst =
               (s.ring n).msgs.map MbxMsg.dst ++ (List.range x.nodes).map (fun i => (x.entry (i + 1)).1))))))

/-! ### Host requests (R563 - R567, R616) -/

/-- Completion (exec answers a next state with the own effect, on conditions of state and operands alone) of program,
modeRequest, forceRequest, trapresume, safety, pair, confirm. A response entry (R567): 16 words at slot RSPPI modulo 256 with
the code and status, the tag, the time while TIME.STAT.LOADED is 1, the results and the check in word 15; RSPPI rises by one,
and one item is produced in the host response stream. An entry whose check fails is dropped under reason 0x02 and answered
BADREQ, and so is a code that R564 does not give (R566); a row in a mode that its table line does not hold answers
NOT_ALLOWED (R564). Shown for MODE's row, whatever the entry's code is. Requests that steer the machine (R564): PROGRAM puts
56 words into pair 0's program words and starts it there (R616), MODE begins a transition (R572), FORCE sets a force (R237),
TRAPRESUME lets a TRAPPED task go on at the next tick (R164), SAFETY in COMMISSION takes a good block for the LOAD code
(R524), PAIR forms the pair (R530), CONFIRM ends a trial (R586). -/
def Obligations.ControlRequests : Prop :=
  (∀ (s : State) (code status : Nat) (tag : Word) (res : List Word), code < 256 → status < 256 → res.length ≤ 6 →
     let u := s.respond code status tag res
     let a := Config.hostArea + 0x6000 + 16 * (s.host.rsppi.toNat % 256)
     let t := if s.rfld offTimeStat 3 3 = 1 then s.t72 else 0
     u.word a = wd (code * 2 ^ 28 + status * 2 ^ 20) ∧ u.word (a + 1) = tag ∧ u.word (a + 2) = dlo t ∧ u.word (a + 3) = dhi t ∧
     (∀ i < 6, u.word (a + 4 + i) = res.getD i 0) ∧ (∀ i, 10 ≤ i → i < 15 → u.word (a + i) = 0) ∧
     u.word (a + 15) = wd (crc32cWords (u.words a 15)) ∧ (∀ b, b < a ∨ a + 16 ≤ b → u.word b = s.word b) ∧
     u.host.rsppi = s.host.rsppi + 1 ∧ (u.stream strRsp).produced = (s.stream strRsp).produced + 1 ∧
     u.regs = s.regs ∧ u.cores = s.cores ∧ u.tasks = s.tasks) ∧
  (∀ s : State, s.mayTake = true → s.mem.errs = [] →
     let e := s.reqEntry
     let t : State := { s with host := { s.host with reqci := s.host.reqci + 1 } }
     (s.reqGood = false → exec .modeRequest s = .next ((t.drop strReq 2 1).respond e.code 6 e.tag [])) ∧
     (s.reqGood = true → e.buf = none → e.code = 0 ∨ 0x11 < e.code →
       exec .modeRequest s = .next (s.taken.respond e.code 6 e.tag [])) ∧
     (s.entryFor 0x10 = true → e.buf = none → s.mode ≠ 2 → s.mode ≠ 3 → Answers .bufcfg s s.taken 0x10 1 []) ∧
     (s.entryFor 0x5 = true → e.buf = none → s.mode ≠ 3 → s.mode ≠ 11 → Answers .trapresume s s.taken 5 1 [])) ∧
  (∀ s : State, s.reqEntry.buf = none →
     let e := s.reqEntry
     let v := s.taken
     (s.entryFor 1 = true → s.mode ≠ 7 → ∃ u, exec .program s = .next u ∧ u.host.prog = some { tag := e.tag } ∧
       u.core 64 = { sp := 0x10000, stackTop := 0x10000, stackLimit := 0xFC00 } ∧
       (∀ i < 56, u.locWord 64 i = e.word (8 + i)) ∧ u.host.reqci = s.host.reqci + 1 ∧
       u = { v with loc := u.loc, cores := u.cores, host := u.host }) ∧
     (s.entryFor 2 = true → s.holdup = false → s.modes.inReset = false → s.modes.trans = none → s.mode ≠ 5 →
       s.modeAllowed (fld (e.word 3) 3 0) = true → s.orders = [] → fld (e.word 3) 3 0 ≠ 4 →
       ∃ t, Answers .modeRequest s t 2 0 [] ∧ bit (t.reg offSysMode) 7 = true ∧ t.mode = s.mode ∧
         t.modes.trans = some (fld (e.word 3) 3 0, 3) ∧ t.cores = s.cores) ∧
     (∀ a, s.entryFor 3 = true → s.linesPoisoned (forceBase / 8) 2048 = false → e.word 3 = 0 → s.mode = 4 ∨ s.mode = 5 ∨ s.mode = 11 → forcePointOk (e.word 4) (e.word 5) = true →
       (e.word 6).toNat < 2 ^ fld (e.word 4) 9 4 → (∀ x ∈ s.forces, (s.forceSame x (e.word 4) (e.word 5)).2 = false) →
       s.forceFree = some a → s.orders = [] → s.wordClean 65 a = true →
       ∃ t, Answers .forceRequest s t 3 0 [] ∧ t.word a = setBit (e.word 4) 35 true ∧ t.word (a + 1) = e.word 5 ∧
         t.word (a + 2) = e.word 6 ∧ t.word (a + 3) = wd s.sched.tick ∧ (∀ b, b < a ∨ a + 4 ≤ b → t.word b = s.word b) ∧
         t.cores = s.cores) ∧
     (s.entryFor 5 = true → s.mode = 3 ∨ s.mode = 11 →
       let n := 256 * fld (e.word 3) 9 8 + fld (e.word 3) 7 0
       ((s.task n).st = .trapped → Answers .trapresume s (v.setTask n { s.task n with resume := true, acc := s.cc }) 5 0 []) ∧
       ((s.task n).st = .unused → Answers .trapresume s v 5 4 []) ∧
       ((s.task n).st = .idle → Answers .trapresume s v 5 1 [])) ∧
     (s.entryFor 0xA = true → Answers .safety s v 0xA 4 []) ∧
     (∀ p, s.entryFor 0xB = true → s.mode = 2 → s.modes.trans = none →
       let args := (e.w.drop 3).take 18
       (s.pairRefused args p = true → Answers (.pair p) s v 0xB 4 []) ∧
       (s.pairRefused args p = false → fld (args.getD 0 0) 35 34 = 1 → ∃ t, Answers (.pair p) s t 0xB 0 [] ∧
         t.role = 1 ∧ t.reg (offPair 6) = wd (fld (args.getD 0 0) 3 0) ∧ t.reg (offPair 7) = args.getD 1 0 ∧
         t.peer.full = true ∧ t.peer.regions = pairRegions args ∧ t.mode = 2 ∧ t.mem = s.mem ∧ t.cores = s.cores)) ∧
     (s.entryFor 0x11 = true → s.mode ≠ 7 →
       (bit (s.reg offSysMode) 5 = true → ∃ t, Answers .confirm s t 0x11 0 [] ∧ bit (t.reg offSysMode) 5 = false ∧
         t.mode = s.mode ∧ t.rfld (offUpd 0) 35 27 = 0 ∧ t.store.window = 0 ∧ t.mem = s.mem ∧ t.cores = s.cores) ∧
       (bit (s.reg offSysMode) 5 = false → Answers .confirm s v 0x11 1 [])))

/-- Completion (exec answers a next state with the own effect, on conditions of state and operands alone) of load, exchange,
safety, update. Requests that load images from a buffer that DEVICE owns and that holds no poison (R225, R226, R524, R564,
R577, R582): LOAD puts the program's descriptors and code in force and keeps the image, EXCHANGE enters the mode EXCHANGE
with the image loading, SAFETY puts the block into Brim's mailbox, UPDATE answers with a cause; a program that fails its
checks is RANGE. The buffer returns with USE 6. -/
def Obligations.ImageRequests : Prop :=
  ∀ (s : State) (b : Nat), s.reqEntry.buf = some b → s.linesPoisoned (bufDesc b / 8) 1 = false → s.bufDevice b = true →
    s.bufPoisoned b = false → s.modes.trans = none →
    let e := s.reqEntry
    let v := s.taken
    let ws := s.bufWords b
    let clean := fun (u : State) (old : ProgramImage) => ∀ img, Config.parseImage ws = some img →
      ((u.loadAreas (img.areas.filter (fun a => !old.areas.contains a))).readProgram old img).1 = false
    (s.entryFor 0xE = true → s.mode = 2 ∨ s.mode = 3 → clean v noProgram → ∃ n t, Answers .load s (State.returnBuf t b) 0xE n [] ∧
      (Config.parseImage ws = none → n = 4 ∧ t = v) ∧ (n ≠ 0 → t = v) ∧
      (n = 0 → t.store.program = ws ∧ ∀ img, Config.parseImage ws = some img → (img.tasks.map Prod.fst).Nodup →
        ∀ x ∈ img.tasks, (s.task x.1).busy = false ∧ taskDescOk x.1 x.2 = true ∧
          (t.task x.1).desc = (if fld (x.2.getD 0 0) 35 34 = 0 then [] else x.2)) ∧
      (∀ img, Config.parseImage ws = some img → img.tasks.any (fun x => (s.task x.1).busy) = false → img.areas.all areaOk = true →
        v.tablesOk img = true → ((v.loadAreas img.areas).readProgram noProgram img).2.blocksOk noProgram img = true → n = 0)) ∧
    (s.entryFor 4 = true → s.mode = 4 → clean v.reportFlush s.oldProgram → ∃ n t, Answers .exchange s (State.returnBuf t b) 4 n [] ∧
      (n = 0 → t.mode = 5 ∧ t.exch.phase = .loading ∧ t.exch.img = ws ∧ t.exch.buffer = fld (e.word 4) 9 0 ∧
        t.exch.limitMs = (if e.word 3 = 0 then 100 else (e.word 3).toNat)) ∧
      (n ≠ 0 → n = 4 ∧ t.mode = 4 ∧ t.exch.phase = s.exch.phase) ∧ (Config.parseImage ws = none → n = 4) ∧
      (let f := v.reportFlush
        let dst := fld (e.word 4) 9 0
        ∀ img, Config.parseImage ws = some img → (e.word 3).toNat ≤ 10000 → f.bufDevice dst = true → 8 ≤ f.bufCap dst →
          codeFits f.oldProgram img = true → f.tablesOk img = true →
          ((f.loadAreas (img.areas.filter (fun a => !f.oldProgram.areas.contains a))).readProgram f.oldProgram img).2.blocksOk f.oldProgram img = true →
          n = 0)) ∧
    (s.entryFor 0xA = true →
      exec .safety s = .next { v with brim := { s.brim with mailbox := some { words := ws, tag := e.tag, buffer := b } } }) ∧
    (s.entryFor 0xF = true → s.mode = 2 ∨ s.mode = 10 →
      let h := ws.take 256
      ∃ n cause t, Answers .update s (State.returnBuf t b) 0xF n [wd cause] ∧ (n = 0 ↔ cause = 0) ∧
        (s.headerCause h = 0 → (s.imageResult h ((ws.drop 256).take (h.getD 3 0).toNat)).1 = 0 → n = 0) ∧
        (s.headerCause h ≠ 0 → cause = s.headerCause h ∧ t.store = s.store) ∧
        (n = 0 → ∃ r, Tab.get {} t.store.spare (imgClass h) = ⟨h, r⟩ ∧
          t.store.installed = if s.mode = 10 then s.store.installed ++ [imgClass h] else s.store.installed))

/-- Completion (exec answers a next state with the own effect, on conditions of state and operands alone) of journalDump,
evrRead, historyTable, mbxsend, journalClear, historyTake, trace, evrSnapshot, mbxrecv, bufcfg. Requests that move data
(R564): JOURNAL_DUMP and EVR_READ fill the buffer (USE 3 and 4, R501), JOURNAL_CLEAR empties the region (R328), HISTORY_TAKE
releases segments (R476), HISTORY_TABLE replaces declarations (R470), TRACE takes trace entries (R224), EVR_SNAPSHOT asks for
a record (R498), MBXSEND queues a message on the ring of its route, or drops it under 0x04 without a VALID entry (R347,
R353), MBXRECV gives buffers, BUFCFG writes descriptors (R559). -/
def Obligations.DataRequests : Prop :=
  ∀ s : State,
    let e := s.reqEntry
    let v := s.taken
    (∀ b, e.buf = some b → s.linesPoisoned (bufDesc b / 8) 1 = false → s.bufDevice b = true →
      (s.entryFor 6 = true → e.word 3 = 0 → 65536 ≤ s.bufCap b → s.linesPoisoned (jrnlBase / 8) 8192 = false →
        Answers .journalDump s (v.fillBuf b (s.words jrnlBase 65536) 3 1) 6 0 []) ∧
      (s.entryFor 9 = true → e.word 3 = 1 → (e.word 5).toNat * (evrWords + 1) ≤ s.bufCap b →
        Answers .evrRead s (v.fillBuf b ((List.range (e.word 5).toNat).flatMap (fun i => s.evrReturn ((e.word 4).toNat + i))) 4 1)
          9 0 []) ∧
      (s.entryFor 7 = true → e.word 3 = 1 → s.mode = 2 ∨ s.mode = 3 → s.bufPoisoned b = false →
        s.linesPoisoned (sigBase / 8) 4096 = false →
        let ws := s.bufWords b
        ∃ n t, Answers .historyTable s (State.returnBuf t b) 7 n [] ∧ (n ≠ 0 → n = 4 ∧ t = v) ∧
          (n = 0 → ∀ i < ws.length / 2, s.wordClean 65 (sigBase + 2 * i) = true → t.sigWord i 0 = ws.getD (2 * i) 0 ∧
            t.sigWord i 1 = ws.getD (2 * i + 1) 0)) ∧
      (∀ c, s.entryFor 0xC = true → mbxModes s.mode = true → s.bufPoisoned b = false →
        let r := fld (e.word 3) 14 14
        let dst := fld (e.word 3) 13 0
        (s.ring r).cfg = some c → c.mode ≠ 0 → 4 * (s.bufW b 4).toNat + 12 ≤ c.mbxmax →
        let queued := fun (t : State) (q : Nat) =>
          let n := Tab.get 0 (s.ring q).seqs c.master
          (t.ring q).msgs = (s.ring q).msgs ++ [{ dst := dst, src := c.master, seq := n, data := wordsToBytes (s.bufWords b) }] ∧
            Tab.get 0 (t.ring q).seqs c.master = (n + 1) % 256 ∧ (t.stream (strMbx q)).produced = (s.stream (strMbx q)).produced + 1
        ((dst / 256 = c.segment → (s.posOf r dst).isSome = true) → ∃ t, Answers .mbxsend s (State.returnBuf t b) 0xC 0 [] ∧
          t = { v with rings := t.rings, census := t.census } ∧ (∀ q, s.routeOf dst = some q → queued t q) ∧
          (s.routeOf dst = none → t.rings = s.rings ∧
            Tab.get 0 (t.stream (strMbx r)).dropped 4 = Tab.get 0 (s.stream (strMbx r)).dropped 4 + 1)) ∧
        (dst / 256 = c.segment → s.posOf r dst = none → Answers .mbxsend s (v.returnBuf b) 0xC 4 []))) ∧
    (e.buf = none →
      (s.entryFor 6 = true → e.word 3 = 1 → s.mode = 2 → ∃ t, Answers .journalClear s t 6 0 [] ∧ t.jLines = [] ∧
        (∀ a, a < jrnlBase ∨ jrnlBase + 65536 ≤ a → t.word a = s.word a)) ∧
      (s.entryFor 7 = true → e.word 3 = 0 → (e.word 4).toNat = 1 → s.hist.resident ≠ [] →
        ∃ t, Answers .historyTake s t 7 0 [] ∧ t.hist.resident = s.hist.resident.tail ∧ t.mem = s.mem) ∧
      (s.entryFor 8 = true →
        let q := fld (e.word 3) 1 0
        let n := (e.word 4 - s.reg (offTrrd q)).toNat
        n ≤ (s.reg (offTrwr q) - s.reg (offTrrd q)).toNat →
        ∃ t, Answers .trace s t 8 0 [] ∧ t.reg (offTrrd q) = e.word 4 ∧
          (t.stream (strTrace q)).delivered = (s.stream (strTrace q)).delivered + n ∧
          t = { v with regs := t.regs, census := t.census }) ∧
      (s.entryFor 9 = true → e.word 3 = 0 → Answers .evrSnapshot s { v with evr := { s.evr with request := true } } 9 0 []) ∧
      (s.entryFor 0xD = true → mbxModes s.mode = true → s.linesPoisoned (bufDesc 0 / 8) 1024 = false → fld (e.word 3) 9 0 + fld (e.word 4) 10 0 ≤ 1024 →
        let bs := (List.range (fld (e.word 4) 10 0)).map (· + fld (e.word 3) 9 0)
        bs.all (fun i => s.bufDevice i && !s.mbxBufs.contains i) = true →
        Answers .mbxrecv s { v with mbxBufs := s.mbxBufs ++ bs } 0xD 0 []) ∧
      (s.entryFor 0x10 = true → s.mode = 2 ∨ s.mode = 3 → s.linesPoisoned (bufDesc 0 / 8) 1024 = false → fld (e.word 4) 10 0 = 1 →
        let b := fld (e.word 3) 9 0
        let a := (e.word 5).toNat
        let cap := (e.word 6).toNat
        0x9000 ≤ a → a + cap ≤ 0x1000000 → (∀ i < 1024, i ≠ b → s.bufConf i = true →
          runsOverlap (a, cap) ((s.bufW i 2).toNat, s.bufCap i) = false) →
        ∃ t, Answers .bufcfg s t 0x10 0 [] ∧ t.bufConf b = true ∧ t.bufDevice b = false ∧ t.bufW b 2 = e.word 5 ∧
          t.bufW b 3 = e.word 6 ∧ (∀ i < 8, i ≠ 0 → i ≠ 2 → i ≠ 3 → t.bufW b i = 0) ∧
          (∀ x, x < bufDesc b ∨ bufDesc b + 8 ≤ x → t.word x = s.word x)))

/-- Completion (exec answers a next state with the own effect, on conditions of state and operands alone) of hostReqpiWrite,
hostRspciWrite, hostWinWrite, hostCountersRead, pcieReset, give, hostWindowWrite, hostWindowRead. What the host does to BAR0
(R557, R560, R565, R567, R570): a producer or consumer index moves on within its bound and counts its stream, a bad one is
counted in BADDB and changes nothing else; HOST.WIN takes a BASE up to 10,224; a read of BADDB or WRDROP clears it; before
READY (R604) reads return zero, clear nothing, and writes are discarded; a link reset forgets the interrupt times alone. GIVE
(R558, R560, R562): a configured buffer that HOST owns passes to DEVICE with GEN one higher; a GIVE of a wrong GEN, of a
buffer that DEVICE owns or that is not configured, of a LEN above CAP, or in HALT, is counted in BADDB; a buffer whose check
fails comes back to HOST with CRCBAD and USE 6, and one host request item is dropped under 0x02. BAR2 (R553, R554, R556): a
write TLP of one full slot into a buffer that HOST owns, of one that no rule accepts (counted in WRDROP), and a read of a
line, with no request and no disturbance on the spine: the slot's low 36 bits become the word, OWNER HOST, and a read returns
the eight words of the line, with EP for a poisoned one; before READY (R604) a write is discarded and a read returns zeros. -/
def Obligations.HostWindow : Prop :=
  ((∀ (v : Word) (s : State), s.host.ready = true →
     let n := (v - s.host.reqpi).toNat
     let bad : State := { s with host := { s.host with baddb := satInc s.host.baddb } }
     (n ≤ 256 - (s.host.reqpi - s.host.reqci).toNat → ∃ u, exec (.hostReqpiWrite v) s = .next u ∧
       u.host = { s.host with reqpi := v } ∧ (u.stream strReq).produced = (s.stream strReq).produced + n ∧
       (∀ i, i ≠ strReq → u.stream i = s.stream i) ∧ u = { s with host := u.host, census := u.census }) ∧
     (256 - (s.host.reqpi - s.host.reqci).toNat < n → exec (.hostReqpiWrite v) s = .next bad) ∧
     ((v - s.host.rspci).toNat ≤ (s.host.rsppi - s.host.rspci).toNat → ∃ u, exec (.hostRspciWrite v) s = .next u ∧
       u.host = { s.host with rspci := v } ∧
       (u.stream strRsp).delivered = (s.stream strRsp).delivered + (v - s.host.rspci).toNat ∧
       (∀ i, i ≠ strRsp → u.stream i = s.stream i) ∧ u = { s with host := u.host, census := u.census }) ∧
     ((s.host.rsppi - s.host.rspci).toNat < (v - s.host.rspci).toNat → exec (.hostRspciWrite v) s = .next bad)) ∧
   (∀ (v : Word) (s : State), s.host.ready = false → exec (.hostReqpiWrite v) s = .next s ∧ exec (.hostRspciWrite v) s = .next s) ∧
   (∀ (a : Fin 7) (v : Word) (s : State), (s.host.ready = true → fld v 13 0 ≤ 10224 →
       exec (.hostWinWrite a v) s = .next { s with
         host := { s.host with win := Tab.put 32 s.host.win (a.val + 1) (fld v 13 0) } }) ∧
     (s.host.ready = false ∨ 10224 < fld v 13 0 → exec (.hostWinWrite a v) s = .next s)) ∧
   (∀ (b : Bool) (s : State), s.host.ready = false → exec (.hostCountersRead b) s = .next { s with
       host := { s.host with read := 0 }, outbox := s.outbox ++ [Msg.completion [0] false] }) ∧
   (∀ s : State, s.host.ready = true → exec (.hostCountersRead true) s = .next { s with
       host := { s.host with read := s.host.wrdrop, wrdrop := 0 }, outbox := s.outbox ++ [Msg.completion [s.host.wrdrop] false] } ∧
     exec (.hostCountersRead false) s = .next { s with
       host := { s.host with read := s.host.baddb, baddb := 0 }, outbox := s.outbox ++ [Msg.completion [s.host.baddb] false] }) ∧
   (∀ s : State, exec .pcieReset s = .next { s with host := { s.host with vecAt := [], vecWait := [] } })) ∧
  (∀ (v : Word) (s : State), s.host.ready = true →
     let b := fld v 9 0
     let w0 := s.bufW b 0
     let fits := fld v 25 10 = fld (s.bufW b 1) 15 0 ∧ (s.bufW b 4).toNat ≤ s.bufCap b
     let good := s.bufPoisoned b = false ∧ fld (s.bufW b 5) 31 0 = crc32cWords (s.bufWords b)
     (s.mem.errs = [] → s.mode = 7 ∨ bit w0 34 = false ∨ bit w0 35 = true ∨ ¬ fits → exec (.give v) s = .next s.badDoorbell) ∧
     (s.mode ≠ 7 → s.mode ≠ 0 → bit w0 34 = true → bit w0 35 = false → fits → s.mem.errs = [] → s.linesPoisoned (bufDesc b / 8) 1 = false →
       (good → ∃ u, exec (.give v) s = .next u ∧ u.bufDevice b = true ∧ u.bufW b 1 = s.bufW b 1 + 1 ∧
         (∀ i, 2 ≤ i → i < 8 → u.bufW b i = s.bufW b i) ∧
         (∀ a, a < bufDesc b ∨ bufDesc b + 8 ≤ a → u.word a = s.word a) ∧ u.host = s.host ∧ u.regs = s.regs) ∧
       (¬ good → ∃ u, exec (.give v) s = .next u ∧ u.bufW b 0 = wd (2 ^ 34 + 2 ^ 33 + 6) ∧
         (u.stream strReq).produced = (s.stream strReq).produced + 1 ∧
         Tab.get 0 (u.stream strReq).dropped 2 = Tab.get 0 (s.stream strReq).dropped 2 + 1))) ∧
  ((∀ (off : BitVec 30) (xs : List HostSlot) (ep : Bool) (s : State), s.host.ready = false →
     exec (.hostWindowWrite off xs ep) s = .next s ∧ exec (.hostWindowRead off) s = .next { s with
       host := { s.host with read := 0 }, outbox := s.outbox ++ [Msg.completion (List.replicate 8 0) false] }) ∧
   ∀ (off : BitVec 30) (s : State), s.host.ready = true → s.spineQuiet = true →
     let a := s.windowWord off.toNat
     let clean := Tab.get {} s.mem.errs (a / 8) = {}
     (∀ x : HostSlot, x.enables = 255 → off.toNat < 0x8000000 → s.hostMayWrite (Config.hostArea + off.toNat / 8) = true → clean →
       ∃ u, exec (.hostWindowWrite off [x] false) s = .next u ∧ u.word a = wd x.data.toNat ∧
         (∀ b, b ≠ a → u.word b = s.word b) ∧ (u.lineMeta (a / 8)).owner = 2 ∧
         (u.lineMeta (a / 8)).poison = (s.lineMeta (a / 8)).poison ∧ u.host = s.host ∧ u.regs = s.regs) ∧
     (∀ x : HostSlot, x.enables ≠ 0 → off.toNat < 0x8000000 → s.hostMayWrite (Config.hostArea + off.toNat / 8) = false →
       exec (.hostWindowWrite off [x] false) s = .next { s with host := { s.host with wrdrop := satInc s.host.wrdrop } }) ∧
     (∀ x : HostSlot, x.enables = 0 → exec (.hostWindowWrite off [x] false) s = .next s) ∧
     ((targetOf a).isSome = true → a / 8 * 8 = a → clean → ∃ u, exec (.hostWindowRead off) s = .next u ∧
       u.host.read = s.word a ∧
       u.outbox = s.outbox ++ [Msg.completion (s.lineWords (a / 8)) (s.lineMeta (a / 8)).poison] ∧
       u.mem = s.mem ∧ u.regs = s.regs))

/-! ### Registers (R10, R15, R17, R83, R88, R89, R224, R320, R379, R432, R476, R478, R502, R517, R586, R589, R615) -/

/-- Completion (exec answers a next state with the own effect, on conditions of state and operands alone) of sysBlevelWrite,
timeIncWrite, trrdWrite, histTakeWrite, histCtrlWrite, ringClaimWrite, brimRstreqWrite, evrSnapGo, updConfirmGo, updWinWrite,
adcCalGo, jrnlRtaskWrite. Crown writes to registers that are no cell's: each register takes the value by its own rule, a
refused write leaves the register and sets E and ERRC.REFUSE (R615), and a tile takes fault 0x08 (R175). A tile that writes a
register of no cell takes fault 0x08 with ADDR the register's address (R17, R58, R175); shown for the rows of the Crown's
registers. The instruction word in the fault record is free. -/
def Obligations.CrownRegisterWrites : Prop :=
  (∀ (c : CoreId) (v : Word) (s : State), 64 ≤ coreKey c →
     let k := coreKey c
     let m := s.mode
     let takes := fun (i : Instr) (o : Nat) (w : Word) => exec i s = .next (s.setReg o w)
     let refused := fun (i : Instr) (code : Nat) => exec i s = .next (s.refuse k code)
     (m = 2 ∨ m = 3 → fld v 15 8 ≠ 0 → fld v 15 8 ≤ Config.native →
       takes (.sysBlevelWrite c v) offBlevel (setFld (s.reg offBlevel) 15 8 (fld v 15 8))) ∧
     (m ≠ 2 → m ≠ 3 → refused (.sysBlevelWrite c v) 3) ∧
     (m = 2 ∨ m = 3 → fld v 15 8 = 0 ∨ Config.native < fld v 15 8 → refused (.sysBlevelWrite c v) 4) ∧
     (s.rfld offTimeStat 1 0 < 2 →
       takes (.timeIncWrite c v) offTimeInc (wd (max 0x27FE00000 (min v.toNat 0x280200000)))) ∧
     (2 ≤ s.rfld offTimeStat 1 0 → refused (.timeIncWrite c v) 3) ∧
     (∀ q : Fin 4, let n := (v - s.reg (offTrrd q.val)).toNat
       (n ≤ (s.reg (offTrwr q.val) - s.reg (offTrrd q.val)).toNat → ∃ u, exec (.trrdWrite c q v) s = .next u ∧
         u.reg (offTrrd q.val) = v ∧ (u.stream (strTrace q.val)).delivered = (s.stream (strTrace q.val)).delivered + n ∧
         u = { s with regs := (s.setReg (offTrrd q.val) v).regs, census := u.census }) ∧
       ((s.reg (offTrwr q.val) - s.reg (offTrrd q.val)).toNat < n → exec (.trrdWrite c q v) s = .next s)) ∧
     (fld v 15 0 = 1 → s.hist.resident ≠ [] → ∃ u, exec (.histTakeWrite c v) s = .next u ∧
       u.hist.resident = s.hist.resident.tail ∧ u.mem = s.mem ∧ u.cores = s.cores ∧
       (u.stream strHistHost).delivered = (s.stream strHistHost).delivered + s.hist.resident.headD 0) ∧
     (∃ u, exec (.histCtrlWrite c v) s = .next u ∧ u.rfld (offHist 0) 16 0 = max 10 (min (fld v 16 0) 100000) ∧
       u.rfld (offHist 0) 35 32 = (if m = 2 ∧ s.reg (offHist 3) = 0 ∧ 1 ≤ fld v 35 32 ∧ fld v 35 32 ≤ 8 then fld v 35 32
         else s.rfld (offHist 0) 35 32) ∧ (∀ o, o ≠ offHist 0 → u.reg o = s.reg o) ∧ u = { s with regs := u.regs }) ∧
     (m = 2 ∨ m = 3 ∨ m = 8 → takes (.ringClaimWrite c v) (offClaim 0) (v &&& 0x1FF)) ∧
     (m ≠ 2 → m ≠ 3 → m ≠ 8 → refused (.ringClaimWrite c v) 3) ∧
     (k = 65 → takes (.brimRstreqWrite c v) (offBrim 5) (wd (2 ^ 35 + fld v 15 0))) ∧
     (k = 64 → exec (.brimRstreqWrite c v) s = .next s) ∧
     exec (.evrSnapGo c v) s = .next (if bit v 0 then { s with evr := { s.evr with request := true } } else s) ∧
     (bit v 0 = true → k = 65 → bit (s.reg offSysMode) 5 = true → ∃ u, exec (.updConfirmGo c v) s = .next u ∧
       bit (u.reg offSysMode) 5 = false ∧ u.mode = m ∧ u.rfld (offUpd 0) 35 27 = 0 ∧ u.store.window = 0 ∧
       u = { s with regs := u.regs, store := u.store }) ∧
     (bit v 0 = false ∨ k = 64 → exec (.updConfirmGo c v) s = .next s) ∧
     takes (.updWinWrite c v) (offUpd 1) (wd (max 10 (min (fld v 11 0) 3600))) ∧
     (bit v 35 = true → m = 2 ∨ m = 3 ∨ m = 11 → bit (s.reg offAdcCal) 34 = false → ∃ u, exec (.adcCalGo c v) s = .next u ∧
       bit (u.reg offAdcCal) 34 = true ∧ u.calAt = some s.cc ∧
       (∀ n < 16, bit (u.reg (offConv n 0)) 35 = false ∧ (u.conv n).busy = none ∧ (u.conv n).line = []) ∧
       (∀ n < 64, u.reg (offAin n 3) = 0 ∧ bit (u.reg (offAin n 4)) 35 = false) ∧ u.mem = s.mem ∧ u.cores = s.cores) ∧
     (bit v 35 = true → (m ≠ 2 ∧ m ≠ 3 ∧ m ≠ 11) ∨ bit (s.reg offAdcCal) 34 = true → refused (.adcCalGo c v) 3) ∧
     ((targetOfWord (wd (fld v 10 0))).isSome = true → takes (.jrnlRtaskWrite c v) (offJrnl 2) (v &&& 0x8000007FF)) ∧
     ((targetOfWord (wd (fld v 10 0))).isSome = false → refused (.jrnlRtaskWrite c v) 4)) ∧
  (∀ (t : Fin 64) (v : Word) (s : State),
     let c := CoreId.tile t
     let faults := fun (i : Instr) (o : Nat) => exec i s =
       .next ((State.takeFault { s with free := s.free + 1 }) t.val 0x08 (wd (0x100000 + o)) (Config.freeWord s.free))
     faults (.sysBlevelWrite c v) offBlevel ∧ faults (.timeIncWrite c v) offTimeInc ∧ (∀ q, faults (.trrdWrite c q v) (offTrrd q.val)) ∧
     faults (.histTakeWrite c v) (offHist 4) ∧ faults (.histCtrlWrite c v) (offHist 0) ∧ faults (.ringClaimWrite c v) (offClaim 0) ∧
     faults (.brimRstreqWrite c v) (offBrim 5) ∧ faults (.evrSnapGo c v) (offEvr 5) ∧ faults (.updConfirmGo c v) (offUpd 2) ∧
     faults (.updWinWrite c v) (offUpd 1) ∧ faults (.adcCalGo c v) offAdcCal ∧ faults (.jrnlRtaskWrite c v) (offJrnl 2))

/-- Completion (exec answers a next state with the own effect, on conditions of state and operands alone) of setpwm,
pwmEnWrite, pwmShadowWrite, trippedClear, tofaultClear, chopperPhaseWrite, stepPosWrite, stepRunWrite, encoderWrite,
fieldInputWrite, fieldOutputWrite, adcInputWrite, adcConverterWrite, bandSlotCellWrite. Writes of cell registers by the
cell's owner or the Crown, when no other order meets them in this cell clock (R17, R43, R89, R304, R307, R357, R397, R402,
R407, R408, R413, R417, R419, R428, R436, R438, R442, R446): the register or shadow takes the value by its rule and nothing
else changes. -/
def Obligations.CellRegisterWrites : Prop :=
  ∀ (c : CoreId) (v : Word) (s : State), s.orders = [] →
    let k := coreKey c
    let may := fun (cell : Nat) => 64 ≤ k ∨ Tab.get 0 s.owners cell = k + 1
    let one := fun (i : Instr) (o : Nat) (w : Word) => ∃ u, exec i s = .next u ∧ u.reg o = w ∧
      (∀ j, j ≠ o → u.reg j = s.reg j) ∧ u = { s with regs := u.regs, orders := u.orders }
    (∀ p : Fin 24, may (offPwm p.val 0) →
      let pwm := fun (i : Instr) (x : Pwm) => ∃ u, exec i s = .next u ∧ u.pair p.val = x ∧
        (∀ j, j ≠ p.val → u.pair j = s.pair j) ∧ u = { s with pwm := u.pwm, orders := u.orders }
      pwm (.setpwm c p v) { s.pair p.val with
        dutySh := (s.pair p.val).dutySh.write s.cc (fld v 22 0) false
        perSh := (s.pair p.val).perSh.write s.cc (s.reg (offPwm p.val 4)).toNat false } ∧
      (bit v 0 = true → s.cellsLive = true → s.pwmEn p.val = false → ∃ u, exec (.pwmEnWrite c p v) s = .next u ∧
        s.pwmEn p.val = false ∧ u.pwmEn p.val = true ∧ u.pair p.val = { s.pair p.val with start := 1 } ∧
        u.reg (offPwm p.val 0) = v &&& 0x3FFFFD ||| 1 ∧ u = { s with pwm := u.pwm, regs := u.regs, orders := u.orders }) ∧
      (bit v 0 = false ∨ s.cellsLive = false → ∃ u, exec (.pwmEnWrite c p v) s = .next u ∧ u.pwmEn p.val = false ∧
        u = { s with pwm := u.pwm, regs := u.regs, orders := u.orders }) ∧
      pwm (.pwmShadowWrite c p 1 v) { s.pair p.val with
        perSh := (s.pair p.val).perSh.write s.cc (max 16 (min v.toNat 262143)) false } ∧
      pwm (.pwmShadowWrite c p 2 v) { s.pair p.val with dutySh := (s.pair p.val).dutySh.write s.cc (fld v 22 0) false } ∧
      pwm (.pwmShadowWrite c p 3 v) { s.pair p.val with dutySh := (s.pair p.val).dutySh.write s.cc (fld v 34 0) true }) ∧
    (∀ i : Fin 8, may (offTrip i.val 0) →
      (bit v 34 = true → bit (s.reg (offTrip i.val 2)) 35 = false →
        one (.trippedClear c i v) (offTrip i.val 2) (setFld (s.reg (offTrip i.val 2)) 34 34 0)) ∧
      (bit v 34 = false ∨ bit (s.reg (offTrip i.val 2)) 35 = true →
        one (.trippedClear c i v) (offTrip i.val 2) (s.reg (offTrip i.val 2)))) ∧
    (∀ f : Fin 16, may (0x3400 + 16 * (f.val / 2)) →
      (bit v 34 = true → one (.tofaultClear c f v) (offChop f.val 5) (setFld (s.reg (offChop f.val 5)) 34 34 0)) ∧
      (fld v 34 33 ≠ 3 → 1 ≤ fld v 31 28 → bit v 35 = false → ∃ u, exec (.chopperPhaseWrite c f v) s = .next u ∧
        u.reg (offChop f.val 0) = v ∧ (u.chop f.val).on = false ∧ (∀ j, j ≠ f.val → u.chop j = s.chop j) ∧
        (∀ o, o ≠ offChop f.val 0 → o ≠ offChop f.val 4 → u.reg o = s.reg o) ∧
        u = { s with regs := u.regs, chops := u.chops, free := u.free, orders := u.orders }) ∧
      (fld v 34 33 = 3 → exec (.chopperPhaseWrite c f v) s = .next (s.refuse k 4))) ∧
    (∀ g : Fin 16, may (offStep g.val 0) →
      (bit (s.reg (offStep g.val 0)) 0 = true → one (.stepPosWrite c g v) (offStep g.val 2) (s.reg (offStep g.val 2))) ∧
      (bit (s.reg (offStep g.val 0)) 0 = false → (∀ j < 8, bit (s.reg (offChopper j)) 35 = false) →
        ∃ u, exec (.stepPosWrite c g v) s = .next u ∧ u.reg (offStep g.val 2) = v ∧ u.reg (offStep g.val 3) = 2 ^ 31 ∧
          (∀ o, o ≠ offStep g.val 2 → o ≠ offStep g.val 3 → u.reg o = s.reg o) ∧
          u = { s with regs := u.regs, orders := u.orders }) ∧
      (bit v 0 = true → s.cellsLive = true → one (.stepRunWrite c g v) (offStep g.val 0)
        (wd (4 * max 4 (min (fld v 9 2) 40) + 2 * b2n (bit v 1) + 1)))) ∧
    (∀ e : Fin 16, may (offEnc e.val 0) →
      (fld v 34 33 ≠ 3 → one (.encoderWrite c e 0 v) (offEnc e.val 0) (v &&& 0xFC0000000)) ∧
      (fld v 34 33 = 3 → exec (.encoderWrite c e 0 v) s = .next (s.refuse k 4)) ∧
      (bit (s.reg (offEnc e.val 0)) 35 = false → one (.encoderWrite c e 1 v) (offEnc e.val 1) (v &&& 0xFFFFFFFF)) ∧
      (bit (s.reg (offEnc e.val 0)) 35 = true → one (.encoderWrite c e 1 v) (offEnc e.val 1) (s.reg (offEnc e.val 1)))) ∧
    (∀ i : Fin 32, may (offFin i.val 0) → fld v 30 17 ≤ 10000 → v &&& 0xFFFFE07FF ≠ s.reg (offFin i.val 0) →
      ∃ u, exec (.fieldInputWrite c i v) s = .next u ∧ u.reg (offFin i.val 0) = v &&& 0xFFFFE07FF ∧
        u.field = { s.field with queue := s.field.queue ++ [(i.val, v &&& 0xFFFFE07FF)] } ∧
        (∀ o, o ≠ offFin i.val 0 → u.reg o = s.reg o) ∧ u = { s with regs := u.regs, field := u.field, orders := u.orders }) ∧
    (∀ o : Fin 16, may (offFout o.val 0) →
      ∃ u, exec (.fieldOutputWrite c o v) s = .next u ∧
        u.reg (offFout o.val 0) = setBit 0 35 (bit v 35 && s.cellsLive) ∧
        (∀ j, j ≠ offFout o.val 0 → u.reg j = s.reg j) ∧ u = { s with regs := u.regs, field := u.field, orders := u.orders }) ∧
    (∀ n : Fin 64, may (offConv (n.val / 4) 0) → fld v 33 30 ≤ 12 → fld (s.reg (offAin n.val 0)) 35 30 = fld v 35 30 → bit v 29 = false →
      one (.adcInputWrite c n v) (offAin n.val 0) (v &&& 0xFF00007FF)) ∧
    (∀ n : Fin 16, may (offConv n.val 0) → fld v 27 21 ≤ 95 → fld v 20 14 ≤ 95 → fld v 13 9 ≤ 16 →
      bit (s.reg offAdcCal) n.val = false → bit (s.reg offAdcCal) 34 = false →
      ∃ u, exec (.adcConverterWrite c n v) s = .next u ∧ u.reg (offConv n.val 0) = v &&& 0xFFFFFFE00 ∧
        (u.conv n.val).qptr = 0 ∧ (∀ o, o ≠ offConv n.val 0 → u.reg o = s.reg o) ∧
        u = { s with regs := u.regs, convs := u.convs, orders := u.orders }) ∧
    (∀ (r : Fin 2) (i : Fin 1024), may (offSlot r.val i.val 0) →
      one (.bandSlotCellWrite c r i v) (offSlot r.val i.val 0) (setBit (v &&& 0xE3FFFFFFF) 35
        (bit v 35 && s.slotFits r.val (v &&& 0xE3FFFFFFF) && !s.slotClash r.val i.val (v &&& 0xE3FFFFFFF))))

/-- Completion (exec answers a next state with the own effect, on conditions of state and operands alone) of fifordWrite,
req, cancel, tsenWrite, coordDescriptorWrite, virtValueWrite, corrmaxRead, lawLoadRead, ringCounterRead, ringFramesRead,
pairStretchRead, adcStatsRead, stepCountersRead, encoderQerrRead, captureCountersRead, fieldCountersRead, pwmCountersRead,
canCountersRead. Writes of a fieldbus port's registers by the port's owner or the Crown (R456, R458, R461, R466): FIFORD
takes entries within the count, REQ makes a mailbox PENDING with its frame's bytes or ends it DONE with the reason 0x0A,
CANCEL ends a request that waits and empties its stream item, and TSEN starts the reference messages. Writes of a
coordinate's descriptor and of a VIRT coordinate's value by its owner or the Crown (R88, R89, R93): a good descriptor with no
armed cue on the coordinate is in force, a bad one is refused with 0x02, coordinate 0 ignores both; VALUE moves a VIRT
coordinate by a step. Reads that clear (R15): the value goes to Gd, and exactly the RC fields become 0, of words 4, 5 and 11
of a port, of STATS, COUNTERS and DROPPED words and the rest; CORRMAX is cleared with its MAX. -/
def Obligations.FieldbusAndCoordinateRegisters : Prop :=
  (∀ (c : CoreId) (p : Fin 4) (v : Word) (s : State), s.orders = [] →
     64 ≤ coreKey c ∨ Tab.get 0 s.owners (offCan p.val 0) = coreKey c + 1 →
     let n := (v - s.reg (offCan p.val 8)).toNat
     (n ≤ (s.reg (offCan p.val 7) - s.reg (offCan p.val 8)).toNat → ∃ u, exec (.fifordWrite c p v) s = .next u ∧
       u.reg (offCan p.val 8) = v ∧ (u.stream (strCanRx p.val)).delivered = (s.stream (strCanRx p.val)).delivered + n ∧
       (∀ o, o ≠ offCan p.val 8 → u.reg o = s.reg o) ∧ u = { s with regs := u.regs, census := u.census, orders := u.orders }) ∧
     (∀ m : Fin 64, bit v 35 = true → bit v 34 = false → bit v 33 = false →
       let b := s.box p.val m.val
       let w := s.reg (offBox p.val m.val 1)
       b.st = 0 ∨ b.st = 3 → bit w 34 = false →
       (bit w 33 = false → bit w 32 = true → ∃ u, exec (.req c p m v) s = .next u ∧
         u.box p.val m.val = { st := 1 } ∧ (∀ j, j ≠ m.val → u.box p.val j = s.box p.val j) ∧
         u = { s with regs := u.regs, cans := u.cans, orders := u.orders }) ∧
       (bit w 33 = true → ∃ u, exec (.req c p m v) s = .next u ∧ (u.box p.val m.val).st = 3 ∧
         (u.box p.val m.val).result = 0x0A ∧ u = { s with regs := u.regs, cans := u.cans, orders := u.orders })) ∧
     (∀ m : Fin 64, bit v 34 = true → bit v 33 = false → (s.can p.val).chosen = none →
       let b := s.box p.val m.val
       b.st = 1 → b.produced = false → ∃ u, exec (.cancel c p m v) s = .next u ∧ (u.box p.val m.val).st = 3 ∧
         (u.box p.val m.val).result = 3 ∧ (∀ j, j ≠ m.val → u.box p.val j = s.box p.val j) ∧
         u = { s with regs := u.regs, cans := u.cans, orders := u.orders }) ∧
     (bit v 35 = true → s.canEn p.val = false → bit (s.reg (offCan p.val 9)) 35 = false → ∃ u,
       exec (.tsenWrite c p v) s = .next u ∧ u.reg (offCan p.val 9) = v &&& 0xC1FFFFFFF ∧
         (u.can p.val).refDue = s.elapsed + s.rfld (offCan p.val 10) 19 0 * tUs ∧ (u.can p.val).refFirst = true ∧
         (∀ o, o ≠ offCan p.val 9 → u.reg o = s.reg o) ∧ u = { s with regs := u.regs, cans := u.cans, orders := u.orders })) ∧
  (∀ (c : CoreId) (n : Fin 32) (v : Word) (s : State), 64 ≤ coreKey c ∨ Tab.get 0 s.owners (offCoord n.val 0) = coreKey c + 1 →
     let k := coreKey c
     (n.val = 0 → exec (.coordDescriptorWrite c n 0 v) s = .next s ∧ exec (.virtValueWrite c n true v) s = .next s) ∧
     (n.val ≠ 0 → s.cueOn n.val = false → coordDescOk v (s.reg (offCoord n.val 1)) = true → ∃ u,
       exec (.coordDescriptorWrite c n 0 v) s = .next u ∧ u.reg (offCoord n.val 0) = v ∧
         (∀ o, o ≠ offCoord n.val 0 → u.reg o = s.reg o) ∧ (∀ j, j ≠ n.val → u.coord j = s.coord j) ∧
         u = { s with regs := u.regs, coords := u.coords }) ∧
     (n.val ≠ 0 → s.cueOn n.val = false → coordDescOk (s.reg (offCoord n.val 0)) v = true → ∃ u,
       exec (.coordDescriptorWrite c n 1 v) s = .next u ∧ u.reg (offCoord n.val 1) = v ∧
         (∀ o, o ≠ offCoord n.val 1 → u.reg o = s.reg o) ∧ (∀ j, j ≠ n.val → u.coord j = s.coord j) ∧
         u = { s with regs := u.regs, coords := u.coords }) ∧
     (n.val ≠ 0 → s.cueOn n.val = true ∨ coordDescOk v (s.reg (offCoord n.val 1)) = false →
       exec (.coordDescriptorWrite c n 0 v) s = .next (s.refuse k 2)) ∧
     (n.val ≠ 0 → s.coordSrc n.val = 5 → bit (s.reg (offCoord n.val 0)) 31 = false →
       let d := dwI (s.coord n.val).value
       let moves := fun (i : Instr) (w : DWord) => ∃ u, exec i s = .next u ∧
         (u.coord n.val).value = w.toInt ∧ (u.coord n.val).stepped = true ∧
         (∀ j, j ≠ n.val → u.coord j = s.coord j) ∧ u = { s with coords := u.coords }
       moves (.virtValueWrite c n false v) (dword v (dhi d)) ∧ moves (.virtValueWrite c n true v) (dword (dlo d) v)) ∧
     (n.val ≠ 0 → s.coordSrc n.val ≠ 5 → exec (.virtValueWrite c n false v) s = .next s)) ∧
  (∀ (c : CoreId) (d : BitVec 4) (s : State),
     let k := coreKey c
     let all := fun (i : Instr) (o : Nat) => exec i s = .next ((s.setReg o 0).setG k d.toNat (s.reg o))
     let low := fun (i : Instr) (o hi : Nat) (v : Word) => exec i s = .next ((s.setRfld o hi 0 0).setG k d.toNat v)
     (∀ n : Fin 32, exec (.corrmaxRead c d n) s = .next (State.setG
       { s with coords := Tab.put {} s.coords n.val { s.coord n.val with corrmax := 0 } } k d.toNat
       (wd (at_ (s.coord n.val).lag 18 + (s.coord n.val).corrmax)))) ∧
     (∀ u : Fin 8, all (.lawLoadRead c d u) (offLawLoad u.val)) ∧
     (∀ r : Fin 2, exec (.ringCounterRead c d r false) s = .next ((s.setReg (offRing r.val 4) 0).setG k d.toNat (s.ringWord r.val 4)) ∧
       exec (.ringCounterRead c d r true) s = .next ((s.setReg (offRing r.val 5) 0).setG k d.toNat (s.ringWord r.val 5)) ∧
       all (.ringFramesRead c d r) (offRingFault r.val 1)) ∧
     all (.pairStretchRead c d) (offPair 3) ∧
     (∀ n : Fin 16, all (.adcStatsRead c d n) (offConv n.val 6) ∧ all (.stepCountersRead c d n) (offStep n.val 4) ∧
       low (.encoderQerrRead c d n) (offEnc n.val 5) 17 (s.reg (offEnc n.val 5)) ∧
       all (.captureCountersRead c d n false) (offCap n.val 2) ∧ all (.captureCountersRead c d n true) (offCap n.val 3) ∧
       low (.fieldCountersRead c d (.tripcnt n)) (offFout n.val 1) 17 (s.foutWord n.val 1)) ∧
     (∀ p : Fin 24, all (.pwmCountersRead c d p) (offPwm p.val 11)) ∧
     low (.fieldCountersRead c d .badpkt) offFieldStat 17 (s.reg offFieldStat) ∧
     (∀ i : Fin 32, low (.fieldCountersRead c d (.glitch i)) (offFin i.val 1) 17 (s.finWord i.val 1)) ∧
     (∀ p : Fin 4, all (.canCountersRead c d p 0) (offCan p.val 4) ∧ all (.canCountersRead c d p 1) (offCan p.val 5) ∧
       all (.canCountersRead c d p 2) (offCan p.val 11)))

/-! ### Reset, power and modes (R4, R40, R104, R208, R240, R271, R409, R571 - R579, R591, R605) -/

/-- Completion (exec answers a next state with the own effect, on conditions of state and operands alone) of powerOnReset,
resetPin, holdupBegin, holdupEnd, cellClockLoss. POWER_ON_RESET and RESET_PIN (R574, R591, R605): with no trial and nothing
that asks for RECOVERY, BOOT begins with everything at its reset value but what is kept: the banks' and recorder's registers,
and over the reset pin Brim's; MODE is BOOT with its cause. The pin held low keeps the module in reset; RECOV_N low at its
release enters RECOVERY with buffer 0 configured for HOST. During hold-up the pin does nothing but that a power-on reset then
waits for it to go high. HOLDUP_BEGIN, HOLDUP_END and CELL_CLOCK_LOSS (R40, R409, R575, R576): hold-up sets HOLDUP, drops
every resident item under 0x03, stops the journal and the history, takes the final sample and keeps a restart state from a
mode that runs tasks; at its end the module stands in reset until a power-on reset. A lost cell clock puts every PWM pair
into high impedance, and so does a trip of VIO, the J2 logic supply. -/
def Obligations.ResetsAndHoldUp : Prop :=
  (∀ s : State,
     let cleared := fun (u : State) => u.cores = [] ∧ u.tasks = [] ∧ u.lanes = [] ∧ u.axes = [] ∧ u.cues = [] ∧ u.coords = [] ∧
       u.actions = [] ∧ u.orders = [] ∧ u.pwm = [] ∧ u.cans = [] ∧ u.caps = [] ∧ u.owners = [] ∧ u.spine = {} ∧ u.census = {} ∧
       u.sched = {} ∧ u.exch = {} ∧ u.hist = {} ∧ u.loc = {} ∧ u.now = 0 ∧ u.cc = 0 ∧ u.pending = s.pending
     let plain := bit (s.reg offSysMode) 5 = false ∧ s.store.recover = false ∧ s.store.bootFails < 3 ∧
       (s.runBank 4).good = true
     (plain → s.modes.pinLow = false → s.mode ≠ 0 → s.modes.inReset = false → ∃ u, exec .powerOnReset s = .next u ∧ cleared u ∧ u.reg offSysMode = 1 ∧
       u.host = {} ∧ (∀ o, keptReg true o = false → o ≠ offSysMode → u.reg o = regReset o) ∧ (s.evr.slots = [] → u.mem.words = []) ∧ u.mem.errs = [] ∧
       u.reg (offEvr 3) = s.reg (offEvr 3) + 1 ∧ u.mem.remap = s.mem.remap) ∧
     (s.modes.holdAt = none → s.modes.inReset = false → ∀ r, ∃ u, exec (.resetPin true r) s = .next u ∧ cleared u ∧
       u.modes = { inReset := true, pinLow := true } ∧ u.reg offSysMode = wd (s.mode * 2 ^ 8 + s.rfld offSysMode 5 5 * 2 ^ 5 + 1) ∧
       (∀ o, keptReg false o = false → o ≠ offSysMode → u.reg o = regReset o)) ∧
     (plain → s.modes.holdAt = none → s.modes.inReset = true → s.rfld offSysMode 11 8 ≠ 0 → ∃ u,
       exec (.resetPin false false) s = .next u ∧ cleared u ∧ u.modes.inReset = false ∧ u.host.ready = false ∧
         u.reg offSysMode = wd (if s.modes.porWaits then 1 else 2 ^ 12 + s.rfld offSysMode 11 8 * 2 ^ 8 + 1)) ∧
     (s.modes.pinLow = true → (s.modes.inReset = true → s.mode = 1) → ∃ u, exec .powerOnReset s = .next u ∧ u.modes = { inReset := true, pinLow := true, porWaits := true } ∧
       u.mode = 1) ∧
     (plain → s.modes.holdAt = none → s.modes.inReset = true → ∃ u, exec (.resetPin false true) s = .next u ∧ u.mode = 0 ∧
       u.host.ready = true ∧ u.bufConf 0 = true ∧ u.bufDevice 0 = false ∧ u.bufW 0 2 = 0x9000 ∧ u.bufW 0 3 = 16740352) ∧
     (s.modes.holdAt.isSome = true → ∀ l r, exec (.resetPin l r) s = .next { s with modes := { s.modes with pinLow := l } })) ∧
  (∀ s : State, s.modes.inReset = false →
     (∀ c, s.modes.holdAt = none → ∃ u, exec (.holdupBegin c) s = .next u ∧ u.holdup = true ∧ u.mode = s.mode ∧
       u.modes.holdAt = some s.now ∧ u.census.final = true ∧ (∀ i < 45, (u.stream i).resident = 0) ∧
       bit (u.reg (offHist 5)) 35 = false ∧ u.cores = s.cores ∧ u.lanes = s.lanes ∧
       (s.mode = 3 ∨ s.mode = 4 ∨ s.mode = 5 ∨ s.mode = 6 ∨ s.mode = 11 → ∃ r, u.store.restart = some r ∧ r.mode = s.mode ∧
         r.time = s.now ∧ r.lanes = s.lanes ∧ r.axes = s.axes ∧ (s.exch.phase ≠ .swapped → r.tasks = s.tasks) ∧ r.cues = s.cues ∧
         u.restartWhy ≠ 2)) ∧
     (∀ c, s.modes.holdAt.isSome = true → c ≠ .railTrip 5 → exec (.holdupBegin c) s = .next s) ∧
     (∃ u, exec (.holdupBegin (.railTrip 5)) s = .next u ∧ u.modes.vioLow = true ∧ ∀ p < 24, (u.pair p).driven = false) ∧
     (s.modes.holdAt.isSome = true → ∃ u, exec .holdupEnd s = .next u ∧ u.modes.inReset = true ∧ u.cores = [] ∧ u.tasks = [] ∧
       u.mode = 1 ∧ u.store.restart = s.store.restart) ∧
     (∃ u, exec .cellClockLoss s = .next u ∧ (∀ p < 24, u.pair p = { s.pair p with driven := false }) ∧
       u = { s with pwm := u.pwm, modes := { s.modes with clockLost := true } }))

/-- Completion (exec answers a next state with the own effect, on conditions of state and operands alone) of
modeTransitionComplete. MODE_TRANSITION_COMPLETE (R104, R208, R240, R271, R571, R574): when no task is under an orderly stop,
the target's mode is entered with its cause, PREV the mode before and TRANS 0, and the host has a mode event; IDLE,
RECOVERY's session and STANDBY cancel cues, disable lanes and empty the force table. In BOOT an image that does not verify
leaves the module in reset; else the calibration begins, and after it a module without a restart state comes to IDLE, ready
for the host, its cores in TAKE. -/
def Obligations.ModeTransitions : Prop :=
  ∀ s : State, s.modes.inReset = false → s.holdup = false → s.brim.wantSafe = false →
    (∀ m c, s.modes.trans = some (m, c) → s.stopsDone = true → s.mode ≠ 1 → s.mode ≠ 8 → m ≠ 0 → m ≠ 1 → m < 16 → c < 16 →
      ∃ u, exec .modeTransitionComplete s = .next u ∧ u.mode = m ∧ u.rfld offSysMode 11 8 = s.mode ∧
        u.rfld offSysMode 15 12 = c ∧ bit (u.reg offSysMode) 7 = false ∧ bit (u.reg offSysMode) 5 = bit (s.reg offSysMode) 5 ∧
        u.modes.trans = none ∧ (m = 3 ∨ m = 4 ∨ m = 6 ∨ m = 11 → u.sched.entered = true) ∧
        (m = 2 ∨ m = 8 ∨ m = 10 → (∀ n, (u.lane n).enabled = false) ∧ (∀ n, (u.cue n).st ≠ .armed) ∧
          (s.exch.phase = .none → (∀ a ∈ s.forces, s.wordClean 65 a = true) → u.forces = []))) ∧
    (s.modes.trans ≠ none → s.stopsDone = false → exec .modeTransitionComplete s = .next s) ∧
    (s.modes.trans = none → s.mode = 1 → (∃ c, 1 ≤ c ∧ c ≤ 5 ∧ (s.runBank c).good = false) → ∃ u,
      exec .modeTransitionComplete s = .next u ∧ u.modes.inReset = true ∧ u.store.bootFails = s.store.bootFails + 1 ∧ u.cores = []) ∧
    (s.modes.trans = none → s.mode = 1 → bit (s.reg offSysMode) 4 = false → (∀ c, 1 ≤ c → c ≤ 5 → (s.runBank c).good = true) →
      (bit (s.reg offAdcCal) 33 = false → bit (s.reg offAdcCal) 34 = false → ∃ u,
        exec .modeTransitionComplete s = .next u ∧ bit (u.reg offAdcCal) 34 = true ∧ u.calAt = some s.cc ∧ u.mode = 1) ∧
      (bit (s.reg offAdcCal) 33 = true → s.store.restart = none → ∃ u, exec .modeTransitionComplete s = .next u ∧ u.mode = 2 ∧
        u.rfld offSysMode 11 8 = 1 ∧ u.host.ready = true ∧ u.rfld offBlevel 7 0 = s.rfld offBlevel 15 8 ∧
        (u.reg offSysRestart).toNat / 2 ^ 32 % 8 = 1 ∧ (∀ k, k < 64 ∨ k = 65 → (u.core k).taking = true)))

/-! ### Census, line memory and spine (R21, R27 - R31, R36 - R42, R64, R65, R69, R75) -/

/-- Completion (exec answers a next state with the own effect, on conditions of state and operands alone) of censusInstant,
censusCheck, crownLockstepDifference. CENSUS_INSTANT samples every counter at a whole millisecond, CENSUS_CHECK writes the
table under the next SEQ and judges the sample: a stream that does not conserve, or another broken equation, is an integrity
fault with kind and item in CENSUS.STAT, and a lockstep difference is one of kind 5 (R21, R36 - R38, R41, R42, R613). -/
def Obligations.CensusEvents : Prop :=
  ∀ s : State,
    (s.censusRuns = true → s.censusDue = true → s.role ≠ 1 → ∃ u, exec .censusInstant s = .next u ∧
      u.census.sample = some { time := s.now, streams := s.census.streams, credits := s.spine.credits
                               tagsHeld := s.spine.waiting.length + s.spine.acked.length
                               winHost := s.bufCounts.1 - s.bufCounts.2, winDevice := s.bufCounts.2, winConf := s.bufCounts.1 } ∧
      u.census.lastMs = s.now / tMs + 1 ∧ u.census.streams = s.census.streams ∧ bit (u.reg offCensusStat) 3 = true ∧
      (s.mem.errs = [] → u.mem = s.mem ∧
        (s.linesPoisoned (sigBase / 8) 4096 = false → ∀ n ∈ s.signals, (u.signal n).credit = fld (s.sigWord n 1) 35 16))) ∧
    (s.censusDue = false → s.extraDue = false → exec .censusInstant s = .next s) ∧
    (∀ x, s.census.sample = some x → s.census.older = [] → s.census.final = false →
      let q := s.reg offCensusSeq + 1
      (x.failure = none → ∃ u, exec .censusCheck s = .next u ∧ u.census.sample = none ∧ u.reg offCensusSeq = q ∧
        (∀ i < 1840, u.word (censusBase + i) = (x.table q).getD i 0) ∧ bit (u.reg offCensusStat) 3 = false ∧
        (∀ a, a < censusBase ∨ censusBase + 1840 ≤ a → u.word a = s.word a) ∧ u.cores = s.cores ∧ u.mode = s.mode) ∧
      (∀ kind id, x.failure = some (kind, id) → bit (s.reg offCensusStat) 2 = false → s.role = 0 → s.mode = 4 → ∃ u,
        exec .censusCheck s = .next u ∧ u.mode = 7 ∧ bit (u.reg offCensusStat) 2 = true ∧
          u.rfld offCensusStat 7 4 = kind ∧ u.rfld offCensusStat 19 8 = id)) ∧
    (s.census.sample = none ∨ s.census.final = true → exec .censusCheck s = .next s) ∧
    (bit (s.reg offCensusStat) 2 = false → s.role = 0 → s.mode = 4 → ∃ u, exec .crownLockstepDifference s = .next u ∧ u.mode = 7 ∧
      u.rfld offCensusStat 7 4 = 5 ∧ u.rfld offCensusStat 19 8 = 0 ∧ bit (u.reg offCensusStat) 2 = true)

/-- Completion (exec answers a next state with the own effect, on conditions of state and operands alone) of scrubVisit,
spineTargetService, transactionComplete, commandBeatCrcFail, creditReturn. What a decode does to a line (R64): up to four
symbols in error are corrected and counted, and three or more in DRAM retire the line; a wrong tag poisons the line and is
counted as uncorrectable with its address; a scrub visit (R69, R73) writes the corrected line back and goes on to the next.
The spine (R27 - R31, R64, R65, R75, R155): a target serves first what R27 puts first, and turns its wheel; a full-line write
puts the eight words, OWNER and the next VERSION there, a read leaves the line as it is; the tag then waits for its response
and returns after those of the port's earlier requests to the same target; a failed command beat ends the transaction and is
counted in SPINE.CRCERR; a credit returns to its sender unless every occupied slot holds a request that waits, and a response
waits while its link has no slot. -/
def Obligations.LineMemoryAndSpine : Prop :=
  ((∀ (s : State) (l : Nat),
     let e := Tab.get {} s.mem.errs l
     (s.lineMeta l).poison = false →
     (e.symbols = 0 → e.tagWrong = false → s.decode l = s) ∧
     (1 ≤ e.symbols → e.symbols ≤ 4 → e.tagWrong = false → 8 * l < Config.dramBase ∨ e.symbols ≤ 2 →
       s.decode l = s.incReg offMemCorr 1) ∧
     (e.tagWrong = true → ∃ u, s.decode l = u ∧ u.poisoned (8 * l) = true ∧ u.reg offMemUncorr = s.reg offMemUncorr + 1 ∧
       u.reg offMemLastBad = wd (8 * l) ∧ (∀ j, j ≠ l → u.lineMeta j = s.lineMeta j))) ∧
   (∀ (m : MemTarget) (s : State), s.host.ready = true →
     let n := Tab.get 0 s.mem.scrub (memNo m)
     let l := memLine (memNo m) n
     let e := Tab.get {} s.mem.errs l
     ∃ u, exec (.scrubVisit m) s = .next u ∧ Tab.get 0 u.mem.scrub (memNo m) = (n + 1) % memLines (memNo m) ∧
       ((s.lineMeta l).poison = false → 1 ≤ e.symbols → e.symbols ≤ 2 → e.tagWrong = false →
         Tab.get {} u.mem.errs l = {} ∧ u.reg offMemCorr = s.reg offMemCorr + 1 ∧ u.lineMeta l = s.lineMeta l) ∧
       (e = {} → u.mem.words = s.mem.words ∧ u.mem.lines = s.mem.lines ∧ u.reg offMemCorr = s.reg offMemCorr) ∧ u.cores = s.cores)) ∧
  (∀ s : State,
     (∀ (m : MemTarget) (r : SpineReq), s.spine.next (memNo m) = some r →
       let done := fun (u : State) => u.spine.waiting = s.spine.waiting.erase r ∧
         u.spine.acked = s.spine.acked ++ [SpineAck.mk r.tag r.port r.core r.cls r.target r.seq] ∧
         Tab.get 0 u.spine.wheel (memNo m) = (Tab.get 0 s.spine.wheel (memNo m) + 1) % 16 ∧
         u.spine.list (memNo m) r.cls = (s.spine.list (memNo m) r.cls).erase r.port ++ [r.port]
       (r.kind = .write → r.mask = 255 → r.data.length = 8 → ∃ u, exec (.spineTargetService m true) s = .next u ∧ done u ∧
         u.lineWords r.line = r.data ∧ u.lineMeta r.line = {
           owner := portOwner r.port, poison := r.poison, version := (s.lineMeta r.line).version + 1 } ∧
         (∀ l, l ≠ r.line → u.lineMeta l = s.lineMeta l ∧ u.lineWords l = s.lineWords l) ∧ u.cores = s.cores) ∧
       (r.kind = .read → Tab.get {} s.mem.errs r.line = {} →
         Tab.get 0 s.spine.strikes (loopNo (targetPort r.target) 0 r.cls) = 0 → ∃ u, exec (.spineTargetService m true) s = .next u ∧ done u ∧
         u.mem = s.mem ∧ u.regs = s.regs)) ∧
     (∀ m ok, s.spine.next (memNo m) = none → exec (.spineTargetService m ok) s = .next s) ∧
     (∀ (t : Fin 512) (a : SpineAck), s.spine.acked.find? (fun a => a.tag = t.val) = some a →
       (s.spine.early a = true ∨ s.spine.full a.port 1 a.cls = true → exec (.transactionComplete t) s = .next s) ∧
       (s.spine.early a = false → s.spine.full a.port 1 a.cls = false → ∃ u, exec (.transactionComplete t) s = .next u ∧
         u.spine.acked = s.spine.acked.filter (fun a => a.tag != t.val) ∧
         u.spine.waiting = s.spine.waiting ∧ u = { s with spine := u.spine })) ∧
     (∀ t : Fin 512, s.spine.waiting.any (fun r => r.tag = t.val) = true → ∃ u, exec (.commandBeatCrcFail t) s = .next u ∧
       u.spine = { s.spine with waiting := s.spine.waiting.filter (fun r => r.tag != t.val) } ∧
       u.reg offSpineCrcerr = s.reg offSpineCrcerr + 1 ∧ u = { s with spine := u.spine, regs := u.regs }) ∧
     (∀ (p : Fin 12) (d : Bool) (k : Fin 4),
       let j := loopNo p.val (b2n d) k.val
       let x := Tab.get {} s.spine.credits j
       (x.occupied ≤ s.spine.kept p.val (b2n d) k.val → exec (.creditReturn p d k) s = .next s) ∧
       (s.spine.kept p.val (b2n d) k.val < x.occupied → ∃ u, exec (.creditReturn p d k) s = .next u ∧
         Tab.get {} u.spine.credits j = { x with held := x.held + 1, occupied := x.occupied - 1 } ∧
         (∀ i, i ≠ j → Tab.get {} u.spine.credits i = Tab.get {} s.spine.credits i) ∧ u = { s with spine := u.spine })))

/-! ### Faults and the scheduler (R121, R141 - R146, R198 - R214, R225 - R230) -/

/-- Completion (exec answers a next state with the own effect, on conditions of state and operands alone) of dispatchRound.
Taking a fault (R141, R145, R146, R211): the core gives its task back and takes the next; the eight words of the fault record
stand in the task's slot; the task is FAULTED with its consecutive count one higher; the error task has one post more, the
task's word with the code; other tasks and cores stay. DISPATCH_ROUND (R121, R124, R205): the one core of a quadrant that
waits in TAKE is granted the task that comes first; a fresh start has PC, IB and SB of its descriptor, SP at its stack top
and every other register 0, and its queue's oldest post as start word for an EVENT task; a resumed one has its saved context. -/
def Obligations.FaultsAndDispatch : Prop :=
  (∀ (s : State) (k n code : Nat) (a w : Word), k < 64 → n < 1024 → code < 256 → (s.core k).task = some n → s.outstanding k = 0 →
     let x := s.task n
     let y := s.core k
     let e := s.errTaskOf n
     let u := s.takeFault k code a w
     let w2 := wd (code * 2 ^ 28 + b2n x.wdog * 2 ^ 27 + k * 2 ^ 20 + n / 256 * 2 ^ 16 + n % 256 * 2 ^ 8 + min (x.count + 1) 255)
     x.st ≠ .unused → x.stopping = false → s.exch.phase = .none → s.mode ≠ 7 → s.twinOf n = none →
     Config.quadBase ≤ x.slot → x.slot % 8 = 0 → x.slot + 8 ≤ 0x13FE000 + n / 256 * Config.quadWords → e ≠ n →
     (s.task e).st = .idle → (s.task e).queue.length < (s.task e).qdepth →
       (u.core k).task = none ∧ (u.core k).taking = true ∧ (u.core k).g = y.g ∧ (∀ j, j ≠ k → u.core j = s.core j) ∧
       (u.task n).st = .faulted ∧ (u.task n).count = min (x.count + 1) 255 ∧ (u.task n).queue = x.queue ∧
       u.words x.slot 8 = [dlo s.t72, dhi s.t72, w2, y.pc, w, a, y.ib, y.sp] ∧
       (u.task e).queue = (s.task e).queue ++ [{ word := wd n, code := code }] ∧
       (∀ m, m ≠ n → m ≠ e → u.task m = s.task m) ∧ u.loc = s.loc ∧ u.lanes = s.lanes ∧ u.axes = s.axes) ∧
  (∀ (q : Fin 5) (s : State) (k n : Nat), s.mode ≠ 7 → s.modes.inReset = false → k ∈ s.tileOrder q.val → (s.core k).taking = true →
     (∀ j ∈ s.tileOrder q.val, j ≠ k → (s.core j).taking = false) → s.candidate k = some n →
     let x := s.task n
     let top := s.stackTop n
     let kept := fun (u : State) => (u.core k).task = some n ∧ (u.core k).taking = false ∧ (u.core k).stackTop = top ∧
       (u.core k).stackLimit = top - x.stack ∧ (u.task n).st = .running ∧ (u.task n).tile = (if k < 64 then k else 0) ∧
       (∀ m, m ≠ n → u.task m = s.task m) ∧ (∀ j, j ≠ k → u.core j = s.core j)
     (x.fresh = true → ∃ u, exec (.dispatchRound q) s = .next u ∧ kept u ∧ (u.core k).pc = x.w 1 ∧ (u.core k).ib = x.w 2 ∧
       (u.core k).sb = x.w 3 ∧ (u.core k).sp = wd top ∧ (u.core k).g = [] ∧ (u.core k).acc = 0 ∧ (u.core k).fl = 0x80 ∧
       (u.task n).grant = s.elapsed ∧ (u.task n).scanning = true ∧
       (x.kind = 1 → (u.task n).queue = x.queue.tail ∧ (u.task n).start = (x.queue.head?.map Post.word).getD 0) ∧
       (x.kind ≠ 1 → (u.task n).queue = x.queue)) ∧
     (x.fresh = false → x.evGot = none → s.mem.errs = [] → (∀ i < 24, s.poisoned (x.ctx + i) = false) →
       ∃ u, exec (.dispatchRound q) s = .next u ∧ kept u ∧ (u.task n).saved = false ∧
       (u.core k).pc = s.word (x.ctx + 18) ∧ (u.core k).sp = s.word (x.ctx + 21) ∧ (u.core k).fl = s.word (x.ctx + 22) ∧
       (∀ i < 16, u.g k i = s.word (x.ctx + i)) ∧ (u.task n).queue = x.queue))

/-- Completion (exec answers a next state with the own effect, on conditions of state and operands alone) of schedulerTick,
waitDeadline, cycminExpiry, evwaitTimeout, scanWatchdogExpiry, exchangeHoldStart, swap, exchangeCommit, exchangeAbort.
SCHEDULER_TICK and the changes it makes (R168, R171, R201 - R204, R210, R214): at a tick a post accepted before the boundary
makes an IDLE task READY, a deadline or timeout that has come makes a DELAYED or waiting task READY, and a scan watchdog that
has run out ends a waiting task in a fault and marks a running one. The one-task events change no other task and no core. The
exchange's events (R227 - R230): at the first tick after loading holding starts, and affected tasks that rest are held; when
all are held the swap comes; at the first tick after the pause held tasks become READY on the new program and the mode is
RUN; a hold that runs out is given up, the tasks are released and the mode is RUN. -/
def Obligations.TicksAndExchange : Prop :=
  ((∀ (s : State) (n : Nat), s.mode ≠ 7 → s.tickDue = true → s.sched.stations = [] → s.sched.posts = [] → s.modes.restart = 0 →
     s.modes.resume = 0 →
     let x := s.task n
     x.st = .idle → x.posted = true → x.queue ≠ [] → x.postAcc < s.cc → x.held = false → s.granted n = true →
       ∃ u, exec .schedulerTick s = .next u ∧ (u.task n).st = .ready ∧ (u.task n).fresh = true ∧ u.sched.tick = s.now / tUs ∧
         u.sched.tickCc = s.cc ∧ u.sched.taken = true ∧ u.cores = s.cores ∧ u.lanes = s.lanes) ∧
   (∀ (s : State) (r : TaskRef), s.mode ≠ 7 → s.tickDue = true → s.sched.stations = [] → s.sched.posts = [] → s.modes.restart = 0 →
     let n := taskKey r
     let x := s.task n
     let only := fun (u : State) => (∀ m, m ≠ n → u.task m = s.task m) ∧ u.cores = s.cores ∧ u.lanes = s.lanes ∧ u.axes = s.axes
     let readied := fun (i : Instr) => ∃ u, exec i s = .next u ∧ only u ∧ (u.task n).st = .ready ∧ (u.task n).queue = x.queue ∧
       (u.task n).deadline = none ∧ (u.task n).timeout = none ∧ (u.task n).saved = x.saved
     x.acc < s.cc →
     (∀ d, s.wdogOut x = false → x.st = .delayed → x.deadline = some d → d ≤ s.now →
       (x.fresh = false → readied (.waitDeadline r)) ∧ (x.fresh = true → readied (.cycminExpiry r))) ∧
     (∀ d, s.wdogOut x = false → x.st = .evwait → x.posted = false → x.timeout = some d → d ≤ s.now →
       readied (.evwaitTimeout r) ∧ (∀ u, exec (.evwaitTimeout r) s = .next u → (u.task n).evGot = some none)) ∧
     (∀ d, x.st = .delayed → x.deadline = some d → s.now < d → s.wdogOut x = false →
       ∃ u, exec (.waitDeadline r) s = .next u ∧ u.tasks = s.tasks) ∧
     (s.wdogOut x = true → x.st = .running →
       ∃ u, exec (.scanWatchdogExpiry r) s = .next u ∧ only u ∧ u.task n = { x with wdog := true }) ∧
     (s.wdogOut x = true → x.st = .delayed ∨ x.st = .evwait ∨ x.st = .ready → x.stopping = false → s.exch.phase = .none →
       ∃ u, exec (.scanWatchdogExpiry r) s = .next u ∧ (u.task n).st = .faulted ∧ (u.task n).count = min (x.count + 1) 255 ∧
         u.cores = s.cores))) ∧
  (∀ s : State, s.mode = 5 → s.modes.trans = none → s.brim.wantSafe = false →
     let x := s.exch
     (x.phase = .loading → x.tick < s.now / tUs → ∃ u, exec .exchangeHoldStart s = .next u ∧ u.exch.phase = .holding ∧
       u.exch.holdAt = s.elapsed ∧ (∀ n ∈ x.affected, (s.task n).st = .idle ∨ (s.task n).st = .faulted → (u.task n).held = true) ∧
       (∀ n, n ∉ x.affected → u.task n = s.task n) ∧ u.mem = s.mem ∧ u.cores = s.cores) ∧
     (x.phase = .holding → s.allHeld = true → s.readBlocks s.oldProgram = (false, s) →
       (∀ img, Config.parseImage x.img = some img → s.readProgram s.oldProgram img = (false, s)) → ∃ u, exec .swap s = .next u ∧
       (∀ img, Config.parseImage x.img = some img → u.exch.phase = .swapped ∧ u.exch.swapCc = s.cc ∧ u.exch.affected = x.affected) ∧
       (Config.parseImage x.img = none → u = s) ∧ u.mode = 5) ∧
     (x.phase = .holding → s.allHeld = false → exec .swap s = .next s) ∧
     (x.phase = .swapped → s.forcesMet = (false, s) → s.holdup = false → x.swapCc + x.pause ≤ s.cc → s.tickDue = true → ∃ u, exec .exchangeCommit s = .next u ∧ u.mode = 4 ∧
       u.exch.phase = .none ∧ u.store.program = x.img ∧ (∀ n ∈ x.removed, (u.task n).st = .unused) ∧
       (∀ n, n ∉ x.removed → (s.task n).held = true → (u.task n).st = .ready ∧ (u.task n).held = false) ∧
       (∀ n, n ∉ x.removed → (s.task n).held = false → u.task n = s.task n) ∧ u.cores = s.cores) ∧
     (x.phase = .holding → s.allHeld = false → x.holdAt + x.limitMs * tMs ≤ s.elapsed → ∃ u, exec .exchangeAbort s = .next u ∧
       u.mode = 4 ∧ u.exch = {} ∧ (∀ n ∈ x.affected, (u.task n).held = false) ∧
       (∀ n, n ∉ x.affected → u.task n = s.task n) ∧ u.cores = s.cores))

/-! ### Cues, coordinates and lanes (R86, R87, R90 - R92, R97 - R103, R183 - R185, R252 - R261, R271) -/

/-- Completion (exec answers a next state with the own effect, on conditions of state and operands alone) of cueFire, conv,
pwmld, outset, outclr, captrig, cuePost, spgrp, laneen, lanedis, stepgo, latch. CUE_FIRE (R97, R98, R101, R103): an armed cue
fires in the first cell clock in which its coordinate has crossed its value: RISE when the value before lies below and the
present one does not, FALL the other way round, and on coordinate 0 a value not later than the reference in the first cell
clock. The record takes the time of the cell clock and FINE; a repeating cue is armed again one STEP on; its action joins the
queue. A cue that is not crossed stays. The actions of fired cues (R99, R100): the action at the head of the queue is carried
out, at most 16 in a cell clock, and one of an earlier firing carries DEFER with the clocks it was held back; its effect is
R100's, counted from the cell clock of the firing. An action that is not at the head of the queue, or whose turn has not
come, changes nothing. -/
def Obligations.CuesFire : Prop :=
  (∀ (n : Fin 4096) (s : State),
     let x := s.cue n.val
     let c := x.coord
     let now := s.coordNow c
     let before := s.coordBefore c x.armedAt x.ref
     let fires := fun (past : Bool) => ∃ u, exec (.cueFire n) s = .next u ∧ u = { s with cues := u.cues, actions := u.actions } ∧
       (∀ m, m ≠ n.val → u.cue m = s.cue m) ∧
       (let y := u.cue n.val
        y.ftime = s.t72 ∧ y.firedAt = some s.cc ∧ y.fires = (x.fires + 1) % 2 ^ 36 ∧ y.past = past ∧ y.w0 = x.w0 ∧ y.owner = x.owner ∧
        y.defer = false ∧ y.conflict = false ∧
        (past = false → (c ≠ 0 → (s.coord c).stepped = false) →
          y.fine = min 31 (32 * (x.value - before).natAbs / (now - before).natAbs)) ∧
        (x.repeats = false → y.st = .fired) ∧
        (x.repeats = true → y.st = .armed ∧ y.armedAt = s.cc ∧ y.ref = now ∧
          y.value = x.value + x.step * (if c = 0 then (tNs : Int) else 2 ^ 32))) ∧
       (x.action = 0 → u.actions = s.actions) ∧
       (x.action ≠ 0 → u.actions.length = s.actions.length + 1 ∧ (∀ a ∈ s.actions, a ∈ u.actions) ∧
         ∃ a ∈ u.actions, a.cue = n.val ∧ a.code = x.action ∧ a.param = x.param ∧ a.f = s.cc ∧ a.src = x.owner.getD .host)
     x.st = .armed → x.armedAt < s.cc → x.firedAt ≠ some s.cc → s.coordMod c = none →
       ((x.dir = 1 ∨ x.dir = 3) → before < x.value → x.value ≤ now → ¬(c = 0 ∧ s.cc = x.armedAt + 1 ∧ x.value ≤ x.ref) → fires false) ∧
       (c ≠ 0 → x.dir = 2 ∨ x.dir = 3 → x.value < before → now ≤ x.value → fires false) ∧
       (c = 0 → s.cc = x.armedAt + 1 → x.value ≤ x.ref → fires true) ∧
       (x.value < min before now ∨ max before now < x.value → ¬(c = 0 ∧ s.cc = x.armedAt + 1) → exec (.cueFire n) s = .next s)) ∧
  (∀ (n : Fin 4096) (s : State) (a : Action) (rest : List Action), s.actions = a :: rest →
     let p := a.param
     let base : State := {
       s with
       actions := rest
       actionsDone := s.actionsDone + 1
       cues := if s.cc - a.f = 0 then s.cues
         else (s.setCue n.val { s.cue n.val with defer := true, deferCc := min (s.cc - a.f) 255 }).cues }
     (a.cue = n.val → s.actionsDone < 16 → s.orders = [] → s.conflicts = [] →
       (a.code = 1 → ∃ u, exec (.conv n) s = .next u ∧ u = { base with convs := u.convs } ∧ (∀ k, k ≠ p → u.conv k = s.conv k) ∧
         u.conv p = { s.conv p with coming := (s.conv p).coming ++ [(max (a.f + 2) s.cc, bit (s.reg (offConv p 0)) 28)] }) ∧
       (a.code = 2 → ∃ u, exec (.pwmld n) s = .next u ∧ u = { base with pwm := u.pwm } ∧ (∀ k, k ≠ p % 32 → u.pair k = s.pair k) ∧
         u.pair (p % 32) = { s.pair (p % 32) with
           loads := (s.pair (p % 32)).loads ++ [(max (a.f + 2) (s.cc + 1), if p / 32 % 2 = 1 then some a.fine else none)] }) ∧
       (p < 16 → s.cellsLive = true → a.code = 3 → ∃ u, exec (.outset n) s = .next u ∧ u.reg (offFout p 0) = wd (2 ^ 35) ∧
         u = { base with regs := u.regs, field := u.field, orders := u.orders } ∧ (∀ o, o ≠ offFout p 0 → u.reg o = s.reg o)) ∧
       (p < 16 → a.code = 4 → ∃ u, exec (.outclr n) s = .next u ∧ u.reg (offFout p 0) = 0 ∧
         u = { base with regs := u.regs, field := u.field, orders := u.orders } ∧ (∀ o, o ≠ offFout p 0 → u.reg o = s.reg o)) ∧
       (a.code = 5 → ∃ u, exec (.captrig n) s = .next u ∧ u = { base with caps := u.caps } ∧ (∀ k, k ≠ p → u.cap k = s.cap k) ∧
         ((s.cap p).st ≠ 0 →
           let t := (a.time + a.fine * (s.reg offTimeInc).toNat / 32) / 2 ^ 16
           u.cap p = { s.cap p with triggers := (s.cap p).triggers ++ [{ kind := 4, time := t, target := t, cc := s.cc }] })) ∧
       (a.code = 6 → s.mode ≠ 7 → (s.task p).st ≠ .unused → (s.task p).queue.length < (s.task p).qdepth → ∃ u,
         exec (.cuePost n) s = .next u ∧ (u.task p).queue = (s.task p).queue ++ [{ word := wd n.val }] ∧ (u.task p).posted = true ∧
           (∀ m, m ≠ p → u.task m = s.task m) ∧ u = { base with tasks := u.tasks, census := u.census } ∧
           u.stream (strPost (taskQuad p)) = { s.stream (strPost (taskQuad p)) with
             produced := (s.stream (strPost (taskQuad p))).produced + 1
             resident := (s.stream (strPost (taskQuad p))).resident + 1 }) ∧
       (a.code = 7 → (s.spGroup p).st = .loaded → ∃ u, exec (.spgrp n) s = .next u ∧
         (∀ m v, (s.spGroup p).members = [(m, v)] →
           ((s.lane m).enabled = true → (u.lane m).pendSp = some { value := v, src := a.src, at_ := s.cc, group := true } ∧
             (u.spGroup p).st = .applying) ∧
           ((s.lane m).enabled = false → u.lane m = { s.lane m with desc := Tab.put 0 (s.lane m).desc 10 v }) ∧
           (∀ j, j ≠ m → u.lane j = s.lane j)) ∧
         u = { base with lanes := u.lanes, spGroups := u.spGroups, orders := u.orders }) ∧
       (a.code = 8 → ∃ u, exec (.laneen n) s = .next u ∧ (u.lane p).pendEnable = some (true, a.src, s.cc) ∧
         ((s.lane p).enabled = true ∨ (s.lane p).cycle = true →
           u.lane p = { s.lane p with pendEnable := some (true, a.src, s.cc) }) ∧ (∀ j, j ≠ p → u.lane j = s.lane j) ∧
         u = { base with lanes := u.lanes, orders := u.orders }) ∧
       (a.code = 9 → ∃ u, exec (.lanedis n) s = .next u ∧ (∀ j, j ≠ p → u.lane j = s.lane j) ∧
         ((s.lane p).enabled = true → u.lane p = { s.lane p with pendEnable := some (false, a.src, s.cc) } ∧
           u = { base with lanes := u.lanes, orders := u.orders }) ∧
         ((s.lane p).enabled = false → (u.lane p).enabled = false ∧ (u.lane p).pendEnable = none ∧
           (∀ j < 256, (s.axis j).st ≠ .unconf → (s.axis j).plane = p → (u.axis j).st = .disabled) ∧
           (∀ j, (s.axis j).plane ≠ p → u.axis j = s.axis j) ∧
           u = { base with lanes := u.lanes, axes := u.axes, orders := u.orders })) ∧
       (a.code = 10 → ∃ u, exec (.stepgo n) s = .next u ∧ u = { base with steps := u.steps } ∧
         u.stepGen p = { s.stepGen p with goAt := some (max (a.f + 2) (s.cc + 1)) } ∧ (∀ k, k ≠ p → u.stepGen k = s.stepGen k)) ∧
       (a.code = 11 → p < 4 → ∃ u, exec (.latch n) s = .next u ∧ u = { base with regs := u.regs } ∧
         u.reg (offLatch p 0) = s.reg (offLatch p 0) + 2 ∧
         (∀ c < 32, let v := (a.held.getD s.coordValues).getD c 0
           u.reg (offLatch p (2 + 2 * c)) = dlo v ∧ u.reg (offLatch p (3 + 2 * c)) = dhi v) ∧
         (∀ o, o < offLatch p 0 ∨ offLatch p 66 ≤ o → u.reg o = s.reg o))) ∧
     (∀ i ∈ [Instr.conv n, .pwmld n, .outset n, .outclr n, .captrig n, .cuePost n, .spgrp n, .laneen n, .lanedis n, .stepgo n, .latch n],
       a.cue ≠ n.val ∨ 16 ≤ s.actionsDone → exec i s = .next s))

/-- Completion (exec answers a next state with the own effect, on conditions of state and operands alone) of ringUpdateApply,
mainsLockChange. RING_UPDATE_APPLY and MAINS_LOCK_CHANGE (R86, R87, R90 - R92): an update of a ring coordinate becomes the
value in use, its count unwrapped by differences and extrapolated from its sampling instant; a tracker that locks takes
frequency and phase, and one that loses lock runs on from its present value. -/
def Obligations.CoordinateEvents : Prop :=
  ∀ (k : Fin 32) (s : State),
    let c := k.val
    let x := s.coord c
    let others := fun (u : State) => ∀ j, j ≠ c → u.coord j = s.coord j
    (∀ m v t, s.ringUpdate c = some (m, v, t) → (s.reg (offCoord c 3)).toNat = 0 → ∃ u, exec (.ringUpdateApply k) s = .next u ∧ others u ∧
      u = { s with coords := u.coords } ∧
      (let y := u.coord c
       let p : Int := if x.upd then x.pos + sextN (m + 2 ^ 32 - x.raw) 32 * 2 ^ 32 else sextN m 32 * 2 ^ 32
       y.pos = p ∧ y.vel25 = v * 2 ^ 12 ∧ y.at_ = t ∧ y.raw = m ∧ y.upd = true ∧ y.stale = false ∧ y.held = false ∧ y.stepped = true ∧
         y.value = s.reduce c (p + v * 2 ^ 12 * ((s.cc - t : Nat) : Int) / 25))) ∧
    (s.ringUpdate c = none → exec (.ringUpdateApply k) s = .next s) ∧
    (s.coordSrc c = 4 → ∀ f h,
      (45000 ≤ f.toNat → f.toNat ≤ 66000 → ∃ u, exec (.mainsLockChange k true f h) s = .next u ∧ others u ∧ u = { s with coords := u.coords } ∧
        (let y := u.coord c
         y.unlock = false ∧ y.mHz = f.toNat ∧ y.pos = h.toNat * 2 ^ 32 ∧ y.value = h.toNat * 2 ^ 32 ∧ y.at_ = s.cc ∧ y.upd = true)) ∧
      (∃ u, exec (.mainsLockChange k false f h) s = .next u ∧ others u ∧ u = { s with coords := u.coords } ∧
        (let y := u.coord c
         y.unlock = true ∧ y.mHz = x.mHz ∧ y.pos = x.value ∧ y.value = x.value ∧ y.at_ = s.cc ∧ y.stepped = x.stepped))) ∧
    (s.coordSrc c ≠ 4 → ∀ b f h, exec (.mainsLockChange k b f h) s = .next s)

/-- Completion (exec answers a next state with the own effect, on conditions of state and operands alone) of laneDue,
laneSample. LANE_DUE (R252, R254, R271): at a due moment of an enabled lane that has no sample waiting, one is set; if one
waits or runs, MISSED counts and it stays; a waiting order to enable or disable takes effect here. A moment that is not due
changes nothing. LANE_SAMPLE (R253, R255, R256, R258, R263, R278, R279): a sample whose turn has come runs the lane's law on
its inputs, states and coefficients; SAMPLES rises by one, the law's states are kept, and the nodes and the output leave in
the law clock after the last step. A PI lane without ramp or limit in force has as output its proportional term, its integral
and its feed-forward, and its integral grows by its coefficient times the error. A lane whose turn has not come stays as it
is. -/
def Obligations.LaneSamples : Prop :=
  (∀ (n : Fin 1024) (s : State) (d : Nat) (w : List Nat),
     let x := s.lane n.val
     let src := fun i => fld (x.w (5 + i)) 9 0
     let cross := fun i => fld (x.w (5 + i)) 35 32 = 2 && decide (src i / 256 ≠ n.val / 256)
     let others := fun (u : State) => (∀ m, m ≠ n.val → u.lane m = s.lane m) ∧ u.cores = s.cores ∧ u.tasks = s.tasks ∧ u.regs = s.regs ∧
       u.mem = s.mem
     x.configured = true → cellsRun s.mode = true → x.dueAt ≠ s.cc + 1 → x.cycle = false → x.waits = d :: w → s.conflicts = [] →
       (s.cc < d → exec (.laneDue n) s = .next s) ∧
       (d ≤ s.cc → x.law ≠ 5 → x.held d = false →
         x.enabled = true ∧ x.pendEnable = none ∨ (∃ p, x.pendEnable = some (true, p) ∧ p.2 < d) →
         (∀ i < 4, cross i = false) ∨ s.spineQuiet = true → ∃ u, exec (.laneDue n) s = .next u ∧ others u ∧
           (∀ i < 4, cross i = true → (u.lane n.val).inputs.getD i none =
             some (s36 (wdI ((if s.dueNow (src i) then (s.lane (src i)).nodes else (s.lane (src i)).nodesDue).getD (fld (x.w (5 + i)) 12 10) 0)))) ∧
           (let y := u.lane n.val
            y.due = some (d, 0, 0) ∧ y.enabled = true ∧ y.pendEnable = none ∧ y.waits = w ∧ y.nodesDue = x.nodes ∧ y.missed = x.missed ∧
              y.samples = x.samples ∧ y.desc = x.desc)) ∧
       (d ≤ s.cc → x.due.isSome = true ∨ lawClock d < x.busy → x.enabled = true → x.pendEnable = none → ∃ u, exec (.laneDue n) s = .next u ∧ others u ∧
         u.lane n.val = { x with waits := w, dueAt := s.cc + 1, missed := satAdd x.missed 1 18 }) ∧
       (d ≤ s.cc → ∀ b p, x.pendEnable = some (b, p) → d ≤ p.2 → x.enabled = false → exec (.laneDue n) s = .next
         (s.setLane n.val { x with waits := w, dueAt := s.cc + 1 })) ∧
       (d ≤ s.cc → ∀ p, x.pendEnable = some (false, p) → p.2 < d → bit (x.w 12) 25 = false → x.pendCoef = [] → x.pendSp = none → x.run = none →
         (∀ a < 256, (s.axis a).setpos = none) → ∃ u, exec (.laneDue n) s = .next u ∧ others u ∧
         (let y := u.lane n.val
          y.enabled = false ∧ y.due = none ∧ y.pendEnable = none ∧ y.desc = x.desc) ∧
         (∀ a < 256, (s.axis a).st ≠ .unconf → (s.axis a).plane = n.val → (u.axis a).st = .disabled) ∧
         (∀ a < 256, (s.axis a).plane ≠ n.val → u.axis a = s.axis a))) ∧
  ((∀ (n : Fin 1024) (s : State),
     let x := s.lane n.val
     let i := s.lawIn n.val
     let o := law x.law i
     ∀ start, s.sampleStart n.val = some start → x.law ≠ 5 → x.prof = none → x.pendCoef = [] → x.pendSp = none → x.hold = false → fld (x.w 57) 35 34 = 0 → s.conflicts = [] →
       fld (x.w 12) 35 32 = 0 → fld (x.w 62) 35 28 = 0 → s.groupPending n.val = false → ∃ u, exec (.laneSample n) s = .next u ∧
         (let y := u.lane n.val
          y.due = none ∧ y.samples = (x.samples + 1) % 2 ^ 36 ∧ y.lastOut = o.u ∧ y.busy = start + x.steps ∧ y.nodes = x.nodes ∧
            (∃ r, y.run = some r ∧ r.at_ = start + x.steps ∧ r.write = true ∧ r.u = o.u ∧ r.nodes = o.nodes ∧ r.duty = o.duty) ∧ y.satnow = (o.sat || i.preSat) ∧
            y.prevSp = i.r ∧ y.out = o.nodes.getD 7 0 ∧ y.err = o.nodes.getD 2 0 ∧ (∀ k < 16, y.w (41 + k) = o.st.getD k 0) ∧
            (∀ k, k < 41 → y.w k = x.w k) ∧ y.enabled = x.enabled) ∧
         (∀ m, m ≠ n.val → u.lane m = s.lane m) ∧ u.cores = s.cores ∧ u.tasks = s.tasks ∧ u.axes = s.axes ∧ u.mem = s.mem ∧
         ((∀ i < 4, fld (x.w (5 + i)) 35 32 ≠ 1) → u.pwm = s.pwm ∧ u.field = s.field)) ∧
   (∀ (n : Fin 1024) (s : State) (r : LaneRun), (s.lane n.val).run = some r → fld ((s.lane n.val).w 12) 35 32 = 0 → fld ((s.lane n.val).w 62) 35 28 = 0 →
     (s.laneEnd n.val).lane n.val = { s.lane n.val with nodes := r.nodes, run := none }) ∧
   (∀ (n : Fin 1024) (s : State), s.sampleTurn n.val = false → exec (.laneSample n) s = .next s) ∧
   (∀ i : LawIn,
     let e := i.r + i.inp 1 - i.inp 0
     let up := mulSig (i.co 0) e + i.s2 0 + mulSig (i.co 2) (i.inp 2)
     let ni := i.s2 0 + mulSig (i.co 1) e
     i.rateMax = 0 → -2 ^ 71 ≤ up → up < 2 ^ 71 → toAcc i.outMin ≤ up → up ≤ toAcc i.outMax → toAcc i.outMin ≤ ni → ni ≤ toAcc i.outMax →
       -2 ^ 35 ≤ i.outMin → i.outMax < 2 ^ 35 →
       (law 1 i).u = rshRound up 28 ∧ (law 1 i).st.getD 0 0 = dlo (dwI ni) ∧ (law 1 i).st.getD 1 0 = dhi (dwI ni) ∧
         (law 1 i).nodes.getD 2 0 = satS36 e))

/-! ### The Ribriari rings (R329 - R393) -/

/-- Completion (exec answers a next state with the own effect, on conditions of state and operands alone) of ringStart,
claimRepeat, claimEnd, claimReceived. RING_START, CLAIM_REPEAT, CLAIM_END and CLAIM_RECEIVED (R379 - R382, R386): a ring with
a waiting configuration claims on every port that is not lost, and again every 8 us; after 256 us without a loss it has won,
its epoch is newer than every one met, and its first cycle starts 10 us later or more. A claim with a higher key is lost to:
RESULT 3 and the winner's key, and the module becomes STANDBY or, where LOSE says NODE, a node of that ring. A lower key only
tells its epoch. -/
def Obligations.RingClaims : Prop :=
  ∀ (r : Fin 2) (s : State),
    let x := s.ring r.val
    let sent := fun (u : State) (epochs : Nat) (c : RingCfg) =>
      let f := claimFrame c x.epoch epochs s.claimKey s.now
      u.outbox = s.outbox ++ (if x.lostA then [] else [Msg.band r.val 0 f]) ++ (if x.lostB then [] else [Msg.band r.val 1 f])
    let only := fun (u : State) => u.ring (1 - r.val) = s.ring (1 - r.val) ∧
      u = { s with rings := u.rings, regs := u.regs, outbox := u.outbox }
    (∀ c a, x.waiting = some (c, a) → c.mode ≠ 0 → s.ringTx = true →
      (x.run = false → x.claim = none → x.first = none → x.passive = false → x.parent = false → x.lostA = false ∨ x.lostB = false →
        ∃ u, exec (.ringStart r) s = .next u ∧ only u ∧ sent u x.epoch c ∧
          u.ring r.val = { x with claim := some { start := s.cc, last := s.cc, epochMax := x.epoch } } ∧
          u.reg (offClaim 1) = wd (2 ^ 32) ∧ u.reg (offClaim 2) = 0) ∧
      (∀ m, x.claim = some m → m.last + 3200 ≤ s.cc → s.cc < m.start + 102400 → ∃ u, exec (.claimRepeat r) s = .next u ∧ only u ∧
        sent u m.epochMax c ∧ u.ring r.val = { x with claim := some { m with last := m.last + 3200 } } ∧ u.regs = s.regs)) ∧
    (∀ m, x.claim = some m →
      (s.cc < m.last + 3200 → exec (.claimRepeat r) s = .next s) ∧ (s.cc < m.start + 102400 → exec (.claimEnd r) s = .next s) ∧
      (m.start + 102400 ≤ s.cc → s.rfld offTimeStat 1 0 = 1 →
        (∀ d, (s.ring (1 - r.val)).cfg = some d ∨ s.claimCfg (1 - r.val) = some d → 0 < d.cyclen) → ∃ u f, exec (.claimEnd r) s = .next u ∧ only u ∧ s.cc + 4000 ≤ f ∧
        u.ring r.val = { x with claim := none, epoch := (epochMax m.epochMax x.epoch + 1) % 2 ^ 16, first := some f } ∧
        u.reg (offClaim 1) = wd (2 ^ 33 + s.claimKey / 2 ^ 40 * 2 ^ 24 + s.claimKey / 2 ^ 36 % 16) ∧ u.reg (offClaim 2) = wd s.claimKey ∧
        u.outbox = s.outbox) ∧
      (∀ b f, f.delimited = true → headGood f.body = true → byteAt f.body 0 = 0x10 → blockGood (oneBlock f.body) 0 = true →
        let body := f.body
        let key := leAt (oneBlock body) 0 5 + byteAt (oneBlock body) 5 * 2 ^ 40
        (key ≤ s.claimKey → ∃ u, exec (.claimReceived r b f) s = .next u ∧ only u ∧ u.regs = (s.framed r.val f).regs ∧
          u.ring r.val = { x with claim := some { m with epochMax := epochMax m.epochMax (leAt (oneBlock body) 6 2) } }) ∧
        (s.claimKey < key → s.loseNode = true → s.modes.resume = 0 → x.due = false → x.assembled = false →
          ∃ u, exec (.claimReceived r b f) s = .next u ∧
          (s.rfld offTimeStat 1 0 = 1 → u.rfld offTimeStat 1 0 = 3) ∧
          (s.rfld offTimeStat 1 0 ≠ 1 → only u ∧
            u.ring r.val = { x with claim := none, first := none, run := false, passive := false, parent := true, node := none }) ∧
          u.reg (offClaim 1) = wd (3 * 2 ^ 32 + key / 2 ^ 40 * 2 ^ 24 + key / 2 ^ 36 % 16) ∧ u.reg (offClaim 2) = wd key) ∧
        (s.claimKey < key → s.loseNode = false → s.modes.resume = 0 → s.mode ≠ 8 → s.holdup = false → s.modes.trans = none →
          (∀ n, (s.task n).st = .unused) → ∃ u, exec (.claimReceived r b f) s = .next u ∧ u.modes.trans = some (8, 6) ∧
            (∀ q : Fin 2, (u.ring q.val).passive = true ∧ (u.ring q.val).run = false ∧ (u.ring q.val).claim = none)))) ∧
    (x.claim = none → x.first = none → x.passive = false → x.parent = false → ∀ b f,
      exec (.claimReceived r b f) s = .next (s.framed r.val f)) ∧
    (∀ b f, f.delimited = false → exec (.claimReceived r b f) s = .next (s.framed r.val f))

/-- Completion (exec answers a next state with the own effect, on conditions of state and operands alone) of cycleStart,
ringConfigEffect, outputAssembly. CYCLE_START, OUTPUT_ASSEMBLY and RING_CONFIG_EFFECT (R333, R340, R355, R358, R360, R363): a
cycle start comes exactly CYCLEN after the one before, takes the next number (on common numbering ring 1 takes ring 0's
starts and numbers, R334), and sends the band from port A and the probe from port B, or in loopback the two halves; the
assembled blocks are delivered, or dropped if poisoned, and the band's blocks are due back. At CLOSE the next band is
assembled once, with the device's mark in each slot. A waiting configuration takes effect at the first start 20 us after its
acceptance. -/
def Obligations.RingCycles : Prop :=
  ∀ (r : Fin 2) (s : State) (c : RingCfg),
    let x := s.ring r.val
    let n := c.nblk
    let bad := x.txBad.length
    let so := s.stream (strBandOut r.val)
    let si := s.stream (strBandIn r.val)
    let alone := s.followsRing0 r.val = true → ((s.ring 0).start = x.start ∨ (s.ring 0).start = x.start + c.cyclen) ∧
      s.commonNumber (x.start + c.cyclen) c.cyclen = (x.cycle + 1) % 2 ^ 48
    x.cfg = some c → x.run = true → x.first = none →
     (s.followsRing0 r.val = true → x.waiting = none → c.mode = 1 → x.assembled = true → s.ringTx = true → 0 < c.cyclen → x.start + 2 * c.cyclen ≤ s.cc →
       ∃ u, exec (.cycleStart r) s = .next u ∧ (∃ k : Int, ((u.ring r.val).start : Int) = (s.ring 0).start + k * c.cyclen) ∧
         x.start + c.cyclen ≤ (u.ring r.val).start ∧ (u.ring r.val).start < x.start + 2 * c.cyclen ∧
         (u.ring r.val).cycle = s.commonNumber (u.ring r.val).start c.cyclen) ∧
     (alone →
      (s.cc < x.start + c.cyclen → exec (.cycleStart r) s = .next s ∧ exec (.ringConfigEffect r) s = .next s) ∧
      (x.start + c.cyclen ≤ s.cc → x.waiting = none → c.mode = 1 → x.assembled = true → s.ringTx = true → bad ≤ n → x.leaveLoop = false →
        x.due = false → ∃ u, exec (.cycleStart r) s = .next u ∧
          (let y := u.ring r.val
           y.start = x.start + c.cyclen ∧ y.cycle = (x.cycle + 1) % 2 ^ 48 ∧ y.opened = 0 ∧ y.assembled = false ∧ y.due = true ∧ y.rx = [] ∧ y.bad = [] ∧
             y.loop = (x.loop || x.wantLoop) ∧ y.wantLoop = false ∧ y.cfg = some c ∧ y.tx = x.tx ∧ y.stations = x.stations ∧
           (x.loop = false → x.wantLoop = false →
             u.outbox = s.outbox ++ [Msg.band r.val 0 (y.band c 0), Msg.band r.val 1 (y.probe c)] ∧
             u.stream (strBandOut r.val) = {
               so with
               delivered := so.delivered + (n - bad)
               dropped := Tab.put 0 so.dropped 2 (Tab.get 0 so.dropped 2 + bad)
               resident := so.resident - (n - bad) - bad } ∧
             u.stream (strBandIn r.val) = { si with produced := si.produced + n, resident := si.resident + n }) ∧
           (x.loop = true ∨ x.wantLoop = true → u.outbox = s.outbox ++ [Msg.band r.val 0 (y.band c 1), Msg.band r.val 1 (y.band c 2)]) ∧
           u.reg (offRing r.val 6) = (if x.wantLoop && !x.loop then s.reg (offRing r.val 6) + 1 else s.reg (offRing r.val 6))) ∧
          u.ring (1 - r.val) = s.ring (1 - r.val) ∧ u.cores = s.cores ∧ u.mem = s.mem ∧ u.tasks = s.tasks) ∧
      (x.start + c.close ≤ s.cc → x.assembled = false → x.waiting = none → c.mode = 1 → s.spineQuiet = true → s.mem.errs = [] →
        ∃ u, exec (.outputAssembly r) s = .next u ∧
        (let y := u.ring r.val
         y.assembled = true ∧ y.cycle = x.cycle ∧ y.start = x.start ∧ y.stations = x.stations ∧ y.rx = x.rx ∧
         u.stream (strBandOut r.val) = { so with produced := so.produced + n, resident := so.resident + n } ∧
         (∀ i ∈ y.txBad, i < n) ∧
         (ringStationsOk c = true → x.out = [] → s.forces = [] → (∀ i < 1024, bit (s.reg (offSlot r.val i 0)) 35 = false) →
           ∀ e ∈ c.stations, byteAt y.tx e.2.1 = (x.cycle + 1) % 2 ^ 48 % 256 ^^^ 0x80)) ∧
        u.ring (1 - r.val) = s.ring (1 - r.val) ∧ u.cores = s.cores ∧ u.tasks = s.tasks ∧ u.outbox = s.outbox) ∧
      (s.cc < x.start + c.close ∨ x.assembled = true → exec (.outputAssembly r) s = .next s) ∧
      (∀ g a, x.waiting = some (g, a) → x.start + c.cyclen ≤ s.cc →
        (a + 8000 ≤ x.start + c.cyclen → ∃ u, exec (.ringConfigEffect r) s = .next u ∧
          (let y := u.ring r.val
           y.cfg = some g ∧ y.waiting = none ∧ y.assembled = false ∧ y.run = (g.mode != 0) ∧ y.start = x.start ∧ y.cycle = x.cycle) ∧
          u.reg (offRingOpen r.val) = wd g.openAt ∧ u.reg (offRingClose r.val) = wd g.close ∧ u.reg (offRing r.val 2) = wd g.loopOpen ∧
          u.reg (offRing r.val 3) = wd g.applyOff ∧ u = { s with rings := u.rings, regs := u.regs, census := u.census } ∧
          (x.assembled = false → u.census = s.census) ∧
          (∀ i < 1024, bit (u.reg (offSlot r.val i 0)) 35 = (bit (s.reg (offSlot r.val i 0)) 35 && u.slotFits r.val (s.reg (offSlot r.val i 0))))) ∧
        (x.start + c.cyclen < a + 8000 → exec (.ringConfigEffect r) s = .next s)))

/-- Completion (exec answers a next state with the own effect, on conditions of state and operands alone) of windowOpening.
WINDOW_OPENING (R341, R357, R359, R360, R388 - R390): at OPEN, once a cycle, every station that marked the cycle has MISSRUN
0 and its slot's bytes, every other has one miss more; one that misses more than DROPN cycles drops out, and one that is
dropped out comes back when it marks OPERATE. The blocks due back are all delivered or dropped, and a late one is counted. A
valid input cell takes its field from a station that marked, and is held otherwise. -/
def Obligations.WindowOpenings : Prop :=
  ∀ (r : Fin 2) (s : State) (c : RingCfg),
    let x := s.ring r.val
    x.cfg = some c → x.run = true →
      (x.opened ≠ 0 ∨ s.cc < x.start + x.openNow c → exec (.windowOpening r) s = .next s) ∧
      (x.opened = 0 → x.start + x.openNow c ≤ s.cc → s.modes.resume = 0 → c.mode = 1 → c.stations.length = c.nodes → ∃ u,
        exec (.windowOpening r) s = .next u ∧
        (let y := u.ring r.val
         y.opened = s.cc + 1 ∧ y.inCycle = some x.cycle ∧ y.cycle = x.cycle ∧ y.start = x.start ∧ y.cfg = some c ∧ y.rx = x.rx) ∧
        (∀ p, 1 ≤ p → p ≤ c.nodes →
          let old := s.station r.val p
          let new := u.station r.val p
          (∀ k, x.markCopy c p = some k →
            let bs := x.slotBytes c p k
            new.missrun = 0 ∧ (new.dropped = false → new.marked = true ∧ new.area = bs) ∧ new.nstate = byteAt bs 1 % 4 ∧ new.mcrc = byteAt bs 2 ∧
              new.dropped = (old.dropped && byteAt bs 1 % 4 != 1) ∧ new.dropcnt = old.dropcnt) ∧
          (x.markCopy c p = none → new.missrun = old.missrun + 1 ∧ new.marked = false ∧ new.area = old.area ∧ new.mcrc = old.mcrc ∧
            new.dropped = (old.dropped || decide (c.dropn < new.missrun)) ∧
            new.dropcnt = if !old.dropped && decide (c.dropn < new.missrun) then (old.dropcnt + 1) % 2 ^ 36 else old.dropcnt)) ∧
        (∀ i < 1024, ∀ p,
          let w := s.reg (offSlot r.val i 0)
          bit w 35 = true → bit w 34 = false → s.posOf r.val (fld w 29 16) = some p →
            (∀ k, x.markCopy c p = some k → (u.station r.val p).dropped = false → u.reg (offSlot r.val i 1) =
              wdI (sextN (leAt ((x.slotBytes c p k).drop 4) (fld w 15 0) (slotWidth w)) (8 * slotWidth w)) ∧
              bit (u.reg (offSlot r.val i 2)) 35 = false ∧ u.rfld (offSlot r.val i 2) 34 19 = 0) ∧
            (x.markCopy c p = none → u.reg (offSlot r.val i 1) = s.reg (offSlot r.val i 1) ∧ bit (u.reg (offSlot r.val i 2)) 35 = true)) ∧
        (x.loop = false → x.due = true → (∀ i, Tab.get false x.bad (rxKey 0 i) = true → Tab.get [] x.rx (rxKey 0 i) = []) →
          let late := (List.range c.nblk).filter (fun i => Tab.get [] x.rx (rxKey 0 i) = [] && !Tab.get false x.bad (rxKey 0 i))
          u.reg (offRing r.val 4) =
            (if late = [] then s.reg (offRing r.val 4) else wd (min ((s.reg (offRing r.val 4)).toNat + 1) (2 ^ 36 - 1))) ∧
          Tab.get 0 (u.stream (strBandIn r.val)).dropped 10 = Tab.get 0 (s.stream (strBandIn r.val)).dropped 10 + late.length ∧
          ((u.ring r.val).wantLoop = (x.wantLoop || !x.back))) ∧
        (c.mbxmax = 0 → u.ring (1 - r.val) = s.ring (1 - r.val)) ∧ u.cores = s.cores ∧ u.lanes = s.lanes ∧ u.mode = s.mode)

/-- Completion (exec answers a next state with the own effect, on conditions of state and operands alone) of
bandFrameReceived, foreignBand, portLost, portRestored, freerunEntry. Frames and ports (R330, R343, R345, R359, R363, R377,
R387): a frame without delimiter is discarded and counted, as is a tail that is not zero; a passive node sends every frame
on, unchanged, from its other port, or back where that is lost; a node of a parent ring writes its mark into the slot of its
layout, never clears POISON and poisons a block that it writes into and whose check failed; a running master stores the good
blocks of its own band and drops the others under 0x02; a band of another master with an epoch no older ends the ring and, in
RUN, begins the way to STANDBY; a lost port takes no frame and asks for loopback; and a device that met no aligned band for
four cycle periods free-runs. -/
def Obligations.FramesAndPorts : Prop :=
  ∀ (r : Fin 2) (s : State),
    let x := s.ring r.val
    let only := fun (u : State) => u.ring (1 - r.val) = s.ring (1 - r.val) ∧ u.cores = s.cores ∧ u.lanes = s.lanes ∧ u.mem = s.mem
    (∀ f, let v := s.framed r.val f
      v = { s with regs := v.regs } ∧ (∀ o, o ≠ offRing r.val 5 → v.reg o = s.reg o) ∧
      v.reg (offRing r.val 5) = (if f.delimited && f.tail = 0 then s.reg (offRing r.val 5)
        else wd (min ((s.reg (offRing r.val 5)).toNat + 1) (2 ^ 36 - 1)))) ∧
    (∀ b t f, x.run = false → x.claim = none → x.first = none → x.passive = true → x.parent = false → s.ringTx = true → f.delimited = true →
      (if b then x.lostB else x.lostA) = false → headGood f.body = false ∨ byteAt f.body 0 ≠ 1 ∧ byteAt f.body 0 ≠ 2 →
        let back := if b then x.lostA else x.lostB
        ∃ u, exec (.bandFrameReceived r b t f) s = .next u ∧ u = { s.framed r.val f with outbox := u.outbox } ∧
          u.outbox = s.outbox ++ [Msg.band r.val (if b then b2n back else 1 - b2n back) f.body f.tail]) ∧
    (∀ b t f n l, x.run = false → x.claim = none → x.first = none → x.parent = true → x.node = some n → n.layout = some l → s.ringTx = true →
      (if b then x.lostB else x.lostA) = false → f.delimited = true → headGood f.body = true → byteAt f.body 0 = 1 →
      leAt f.body 2 2 = x.epoch ∨ epochNewer (leAt f.body 2 2) x.epoch = true → leAt f.body 4 6 + 1 ≠ x.processed → leAt f.body 10 2 = l.id →
      f.body.length = 64 + 264 * leAt f.body 14 2 →
        let back := if b then x.lostA else x.lostB
        ∃ u out, exec (.bandFrameReceived r b t f) s = .next u ∧ (u.ring r.val).processed = leAt f.body 4 6 + 1 ∧
          Msg.band r.val (if b then b2n back else 1 - b2n back) out f.tail ∈ u.outbox ∧ out.length = f.body.length ∧
          out.take 64 = f.body.take 64 ∧
          (∀ i < leAt f.body 14 2,
            let a := bandBlock f.body i
            let z := bandBlock out i
            (blockClean a = false → blockClean z = false) ∧ (blockCrcGood a = true → blockCrcGood z = true) ∧
            (blockCrcGood a = false → z = a ∨ blockClean z = false)) ∧
          (4 ≤ l.len → l.offset + l.len ≤ leAt f.body 42 2 → leAt f.body 42 2 ≤ 256 * leAt f.body 14 2 →
            byteAt (bandPayload out) l.offset = leAt f.body 4 6 % 256 ∧ byteAt (bandPayload out) (l.offset + 3) = leAt f.body 2 2 % 256)) ∧
    (∀ b t f, (if b then x.lostB else x.lostA) = true → exec (.bandFrameReceived r b t f) s = .next s) ∧
    (∀ b t f, f.delimited = false → s.peer.portsOff = false → (if b then x.lostB else x.lostA) = false →
      exec (.bandFrameReceived r b t f) s = .next (s.framed r.val f)) ∧
    (∀ c t f, let body := f.body
      x.run = true → x.cfg = some c → c.mode = 1 → s.peer.portsOff = false → x.lostB = false → x.opened = 0 → x.loop = false → f.delimited = true →
      headGood body = true → byteAt body 0 = 1 → byteAt body 1 % 4 = 0 → leAt body 12 2 = c.master → leAt body 2 2 = x.epoch →
      leAt body 4 6 = x.cycle → body.length = 64 + 264 * c.nblk → x.due = true → x.rx = [] → x.bad = [] → ∃ u,
        exec (.bandFrameReceived r true t f) s = .next u ∧ u.ring (1 - r.val) = s.ring (1 - r.val) ∧ u.cores = s.cores ∧ u.lanes = s.lanes ∧
          (u.ring r.val).back = true ∧
          (∀ i < c.nblk,
            let blk := (body.drop (64 + 264 * i)).take 264
            (blockGood blk i = true → Tab.get [] (u.ring r.val).rx (rxKey 0 i) = blk.take 256) ∧
            (blockGood blk i = false → Tab.get [] (u.ring r.val).rx (rxKey 0 i) = [] ∧ Tab.get false (u.ring r.val).bad (rxKey 0 i) = true)) ∧
          (let k := ((List.range c.nblk).filter (fun i => !blockGood ((body.drop (64 + 264 * i)).take 264) i)).length
           Tab.get 0 (u.stream (strBandIn r.val)).dropped 2 = Tab.get 0 (s.stream (strBandIn r.val)).dropped 2 + k ∧
           (u.reg (offRing r.val 5)).toNat = min (((s.framed r.val f).reg (offRing r.val 5)).toNat + k) (2 ^ 36 - 1))) ∧
    (∀ e, x.run = true → x.claim = none →
      (epochNewer x.epoch e.toNat = true → exec (.foreignBand r e) s = .next s) ∧
      (epochNewer x.epoch e.toNat = false → s.role = 0 → s.mode = 4 → s.modes.trans = none → s.modes.resume = 0 → s.holdup = false →
        (∀ n, (s.task n).st = .unused) → ∃ u, exec (.foreignBand r e) s = .next u ∧ u.modes.trans = some (8, 8) ∧
          bit (u.reg offSysMode) 7 = true ∧
          (∀ q : Fin 2, (u.ring q.val).run = false ∧ (u.ring q.val).passive = true ∧ (u.ring q.val).claim = none) ∧
          (u.ring r.val).epoch = epochMax x.epoch e.toNat ∧ u.host.evpi = s.host.evpi + 1)) ∧
    (∀ b, ∃ u, exec (.portLost r b) s = .next u ∧ u = { s with rings := u.rings, outbox := u.outbox } ∧ only u ∧
      u.outbox = s.outbox ++ (if (if b then x.faultB else x.faultA) || !s.ringTx then [] else [Msg.remoteFault r.val (b2n b) true]) ∧
      (u.ring r.val).lostA = (x.lostA || !b) ∧ (u.ring r.val).lostB = (x.lostB || b) ∧
      (u.ring r.val).faultA = (x.faultA || !b) ∧ (u.ring r.val).faultB = (x.faultB || b) ∧
      (u.ring r.val).wantLoop = (x.wantLoop || x.run) ∧ (u.ring r.val).cycle = x.cycle) ∧
    (∀ b, s.peer.portsOff = false → ∃ u, exec (.portRestored r b) s = .next u ∧ u = { s with rings := u.rings, outbox := u.outbox } ∧ only u ∧
      u.outbox = s.outbox ++ (if (if b then x.faultB else x.faultA) && s.ringTx then [Msg.remoteFault r.val (b2n b) false] else []) ∧
      u.ring r.val = {
        x with lostA := x.lostA && b, lostB := x.lostB && !b, faultA := x.faultA && b, faultB := x.faultB && !b }) ∧
    (s.peer.portsOff = true → ∀ b, exec (.portRestored r b) s = .next s) ∧
    (let rs := (List.range 2).filter (fun q => (s.ring q).alignLen != 0)
     let stale := fun q => (s.ring q).alignAt + 4 * (s.ring q).alignLen ≤ s.cc
     (rs ≠ [] → (∀ q ∈ rs, stale q) → s.rfld offTimeStat 1 0 = 2 → ∃ u, exec .freerunEntry s = .next u ∧ u.rfld offTimeStat 1 0 = 3 ∧
       u.reg offTimeInc = s.reg offTimeInc ∧ bit (u.reg offTimeDisc) 35 = false ∧ u = { s with regs := u.regs } ∧
       (∀ o, o ≠ offTimeStat → o ≠ offTimeDisc → u.reg o = s.reg o)) ∧
     (rs = [] ∨ (∃ q ∈ rs, ¬ stale q) ∨ s.rfld offTimeStat 1 0 ≠ 2 → exec .freerunEntry s = .next s))

/-! ### The barrier, field points and encoders (R434 - R448) -/

/-- Completion (exec answers a next state with the own effect, on conditions of state and operands alone) of
barrierPacketOut, barrierPacketIn, barrierLinkLost, barrierLinkRestart. The barrier link (R434 - R437, R440, R442 - R445):
every 288 cc a packet carries the outputs' commands as its start clock finds them and the oldest configuration write; a
command is VALUE, or 0 while the link is down, the field supply is missing or the cells do not run. An inbound packet comes
at the same spacing. A good one is delivered, shows levels, readback and supply, and carries at most one edge, whose time and
count the input takes; the time is that of the latest tick, FILT before the arrival or earlier, with the low bits of the
record. A bad one is dropped under 0x02. The field side applies the commands and the write of a packet that it has good, and
a command of 0 ends a trip. Eight packet periods without a good one lose the link, the field side then drives every output
off; a restart sends every configuration again. -/
def Obligations.BarrierLink : Prop :=
  ∀ s : State,
    let f := s.field
    let only := fun (u : State) => u.cores = s.cores ∧ u.tasks = s.tasks ∧ u.lanes = s.lanes ∧ u.mem = s.mem ∧ u.pwm = s.pwm
    let so := s.stream strBarOut
    let si := s.stream strBarIn
    let ended := f.air.filter (fun e => e.1 + 288 ≤ s.cc)
    let spaced := f.inFrom = 0 ∨ f.inFrom + 287 ≤ s.inStart
    let takes := fun (p : InPacket) (u : State) =>
      u.field.air = f.air.filter (fun e => s.cc < e.1 + 288) ∧ u.field.rxok = (p.rxok && !ended.isEmpty) ∧
      u.field.edges = f.edges.drop 1 ∧ u.field.eovfLeft = f.eovfLeft - 1 ∧ u.field.supply = supplyNext f.supply p.supplyMv ∧
      u.field.inFrom = s.inStart + 1 ∧ u.field.levels = f.levels ∧
      (p.rxok = false ∨ ended = [] → u.field.side = f.side ∧ u.field.outs = f.outs ∧ u.field.heardAt = f.heardAt) ∧
      (∀ t m c, p.rxok = true → ended.getLast? = some (t, m, c) → u.field.heardAt = s.cc ∧
        (∀ o < 16, Tab.get false u.field.outs o = (m / 2 ^ o % 2 = 1) ∧ (m / 2 ^ o % 2 = 0 → bit (u.reg (offFout o 1)) 33 = false)) ∧
        (c = none → u.field.side = f.side) ∧ (∀ i w, c = some (i, w) → Tab.get 0 u.field.side i = w))
    (s.packetStart = true → ∃ u m, exec .barrierPacketOut s = .next u ∧ only u ∧
      u.outbox = s.outbox ++ [Msg.barrier m f.queue.head? (outCrc m f.queue.head?)] ∧ u.field = {
        f with
        outAt := s.cc + 1
        sentAt := if f.sentAt = 0 && !f.queue.isEmpty then s.cc + 1 else f.sentAt
        air := f.air ++ [(s.cc, m, f.queue.head?)]
        sent := f.sent ++ [s.cc] } ∧
      u.stream strBarOut = { so with produced := so.produced + 1, resident := so.resident + 1 } ∧
      (∀ o < 16,
        let on := m / 2 ^ o % 2 = 1
        (on ↔ bit (u.reg (offFout o 1)) 35 = true) ∧
        (s.link = false ∨ s.supply = 2 ∨ s.cellsLive = false → ¬on) ∧
        (s.link = true → s.supply ≠ 2 → s.cellsLive = true → Tab.get 0 f.orderAt o ≠ s.cc + 1 →
          (∀ b, Tab.get none f.forced o = some b → (on ↔ b = true)) ∧
          (Tab.get none f.forced o = none → (on ↔ bit (s.reg (offFout o 0)) 35 = true))))) ∧
    (f.outAt ≠ 0 → s.cc + 1 < f.outAt + 288 ∨ (s.cc + 1 - f.outAt) % 288 ≠ 0 → exec .barrierPacketOut s = .next s) ∧
    (∀ p, s.link = false ∨ ¬spaced → exec (.barrierPacketIn p) s = .next s) ∧
    (∀ p, ∀ i : Fin 68, p.noise = 1#68 <<< i.val → s.inArrives p = none) ∧
    (∀ p, s.link = true → spaced → s.inArrives p = none → ∃ u, exec (.barrierPacketIn p) s = .next u ∧ only u ∧ takes p u ∧
      u.stream strBarIn = {
        si with
        produced := si.produced + 1
        dropped := Tab.put 0 si.dropped 2 (Tab.get 0 si.dropped 2 + 1)
        resident := si.resident } ∧
      u.rfld offFieldStat 17 0 = min (s.rfld offFieldStat 17 0 + 1) (2 ^ 18 - 1) ∧ u.field.queue = f.queue ∧ u.field.sent = f.sent ∧
      (∀ o, o ≠ offFieldStat → (∀ k < 16, o ≠ offFout k 1) → u.reg o = s.reg o)) ∧
    (∀ p, s.link = true → spaced → p.noise = 0 → f.rxok = true → f.eovfLeft = 0 → supplyNext f.supply p.supplyMv = s.supply →
      (∀ e ∈ f.edges, e.num < 32 ∧ bit (s.reg (offFin e.num 0)) 31 = false) → s.recording = false → ∃ u,
        exec (.barrierPacketIn p) s = .next u ∧ only u ∧ takes p u ∧ u.field.goodAt = s.cc ∧
          u.stream strBarIn = { si with produced := si.produced + 1, delivered := si.delivered + 1, resident := si.resident } ∧
          (let n := (f.sent.filter (fun t => t + 288 ≤ s.inStart)).length
           u.stream strBarOut = { so with delivered := so.delivered + n, resident := so.resident - n }) ∧
          (f.sentAt ≠ 0 → f.sentAt + 287 ≤ s.inStart → u.field.queue = f.queue.tail ∧ u.field.sentAt = 0) ∧
          (f.sentAt = 0 ∨ s.inStart < f.sentAt + 287 → u.field.queue = f.queue ∧ u.field.sentAt = f.sentAt) ∧
          (∀ o < 16, bit (u.reg (offFout o 1)) 34 = p.readback.getLsbD o ∧ bit (u.reg (offFout o 1)) 35 = bit (s.reg (offFout o 1)) 35) ∧
          (∀ i < 32, bit (u.reg (offFin i 1)) 35 = (Tab.get false f.levels i != bit (Tab.get 0 f.side i) 34)) ∧
          (∀ e, f.edges.head? = some e → ∀ k : Nat,
            let last : Int := s.cc / 8 - s.rfld (offFin e.num 0) 30 17 * 50
            k ≤ last → last < k + 2 ^ 17 → k % 2 ^ 17 = e.tick % 2 ^ 17 →
            let t := t72 (s.timeAt (8 * k))
            let w := if e.rise then 2 else 4
            u.reg (offFin e.num w) = dlo t ∧ u.reg (offFin e.num (w + 1)) = dhi t ∧
              u.rfld (offFin e.num 1) 33 18 = (s.rfld (offFin e.num 1) 33 18 + 1) % 2 ^ 16) ∧
          (f.edges = [] → ∀ i < 32, ∀ w, 2 ≤ w → w < 8 → u.reg (offFin i w) = s.reg (offFin i w))) ∧
    (s.link = true → f.goodAt + 2304 ≤ s.cc ∨ f.heardAt + 2304 ≤ s.cc → ∃ u, exec .barrierLinkLost s = .next u ∧ u.link = false ∧
      u.field = { f with outs := [] } ∧ (∀ o, o ≠ offFieldStat → u.reg o = s.reg o) ∧ u.host.evpi = s.host.evpi + 1 ∧ u.cores = s.cores ∧
      u.lanes = s.lanes) ∧
    (s.link = false ∨ (s.cc < f.goodAt + 2304 ∧ s.cc < f.heardAt + 2304) → exec .barrierLinkLost s = .next s) ∧
    (s.link = false → ∃ u, exec .barrierLinkRestart s = .next u ∧ only u ∧ u.link = true ∧ u.field = {
      f with
      queue := (List.range 32).map (fun i => (i, s.reg (offFin i 0)))
      sentAt := 0
      goodAt := s.cc
      heardAt := s.cc } ∧ (∀ o, o ≠ offFieldStat → u.reg o = s.reg o)) ∧
    (s.link = true → exec .barrierLinkRestart s = .next s)

/-- Completion (exec answers a next state with the own effect, on conditions of state and operands alone) of
fieldEdgeAccepted, fieldOutputTrip, encoderEdge, zLatch, encoderLoss, encoderLossEnd. Field points (R438 - R440, R444): a
level held for the filter's time becomes the input's, and the edge waits for a packet if its kind is recorded; a shorter one
is only counted; one that lies in the future of the tick count is none. An output that the field side has on and that trips
is off, counted, and the Crown is told; one that it has off cannot trip. Encoders (R446 - R448): an edge on one line of a
quadrature encoder counts one, 2 cc later, the other way under INV; both lines at once are a quadrature error. Levels and
spacings hold for 2 cc or more. The enabled edge of Z latches COUNT and the time. A loss is shown and told to the Crown once,
and its end shown. -/
def Obligations.FieldPointsAndEncoders : Prop :=
  (∀ s : State,
     let f := s.field
     (∀ (i : Fin 32) (level : Bool) (tick held : Nat),
       let c := Tab.get 0 f.side i.val
       let rise := level != bit c 34
       let keep := if rise then bit c 33 else bit c 32
       (level = Tab.get false f.levels i.val → exec (.fieldEdgeAccepted i level tick held) s = .next s) ∧
       (s.cc / 8 + 1 < tick + held → exec (.fieldEdgeAccepted i level tick held) s = .next s) ∧
       (level ≠ Tab.get false f.levels i.val → tick + held ≤ s.cc / 8 + 1 →
         (0 < held → held < fld c 30 17 * 50 → ∃ u, exec (.fieldEdgeAccepted i level tick held) s = .next u ∧
           u = { s with regs := u.regs } ∧ u.rfld (offFin i.val 1) 17 0 = min (s.rfld (offFin i.val 1) 17 0 + 1) (2 ^ 18 - 1) ∧
           (∀ o, o ≠ offFin i.val 1 → u.reg o = s.reg o)) ∧
         (held = 0 → exec (.fieldEdgeAccepted i level tick held) s = .next s) ∧
         (0 < held → fld c 30 17 * 50 ≤ held → ∃ u, exec (.fieldEdgeAccepted i level tick held) s = .next u ∧ u = { s with field := u.field } ∧
           Tab.get false u.field.levels i.val = level ∧
           (∀ j, j ≠ i.val → Tab.get false u.field.levels j = Tab.get false f.levels j) ∧ u.field.queue = f.queue ∧
           (keep = false → u.field.edges = f.edges ∧ u.field.eovfLeft = f.eovfLeft) ∧
           (keep = true → f.edges.length < 64 → u.field.edges.Perm (f.edges ++ [{ num := i.val, rise := rise, tick := tick }]) ∧
             (f.edges.Pairwise (fun p q => p.tick < q.tick ∨ (p.tick = q.tick ∧ p.num ≤ q.num)) →
               u.field.edges.Pairwise (fun p q => p.tick < q.tick ∨ (p.tick = q.tick ∧ p.num ≤ q.num)))) ∧
           (keep = true → 64 ≤ f.edges.length → u.field.edges = f.edges ∧ u.field.eovfLeft = 9)))) ∧
     (∀ o : Fin 16,
       let w := s.reg (offFout o.val 1)
       (Tab.get false f.outs o.val = true → bit w 33 = false → ∃ u, exec (.fieldOutputTrip o) s = .next u ∧ bit (u.reg (offFout o.val 1)) 33 = true ∧
         u.rfld (offFout o.val 1) 17 0 = min (fld w 17 0 + 1) (2 ^ 18 - 1) ∧ bit (u.reg (offFout o.val 1)) 35 = bit w 35 ∧
         u.host.evpi = s.host.evpi + 1 ∧ u.field = f ∧ u.cores = s.cores ∧ u.lanes = s.lanes) ∧
       (Tab.get false f.outs o.val = false ∨ bit w 33 = true → exec (.fieldOutputTrip o) s = .next s))) ∧
  (∀ (e : Fin 16) (s : State),
     let n := e.val
     let x := s.enc n
     let w := s.reg (offEnc n 0)
     let others := fun (u : State) => ∀ k, k ≠ n → u.enc k = s.enc k
     (∀ a b, fld w 34 33 = 0 →
       (bit w 35 = false ∨ (a = x.a ∧ b = x.b) → ∃ u, exec (.encoderEdge e a b) s = .next u ∧ others u ∧
         u.enc n = x.sampled a b s.cc ∧ u = { s with encs := u.encs }) ∧
       (bit w 35 = true → a ≠ x.a → b ≠ x.b → ∃ u, exec (.encoderEdge e a b) s = .next u ∧ others u ∧
         u.enc n = x.sampled a b s.cc ∧ u = { s with encs := u.encs, regs := u.regs } ∧
         u.rfld (offEnc n 5) 17 0 = min (s.rfld (offEnc n 5) 17 0 + 1) (2 ^ 18 - 1) ∧ (∀ o, o ≠ offEnc n 5 → u.reg o = s.reg o)) ∧
       (bit w 35 = true → (a ≠ x.a ↔ b = x.b) → x.tight true a b s.cc = false → ∃ u, exec (.encoderEdge e a b) s = .next u ∧ others u ∧
         u = { s with encs := u.encs } ∧
         (let up := ((if a ≠ x.a then decide (a ≠ x.b) else decide (b = x.a)) == Config.aLeadsUp) != bit w 32
          u.enc n = { x.sampled a b s.cc with coming := x.coming ++ [(s.cc + 2, if up then 1 else -1)] }))) ∧
     (∀ a b, fld w 34 33 = 1 → bit w 35 = true → (a = x.a ∨ a ≠ Config.pulseRising) → ∃ u, exec (.encoderEdge e a b) s = .next u ∧
       others u ∧ u.enc n = x.sampled a b s.cc ∧ u = { s with encs := u.encs }) ∧
     (∀ a b, bit w 35 = true → a ≠ x.a → a = Config.pulseRising → fld w 34 33 = 1 ∨ (fld w 34 33 = 2 ∧ b = x.b) →
       x.tight false a b s.cc = false → ∃ u,
       exec (.encoderEdge e a b) s = .next u ∧ others u ∧ u = { s with encs := u.encs } ∧
         (let up := (fld w 34 33 == 2 || b == Config.dirHighUp) != bit w 32
          u.enc n = { x.sampled a b s.cc with coming := x.coming ++ [(s.cc + 2, if up then 1 else -1)] })) ∧
     (∀ rising, bit w 31 = true → rising ≠ bit w 30 → ∃ u, exec (.zLatch e rising) s = .next u ∧ u = { s with regs := u.regs } ∧
       u.reg (offEnc n 2) = s.reg (offEnc n 1) ∧ u.reg (offEnc n 3) = dlo s.t72 ∧ u.reg (offEnc n 4) = dhi s.t72 ∧
       bit (u.reg (offEnc n 5)) 34 = true ∧ u.rfld (offEnc n 5) 33 18 = (s.rfld (offEnc n 5) 33 18 + 1) % 2 ^ 16 ∧
       u.reg (offEnc n 1) = s.reg (offEnc n 1)) ∧
     (∀ rising, bit w 31 = false ∨ rising = bit w 30 → exec (.zLatch e rising) s = .next s) ∧
     (bit (s.reg (offEnc n 5)) 35 = false → ∃ u, exec (.encoderLoss e) s = .next u ∧ bit (u.reg (offEnc n 5)) 35 = true ∧
       u.host.evpi = s.host.evpi + 1 ∧ u.encs = s.encs ∧ u.cores = s.cores ∧
       (∀ c, s.coordSrc c = 1 → s.rfld (offCoord c 0) 19 16 = n → u.isStale c = true)) ∧
     (bit (s.reg (offEnc n 5)) 35 = true → exec (.encoderLoss e) s = .next s) ∧
     (∃ u, exec (.encoderLossEnd e) s = .next u ∧ u = { s with regs := u.regs } ∧ bit (u.reg (offEnc n 5)) 35 = false ∧
       fld (u.reg (offEnc n 5)) 34 0 = fld (s.reg (offEnc n 5)) 34 0 ∧ (∀ o, o ≠ offEnc n 5 → u.reg o = s.reg o)))

/-! ### PWM pairs, trips, steps, chopper phases and converters (R305 - R307, R399 - R433) -/

/-- Completion (exec answers a next state with the own effect, on conditions of state and operands alone) of pwmReload, trip,
converterTrigger. PWM pairs and trip inputs (R399 - R403, R406, R408): a reload takes every shadow that was written before
this cell clock; with PAIRGUARD and a shadow missing it is held instead, at most four times. A pair leaves high impedance at
a reload with its trips cleared. An enabled trip input whose filter has counted FILT + 1 active, unblanked cell clocks puts
the pairs of its mask into high impedance, is counted and told to the Crown; an inactive or blanked clock restarts the
filter. A compare emits its trigger to every converter that names it. -/
def Obligations.PwmEvents : Prop :=
  (∀ (p : Fin 24) (s : State),
    let x := s.pair p.val
    let guard := bit (s.reg (offPwm p.val 0)) 5 && !s.lanePair p.val && !(x.perSh.fresh && x.dutySh.fresh) && !x.first
    let others := fun (u : State) => ∀ q, q ≠ p.val → u.pair q = s.pair q
    (s.pwmDue p.val = true → x.perSh.at_ ≠ s.cc + 1 → x.dutySh.at_ ≠ s.cc + 1 → (∀ k < 4, (Tab.get {} x.cmpSh k).at_ ≠ s.cc + 1) →
      (guard = false → ∃ u, exec (.pwmReload p) s = .next u ∧ others u ∧ u = { s with pwm := u.pwm, regs := u.regs } ∧
        (let y := u.pair p.val
         y.per = x.perSh.v ∧
         y.duty = (if x.dutySh.frac then (rshRound ((x.dutySh.v : Int) * x.perSh.v * 32) 35).toNat else x.dutySh.v) ∧
         (∀ k < 4, Tab.get 0 y.cmp k = (Tab.get {} x.cmpSh k).v) ∧ y.perSh.fresh = false ∧ y.dutySh.fresh = false ∧ y.held = 0 ∧
         y.cnt = x.cnt ∧ y.driven = (x.driven || s.mayDrive p.val)) ∧
        (∀ o, o ≠ offPwm p.val 11 → u.reg o = s.reg o)) ∧
      (guard = true → x.held < 4 → ∃ u, exec (.pwmReload p) s = .next u ∧ others u ∧ u = { s with pwm := u.pwm } ∧
        u.pair p.val = { x with held := x.held + 1, reloadAt := s.cc + 1, driven := x.driven || s.mayDrive p.val }) ∧
      (guard = true → 4 ≤ x.held → ∃ u, exec (.pwmReload p) s = .next u ∧ others u ∧ (u.pair p.val).per = x.perSh.v ∧
        (u.pair p.val).held = 0 ∧ u.rfld (offPwm p.val 11) 17 0 = min (s.rfld (offPwm p.val 11) 17 0 + 1) (2 ^ 18 - 1))) ∧
    (s.pwmDue p.val = false → exec (.pwmReload p) s = .next s)) ∧
  (∀ (i : Fin 8) (run : Bool) (s : State),
    let x := s.tripIn i.val
    let w := s.reg (offTrip i.val 0)
    let need := fld w 27 17 + 1
    let n := if run != bit w 34 && !s.tripBlanked i.val then x.count + 1 else 0
    x.at_ ≠ s.cc + 1 →
      (n = need → bit w 35 = true → bit (s.reg (offTrip i.val 2)) 35 = false → ∃ u, exec (.trip i run) s = .next u ∧
        (∀ p < 24, u.pair p = if bit (s.reg (offTrip i.val 1)) p then { s.pair p with driven := false } else s.pair p) ∧
        bit (u.reg (offTrip i.val 2)) 35 = true ∧ bit (u.reg (offTrip i.val 2)) 34 = true ∧
        u.tripIn i.val = { pin := some run, count := n, at_ := s.cc + 1 } ∧
        u.rfld (offTrip i.val 2) 17 0 = min (s.rfld (offTrip i.val 2) 17 0 + 1) (2 ^ 18 - 1) ∧ u.host.evpi = s.host.evpi + 1 ∧
        u.cores = s.cores ∧ u.lanes = s.lanes) ∧
      (n < need → ∃ u, exec (.trip i run) s = .next u ∧ u = { s with regs := u.regs, trips := u.trips } ∧
        bit (u.reg (offTrip i.val 2)) 35 = false ∧ u.tripIn i.val = { pin := some run, count := n, at_ := s.cc + 1 } ∧
        bit (u.reg (offTrip i.val 2)) 34 = bit (s.reg (offTrip i.val 2)) 34 ∧ (∀ o, o ≠ offTrip i.val 2 → u.reg o = s.reg o))) ∧
  (∀ (n : Fin 96) (s : State),
    let p := n.val / 4
    let k := n.val % 4
    (s.triggerDue p k = true → ∃ u, exec (.converterTrigger n) s = .next u ∧ u = { s with pwm := u.pwm, convs := u.convs } ∧
      u.pair p = { s.pair p with trigAt := Tab.put 0 (s.pair p).trigAt k (s.cc + 1) } ∧ (∀ q, q ≠ p → u.pair q = s.pair q) ∧
      (∀ c < 16,
        let w := s.reg (offConv c 0)
        u.conv c = { s.conv c with coming := (s.conv c).coming
          ++ (if bit w 32 && fld w 27 21 = n.val then [(s.cc + 2, bit w 31)] else [])
          ++ (if bit w 30 && fld w 20 14 = n.val then [(s.cc + 2, bit w 29)] else []) })) ∧
    (s.triggerDue p k = false → exec (.converterTrigger n) s = .next s))

/-- Completion (exec answers a next state with the own effect, on conditions of state and operands alone) of stepCarry,
stepPulseStart, chopperSwitchOn, chopperDecay, tonmaxExpiry. Step generators (R305, R306, R411): a whole count that the
accumulator carried becomes a step that waits DIRSU for its pulse and moves POS by one; one the other way withdraws the step
that waits, and is counted. At its time the pulse starts, and leaves the pin if the output is enabled. Chopper phases (R415 -
R417): a running phase in decay whose current has fallen to the lower threshold switches on, and one that is on and has
reached the upper one after BLANK decays; the current is recorded and the switch-on counted. An on-interval longer than
TONMAX locks the phase off and the Crown is told. -/
def Obligations.StepsAndChoppers : Prop :=
  (∀ (g : Fin 16) (s : State),
     let n := g.val
     let x := s.stepGen n
     let pos := s36 (s.reg (offStep n 2))
     let others := fun (u : State) => ∀ k, k ≠ n → u.stepGen k = s.stepGen k
     let moved := fun (u : State) (d : Int) => u.reg (offStep n 2) = wdI (pos + d) ∧ (∀ k, k ≠ n → u.reg (offStep k 2) = s.reg (offStep k 2)) ∧
       u = { s with steps := u.steps, regs := u.regs, chops := u.chops, free := u.free }
     (x.carry = 0 → exec (.stepCarry g) s = .next s) ∧
     (x.carry ≠ 0 →
       let up := decide (0 < x.carry)
       let d : Int := if up then 1 else -1
       (x.pend = none → ∃ u, exec (.stepCarry g) s = .next u ∧ others u ∧ moved u d ∧
         u.stepGen n = { x with pend := some (up, s.cc + s.rfld (offStep n 0) 9 2), dirOut := up, carry := x.carry - d }) ∧
       (∀ t, x.pend = some (!up, t) → ∃ u, exec (.stepCarry g) s = .next u ∧ others u ∧ moved u d ∧
         u.stepGen n = { x with pend := none, dirOut := x.lastDir, carry := x.carry - d } ∧
         u.rfld (offStep n 4) 17 0 = min (s.rfld (offStep n 4) 17 0 + 1) (2 ^ 18 - 1)) ∧
       (∀ t, x.pend = some (up, t) → exec (.stepCarry g) s = .next s)) ∧
     (∀ up t, x.pend = some (up, t) →
       (t ≤ s.cc → ∃ u, exec (.stepPulseStart g) s = .next u ∧ others u ∧ u = { s with steps := u.steps, outbox := u.outbox } ∧
         u.stepGen n = { x with pend := none, lastDir := up, pulseEnd := some (s.cc + s.rfld (offStepOut n) 5 0) } ∧
         u.outbox = s.outbox ++ (if bit (s.reg (offStepOut n)) 7 then [Msg.stepPulse n (up != bit (s.reg (offStep n 0)) 1) (!bit (s.reg (offStepOut n)) 6)] else [])) ∧
       (s.cc < t → exec (.stepPulseStart g) s = .next s)) ∧
     (x.pend = none → exec (.stepPulseStart g) s = .next s)) ∧
  (∀ (f : Fin 16) (s : State),
     let n := f.val
     let x := s.chop n
     let t := s.chopTarget n
     let h : Int := s.rfld (offChop n 2) 11 0
     let o : Int := sextN (s.reg (offChop n 3)).toNat 12
     -- the thresholds in 2^-12 of full scale; TARGET and OFFS count 2^-11
     let low := clampI 0 (2 * 4095) (4 * t.natAbs - h - 4 * o)
     let high := clampI 0 (2 * 4095) (4 * t.natAbs + h - 4 * o)
     let others := fun (u : State) => (∀ k, k ≠ n → u.chop k = s.chop k) ∧ u.cores = s.cores ∧ u.lanes = s.lanes
     (∀ c, s.chopRuns n = true → x.on = false → t ≠ 0 →
       (2 * (c.toNat : Int) ≤ low → ∃ u, exec (.chopperSwitchOn f c) s = .next u ∧ others u ∧ u = { s with chops := u.chops, regs := u.regs } ∧
         u.chop n = { x with on := true, positive := decide (0 ≤ t), onAt := s.cc, hadOn := true } ∧
         u.rfld (offChop n 4) 11 0 = c.toNat ∧ u.rfld (offChop n 5) 17 0 = min (s.rfld (offChop n 5) 17 0 + 1) (2 ^ 18 - 1) ∧
         (bit (s.reg (offChop n 0)) 32 = false ∨ x.hadOn = false → u.reg (offChop n 3) = s.reg (offChop n 3))) ∧
       (low < 2 * (c.toNat : Int) → exec (.chopperSwitchOn f c) s = .next s)) ∧
     (∀ c, s.chopRuns n = true → x.on = true → x.onAt + s.rfld (offChop n 0) 27 18 ≤ s.cc →
       (high ≤ 2 * (c.toNat : Int) → ∃ u, exec (.chopperDecay f c) s = .next u ∧ others u ∧
         u = { s with chops := u.chops, regs := u.regs, free := u.free } ∧
         u.chop n = { x with on := false, offAt := s.cc, fastFor := (u.chop n).fastFor } ∧ u.rfld (offChop n 4) 23 12 = c.toNat ∧ (∀ a, a ≠ offChop n 4 → u.reg a = s.reg a)) ∧
       (2 * (c.toNat : Int) < high → exec (.chopperDecay f c) s = .next s)) ∧
     (∀ c, x.on = false ∨ s.cc < x.onAt + s.rfld (offChop n 0) 27 18 → exec (.chopperDecay f c) s = .next s) ∧
     (let m := s.rfld (offChop n 0) 17 0
      (x.on = true → m ≠ 0 → x.onAt + m < s.cc → ∃ u, exec (.tonmaxExpiry f) s = .next u ∧ others u ∧
        u.chop n = { x with on := false, locked := true, offAt := s.cc, fastFor := (u.chop n).fastFor } ∧ bit (u.reg (offChop n 5)) 34 = true ∧
        u.chopRuns n = false ∧ u.host.evpi = s.host.evpi + 1) ∧
      (x.on = false ∨ m = 0 ∨ s.cc ≤ x.onAt + m → exec (.tonmaxExpiry f) s = .next s)))

/-- Completion (exec answers a next state with the own effect, on conditions of state and operands alone) of adcTimer,
startArrival, delayLineExit, converterFree. Starts of a converter (R421 - R425): the timer and every trigger give a start
that arrives 2 cc later; the arrived ones enter the delay line, at most eight; at its end a start begins a conversion if the
converter is free, waits in the slot of its mode, or is lost. A conversion samples its input at once and leaves the converter
free 160 cc later; then the pending SELECT start begins before the SCAN start. -/
def Obligations.ConverterStarts : Prop :=
  ∀ (k : Fin 16) (s : State),
    let n := k.val
    let x := s.conv n
    let w := s.reg (offConv n 0)
    let others := fun (u : State) => (∀ j, j ≠ n → u.conv j = s.conv j) ∧ u.cores = s.cores ∧ u.lanes = s.lanes ∧ u.mem = s.mem
    let begun := fun (u : State) (sel : Nat) (rest : List Nat) =>
      (u.conv n).busy = some s.cc ∧ (u.conv n).rest = rest ∧ (u.conv n).results.length = x.results.length + 1 ∧
        ((u.conv n).results.getLast?.map (fun r => (r.sel, r.s, r.time))) = some (sel, s.cc, s.now) ∧
        u.reg (offConv n 7) = s.reg (offConv n 7) + 1
    let lists := (List.range 4).filter (fun i => bit (s.reg (offConv n 1)) i)
    (bit w 34 = true → x.tenAt < s.cc → (s.cc - x.tenAt) % s.rfld (offConv n 3) 23 0 = 0 → x.timerAt ≠ s.cc + 1 → ∃ u,
      exec (.adcTimer k) s = .next u ∧ others u ∧ u = { s with convs := u.convs } ∧
        u.conv n = { x with timerAt := s.cc + 1, coming := x.coming ++ [(s.cc + 2, bit w 33)] }) ∧
    (bit w 34 = false ∨ (s.cc - x.tenAt) % s.rfld (offConv n 3) 23 0 ≠ 0 → exec (.adcTimer k) s = .next s) ∧
    (∀ b, x.coming = [(s.cc, b)] → s.convOn n = true →
      (x.line.length < 8 → ∃ u, exec (.startArrival k) s = .next u ∧ others u ∧ u = { s with convs := u.convs } ∧
        u.conv n = { x with coming := [], line := x.line ++ [(s.cc + s.rfld (offConv n 2) 15 0, b)] }) ∧
      (8 ≤ x.line.length → ∃ u, exec (.startArrival k) s = .next u ∧ others u ∧ u.conv n = { x with coming := [] } ∧
        u.rfld (offConv n 6) 35 18 = min (s.rfld (offConv n 6) 35 18 + 1) (2 ^ 18 - 1))) ∧
    (∀ b, x.coming = [(s.cc, b)] → s.convOn n = false → ∃ u, exec (.startArrival k) s = .next u ∧ others u ∧
      u = { s with convs := u.convs } ∧ u.conv n = { x with coming := [] }) ∧
    (∀ b, x.line = [(s.cc, b)] →
      (x.idle = true → b = false → ∀ i r, lists = i :: r → ∃ u, exec (.delayLineExit k) s = .next u ∧ others u ∧ begun u i r ∧
        (u.conv n).line = []) ∧
      (x.idle = true → b = true → s.rfld (offConv n 0) 13 9 ≠ 0 → x.qentAt ≠ s.cc + 1 → ∃ u, exec (.delayLineExit k) s = .next u ∧
        others u ∧ begun u (s.rfld (offConv n 4) (2 * x.qptr + 1) (2 * x.qptr)) [] ∧
        (u.conv n).qptr = (x.qptr + 1) % s.rfld (offConv n 0) 13 9) ∧
      (x.idle = false → b = true → x.select = none → ∃ u, exec (.delayLineExit k) s = .next u ∧ others u ∧
        u.conv n = { x with line := [], select := some s.cc } ∧ u = { s with convs := u.convs }) ∧
      (x.idle = false → b = false → x.scan = none → ∃ u, exec (.delayLineExit k) s = .next u ∧ others u ∧
        u.conv n = { x with line := [], scan := some s.cc } ∧ u = { s with convs := u.convs }) ∧
      (b = true → x.select.isSome = true ∨ (x.idle = true ∧ s.rfld (offConv n 0) 13 9 = 0) → ∃ u, exec (.delayLineExit k) s = .next u ∧
        others u ∧ u.conv n = { x with line := [] } ∧
        u.rfld (offConv n 6) 35 18 = min (s.rfld (offConv n 6) 35 18 + 1) (2 ^ 18 - 1))) ∧
    (∀ t, x.busy = some t →
      (s.cc < t + 160 → exec (.converterFree k) s = .next s) ∧
      (t + 160 ≤ s.cc →
        (∀ i r, x.rest = i :: r → ∃ u, exec (.converterFree k) s = .next u ∧ others u ∧ begun u i r) ∧
        (x.rest = [] → x.select = none → x.scan = none → ∃ u, exec (.converterFree k) s = .next u ∧ others u ∧
          u = { s with convs := u.convs } ∧ u.conv n = { x with busy := none }) ∧
        (∀ since, x.rest = [] → x.select = none → x.scan = some since → ∀ i r, lists = i :: r → ∃ u,
          exec (.converterFree k) s = .next u ∧ others u ∧ begun u i r ∧ (u.conv n).scan = none ∧
            u.rfld (offConv n 6) 17 0 = max (s.rfld (offConv n 6) 17 0) (min (s.cc - since) (2 ^ 18 - 1))))) ∧
    (x.busy = none → exec (.converterFree k) s = .next s)

/-- Completion (exec answers a next state with the own effect, on conditions of state and operands alone) of resultWrite,
calibrationDone. RESULT_WRITE and CALIBRATION_DONE (R425 - R432): 168 cc after its sample a raw code is corrected by offset
and gain of its range and added to the interval; the last of 2^FULLN codes writes RES, its time and a sequence number one
higher, valid once a calibration is done and the converter did not fail. A calibration ends 38 ms after its beginning; a
converter with a measurement out of bounds fails, keeps the ideal factors, and the Crown is told. -/
def Obligations.ConversionResults : Prop :=
  (∀ (k : Fin 16) (raw : BitVec 20) (s : State) (m : Sample) (r : List Sample),
    let x := s.conv k.val
    let n := 4 * k.val + m.sel
    let a := s.ain n
    let w := s.reg (offAin n 0)
    let range := fld w 35 34
    let full := fld w 33 30
    let scaled : Int := if range = 3 then raw.toNat * 8 else raw.toInt * 16
    let v := clampI (if range = 3 then 0 else -2 ^ 23) (2 ^ 23 - 1)
      (rshRound (s.rfld (offCalFac n range 1) 33 0 * (scaled - s36 (s.reg (offCalFac n range 0)))) 32)
    let others := fun (u : State) => (∀ j, j ≠ n → u.ain j = s.ain j) ∧ u.conv k.val = { x with results := r } ∧ u.cores = s.cores ∧ u.lanes = s.lanes
    x.results = m :: r → m.sel < 4 →
      (s.cc < m.s + 168 → exec (.resultWrite k raw) s = .next s) ∧
      (m.s + 168 ≤ s.cc →
        (m.skip = true ∨ m.epoch ≠ a.epoch → ∃ u, exec (.resultWrite k raw) s = .next u ∧ others u ∧ u = { s with convs := u.convs }) ∧
        (m.skip = false → m.epoch = a.epoch → a.n + 1 < 2 ^ full → ∃ u, exec (.resultWrite k raw) s = .next u ∧ others u ∧
          (u.ain n).sum = a.sum + v ∧ (u.ain n).n = a.n + 1 ∧ u.reg (offAin n 3) = s.reg (offAin n 3) ∧
          u = { s with convs := u.convs, ains := u.ains, regs := u.regs }) ∧
        (m.skip = false → m.epoch = a.epoch → a.n + 1 = 2 ^ full → full ≤ 12 → bit w 29 = false → ∃ u,
          exec (.resultWrite k raw) s = .next u ∧ others u ∧ (u.ain n).sum = 0 ∧ (u.ain n).n = 0 ∧
            u.reg (offAin n 3) = wdI ((a.sum + v) * 2 ^ (12 - full)) ∧
            bit (u.reg (offAin n 4)) 35 = (bit (s.reg offAdcCal) 33 && !bit (s.reg offAdcCal) k.val) ∧
            u.rfld (offAin n 4) 17 0 = (s.rfld (offAin n 4) 17 0 + 1) % 2 ^ 18 ∧
            u.reg (offAin n 5) = dlo (t72 m.time) ∧ u.reg (offAin n 6) = dhi (t72 m.time)))) ∧
  (∀ (k : Fin 16) (raw : BitVec 20) (s : State), (s.conv k.val).results = [] → exec (.resultWrite k raw) s = .next s) ∧
  (∀ (ms : List (Int × Nat)) (s : State),
    (∀ t, s.calAt = some t →
      (s.cc < t + 15200000 → exec (.calibrationDone ms) s = .next s) ∧
      (t + 15200000 ≤ s.cc →
        let bad := fun (i : Nat) =>
          let m := ms.getD i (0, 2 ^ 32)
          m.2 * 100 < 95 * 2 ^ 32 ∨ 105 * 2 ^ 32 < m.2 * 100 ∨ 2 ^ 23 < m.1.natAbs * 200
        ∃ u, exec (.calibrationDone ms) s = .next u ∧ u.calAt = none ∧ bit (u.reg offAdcCal) 33 = true ∧ bit (u.reg offAdcCal) 34 = false ∧
          u.cores = s.cores ∧ u.lanes = s.lanes ∧ u.convs = s.convs ∧ u.ains = s.ains ∧
          (∀ k < 16,
            ((∃ i < 16, bad (16 * k + i)) → bit (u.reg offAdcCal) k = true ∧
              ∀ i < 16, u.reg (offCalFac ((16 * k + i) / 4) ((16 * k + i) % 4) 0) = 0 ∧
                u.reg (offCalFac ((16 * k + i) / 4) ((16 * k + i) % 4) 1) = wd (2 ^ 32)) ∧
            ((∀ i < 16, ¬bad (16 * k + i)) → bit (u.reg offAdcCal) k = false ∧
              ∀ i < 16, u.reg (offCalFac ((16 * k + i) / 4) ((16 * k + i) % 4) 0) = wdI (ms.getD (16 * k + i) (0, 2 ^ 32)).1 ∧
                u.reg (offCalFac ((16 * k + i) / 4) ((16 * k + i) % 4) 1) = wd (ms.getD (16 * k + i) (0, 2 ^ 32)).2)))) ∧
    (s.calAt = none → exec (.calibrationDone ms) s = .next s))

/-! ### Fieldbus ports (R449 - R467) -/

/-- Completion (exec answers a next state with the own effect, on conditions of state and operands alone) of
canFrameValidated, canBusError. CAN_FRAME_VALIDATED and CAN_BUS_ERROR (R451, R454 - R456, R463): a received frame is produced
into the port's stream; one that no filter accepts is dropped under 0x05, one that finds the FIFO full or without memory
under 0x08, and every other stands in the FIFO's next entry. Every valid frame is acknowledged, but not in LISTEN; a frame is
one whose bits, sampled with the port's timings, are those of the frame. Errors seen as a receiver count in REC and LASTERR,
and the port drives an error flag. Without FDEN an FD frame is a protocol exception. A port that is not enabled, STOPPED,
bus-off or itself on the bus takes no part. -/
def Obligations.FieldbusReceive : Prop :=
  ∀ (p : Fin 4) (s : State),
    let n := p.val
    let st := s.stream (strCanRx n)
    let dropped := fun (u : State) (r : Nat) => u.stream (strCanRx n) = {
      st with
      produced := st.produced + 1
      dropped := Tab.put 0 st.dropped r (Tab.get 0 st.dropped r + 1)
      resident := st.resident }
    let only := fun (u : State) => u.cores = s.cores ∧ u.tasks = s.tasks ∧ u.lanes = s.lanes ∧ u.cans = s.cans
    let onlyF := fun (u : State) => u.cores = s.cores ∧ u.tasks = s.tasks ∧ u.lanes = s.lanes ∧ (∀ q, q ≠ n → u.can q = s.can q) ∧
      u.can n = { s.can n with chosen := none } ∧ u.outbox = (if s.canPolicy n = 2 then s.outbox else s.outbox ++ [Msg.canAck n])
    (s.canEn n = false ∨ s.canPolicy n = 3 ∨ s.canFcs n = 2 ∨ s.canOnBus n = true →
      (∀ f, exec (.canFrameValidated p f) s = .next s) ∧ ∀ e, exec (.canBusError p e) s = .next s) ∧
    (s.canEn n = true → s.canPolicy n ≠ 3 → s.canFcs n ≠ 2 → s.canOnBus n = false →
      (∀ h, s.canHears n h = false → exec (.canFrameValidated p h) s = .next s) ∧
      (∀ h, s.canHears n h = true → (h.frame.fdf = true → bit (s.reg (offCan n 0)) 34 = true) → s.rxErr n = 0 →
        let f := h.frame
        (s.canFilter n f = none → ∃ u, exec (.canFrameValidated p h) s = .next u ∧ onlyF u ∧ dropped u 5 ∧ u.mem = s.mem ∧
          u.rfld (offCan n 4) 35 18 = min (s.rfld (offCan n 4) 35 18 + 1) (2 ^ 18 - 1) ∧ (∀ o, o ≠ offCan n 4 → u.reg o = s.reg o)) ∧
        (∀ i, s.canFilter n f = some i →
          let base := (s.reg (offCan n 6)).toNat
          let wr := s.reg (offCan n 7)
          let a := base + 20 * (wr.toNat % 512)
          ((wr - s.reg (offCan n 8)).toNat = 512 ∨ s.canMem n base 10240 = false → ∃ u, exec (.canFrameValidated p h) s = .next u ∧
            onlyF u ∧ dropped u 8 ∧ u.mem = s.mem ∧ u.regs = s.regs) ∧
          ((wr - s.reg (offCan n 8)).toNat ≠ 512 → base % 4 = 0 → s.canMem n base 10240 = true → s.mem.errs = [] →
            bit (s.reg (offCan n (0x200 + 2 * i))) 33 = false → ∃ u, exec (.canFrameValidated p h) s = .next u ∧ onlyF u ∧
              u.reg (offCan n 7) = wr + 1 ∧ u.words a 20 = fifoEntry f i (t72 (s.timeAt h.sof)) ∧
              (∀ b, b < a ∨ a + 20 ≤ b → u.word b = s.word b) ∧
              u.stream (strCanRx n) = { st with produced := st.produced + 1, resident := st.resident + 1 } ∧
              (∀ o, o ≠ offCan n 7 → u.reg o = s.reg o)))) ∧
      (bit (s.reg (offCan n 0)) 34 = false →
        let excepted := fun (u : State) => only u ∧ u.mem = s.mem ∧ u.outbox = s.outbox ∧ u.rfld (offCan n 3) 30 28 = 7 ∧
          u.rfld (offCan n 5) 17 0 = min (s.rfld (offCan n 5) 17 0 + 1) (2 ^ 18 - 1)
        (∀ h, s.canHears n h = true → h.frame.fdf = true → ∃ u, exec (.canFrameValidated p h) s = .next u ∧ excepted u) ∧
        (∃ u, exec (.canBusError p .protocolException) s = .next u ∧ excepted u)) ∧
      (bit (s.reg (offCan n 0)) 34 = true → exec (.canBusError p .protocolException) s = .next s) ∧
      (s.canPolicy n < 2 → s.canFcs n = 0 → s.txErr n ≤ 127 → s.rxErr n + 8 ≤ 127 → ∀ k,
        let seen := fun (u : State) (d : Nat) => only u ∧ u.mem = s.mem ∧ u.rxErr n = s.rxErr n + d ∧ u.txErr n = s.txErr n ∧ u.canFcs n = 0 ∧
          u.outbox = s.outbox ++ [Msg.canFlag n false] ∧
          u.rfld (offCan n 3) 30 28 = k.toNat ∧ u.rfld (offCan n 4) 17 0 = min (s.rfld (offCan n 4) 17 0 + 1) (2 ^ 18 - 1)
        (∃ u, exec (.canBusError p (.receiveError k)) s = .next u ∧ seen u 1) ∧
        (∃ u, exec (.canBusError p (.receiveErrorDominant k)) s = .next u ∧ seen u 8)) ∧
      (s.canPolicy n = 2 → ∀ k, ∃ u, exec (.canBusError p (.receiveError k)) s = .next u ∧ only u ∧ u.outbox = s.outbox ∧
        u.rfld (offCan n 3) 30 28 = k.toNat ∧ (∀ o, o ≠ offCan n 3 → u.reg o = s.reg o)) ∧
      (∃ u, exec (.canBusError p .errorFlagSeen) s = .next u ∧ only u ∧ u.mem = s.mem ∧
        u.rfld (offCan n 4) 17 0 = min (s.rfld (offCan n 4) 17 0 + 1) (2 ^ 18 - 1) ∧ (∀ o, o ≠ offCan n 4 → u.reg o = s.reg o)))

/-- Completion (exec answers a next state with the own effect, on conditions of state and operands alone) of canTxChoice,
canTxEnd, busOffRecovery, referenceMessageDue. Sending on a fieldbus port (R458 - R463, R466): the frame for the next SOF is
the one whose arbitration field wins; a request that was sent is DONE with result 1, delivered, and lowers TEC; one that lost
arbitration ends under ONESHOT and stays pending under RETRY; an error raises TEC by 8 and ends it under ONESHOT, and one
before arbitration was won counts nothing produced. TSOF is written at the SOF, and a frame that has not lost by the last bit
of its arbitration field has won. A changed mode sets the policy at a choice, or after the frame on the bus. A data phase
that fails its check ends the frame with a bit error. Bus-off recovery clears the counters; a reference message is due every
TSPER. -/
def Obligations.FieldbusSend : Prop :=
  ∀ (p : Fin 4) (s : State),
    let n := p.val
    let x := s.can n
    let st := s.stream (strCanTx n)
    let only := fun (u : State) => u.cores = s.cores ∧ u.tasks = s.tasks ∧ u.lanes = s.lanes ∧ u.mem = s.mem ∧ (∀ q, q ≠ n → u.can q = s.can q)
    let a := s.arbTiming n
    let start := s.cc + a.n2 * a.tq + if s.canFcs n = 1 then 8 * a.len else 0
    let pol := policyOf s.mode
    (s.canOnBus n = true → exec (.canTxChoice p) s = .next s) ∧
    (s.canOnBus n = false → s.canPolicy n ≠ pol → ∃ u, exec (.canTxChoice p) s = .next u ∧ u.canPolicy n = pol ∧
      (2 ≤ pol → (u.can n).chosen = none ∧ ∀ m < 64, (s.box n m).st = 1 ∨ (s.box n m).st = 2 → (u.box n m).st = 3 ∧ (u.box n m).result = 9)) ∧
    (s.canOnBus n = false → s.canPolicy n = pol →
      (s.canEn n = true → s.canFcs n ≠ 2 → pol < 2 → x.chosen = none →
        (s.canRivals n ≠ [] → ∃ u m k, exec (.canTxChoice p) s = .next u ∧ only u ∧ u = { s with cans := u.cans } ∧ (m, k) ∈ s.canRivals n ∧
          (∀ e ∈ s.canRivals n, k ≤ e.2) ∧ u.can n = { x with chosen := some (m, start), won := false }) ∧
        (s.canRivals n = [] → exec (.canTxChoice p) s = .next s)) ∧
      (s.canEn n = false ∨ s.canFcs n = 2 ∨ 2 ≤ pol ∨ x.chosen.isSome = true → exec (.canTxChoice p) s = .next s)) ∧
    (x.chosen = none → s.canClock n = s ∧ ∀ e, exec (.canTxEnd p e) s = .next s) ∧
    -- TSOF, and the win of arbitration at the sample point of the last bit of the arbitration field
    (∀ m sof, x.chosen = some (m, sof) → m < 64 →
      (s.cc < sof → s.canClock n = s) ∧
      (sof = s.cc → (s.canClock n).reg (offBox n m 4) = dlo s.t72 ∧ (s.canClock n).reg (offBox n m 5) = dhi s.t72) ∧
      (x.won = false → sof + s.wonAfter n m ≤ s.cc → s.rfld (offBox n m 6) 35 28 < 255 →
        let u := s.canClock n
        (u.can n).won = true ∧ (u.box n m).st = 2 ∧ (u.box n m).produced = true ∧
          u.rfld (offBox n m 6) 35 28 = s.rfld (offBox n m 6) 35 28 + 1 ∧
          u.stream (strCanTx n) = (if (s.box n m).produced then st else { st with produced := st.produced + 1, resident := st.resident + 1 }))) ∧
    -- the checks of a data phase
    (∀ m sof rx, x.chosen = some (m, sof) → sof ≤ s.cc →
      let f := s.canFrame n m
      let w := s.reg (offCan n 2)
      let starts := bitStarts a (s.dataTiming n) 0 (canPhases f)
      let fast := f.fdf = true ∧ f.brs = true
      let late := bit w 3 = true ∧ ∃ d, txDelay starts f rx = some d ∧ 127 < d
      let off := if bit w 3 then (txDelay starts f rx).getD 0 + fld w 10 4 else (s.dataTiming n).tq * (s.dataTiming n).n1
      let bad := fun (i : Nat) => i < (canBits f).length ∧ (canPhases f).getD i (false, false) = (true, true) ∧
        levelAt true rx (starts.getD i 0 + off) ≠ (canBits f).getD i true
      (fast → late → exec (.canTxEnd p (.sent rx)) s = exec (.canTxEnd p (.error 5 true rx)) s) ∧
      (∀ i, fast → ¬late → (bit w 3 = true → (txDelay starts f rx).isSome = true) → bad i → (∀ j < i, ¬bad j) →
        exec (.canTxEnd p (.sent rx)) s = exec (.canTxEnd p (.error (if (canBits f).getD i true then 4 else 5) true rx)) s)) ∧
    (∀ m sof, x.chosen = some (m, sof) → (s.cc < sof → ∀ e, exec (.canTxEnd p e) s = .next s) ∧
      (x.won = true → exec (.canTxEnd p .lostArb) s = .next s ∧ ∀ k, exec (.canTxEnd p (.errorEarly k)) s = .next s) ∧
      (sof ≤ s.cc → m < 64 → s.canPolicy n = pol → pol < 2 → s.canFcs n = 0 → s.rxErr n ≤ 127 → bit (s.reg (offBox n m 0)) 33 = false →
        let b := s.box n m
        let f := s.canFrame n m
        let good := fun (rx : List Nat) (whole : Bool) => f.fdf = false ∨ f.brs = false ∨
          dataPhaseError a (s.dataTiming n) (bit (s.reg (offCan n 2)) 3) (s.rfld (offCan n 2) 10 4) f rx whole = none
        let others := fun (u : State) => only u ∧ (u.can n).chosen = none ∧ (∀ j, j ≠ m → u.box n j = s.box n j)
        let q := if x.won then 0 else 1
        b.cancel = false → (x.won = true → b.st = 2) → b.produced = x.won →
        (s.txErr n ≤ 127 → ∀ rx, good rx true → ∃ u, exec (.canTxEnd p (.sent rx)) s = .next u ∧ others u ∧
          u.outbox = s.outbox ++ [Msg.can n f] ∧
          (0 < rx.headD 0 → let t := t72 (s.timeAt (sof + rx.headD 0))
            u.reg (offBox n m 4) = dlo t ∧ u.reg (offBox n m 5) = dhi t) ∧
          (u.box n m).st = 3 ∧ (u.box n m).result = 1 ∧ u.txErr n = s.txErr n - 1 ∧ u.rxErr n = s.rxErr n ∧
          u.stream (strCanTx n) = { st with produced := st.produced + q, delivered := st.delivered + 1, resident := st.resident + q - 1 }) ∧
        (x.won = false → pol = 0 → ∃ u, exec (.canTxEnd p .lostArb) s = .next u ∧ others u ∧ (u.box n m).st = 3 ∧ (u.box n m).result = 5 ∧
          u.txErr n = s.txErr n ∧ u.outbox = s.outbox ∧ u.stream (strCanTx n) = st) ∧
        (x.won = false → pol = 1 → ∃ u, exec (.canTxEnd p .lostArb) s = .next u ∧ others u ∧ u.box n m = b ∧ u.txErr n = s.txErr n ∧
          u.stream (strCanTx n) = st) ∧
        (x.won = false → s.txErr n ≤ 119 → ∀ k, ∃ u, exec (.canTxEnd p (.errorEarly k)) s = .next u ∧ others u ∧
          u.outbox = s.outbox ++ [Msg.canFlag n false] ∧
          (pol = 0 → (u.box n m).st = 3 ∧ (u.box n m).result = 8) ∧ (pol = 1 → u.box n m = b) ∧
          u.txErr n = (if k = 1 then s.txErr n else s.txErr n + 8) ∧ u.rfld (offCan n 3) 30 28 = k.toNat ∧ u.stream (strCanTx n) = st) ∧
        (pol = 0 → s.txErr n ≤ 119 → ∀ k rx, good rx false → ∃ u, exec (.canTxEnd p (.error k false rx)) s = .next u ∧ others u ∧
          u.outbox = s.outbox ++ [Msg.can n f, Msg.canFlag n false] ∧ (u.box n m).st = 3 ∧
          (u.box n m).result = (if k = 3 then 7 else 8) ∧ u.txErr n = s.txErr n + 8 ∧ u.rfld (offCan n 3) 30 28 = k.toNat ∧
          u.stream (strCanTx n) = {
            st with
            produced := st.produced + q
            dropped := Tab.put 0 st.dropped 9 (Tab.get 0 st.dropped 9 + 1)
            resident := st.resident + q - 1 }) ∧
        (pol = 1 → s.txErr n ≤ 119 → ∀ k rx, good rx false → ∃ u, exec (.canTxEnd p (.error k false rx)) s = .next u ∧ others u ∧
          (u.box n m).st = 2 ∧ u.txErr n = s.txErr n + 8 ∧
          u.stream (strCanTx n) = { st with produced := st.produced + q, resident := st.resident + q }))) ∧
    (s.canFcs n = 2 → s.canPolicy n < 2 → (∀ t, targetOfWord (wd (s.rfld (offCan n 0) 10 0)) = some t → (s.task t).st = .unused) → ∃ u,
      exec (.busOffRecovery p) s = .next u ∧ u.txErr n = 0 ∧ u.rxErr n = 0 ∧ u.canFcs n = 0 ∧ u.cans = s.cans ∧ u.cores = s.cores ∧
        u.host.evpi = s.host.evpi + 1) ∧
    (s.canFcs n ≠ 2 ∨ 2 ≤ s.canPolicy n → exec (.busOffRecovery p) s = .next s) ∧
    (bit (s.reg (offCan n 9)) 35 = true → x.refDue ≤ s.elapsed → ∃ u, exec (.referenceMessageDue p) s = .next u ∧ only u ∧
      (x.refMade = false → u = { s with cans := u.cans }) ∧
      (x.refMade = true → u.stream (strCanTx n) = {
        st with
        dropped := Tab.put 0 st.dropped 9 (Tab.get 0 st.dropped 9 + 1)
        resident := st.resident - 1 }) ∧ u.can n = { x with refPend := true, refMade := false, refDue := x.refDue + max 1 (s.rfld (offCan n 10) 19 0) * tUs }) ∧
    (bit (s.reg (offCan n 9)) 35 = false ∨ s.elapsed < x.refDue → exec (.referenceMessageDue p) s = .next s)

/-! ### Capture units, history and the event recorder (R469 - R502) -/

/-- Completion (exec answers a next state with the own effect, on conditions of state and operands alone) of capturePace,
captureTrigger, recordClose, recordCopyDone, captureRearm, busPulseDrive, triggerBusPulse. Capture units (R481 - R484, R487 -
R489): at a pacing moment an armed unit stores a sample of its channels and keeps the newest PRE; channel 0 crossing the
level from a primed side is a trigger. A trigger starts the record of an armed unit, counts in RETRIG while one is recorded,
and is missed while it re-arms. A record with POST samples closes; its copy fills a buffer that passes to HOST, and the unit
is armed again once half of the record memory is free. TRIGGER_BUS_PULSE (R489): with RXEN every unit armed for the bus line
has a trigger at the pulse's time less the line's delay and the bus latency. -/
def Obligations.CaptureUnits : Prop :=
  (∀ (k : Fin 16) (s : State),
     let n := k.val
     let x := s.cap n
     let only := fun (u : State) => (∀ j, j ≠ n → u.cap j = s.cap j) ∧ u.cores = s.cores ∧ u.lanes = s.lanes ∧ u.tasks = s.tasks
     let per := fld (x.w 1) 19 0
     (x.st = 1 → cellsRun s.mode = true → x.pacedAt ≠ s.cc + 1 → x.native = false → x.armedAt < s.cc → (s.cc - x.armedAt) % per = 0 → x.fulln = 0 → x.n = 0 →
       x.fresh = none → s.capReads x = s →
       let t := nsOf s.now
       let vs := (List.range x.nch).map (fun i => s.capValue x i)
       ∃ u, exec (.capturePace k) s = .next u ∧ only u ∧ u = { s with caps := u.caps } ∧
         (u.cap n).pacedAt = s.cc + 1 ∧ (u.cap n).prev = some (vs.getD 0 0, t) ∧ (u.cap n).st = 1 ∧ (u.cap n).desc = x.desc ∧
         (u.cap n).samples = x.samples.drop (x.samples.length - x.pre) ++
           [{ vals := vs.map (fun v => rshRound v 0), time := t, cc := s.cc, last := t, forced := x.sumForced || s.forceActive, 
              sat := (List.range x.nch).map (fun i => x.sumSat.getD i false || s.capSat x i) }] ∧
         (∀ v0 t0, x.tkind = 1 → fld (x.w 0) 27 26 = 1 → x.prev = some (v0, t0) → x.primedRise = true → v0 < s36 (x.w 6) → s36 (x.w 6) ≤ vs.getD 0 0 →
           (u.cap n).triggers = x.triggers ++
             [{ kind := 1, time := crossTime t0 t v0 (vs.getD 0 0) (s36 (x.w 6)), target := t * 2 ^ 16, cc := s.cc }]) ∧
         (∀ v0 t0, x.tkind = 1 → x.prev = some (v0, t0) → vs.getD 0 0 < s36 (x.w 6) → v0 < s36 (x.w 6) → (u.cap n).triggers = x.triggers)) ∧
     (x.st = 0 ∨ cellsRun s.mode = false ∨ (x.native = false ∧ (s.cc - x.armedAt) % per ≠ 0) → exec (.capturePace k) s = .next s) ∧
     (∀ g kd t f, x.triggers = [g] → g.kind = kd.toNat → g.time = nsOf (ofT72 t) * 2 ^ 16 + f.toNat →
       (x.st = 1 → bit (x.w 0) 24 = false → bit (x.w 0) 25 = false → ∃ u, exec (.captureTrigger k kd t f) s = .next u ∧ only u ∧
         u = { s with caps := u.caps } ∧ (u.cap n).st = 2 ∧ (u.cap n).trig = some g ∧ (u.cap n).triggers = [] ∧ (u.cap n).desc = x.desc) ∧
       (x.st = 2 → ∃ u, exec (.captureTrigger k kd t f) s = .next u ∧ only u ∧ u.cap n = { x with triggers := [] } ∧
         u.rfld (offCap n 2) 17 0 = min (s.rfld (offCap n 2) 17 0 + 1) (2 ^ 18 - 1)) ∧
       (x.st = 3 → ∃ u, exec (.captureTrigger k kd t f) s = .next u ∧ only u ∧ (u.cap n).missed = satAdd x.missed 1 36 ∧
         Tab.get 0 (u.stream (strCap n)).dropped 6 = Tab.get 0 (s.stream (strCap n)).dropped 6 + 1 ∧
         (u.stream (strCap n)).produced = (s.stream (strCap n)).produced + 1)) ∧
     (x.triggers = [] → ∀ kd t f, exec (.captureTrigger k kd t f) s = .next s) ∧
     (∀ i, x.st = 2 → x.index = some i →
       (x.samples.length < i + x.post → exec (.recordClose k) s = .next s) ∧
       (i + x.post ≤ x.samples.length → ∀ b, fld (x.w 10) 33 24 = b → 0 < fld (x.w 10) 10 0 → s.bufDevice b = true →
         (∀ j, (s.cap j).records = []) → (∀ e ∈ s.caps, e.2.records = []) → ∃ u, exec (.recordClose k) s = .next u ∧ only u ∧
           (u.cap n).records.map CapRecord.buffer = [b] ∧ (u.cap n).records.map CapRecord.words = [s.capRecord n false] ∧
           (u.cap n).records.map CapRecord.etask = [x.etask] ∧
           u.reg (offCap n 1) = s.reg (offCap n 1) + 1 ∧
           (u.stream (strCap n)).produced = (s.stream (strCap n)).produced + 1 ∧
           ((u.cap n).st = if bit (x.w 0) 34 || x.held.isSome then 3 else 0))) ∧
     (∀ r rs, x.records = r :: rs → r.poison = true → ∃ u, exec (.recordCopyDone k) s = .next u ∧ only u ∧ (u.cap n).records = rs ∧
         Tab.get 0 (u.stream (strCap n)).dropped 2 = Tab.get 0 (s.stream (strCap n)).dropped 2 + 1 ∧ u.mem = s.mem ∧
         u.sched.posts = s.sched.posts ++ [(r.etask, wd (2 ^ 33 + n * 2 ^ 28), s.cc)]) ∧
     (∀ r rs, x.records = r :: rs → r.poison = false → s.mode ≠ 7 → s.mem.errs = [] → s.spineQuiet = true →
       Config.hostArea + 0x9000 ≤ s.bufAddr r.buffer → s.bufAddr r.buffer + r.words.length ≤ Config.dramEnd → ∃ u,
       exec (.recordCopyDone k) s = .next u ∧ only u ∧ (u.cap n).records = rs ∧ (u.cap n).st = x.st ∧
         u.words (s.bufAddr r.buffer) r.words.length = r.words ∧ u.bufW r.buffer 0 = wd (2 ^ 34 + 1) ∧
         u.bufW r.buffer 4 = wd r.words.length ∧ u.bufW r.buffer 1 = s.bufW r.buffer 1 + 1 ∧
         (u.stream (strCap n)).delivered = (s.stream (strCap n)).delivered + 1 ∧
         u.sched.posts = s.sched.posts ++ [(r.etask, wd (2 ^ 32 + n * 2 ^ 28 + r.buffer), s.cc)]) ∧
     (x.records = [] → exec (.recordCopyDone k) s = .next s) ∧
     (x.st = 3 → x.records.length < 2 → x.held = none → ∃ u, exec (.captureRearm k) s = .next u ∧ only u ∧ u = { s with caps := u.caps } ∧
       (u.cap n).st = 1 ∧ (u.cap n).desc = x.desc ∧ (u.cap n).armedAt = s.cc ∧ (u.cap n).samples = [] ∧ (u.cap n).records = x.records ∧
       (u.cap n).primedRise = false ∧ (u.cap n).missed = x.missed) ∧
     (x.st ≠ 3 ∨ 2 ≤ x.records.length → exec (.captureRearm k) s = .next s) ∧
     (∀ line t r, x.drive = (line, t) :: r →
       (s.now < t → exec (.busPulseDrive k) s = .next s) ∧
       (t ≤ s.now → Tab.get 0 s.pulses line = 0 → ∃ u, exec (.busPulseDrive k) s = .next u ∧ only u ∧ (u.cap n) = { x with drive := r } ∧
         u.outbox = s.outbox ++ [Msg.busPulse line (s.placed t)] ∧ Tab.get 0 u.pulses line = s.elapsedAt (s.placed t) + 1 ∧
         u = { s with caps := u.caps, outbox := u.outbox, pulses := u.pulses })) ∧
     (x.drive = [] → exec (.busPulseDrive k) s = .next s)) ∧
  (∀ (l : Fin 8) (d : DWord) (f : BitVec 16) (s : State),
     let w := s.reg (offTrigbus l.val)
     let inc := (s.reg offTimeInc).toNat
     let t := nsOf (ofT72 d) * 2 ^ 16 + f.toNat - (fld w 15 0 * inc / 32 + s.rfld offTrigLat 15 0 * inc) / 2 ^ 16
     (bit w 34 = true → ∃ u, exec (.triggerBusPulse l d f) s = .next u ∧ u = { s with caps := u.caps } ∧
       (∀ n < 16, u.cap n =
         (let x := s.cap n
          if x.tkind = 5 ∧ fld (x.w 0) 23 21 = l.val ∧ x.st ≠ 0 then
            { x with triggers := x.triggers ++ [{ kind := 5, time := t, target := t, cc := s.cc }] }
          else x))) ∧
     (bit w 34 = false → exec (.triggerBusPulse l d f) s = .next s))

/-- Completion (exec answers a next state with the own effect, on conditions of state and operands alone) of
signalSamplingPeriod, segmentAgeExpiry, segmentWriteDone, evrFold, snapshotWriteDone. Signal history (R469, R471, R475,
R476): a COORD or CELL signal takes an entry every PER from its declaration, if its credit allows it; a segment of the age of
SEGAGE closes at a tick; the oldest closed segment is written into the ring, which overwrites its oldest segments when it is
full: those words are dropped under 0x01. The event recorder (R491, R495 - R498): each operating second's values go into
their bins and extremes, the live record's sequence number rises by two, and a fold with a fault seen, on a full hour, on
request or after power-up makes a record with the next RSEQ, which is written to its slot: the first 256 for good, the others
in turn. No second ends during hold-up. -/
def Obligations.SignalHistoryAndRecorder : Prop :=
  ((∀ (n : Fin 16384) (s : State),
     let k := n.val
     let x := s.signal k
     let per := 40 * fld (s.sigWord k 1) 15 0
     let src := fld (s.sigWord k 0) 19 0
     let only := fun (u : State) => (∀ j, j ≠ k → u.signal j = s.signal j) ∧ u.mem = s.mem ∧ u.cores = s.cores ∧ u.lanes = s.lanes
     (s.declared k = true → fld (s.sigWord k 0) 34 32 = 4 → sigTimed (s.sigWord k 0) = false → x.declared < s.cc → (s.cc - x.declared) % per = 0 →
       x.took ≠ s.cc + 1 → s.recording = true → x.seg = none → s.sigReads k = (false, s) →
       (16 ≤ x.credit → ∃ u g, exec (.signalSamplingPeriod n) s = .next u ∧ only u ∧ (u.signal k).credit = x.credit - 16 ∧ (u.signal k).seg = some g ∧
         g.words = [s.regRead src] ∧ g.count = 1 ∧ g.c0 = s.cc ∧ g.t0 = nsOf s.now ∧ g.forced = s.forceActive ∧
         (u.stream strHist).produced = (s.stream strHist).produced + 1 ∧ (u.stream strHist).resident = (s.stream strHist).resident + 1) ∧
       (x.credit < 16 → ∃ u, exec (.signalSamplingPeriod n) s = .next u ∧ only u ∧ (u.signal k).seg = none ∧
         (u.signal k).overcnt = satAdd x.overcnt 1 18 ∧ bit (u.reg (offHist 5)) 34 = true ∧ u.rfld (offHist 5) 13 0 = k ∧
         u.stream strHist = s.stream strHist)) ∧
     (s.declared k = false ∨ s.cc ≤ x.declared → exec (.signalSamplingPeriod n) s = .next s) ∧
     (x.seg = none → exec (.segmentAgeExpiry n) s = .next s) ∧
     (∀ g, x.seg = some g →
       (s.elapsedAt (s.sched.tick * tUs) < g.born + s.rfld (offHist 0) 16 0 * tUs → exec (.segmentAgeExpiry n) s = .next s) ∧
       (g.born + s.rfld (offHist 0) 16 0 * tUs ≤ s.elapsedAt (s.sched.tick * tUs) → ∃ u, exec (.segmentAgeExpiry n) s = .next u ∧ only u ∧
         (u.signal k).seg = none ∧ (u.signal k).sseq = (x.sseq + 1) % 2 ^ 36 ∧ u.hist.closed.length = s.hist.closed.length + 1 ∧
         (∃ c ∈ u.hist.closed, c.signal = k ∧ c.cc = s.cc ∧ c.entryWords = g.words.length ∧ (c.words.drop 8).take g.words.length = g.words ∧
           c.words.length % 8 = 0 ∧ c.words.getD 1 0 = wd x.sseq) ∧ u = { s with hist := u.hist }))) ∧
   (∀ s : State,
     (s.hist.closed = [] → exec .segmentWriteDone s = .next s) ∧
     (∀ c r, s.hist.closed = c :: r →
       let n := c.words.length
       let wr := (s.reg (offHist 1)).toNat
       let used := (s.reg (offHist 3)).toNat
       let h := s.stream strHistHost
       s.mem.errs = [] → s.spineQuiet = true → s.rfld (offHist 0) 35 32 ≤ 8 → c.bad = [] → wr + n < s.histLen → used + n ≤ s.histLen → used + n < 2 ^ 36 → ∃ u, exec .segmentWriteDone s = .next u ∧
         u.hist.closed = r ∧ u.hist.resident = s.hist.resident ++ [n] ∧ u.words (s.histBase + wr) n = c.words ∧
         u.reg (offHist 1) = wd (wr + n) ∧ u.reg (offHist 3) = wd (used + n) ∧ u.reg (offHist 2) = s.reg (offHist 2) ∧
         u.stream strHistHost = { h with produced := h.produced + n, resident := h.resident + n } ∧
         (u.stream strHist).delivered = (s.stream strHist).delivered + c.entryWords ∧
         (∀ a, a < s.histBase + wr ∨ s.histBase + wr + n ≤ a → u.word a = s.word a) ∧ u.cores = s.cores) ∧
     (∀ c r m, s.hist.closed = c :: r → s.hist.resident = [m] →
       let n := c.words.length
       let wr := (s.reg (offHist 1)).toNat
       s.mem.errs = [] → s.spineQuiet = true → s.rfld (offHist 0) 35 32 ≤ 8 → c.bad = [] → wr + n < s.histLen → (s.reg (offHist 3)).toNat = m → s.histLen < m + n → n ≤ s.histLen → s.histLen < 2 ^ 36 → ∃ u,
         exec .segmentWriteDone s = .next u ∧ u.hist.resident = [n] ∧ u.reg (offHist 3) = wd n ∧ u.reg (offHist 2) = wd wr ∧
           Tab.get 0 (u.stream strHistHost).dropped 1 = Tab.get 0 (s.stream strHistHost).dropped 1 + m ∧ bit (u.reg (offHist 5)) 33 = true))) ∧
  (∀ s : State,
     (∀ v, s.modes.holdAt.isSome = true → exec (.evrFold v) s = .next s) ∧
     (∀ v, s.modes.holdAt = none → ∃ u, exec (.evrFold v) s = .next u ∧
       let o := s.reg (offEvr 2) + 1
       u.reg (offEvr 2) = o ∧ u.reg (offEvr 1) = s.reg (offEvr 1) + 2 ∧ u.reg (offEvr 3) = s.reg (offEvr 3) ∧ (∀ q < 4, Tab.get none u.evr.tally (46 + q) = some (s.readyCount q)) ∧
       Tab.get none u.evr.tally 50 = some ((s.reg (offHist 3)).toNat) ∧ (∀ h, h < 45 ∨ 50 < h → Tab.get none u.evr.tally h = none) ∧
     
       u.word (evrBase + 2) = o ∧ u.word (evrBase + 3) = s.reg (offEvr 3) ∧ u.cores = s.cores ∧ u.lanes = s.lanes ∧
       (∀ x, v[0]? = some (some x) → s.mem.errs = [] →
         u.word (evrBase + 16 + (if x < -1536 then 0 else min 31 ((x + 2560) / 1024).toNat)) =
           s.word (evrBase + 16 + (if x < -1536 then 0 else min 31 ((x + 2560) / 1024).toNat)) + 1) ∧
       (let made := fun (c : Nat) => u.reg (offEvr 4) = s.reg (offEvr 4) + 1 ∧ bit (u.reg (offEvr 0)) 35 = true ∧
          ∃ r, u.evr.writing = s.evr.writing ++ [r] ∧ fld (r.getD 0 0) 35 32 = c ∧ r.getD 1 0 = s.reg (offEvr 4) ∧ r.getD 2 0 = o ∧
            r.length = 2832 ∧ recordGood r = true
        s.mem.errs = [] → s.linesPoisoned (evrBase / 8) 354 = false →
        (s.evr.causes ≠ [] → made 2) ∧
        (s.evr.causes = [] → o.toNat % 3600 = 0 → made 1) ∧
        (s.evr.causes = [] → o.toNat % 3600 ≠ 0 → s.evr.request = true → made 5) ∧
        (s.evr.causes = [] → o.toNat % 3600 ≠ 0 → s.evr.request = false → s.evr.powerup = true → made 4) ∧
        (s.evr.causes = [] → o.toNat % 3600 ≠ 0 → s.evr.request = false → s.evr.powerup = false →
          u.evr.writing = s.evr.writing ∧ u.reg (offEvr 4) = s.reg (offEvr 4)))) ∧
     (s.evr.writing = [] → exec .snapshotWriteDone s = .next s) ∧
     (∀ r rs, s.evr.writing = r :: rs → ∃ u, exec .snapshotWriteDone s = .next u ∧ u.evr.writing = rs ∧
       (let n := (r.getD 1 0).toNat
        Tab.get [] u.evr.slots (if n < 256 then n else 256 + (n - 256) % 4096) = r ∧
        (∀ j, j ≠ (if n < 256 then n else 256 + (n - 256) % 4096) → Tab.get [] u.evr.slots j = Tab.get [] s.evr.slots j)) ∧
       u = { s with evr := u.evr, regs := u.regs } ∧ (∀ o, o ≠ offEvr 0 → u.reg o = s.reg o)))

/-! ### Brim (R503 - R525) -/

/-- Completion (exec answers a next state with the own effect, on conditions of state and operands alone) of brimCycleStart,
brimDecisionPoint, discrepancy, containerLost, tmaxExpiry. The Brim cycle (R506 - R508, R512, R514 - R520). At its start Brim
samples the pairs and the axes: three samples in a row show demand or release; a channel in demand puts its pair in demand,
and a pair leaves it when both channels have shown demand and then both show release; a RESET pair held for 100 ms to 2 s and
let go gives a reset. A block in the mailbox is loaded then and its request answered (R22, R524): NOT_ALLOWED outside
COMMISSION and UPDATE and in FAULT (assumption 53), RANGE, CRC_MISMATCH or ACCEPTED with the block in force and stored. At
the decision point a demand opens an output with its cause, an SS1 demand begins the stop of a closed one, a stop ends by
envelope, standstill or TMAX, and a reset closes the open outputs in use that nothing holds open. DISCREPANCY, CONTAINER_LOST
and TMAX_EXPIRY mark what the next decision point acts on. -/
def Obligations.BrimCycle : Prop :=
  (∀ (si : BitVec 8) (counts : List Int) (s : State),
    (s.brim.due = true → exec (.brimCycleStart si counts) s = .next s) ∧
    (∀ m, s.brim.due = false → s.brim.mailbox = some m → ∃ u n t,
      exec (.brimCycleStart si counts) { s with brim := { s.brim with mailbox := none } } = .next u ∧
      exec (.brimCycleStart si counts) s = .next ((State.returnBuf t m.buffer).respond 0xA n m.tag []) ∧
      t.brim.mailbox = none ∧ t.cores = s.cores ∧ t.mode = s.mode ∧
      ((s.mode ≠ 3 ∧ s.mode ≠ 10) ∨ s.brimState = 2 → n = 1 ∧ t = u) ∧
      (s.mode = 3 ∨ s.mode = 10 → s.brimState ≠ 2 → (∀ k < 4, t.stoState k = 0) ∧
        (blockOk m.words = false → n = 4 ∧ t.brimState = 0 ∧ t.brim.block = [] ∧ t.brim.stored = s.brim.stored) ∧
        (blockOk m.words = true → blockCrc m.words ≠ 0 → blockCrc m.words ≠ s.rfld (offBrim 0) 15 0 →
          n = 5 ∧ t.brimState = 0 ∧ t.brim.block = [] ∧ t.brim.stored = s.brim.stored) ∧
        (blockOk m.words = true → blockCrc m.words ≠ 0 → blockCrc m.words = s.rfld (offBrim 0) 15 0 →
          n = 0 ∧ t.brimState = 1 ∧ t.brim.block = m.words ∧ t.brim.stored = m.words))) ∧
    (s.brim.due = false → s.brim.mailbox = none → s.mem.errs = [] → ∃ u, exec (.brimCycleStart si counts) s = .next u ∧
      (s.brim.cycle % 500 = 0 → (u.brim.pulseOn = true ↔ s.stoState (s.brim.cycle % 4000 / 1000) ≠ 0)) ∧
      (s.brim.cycle % 500 ≠ 0 → u.brim.pulseOn = s.brim.pulseOn) ∧
      u = { s with regs := u.regs, brim := u.brim } ∧ u.brim.cycle = s.brim.cycle + 1 ∧ u.brim.due = true ∧
      u.brim.block = s.brim.block ∧ u.rfld (offBrim 1) 7 0 = si.toNat ∧ u.reg (offBrim 5) = 0 ∧
      (∀ o, o ≠ offBrim 1 → o ≠ offBrim 5 → u.reg o = s.reg o) ∧
      (∀ i < 4,
        let x := s.bpair i
        let p := u.bpair i
        let sa := si.getLsbD (2 * i)
        let sb := si.getLsbD (2 * i + 1)
        let three := fun (b : Bool) (l : List Bool) => l = [b, b, b]
        p.a = (sa :: x.a).take 3 ∧ p.b = (sb :: x.b).take 3 ∧
        (s.pairAction i = 0 → u.inDemand i = s.inDemand i ∧ u.inDisc i = s.inDisc i) ∧
        (s.pairAction i ≠ 0 →
          p.differ = (if sa = sb then 0 else x.differ + 1) ∧
          (s.inDemand i = false → ¬three false p.a → ¬three false p.b → u.inDemand i = false) ∧
          (three false p.a ∨ three false p.b → u.inDemand i = true) ∧
          (three false p.a ∧ three false p.b → p.both = true) ∧
          (s.inDemand i = false → three false p.a ∨ three false p.b → ¬three false p.a ∨ ¬three false p.b → p.both = false) ∧
          (s.inDemand i = true → ¬three false p.a ∨ ¬three false p.b → p.both = x.both) ∧
          (s.inDemand i = true → three true p.a → three true p.b →
            u.inDemand i = !x.both ∧ u.inDisc i = (s.inDisc i && !x.both)) ∧
          (s.inDemand i = true → ¬three true p.a ∨ ¬three true p.b → u.inDemand i = true ∧ u.inDisc i = s.inDisc i)) ∧
        (s.pairAction i = 3 → s.inDemand i = false → s.inDisc i = false →
          (sa = true → sb = true → p.pressed = x.pressed + 1) ∧
          (sa = false ∨ sb = false → p.pressed = 0 ∧ (400 ≤ x.pressed → x.pressed ≤ 8000 → u.brim.reset = true)))) ∧
      (∀ a ∈ s.brimAxes, ∀ o, bit (s.pb (16 + 4 * a)) 34 = false → (s.baxis a).count = some o →
        let n := counts.getD (fld (s.pb (16 + 4 * a)) 22 19) 0
        (u.baxis a).count = some n ∧ (u.baxis a).speed = (n - o).natAbs * 256 / 250) ∧
      (bit (s.reg (offBrim 5)) 35 = true → s.brimState = 1 → bit (s.pb 0) 20 = true →
        s.rfld (offBrim 5) 15 0 = s.rfld (offBrim 3) 15 0 → u.brim.reset = true) ∧
      (s.brim.reset = true → u.brim.reset = true))) ∧
  (∀ s : State,
    (s.brim.due = false → exec .brimDecisionPoint s = .next s) ∧
    (s.brim.due = true →
      let d := (List.range 4).foldl State.tmaxOver (s.brimAxes.foldl State.brimLost
        ((List.range 4).foldl State.discrepant { s with brim := { s.brim with due := false } }))
      (s.brimState ≠ 1 → exec .brimDecisionPoint s = .next { d with brim := { d.brim with reset := false } }) ∧
      (s.brimState = 1 → ∃ u, exec .brimDecisionPoint s = .next u ∧ u.brim.due = false ∧ u.brim.reset = false ∧ u.mode = s.mode ∧
        u.brim.block = s.brim.block ∧
        ((∀ k < 4, d.stoState k ≠ 1) → u.cores = s.cores ∧ u.tasks = s.tasks ∧ u.axes = s.axes ∧ u.lanes = s.lanes ∧
          u.modes = s.modes) ∧
        (∀ k < 4,
          let calm := bit (s.pb 0) (16 + k) = false ∨ (∀ j < k, d.stoState j ≠ 1)
          let opens := fun (cause : Nat) => u.stoState k = 0 ∧ u.rfld (offBrim 2) (8 * k + 7) (8 * k) = cause
          (∀ c, d.stoState k ≠ 0 → d.openDemand k = some c → opens c) ∧
          (d.stoState k = 0 → d.openDemand k ≠ none ∨ s.brim.reset = false ∨ s.outUsed k = false → u.stoState k = 0) ∧
          (d.stoState k = 0 → d.openDemand k = none → s.brim.reset = true → s.outUsed k = true → d.stopDemand k = none → calm →
            u.stoState k = 1) ∧
          (d.stoState k = 1 → d.openDemand k = none → calm →
            (d.stopDemand k = none → u.stoState k = 1) ∧
            (∀ c, d.stopDemand k = some c → u.stoState k = 2 ∧ u.bstop k = { cause := c } ∧
              (∀ a ∈ s.groupAxes k, (u.baxis a).v0 = (s.baxis a).speed) ∧
              (s.mode = 4 ∨ s.mode = 5 → s.modes.trans = none → u.modes.trans = some (6, 4)))) ∧
          (d.stoState k = 2 → d.openDemand k = none →
            let past := ∃ a ∈ s.groupAxes k, 2 ≤ (s.baxis a).above
            let still := s.groupAxes k ≠ [] ∧ ∀ a ∈ s.groupAxes k, 4 ≤ (s.baxis a).still
            (past → opens 2) ∧ (¬past → still → (s.bstop k).cause < 256 → opens (s.bstop k).cause) ∧
            (¬past → ¬still → 4 * fld (s.pb (12 + k)) 15 0 ≤ (s.bstop k).m → opens 3) ∧
            (¬past → ¬still → (s.bstop k).m < 4 * fld (s.pb (12 + k)) 15 0 → (s.bstop k).expired = false →
              u.stoState k = 2)))))) ∧
  (∀ (k : Nat) (s : State),
    (∀ i < 4, s.pairAction i = 1 → s.inDemand i = true → s.pairGroup i k = true → s.openDemand k = some 1) ∧
    ((∀ i < 4, s.pairAction i = 1 → s.inDemand i = true → s.pairGroup i k = false) →
      (s.brim.f24 = true → s.openDemand k = some 0xA) ∧
      (s.brim.f24 = false → s.mode ≠ 3 → s.mode ≠ 4 → s.mode ≠ 5 → s.mode ≠ 6 → s.mode ≠ 11 → s.openDemand k = some 6) ∧
      (s.brim.f24 = false → s.mode = 4 → s.brim.holdAt = 0 →
        ((∃ a ∈ s.groupAxes k, (s.baxis a).lost = true) → s.openDemand k = some 4) ∧
        ((∀ a ∈ s.groupAxes k, (s.baxis a).lost = false) → s.openDemand k = none)))) ∧
  (∀ (i : Fin 4) (s : State),
    (s.pairAction i.val ≠ 0 → fld (s.pb 1) 15 0 < (s.bpair i.val).differ → s.inDisc i.val = false → ∃ u,
      exec (.discrepancy i) s = .next u ∧ u = { s with regs := u.regs, brim := { s.brim with pairs := u.brim.pairs } } ∧
        u.inDemand i.val = true ∧ u.inDisc i.val = true ∧ (s.inDemand i.val = false → (u.bpair i.val).both = false) ∧
        (s.inDemand i.val = true → (u.bpair i.val).both = (s.bpair i.val).both) ∧ (∀ o, o ≠ offBrim 1 → u.reg o = s.reg o) ∧
        (∀ j < 4, j ≠ i.val → u.inDemand j = s.inDemand j ∧ u.inDisc j = s.inDisc j ∧ u.bpair j = s.bpair j)) ∧
    (s.pairAction i.val = 0 ∨ (s.bpair i.val).differ ≤ fld (s.pb 1) 15 0 ∨ s.inDisc i.val = true →
      exec (.discrepancy i) s = .next s)) ∧
  (∀ (a : Fin 64) (s : State),
    let w := s.pb (16 + 4 * a.val)
    let tout := fld (s.pb (19 + 4 * a.val)) 19 12
    (bit w 35 = true → bit w 34 = true → tout ≤ (s.baxis a.val).age → ∃ u, exec (.containerLost a) s = .next u ∧
      u = { s with regs := u.regs, brim := { s.brim with axes := u.brim.axes } } ∧
      u.baxis a.val = { s.baxis a.val with lost := true } ∧ (∀ b, b ≠ a.val → u.baxis b = s.baxis b) ∧
      bit (u.reg (offBrim 1)) (16 + fld w 33 32) = true ∧ (∀ o, o ≠ offBrim 1 → u.reg o = s.reg o)) ∧
    (bit w 35 = false ∨ bit w 34 = false ∨ (s.baxis a.val).age < tout → exec (.containerLost a) s = .next s)) ∧
  (∀ (k : Fin 4) (s : State),
    let tmax := 4 * fld (s.pb (12 + k.val)) 15 0
    (s.stoState k.val = 2 → tmax ≤ (s.bstop k.val).m →
      exec (.tmaxExpiry k) s = .next (s.setBstop k.val { s.bstop k.val with expired := true })) ∧
    (s.stoState k.val ≠ 2 ∨ (s.bstop k.val).m < tmax → exec (.tmaxExpiry k) s = .next s))

/-- Completion (exec answers a next state with the own effect, on conditions of state and operands alone) of
brimLockstepMismatch, brimRailLow, brimOscillatorCheck, switchTestPulse, brimSwitchRead, f24vMissing. Brim's tests and faults
(R503, R504, R510, R520, R521, R525). A fault opens every output, shows its code, tells the Crown and asks for SAFESTOP; the
first fault stands. A test of a switch is judged at its second cycle alone and not without the supply; the oscillators may
differ by 10000 ppm; the stored block comes into force at power-up alone, under the switch code that is its CRC. -/
def Obligations.BrimFaults : Prop :=
  ∀ s : State,
    let faulty := fun (u : State) (code out : Nat) => u.brimState = 2 ∧ u.rfld (offBrim 0) 33 26 = code ∧
      u.rfld (offBrim 0) 25 24 = out ∧ (∀ k < 4, u.stoState k = 0) ∧ u.host.evpi ≠ s.host.evpi ∧ u.mode = s.mode ∧
      u.cores = s.cores ∧ u.lanes = s.lanes ∧ u.axes = s.axes ∧
      (s.mode = 4 ∨ s.mode = 5 → s.modes.trans = none → u.modes.trans = some (6, 4)) ∧
      (s.modes.trans ≠ none → u.modes.trans = s.modes.trans ∧ u.brim.wantSafe = true) ∧
      (s.mode ≠ 4 → s.mode ≠ 5 → s.modes.trans = none → u.modes = s.modes)
    (s.brimState ≠ 2 →
      (∃ u, exec .brimLockstepMismatch s = .next u ∧ faulty u 1 0) ∧ (∃ u, exec .brimRailLow s = .next u ∧ faulty u 3 0) ∧
      (∀ d : Int, 10000 < d ∨ d < -10000 → ∃ u, exec (.brimOscillatorCheck d) s = .next u ∧ faulty u 2 0) ∧
      (∀ (k : Fin 4) (lowSide : Bool) (mv : Int) (ua : Nat),
        let closed := s.brim.pulseOn = true
        let fits := closed ∨ s.stoState k.val = 0
        let bad := 1000 ≤ ua ∨ (closed ∧ lowSide = false ∧ 5000 ≤ mv) ∨ (closed ∧ lowSide = true ∧ mv ≤ 12000) ∨
          (¬closed ∧ lowSide = false ∧ mv ≤ 18000) ∨ (¬closed ∧ lowSide = true ∧ 5000 ≤ mv)
        let second := 1 ≤ s.brim.cycle ∧ s.brim.testFrom ≤ s.brim.cycle - 1 ∧ (s.brim.cycle - 1) % 4000 = 500 * (2 * k.val + if lowSide then 1 else 0) + 1
        (bad → fits → second → s.brim.f24 = false → ∃ u, exec (.switchTestPulse k lowSide mv ua) s = .next u ∧ faulty u 4 k.val) ∧
        (¬bad ∨ ¬fits ∨ ¬second ∨ s.brim.f24 = true → exec (.switchTestPulse k lowSide mv ua) s = .next s))) ∧
    (s.brimState = 2 → exec .brimLockstepMismatch s = .next s ∧ exec .brimRailLow s = .next s) ∧
    (∀ d : Int, d ≤ 10000 → d + 10000 ≥ 0 → exec (.brimOscillatorCheck d) s = .next s) ∧
    (∀ (code : BitVec 16) (ok : Bool),
      let crc := blockCrc s.brim.stored
      (s.brim.stored ≠ [] → ok = false → s.brimState ≠ 2 → ∃ u, exec (.brimSwitchRead code ok) s = .next u ∧ faulty u 6 0 ∧
        u.rfld (offBrim 0) 15 0 = code.toNat) ∧
      (s.brim.stored = [] ∨ ok = true →
        (s.brim.booted = true → s.brimState = 1 → s.rfld (offBrim 0) 15 0 ≠ code.toNat → ∃ u,
          exec (.brimSwitchRead code ok) s = .next u ∧ faulty u 5 0 ∧ u.rfld (offBrim 0) 15 0 = code.toNat) ∧
        (s.brim.booted = false → s.brimState = 0 → ∃ u, exec (.brimSwitchRead code ok) s = .next u ∧
          u = { s with regs := u.regs, brim := u.brim } ∧ u.brim.booted = true ∧ u.rfld (offBrim 0) 15 0 = code.toNat ∧
          (s.brim.stored ≠ [] → code ≠ 0 → crc = code.toNat → u.brimState = 1 ∧ u.brim.block = s.brim.stored ∧
            u.reg (offBrim 3) = wd crc) ∧
          (s.brim.stored = [] ∨ code = 0 ∨ crc ≠ code.toNat → u.brimState = 0 ∧ u.brim.block = s.brim.block)))) ∧
    (∀ mv : Nat,
      (mv < 10000 → exec (.f24vMissing mv) s = .next { s with brim := { s.brim with f24 := true, f24Good := 0 } }) ∧
      (10000 ≤ mv → ∃ u, exec (.f24vMissing mv) s = .next u ∧ u = { s with brim := { s.brim with f24Good := u.brim.f24Good } } ∧
        (mv ≤ 11000 → u.brim.f24Good = 0) ∧ (11000 < mv → s.brim.f24 = true → u.brim.f24Good ≠ 0)))

/-! ### Paired modules, trials and recovery (R322, R323, R533 - R546, R587, R593) -/

/-- Completion (exec answers a next state with the own effect, on conditions of state and operands alone) of heartbeatSend,
pairWatchdogExpiry, heartbeatReceive, pairLinkLost, release. The pair's link (R323, R533 - R536): a heartbeat each 100 us,
not in HALT; 3 ms without one close the active module's gate and ports. A heartbeat from the peer shows the link; the standby
is then disciplined to it, and shows CPOK once its clock follows and a checkpoint stands. No good frame for 2 ms is a lost
link: LINK goes, the Crown is told, the active module goes on without checkpoints, its open one made again, and the standby
takes over if it can. RELEASE and a standby's lost link (R546): without CPOK nothing is taken over and the cause is shown;
with it, and a checkpoint of the level in force, the mode is TAKEOVER, the role ACTIVE with neither link nor CPOK, the mirror
empty, no lane or axis runs from before and every output is at rest until the windows open. -/
def Obligations.PairLinkAndTakeover : Prop :=
  (∀ s : State,
     (s.role = 1 ∨ s.role = 2 → s.mode ≠ 7 → s.peer.beatAt + 100 * tUs ≤ s.elapsed → ∃ u h, exec .heartbeatSend s = .next u ∧
       u = { s with outbox := s.outbox ++ [Msg.heartbeat h], peer := { s.peer with beatAt := s.elapsed } } ∧ h.role.toNat = s.role ∧
       h.epoch0 = BitVec.ofNat 16 (s.ring 0).epoch ∧ h.epoch1 = BitVec.ofNat 16 (s.ring 1).epoch ∧ h.time = s.t72 ∧
       h.checkpoint = s.reg (offPair 1)) ∧
     ((s.role ≠ 1 ∧ s.role ≠ 2) ∨ s.mode = 7 ∨ s.elapsed < s.peer.beatAt + 100 * tUs → exec .heartbeatSend s = .next s) ∧
     (s.role = 1 → s.peer.portsOff = false → s.peer.beatAt + 3 * tMs ≤ s.elapsed → ∃ u, exec .pairWatchdogExpiry s = .next u ∧
       u.peer.gate = true ∧ u.peer.portsOff = true ∧ u.mode = s.mode ∧ u.cores = s.cores ∧ u.tasks = s.tasks ∧ u.lanes = s.lanes ∧
       (∀ p < 24, (u.pair p).driven = false ∧ bit (u.reg (offPwm p 0)) 0 = false) ∧
       (∀ o < 16, bit (u.reg (offFout o 0)) 35 = false)) ∧
     (s.role ≠ 1 ∨ s.peer.portsOff = true ∨ s.elapsed < s.peer.beatAt + 3 * tMs → exec .pairWatchdogExpiry s = .next s) ∧
     (∀ h : Heartbeat,
       (s.role ≠ 1 → s.role ≠ 2 → exec (.heartbeatReceive h) s = .next s) ∧
       (s.role = 1 → ∃ u, exec (.heartbeatReceive h) s = .next u ∧ u = { s with regs := u.regs, peer := u.peer } ∧
         bit (u.reg (offPair 0)) 33 = true ∧ (∀ o, o ≠ offPair 0 → u.reg o = s.reg o) ∧ u.peer = {
           s.peer with
           goodAt := s.elapsed
           full := s.peer.full || !bit (s.reg (offPair 0)) 33
           epochs := [h.epoch0.toNat, h.epoch1.toNat] }) ∧
       (s.role = 2 → s.rfld offTimeStat 3 3 = 1 → ∃ u, exec (.heartbeatReceive h) s = .next u ∧
         u = { s with regs := u.regs, peer := u.peer, free := u.free, freqEst := u.freqEst } ∧ bit (u.reg (offPair 0)) 33 = true ∧
         u.rfld offTimeStat 1 0 = 2 ∧ u.reg offTimeOffs = wdI (satS36 (h.aheadNs * 2 ^ 8)) ∧
         bit (u.reg offTimeDisc) 35 = decide (20 < h.aheadNs.natAbs) ∧ u.peer.goodAt = s.elapsed ∧
         u.peer.aligned = decide (h.aheadNs.natAbs ≤ 2) ∧
         bit (u.reg (offPair 0)) 32 = (bit (s.reg (offPair 0)) 32 || (s.peer.committed && decide (h.aheadNs.natAbs ≤ 2))) ∧
         (∀ o, o ≠ offPair 0 → o ≠ offTimeStat → o ≠ offTimeOffs → o ≠ offTimeDisc → o ≠ offTimeInc → u.reg o = s.reg o)) ∧
       (s.role = 2 → s.rfld offTimeStat 3 3 = 0 → ∃ u, exec (.heartbeatReceive h) s = .next u ∧
         u.now = ((s.now : Int) - h.aheadNs * tNs).toNat ∧ u.elapsed = s.elapsed ∧ u.rfld offTimeStat 3 3 = 1 ∧ u.rfld offTimeStat 1 0 = 2 ∧
         bit (u.reg (offPair 0)) 33 = true)) ∧
     (s.role = 1 → bit (s.reg (offPair 0)) 33 = true → s.peer.goodAt + 2 * tMs ≤ s.elapsed → s.mirror = [] → ∃ u,
       exec .pairLinkLost s = .next u ∧ u.rfld (offPair 0) 33 32 = 0 ∧ u.role = 1 ∧ u.rfld (offJrnl 0) 2 2 = 0 ∧
         u.host.evpi = s.host.evpi + 1 ∧ u.mode = s.mode ∧ u.cores = s.cores ∧ u.tasks = s.tasks ∧ u.lanes = s.lanes ∧
         u.peer.waiting = false ∧
         (s.peer.waiting = true → u.peer.sending = [] ∧ u.peer.full = (s.peer.full || s.peer.wasFull) ∧
           (∀ l ∈ s.peer.sending, Tab.get false u.peer.dirty l = true) ∧
           (∃ k ≤ s.peer.sending.length, u.stream strCp = {
             s.stream strCp with
             delivered := (s.stream strCp).delivered + k
             dropped := Tab.put 0 (s.stream strCp).dropped 2 (Tab.get 0 (s.stream strCp).dropped 2 + (s.peer.sending.length - k))
             resident := (s.stream strCp).resident - s.peer.sending.length }))) ∧
     ((s.role ≠ 1 ∧ s.role ≠ 2) ∨ bit (s.reg (offPair 0)) 33 = false ∨ s.elapsed < s.peer.goodAt + 2 * tMs →
       exec .pairLinkLost s = .next s)) ∧
  (∀ s : State,
     (s.role ≠ 2 ∨ s.mode ≠ 8 ∨ s.modes.trans ≠ none ∨ s.holdup = true → exec .release s = .next s) ∧
     (s.role = 2 → s.mode = 8 → s.modes.trans = none → s.holdup = false →
       let image := s.cpImage.1
       let stays := fun (u : State) (cause : Nat) => u.rfld (offPair 0) 31 30 = cause ∧ bit (u.reg (offPair 0)) 32 = false ∧ u.mode = 8 ∧
         u.role = 2 ∧ u.cores = s.cores ∧ u.tasks = s.tasks ∧ u.lanes = s.lanes ∧ u.peer.committed = false ∧
         u.peer.mismatch = (bit (s.reg (offPair 0)) 32 && imageLevel image != s.rfld offBlevel 7 0)
       let takes := fun (u : State) (cause : Nat) => u.mode = 9 ∧ u.role = 1 ∧ u.rfld (offPair 0) 33 32 = 0 ∧
         u.rfld (offPair 0) 31 30 = cause ∧ u.rfld offSysMode 11 8 = 8 ∧ u.rfld offSysMode 15 12 = 7 ∧ u.modes.resume = 2 ∧
         u.modes.goal = imageGoal image ∧ u.peer.full = true ∧ u.peer.takeAt = s.elapsed ∧
         u.peer.staging = [] ∧ u.peer.mirrorOld = [] ∧ u.peer.mirrorNew = [] ∧ (∀ n, (u.cue n).st ≠ .armed) ∧
         (∀ p < 24, (u.pair p).driven = false)
       (bit (s.reg (offPair 0)) 32 = false → ∃ u, exec .release s = .next u ∧ stays u 1 ∧ u = { s with regs := u.regs, peer := u.peer }) ∧
       (bit (s.reg (offPair 0)) 32 = true → s.cpImage.2.1 = false → ∃ u, exec .release s = .next u ∧
         (imageLevel image ≠ s.rfld offBlevel 7 0 → stays u 1) ∧ (imageLevel image = s.rfld offBlevel 7 0 → takes u 1)) ∧
       (bit (s.reg (offPair 0)) 33 = true → s.peer.goodAt + 2 * tMs ≤ s.elapsed → ∃ u, exec .pairLinkLost s = .next u ∧
         (bit (s.reg (offPair 0)) 32 = false → stays u 2 ∧ bit (u.reg (offPair 0)) 33 = false))))

/-- Completion (exec answers a next state with the own effect, on conditions of state and operands alone) of censusInstant,
checkpointRecord, checkpointEnd, checkpointAck. Checkpoints (R322, R536, R537, R540 - R542). A cut is made at a census
instant when no other is open: every line written since goes out with an END record of the next number. The standby stages a
good record, drops a bad one under 0x02 and acknowledges a mirrored line; at END it commits if all came good, and refuses if
not. An accepted checkpoint is delivered and shown; of a refused one every line is dirty again. -/
def Obligations.Checkpoints : Prop :=
  ∀ s : State,
    let p := s.peer
    let str := s.stream strCp
    let quiet := fun (u : State) => u.cores = s.cores ∧ u.tasks = s.tasks ∧ u.lanes = s.lanes ∧ u.mode = s.mode
    (s.role = 1 → bit (s.reg (offPair 0)) 33 = true → p.waiting = false → s.holdup = false → s.exch.phase ≠ .swapped →
      s.mode = 3 ∨ s.mode = 4 ∨ s.mode = 5 ∨ s.mode = 6 ∨ s.mode = 11 → s.censusRuns = true → s.censusDue = true → ∃ u,
        exec .censusInstant s = .next u ∧ quiet u ∧ u.peer.waiting = true ∧ u.peer.number = p.number + 1 ∧
          u.peer.cutAt = some s.elapsed ∧ u.peer.full = false ∧ u.peer.wasFull = p.full ∧ u.rfld (offJrnl 0) 2 2 = 1 ∧
          (p.full = false → ∀ e ∈ p.dirty, e.1 ∈ u.peer.sending) ∧
          (u.peer.sending.length ≤ 16384 → s.spineQuiet = true → s.mem.errs = [] → u.peer.dirty = []) ∧
          u.stream strCp = {
            str with
            produced := str.produced + u.peer.sending.length
            resident := str.resident + u.peer.sending.length }) ∧
    (∀ (mirror : Bool) (b : List Byte),
      let x := recordLine b
      let line := b.length = 64 ∧ leAt b 60 4 = crc32c (b.take 60) ∧ byteAt b 5 = 1
      (s.role ≠ 2 ∨ s.mode ≠ 8 → exec (.checkpointRecord mirror b) s = .next s) ∧
      (s.role = 2 → s.mode = 8 →
        (line → ∃ u, exec (.checkpointRecord mirror b) s = .next u ∧ quiet u ∧ bit (u.reg (offPair 0)) 33 = true ∧ u.mem = s.mem ∧
          (mirror = false → u.peer.staging = p.staging ++ [x] ∧ u.outbox = s.outbox ∧
            u.stream strCp = { str with produced := str.produced + 1, delivered := str.delivered + 1 }) ∧
          (mirror = true → u.outbox = s.outbox ++ [Msg.mirrorAck] ∧ u.peer.mirrorNew = p.mirrorNew ++ [x] ∧
            u.peer.staging = p.staging ∧ u.stream strCp = str)) ∧
        (¬line → mirror = true → exec (.checkpointRecord mirror b) s = .next s) ∧
        (¬line → mirror = false → ∃ u, exec (.checkpointRecord mirror b) s = .next u ∧ u.peer = { p with bad := true } ∧
          u = { s with census := u.census, peer := u.peer } ∧
          u.stream strCp = {
            str with
            produced := str.produced + 1
            dropped := Tab.put 0 str.dropped 2 (Tab.get 0 str.dropped 2 + 1) }))) ∧
    (∀ b : List Byte,
      let number := wd (leAt b 45 5)
      let sound := b.length = 64 ∧ leAt b 60 4 = crc32c (b.take 60) ∧ byteAt b 5 = 2
      let whole := sound ∧ p.bad = false ∧ leAt b 50 5 = p.staging.length
      (s.role ≠ 2 ∨ s.mode ≠ 8 → exec (.checkpointEnd b) s = .next s) ∧
      (s.role = 2 → s.mode = 8 →
        (whole → ∃ u, exec (.checkpointEnd b) s = .next u ∧ quiet u ∧ u.outbox = s.outbox ++ [Msg.checkpointAnswer number true] ∧
          u.reg (offPair 1) = number ∧ u.rfld (offPair 2) 35 18 = min p.staging.length (2 ^ 18 - 1) ∧ u.peer.staging = [] ∧
          u.peer.committed = true ∧ u.stream strCp = str ∧
          bit (u.reg (offPair 0)) 32 = (bit (s.reg (offPair 0)) 32 || p.aligned) ∧
          (p.staging = [] → u.mem = s.mem) ∧
          (∀ e, p.staging = [e] → s.spineQuiet = true → e.2.2.length = 8 → 8 * e.1 < cpCrown.1 ∨ cpCrown.1 + cpCrown.2 ≤ 8 * e.1 →
            (targetOf (8 * e.1)).isSome = true →
              u.lineWords e.1 = e.2.2 ∧ (∀ l, l ≠ e.1 → u.lineWords l = s.lineWords l ∧ u.lineMeta l = s.lineMeta l) ∧
              u.lineMeta e.1 = { owner := 3, poison := e.2.1.testBit 21, version := BitVec.ofNat 8 e.2.1 })) ∧
        (¬whole → ∃ u, exec (.checkpointEnd b) s = .next u ∧ quiet u ∧ u.mem = s.mem ∧
          u.outbox = s.outbox ++ [Msg.checkpointAnswer number false] ∧ u.reg (offPair 4) = s.reg (offPair 4) + 1 ∧
          u.reg (offPair 1) = s.reg (offPair 1) ∧ u.peer.staging = [] ∧ u.peer.committed = p.committed))) ∧
    (∀ (number : Word) (ok : Bool),
      (s.role ≠ 1 ∨ p.waiting = false ∨ number ≠ p.number → exec (.checkpointAck number ok) s = .next s) ∧
      (s.role = 1 → p.waiting = true → number = p.number → ∃ u, exec (.checkpointAck number ok) s = .next u ∧ quiet u ∧
        u.mem = s.mem ∧ u.peer.waiting = false ∧ u.peer.sending = [] ∧
        (u.stream strCp).resident = str.resident - p.sending.length ∧ (u.stream strCp).produced = str.produced ∧
        (ok = true → u.reg (offPair 1) = number ∧ bit (u.reg (offPair 0)) 32 = true ∧
          (u.stream strCp).delivered = str.delivered + p.sending.length ∧ u.reg (offPair 4) = s.reg (offPair 4)) ∧
        (ok = false → u.reg (offPair 4) = s.reg (offPair 4) + 1 ∧ u.reg (offPair 1) = s.reg (offPair 1) ∧
          (∀ l ∈ p.sending, Tab.get false u.peer.dirty l = true))))

/-- Completion (exec answers a next state with the own effect, on conditions of state and operands alone) of compareFailure,
confirmWindowExpiry, maintenanceFrame. COMPARE_FAILURE, CONFIRM_WINDOW_EXPIRY and MAINTENANCE_FRAME (R38, R545, R587, R593).
A compare failure shows its kind and index; the first after a reset ends in HALT, on a paired active module with its gate
closed, the release sent, nothing resident and ROLE FAILED. A trial whose window ends unconfirmed resets at once with the
banks of its classes changed back. In RECOVERY the ROM acknowledges a good frame in sequence and takes its words,
acknowledges a repeated one and takes nothing, answers 0x15 to the rest, and at the end of an image answers with the cause. -/
def Obligations.FailuresAndRecovery : Prop :=
  ∀ s : State,
    (∀ (kind : BitVec 4) (index : BitVec 10),
      let compared := if kind = 1 then (s.lane index.toNat).configured = true ∧ (s.lane index.toNat).compared = true
        else 2 ≤ kind.toNat ∧ kind.toNat ≤ 5 ∧ index.toNat < 64 ∧ bit (s.word (0x2702000 + 2 * index.toNat)) 35 = true
      let first := bit (s.reg offCensusStat) 2 = false
      (¬compared ∨ s.modes.inReset = true → exec (.compareFailure kind index) s = .next s) ∧
      (compared → s.modes.inReset = false → ∃ u, exec (.compareFailure kind index) s = .next u ∧
        u.rfld (offPair 0) 29 26 = kind.toNat ∧ u.rfld (offPair 0) 25 16 = index.toNat ∧
        (¬first → u = { s with regs := u.regs } ∧ (∀ o, o ≠ offPair 0 → u.reg o = s.reg o)) ∧
        (first → bit (u.reg offCensusStat) 2 = true) ∧
        (first → s.mode ≠ 0 → s.mode ≠ 1 → u.mode = 7) ∧
        (first → s.role ≠ 1 → u.role = s.role) ∧
        (first → s.role = 1 → u.role = 3 ∧ u.peer.gate = true ∧ Msg.release 1 ∈ u.outbox ∧
          (s.exch.phase = .none → ∀ i < 45, (u.stream i).resident = 0) ∧ (∀ p < 24, (u.pair p).driven = false)))) ∧
    (bit (s.reg offSysMode) 5 = true → s.mode ≠ 1 → s.mode ≠ 0 → s.modes.inReset = false → s.store.window ≤ s.windowUsed →
      s.store.recover = false → s.store.bootFails < 3 → (s.runBank 4).good = true ∨ (s.spareBank 4).good = true → ∃ u,
      exec .confirmWindowExpiry s = .next u ∧
        u.reg offSysMode = wd (0xC * 2 ^ 12 + s.mode * 2 ^ 8 + 1) ∧ u.cores = [] ∧ u.tasks = [] ∧ u.lanes = [] ∧ u.host = {} ∧
        u.rfld (offUpd 0) 35 32 = 3 ∧ u.rfld (offUpd 0) 31 27 = 0 ∧ u.pending = s.pending ∧
        (∀ c ∈ s.hoods, u.runBank c = s.spareBank c ∧ u.spareBank c = s.runBank c ∧
          u.reg (offVer c) = (s.spareBank c).header.getD 2 0) ∧
        (∀ c, c ∉ s.hoods → u.runBank c = s.runBank c ∧ u.spareBank c = s.spareBank c)) ∧
    (bit (s.reg offSysMode) 5 = false ∨ s.mode = 1 ∨ s.modes.inReset = true ∨ s.windowUsed < s.store.window →
      exec .confirmWindowExpiry s = .next s) ∧
    (∀ b : List Byte,
      let seq := leAt b 0 2
      let n := leAt b 2 2
      let good := b.length = n + 8 ∧ n ≤ 1020 ∧ n % 5 = 0 ∧ leAt b (n + 4) 4 = crc32c (b.take (n + 4))
      let reply := fun (code : Nat) (cause : List Nat) =>
        Msg.maintenance (unpackBytes 1 code ++ unpackBytes 2 seq ++ cause.flatMap (unpackBytes 1))
      (s.mode ≠ 0 ∨ s.modes.inReset = true → exec (.maintenanceFrame b) s = .next s) ∧
      (s.mode = 0 → s.modes.inReset = false →
        let want := s.store.mseq
        let again := good ∧ want ≠ 0 ∧ seq = (want - 1) % 65536
        (again → exec (.maintenanceFrame b) s = .next { s with outbox := s.outbox ++ [reply 0x06 []] }) ∧
        (¬again → ¬good ∨ seq ≠ want % 65536 →
          exec (.maintenanceFrame b) s = .next { s with outbox := s.outbox ++ [reply 0x15 []] }) ∧
        (¬again → good → seq = want % 65536 → n ≠ 0 → ∃ u, exec (.maintenanceFrame b) s = .next u ∧
          u.outbox = s.outbox ++ [reply 0x06 []] ∧ u = { s with outbox := u.outbox, store := u.store } ∧
          u.store = { s.store with recv := s.store.recv ++ words5 (n / 5) ((b.drop 4).take n), mseq := want + 1 }) ∧
        (¬again → good → seq = want % 65536 → n = 0 → ∃ u cause, exec (.maintenanceFrame b) s = .next u ∧
          u.outbox = s.outbox ++ [reply 0x06 [cause]] ∧ u.store.recv = [] ∧ u.store.mseq = 0 ∧
          u = { s with outbox := u.outbox, store := u.store, regs := u.regs } ∧
          (s.store.recv.length < 256 → cause = 1) ∧
          (cause ≠ 0 → u.store.running = s.store.running ∧ u.store.spare = s.store.spare) ∧
          (let c := fld (s.store.recv.getD 0 0) 27 20
           cause = 0 → u.runBank c = u.spareBank c ∧ (u.runBank c).header = s.store.recv.take 256 ∧
             u.reg (offVer c) = s.store.recv.getD 2 0))))

/-! ### Reset and the registers (R1, R4, R13, R26, R572, R574) -/

/-- The machine after reset: BOOT with PREV and CAUSE 0 and no transition, device time 0 and not loaded, every STO output
OPEN and Brim without a block, nothing in any stream, no task, lane, axis or cue in use, memory in its canonical form with
nothing listed, nothing waiting; and the registers at what their tables give. A register whose table states no reset value
reads 0 (the model's choice, assumption 9). The stores behind the state: a register, a core, a task, a lane, an axis, a
stream and a word of line memory each hold what was last put there, whatever the table that holds them, and one that is not
written keeps its value; line memory keeps its canonical form. -/
def Obligations.ResetState : Prop :=
  (let s := State.reset
   s.reg offSysMode = 1 ∧ s.pending = [] ∧ s.outbox = [] ∧ s.now = 0 ∧ s.cc = 0 ∧ s.rfld offTimeStat 3 0 = 0 ∧
   s.brimState = 0 ∧ (∀ k < 4, s.stoState k = 0) ∧ (∀ i < 45, s.stream i = {}) ∧ (∀ k, s.core k = {}) ∧
   (∀ n, (s.task n).st = .unused ∧ (s.lane n).enabled = false ∧ (s.axis n).st = .unconf ∧ (s.cue n).st ≠ .armed) ∧ s.forces = [] ∧
   s.role = 0 ∧ s.mem.words = [] ∧ s.mem.lines = [] ∧ s.mem.errs = [] ∧ s.mem.wf = true ∧ s.reg offTimeInc = 0x280000000 ∧
   s.reg offBlevel = 0x0101 ∧ s.rfld (offHist 0) 35 32 = 6 ∧ s.reg offTrigLat = 400 ∧ s.rfld (offUpd 1) 11 0 = 300 ∧
   (∀ t < 64, s.reg (offMask t) = 0xFFFF) ∧ (∀ p < 24, bit (s.reg (offPwm p 0)) 0 = false) ∧
   (∀ o < 16, bit (s.reg (offFout o 0)) 35 = false) ∧ (∀ p < 4, s.rfld (offCan p 3) 35 34 = 3) ∧ s.reg offCensusSeq = 0 ∧
   s.reg offConflictCount = 0 ∧ s.reg offEdgeLost = 0) ∧
  (∀ s : State,
     (∀ o v, (s.setReg o v).reg o = v ∧ (∀ p, p ≠ o → (s.setReg o v).reg p = s.reg p)) ∧
     (∀ k x, (s.setCore k x).core k = x ∧ (∀ j, j ≠ k → (s.setCore k x).core j = s.core j)) ∧
     (∀ n x, (s.setTask n x).task n = x ∧ (∀ j, j ≠ n → (s.setTask n x).task j = s.task j)) ∧
     (∀ n x, (s.setLane n x).lane n = x ∧ (∀ j, j ≠ n → (s.setLane n x).lane j = s.lane j)) ∧
     (∀ n x, (s.setAxis n x).axis n = x ∧ (∀ j, j ≠ n → (s.setAxis n x).axis j = s.axis j)) ∧
     (∀ n x, (s.setStream n x).stream n = x ∧ (∀ j, j ≠ n → (s.setStream n x).stream j = s.stream j)) ∧
     (∀ a w, ({ s with mem := s.mem.putWord a w } : State).word a = w ∧
       (∀ b, b ≠ a → ({ s with mem := s.mem.putWord a w } : State).word b = s.word b) ∧
       (s.mem.wf = true → (s.mem.putWord a w).wf = true)))
end

