-- ==== Sys2Proof/Laws/Tab.lean ====
section
/-! SUPPORT. The laws of sparse arrays: read after write, and that a write keeps the canonical form. -/

namespace Sys2Proof.Machine

@[simp] theorem Tab.get_nil {α : Type} (d : α) (k : Nat) : Tab.get d [] k = d := rfl

theorem Tab.get_erase_same {α : Type} (d : α) (t : Tab α) (k : Nat) : Tab.get d (Tab.erase t k) k = d := by
  induction t with
  | nil => rfl
  | cons e r ih =>
    obtain ⟨j, v⟩ := e
    by_cases h : j = k
    · simpa [Tab.erase, h] using ih
    · simpa [Tab.erase, h, Tab.get] using ih

theorem Tab.get_erase_other {α : Type} (d : α) (t : Tab α) {k j : Nat} (h : j ≠ k) :
    Tab.get d (Tab.erase t k) j = Tab.get d t j := by
  induction t with
  | nil => rfl
  | cons e r ih =>
    obtain ⟨i, v⟩ := e
    by_cases hi : i = k
    · have : i ≠ j := by omega
      simpa [Tab.erase, hi, Tab.get, h.symm] using ih
    · by_cases hj : i = j
      · simp [Tab.erase, Tab.get, hj, h]
      · have ih' : Tab.get d (List.filter (fun e => e.1 != k) r) j = Tab.get d r j := ih
        simp [Tab.erase, hi, Tab.get, hj, ih']

theorem Tab.mem_erase {α : Type} {t : Tab α} {k : Nat} {e : Nat × α} (h : e ∈ Tab.erase t k) : e ∈ t ∧ e.1 ≠ k := by
  simpa [Tab.erase] using h

theorem Tab.get_place_same {α : Type} (d : α) (k : Nat) (v : α) (t : Tab α) (h : ∀ e ∈ t, e.1 ≠ k) :
    Tab.get d (Tab.place k v t) k = v := by
  induction t with
  | nil => simp [Tab.place, Tab.get]
  | cons e r ih =>
    obtain ⟨j, w⟩ := e
    have hj : j ≠ k := h (j, w) (by simp)
    by_cases hk : k < j
    · simp [Tab.place, hk, Tab.get]
    · have := ih (fun e he => h e (by simp [he]))
      simp [Tab.place, hk, Tab.get, hj, this]

theorem Tab.get_place_other {α : Type} (d : α) {k j : Nat} (v : α) (t : Tab α) (h : j ≠ k) :
    Tab.get d (Tab.place k v t) j = Tab.get d t j := by
  induction t with
  | nil => simp [Tab.place, Tab.get, h.symm]
  | cons e r ih =>
    obtain ⟨i, w⟩ := e
    by_cases hk : k < i
    · simp [Tab.place, hk, Tab.get, h.symm]
    · by_cases hi : i = j
      · rw [Tab.place, if_neg hk]; simp [Tab.get, hi]
      · rw [Tab.place, if_neg hk]; simp [Tab.get, hi, ih]

/-- A read of the key just written. -/
@[simp] theorem Tab.get_put_same {α : Type} [DecidableEq α] (d : α) (t : Tab α) (k : Nat) (v : α) :
    Tab.get d (Tab.put d t k v) k = v := by
  unfold Tab.put
  split
  · next h => rw [h, Tab.get_erase_same]
  · exact Tab.get_place_same _ _ _ _ (fun e he => (Tab.mem_erase he).2)

/-- A write leaves every other key alone, whatever default the other key has. -/
theorem Tab.get_put_other {α : Type} [DecidableEq α] (d d' : α) (t : Tab α) {k j : Nat} (v : α) (h : j ≠ k) :
    Tab.get d' (Tab.put d t k v) j = Tab.get d' t j := by
  unfold Tab.put
  split
  · exact Tab.get_erase_other _ _ h
  · rw [Tab.get_place_other _ _ _ h, Tab.get_erase_other _ _ h]

/-- The canonical form, said entry by entry. -/
theorem Tab.wf_iff {α : Type} [DecidableEq α] (d : Nat → α) (t : Tab α) :
    Tab.wf d t = true ↔ t.Pairwise (fun a b => a.1 < b.1) ∧ ∀ e ∈ t, e.2 ≠ d e.1 := by
  induction t with
  | nil => simp [Tab.wf]
  | cons e r ih =>
    obtain ⟨k, v⟩ := e
    cases r with
    | nil => simp [Tab.wf]
    | cons e' r' =>
      obtain ⟨j, w⟩ := e'
      simp only [Tab.wf, Bool.and_eq_true, bne_iff_ne, ne_eq, decide_eq_true_eq, ih]
      constructor
      · rintro ⟨⟨h1, h2⟩, h3, h4⟩
        refine ⟨List.Pairwise.cons ?_ h3, ?_⟩
        · intro x hx
          rcases List.mem_cons.1 hx with rfl | hx
          · exact h2
          · exact lt_trans h2 ((List.pairwise_cons.1 h3).1 x hx)
        · intro x hx
          rcases List.mem_cons.1 hx with rfl | hx
          · exact h1
          · exact h4 x hx
      · rintro ⟨h1, h2⟩
        have h1' := List.pairwise_cons.1 h1
        exact ⟨⟨h2 (k, v) (by simp), h1'.1 (j, w) (by simp)⟩, h1'.2, fun x hx => h2 x (by simp [hx])⟩

theorem Tab.wf_erase {α : Type} [DecidableEq α] (d : Nat → α) (t : Tab α) (k : Nat) (h : Tab.wf d t = true) :
    Tab.wf d (Tab.erase t k) = true := by
  rw [Tab.wf_iff] at h ⊢
  exact ⟨h.1.filter _, fun e he => h.2 e (Tab.mem_erase he).1⟩

theorem Tab.mem_place {α : Type} {k : Nat} {v : α} {t : Tab α} {e : Nat × α} (h : e ∈ Tab.place k v t) :
    e = (k, v) ∨ e ∈ t := by
  induction t with
  | nil => simpa [Tab.place] using h
  | cons x r ih =>
    obtain ⟨j, w⟩ := x
    unfold Tab.place at h
    split at h
    · simpa using h
    · rcases List.mem_cons.1 h with h | h
      · exact Or.inr (by simp [h])
      · rcases ih h with h | h
        · exact Or.inl h
        · exact Or.inr (by simp [h])

theorem Tab.pairwise_place {α : Type} {k : Nat} {v : α} {t : Tab α}
    (h : t.Pairwise (fun a b => a.1 < b.1)) (hk : ∀ e ∈ t, e.1 ≠ k) :
    (Tab.place k v t).Pairwise (fun a b => a.1 < b.1) := by
  induction t with
  | nil => simp [Tab.place]
  | cons x r ih =>
    obtain ⟨j, w⟩ := x
    have h' := List.pairwise_cons.1 h
    have hj : j ≠ k := hk (j, w) (by simp)
    unfold Tab.place
    split
    · next hlt =>
      refine List.Pairwise.cons ?_ h
      intro e he
      rcases List.mem_cons.1 he with rfl | he
      · exact hlt
      · exact lt_trans hlt (h'.1 e he)
    · next hlt =>
      refine List.Pairwise.cons ?_ (ih h'.2 (fun e he => hk e (by simp [he])))
      intro e he
      rcases Tab.mem_place he with rfl | he
      · simp only; omega
      · exact h'.1 e he

/-- A write keeps the canonical form. -/
theorem Tab.wf_put {α : Type} [DecidableEq α] (d : Nat → α) (t : Tab α) (k : Nat) (v : α) (h : Tab.wf d t = true) :
    Tab.wf d (Tab.put (d k) t k v) = true := by
  unfold Tab.put
  split
  · exact Tab.wf_erase d t k h
  · next hv =>
    have he := (Tab.wf_iff d _).1 (Tab.wf_erase d t k h)
    rw [Tab.wf_iff]
    refine ⟨Tab.pairwise_place he.1 (fun e he => (Tab.mem_erase he).2), ?_⟩
    intro e hm
    rcases Tab.mem_place hm with rfl | hm
    · exact hv
    · exact he.2 e hm

theorem Tab.erase_erase {α : Type} (t : Tab α) (k : Nat) : Tab.erase (Tab.erase t k) k = Tab.erase t k := by
  simp [Tab.erase, List.filter_filter]

theorem Tab.erase_place {α : Type} (t : Tab α) (k : Nat) (v : α) : Tab.erase (Tab.place k v t) k = Tab.erase t k := by
  induction t with
  | nil => simp [Tab.place, Tab.erase]
  | cons e r ih =>
    obtain ⟨j, w⟩ := e
    by_cases hk : k < j
    · simp [Tab.place, hk, Tab.erase]
    · by_cases hj : j = k
      · simpa [Tab.place, hj, Tab.erase] using ih
      · simpa [Tab.place, hk, hj, Tab.erase] using ih

/-- The second of two writes to one key is the one that counts. -/
@[simp] theorem Tab.put_put {α : Type} [DecidableEq α] (d : α) (t : Tab α) (k : Nat) (v w : α) :
    Tab.put d (Tab.put d t k v) k w = Tab.put d t k w := by
  have h : Tab.erase (Tab.put d t k v) k = Tab.erase t k := by
    unfold Tab.put
    split
    · exact Tab.erase_erase t k
    · rw [Tab.erase_place, Tab.erase_erase]
  unfold Tab.put at h ⊢
  rw [h]

end Sys2Proof.Machine
end

