-- ==== Sys2Proof/Laws/Instr.lean ====
section
/-! SUPPORT. The frame of an instruction: what it does when its core is ready. -/

namespace Sys2Proof.Machine

@[simp] theorem core_setCore (s : State) (k : Nat) (x : Core) : (s.setCore k x).core k = x := by
  simp [State.core, State.setCore]

@[simp] theorem setCore_setCore (s : State) (k : Nat) (x y : Core) : (s.setCore k x).setCore k y = s.setCore k y := by
  simp [State.setCore]

theorem fetchPoison_of_clean {s : State} {k a : Nat} (h : s.fetchClean k a = true) : s.fetchPoison k a = (false, s) := by
  unfold State.fetchClean at h
  unfold State.fetchPoison
  split at h
  · next hk => simp_all [State.locRead]
  · next hk => simp_all [State.decode, State.poisoned]

/-- The parts of coreReady. -/
theorem coreReady_iff (c : CoreId) (s : State) : coreReady c s = true ↔
    s.runs (coreKey c) = true ∧ inCode (coreKey c) (s.core (coreKey c)).pc.toNat = true ∧
    s.fetchClean (coreKey c) (s.core (coreKey c)).pc.toNat = true ∧
    (∀ n, (s.core (coreKey c)).task = some n → (s.task n).wdog = false) ∧
    (coreKey c = 64 → ∀ p, s.host.prog = some p → p.count + 1 < 10000) := by
  unfold coreReady
  simp only [Bool.and_eq_true, and_assoc, Bool.or_eq_true, bne_iff_ne, ne_eq]
  constructor
  · rintro ⟨h1, h2, h3, h4, h5⟩
    refine ⟨h1, h2, h3, ?_, ?_⟩
    · intro n hn; rw [hn] at h4; simpa using h4
    · intro hk p hp
      rcases h5 with h5 | h5
      · exact absurd hk h5
      · rw [hp] at h5; simpa using h5
  · rintro ⟨h1, h2, h3, h4, h5⟩
    refine ⟨h1, h2, h3, ?_, ?_⟩
    · split
      · rfl
      · next n hn => simp [h4 n hn]
    · by_cases hk : coreKey c = 64
      · right
        split
        · rfl
        · next p hp => simp [h5 hk p hp]
      · exact Or.inl hk

/-- An instruction whose core is ready and whose fields are good comes to its body. -/
theorem runInstr_ready {c : CoreId} {w : Word} {bad : Bool} {body : Nat → State → Res} {s : State}
    (h : coreReady c s = true) (hb : bad = false) (ht : (leavesTile w || s.loadsRegs (coreKey c) w) = false ∨ s.twinRole (coreKey c) = none) :
    runInstr c w bad body s =
      .next (finishInstr (coreKey c) w (s.core (coreKey c)).pc none (s.core (coreKey c)) (body (coreKey c) s)) := by
  obtain ⟨h1, h2, h3, -, -⟩ := (coreReady_iff c s).1 h
  have ht' : (if leavesTile w || s.loadsRegs (coreKey c) w then s.twinRole (coreKey c) else none) = none := by
    rcases ht with ht | ht <;> simp [ht]
  simp only [Bool.or_eq_true] at ht'
  simp [runInstr, h1, h2, fetchPoison_of_clean h3, hb, ht']

/-- A field that must be zero and is not, or an undefined value: fault 0x06 (R149). -/
theorem runInstr_bad {c : CoreId} {w : Word} {bad : Bool} {body : Nat → State → Res} {s : State}
    (h : coreReady c s = true) (hb : bad = true) :
    runInstr c w bad body s = .next (s.takeFault (coreKey c) 0x06 0 w) := by
  obtain ⟨h1, h2, h3, -, -⟩ := (coreReady_iff c s).1 h
  simp [runInstr, h1, h2, fetchPoison_of_clean h3, hb]

/-- The end of an instruction that changed nothing but its core. -/
theorem advance_core {c : CoreId} {s : State} (h : coreReady c s = true) (x : Core) (pc : Word)
    (hx : x.task = (s.core (coreKey c)).task) :
    (s.setCore (coreKey c) x).advance (coreKey c) pc = s.instrEnd (coreKey c) { x with pc := pc } := by
  obtain ⟨h1, -, -, h4, h5⟩ := (coreReady_iff c s).1 h
  generalize hk : coreKey c = k at *
  have hw : ∀ t : State, (t.core k).task = x.task → t.tasks = s.tasks → t.watchdogBoundary k = t := by
    intro t h1 h2
    unfold State.watchdogBoundary
    split
    · rfl
    · next n hn =>
      have : (t.task n).wdog = false := by
        have := h4 n (by rw [← hx, ← h1, hn])
        simpa [State.task, h2] using this
      simp [this]
  have hp : ((s.setCore k x).setCore k { x with pc := pc }).programCount k = s.instrEnd k { x with pc := pc } := by
    unfold State.programCount State.instrEnd
    by_cases h64 : k = 64
    · split
      · next hn =>
        have hn : s.host.prog = none := hn
        simp only [h64, State.setCore, Tab.put_put, hn, Option.map_none, if_true]
        rw [← hn]
      · next p hp =>
        have hp : s.host.prog = some p := hp
        simp [h64, State.setCore, h5 h64 p hp, hp]
    · split
      · simp [h64, State.setCore]
      · simp [h64, State.setCore]
  unfold State.advance
  rw [core_setCore, hp]
  exact hw _ (by simp [State.instrEnd, State.core]) rfl

/-- A body that goes on having changed nothing but its core. -/
theorem runInstr_core {c : CoreId} {w : Word} {bad : Bool} {body : Nat → State → Res} {s : State} (x : Core)
    (h : coreReady c s = true) (hb : bad = false) (ht : (leavesTile w || s.loadsRegs (coreKey c) w) = false ∨ s.twinRole (coreKey c) = none)
    (he : body (coreKey c) s = .next (s.setCore (coreKey c) x)) (hx : x.task = (s.core (coreKey c)).task) :
    runInstr c w bad body s = .next (s.instrEnd (coreKey c) { x with pc := (s.core (coreKey c)).pc + 1 }) := by
  rw [runInstr_ready h hb ht, he]
  simp only [finishInstr]
  rw [advance_core h x _ hx]

/-- The same for a body that jumps. -/
theorem runInstr_jump {c : CoreId} {w : Word} {bad : Bool} {body : Nat → State → Res} {s : State} (x : Core) (a : Word)
    (h : coreReady c s = true) (hb : bad = false) (ht : (leavesTile w || s.loadsRegs (coreKey c) w) = false ∨ s.twinRole (coreKey c) = none)
    (he : body (coreKey c) s = .jump a (s.setCore (coreKey c) x)) (hx : x.task = (s.core (coreKey c)).task) :
    runInstr c w bad body s = .next (s.instrEnd (coreKey c) { x with pc := a }) := by
  rw [runInstr_ready h hb ht, he]
  simp only [finishInstr]
  rw [advance_core h x _ hx]

end Sys2Proof.Machine
end

