-- ==== Sys2Proof/Laws/State.lean ====
section
/-! SUPPORT. One law per field of State for every update of it: what was put is read back, and every other field stays. -/

namespace Sys2Proof.Machine

variable (s : State)


/-! ### setReg -/

@[simp] theorem setReg_reg (o : Nat) (v : Word) : (s.setReg o v).reg o = v := Tab.get_put_same _ _ _ _
theorem setReg_reg_ne (o : Nat) (v : Word) (j : Nat) (h : j ≠ o) : (s.setReg o v).reg j = s.reg j := Tab.get_put_other _ _ _ _ h
@[simp] theorem setReg_now (o : Nat) (v : Word) : (s.setReg o v).now = s.now := rfl
@[simp] theorem setReg_cc (o : Nat) (v : Word) : (s.setReg o v).cc = s.cc := rfl
@[simp] theorem setReg_prevNow (o : Nat) (v : Word) : (s.setReg o v).prevNow = s.prevNow := rfl
@[simp] theorem setReg_loadD (o : Nat) (v : Word) : (s.setReg o v).loadD = s.loadD := rfl
@[simp] theorem setReg_clocks (o : Nat) (v : Word) : (s.setReg o v).clocks = s.clocks := rfl
@[simp] theorem setReg_freqEst (o : Nat) (v : Word) : (s.setReg o v).freqEst = s.freqEst := rfl
@[simp] theorem setReg_jLast (o : Nat) (v : Word) : (s.setReg o v).jLast = s.jLast := rfl
@[simp] theorem setReg_conflicts (o : Nat) (v : Word) : (s.setReg o v).conflicts = s.conflicts := rfl
@[simp] theorem setReg_free (o : Nat) (v : Word) : (s.setReg o v).free = s.free := rfl
@[simp] theorem setReg_owners (o : Nat) (v : Word) : (s.setReg o v).owners = s.owners := rfl
@[simp] theorem setReg_mem (o : Nat) (v : Word) : (s.setReg o v).mem = s.mem := rfl
@[simp] theorem setReg_loc (o : Nat) (v : Word) : (s.setReg o v).loc = s.loc := rfl
@[simp] theorem setReg_spine (o : Nat) (v : Word) : (s.setReg o v).spine = s.spine := rfl
@[simp] theorem setReg_census (o : Nat) (v : Word) : (s.setReg o v).census = s.census := rfl
@[simp] theorem setReg_cores (o : Nat) (v : Word) : (s.setReg o v).cores = s.cores := rfl
@[simp] theorem setReg_tasks (o : Nat) (v : Word) : (s.setReg o v).tasks = s.tasks := rfl
@[simp] theorem setReg_sched (o : Nat) (v : Word) : (s.setReg o v).sched = s.sched := rfl
@[simp] theorem setReg_exch (o : Nat) (v : Word) : (s.setReg o v).exch = s.exch := rfl
@[simp] theorem setReg_coords (o : Nat) (v : Word) : (s.setReg o v).coords = s.coords := rfl
@[simp] theorem setReg_cues (o : Nat) (v : Word) : (s.setReg o v).cues = s.cues := rfl
@[simp] theorem setReg_actions (o : Nat) (v : Word) : (s.setReg o v).actions = s.actions := rfl
@[simp] theorem setReg_actionsDone (o : Nat) (v : Word) : (s.setReg o v).actionsDone = s.actionsDone := rfl
@[simp] theorem setReg_orders (o : Nat) (v : Word) : (s.setReg o v).orders = s.orders := rfl
@[simp] theorem setReg_lanes (o : Nat) (v : Word) : (s.setReg o v).lanes = s.lanes := rfl
@[simp] theorem setReg_lawLate (o : Nat) (v : Word) : (s.setReg o v).lawLate = s.lawLate := rfl
@[simp] theorem setReg_spGroups (o : Nat) (v : Word) : (s.setReg o v).spGroups = s.spGroups := rfl
@[simp] theorem setReg_axes (o : Nat) (v : Word) : (s.setReg o v).axes = s.axes := rfl
@[simp] theorem setReg_axGroups (o : Nat) (v : Word) : (s.setReg o v).axGroups = s.axGroups := rfl
@[simp] theorem setReg_steps (o : Nat) (v : Word) : (s.setReg o v).steps = s.steps := rfl
@[simp] theorem setReg_pwm (o : Nat) (v : Word) : (s.setReg o v).pwm = s.pwm := rfl
@[simp] theorem setReg_chops (o : Nat) (v : Word) : (s.setReg o v).chops = s.chops := rfl
@[simp] theorem setReg_trips (o : Nat) (v : Word) : (s.setReg o v).trips = s.trips := rfl
@[simp] theorem setReg_convs (o : Nat) (v : Word) : (s.setReg o v).convs = s.convs := rfl
@[simp] theorem setReg_ains (o : Nat) (v : Word) : (s.setReg o v).ains = s.ains := rfl
@[simp] theorem setReg_field (o : Nat) (v : Word) : (s.setReg o v).field = s.field := rfl
@[simp] theorem setReg_encs (o : Nat) (v : Word) : (s.setReg o v).encs = s.encs := rfl
@[simp] theorem setReg_rings (o : Nat) (v : Word) : (s.setReg o v).rings = s.rings := rfl
@[simp] theorem setReg_cans (o : Nat) (v : Word) : (s.setReg o v).cans = s.cans := rfl
@[simp] theorem setReg_mbxBufs (o : Nat) (v : Word) : (s.setReg o v).mbxBufs = s.mbxBufs := rfl
@[simp] theorem setReg_hist (o : Nat) (v : Word) : (s.setReg o v).hist = s.hist := rfl
@[simp] theorem setReg_caps (o : Nat) (v : Word) : (s.setReg o v).caps = s.caps := rfl
@[simp] theorem setReg_pulses (o : Nat) (v : Word) : (s.setReg o v).pulses = s.pulses := rfl
@[simp] theorem setReg_calAt (o : Nat) (v : Word) : (s.setReg o v).calAt = s.calAt := rfl
@[simp] theorem setReg_mirror (o : Nat) (v : Word) : (s.setReg o v).mirror = s.mirror := rfl
@[simp] theorem setReg_evr (o : Nat) (v : Word) : (s.setReg o v).evr = s.evr := rfl
@[simp] theorem setReg_brim (o : Nat) (v : Word) : (s.setReg o v).brim = s.brim := rfl
@[simp] theorem setReg_modes (o : Nat) (v : Word) : (s.setReg o v).modes = s.modes := rfl
@[simp] theorem setReg_store (o : Nat) (v : Word) : (s.setReg o v).store = s.store := rfl
@[simp] theorem setReg_peer (o : Nat) (v : Word) : (s.setReg o v).peer = s.peer := rfl
@[simp] theorem setReg_twins (o : Nat) (v : Word) : (s.setReg o v).twins = s.twins := rfl
@[simp] theorem setReg_host (o : Nat) (v : Word) : (s.setReg o v).host = s.host := rfl
@[simp] theorem setReg_outbox (o : Nat) (v : Word) : (s.setReg o v).outbox = s.outbox := rfl
@[simp] theorem setReg_pending (o : Nat) (v : Word) : (s.setReg o v).pending = s.pending := rfl

/-! ### setCore -/

@[simp] theorem setCore_core (k : Nat) (x : Core) : (s.setCore k x).core k = x := Tab.get_put_same _ _ _ _
theorem setCore_core_ne (k : Nat) (x : Core) (j : Nat) (h : j ≠ k) : (s.setCore k x).core j = s.core j := Tab.get_put_other _ _ _ _ h
@[simp] theorem setCore_now (k : Nat) (x : Core) : (s.setCore k x).now = s.now := rfl
@[simp] theorem setCore_cc (k : Nat) (x : Core) : (s.setCore k x).cc = s.cc := rfl
@[simp] theorem setCore_prevNow (k : Nat) (x : Core) : (s.setCore k x).prevNow = s.prevNow := rfl
@[simp] theorem setCore_loadD (k : Nat) (x : Core) : (s.setCore k x).loadD = s.loadD := rfl
@[simp] theorem setCore_clocks (k : Nat) (x : Core) : (s.setCore k x).clocks = s.clocks := rfl
@[simp] theorem setCore_freqEst (k : Nat) (x : Core) : (s.setCore k x).freqEst = s.freqEst := rfl
@[simp] theorem setCore_jLast (k : Nat) (x : Core) : (s.setCore k x).jLast = s.jLast := rfl
@[simp] theorem setCore_conflicts (k : Nat) (x : Core) : (s.setCore k x).conflicts = s.conflicts := rfl
@[simp] theorem setCore_free (k : Nat) (x : Core) : (s.setCore k x).free = s.free := rfl
@[simp] theorem setCore_regs (k : Nat) (x : Core) : (s.setCore k x).regs = s.regs := rfl
@[simp] theorem setCore_owners (k : Nat) (x : Core) : (s.setCore k x).owners = s.owners := rfl
@[simp] theorem setCore_mem (k : Nat) (x : Core) : (s.setCore k x).mem = s.mem := rfl
@[simp] theorem setCore_loc (k : Nat) (x : Core) : (s.setCore k x).loc = s.loc := rfl
@[simp] theorem setCore_spine (k : Nat) (x : Core) : (s.setCore k x).spine = s.spine := rfl
@[simp] theorem setCore_census (k : Nat) (x : Core) : (s.setCore k x).census = s.census := rfl
@[simp] theorem setCore_tasks (k : Nat) (x : Core) : (s.setCore k x).tasks = s.tasks := rfl
@[simp] theorem setCore_sched (k : Nat) (x : Core) : (s.setCore k x).sched = s.sched := rfl
@[simp] theorem setCore_exch (k : Nat) (x : Core) : (s.setCore k x).exch = s.exch := rfl
@[simp] theorem setCore_coords (k : Nat) (x : Core) : (s.setCore k x).coords = s.coords := rfl
@[simp] theorem setCore_cues (k : Nat) (x : Core) : (s.setCore k x).cues = s.cues := rfl
@[simp] theorem setCore_actions (k : Nat) (x : Core) : (s.setCore k x).actions = s.actions := rfl
@[simp] theorem setCore_actionsDone (k : Nat) (x : Core) : (s.setCore k x).actionsDone = s.actionsDone := rfl
@[simp] theorem setCore_orders (k : Nat) (x : Core) : (s.setCore k x).orders = s.orders := rfl
@[simp] theorem setCore_lanes (k : Nat) (x : Core) : (s.setCore k x).lanes = s.lanes := rfl
@[simp] theorem setCore_lawLate (k : Nat) (x : Core) : (s.setCore k x).lawLate = s.lawLate := rfl
@[simp] theorem setCore_spGroups (k : Nat) (x : Core) : (s.setCore k x).spGroups = s.spGroups := rfl
@[simp] theorem setCore_axes (k : Nat) (x : Core) : (s.setCore k x).axes = s.axes := rfl
@[simp] theorem setCore_axGroups (k : Nat) (x : Core) : (s.setCore k x).axGroups = s.axGroups := rfl
@[simp] theorem setCore_steps (k : Nat) (x : Core) : (s.setCore k x).steps = s.steps := rfl
@[simp] theorem setCore_pwm (k : Nat) (x : Core) : (s.setCore k x).pwm = s.pwm := rfl
@[simp] theorem setCore_chops (k : Nat) (x : Core) : (s.setCore k x).chops = s.chops := rfl
@[simp] theorem setCore_trips (k : Nat) (x : Core) : (s.setCore k x).trips = s.trips := rfl
@[simp] theorem setCore_convs (k : Nat) (x : Core) : (s.setCore k x).convs = s.convs := rfl
@[simp] theorem setCore_ains (k : Nat) (x : Core) : (s.setCore k x).ains = s.ains := rfl
@[simp] theorem setCore_field (k : Nat) (x : Core) : (s.setCore k x).field = s.field := rfl
@[simp] theorem setCore_encs (k : Nat) (x : Core) : (s.setCore k x).encs = s.encs := rfl
@[simp] theorem setCore_rings (k : Nat) (x : Core) : (s.setCore k x).rings = s.rings := rfl
@[simp] theorem setCore_cans (k : Nat) (x : Core) : (s.setCore k x).cans = s.cans := rfl
@[simp] theorem setCore_mbxBufs (k : Nat) (x : Core) : (s.setCore k x).mbxBufs = s.mbxBufs := rfl
@[simp] theorem setCore_hist (k : Nat) (x : Core) : (s.setCore k x).hist = s.hist := rfl
@[simp] theorem setCore_caps (k : Nat) (x : Core) : (s.setCore k x).caps = s.caps := rfl
@[simp] theorem setCore_pulses (k : Nat) (x : Core) : (s.setCore k x).pulses = s.pulses := rfl
@[simp] theorem setCore_calAt (k : Nat) (x : Core) : (s.setCore k x).calAt = s.calAt := rfl
@[simp] theorem setCore_mirror (k : Nat) (x : Core) : (s.setCore k x).mirror = s.mirror := rfl
@[simp] theorem setCore_evr (k : Nat) (x : Core) : (s.setCore k x).evr = s.evr := rfl
@[simp] theorem setCore_brim (k : Nat) (x : Core) : (s.setCore k x).brim = s.brim := rfl
@[simp] theorem setCore_modes (k : Nat) (x : Core) : (s.setCore k x).modes = s.modes := rfl
@[simp] theorem setCore_store (k : Nat) (x : Core) : (s.setCore k x).store = s.store := rfl
@[simp] theorem setCore_peer (k : Nat) (x : Core) : (s.setCore k x).peer = s.peer := rfl
@[simp] theorem setCore_twins (k : Nat) (x : Core) : (s.setCore k x).twins = s.twins := rfl
@[simp] theorem setCore_host (k : Nat) (x : Core) : (s.setCore k x).host = s.host := rfl
@[simp] theorem setCore_outbox (k : Nat) (x : Core) : (s.setCore k x).outbox = s.outbox := rfl
@[simp] theorem setCore_pending (k : Nat) (x : Core) : (s.setCore k x).pending = s.pending := rfl

/-! ### setTask -/

@[simp] theorem setTask_task (n : Nat) (x : Task) : (s.setTask n x).task n = x := Tab.get_put_same _ _ _ _
theorem setTask_task_ne (n : Nat) (x : Task) (j : Nat) (h : j ≠ n) : (s.setTask n x).task j = s.task j := Tab.get_put_other _ _ _ _ h
@[simp] theorem setTask_now (n : Nat) (x : Task) : (s.setTask n x).now = s.now := rfl
@[simp] theorem setTask_cc (n : Nat) (x : Task) : (s.setTask n x).cc = s.cc := rfl
@[simp] theorem setTask_prevNow (n : Nat) (x : Task) : (s.setTask n x).prevNow = s.prevNow := rfl
@[simp] theorem setTask_loadD (n : Nat) (x : Task) : (s.setTask n x).loadD = s.loadD := rfl
@[simp] theorem setTask_clocks (n : Nat) (x : Task) : (s.setTask n x).clocks = s.clocks := rfl
@[simp] theorem setTask_freqEst (n : Nat) (x : Task) : (s.setTask n x).freqEst = s.freqEst := rfl
@[simp] theorem setTask_jLast (n : Nat) (x : Task) : (s.setTask n x).jLast = s.jLast := rfl
@[simp] theorem setTask_conflicts (n : Nat) (x : Task) : (s.setTask n x).conflicts = s.conflicts := rfl
@[simp] theorem setTask_free (n : Nat) (x : Task) : (s.setTask n x).free = s.free := rfl
@[simp] theorem setTask_regs (n : Nat) (x : Task) : (s.setTask n x).regs = s.regs := rfl
@[simp] theorem setTask_owners (n : Nat) (x : Task) : (s.setTask n x).owners = s.owners := rfl
@[simp] theorem setTask_mem (n : Nat) (x : Task) : (s.setTask n x).mem = s.mem := rfl
@[simp] theorem setTask_loc (n : Nat) (x : Task) : (s.setTask n x).loc = s.loc := rfl
@[simp] theorem setTask_spine (n : Nat) (x : Task) : (s.setTask n x).spine = s.spine := rfl
@[simp] theorem setTask_census (n : Nat) (x : Task) : (s.setTask n x).census = s.census := rfl
@[simp] theorem setTask_cores (n : Nat) (x : Task) : (s.setTask n x).cores = s.cores := rfl
@[simp] theorem setTask_sched (n : Nat) (x : Task) : (s.setTask n x).sched = s.sched := rfl
@[simp] theorem setTask_exch (n : Nat) (x : Task) : (s.setTask n x).exch = s.exch := rfl
@[simp] theorem setTask_coords (n : Nat) (x : Task) : (s.setTask n x).coords = s.coords := rfl
@[simp] theorem setTask_cues (n : Nat) (x : Task) : (s.setTask n x).cues = s.cues := rfl
@[simp] theorem setTask_actions (n : Nat) (x : Task) : (s.setTask n x).actions = s.actions := rfl
@[simp] theorem setTask_actionsDone (n : Nat) (x : Task) : (s.setTask n x).actionsDone = s.actionsDone := rfl
@[simp] theorem setTask_orders (n : Nat) (x : Task) : (s.setTask n x).orders = s.orders := rfl
@[simp] theorem setTask_lanes (n : Nat) (x : Task) : (s.setTask n x).lanes = s.lanes := rfl
@[simp] theorem setTask_lawLate (n : Nat) (x : Task) : (s.setTask n x).lawLate = s.lawLate := rfl
@[simp] theorem setTask_spGroups (n : Nat) (x : Task) : (s.setTask n x).spGroups = s.spGroups := rfl
@[simp] theorem setTask_axes (n : Nat) (x : Task) : (s.setTask n x).axes = s.axes := rfl
@[simp] theorem setTask_axGroups (n : Nat) (x : Task) : (s.setTask n x).axGroups = s.axGroups := rfl
@[simp] theorem setTask_steps (n : Nat) (x : Task) : (s.setTask n x).steps = s.steps := rfl
@[simp] theorem setTask_pwm (n : Nat) (x : Task) : (s.setTask n x).pwm = s.pwm := rfl
@[simp] theorem setTask_chops (n : Nat) (x : Task) : (s.setTask n x).chops = s.chops := rfl
@[simp] theorem setTask_trips (n : Nat) (x : Task) : (s.setTask n x).trips = s.trips := rfl
@[simp] theorem setTask_convs (n : Nat) (x : Task) : (s.setTask n x).convs = s.convs := rfl
@[simp] theorem setTask_ains (n : Nat) (x : Task) : (s.setTask n x).ains = s.ains := rfl
@[simp] theorem setTask_field (n : Nat) (x : Task) : (s.setTask n x).field = s.field := rfl
@[simp] theorem setTask_encs (n : Nat) (x : Task) : (s.setTask n x).encs = s.encs := rfl
@[simp] theorem setTask_rings (n : Nat) (x : Task) : (s.setTask n x).rings = s.rings := rfl
@[simp] theorem setTask_cans (n : Nat) (x : Task) : (s.setTask n x).cans = s.cans := rfl
@[simp] theorem setTask_mbxBufs (n : Nat) (x : Task) : (s.setTask n x).mbxBufs = s.mbxBufs := rfl
@[simp] theorem setTask_hist (n : Nat) (x : Task) : (s.setTask n x).hist = s.hist := rfl
@[simp] theorem setTask_caps (n : Nat) (x : Task) : (s.setTask n x).caps = s.caps := rfl
@[simp] theorem setTask_pulses (n : Nat) (x : Task) : (s.setTask n x).pulses = s.pulses := rfl
@[simp] theorem setTask_calAt (n : Nat) (x : Task) : (s.setTask n x).calAt = s.calAt := rfl
@[simp] theorem setTask_mirror (n : Nat) (x : Task) : (s.setTask n x).mirror = s.mirror := rfl
@[simp] theorem setTask_evr (n : Nat) (x : Task) : (s.setTask n x).evr = s.evr := rfl
@[simp] theorem setTask_brim (n : Nat) (x : Task) : (s.setTask n x).brim = s.brim := rfl
@[simp] theorem setTask_modes (n : Nat) (x : Task) : (s.setTask n x).modes = s.modes := rfl
@[simp] theorem setTask_store (n : Nat) (x : Task) : (s.setTask n x).store = s.store := rfl
@[simp] theorem setTask_peer (n : Nat) (x : Task) : (s.setTask n x).peer = s.peer := rfl
@[simp] theorem setTask_twins (n : Nat) (x : Task) : (s.setTask n x).twins = s.twins := rfl
@[simp] theorem setTask_host (n : Nat) (x : Task) : (s.setTask n x).host = s.host := rfl
@[simp] theorem setTask_outbox (n : Nat) (x : Task) : (s.setTask n x).outbox = s.outbox := rfl
@[simp] theorem setTask_pending (n : Nat) (x : Task) : (s.setTask n x).pending = s.pending := rfl

/-! ### setLane -/

@[simp] theorem setLane_lane (n : Nat) (x : Lane) : (s.setLane n x).lane n = x := Tab.get_put_same _ _ _ _
theorem setLane_lane_ne (n : Nat) (x : Lane) (j : Nat) (h : j ≠ n) : (s.setLane n x).lane j = s.lane j := Tab.get_put_other _ _ _ _ h
@[simp] theorem setLane_now (n : Nat) (x : Lane) : (s.setLane n x).now = s.now := rfl
@[simp] theorem setLane_cc (n : Nat) (x : Lane) : (s.setLane n x).cc = s.cc := rfl
@[simp] theorem setLane_prevNow (n : Nat) (x : Lane) : (s.setLane n x).prevNow = s.prevNow := rfl
@[simp] theorem setLane_loadD (n : Nat) (x : Lane) : (s.setLane n x).loadD = s.loadD := rfl
@[simp] theorem setLane_clocks (n : Nat) (x : Lane) : (s.setLane n x).clocks = s.clocks := rfl
@[simp] theorem setLane_freqEst (n : Nat) (x : Lane) : (s.setLane n x).freqEst = s.freqEst := rfl
@[simp] theorem setLane_jLast (n : Nat) (x : Lane) : (s.setLane n x).jLast = s.jLast := rfl
@[simp] theorem setLane_conflicts (n : Nat) (x : Lane) : (s.setLane n x).conflicts = s.conflicts := rfl
@[simp] theorem setLane_free (n : Nat) (x : Lane) : (s.setLane n x).free = s.free := rfl
@[simp] theorem setLane_regs (n : Nat) (x : Lane) : (s.setLane n x).regs = s.regs := rfl
@[simp] theorem setLane_owners (n : Nat) (x : Lane) : (s.setLane n x).owners = s.owners := rfl
@[simp] theorem setLane_mem (n : Nat) (x : Lane) : (s.setLane n x).mem = s.mem := rfl
@[simp] theorem setLane_loc (n : Nat) (x : Lane) : (s.setLane n x).loc = s.loc := rfl
@[simp] theorem setLane_spine (n : Nat) (x : Lane) : (s.setLane n x).spine = s.spine := rfl
@[simp] theorem setLane_census (n : Nat) (x : Lane) : (s.setLane n x).census = s.census := rfl
@[simp] theorem setLane_cores (n : Nat) (x : Lane) : (s.setLane n x).cores = s.cores := rfl
@[simp] theorem setLane_tasks (n : Nat) (x : Lane) : (s.setLane n x).tasks = s.tasks := rfl
@[simp] theorem setLane_sched (n : Nat) (x : Lane) : (s.setLane n x).sched = s.sched := rfl
@[simp] theorem setLane_exch (n : Nat) (x : Lane) : (s.setLane n x).exch = s.exch := rfl
@[simp] theorem setLane_coords (n : Nat) (x : Lane) : (s.setLane n x).coords = s.coords := rfl
@[simp] theorem setLane_cues (n : Nat) (x : Lane) : (s.setLane n x).cues = s.cues := rfl
@[simp] theorem setLane_actions (n : Nat) (x : Lane) : (s.setLane n x).actions = s.actions := rfl
@[simp] theorem setLane_actionsDone (n : Nat) (x : Lane) : (s.setLane n x).actionsDone = s.actionsDone := rfl
@[simp] theorem setLane_orders (n : Nat) (x : Lane) : (s.setLane n x).orders = s.orders := rfl
@[simp] theorem setLane_lawLate (n : Nat) (x : Lane) : (s.setLane n x).lawLate = s.lawLate := rfl
@[simp] theorem setLane_spGroups (n : Nat) (x : Lane) : (s.setLane n x).spGroups = s.spGroups := rfl
@[simp] theorem setLane_axes (n : Nat) (x : Lane) : (s.setLane n x).axes = s.axes := rfl
@[simp] theorem setLane_axGroups (n : Nat) (x : Lane) : (s.setLane n x).axGroups = s.axGroups := rfl
@[simp] theorem setLane_steps (n : Nat) (x : Lane) : (s.setLane n x).steps = s.steps := rfl
@[simp] theorem setLane_pwm (n : Nat) (x : Lane) : (s.setLane n x).pwm = s.pwm := rfl
@[simp] theorem setLane_chops (n : Nat) (x : Lane) : (s.setLane n x).chops = s.chops := rfl
@[simp] theorem setLane_trips (n : Nat) (x : Lane) : (s.setLane n x).trips = s.trips := rfl
@[simp] theorem setLane_convs (n : Nat) (x : Lane) : (s.setLane n x).convs = s.convs := rfl
@[simp] theorem setLane_ains (n : Nat) (x : Lane) : (s.setLane n x).ains = s.ains := rfl
@[simp] theorem setLane_field (n : Nat) (x : Lane) : (s.setLane n x).field = s.field := rfl
@[simp] theorem setLane_encs (n : Nat) (x : Lane) : (s.setLane n x).encs = s.encs := rfl
@[simp] theorem setLane_rings (n : Nat) (x : Lane) : (s.setLane n x).rings = s.rings := rfl
@[simp] theorem setLane_cans (n : Nat) (x : Lane) : (s.setLane n x).cans = s.cans := rfl
@[simp] theorem setLane_mbxBufs (n : Nat) (x : Lane) : (s.setLane n x).mbxBufs = s.mbxBufs := rfl
@[simp] theorem setLane_hist (n : Nat) (x : Lane) : (s.setLane n x).hist = s.hist := rfl
@[simp] theorem setLane_caps (n : Nat) (x : Lane) : (s.setLane n x).caps = s.caps := rfl
@[simp] theorem setLane_pulses (n : Nat) (x : Lane) : (s.setLane n x).pulses = s.pulses := rfl
@[simp] theorem setLane_calAt (n : Nat) (x : Lane) : (s.setLane n x).calAt = s.calAt := rfl
@[simp] theorem setLane_mirror (n : Nat) (x : Lane) : (s.setLane n x).mirror = s.mirror := rfl
@[simp] theorem setLane_evr (n : Nat) (x : Lane) : (s.setLane n x).evr = s.evr := rfl
@[simp] theorem setLane_brim (n : Nat) (x : Lane) : (s.setLane n x).brim = s.brim := rfl
@[simp] theorem setLane_modes (n : Nat) (x : Lane) : (s.setLane n x).modes = s.modes := rfl
@[simp] theorem setLane_store (n : Nat) (x : Lane) : (s.setLane n x).store = s.store := rfl
@[simp] theorem setLane_peer (n : Nat) (x : Lane) : (s.setLane n x).peer = s.peer := rfl
@[simp] theorem setLane_twins (n : Nat) (x : Lane) : (s.setLane n x).twins = s.twins := rfl
@[simp] theorem setLane_host (n : Nat) (x : Lane) : (s.setLane n x).host = s.host := rfl
@[simp] theorem setLane_outbox (n : Nat) (x : Lane) : (s.setLane n x).outbox = s.outbox := rfl
@[simp] theorem setLane_pending (n : Nat) (x : Lane) : (s.setLane n x).pending = s.pending := rfl

/-! ### setAxis -/

@[simp] theorem setAxis_axis (n : Nat) (x : Axis) : (s.setAxis n x).axis n = x := Tab.get_put_same _ _ _ _
theorem setAxis_axis_ne (n : Nat) (x : Axis) (j : Nat) (h : j ≠ n) : (s.setAxis n x).axis j = s.axis j := Tab.get_put_other _ _ _ _ h
@[simp] theorem setAxis_now (n : Nat) (x : Axis) : (s.setAxis n x).now = s.now := rfl
@[simp] theorem setAxis_cc (n : Nat) (x : Axis) : (s.setAxis n x).cc = s.cc := rfl
@[simp] theorem setAxis_prevNow (n : Nat) (x : Axis) : (s.setAxis n x).prevNow = s.prevNow := rfl
@[simp] theorem setAxis_loadD (n : Nat) (x : Axis) : (s.setAxis n x).loadD = s.loadD := rfl
@[simp] theorem setAxis_clocks (n : Nat) (x : Axis) : (s.setAxis n x).clocks = s.clocks := rfl
@[simp] theorem setAxis_freqEst (n : Nat) (x : Axis) : (s.setAxis n x).freqEst = s.freqEst := rfl
@[simp] theorem setAxis_jLast (n : Nat) (x : Axis) : (s.setAxis n x).jLast = s.jLast := rfl
@[simp] theorem setAxis_conflicts (n : Nat) (x : Axis) : (s.setAxis n x).conflicts = s.conflicts := rfl
@[simp] theorem setAxis_free (n : Nat) (x : Axis) : (s.setAxis n x).free = s.free := rfl
@[simp] theorem setAxis_regs (n : Nat) (x : Axis) : (s.setAxis n x).regs = s.regs := rfl
@[simp] theorem setAxis_owners (n : Nat) (x : Axis) : (s.setAxis n x).owners = s.owners := rfl
@[simp] theorem setAxis_mem (n : Nat) (x : Axis) : (s.setAxis n x).mem = s.mem := rfl
@[simp] theorem setAxis_loc (n : Nat) (x : Axis) : (s.setAxis n x).loc = s.loc := rfl
@[simp] theorem setAxis_spine (n : Nat) (x : Axis) : (s.setAxis n x).spine = s.spine := rfl
@[simp] theorem setAxis_census (n : Nat) (x : Axis) : (s.setAxis n x).census = s.census := rfl
@[simp] theorem setAxis_cores (n : Nat) (x : Axis) : (s.setAxis n x).cores = s.cores := rfl
@[simp] theorem setAxis_tasks (n : Nat) (x : Axis) : (s.setAxis n x).tasks = s.tasks := rfl
@[simp] theorem setAxis_sched (n : Nat) (x : Axis) : (s.setAxis n x).sched = s.sched := rfl
@[simp] theorem setAxis_exch (n : Nat) (x : Axis) : (s.setAxis n x).exch = s.exch := rfl
@[simp] theorem setAxis_coords (n : Nat) (x : Axis) : (s.setAxis n x).coords = s.coords := rfl
@[simp] theorem setAxis_cues (n : Nat) (x : Axis) : (s.setAxis n x).cues = s.cues := rfl
@[simp] theorem setAxis_actions (n : Nat) (x : Axis) : (s.setAxis n x).actions = s.actions := rfl
@[simp] theorem setAxis_actionsDone (n : Nat) (x : Axis) : (s.setAxis n x).actionsDone = s.actionsDone := rfl
@[simp] theorem setAxis_orders (n : Nat) (x : Axis) : (s.setAxis n x).orders = s.orders := rfl
@[simp] theorem setAxis_lanes (n : Nat) (x : Axis) : (s.setAxis n x).lanes = s.lanes := rfl
@[simp] theorem setAxis_lawLate (n : Nat) (x : Axis) : (s.setAxis n x).lawLate = s.lawLate := rfl
@[simp] theorem setAxis_spGroups (n : Nat) (x : Axis) : (s.setAxis n x).spGroups = s.spGroups := rfl
@[simp] theorem setAxis_axGroups (n : Nat) (x : Axis) : (s.setAxis n x).axGroups = s.axGroups := rfl
@[simp] theorem setAxis_steps (n : Nat) (x : Axis) : (s.setAxis n x).steps = s.steps := rfl
@[simp] theorem setAxis_pwm (n : Nat) (x : Axis) : (s.setAxis n x).pwm = s.pwm := rfl
@[simp] theorem setAxis_chops (n : Nat) (x : Axis) : (s.setAxis n x).chops = s.chops := rfl
@[simp] theorem setAxis_trips (n : Nat) (x : Axis) : (s.setAxis n x).trips = s.trips := rfl
@[simp] theorem setAxis_convs (n : Nat) (x : Axis) : (s.setAxis n x).convs = s.convs := rfl
@[simp] theorem setAxis_ains (n : Nat) (x : Axis) : (s.setAxis n x).ains = s.ains := rfl
@[simp] theorem setAxis_field (n : Nat) (x : Axis) : (s.setAxis n x).field = s.field := rfl
@[simp] theorem setAxis_encs (n : Nat) (x : Axis) : (s.setAxis n x).encs = s.encs := rfl
@[simp] theorem setAxis_rings (n : Nat) (x : Axis) : (s.setAxis n x).rings = s.rings := rfl
@[simp] theorem setAxis_cans (n : Nat) (x : Axis) : (s.setAxis n x).cans = s.cans := rfl
@[simp] theorem setAxis_mbxBufs (n : Nat) (x : Axis) : (s.setAxis n x).mbxBufs = s.mbxBufs := rfl
@[simp] theorem setAxis_hist (n : Nat) (x : Axis) : (s.setAxis n x).hist = s.hist := rfl
@[simp] theorem setAxis_caps (n : Nat) (x : Axis) : (s.setAxis n x).caps = s.caps := rfl
@[simp] theorem setAxis_pulses (n : Nat) (x : Axis) : (s.setAxis n x).pulses = s.pulses := rfl
@[simp] theorem setAxis_calAt (n : Nat) (x : Axis) : (s.setAxis n x).calAt = s.calAt := rfl
@[simp] theorem setAxis_mirror (n : Nat) (x : Axis) : (s.setAxis n x).mirror = s.mirror := rfl
@[simp] theorem setAxis_evr (n : Nat) (x : Axis) : (s.setAxis n x).evr = s.evr := rfl
@[simp] theorem setAxis_brim (n : Nat) (x : Axis) : (s.setAxis n x).brim = s.brim := rfl
@[simp] theorem setAxis_modes (n : Nat) (x : Axis) : (s.setAxis n x).modes = s.modes := rfl
@[simp] theorem setAxis_store (n : Nat) (x : Axis) : (s.setAxis n x).store = s.store := rfl
@[simp] theorem setAxis_peer (n : Nat) (x : Axis) : (s.setAxis n x).peer = s.peer := rfl
@[simp] theorem setAxis_twins (n : Nat) (x : Axis) : (s.setAxis n x).twins = s.twins := rfl
@[simp] theorem setAxis_host (n : Nat) (x : Axis) : (s.setAxis n x).host = s.host := rfl
@[simp] theorem setAxis_outbox (n : Nat) (x : Axis) : (s.setAxis n x).outbox = s.outbox := rfl
@[simp] theorem setAxis_pending (n : Nat) (x : Axis) : (s.setAxis n x).pending = s.pending := rfl

/-! ### setStream -/

@[simp] theorem setStream_stream (n : Nat) (x : Stream) : (s.setStream n x).stream n = x := Tab.get_put_same _ _ _ _
theorem setStream_stream_ne (n : Nat) (x : Stream) (j : Nat) (h : j ≠ n) : (s.setStream n x).stream j = s.stream j := Tab.get_put_other _ _ _ _ h
@[simp] theorem setStream_now (n : Nat) (x : Stream) : (s.setStream n x).now = s.now := rfl
@[simp] theorem setStream_cc (n : Nat) (x : Stream) : (s.setStream n x).cc = s.cc := rfl
@[simp] theorem setStream_prevNow (n : Nat) (x : Stream) : (s.setStream n x).prevNow = s.prevNow := rfl
@[simp] theorem setStream_loadD (n : Nat) (x : Stream) : (s.setStream n x).loadD = s.loadD := rfl
@[simp] theorem setStream_clocks (n : Nat) (x : Stream) : (s.setStream n x).clocks = s.clocks := rfl
@[simp] theorem setStream_freqEst (n : Nat) (x : Stream) : (s.setStream n x).freqEst = s.freqEst := rfl
@[simp] theorem setStream_jLast (n : Nat) (x : Stream) : (s.setStream n x).jLast = s.jLast := rfl
@[simp] theorem setStream_conflicts (n : Nat) (x : Stream) : (s.setStream n x).conflicts = s.conflicts := rfl
@[simp] theorem setStream_free (n : Nat) (x : Stream) : (s.setStream n x).free = s.free := rfl
@[simp] theorem setStream_regs (n : Nat) (x : Stream) : (s.setStream n x).regs = s.regs := rfl
@[simp] theorem setStream_owners (n : Nat) (x : Stream) : (s.setStream n x).owners = s.owners := rfl
@[simp] theorem setStream_mem (n : Nat) (x : Stream) : (s.setStream n x).mem = s.mem := rfl
@[simp] theorem setStream_loc (n : Nat) (x : Stream) : (s.setStream n x).loc = s.loc := rfl
@[simp] theorem setStream_spine (n : Nat) (x : Stream) : (s.setStream n x).spine = s.spine := rfl
@[simp] theorem setStream_cores (n : Nat) (x : Stream) : (s.setStream n x).cores = s.cores := rfl
@[simp] theorem setStream_tasks (n : Nat) (x : Stream) : (s.setStream n x).tasks = s.tasks := rfl
@[simp] theorem setStream_sched (n : Nat) (x : Stream) : (s.setStream n x).sched = s.sched := rfl
@[simp] theorem setStream_exch (n : Nat) (x : Stream) : (s.setStream n x).exch = s.exch := rfl
@[simp] theorem setStream_coords (n : Nat) (x : Stream) : (s.setStream n x).coords = s.coords := rfl
@[simp] theorem setStream_cues (n : Nat) (x : Stream) : (s.setStream n x).cues = s.cues := rfl
@[simp] theorem setStream_actions (n : Nat) (x : Stream) : (s.setStream n x).actions = s.actions := rfl
@[simp] theorem setStream_actionsDone (n : Nat) (x : Stream) : (s.setStream n x).actionsDone = s.actionsDone := rfl
@[simp] theorem setStream_orders (n : Nat) (x : Stream) : (s.setStream n x).orders = s.orders := rfl
@[simp] theorem setStream_lanes (n : Nat) (x : Stream) : (s.setStream n x).lanes = s.lanes := rfl
@[simp] theorem setStream_lawLate (n : Nat) (x : Stream) : (s.setStream n x).lawLate = s.lawLate := rfl
@[simp] theorem setStream_spGroups (n : Nat) (x : Stream) : (s.setStream n x).spGroups = s.spGroups := rfl
@[simp] theorem setStream_axes (n : Nat) (x : Stream) : (s.setStream n x).axes = s.axes := rfl
@[simp] theorem setStream_axGroups (n : Nat) (x : Stream) : (s.setStream n x).axGroups = s.axGroups := rfl
@[simp] theorem setStream_steps (n : Nat) (x : Stream) : (s.setStream n x).steps = s.steps := rfl
@[simp] theorem setStream_pwm (n : Nat) (x : Stream) : (s.setStream n x).pwm = s.pwm := rfl
@[simp] theorem setStream_chops (n : Nat) (x : Stream) : (s.setStream n x).chops = s.chops := rfl
@[simp] theorem setStream_trips (n : Nat) (x : Stream) : (s.setStream n x).trips = s.trips := rfl
@[simp] theorem setStream_convs (n : Nat) (x : Stream) : (s.setStream n x).convs = s.convs := rfl
@[simp] theorem setStream_ains (n : Nat) (x : Stream) : (s.setStream n x).ains = s.ains := rfl
@[simp] theorem setStream_field (n : Nat) (x : Stream) : (s.setStream n x).field = s.field := rfl
@[simp] theorem setStream_encs (n : Nat) (x : Stream) : (s.setStream n x).encs = s.encs := rfl
@[simp] theorem setStream_rings (n : Nat) (x : Stream) : (s.setStream n x).rings = s.rings := rfl
@[simp] theorem setStream_cans (n : Nat) (x : Stream) : (s.setStream n x).cans = s.cans := rfl
@[simp] theorem setStream_mbxBufs (n : Nat) (x : Stream) : (s.setStream n x).mbxBufs = s.mbxBufs := rfl
@[simp] theorem setStream_hist (n : Nat) (x : Stream) : (s.setStream n x).hist = s.hist := rfl
@[simp] theorem setStream_caps (n : Nat) (x : Stream) : (s.setStream n x).caps = s.caps := rfl
@[simp] theorem setStream_pulses (n : Nat) (x : Stream) : (s.setStream n x).pulses = s.pulses := rfl
@[simp] theorem setStream_calAt (n : Nat) (x : Stream) : (s.setStream n x).calAt = s.calAt := rfl
@[simp] theorem setStream_mirror (n : Nat) (x : Stream) : (s.setStream n x).mirror = s.mirror := rfl
@[simp] theorem setStream_evr (n : Nat) (x : Stream) : (s.setStream n x).evr = s.evr := rfl
@[simp] theorem setStream_brim (n : Nat) (x : Stream) : (s.setStream n x).brim = s.brim := rfl
@[simp] theorem setStream_modes (n : Nat) (x : Stream) : (s.setStream n x).modes = s.modes := rfl
@[simp] theorem setStream_store (n : Nat) (x : Stream) : (s.setStream n x).store = s.store := rfl
@[simp] theorem setStream_peer (n : Nat) (x : Stream) : (s.setStream n x).peer = s.peer := rfl
@[simp] theorem setStream_twins (n : Nat) (x : Stream) : (s.setStream n x).twins = s.twins := rfl
@[simp] theorem setStream_host (n : Nat) (x : Stream) : (s.setStream n x).host = s.host := rfl
@[simp] theorem setStream_outbox (n : Nat) (x : Stream) : (s.setStream n x).outbox = s.outbox := rfl
@[simp] theorem setStream_pending (n : Nat) (x : Stream) : (s.setStream n x).pending = s.pending := rfl

/-! ### setRing -/

@[simp] theorem setRing_ring (n : Nat) (x : Ring) : (s.setRing n x).ring n = x := Tab.get_put_same _ _ _ _
theorem setRing_ring_ne (n : Nat) (x : Ring) (j : Nat) (h : j ≠ n) : (s.setRing n x).ring j = s.ring j := Tab.get_put_other _ _ _ _ h
@[simp] theorem setRing_now (n : Nat) (x : Ring) : (s.setRing n x).now = s.now := rfl
@[simp] theorem setRing_cc (n : Nat) (x : Ring) : (s.setRing n x).cc = s.cc := rfl
@[simp] theorem setRing_prevNow (n : Nat) (x : Ring) : (s.setRing n x).prevNow = s.prevNow := rfl
@[simp] theorem setRing_loadD (n : Nat) (x : Ring) : (s.setRing n x).loadD = s.loadD := rfl
@[simp] theorem setRing_clocks (n : Nat) (x : Ring) : (s.setRing n x).clocks = s.clocks := rfl
@[simp] theorem setRing_freqEst (n : Nat) (x : Ring) : (s.setRing n x).freqEst = s.freqEst := rfl
@[simp] theorem setRing_jLast (n : Nat) (x : Ring) : (s.setRing n x).jLast = s.jLast := rfl
@[simp] theorem setRing_conflicts (n : Nat) (x : Ring) : (s.setRing n x).conflicts = s.conflicts := rfl
@[simp] theorem setRing_free (n : Nat) (x : Ring) : (s.setRing n x).free = s.free := rfl
@[simp] theorem setRing_regs (n : Nat) (x : Ring) : (s.setRing n x).regs = s.regs := rfl
@[simp] theorem setRing_owners (n : Nat) (x : Ring) : (s.setRing n x).owners = s.owners := rfl
@[simp] theorem setRing_mem (n : Nat) (x : Ring) : (s.setRing n x).mem = s.mem := rfl
@[simp] theorem setRing_loc (n : Nat) (x : Ring) : (s.setRing n x).loc = s.loc := rfl
@[simp] theorem setRing_spine (n : Nat) (x : Ring) : (s.setRing n x).spine = s.spine := rfl
@[simp] theorem setRing_census (n : Nat) (x : Ring) : (s.setRing n x).census = s.census := rfl
@[simp] theorem setRing_cores (n : Nat) (x : Ring) : (s.setRing n x).cores = s.cores := rfl
@[simp] theorem setRing_tasks (n : Nat) (x : Ring) : (s.setRing n x).tasks = s.tasks := rfl
@[simp] theorem setRing_sched (n : Nat) (x : Ring) : (s.setRing n x).sched = s.sched := rfl
@[simp] theorem setRing_exch (n : Nat) (x : Ring) : (s.setRing n x).exch = s.exch := rfl
@[simp] theorem setRing_coords (n : Nat) (x : Ring) : (s.setRing n x).coords = s.coords := rfl
@[simp] theorem setRing_cues (n : Nat) (x : Ring) : (s.setRing n x).cues = s.cues := rfl
@[simp] theorem setRing_actions (n : Nat) (x : Ring) : (s.setRing n x).actions = s.actions := rfl
@[simp] theorem setRing_actionsDone (n : Nat) (x : Ring) : (s.setRing n x).actionsDone = s.actionsDone := rfl
@[simp] theorem setRing_orders (n : Nat) (x : Ring) : (s.setRing n x).orders = s.orders := rfl
@[simp] theorem setRing_lanes (n : Nat) (x : Ring) : (s.setRing n x).lanes = s.lanes := rfl
@[simp] theorem setRing_lawLate (n : Nat) (x : Ring) : (s.setRing n x).lawLate = s.lawLate := rfl
@[simp] theorem setRing_spGroups (n : Nat) (x : Ring) : (s.setRing n x).spGroups = s.spGroups := rfl
@[simp] theorem setRing_axes (n : Nat) (x : Ring) : (s.setRing n x).axes = s.axes := rfl
@[simp] theorem setRing_axGroups (n : Nat) (x : Ring) : (s.setRing n x).axGroups = s.axGroups := rfl
@[simp] theorem setRing_steps (n : Nat) (x : Ring) : (s.setRing n x).steps = s.steps := rfl
@[simp] theorem setRing_pwm (n : Nat) (x : Ring) : (s.setRing n x).pwm = s.pwm := rfl
@[simp] theorem setRing_chops (n : Nat) (x : Ring) : (s.setRing n x).chops = s.chops := rfl
@[simp] theorem setRing_trips (n : Nat) (x : Ring) : (s.setRing n x).trips = s.trips := rfl
@[simp] theorem setRing_convs (n : Nat) (x : Ring) : (s.setRing n x).convs = s.convs := rfl
@[simp] theorem setRing_ains (n : Nat) (x : Ring) : (s.setRing n x).ains = s.ains := rfl
@[simp] theorem setRing_field (n : Nat) (x : Ring) : (s.setRing n x).field = s.field := rfl
@[simp] theorem setRing_encs (n : Nat) (x : Ring) : (s.setRing n x).encs = s.encs := rfl
@[simp] theorem setRing_cans (n : Nat) (x : Ring) : (s.setRing n x).cans = s.cans := rfl
@[simp] theorem setRing_mbxBufs (n : Nat) (x : Ring) : (s.setRing n x).mbxBufs = s.mbxBufs := rfl
@[simp] theorem setRing_hist (n : Nat) (x : Ring) : (s.setRing n x).hist = s.hist := rfl
@[simp] theorem setRing_caps (n : Nat) (x : Ring) : (s.setRing n x).caps = s.caps := rfl
@[simp] theorem setRing_pulses (n : Nat) (x : Ring) : (s.setRing n x).pulses = s.pulses := rfl
@[simp] theorem setRing_calAt (n : Nat) (x : Ring) : (s.setRing n x).calAt = s.calAt := rfl
@[simp] theorem setRing_mirror (n : Nat) (x : Ring) : (s.setRing n x).mirror = s.mirror := rfl
@[simp] theorem setRing_evr (n : Nat) (x : Ring) : (s.setRing n x).evr = s.evr := rfl
@[simp] theorem setRing_brim (n : Nat) (x : Ring) : (s.setRing n x).brim = s.brim := rfl
@[simp] theorem setRing_modes (n : Nat) (x : Ring) : (s.setRing n x).modes = s.modes := rfl
@[simp] theorem setRing_store (n : Nat) (x : Ring) : (s.setRing n x).store = s.store := rfl
@[simp] theorem setRing_peer (n : Nat) (x : Ring) : (s.setRing n x).peer = s.peer := rfl
@[simp] theorem setRing_twins (n : Nat) (x : Ring) : (s.setRing n x).twins = s.twins := rfl
@[simp] theorem setRing_host (n : Nat) (x : Ring) : (s.setRing n x).host = s.host := rfl
@[simp] theorem setRing_outbox (n : Nat) (x : Ring) : (s.setRing n x).outbox = s.outbox := rfl
@[simp] theorem setRing_pending (n : Nat) (x : Ring) : (s.setRing n x).pending = s.pending := rfl

/-! ### setCue -/

@[simp] theorem setCue_cue (n : Nat) (x : Cue) : (s.setCue n x).cue n = x := Tab.get_put_same _ _ _ _
theorem setCue_cue_ne (n : Nat) (x : Cue) (j : Nat) (h : j ≠ n) : (s.setCue n x).cue j = s.cue j := Tab.get_put_other _ _ _ _ h
@[simp] theorem setCue_now (n : Nat) (x : Cue) : (s.setCue n x).now = s.now := rfl
@[simp] theorem setCue_cc (n : Nat) (x : Cue) : (s.setCue n x).cc = s.cc := rfl
@[simp] theorem setCue_prevNow (n : Nat) (x : Cue) : (s.setCue n x).prevNow = s.prevNow := rfl
@[simp] theorem setCue_loadD (n : Nat) (x : Cue) : (s.setCue n x).loadD = s.loadD := rfl
@[simp] theorem setCue_clocks (n : Nat) (x : Cue) : (s.setCue n x).clocks = s.clocks := rfl
@[simp] theorem setCue_freqEst (n : Nat) (x : Cue) : (s.setCue n x).freqEst = s.freqEst := rfl
@[simp] theorem setCue_jLast (n : Nat) (x : Cue) : (s.setCue n x).jLast = s.jLast := rfl
@[simp] theorem setCue_conflicts (n : Nat) (x : Cue) : (s.setCue n x).conflicts = s.conflicts := rfl
@[simp] theorem setCue_free (n : Nat) (x : Cue) : (s.setCue n x).free = s.free := rfl
@[simp] theorem setCue_regs (n : Nat) (x : Cue) : (s.setCue n x).regs = s.regs := rfl
@[simp] theorem setCue_owners (n : Nat) (x : Cue) : (s.setCue n x).owners = s.owners := rfl
@[simp] theorem setCue_mem (n : Nat) (x : Cue) : (s.setCue n x).mem = s.mem := rfl
@[simp] theorem setCue_loc (n : Nat) (x : Cue) : (s.setCue n x).loc = s.loc := rfl
@[simp] theorem setCue_spine (n : Nat) (x : Cue) : (s.setCue n x).spine = s.spine := rfl
@[simp] theorem setCue_census (n : Nat) (x : Cue) : (s.setCue n x).census = s.census := rfl
@[simp] theorem setCue_cores (n : Nat) (x : Cue) : (s.setCue n x).cores = s.cores := rfl
@[simp] theorem setCue_tasks (n : Nat) (x : Cue) : (s.setCue n x).tasks = s.tasks := rfl
@[simp] theorem setCue_sched (n : Nat) (x : Cue) : (s.setCue n x).sched = s.sched := rfl
@[simp] theorem setCue_exch (n : Nat) (x : Cue) : (s.setCue n x).exch = s.exch := rfl
@[simp] theorem setCue_coords (n : Nat) (x : Cue) : (s.setCue n x).coords = s.coords := rfl
@[simp] theorem setCue_actions (n : Nat) (x : Cue) : (s.setCue n x).actions = s.actions := rfl
@[simp] theorem setCue_actionsDone (n : Nat) (x : Cue) : (s.setCue n x).actionsDone = s.actionsDone := rfl
@[simp] theorem setCue_orders (n : Nat) (x : Cue) : (s.setCue n x).orders = s.orders := rfl
@[simp] theorem setCue_lanes (n : Nat) (x : Cue) : (s.setCue n x).lanes = s.lanes := rfl
@[simp] theorem setCue_lawLate (n : Nat) (x : Cue) : (s.setCue n x).lawLate = s.lawLate := rfl
@[simp] theorem setCue_spGroups (n : Nat) (x : Cue) : (s.setCue n x).spGroups = s.spGroups := rfl
@[simp] theorem setCue_axes (n : Nat) (x : Cue) : (s.setCue n x).axes = s.axes := rfl
@[simp] theorem setCue_axGroups (n : Nat) (x : Cue) : (s.setCue n x).axGroups = s.axGroups := rfl
@[simp] theorem setCue_steps (n : Nat) (x : Cue) : (s.setCue n x).steps = s.steps := rfl
@[simp] theorem setCue_pwm (n : Nat) (x : Cue) : (s.setCue n x).pwm = s.pwm := rfl
@[simp] theorem setCue_chops (n : Nat) (x : Cue) : (s.setCue n x).chops = s.chops := rfl
@[simp] theorem setCue_trips (n : Nat) (x : Cue) : (s.setCue n x).trips = s.trips := rfl
@[simp] theorem setCue_convs (n : Nat) (x : Cue) : (s.setCue n x).convs = s.convs := rfl
@[simp] theorem setCue_ains (n : Nat) (x : Cue) : (s.setCue n x).ains = s.ains := rfl
@[simp] theorem setCue_field (n : Nat) (x : Cue) : (s.setCue n x).field = s.field := rfl
@[simp] theorem setCue_encs (n : Nat) (x : Cue) : (s.setCue n x).encs = s.encs := rfl
@[simp] theorem setCue_rings (n : Nat) (x : Cue) : (s.setCue n x).rings = s.rings := rfl
@[simp] theorem setCue_cans (n : Nat) (x : Cue) : (s.setCue n x).cans = s.cans := rfl
@[simp] theorem setCue_mbxBufs (n : Nat) (x : Cue) : (s.setCue n x).mbxBufs = s.mbxBufs := rfl
@[simp] theorem setCue_hist (n : Nat) (x : Cue) : (s.setCue n x).hist = s.hist := rfl
@[simp] theorem setCue_caps (n : Nat) (x : Cue) : (s.setCue n x).caps = s.caps := rfl
@[simp] theorem setCue_pulses (n : Nat) (x : Cue) : (s.setCue n x).pulses = s.pulses := rfl
@[simp] theorem setCue_calAt (n : Nat) (x : Cue) : (s.setCue n x).calAt = s.calAt := rfl
@[simp] theorem setCue_mirror (n : Nat) (x : Cue) : (s.setCue n x).mirror = s.mirror := rfl
@[simp] theorem setCue_evr (n : Nat) (x : Cue) : (s.setCue n x).evr = s.evr := rfl
@[simp] theorem setCue_brim (n : Nat) (x : Cue) : (s.setCue n x).brim = s.brim := rfl
@[simp] theorem setCue_modes (n : Nat) (x : Cue) : (s.setCue n x).modes = s.modes := rfl
@[simp] theorem setCue_store (n : Nat) (x : Cue) : (s.setCue n x).store = s.store := rfl
@[simp] theorem setCue_peer (n : Nat) (x : Cue) : (s.setCue n x).peer = s.peer := rfl
@[simp] theorem setCue_twins (n : Nat) (x : Cue) : (s.setCue n x).twins = s.twins := rfl
@[simp] theorem setCue_host (n : Nat) (x : Cue) : (s.setCue n x).host = s.host := rfl
@[simp] theorem setCue_outbox (n : Nat) (x : Cue) : (s.setCue n x).outbox = s.outbox := rfl
@[simp] theorem setCue_pending (n : Nat) (x : Cue) : (s.setCue n x).pending = s.pending := rfl

/-! ### setCoord -/

@[simp] theorem setCoord_coord (n : Nat) (x : Coord) : (s.setCoord n x).coord n = x := Tab.get_put_same _ _ _ _
theorem setCoord_coord_ne (n : Nat) (x : Coord) (j : Nat) (h : j ≠ n) : (s.setCoord n x).coord j = s.coord j := Tab.get_put_other _ _ _ _ h
@[simp] theorem setCoord_now (n : Nat) (x : Coord) : (s.setCoord n x).now = s.now := rfl
@[simp] theorem setCoord_cc (n : Nat) (x : Coord) : (s.setCoord n x).cc = s.cc := rfl
@[simp] theorem setCoord_prevNow (n : Nat) (x : Coord) : (s.setCoord n x).prevNow = s.prevNow := rfl
@[simp] theorem setCoord_loadD (n : Nat) (x : Coord) : (s.setCoord n x).loadD = s.loadD := rfl
@[simp] theorem setCoord_clocks (n : Nat) (x : Coord) : (s.setCoord n x).clocks = s.clocks := rfl
@[simp] theorem setCoord_freqEst (n : Nat) (x : Coord) : (s.setCoord n x).freqEst = s.freqEst := rfl
@[simp] theorem setCoord_jLast (n : Nat) (x : Coord) : (s.setCoord n x).jLast = s.jLast := rfl
@[simp] theorem setCoord_conflicts (n : Nat) (x : Coord) : (s.setCoord n x).conflicts = s.conflicts := rfl
@[simp] theorem setCoord_free (n : Nat) (x : Coord) : (s.setCoord n x).free = s.free := rfl
@[simp] theorem setCoord_regs (n : Nat) (x : Coord) : (s.setCoord n x).regs = s.regs := rfl
@[simp] theorem setCoord_owners (n : Nat) (x : Coord) : (s.setCoord n x).owners = s.owners := rfl
@[simp] theorem setCoord_mem (n : Nat) (x : Coord) : (s.setCoord n x).mem = s.mem := rfl
@[simp] theorem setCoord_loc (n : Nat) (x : Coord) : (s.setCoord n x).loc = s.loc := rfl
@[simp] theorem setCoord_spine (n : Nat) (x : Coord) : (s.setCoord n x).spine = s.spine := rfl
@[simp] theorem setCoord_census (n : Nat) (x : Coord) : (s.setCoord n x).census = s.census := rfl
@[simp] theorem setCoord_cores (n : Nat) (x : Coord) : (s.setCoord n x).cores = s.cores := rfl
@[simp] theorem setCoord_tasks (n : Nat) (x : Coord) : (s.setCoord n x).tasks = s.tasks := rfl
@[simp] theorem setCoord_sched (n : Nat) (x : Coord) : (s.setCoord n x).sched = s.sched := rfl
@[simp] theorem setCoord_exch (n : Nat) (x : Coord) : (s.setCoord n x).exch = s.exch := rfl
@[simp] theorem setCoord_cues (n : Nat) (x : Coord) : (s.setCoord n x).cues = s.cues := rfl
@[simp] theorem setCoord_actions (n : Nat) (x : Coord) : (s.setCoord n x).actions = s.actions := rfl
@[simp] theorem setCoord_actionsDone (n : Nat) (x : Coord) : (s.setCoord n x).actionsDone = s.actionsDone := rfl
@[simp] theorem setCoord_orders (n : Nat) (x : Coord) : (s.setCoord n x).orders = s.orders := rfl
@[simp] theorem setCoord_lanes (n : Nat) (x : Coord) : (s.setCoord n x).lanes = s.lanes := rfl
@[simp] theorem setCoord_lawLate (n : Nat) (x : Coord) : (s.setCoord n x).lawLate = s.lawLate := rfl
@[simp] theorem setCoord_spGroups (n : Nat) (x : Coord) : (s.setCoord n x).spGroups = s.spGroups := rfl
@[simp] theorem setCoord_axes (n : Nat) (x : Coord) : (s.setCoord n x).axes = s.axes := rfl
@[simp] theorem setCoord_axGroups (n : Nat) (x : Coord) : (s.setCoord n x).axGroups = s.axGroups := rfl
@[simp] theorem setCoord_steps (n : Nat) (x : Coord) : (s.setCoord n x).steps = s.steps := rfl
@[simp] theorem setCoord_pwm (n : Nat) (x : Coord) : (s.setCoord n x).pwm = s.pwm := rfl
@[simp] theorem setCoord_chops (n : Nat) (x : Coord) : (s.setCoord n x).chops = s.chops := rfl
@[simp] theorem setCoord_trips (n : Nat) (x : Coord) : (s.setCoord n x).trips = s.trips := rfl
@[simp] theorem setCoord_convs (n : Nat) (x : Coord) : (s.setCoord n x).convs = s.convs := rfl
@[simp] theorem setCoord_ains (n : Nat) (x : Coord) : (s.setCoord n x).ains = s.ains := rfl
@[simp] theorem setCoord_field (n : Nat) (x : Coord) : (s.setCoord n x).field = s.field := rfl
@[simp] theorem setCoord_encs (n : Nat) (x : Coord) : (s.setCoord n x).encs = s.encs := rfl
@[simp] theorem setCoord_rings (n : Nat) (x : Coord) : (s.setCoord n x).rings = s.rings := rfl
@[simp] theorem setCoord_cans (n : Nat) (x : Coord) : (s.setCoord n x).cans = s.cans := rfl
@[simp] theorem setCoord_mbxBufs (n : Nat) (x : Coord) : (s.setCoord n x).mbxBufs = s.mbxBufs := rfl
@[simp] theorem setCoord_hist (n : Nat) (x : Coord) : (s.setCoord n x).hist = s.hist := rfl
@[simp] theorem setCoord_caps (n : Nat) (x : Coord) : (s.setCoord n x).caps = s.caps := rfl
@[simp] theorem setCoord_pulses (n : Nat) (x : Coord) : (s.setCoord n x).pulses = s.pulses := rfl
@[simp] theorem setCoord_calAt (n : Nat) (x : Coord) : (s.setCoord n x).calAt = s.calAt := rfl
@[simp] theorem setCoord_mirror (n : Nat) (x : Coord) : (s.setCoord n x).mirror = s.mirror := rfl
@[simp] theorem setCoord_evr (n : Nat) (x : Coord) : (s.setCoord n x).evr = s.evr := rfl
@[simp] theorem setCoord_brim (n : Nat) (x : Coord) : (s.setCoord n x).brim = s.brim := rfl
@[simp] theorem setCoord_modes (n : Nat) (x : Coord) : (s.setCoord n x).modes = s.modes := rfl
@[simp] theorem setCoord_store (n : Nat) (x : Coord) : (s.setCoord n x).store = s.store := rfl
@[simp] theorem setCoord_peer (n : Nat) (x : Coord) : (s.setCoord n x).peer = s.peer := rfl
@[simp] theorem setCoord_twins (n : Nat) (x : Coord) : (s.setCoord n x).twins = s.twins := rfl
@[simp] theorem setCoord_host (n : Nat) (x : Coord) : (s.setCoord n x).host = s.host := rfl
@[simp] theorem setCoord_outbox (n : Nat) (x : Coord) : (s.setCoord n x).outbox = s.outbox := rfl
@[simp] theorem setCoord_pending (n : Nat) (x : Coord) : (s.setCoord n x).pending = s.pending := rfl

/-! ### setCap -/

@[simp] theorem setCap_cap (n : Nat) (x : Capture) : (s.setCap n x).cap n = x := Tab.get_put_same _ _ _ _
theorem setCap_cap_ne (n : Nat) (x : Capture) (j : Nat) (h : j ≠ n) : (s.setCap n x).cap j = s.cap j := Tab.get_put_other _ _ _ _ h
@[simp] theorem setCap_now (n : Nat) (x : Capture) : (s.setCap n x).now = s.now := rfl
@[simp] theorem setCap_cc (n : Nat) (x : Capture) : (s.setCap n x).cc = s.cc := rfl
@[simp] theorem setCap_prevNow (n : Nat) (x : Capture) : (s.setCap n x).prevNow = s.prevNow := rfl
@[simp] theorem setCap_loadD (n : Nat) (x : Capture) : (s.setCap n x).loadD = s.loadD := rfl
@[simp] theorem setCap_clocks (n : Nat) (x : Capture) : (s.setCap n x).clocks = s.clocks := rfl
@[simp] theorem setCap_freqEst (n : Nat) (x : Capture) : (s.setCap n x).freqEst = s.freqEst := rfl
@[simp] theorem setCap_jLast (n : Nat) (x : Capture) : (s.setCap n x).jLast = s.jLast := rfl
@[simp] theorem setCap_conflicts (n : Nat) (x : Capture) : (s.setCap n x).conflicts = s.conflicts := rfl
@[simp] theorem setCap_free (n : Nat) (x : Capture) : (s.setCap n x).free = s.free := rfl
@[simp] theorem setCap_regs (n : Nat) (x : Capture) : (s.setCap n x).regs = s.regs := rfl
@[simp] theorem setCap_owners (n : Nat) (x : Capture) : (s.setCap n x).owners = s.owners := rfl
@[simp] theorem setCap_mem (n : Nat) (x : Capture) : (s.setCap n x).mem = s.mem := rfl
@[simp] theorem setCap_loc (n : Nat) (x : Capture) : (s.setCap n x).loc = s.loc := rfl
@[simp] theorem setCap_spine (n : Nat) (x : Capture) : (s.setCap n x).spine = s.spine := rfl
@[simp] theorem setCap_census (n : Nat) (x : Capture) : (s.setCap n x).census = s.census := rfl
@[simp] theorem setCap_cores (n : Nat) (x : Capture) : (s.setCap n x).cores = s.cores := rfl
@[simp] theorem setCap_tasks (n : Nat) (x : Capture) : (s.setCap n x).tasks = s.tasks := rfl
@[simp] theorem setCap_sched (n : Nat) (x : Capture) : (s.setCap n x).sched = s.sched := rfl
@[simp] theorem setCap_exch (n : Nat) (x : Capture) : (s.setCap n x).exch = s.exch := rfl
@[simp] theorem setCap_coords (n : Nat) (x : Capture) : (s.setCap n x).coords = s.coords := rfl
@[simp] theorem setCap_cues (n : Nat) (x : Capture) : (s.setCap n x).cues = s.cues := rfl
@[simp] theorem setCap_actions (n : Nat) (x : Capture) : (s.setCap n x).actions = s.actions := rfl
@[simp] theorem setCap_actionsDone (n : Nat) (x : Capture) : (s.setCap n x).actionsDone = s.actionsDone := rfl
@[simp] theorem setCap_orders (n : Nat) (x : Capture) : (s.setCap n x).orders = s.orders := rfl
@[simp] theorem setCap_lanes (n : Nat) (x : Capture) : (s.setCap n x).lanes = s.lanes := rfl
@[simp] theorem setCap_lawLate (n : Nat) (x : Capture) : (s.setCap n x).lawLate = s.lawLate := rfl
@[simp] theorem setCap_spGroups (n : Nat) (x : Capture) : (s.setCap n x).spGroups = s.spGroups := rfl
@[simp] theorem setCap_axes (n : Nat) (x : Capture) : (s.setCap n x).axes = s.axes := rfl
@[simp] theorem setCap_axGroups (n : Nat) (x : Capture) : (s.setCap n x).axGroups = s.axGroups := rfl
@[simp] theorem setCap_steps (n : Nat) (x : Capture) : (s.setCap n x).steps = s.steps := rfl
@[simp] theorem setCap_pwm (n : Nat) (x : Capture) : (s.setCap n x).pwm = s.pwm := rfl
@[simp] theorem setCap_chops (n : Nat) (x : Capture) : (s.setCap n x).chops = s.chops := rfl
@[simp] theorem setCap_trips (n : Nat) (x : Capture) : (s.setCap n x).trips = s.trips := rfl
@[simp] theorem setCap_convs (n : Nat) (x : Capture) : (s.setCap n x).convs = s.convs := rfl
@[simp] theorem setCap_ains (n : Nat) (x : Capture) : (s.setCap n x).ains = s.ains := rfl
@[simp] theorem setCap_field (n : Nat) (x : Capture) : (s.setCap n x).field = s.field := rfl
@[simp] theorem setCap_encs (n : Nat) (x : Capture) : (s.setCap n x).encs = s.encs := rfl
@[simp] theorem setCap_rings (n : Nat) (x : Capture) : (s.setCap n x).rings = s.rings := rfl
@[simp] theorem setCap_cans (n : Nat) (x : Capture) : (s.setCap n x).cans = s.cans := rfl
@[simp] theorem setCap_mbxBufs (n : Nat) (x : Capture) : (s.setCap n x).mbxBufs = s.mbxBufs := rfl
@[simp] theorem setCap_hist (n : Nat) (x : Capture) : (s.setCap n x).hist = s.hist := rfl
@[simp] theorem setCap_pulses (n : Nat) (x : Capture) : (s.setCap n x).pulses = s.pulses := rfl
@[simp] theorem setCap_calAt (n : Nat) (x : Capture) : (s.setCap n x).calAt = s.calAt := rfl
@[simp] theorem setCap_mirror (n : Nat) (x : Capture) : (s.setCap n x).mirror = s.mirror := rfl
@[simp] theorem setCap_evr (n : Nat) (x : Capture) : (s.setCap n x).evr = s.evr := rfl
@[simp] theorem setCap_brim (n : Nat) (x : Capture) : (s.setCap n x).brim = s.brim := rfl
@[simp] theorem setCap_modes (n : Nat) (x : Capture) : (s.setCap n x).modes = s.modes := rfl
@[simp] theorem setCap_store (n : Nat) (x : Capture) : (s.setCap n x).store = s.store := rfl
@[simp] theorem setCap_peer (n : Nat) (x : Capture) : (s.setCap n x).peer = s.peer := rfl
@[simp] theorem setCap_twins (n : Nat) (x : Capture) : (s.setCap n x).twins = s.twins := rfl
@[simp] theorem setCap_host (n : Nat) (x : Capture) : (s.setCap n x).host = s.host := rfl
@[simp] theorem setCap_outbox (n : Nat) (x : Capture) : (s.setCap n x).outbox = s.outbox := rfl
@[simp] theorem setCap_pending (n : Nat) (x : Capture) : (s.setCap n x).pending = s.pending := rfl

/-! ### setCan -/

@[simp] theorem setCan_can (n : Nat) (x : Can) : (s.setCan n x).can n = x := Tab.get_put_same _ _ _ _
theorem setCan_can_ne (n : Nat) (x : Can) (j : Nat) (h : j ≠ n) : (s.setCan n x).can j = s.can j := Tab.get_put_other _ _ _ _ h
@[simp] theorem setCan_now (n : Nat) (x : Can) : (s.setCan n x).now = s.now := rfl
@[simp] theorem setCan_cc (n : Nat) (x : Can) : (s.setCan n x).cc = s.cc := rfl
@[simp] theorem setCan_prevNow (n : Nat) (x : Can) : (s.setCan n x).prevNow = s.prevNow := rfl
@[simp] theorem setCan_loadD (n : Nat) (x : Can) : (s.setCan n x).loadD = s.loadD := rfl
@[simp] theorem setCan_clocks (n : Nat) (x : Can) : (s.setCan n x).clocks = s.clocks := rfl
@[simp] theorem setCan_freqEst (n : Nat) (x : Can) : (s.setCan n x).freqEst = s.freqEst := rfl
@[simp] theorem setCan_jLast (n : Nat) (x : Can) : (s.setCan n x).jLast = s.jLast := rfl
@[simp] theorem setCan_conflicts (n : Nat) (x : Can) : (s.setCan n x).conflicts = s.conflicts := rfl
@[simp] theorem setCan_free (n : Nat) (x : Can) : (s.setCan n x).free = s.free := rfl
@[simp] theorem setCan_regs (n : Nat) (x : Can) : (s.setCan n x).regs = s.regs := rfl
@[simp] theorem setCan_owners (n : Nat) (x : Can) : (s.setCan n x).owners = s.owners := rfl
@[simp] theorem setCan_mem (n : Nat) (x : Can) : (s.setCan n x).mem = s.mem := rfl
@[simp] theorem setCan_loc (n : Nat) (x : Can) : (s.setCan n x).loc = s.loc := rfl
@[simp] theorem setCan_spine (n : Nat) (x : Can) : (s.setCan n x).spine = s.spine := rfl
@[simp] theorem setCan_census (n : Nat) (x : Can) : (s.setCan n x).census = s.census := rfl
@[simp] theorem setCan_cores (n : Nat) (x : Can) : (s.setCan n x).cores = s.cores := rfl
@[simp] theorem setCan_tasks (n : Nat) (x : Can) : (s.setCan n x).tasks = s.tasks := rfl
@[simp] theorem setCan_sched (n : Nat) (x : Can) : (s.setCan n x).sched = s.sched := rfl
@[simp] theorem setCan_exch (n : Nat) (x : Can) : (s.setCan n x).exch = s.exch := rfl
@[simp] theorem setCan_coords (n : Nat) (x : Can) : (s.setCan n x).coords = s.coords := rfl
@[simp] theorem setCan_cues (n : Nat) (x : Can) : (s.setCan n x).cues = s.cues := rfl
@[simp] theorem setCan_actions (n : Nat) (x : Can) : (s.setCan n x).actions = s.actions := rfl
@[simp] theorem setCan_actionsDone (n : Nat) (x : Can) : (s.setCan n x).actionsDone = s.actionsDone := rfl
@[simp] theorem setCan_orders (n : Nat) (x : Can) : (s.setCan n x).orders = s.orders := rfl
@[simp] theorem setCan_lanes (n : Nat) (x : Can) : (s.setCan n x).lanes = s.lanes := rfl
@[simp] theorem setCan_lawLate (n : Nat) (x : Can) : (s.setCan n x).lawLate = s.lawLate := rfl
@[simp] theorem setCan_spGroups (n : Nat) (x : Can) : (s.setCan n x).spGroups = s.spGroups := rfl
@[simp] theorem setCan_axes (n : Nat) (x : Can) : (s.setCan n x).axes = s.axes := rfl
@[simp] theorem setCan_axGroups (n : Nat) (x : Can) : (s.setCan n x).axGroups = s.axGroups := rfl
@[simp] theorem setCan_steps (n : Nat) (x : Can) : (s.setCan n x).steps = s.steps := rfl
@[simp] theorem setCan_pwm (n : Nat) (x : Can) : (s.setCan n x).pwm = s.pwm := rfl
@[simp] theorem setCan_chops (n : Nat) (x : Can) : (s.setCan n x).chops = s.chops := rfl
@[simp] theorem setCan_trips (n : Nat) (x : Can) : (s.setCan n x).trips = s.trips := rfl
@[simp] theorem setCan_convs (n : Nat) (x : Can) : (s.setCan n x).convs = s.convs := rfl
@[simp] theorem setCan_ains (n : Nat) (x : Can) : (s.setCan n x).ains = s.ains := rfl
@[simp] theorem setCan_field (n : Nat) (x : Can) : (s.setCan n x).field = s.field := rfl
@[simp] theorem setCan_encs (n : Nat) (x : Can) : (s.setCan n x).encs = s.encs := rfl
@[simp] theorem setCan_rings (n : Nat) (x : Can) : (s.setCan n x).rings = s.rings := rfl
@[simp] theorem setCan_mbxBufs (n : Nat) (x : Can) : (s.setCan n x).mbxBufs = s.mbxBufs := rfl
@[simp] theorem setCan_hist (n : Nat) (x : Can) : (s.setCan n x).hist = s.hist := rfl
@[simp] theorem setCan_caps (n : Nat) (x : Can) : (s.setCan n x).caps = s.caps := rfl
@[simp] theorem setCan_pulses (n : Nat) (x : Can) : (s.setCan n x).pulses = s.pulses := rfl
@[simp] theorem setCan_calAt (n : Nat) (x : Can) : (s.setCan n x).calAt = s.calAt := rfl
@[simp] theorem setCan_mirror (n : Nat) (x : Can) : (s.setCan n x).mirror = s.mirror := rfl
@[simp] theorem setCan_evr (n : Nat) (x : Can) : (s.setCan n x).evr = s.evr := rfl
@[simp] theorem setCan_brim (n : Nat) (x : Can) : (s.setCan n x).brim = s.brim := rfl
@[simp] theorem setCan_modes (n : Nat) (x : Can) : (s.setCan n x).modes = s.modes := rfl
@[simp] theorem setCan_store (n : Nat) (x : Can) : (s.setCan n x).store = s.store := rfl
@[simp] theorem setCan_peer (n : Nat) (x : Can) : (s.setCan n x).peer = s.peer := rfl
@[simp] theorem setCan_twins (n : Nat) (x : Can) : (s.setCan n x).twins = s.twins := rfl
@[simp] theorem setCan_host (n : Nat) (x : Can) : (s.setCan n x).host = s.host := rfl
@[simp] theorem setCan_outbox (n : Nat) (x : Can) : (s.setCan n x).outbox = s.outbox := rfl
@[simp] theorem setCan_pending (n : Nat) (x : Can) : (s.setCan n x).pending = s.pending := rfl

/-! ### setConv -/

@[simp] theorem setConv_conv (n : Nat) (x : Conv) : (s.setConv n x).conv n = x := Tab.get_put_same _ _ _ _
theorem setConv_conv_ne (n : Nat) (x : Conv) (j : Nat) (h : j ≠ n) : (s.setConv n x).conv j = s.conv j := Tab.get_put_other _ _ _ _ h
@[simp] theorem setConv_now (n : Nat) (x : Conv) : (s.setConv n x).now = s.now := rfl
@[simp] theorem setConv_cc (n : Nat) (x : Conv) : (s.setConv n x).cc = s.cc := rfl
@[simp] theorem setConv_prevNow (n : Nat) (x : Conv) : (s.setConv n x).prevNow = s.prevNow := rfl
@[simp] theorem setConv_loadD (n : Nat) (x : Conv) : (s.setConv n x).loadD = s.loadD := rfl
@[simp] theorem setConv_clocks (n : Nat) (x : Conv) : (s.setConv n x).clocks = s.clocks := rfl
@[simp] theorem setConv_freqEst (n : Nat) (x : Conv) : (s.setConv n x).freqEst = s.freqEst := rfl
@[simp] theorem setConv_jLast (n : Nat) (x : Conv) : (s.setConv n x).jLast = s.jLast := rfl
@[simp] theorem setConv_conflicts (n : Nat) (x : Conv) : (s.setConv n x).conflicts = s.conflicts := rfl
@[simp] theorem setConv_free (n : Nat) (x : Conv) : (s.setConv n x).free = s.free := rfl
@[simp] theorem setConv_regs (n : Nat) (x : Conv) : (s.setConv n x).regs = s.regs := rfl
@[simp] theorem setConv_owners (n : Nat) (x : Conv) : (s.setConv n x).owners = s.owners := rfl
@[simp] theorem setConv_mem (n : Nat) (x : Conv) : (s.setConv n x).mem = s.mem := rfl
@[simp] theorem setConv_loc (n : Nat) (x : Conv) : (s.setConv n x).loc = s.loc := rfl
@[simp] theorem setConv_spine (n : Nat) (x : Conv) : (s.setConv n x).spine = s.spine := rfl
@[simp] theorem setConv_census (n : Nat) (x : Conv) : (s.setConv n x).census = s.census := rfl
@[simp] theorem setConv_cores (n : Nat) (x : Conv) : (s.setConv n x).cores = s.cores := rfl
@[simp] theorem setConv_tasks (n : Nat) (x : Conv) : (s.setConv n x).tasks = s.tasks := rfl
@[simp] theorem setConv_sched (n : Nat) (x : Conv) : (s.setConv n x).sched = s.sched := rfl
@[simp] theorem setConv_exch (n : Nat) (x : Conv) : (s.setConv n x).exch = s.exch := rfl
@[simp] theorem setConv_coords (n : Nat) (x : Conv) : (s.setConv n x).coords = s.coords := rfl
@[simp] theorem setConv_cues (n : Nat) (x : Conv) : (s.setConv n x).cues = s.cues := rfl
@[simp] theorem setConv_actions (n : Nat) (x : Conv) : (s.setConv n x).actions = s.actions := rfl
@[simp] theorem setConv_actionsDone (n : Nat) (x : Conv) : (s.setConv n x).actionsDone = s.actionsDone := rfl
@[simp] theorem setConv_orders (n : Nat) (x : Conv) : (s.setConv n x).orders = s.orders := rfl
@[simp] theorem setConv_lanes (n : Nat) (x : Conv) : (s.setConv n x).lanes = s.lanes := rfl
@[simp] theorem setConv_lawLate (n : Nat) (x : Conv) : (s.setConv n x).lawLate = s.lawLate := rfl
@[simp] theorem setConv_spGroups (n : Nat) (x : Conv) : (s.setConv n x).spGroups = s.spGroups := rfl
@[simp] theorem setConv_axes (n : Nat) (x : Conv) : (s.setConv n x).axes = s.axes := rfl
@[simp] theorem setConv_axGroups (n : Nat) (x : Conv) : (s.setConv n x).axGroups = s.axGroups := rfl
@[simp] theorem setConv_steps (n : Nat) (x : Conv) : (s.setConv n x).steps = s.steps := rfl
@[simp] theorem setConv_pwm (n : Nat) (x : Conv) : (s.setConv n x).pwm = s.pwm := rfl
@[simp] theorem setConv_chops (n : Nat) (x : Conv) : (s.setConv n x).chops = s.chops := rfl
@[simp] theorem setConv_trips (n : Nat) (x : Conv) : (s.setConv n x).trips = s.trips := rfl
@[simp] theorem setConv_ains (n : Nat) (x : Conv) : (s.setConv n x).ains = s.ains := rfl
@[simp] theorem setConv_field (n : Nat) (x : Conv) : (s.setConv n x).field = s.field := rfl
@[simp] theorem setConv_encs (n : Nat) (x : Conv) : (s.setConv n x).encs = s.encs := rfl
@[simp] theorem setConv_rings (n : Nat) (x : Conv) : (s.setConv n x).rings = s.rings := rfl
@[simp] theorem setConv_cans (n : Nat) (x : Conv) : (s.setConv n x).cans = s.cans := rfl
@[simp] theorem setConv_mbxBufs (n : Nat) (x : Conv) : (s.setConv n x).mbxBufs = s.mbxBufs := rfl
@[simp] theorem setConv_hist (n : Nat) (x : Conv) : (s.setConv n x).hist = s.hist := rfl
@[simp] theorem setConv_caps (n : Nat) (x : Conv) : (s.setConv n x).caps = s.caps := rfl
@[simp] theorem setConv_pulses (n : Nat) (x : Conv) : (s.setConv n x).pulses = s.pulses := rfl
@[simp] theorem setConv_calAt (n : Nat) (x : Conv) : (s.setConv n x).calAt = s.calAt := rfl
@[simp] theorem setConv_mirror (n : Nat) (x : Conv) : (s.setConv n x).mirror = s.mirror := rfl
@[simp] theorem setConv_evr (n : Nat) (x : Conv) : (s.setConv n x).evr = s.evr := rfl
@[simp] theorem setConv_brim (n : Nat) (x : Conv) : (s.setConv n x).brim = s.brim := rfl
@[simp] theorem setConv_modes (n : Nat) (x : Conv) : (s.setConv n x).modes = s.modes := rfl
@[simp] theorem setConv_store (n : Nat) (x : Conv) : (s.setConv n x).store = s.store := rfl
@[simp] theorem setConv_peer (n : Nat) (x : Conv) : (s.setConv n x).peer = s.peer := rfl
@[simp] theorem setConv_twins (n : Nat) (x : Conv) : (s.setConv n x).twins = s.twins := rfl
@[simp] theorem setConv_host (n : Nat) (x : Conv) : (s.setConv n x).host = s.host := rfl
@[simp] theorem setConv_outbox (n : Nat) (x : Conv) : (s.setConv n x).outbox = s.outbox := rfl
@[simp] theorem setConv_pending (n : Nat) (x : Conv) : (s.setConv n x).pending = s.pending := rfl

/-! ### setAin -/

@[simp] theorem setAin_ain (n : Nat) (x : Ain) : (s.setAin n x).ain n = x := Tab.get_put_same _ _ _ _
theorem setAin_ain_ne (n : Nat) (x : Ain) (j : Nat) (h : j ≠ n) : (s.setAin n x).ain j = s.ain j := Tab.get_put_other _ _ _ _ h
@[simp] theorem setAin_now (n : Nat) (x : Ain) : (s.setAin n x).now = s.now := rfl
@[simp] theorem setAin_cc (n : Nat) (x : Ain) : (s.setAin n x).cc = s.cc := rfl
@[simp] theorem setAin_prevNow (n : Nat) (x : Ain) : (s.setAin n x).prevNow = s.prevNow := rfl
@[simp] theorem setAin_loadD (n : Nat) (x : Ain) : (s.setAin n x).loadD = s.loadD := rfl
@[simp] theorem setAin_clocks (n : Nat) (x : Ain) : (s.setAin n x).clocks = s.clocks := rfl
@[simp] theorem setAin_freqEst (n : Nat) (x : Ain) : (s.setAin n x).freqEst = s.freqEst := rfl
@[simp] theorem setAin_jLast (n : Nat) (x : Ain) : (s.setAin n x).jLast = s.jLast := rfl
@[simp] theorem setAin_conflicts (n : Nat) (x : Ain) : (s.setAin n x).conflicts = s.conflicts := rfl
@[simp] theorem setAin_free (n : Nat) (x : Ain) : (s.setAin n x).free = s.free := rfl
@[simp] theorem setAin_regs (n : Nat) (x : Ain) : (s.setAin n x).regs = s.regs := rfl
@[simp] theorem setAin_owners (n : Nat) (x : Ain) : (s.setAin n x).owners = s.owners := rfl
@[simp] theorem setAin_mem (n : Nat) (x : Ain) : (s.setAin n x).mem = s.mem := rfl
@[simp] theorem setAin_loc (n : Nat) (x : Ain) : (s.setAin n x).loc = s.loc := rfl
@[simp] theorem setAin_spine (n : Nat) (x : Ain) : (s.setAin n x).spine = s.spine := rfl
@[simp] theorem setAin_census (n : Nat) (x : Ain) : (s.setAin n x).census = s.census := rfl
@[simp] theorem setAin_cores (n : Nat) (x : Ain) : (s.setAin n x).cores = s.cores := rfl
@[simp] theorem setAin_tasks (n : Nat) (x : Ain) : (s.setAin n x).tasks = s.tasks := rfl
@[simp] theorem setAin_sched (n : Nat) (x : Ain) : (s.setAin n x).sched = s.sched := rfl
@[simp] theorem setAin_exch (n : Nat) (x : Ain) : (s.setAin n x).exch = s.exch := rfl
@[simp] theorem setAin_coords (n : Nat) (x : Ain) : (s.setAin n x).coords = s.coords := rfl
@[simp] theorem setAin_cues (n : Nat) (x : Ain) : (s.setAin n x).cues = s.cues := rfl
@[simp] theorem setAin_actions (n : Nat) (x : Ain) : (s.setAin n x).actions = s.actions := rfl
@[simp] theorem setAin_actionsDone (n : Nat) (x : Ain) : (s.setAin n x).actionsDone = s.actionsDone := rfl
@[simp] theorem setAin_orders (n : Nat) (x : Ain) : (s.setAin n x).orders = s.orders := rfl
@[simp] theorem setAin_lanes (n : Nat) (x : Ain) : (s.setAin n x).lanes = s.lanes := rfl
@[simp] theorem setAin_lawLate (n : Nat) (x : Ain) : (s.setAin n x).lawLate = s.lawLate := rfl
@[simp] theorem setAin_spGroups (n : Nat) (x : Ain) : (s.setAin n x).spGroups = s.spGroups := rfl
@[simp] theorem setAin_axes (n : Nat) (x : Ain) : (s.setAin n x).axes = s.axes := rfl
@[simp] theorem setAin_axGroups (n : Nat) (x : Ain) : (s.setAin n x).axGroups = s.axGroups := rfl
@[simp] theorem setAin_steps (n : Nat) (x : Ain) : (s.setAin n x).steps = s.steps := rfl
@[simp] theorem setAin_pwm (n : Nat) (x : Ain) : (s.setAin n x).pwm = s.pwm := rfl
@[simp] theorem setAin_chops (n : Nat) (x : Ain) : (s.setAin n x).chops = s.chops := rfl
@[simp] theorem setAin_trips (n : Nat) (x : Ain) : (s.setAin n x).trips = s.trips := rfl
@[simp] theorem setAin_convs (n : Nat) (x : Ain) : (s.setAin n x).convs = s.convs := rfl
@[simp] theorem setAin_field (n : Nat) (x : Ain) : (s.setAin n x).field = s.field := rfl
@[simp] theorem setAin_encs (n : Nat) (x : Ain) : (s.setAin n x).encs = s.encs := rfl
@[simp] theorem setAin_rings (n : Nat) (x : Ain) : (s.setAin n x).rings = s.rings := rfl
@[simp] theorem setAin_cans (n : Nat) (x : Ain) : (s.setAin n x).cans = s.cans := rfl
@[simp] theorem setAin_mbxBufs (n : Nat) (x : Ain) : (s.setAin n x).mbxBufs = s.mbxBufs := rfl
@[simp] theorem setAin_hist (n : Nat) (x : Ain) : (s.setAin n x).hist = s.hist := rfl
@[simp] theorem setAin_caps (n : Nat) (x : Ain) : (s.setAin n x).caps = s.caps := rfl
@[simp] theorem setAin_pulses (n : Nat) (x : Ain) : (s.setAin n x).pulses = s.pulses := rfl
@[simp] theorem setAin_calAt (n : Nat) (x : Ain) : (s.setAin n x).calAt = s.calAt := rfl
@[simp] theorem setAin_mirror (n : Nat) (x : Ain) : (s.setAin n x).mirror = s.mirror := rfl
@[simp] theorem setAin_evr (n : Nat) (x : Ain) : (s.setAin n x).evr = s.evr := rfl
@[simp] theorem setAin_brim (n : Nat) (x : Ain) : (s.setAin n x).brim = s.brim := rfl
@[simp] theorem setAin_modes (n : Nat) (x : Ain) : (s.setAin n x).modes = s.modes := rfl
@[simp] theorem setAin_store (n : Nat) (x : Ain) : (s.setAin n x).store = s.store := rfl
@[simp] theorem setAin_peer (n : Nat) (x : Ain) : (s.setAin n x).peer = s.peer := rfl
@[simp] theorem setAin_twins (n : Nat) (x : Ain) : (s.setAin n x).twins = s.twins := rfl
@[simp] theorem setAin_host (n : Nat) (x : Ain) : (s.setAin n x).host = s.host := rfl
@[simp] theorem setAin_outbox (n : Nat) (x : Ain) : (s.setAin n x).outbox = s.outbox := rfl
@[simp] theorem setAin_pending (n : Nat) (x : Ain) : (s.setAin n x).pending = s.pending := rfl

/-! ### setPair -/

@[simp] theorem setPair_pair (n : Nat) (x : Pwm) : (s.setPair n x).pair n = x := Tab.get_put_same _ _ _ _
theorem setPair_pair_ne (n : Nat) (x : Pwm) (j : Nat) (h : j ≠ n) : (s.setPair n x).pair j = s.pair j := Tab.get_put_other _ _ _ _ h
@[simp] theorem setPair_now (n : Nat) (x : Pwm) : (s.setPair n x).now = s.now := rfl
@[simp] theorem setPair_cc (n : Nat) (x : Pwm) : (s.setPair n x).cc = s.cc := rfl
@[simp] theorem setPair_prevNow (n : Nat) (x : Pwm) : (s.setPair n x).prevNow = s.prevNow := rfl
@[simp] theorem setPair_loadD (n : Nat) (x : Pwm) : (s.setPair n x).loadD = s.loadD := rfl
@[simp] theorem setPair_clocks (n : Nat) (x : Pwm) : (s.setPair n x).clocks = s.clocks := rfl
@[simp] theorem setPair_freqEst (n : Nat) (x : Pwm) : (s.setPair n x).freqEst = s.freqEst := rfl
@[simp] theorem setPair_jLast (n : Nat) (x : Pwm) : (s.setPair n x).jLast = s.jLast := rfl
@[simp] theorem setPair_conflicts (n : Nat) (x : Pwm) : (s.setPair n x).conflicts = s.conflicts := rfl
@[simp] theorem setPair_free (n : Nat) (x : Pwm) : (s.setPair n x).free = s.free := rfl
@[simp] theorem setPair_regs (n : Nat) (x : Pwm) : (s.setPair n x).regs = s.regs := rfl
@[simp] theorem setPair_owners (n : Nat) (x : Pwm) : (s.setPair n x).owners = s.owners := rfl
@[simp] theorem setPair_mem (n : Nat) (x : Pwm) : (s.setPair n x).mem = s.mem := rfl
@[simp] theorem setPair_loc (n : Nat) (x : Pwm) : (s.setPair n x).loc = s.loc := rfl
@[simp] theorem setPair_spine (n : Nat) (x : Pwm) : (s.setPair n x).spine = s.spine := rfl
@[simp] theorem setPair_census (n : Nat) (x : Pwm) : (s.setPair n x).census = s.census := rfl
@[simp] theorem setPair_cores (n : Nat) (x : Pwm) : (s.setPair n x).cores = s.cores := rfl
@[simp] theorem setPair_tasks (n : Nat) (x : Pwm) : (s.setPair n x).tasks = s.tasks := rfl
@[simp] theorem setPair_sched (n : Nat) (x : Pwm) : (s.setPair n x).sched = s.sched := rfl
@[simp] theorem setPair_exch (n : Nat) (x : Pwm) : (s.setPair n x).exch = s.exch := rfl
@[simp] theorem setPair_coords (n : Nat) (x : Pwm) : (s.setPair n x).coords = s.coords := rfl
@[simp] theorem setPair_cues (n : Nat) (x : Pwm) : (s.setPair n x).cues = s.cues := rfl
@[simp] theorem setPair_actions (n : Nat) (x : Pwm) : (s.setPair n x).actions = s.actions := rfl
@[simp] theorem setPair_actionsDone (n : Nat) (x : Pwm) : (s.setPair n x).actionsDone = s.actionsDone := rfl
@[simp] theorem setPair_orders (n : Nat) (x : Pwm) : (s.setPair n x).orders = s.orders := rfl
@[simp] theorem setPair_lanes (n : Nat) (x : Pwm) : (s.setPair n x).lanes = s.lanes := rfl
@[simp] theorem setPair_lawLate (n : Nat) (x : Pwm) : (s.setPair n x).lawLate = s.lawLate := rfl
@[simp] theorem setPair_spGroups (n : Nat) (x : Pwm) : (s.setPair n x).spGroups = s.spGroups := rfl
@[simp] theorem setPair_axes (n : Nat) (x : Pwm) : (s.setPair n x).axes = s.axes := rfl
@[simp] theorem setPair_axGroups (n : Nat) (x : Pwm) : (s.setPair n x).axGroups = s.axGroups := rfl
@[simp] theorem setPair_steps (n : Nat) (x : Pwm) : (s.setPair n x).steps = s.steps := rfl
@[simp] theorem setPair_chops (n : Nat) (x : Pwm) : (s.setPair n x).chops = s.chops := rfl
@[simp] theorem setPair_trips (n : Nat) (x : Pwm) : (s.setPair n x).trips = s.trips := rfl
@[simp] theorem setPair_convs (n : Nat) (x : Pwm) : (s.setPair n x).convs = s.convs := rfl
@[simp] theorem setPair_ains (n : Nat) (x : Pwm) : (s.setPair n x).ains = s.ains := rfl
@[simp] theorem setPair_field (n : Nat) (x : Pwm) : (s.setPair n x).field = s.field := rfl
@[simp] theorem setPair_encs (n : Nat) (x : Pwm) : (s.setPair n x).encs = s.encs := rfl
@[simp] theorem setPair_rings (n : Nat) (x : Pwm) : (s.setPair n x).rings = s.rings := rfl
@[simp] theorem setPair_cans (n : Nat) (x : Pwm) : (s.setPair n x).cans = s.cans := rfl
@[simp] theorem setPair_mbxBufs (n : Nat) (x : Pwm) : (s.setPair n x).mbxBufs = s.mbxBufs := rfl
@[simp] theorem setPair_hist (n : Nat) (x : Pwm) : (s.setPair n x).hist = s.hist := rfl
@[simp] theorem setPair_caps (n : Nat) (x : Pwm) : (s.setPair n x).caps = s.caps := rfl
@[simp] theorem setPair_pulses (n : Nat) (x : Pwm) : (s.setPair n x).pulses = s.pulses := rfl
@[simp] theorem setPair_calAt (n : Nat) (x : Pwm) : (s.setPair n x).calAt = s.calAt := rfl
@[simp] theorem setPair_mirror (n : Nat) (x : Pwm) : (s.setPair n x).mirror = s.mirror := rfl
@[simp] theorem setPair_evr (n : Nat) (x : Pwm) : (s.setPair n x).evr = s.evr := rfl
@[simp] theorem setPair_brim (n : Nat) (x : Pwm) : (s.setPair n x).brim = s.brim := rfl
@[simp] theorem setPair_modes (n : Nat) (x : Pwm) : (s.setPair n x).modes = s.modes := rfl
@[simp] theorem setPair_store (n : Nat) (x : Pwm) : (s.setPair n x).store = s.store := rfl
@[simp] theorem setPair_peer (n : Nat) (x : Pwm) : (s.setPair n x).peer = s.peer := rfl
@[simp] theorem setPair_twins (n : Nat) (x : Pwm) : (s.setPair n x).twins = s.twins := rfl
@[simp] theorem setPair_host (n : Nat) (x : Pwm) : (s.setPair n x).host = s.host := rfl
@[simp] theorem setPair_outbox (n : Nat) (x : Pwm) : (s.setPair n x).outbox = s.outbox := rfl
@[simp] theorem setPair_pending (n : Nat) (x : Pwm) : (s.setPair n x).pending = s.pending := rfl

/-! ### setChop -/

@[simp] theorem setChop_chop (n : Nat) (x : Chop) : (s.setChop n x).chop n = x := Tab.get_put_same _ _ _ _
theorem setChop_chop_ne (n : Nat) (x : Chop) (j : Nat) (h : j ≠ n) : (s.setChop n x).chop j = s.chop j := Tab.get_put_other _ _ _ _ h
@[simp] theorem setChop_now (n : Nat) (x : Chop) : (s.setChop n x).now = s.now := rfl
@[simp] theorem setChop_cc (n : Nat) (x : Chop) : (s.setChop n x).cc = s.cc := rfl
@[simp] theorem setChop_prevNow (n : Nat) (x : Chop) : (s.setChop n x).prevNow = s.prevNow := rfl
@[simp] theorem setChop_loadD (n : Nat) (x : Chop) : (s.setChop n x).loadD = s.loadD := rfl
@[simp] theorem setChop_clocks (n : Nat) (x : Chop) : (s.setChop n x).clocks = s.clocks := rfl
@[simp] theorem setChop_freqEst (n : Nat) (x : Chop) : (s.setChop n x).freqEst = s.freqEst := rfl
@[simp] theorem setChop_jLast (n : Nat) (x : Chop) : (s.setChop n x).jLast = s.jLast := rfl
@[simp] theorem setChop_conflicts (n : Nat) (x : Chop) : (s.setChop n x).conflicts = s.conflicts := rfl
@[simp] theorem setChop_free (n : Nat) (x : Chop) : (s.setChop n x).free = s.free := rfl
@[simp] theorem setChop_regs (n : Nat) (x : Chop) : (s.setChop n x).regs = s.regs := rfl
@[simp] theorem setChop_owners (n : Nat) (x : Chop) : (s.setChop n x).owners = s.owners := rfl
@[simp] theorem setChop_mem (n : Nat) (x : Chop) : (s.setChop n x).mem = s.mem := rfl
@[simp] theorem setChop_loc (n : Nat) (x : Chop) : (s.setChop n x).loc = s.loc := rfl
@[simp] theorem setChop_spine (n : Nat) (x : Chop) : (s.setChop n x).spine = s.spine := rfl
@[simp] theorem setChop_census (n : Nat) (x : Chop) : (s.setChop n x).census = s.census := rfl
@[simp] theorem setChop_cores (n : Nat) (x : Chop) : (s.setChop n x).cores = s.cores := rfl
@[simp] theorem setChop_tasks (n : Nat) (x : Chop) : (s.setChop n x).tasks = s.tasks := rfl
@[simp] theorem setChop_sched (n : Nat) (x : Chop) : (s.setChop n x).sched = s.sched := rfl
@[simp] theorem setChop_exch (n : Nat) (x : Chop) : (s.setChop n x).exch = s.exch := rfl
@[simp] theorem setChop_coords (n : Nat) (x : Chop) : (s.setChop n x).coords = s.coords := rfl
@[simp] theorem setChop_cues (n : Nat) (x : Chop) : (s.setChop n x).cues = s.cues := rfl
@[simp] theorem setChop_actions (n : Nat) (x : Chop) : (s.setChop n x).actions = s.actions := rfl
@[simp] theorem setChop_actionsDone (n : Nat) (x : Chop) : (s.setChop n x).actionsDone = s.actionsDone := rfl
@[simp] theorem setChop_orders (n : Nat) (x : Chop) : (s.setChop n x).orders = s.orders := rfl
@[simp] theorem setChop_lanes (n : Nat) (x : Chop) : (s.setChop n x).lanes = s.lanes := rfl
@[simp] theorem setChop_lawLate (n : Nat) (x : Chop) : (s.setChop n x).lawLate = s.lawLate := rfl
@[simp] theorem setChop_spGroups (n : Nat) (x : Chop) : (s.setChop n x).spGroups = s.spGroups := rfl
@[simp] theorem setChop_axes (n : Nat) (x : Chop) : (s.setChop n x).axes = s.axes := rfl
@[simp] theorem setChop_axGroups (n : Nat) (x : Chop) : (s.setChop n x).axGroups = s.axGroups := rfl
@[simp] theorem setChop_steps (n : Nat) (x : Chop) : (s.setChop n x).steps = s.steps := rfl
@[simp] theorem setChop_pwm (n : Nat) (x : Chop) : (s.setChop n x).pwm = s.pwm := rfl
@[simp] theorem setChop_convs (n : Nat) (x : Chop) : (s.setChop n x).convs = s.convs := rfl
@[simp] theorem setChop_ains (n : Nat) (x : Chop) : (s.setChop n x).ains = s.ains := rfl
@[simp] theorem setChop_field (n : Nat) (x : Chop) : (s.setChop n x).field = s.field := rfl
@[simp] theorem setChop_encs (n : Nat) (x : Chop) : (s.setChop n x).encs = s.encs := rfl
@[simp] theorem setChop_rings (n : Nat) (x : Chop) : (s.setChop n x).rings = s.rings := rfl
@[simp] theorem setChop_cans (n : Nat) (x : Chop) : (s.setChop n x).cans = s.cans := rfl
@[simp] theorem setChop_mbxBufs (n : Nat) (x : Chop) : (s.setChop n x).mbxBufs = s.mbxBufs := rfl
@[simp] theorem setChop_hist (n : Nat) (x : Chop) : (s.setChop n x).hist = s.hist := rfl
@[simp] theorem setChop_caps (n : Nat) (x : Chop) : (s.setChop n x).caps = s.caps := rfl
@[simp] theorem setChop_pulses (n : Nat) (x : Chop) : (s.setChop n x).pulses = s.pulses := rfl
@[simp] theorem setChop_calAt (n : Nat) (x : Chop) : (s.setChop n x).calAt = s.calAt := rfl
@[simp] theorem setChop_mirror (n : Nat) (x : Chop) : (s.setChop n x).mirror = s.mirror := rfl
@[simp] theorem setChop_evr (n : Nat) (x : Chop) : (s.setChop n x).evr = s.evr := rfl
@[simp] theorem setChop_brim (n : Nat) (x : Chop) : (s.setChop n x).brim = s.brim := rfl
@[simp] theorem setChop_modes (n : Nat) (x : Chop) : (s.setChop n x).modes = s.modes := rfl
@[simp] theorem setChop_store (n : Nat) (x : Chop) : (s.setChop n x).store = s.store := rfl
@[simp] theorem setChop_peer (n : Nat) (x : Chop) : (s.setChop n x).peer = s.peer := rfl
@[simp] theorem setChop_twins (n : Nat) (x : Chop) : (s.setChop n x).twins = s.twins := rfl
@[simp] theorem setChop_host (n : Nat) (x : Chop) : (s.setChop n x).host = s.host := rfl
@[simp] theorem setChop_outbox (n : Nat) (x : Chop) : (s.setChop n x).outbox = s.outbox := rfl
@[simp] theorem setChop_pending (n : Nat) (x : Chop) : (s.setChop n x).pending = s.pending := rfl

/-! ### setStep -/

@[simp] theorem setStep_stepGen (n : Nat) (x : StepGen) : (s.setStep n x).stepGen n = x := Tab.get_put_same _ _ _ _
theorem setStep_stepGen_ne (n : Nat) (x : StepGen) (j : Nat) (h : j ≠ n) : (s.setStep n x).stepGen j = s.stepGen j := Tab.get_put_other _ _ _ _ h
@[simp] theorem setStep_now (n : Nat) (x : StepGen) : (s.setStep n x).now = s.now := rfl
@[simp] theorem setStep_cc (n : Nat) (x : StepGen) : (s.setStep n x).cc = s.cc := rfl
@[simp] theorem setStep_prevNow (n : Nat) (x : StepGen) : (s.setStep n x).prevNow = s.prevNow := rfl
@[simp] theorem setStep_loadD (n : Nat) (x : StepGen) : (s.setStep n x).loadD = s.loadD := rfl
@[simp] theorem setStep_clocks (n : Nat) (x : StepGen) : (s.setStep n x).clocks = s.clocks := rfl
@[simp] theorem setStep_freqEst (n : Nat) (x : StepGen) : (s.setStep n x).freqEst = s.freqEst := rfl
@[simp] theorem setStep_jLast (n : Nat) (x : StepGen) : (s.setStep n x).jLast = s.jLast := rfl
@[simp] theorem setStep_conflicts (n : Nat) (x : StepGen) : (s.setStep n x).conflicts = s.conflicts := rfl
@[simp] theorem setStep_free (n : Nat) (x : StepGen) : (s.setStep n x).free = s.free := rfl
@[simp] theorem setStep_regs (n : Nat) (x : StepGen) : (s.setStep n x).regs = s.regs := rfl
@[simp] theorem setStep_owners (n : Nat) (x : StepGen) : (s.setStep n x).owners = s.owners := rfl
@[simp] theorem setStep_mem (n : Nat) (x : StepGen) : (s.setStep n x).mem = s.mem := rfl
@[simp] theorem setStep_loc (n : Nat) (x : StepGen) : (s.setStep n x).loc = s.loc := rfl
@[simp] theorem setStep_spine (n : Nat) (x : StepGen) : (s.setStep n x).spine = s.spine := rfl
@[simp] theorem setStep_census (n : Nat) (x : StepGen) : (s.setStep n x).census = s.census := rfl
@[simp] theorem setStep_cores (n : Nat) (x : StepGen) : (s.setStep n x).cores = s.cores := rfl
@[simp] theorem setStep_tasks (n : Nat) (x : StepGen) : (s.setStep n x).tasks = s.tasks := rfl
@[simp] theorem setStep_sched (n : Nat) (x : StepGen) : (s.setStep n x).sched = s.sched := rfl
@[simp] theorem setStep_exch (n : Nat) (x : StepGen) : (s.setStep n x).exch = s.exch := rfl
@[simp] theorem setStep_coords (n : Nat) (x : StepGen) : (s.setStep n x).coords = s.coords := rfl
@[simp] theorem setStep_cues (n : Nat) (x : StepGen) : (s.setStep n x).cues = s.cues := rfl
@[simp] theorem setStep_actions (n : Nat) (x : StepGen) : (s.setStep n x).actions = s.actions := rfl
@[simp] theorem setStep_actionsDone (n : Nat) (x : StepGen) : (s.setStep n x).actionsDone = s.actionsDone := rfl
@[simp] theorem setStep_orders (n : Nat) (x : StepGen) : (s.setStep n x).orders = s.orders := rfl
@[simp] theorem setStep_lanes (n : Nat) (x : StepGen) : (s.setStep n x).lanes = s.lanes := rfl
@[simp] theorem setStep_lawLate (n : Nat) (x : StepGen) : (s.setStep n x).lawLate = s.lawLate := rfl
@[simp] theorem setStep_spGroups (n : Nat) (x : StepGen) : (s.setStep n x).spGroups = s.spGroups := rfl
@[simp] theorem setStep_axes (n : Nat) (x : StepGen) : (s.setStep n x).axes = s.axes := rfl
@[simp] theorem setStep_axGroups (n : Nat) (x : StepGen) : (s.setStep n x).axGroups = s.axGroups := rfl
@[simp] theorem setStep_pwm (n : Nat) (x : StepGen) : (s.setStep n x).pwm = s.pwm := rfl
@[simp] theorem setStep_chops (n : Nat) (x : StepGen) : (s.setStep n x).chops = s.chops := rfl
@[simp] theorem setStep_trips (n : Nat) (x : StepGen) : (s.setStep n x).trips = s.trips := rfl
@[simp] theorem setStep_convs (n : Nat) (x : StepGen) : (s.setStep n x).convs = s.convs := rfl
@[simp] theorem setStep_ains (n : Nat) (x : StepGen) : (s.setStep n x).ains = s.ains := rfl
@[simp] theorem setStep_field (n : Nat) (x : StepGen) : (s.setStep n x).field = s.field := rfl
@[simp] theorem setStep_encs (n : Nat) (x : StepGen) : (s.setStep n x).encs = s.encs := rfl
@[simp] theorem setStep_rings (n : Nat) (x : StepGen) : (s.setStep n x).rings = s.rings := rfl
@[simp] theorem setStep_cans (n : Nat) (x : StepGen) : (s.setStep n x).cans = s.cans := rfl
@[simp] theorem setStep_mbxBufs (n : Nat) (x : StepGen) : (s.setStep n x).mbxBufs = s.mbxBufs := rfl
@[simp] theorem setStep_hist (n : Nat) (x : StepGen) : (s.setStep n x).hist = s.hist := rfl
@[simp] theorem setStep_caps (n : Nat) (x : StepGen) : (s.setStep n x).caps = s.caps := rfl
@[simp] theorem setStep_pulses (n : Nat) (x : StepGen) : (s.setStep n x).pulses = s.pulses := rfl
@[simp] theorem setStep_calAt (n : Nat) (x : StepGen) : (s.setStep n x).calAt = s.calAt := rfl
@[simp] theorem setStep_mirror (n : Nat) (x : StepGen) : (s.setStep n x).mirror = s.mirror := rfl
@[simp] theorem setStep_evr (n : Nat) (x : StepGen) : (s.setStep n x).evr = s.evr := rfl
@[simp] theorem setStep_brim (n : Nat) (x : StepGen) : (s.setStep n x).brim = s.brim := rfl
@[simp] theorem setStep_modes (n : Nat) (x : StepGen) : (s.setStep n x).modes = s.modes := rfl
@[simp] theorem setStep_store (n : Nat) (x : StepGen) : (s.setStep n x).store = s.store := rfl
@[simp] theorem setStep_peer (n : Nat) (x : StepGen) : (s.setStep n x).peer = s.peer := rfl
@[simp] theorem setStep_twins (n : Nat) (x : StepGen) : (s.setStep n x).twins = s.twins := rfl
@[simp] theorem setStep_host (n : Nat) (x : StepGen) : (s.setStep n x).host = s.host := rfl
@[simp] theorem setStep_outbox (n : Nat) (x : StepGen) : (s.setStep n x).outbox = s.outbox := rfl
@[simp] theorem setStep_pending (n : Nat) (x : StepGen) : (s.setStep n x).pending = s.pending := rfl

/-! ### setEnc -/

@[simp] theorem setEnc_enc (n : Nat) (x : Encoder) : (s.setEnc n x).enc n = x := Tab.get_put_same _ _ _ _
theorem setEnc_enc_ne (n : Nat) (x : Encoder) (j : Nat) (h : j ≠ n) : (s.setEnc n x).enc j = s.enc j := Tab.get_put_other _ _ _ _ h
@[simp] theorem setEnc_now (n : Nat) (x : Encoder) : (s.setEnc n x).now = s.now := rfl
@[simp] theorem setEnc_cc (n : Nat) (x : Encoder) : (s.setEnc n x).cc = s.cc := rfl
@[simp] theorem setEnc_prevNow (n : Nat) (x : Encoder) : (s.setEnc n x).prevNow = s.prevNow := rfl
@[simp] theorem setEnc_loadD (n : Nat) (x : Encoder) : (s.setEnc n x).loadD = s.loadD := rfl
@[simp] theorem setEnc_clocks (n : Nat) (x : Encoder) : (s.setEnc n x).clocks = s.clocks := rfl
@[simp] theorem setEnc_freqEst (n : Nat) (x : Encoder) : (s.setEnc n x).freqEst = s.freqEst := rfl
@[simp] theorem setEnc_jLast (n : Nat) (x : Encoder) : (s.setEnc n x).jLast = s.jLast := rfl
@[simp] theorem setEnc_conflicts (n : Nat) (x : Encoder) : (s.setEnc n x).conflicts = s.conflicts := rfl
@[simp] theorem setEnc_free (n : Nat) (x : Encoder) : (s.setEnc n x).free = s.free := rfl
@[simp] theorem setEnc_regs (n : Nat) (x : Encoder) : (s.setEnc n x).regs = s.regs := rfl
@[simp] theorem setEnc_owners (n : Nat) (x : Encoder) : (s.setEnc n x).owners = s.owners := rfl
@[simp] theorem setEnc_mem (n : Nat) (x : Encoder) : (s.setEnc n x).mem = s.mem := rfl
@[simp] theorem setEnc_loc (n : Nat) (x : Encoder) : (s.setEnc n x).loc = s.loc := rfl
@[simp] theorem setEnc_spine (n : Nat) (x : Encoder) : (s.setEnc n x).spine = s.spine := rfl
@[simp] theorem setEnc_census (n : Nat) (x : Encoder) : (s.setEnc n x).census = s.census := rfl
@[simp] theorem setEnc_cores (n : Nat) (x : Encoder) : (s.setEnc n x).cores = s.cores := rfl
@[simp] theorem setEnc_tasks (n : Nat) (x : Encoder) : (s.setEnc n x).tasks = s.tasks := rfl
@[simp] theorem setEnc_sched (n : Nat) (x : Encoder) : (s.setEnc n x).sched = s.sched := rfl
@[simp] theorem setEnc_exch (n : Nat) (x : Encoder) : (s.setEnc n x).exch = s.exch := rfl
@[simp] theorem setEnc_coords (n : Nat) (x : Encoder) : (s.setEnc n x).coords = s.coords := rfl
@[simp] theorem setEnc_cues (n : Nat) (x : Encoder) : (s.setEnc n x).cues = s.cues := rfl
@[simp] theorem setEnc_actions (n : Nat) (x : Encoder) : (s.setEnc n x).actions = s.actions := rfl
@[simp] theorem setEnc_actionsDone (n : Nat) (x : Encoder) : (s.setEnc n x).actionsDone = s.actionsDone := rfl
@[simp] theorem setEnc_orders (n : Nat) (x : Encoder) : (s.setEnc n x).orders = s.orders := rfl
@[simp] theorem setEnc_lanes (n : Nat) (x : Encoder) : (s.setEnc n x).lanes = s.lanes := rfl
@[simp] theorem setEnc_lawLate (n : Nat) (x : Encoder) : (s.setEnc n x).lawLate = s.lawLate := rfl
@[simp] theorem setEnc_spGroups (n : Nat) (x : Encoder) : (s.setEnc n x).spGroups = s.spGroups := rfl
@[simp] theorem setEnc_axes (n : Nat) (x : Encoder) : (s.setEnc n x).axes = s.axes := rfl
@[simp] theorem setEnc_axGroups (n : Nat) (x : Encoder) : (s.setEnc n x).axGroups = s.axGroups := rfl
@[simp] theorem setEnc_steps (n : Nat) (x : Encoder) : (s.setEnc n x).steps = s.steps := rfl
@[simp] theorem setEnc_pwm (n : Nat) (x : Encoder) : (s.setEnc n x).pwm = s.pwm := rfl
@[simp] theorem setEnc_chops (n : Nat) (x : Encoder) : (s.setEnc n x).chops = s.chops := rfl
@[simp] theorem setEnc_trips (n : Nat) (x : Encoder) : (s.setEnc n x).trips = s.trips := rfl
@[simp] theorem setEnc_convs (n : Nat) (x : Encoder) : (s.setEnc n x).convs = s.convs := rfl
@[simp] theorem setEnc_ains (n : Nat) (x : Encoder) : (s.setEnc n x).ains = s.ains := rfl
@[simp] theorem setEnc_field (n : Nat) (x : Encoder) : (s.setEnc n x).field = s.field := rfl
@[simp] theorem setEnc_rings (n : Nat) (x : Encoder) : (s.setEnc n x).rings = s.rings := rfl
@[simp] theorem setEnc_cans (n : Nat) (x : Encoder) : (s.setEnc n x).cans = s.cans := rfl
@[simp] theorem setEnc_mbxBufs (n : Nat) (x : Encoder) : (s.setEnc n x).mbxBufs = s.mbxBufs := rfl
@[simp] theorem setEnc_hist (n : Nat) (x : Encoder) : (s.setEnc n x).hist = s.hist := rfl
@[simp] theorem setEnc_caps (n : Nat) (x : Encoder) : (s.setEnc n x).caps = s.caps := rfl
@[simp] theorem setEnc_pulses (n : Nat) (x : Encoder) : (s.setEnc n x).pulses = s.pulses := rfl
@[simp] theorem setEnc_calAt (n : Nat) (x : Encoder) : (s.setEnc n x).calAt = s.calAt := rfl
@[simp] theorem setEnc_mirror (n : Nat) (x : Encoder) : (s.setEnc n x).mirror = s.mirror := rfl
@[simp] theorem setEnc_evr (n : Nat) (x : Encoder) : (s.setEnc n x).evr = s.evr := rfl
@[simp] theorem setEnc_brim (n : Nat) (x : Encoder) : (s.setEnc n x).brim = s.brim := rfl
@[simp] theorem setEnc_modes (n : Nat) (x : Encoder) : (s.setEnc n x).modes = s.modes := rfl
@[simp] theorem setEnc_store (n : Nat) (x : Encoder) : (s.setEnc n x).store = s.store := rfl
@[simp] theorem setEnc_peer (n : Nat) (x : Encoder) : (s.setEnc n x).peer = s.peer := rfl
@[simp] theorem setEnc_twins (n : Nat) (x : Encoder) : (s.setEnc n x).twins = s.twins := rfl
@[simp] theorem setEnc_host (n : Nat) (x : Encoder) : (s.setEnc n x).host = s.host := rfl
@[simp] theorem setEnc_outbox (n : Nat) (x : Encoder) : (s.setEnc n x).outbox = s.outbox := rfl
@[simp] theorem setEnc_pending (n : Nat) (x : Encoder) : (s.setEnc n x).pending = s.pending := rfl

/-! ### setSpGroup -/

@[simp] theorem setSpGroup_spGroup (n : Nat) (x : SpGroup) : (s.setSpGroup n x).spGroup n = x := Tab.get_put_same _ _ _ _
theorem setSpGroup_spGroup_ne (n : Nat) (x : SpGroup) (j : Nat) (h : j ≠ n) : (s.setSpGroup n x).spGroup j = s.spGroup j := Tab.get_put_other _ _ _ _ h
@[simp] theorem setSpGroup_now (n : Nat) (x : SpGroup) : (s.setSpGroup n x).now = s.now := rfl
@[simp] theorem setSpGroup_cc (n : Nat) (x : SpGroup) : (s.setSpGroup n x).cc = s.cc := rfl
@[simp] theorem setSpGroup_prevNow (n : Nat) (x : SpGroup) : (s.setSpGroup n x).prevNow = s.prevNow := rfl
@[simp] theorem setSpGroup_loadD (n : Nat) (x : SpGroup) : (s.setSpGroup n x).loadD = s.loadD := rfl
@[simp] theorem setSpGroup_clocks (n : Nat) (x : SpGroup) : (s.setSpGroup n x).clocks = s.clocks := rfl
@[simp] theorem setSpGroup_freqEst (n : Nat) (x : SpGroup) : (s.setSpGroup n x).freqEst = s.freqEst := rfl
@[simp] theorem setSpGroup_jLast (n : Nat) (x : SpGroup) : (s.setSpGroup n x).jLast = s.jLast := rfl
@[simp] theorem setSpGroup_conflicts (n : Nat) (x : SpGroup) : (s.setSpGroup n x).conflicts = s.conflicts := rfl
@[simp] theorem setSpGroup_free (n : Nat) (x : SpGroup) : (s.setSpGroup n x).free = s.free := rfl
@[simp] theorem setSpGroup_regs (n : Nat) (x : SpGroup) : (s.setSpGroup n x).regs = s.regs := rfl
@[simp] theorem setSpGroup_owners (n : Nat) (x : SpGroup) : (s.setSpGroup n x).owners = s.owners := rfl
@[simp] theorem setSpGroup_mem (n : Nat) (x : SpGroup) : (s.setSpGroup n x).mem = s.mem := rfl
@[simp] theorem setSpGroup_loc (n : Nat) (x : SpGroup) : (s.setSpGroup n x).loc = s.loc := rfl
@[simp] theorem setSpGroup_spine (n : Nat) (x : SpGroup) : (s.setSpGroup n x).spine = s.spine := rfl
@[simp] theorem setSpGroup_census (n : Nat) (x : SpGroup) : (s.setSpGroup n x).census = s.census := rfl
@[simp] theorem setSpGroup_cores (n : Nat) (x : SpGroup) : (s.setSpGroup n x).cores = s.cores := rfl
@[simp] theorem setSpGroup_tasks (n : Nat) (x : SpGroup) : (s.setSpGroup n x).tasks = s.tasks := rfl
@[simp] theorem setSpGroup_sched (n : Nat) (x : SpGroup) : (s.setSpGroup n x).sched = s.sched := rfl
@[simp] theorem setSpGroup_exch (n : Nat) (x : SpGroup) : (s.setSpGroup n x).exch = s.exch := rfl
@[simp] theorem setSpGroup_coords (n : Nat) (x : SpGroup) : (s.setSpGroup n x).coords = s.coords := rfl
@[simp] theorem setSpGroup_cues (n : Nat) (x : SpGroup) : (s.setSpGroup n x).cues = s.cues := rfl
@[simp] theorem setSpGroup_actions (n : Nat) (x : SpGroup) : (s.setSpGroup n x).actions = s.actions := rfl
@[simp] theorem setSpGroup_actionsDone (n : Nat) (x : SpGroup) : (s.setSpGroup n x).actionsDone = s.actionsDone := rfl
@[simp] theorem setSpGroup_orders (n : Nat) (x : SpGroup) : (s.setSpGroup n x).orders = s.orders := rfl
@[simp] theorem setSpGroup_lanes (n : Nat) (x : SpGroup) : (s.setSpGroup n x).lanes = s.lanes := rfl
@[simp] theorem setSpGroup_lawLate (n : Nat) (x : SpGroup) : (s.setSpGroup n x).lawLate = s.lawLate := rfl
@[simp] theorem setSpGroup_axes (n : Nat) (x : SpGroup) : (s.setSpGroup n x).axes = s.axes := rfl
@[simp] theorem setSpGroup_axGroups (n : Nat) (x : SpGroup) : (s.setSpGroup n x).axGroups = s.axGroups := rfl
@[simp] theorem setSpGroup_steps (n : Nat) (x : SpGroup) : (s.setSpGroup n x).steps = s.steps := rfl
@[simp] theorem setSpGroup_pwm (n : Nat) (x : SpGroup) : (s.setSpGroup n x).pwm = s.pwm := rfl
@[simp] theorem setSpGroup_chops (n : Nat) (x : SpGroup) : (s.setSpGroup n x).chops = s.chops := rfl
@[simp] theorem setSpGroup_trips (n : Nat) (x : SpGroup) : (s.setSpGroup n x).trips = s.trips := rfl
@[simp] theorem setSpGroup_convs (n : Nat) (x : SpGroup) : (s.setSpGroup n x).convs = s.convs := rfl
@[simp] theorem setSpGroup_ains (n : Nat) (x : SpGroup) : (s.setSpGroup n x).ains = s.ains := rfl
@[simp] theorem setSpGroup_field (n : Nat) (x : SpGroup) : (s.setSpGroup n x).field = s.field := rfl
@[simp] theorem setSpGroup_encs (n : Nat) (x : SpGroup) : (s.setSpGroup n x).encs = s.encs := rfl
@[simp] theorem setSpGroup_rings (n : Nat) (x : SpGroup) : (s.setSpGroup n x).rings = s.rings := rfl
@[simp] theorem setSpGroup_cans (n : Nat) (x : SpGroup) : (s.setSpGroup n x).cans = s.cans := rfl
@[simp] theorem setSpGroup_mbxBufs (n : Nat) (x : SpGroup) : (s.setSpGroup n x).mbxBufs = s.mbxBufs := rfl
@[simp] theorem setSpGroup_hist (n : Nat) (x : SpGroup) : (s.setSpGroup n x).hist = s.hist := rfl
@[simp] theorem setSpGroup_caps (n : Nat) (x : SpGroup) : (s.setSpGroup n x).caps = s.caps := rfl
@[simp] theorem setSpGroup_pulses (n : Nat) (x : SpGroup) : (s.setSpGroup n x).pulses = s.pulses := rfl
@[simp] theorem setSpGroup_calAt (n : Nat) (x : SpGroup) : (s.setSpGroup n x).calAt = s.calAt := rfl
@[simp] theorem setSpGroup_mirror (n : Nat) (x : SpGroup) : (s.setSpGroup n x).mirror = s.mirror := rfl
@[simp] theorem setSpGroup_evr (n : Nat) (x : SpGroup) : (s.setSpGroup n x).evr = s.evr := rfl
@[simp] theorem setSpGroup_brim (n : Nat) (x : SpGroup) : (s.setSpGroup n x).brim = s.brim := rfl
@[simp] theorem setSpGroup_modes (n : Nat) (x : SpGroup) : (s.setSpGroup n x).modes = s.modes := rfl
@[simp] theorem setSpGroup_store (n : Nat) (x : SpGroup) : (s.setSpGroup n x).store = s.store := rfl
@[simp] theorem setSpGroup_peer (n : Nat) (x : SpGroup) : (s.setSpGroup n x).peer = s.peer := rfl
@[simp] theorem setSpGroup_twins (n : Nat) (x : SpGroup) : (s.setSpGroup n x).twins = s.twins := rfl
@[simp] theorem setSpGroup_host (n : Nat) (x : SpGroup) : (s.setSpGroup n x).host = s.host := rfl
@[simp] theorem setSpGroup_outbox (n : Nat) (x : SpGroup) : (s.setSpGroup n x).outbox = s.outbox := rfl
@[simp] theorem setSpGroup_pending (n : Nat) (x : SpGroup) : (s.setSpGroup n x).pending = s.pending := rfl

/-! ### setAgroup -/

@[simp] theorem setAgroup_agroup (n : Nat) (x : AGroup) : (s.setAgroup n x).agroup n = x := Tab.get_put_same _ _ _ _
theorem setAgroup_agroup_ne (n : Nat) (x : AGroup) (j : Nat) (h : j ≠ n) : (s.setAgroup n x).agroup j = s.agroup j := Tab.get_put_other _ _ _ _ h
@[simp] theorem setAgroup_now (n : Nat) (x : AGroup) : (s.setAgroup n x).now = s.now := rfl
@[simp] theorem setAgroup_cc (n : Nat) (x : AGroup) : (s.setAgroup n x).cc = s.cc := rfl
@[simp] theorem setAgroup_prevNow (n : Nat) (x : AGroup) : (s.setAgroup n x).prevNow = s.prevNow := rfl
@[simp] theorem setAgroup_loadD (n : Nat) (x : AGroup) : (s.setAgroup n x).loadD = s.loadD := rfl
@[simp] theorem setAgroup_clocks (n : Nat) (x : AGroup) : (s.setAgroup n x).clocks = s.clocks := rfl
@[simp] theorem setAgroup_freqEst (n : Nat) (x : AGroup) : (s.setAgroup n x).freqEst = s.freqEst := rfl
@[simp] theorem setAgroup_jLast (n : Nat) (x : AGroup) : (s.setAgroup n x).jLast = s.jLast := rfl
@[simp] theorem setAgroup_conflicts (n : Nat) (x : AGroup) : (s.setAgroup n x).conflicts = s.conflicts := rfl
@[simp] theorem setAgroup_free (n : Nat) (x : AGroup) : (s.setAgroup n x).free = s.free := rfl
@[simp] theorem setAgroup_regs (n : Nat) (x : AGroup) : (s.setAgroup n x).regs = s.regs := rfl
@[simp] theorem setAgroup_owners (n : Nat) (x : AGroup) : (s.setAgroup n x).owners = s.owners := rfl
@[simp] theorem setAgroup_mem (n : Nat) (x : AGroup) : (s.setAgroup n x).mem = s.mem := rfl
@[simp] theorem setAgroup_loc (n : Nat) (x : AGroup) : (s.setAgroup n x).loc = s.loc := rfl
@[simp] theorem setAgroup_spine (n : Nat) (x : AGroup) : (s.setAgroup n x).spine = s.spine := rfl
@[simp] theorem setAgroup_census (n : Nat) (x : AGroup) : (s.setAgroup n x).census = s.census := rfl
@[simp] theorem setAgroup_cores (n : Nat) (x : AGroup) : (s.setAgroup n x).cores = s.cores := rfl
@[simp] theorem setAgroup_tasks (n : Nat) (x : AGroup) : (s.setAgroup n x).tasks = s.tasks := rfl
@[simp] theorem setAgroup_sched (n : Nat) (x : AGroup) : (s.setAgroup n x).sched = s.sched := rfl
@[simp] theorem setAgroup_exch (n : Nat) (x : AGroup) : (s.setAgroup n x).exch = s.exch := rfl
@[simp] theorem setAgroup_coords (n : Nat) (x : AGroup) : (s.setAgroup n x).coords = s.coords := rfl
@[simp] theorem setAgroup_cues (n : Nat) (x : AGroup) : (s.setAgroup n x).cues = s.cues := rfl
@[simp] theorem setAgroup_actions (n : Nat) (x : AGroup) : (s.setAgroup n x).actions = s.actions := rfl
@[simp] theorem setAgroup_actionsDone (n : Nat) (x : AGroup) : (s.setAgroup n x).actionsDone = s.actionsDone := rfl
@[simp] theorem setAgroup_orders (n : Nat) (x : AGroup) : (s.setAgroup n x).orders = s.orders := rfl
@[simp] theorem setAgroup_lanes (n : Nat) (x : AGroup) : (s.setAgroup n x).lanes = s.lanes := rfl
@[simp] theorem setAgroup_lawLate (n : Nat) (x : AGroup) : (s.setAgroup n x).lawLate = s.lawLate := rfl
@[simp] theorem setAgroup_spGroups (n : Nat) (x : AGroup) : (s.setAgroup n x).spGroups = s.spGroups := rfl
@[simp] theorem setAgroup_axes (n : Nat) (x : AGroup) : (s.setAgroup n x).axes = s.axes := rfl
@[simp] theorem setAgroup_steps (n : Nat) (x : AGroup) : (s.setAgroup n x).steps = s.steps := rfl
@[simp] theorem setAgroup_pwm (n : Nat) (x : AGroup) : (s.setAgroup n x).pwm = s.pwm := rfl
@[simp] theorem setAgroup_chops (n : Nat) (x : AGroup) : (s.setAgroup n x).chops = s.chops := rfl
@[simp] theorem setAgroup_trips (n : Nat) (x : AGroup) : (s.setAgroup n x).trips = s.trips := rfl
@[simp] theorem setAgroup_convs (n : Nat) (x : AGroup) : (s.setAgroup n x).convs = s.convs := rfl
@[simp] theorem setAgroup_ains (n : Nat) (x : AGroup) : (s.setAgroup n x).ains = s.ains := rfl
@[simp] theorem setAgroup_field (n : Nat) (x : AGroup) : (s.setAgroup n x).field = s.field := rfl
@[simp] theorem setAgroup_encs (n : Nat) (x : AGroup) : (s.setAgroup n x).encs = s.encs := rfl
@[simp] theorem setAgroup_rings (n : Nat) (x : AGroup) : (s.setAgroup n x).rings = s.rings := rfl
@[simp] theorem setAgroup_cans (n : Nat) (x : AGroup) : (s.setAgroup n x).cans = s.cans := rfl
@[simp] theorem setAgroup_mbxBufs (n : Nat) (x : AGroup) : (s.setAgroup n x).mbxBufs = s.mbxBufs := rfl
@[simp] theorem setAgroup_hist (n : Nat) (x : AGroup) : (s.setAgroup n x).hist = s.hist := rfl
@[simp] theorem setAgroup_caps (n : Nat) (x : AGroup) : (s.setAgroup n x).caps = s.caps := rfl
@[simp] theorem setAgroup_pulses (n : Nat) (x : AGroup) : (s.setAgroup n x).pulses = s.pulses := rfl
@[simp] theorem setAgroup_calAt (n : Nat) (x : AGroup) : (s.setAgroup n x).calAt = s.calAt := rfl
@[simp] theorem setAgroup_mirror (n : Nat) (x : AGroup) : (s.setAgroup n x).mirror = s.mirror := rfl
@[simp] theorem setAgroup_evr (n : Nat) (x : AGroup) : (s.setAgroup n x).evr = s.evr := rfl
@[simp] theorem setAgroup_brim (n : Nat) (x : AGroup) : (s.setAgroup n x).brim = s.brim := rfl
@[simp] theorem setAgroup_modes (n : Nat) (x : AGroup) : (s.setAgroup n x).modes = s.modes := rfl
@[simp] theorem setAgroup_store (n : Nat) (x : AGroup) : (s.setAgroup n x).store = s.store := rfl
@[simp] theorem setAgroup_peer (n : Nat) (x : AGroup) : (s.setAgroup n x).peer = s.peer := rfl
@[simp] theorem setAgroup_twins (n : Nat) (x : AGroup) : (s.setAgroup n x).twins = s.twins := rfl
@[simp] theorem setAgroup_host (n : Nat) (x : AGroup) : (s.setAgroup n x).host = s.host := rfl
@[simp] theorem setAgroup_outbox (n : Nat) (x : AGroup) : (s.setAgroup n x).outbox = s.outbox := rfl
@[simp] theorem setAgroup_pending (n : Nat) (x : AGroup) : (s.setAgroup n x).pending = s.pending := rfl

/-! ### setTwin -/

@[simp] theorem setTwin_twin (n : Nat) (x : Twin) : (s.setTwin n x).twin n = x := Tab.get_put_same _ _ _ _
theorem setTwin_twin_ne (n : Nat) (x : Twin) (j : Nat) (h : j ≠ n) : (s.setTwin n x).twin j = s.twin j := Tab.get_put_other _ _ _ _ h
@[simp] theorem setTwin_now (n : Nat) (x : Twin) : (s.setTwin n x).now = s.now := rfl
@[simp] theorem setTwin_cc (n : Nat) (x : Twin) : (s.setTwin n x).cc = s.cc := rfl
@[simp] theorem setTwin_prevNow (n : Nat) (x : Twin) : (s.setTwin n x).prevNow = s.prevNow := rfl
@[simp] theorem setTwin_loadD (n : Nat) (x : Twin) : (s.setTwin n x).loadD = s.loadD := rfl
@[simp] theorem setTwin_clocks (n : Nat) (x : Twin) : (s.setTwin n x).clocks = s.clocks := rfl
@[simp] theorem setTwin_freqEst (n : Nat) (x : Twin) : (s.setTwin n x).freqEst = s.freqEst := rfl
@[simp] theorem setTwin_jLast (n : Nat) (x : Twin) : (s.setTwin n x).jLast = s.jLast := rfl
@[simp] theorem setTwin_conflicts (n : Nat) (x : Twin) : (s.setTwin n x).conflicts = s.conflicts := rfl
@[simp] theorem setTwin_free (n : Nat) (x : Twin) : (s.setTwin n x).free = s.free := rfl
@[simp] theorem setTwin_regs (n : Nat) (x : Twin) : (s.setTwin n x).regs = s.regs := rfl
@[simp] theorem setTwin_owners (n : Nat) (x : Twin) : (s.setTwin n x).owners = s.owners := rfl
@[simp] theorem setTwin_mem (n : Nat) (x : Twin) : (s.setTwin n x).mem = s.mem := rfl
@[simp] theorem setTwin_loc (n : Nat) (x : Twin) : (s.setTwin n x).loc = s.loc := rfl
@[simp] theorem setTwin_spine (n : Nat) (x : Twin) : (s.setTwin n x).spine = s.spine := rfl
@[simp] theorem setTwin_census (n : Nat) (x : Twin) : (s.setTwin n x).census = s.census := rfl
@[simp] theorem setTwin_cores (n : Nat) (x : Twin) : (s.setTwin n x).cores = s.cores := rfl
@[simp] theorem setTwin_tasks (n : Nat) (x : Twin) : (s.setTwin n x).tasks = s.tasks := rfl
@[simp] theorem setTwin_sched (n : Nat) (x : Twin) : (s.setTwin n x).sched = s.sched := rfl
@[simp] theorem setTwin_exch (n : Nat) (x : Twin) : (s.setTwin n x).exch = s.exch := rfl
@[simp] theorem setTwin_coords (n : Nat) (x : Twin) : (s.setTwin n x).coords = s.coords := rfl
@[simp] theorem setTwin_cues (n : Nat) (x : Twin) : (s.setTwin n x).cues = s.cues := rfl
@[simp] theorem setTwin_actions (n : Nat) (x : Twin) : (s.setTwin n x).actions = s.actions := rfl
@[simp] theorem setTwin_actionsDone (n : Nat) (x : Twin) : (s.setTwin n x).actionsDone = s.actionsDone := rfl
@[simp] theorem setTwin_orders (n : Nat) (x : Twin) : (s.setTwin n x).orders = s.orders := rfl
@[simp] theorem setTwin_lanes (n : Nat) (x : Twin) : (s.setTwin n x).lanes = s.lanes := rfl
@[simp] theorem setTwin_lawLate (n : Nat) (x : Twin) : (s.setTwin n x).lawLate = s.lawLate := rfl
@[simp] theorem setTwin_spGroups (n : Nat) (x : Twin) : (s.setTwin n x).spGroups = s.spGroups := rfl
@[simp] theorem setTwin_axes (n : Nat) (x : Twin) : (s.setTwin n x).axes = s.axes := rfl
@[simp] theorem setTwin_axGroups (n : Nat) (x : Twin) : (s.setTwin n x).axGroups = s.axGroups := rfl
@[simp] theorem setTwin_steps (n : Nat) (x : Twin) : (s.setTwin n x).steps = s.steps := rfl
@[simp] theorem setTwin_pwm (n : Nat) (x : Twin) : (s.setTwin n x).pwm = s.pwm := rfl
@[simp] theorem setTwin_chops (n : Nat) (x : Twin) : (s.setTwin n x).chops = s.chops := rfl
@[simp] theorem setTwin_trips (n : Nat) (x : Twin) : (s.setTwin n x).trips = s.trips := rfl
@[simp] theorem setTwin_convs (n : Nat) (x : Twin) : (s.setTwin n x).convs = s.convs := rfl
@[simp] theorem setTwin_ains (n : Nat) (x : Twin) : (s.setTwin n x).ains = s.ains := rfl
@[simp] theorem setTwin_field (n : Nat) (x : Twin) : (s.setTwin n x).field = s.field := rfl
@[simp] theorem setTwin_encs (n : Nat) (x : Twin) : (s.setTwin n x).encs = s.encs := rfl
@[simp] theorem setTwin_rings (n : Nat) (x : Twin) : (s.setTwin n x).rings = s.rings := rfl
@[simp] theorem setTwin_cans (n : Nat) (x : Twin) : (s.setTwin n x).cans = s.cans := rfl
@[simp] theorem setTwin_mbxBufs (n : Nat) (x : Twin) : (s.setTwin n x).mbxBufs = s.mbxBufs := rfl
@[simp] theorem setTwin_hist (n : Nat) (x : Twin) : (s.setTwin n x).hist = s.hist := rfl
@[simp] theorem setTwin_caps (n : Nat) (x : Twin) : (s.setTwin n x).caps = s.caps := rfl
@[simp] theorem setTwin_pulses (n : Nat) (x : Twin) : (s.setTwin n x).pulses = s.pulses := rfl
@[simp] theorem setTwin_calAt (n : Nat) (x : Twin) : (s.setTwin n x).calAt = s.calAt := rfl
@[simp] theorem setTwin_mirror (n : Nat) (x : Twin) : (s.setTwin n x).mirror = s.mirror := rfl
@[simp] theorem setTwin_evr (n : Nat) (x : Twin) : (s.setTwin n x).evr = s.evr := rfl
@[simp] theorem setTwin_brim (n : Nat) (x : Twin) : (s.setTwin n x).brim = s.brim := rfl
@[simp] theorem setTwin_modes (n : Nat) (x : Twin) : (s.setTwin n x).modes = s.modes := rfl
@[simp] theorem setTwin_store (n : Nat) (x : Twin) : (s.setTwin n x).store = s.store := rfl
@[simp] theorem setTwin_peer (n : Nat) (x : Twin) : (s.setTwin n x).peer = s.peer := rfl
@[simp] theorem setTwin_host (n : Nat) (x : Twin) : (s.setTwin n x).host = s.host := rfl
@[simp] theorem setTwin_outbox (n : Nat) (x : Twin) : (s.setTwin n x).outbox = s.outbox := rfl
@[simp] theorem setTwin_pending (n : Nat) (x : Twin) : (s.setTwin n x).pending = s.pending := rfl

end Sys2Proof.Machine
end

