-- ==== Sys2Proof/Laws/Memory.lean ====
section
/-! SUPPORT. The laws of line memory: read after write, that every operation keeps the canonical form, and what a write may change of
the state besides memory. -/

namespace Sys2Proof.Machine

/-! ### One word, and runs of words -/

theorem Memory.putWord_wf {m : Memory} (a : Nat) (v : Word) (h : m.wf = true) : (m.putWord a v).wf = true := by
  simp only [Memory.wf, Bool.and_eq_true, Memory.putWord] at h ⊢
  exact ⟨Tab.wf_put memReset _ a v h.1, h.2⟩

theorem Memory.putWords_wf {m : Memory} (a : Nat) (ws : List Word) (h : m.wf = true) : (m.putWords a ws).wf = true := by
  induction ws generalizing m a with
  | nil => exact h
  | cons v r ih => exact ih _ (Memory.putWord_wf a v h)

theorem Memory.putMasked_wf {m : Memory} (a mask : Nat) (ws : List Word) (h : m.wf = true) :
    (m.putMasked a mask ws).wf = true := by
  induction ws generalizing m a mask with
  | nil => exact h
  | cons v r ih =>
    apply ih
    split
    · exact Memory.putWord_wf a v h
    · exact h

theorem Memory.putMeta_wf {m : Memory} (l : Nat) (x : LineMeta) (h : m.wf = true) : (m.putMeta l x).wf = true := by
  simp only [Memory.wf, Bool.and_eq_true, Memory.putMeta] at h ⊢
  exact ⟨h.1, Tab.wf_put (fun _ => ({} : LineMeta)) _ l x h.2⟩

/-- A word read where it was written. -/
@[simp] theorem word_putWord_same (s : State) (a : Nat) (v : Word) :
    State.word { s with mem := s.mem.putWord a v } a = v := Tab.get_put_same _ _ _ _

/-- Every other word stays. -/
theorem word_putWord_other (s : State) {a b : Nat} (v : Word) (h : b ≠ a) :
    State.word { s with mem := s.mem.putWord a v } b = s.word b := Tab.get_put_other _ _ _ _ h

/-! ### What a write may change -/

/-- The two states differ in line memory, the registers that count what the decoder found, free values, the dirty set and the recorder's causes
alone, and the memory of the second is in canonical form if that of the first is. -/
structure WriteStep (s t : State) : Prop where
  same : t = { s with mem := t.mem, regs := t.regs, free := t.free, evr := t.evr, peer := { s.peer with dirty := t.peer.dirty } }
  form : s.mem.wf = true → t.mem.wf = true

theorem WriteStep.refl (s : State) : WriteStep s s := ⟨rfl, id⟩

theorem WriteStep.trans {s t u : State} (h : WriteStep s t) (g : WriteStep t u) : WriteStep s u := by
  refine ⟨?_, fun x => g.form (h.form x)⟩
  rw [g.same, h.same]

theorem WriteStep.pending {s t : State} (h : WriteStep s t) : t.pending = s.pending := by rw [h.same]
theorem WriteStep.cores {s t : State} (h : WriteStep s t) : t.cores = s.cores := by rw [h.same]
theorem WriteStep.tasks {s t : State} (h : WriteStep s t) : t.tasks = s.tasks := by rw [h.same]
theorem WriteStep.now {s t : State} (h : WriteStep s t) : t.now = s.now := by rw [h.same]
theorem WriteStep.lanes {s t : State} (h : WriteStep s t) : t.lanes = s.lanes := by rw [h.same]
theorem WriteStep.axes {s t : State} (h : WriteStep s t) : t.axes = s.axes := by rw [h.same]
theorem WriteStep.census {s t : State} (h : WriteStep s t) : t.census = s.census := by rw [h.same]
theorem WriteStep.modes {s t : State} (h : WriteStep s t) : t.modes = s.modes := by rw [h.same]
theorem WriteStep.host {s t : State} (h : WriteStep s t) : t.host = s.host := by rw [h.same]
theorem WriteStep.outbox {s t : State} (h : WriteStep s t) : t.outbox = s.outbox := by rw [h.same]

theorem setReg_write (s : State) (o : Nat) (v : Word) : WriteStep s (s.setReg o v) := ⟨rfl, id⟩
theorem incReg_write (s : State) (o k : Nat) : WriteStep s (s.incReg o k) := setReg_write _ _ _

theorem markDirty_write (s : State) (l : Nat) : WriteStep s (s.markDirty l) := by
  unfold State.markDirty
  split
  · exact ⟨rfl, id⟩
  · exact .refl s

theorem retire_write (s : State) (l : Nat) : WriteStep s (s.retire l) := by
  unfold State.retire
  extract_lets used m t
  split
  · split
    · exact ⟨rfl, id⟩
    · exact ⟨rfl, id⟩
  · exact .refl s

/-- Decoding a line (R64). -/
theorem decode_write (s : State) (l : Nat) : WriteStep s (s.decode l) := by
  unfold State.decode
  extract_lets e
  split
  · exact .refl s
  split
  · refine WriteStep.trans ?_ (markDirty_write _ l)
    refine ⟨rfl, fun h => ?_⟩
    exact Memory.putMeta_wf (m := s.mem.putWords (8 * l) e.asRead) l { s.lineMeta l with poison := true } (Memory.putWords_wf _ _ h)
  split
  · exact ⟨rfl, fun h => Memory.putWords_wf (8 * l) ((List.range 8).map fun k => Config.freeWord (s.free + 1 + k)) h⟩
  · split
    · exact (incReg_write s _ _).trans (retire_write _ _)
    · exact incReg_write s _ _

/-- A line write (R65). -/
theorem lineWrite_write (s : State) (l mask : Nat) (data : List Word) (poison : Bool) (owner : BitVec 2) :
    WriteStep s (s.lineWrite l mask data poison owner) := by
  unfold State.lineWrite
  extract_lets t p m
  refine WriteStep.trans (t := t) ?_ (WriteStep.trans ?_ (markDirty_write _ l))
  · simp only [t]
    split
    · exact .refl s
    · exact decode_write s l
  · exact ⟨rfl, fun h => Memory.putMeta_wf (m := t.mem.putMasked (8 * l) mask data) l _ (Memory.putMasked_wf _ _ _ h)⟩

theorem spanWrite_write (owner : BitVec 2) (poison : Bool) (fuel : Nat) (s : State) (a : Nat) (ws : List Word) :
    WriteStep s (State.spanWrite owner poison fuel s a ws) := by
  induction fuel generalizing s a ws with
  | zero => exact .refl s
  | succ n ih =>
    unfold State.spanWrite
    split
    · exact .refl s
    · exact (lineWrite_write _ _ _ _ _ _).trans (ih _ _ _)

/-- A device agent's write (R60, R65). -/
theorem agentWrite_write (s : State) (a : Nat) (ws : List Word) : WriteStep s (s.agentWrite a ws) := spanWrite_write _ _ _ _ _ _

theorem agentWord_write (s : State) (a : Nat) (w : Word) : WriteStep s (s.agentWord a w) := agentWrite_write _ _ _

/-! ### The other writers of line memory -/

/-- What a reset leaves of line memory (R574). -/
theorem bare_wf (s : State) (p : Bool) (h : s.mem.wf = true) : (s.bare p).mem.wf = true := by
  simp only [Memory.wf, Bool.and_eq_true] at h
  simp only [State.bare, Memory.wf, Bool.and_eq_true]
  refine ⟨?_, rfl⟩
  have h1 := (Tab.wf_iff memReset s.mem.words).1 h.1
  exact (Tab.wf_iff memReset _).2 ⟨h1.1.filter _, fun e he => h1.2 e (List.mem_filter.1 he).1⟩

theorem reset_wf : State.reset.mem.wf = true := by decide

/-! ### Events to the host (R568, R569, R614) -/

/-- An interrupt: the host's fields and the outbox alone change. -/
theorem msix_eq (s : State) (v : Nat) : s.msix v = { s with host := (s.msix v).host, outbox := (s.msix v).outbox } := by
  unfold State.msix
  split <;> rfl

/-- An event entry: line memory, the host's fields, the outbox and what a write may change; every core, task, unit and mode stays. -/
theorem eventEntry_eq (s : State) (a b c : Word) : ∃ t, WriteStep s t ∧
    s.eventEntry a b c = { t with host := (s.eventEntry a b c).host, outbox := (s.eventEntry a b c).outbox } := by
  unfold State.eventEntry
  extract_lets t n u
  exact ⟨u, agentWrite_write _ _ _, by rw [msix_eq]⟩

theorem eventEntry_wf (s : State) (a b c : Word) (h : s.mem.wf = true) : (s.eventEntry a b c).mem.wf = true := by
  obtain ⟨t, ht, e⟩ := eventEntry_eq s a b c
  rw [e]; exact ht.form h

theorem eventEntry_pending (s : State) (a b c : Word) : (s.eventEntry a b c).pending = s.pending := by
  obtain ⟨t, ht, e⟩ := eventEntry_eq s a b c
  rw [e]; exact ht.pending

theorem crownEvent_wf (s : State) (k : Nat) (a b : Word) (h : s.mem.wf = true) : (s.crownEvent k a b).mem.wf = true :=
  eventEntry_wf _ _ _ _ h

theorem crownEvent_pending (s : State) (k : Nat) (a b : Word) : (s.crownEvent k a b).pending = s.pending :=
  eventEntry_pending _ _ _ _

end Sys2Proof.Machine
end

