-- ==== Sys2Proof/Laws/Ops.lean ====
section
/-! SUPPORT. What each shared operation can do, said once: which fields it may change, and that it leaves the queue and the canonical form of
line memory. -/

namespace Sys2Proof.Machine

/-- What every shared operation keeps: the queue of commands, and the canonical form of line memory. -/
structure Keeps (s t : State) : Prop where
  pending : t.pending = s.pending
  form : s.mem.wf = true → t.mem.wf = true

theorem Keeps.refl (s : State) : Keeps s s := ⟨rfl, id⟩
theorem Keeps.trans {s t u : State} (h : Keeps s t) (g : Keeps t u) : Keeps s u :=
  ⟨g.pending.trans h.pending, fun x => g.form (h.form x)⟩

/-- A state that differs in neither field. -/
theorem Keeps.of_eq {s t : State} (hp : t.pending = s.pending) (hm : t.mem = s.mem) : Keeps s t := ⟨hp, by rw [hm]; exact id⟩

theorem Keeps.after {s t u : State} (h : Keeps s t) (hp : u.pending = t.pending) (hm : u.mem = t.mem) : Keeps s u :=
  h.trans (.of_eq hp hm)

theorem WriteStep.keeps {s t : State} (h : WriteStep s t) : Keeps s t := ⟨h.pending, h.form⟩

/-- A fold of operations that each keep both. -/
theorem Keeps.foldl {α : Type} (f : State → α → State) (h : ∀ s a, Keeps s (f s a)) (l : List α) (s : State) :
    Keeps s (l.foldl f s) := by
  induction l generalizing s with
  | nil => exact .refl s
  | cons a r ih => exact (h s a).trans (ih _)

/-! ### Registers, streams and free values -/

theorem setReg_keeps (s : State) (o : Nat) (v : Word) : Keeps s (s.setReg o v) := .of_eq rfl rfl
theorem setRfld_keeps (s : State) (o hi lo v : Nat) : Keeps s (s.setRfld o hi lo v) := .of_eq rfl rfl
theorem incReg_keeps (s : State) (o k : Nat) : Keeps s (s.incReg o k) := .of_eq rfl rfl
theorem satRfld_keeps (s : State) (o hi lo k : Nat) : Keeps s (s.satRfld o hi lo k) := .of_eq rfl rfl
theorem produce_keeps (s : State) (i n : Nat) : Keeps s (s.produce i n) := .of_eq rfl rfl
theorem deliver_keeps (s : State) (i n : Nat) : Keeps s (s.deliver i n) := .of_eq rfl rfl
theorem drop_keeps (s : State) (i r n : Nat) : Keeps s (s.drop i r n) := .of_eq rfl rfl
theorem drawWord_keeps (s : State) : Keeps s s.drawWord.2 := .of_eq rfl rfl

/-- n items produced are n more produced and n more resident. -/
@[simp] theorem produce_stream (s : State) (i n : Nat) : (s.produce i n).stream i =
    { s.stream i with produced := (s.stream i).produced + n, resident := (s.stream i).resident + n } := setStream_stream _ _ _

/-- n items delivered are n more delivered and n fewer resident. -/
@[simp] theorem deliver_stream (s : State) (i n : Nat) : (s.deliver i n).stream i =
    { s.stream i with delivered := (s.stream i).delivered + n, resident := (s.stream i).resident - n } := setStream_stream _ _ _

/-- n items dropped are n more under their reason and n fewer resident. -/
@[simp] theorem drop_stream (s : State) (i r n : Nat) : (s.drop i r n).stream i =
    { s.stream i with
      dropped := Tab.put 0 (s.stream i).dropped r (Tab.get 0 (s.stream i).dropped r + n)
      resident := (s.stream i).resident - n } := setStream_stream _ _ _

theorem produce_stream_ne (s : State) (i n j : Nat) (h : j ≠ i) : (s.produce i n).stream j = s.stream j :=
  setStream_stream_ne _ _ _ _ h
theorem deliver_stream_ne (s : State) (i n j : Nat) (h : j ≠ i) : (s.deliver i n).stream j = s.stream j :=
  setStream_stream_ne _ _ _ _ h
theorem drop_stream_ne (s : State) (i r n j : Nat) (h : j ≠ i) : (s.drop i r n).stream j = s.stream j :=
  setStream_stream_ne _ _ _ _ h

/-- A register after a change of one of its fields. -/
@[simp] theorem setRfld_reg (s : State) (o hi lo v : Nat) : (s.setRfld o hi lo v).reg o = setFld (s.reg o) hi lo v :=
  setReg_reg _ _ _
theorem setRfld_reg_ne (s : State) (o hi lo v p : Nat) (h : p ≠ o) : (s.setRfld o hi lo v).reg p = s.reg p :=
  setReg_reg_ne _ _ _ _ h
@[simp] theorem incReg_reg (s : State) (o k : Nat) : (s.incReg o k).reg o = wd ((s.reg o).toNat + k) := setReg_reg _ _ _
theorem incReg_reg_ne (s : State) (o k p : Nat) (h : p ≠ o) : (s.incReg o k).reg p = s.reg p := setReg_reg_ne _ _ _ _ h

/-! ### Tile-local memory -/

/-- A read of a tile-local word: the code may correct or poison the word, and counts it. -/
theorem locRead_eq (s : State) (t a : Nat) :
    (s.locRead t a).2.2 = { s with loc := (s.locRead t a).2.2.loc, regs := (s.locRead t a).2.2.regs } := by
  unfold State.locRead
  extract_lets k p e loc
  split
  · rfl
  split <;> rfl

/-- A write of a tile-local word changes tile-local memory alone. -/
theorem locWrite_eq (s : State) (t a : Nat) (v : Word) : s.locWrite t a v = { s with loc := (s.locWrite t a v).loc } := rfl

theorem locWrites_eq (s : State) (t a : Nat) (ws : List Word) : s.locWrites t a ws = { s with loc := (s.locWrites t a ws).loc } := by
  induction ws generalizing s a with
  | nil => rfl
  | cons v r ih => rw [State.locWrites, ih]; rfl

theorem locRead_keeps (s : State) (t a : Nat) : Keeps s (s.locRead t a).2.2 := by
  rw [locRead_eq]; exact .of_eq rfl rfl
theorem locWrites_keeps (s : State) (t a : Nat) (ws : List Word) : Keeps s (s.locWrites t a ws) := by
  rw [locWrites_eq]; exact .of_eq rfl rfl
theorem dropScratch_keeps (s : State) (t : Nat) : Keeps s (s.dropScratch t) := .of_eq rfl rfl

/-! ### The spine -/

/-- A flit that failed is counted; one that passed changes nothing (R75). -/
theorem countFlit_write (s : State) (ok : Bool) : WriteStep s (s.countFlit ok) := by
  unfold State.countFlit
  split
  · exact .refl s
  · exact incReg_write _ _ _

theorem countFlit_keeps (s : State) (ok : Bool) : Keeps s (s.countFlit ok) := (countFlit_write s ok).keeps

/-- A target's service of a request is a write step (R64, R65). -/
theorem perform_write (s : State) (r : SpineReq) (ok : Bool) : WriteStep s (s.perform r ok).1 := by
  have h1 := countFlit_write s ok
  unfold State.perform
  extract_lets u
  split
  · exact h1.trans (decode_write _ _)
  · exact h1.trans (lineWrite_write _ _ _ _ _ _)
  · have hv : WriteStep s (u.decode r.line) := h1.trans (decode_write _ _)
    split
    · exact hv
    split
    · exact hv.trans (lineWrite_write _ _ _ _ _ _)
    · exact hv
  · exact h1

/-- A change of the spine, and the count of a flit that failed. -/
theorem spineFlit_keeps (s : State) (x : Spine) (ok : Bool) : Keeps s (State.countFlit { s with spine := x } ok) :=
  (Keeps.of_eq (s := s) (t := { s with spine := x }) rfl rfl).trans (countFlit_keeps _ _)

/-- The response's way to its port changes the spine and the count of failed flits alone. -/
theorem sendBack_keeps (s : State) (r : SpineReq) (ws : List Word) (p : Bool) : Keeps s (s.sendBack r ws p).2 := by
  unfold State.sendBack
  split
  · generalize s.spine.cross (targetPort r.target) 0 r.cls ws r.mask p = c
    exact spineFlit_keeps s c.2 c.1
  · exact .of_eq rfl rfl

theorem serveOne_keeps {s u : State} {t : Nat} {ok : Bool} {r : SpineReq} {x : List Word × Bool}
    (h : s.serveOne t ok = some (r, x, u)) : Keeps s u := by
  unfold State.serveOne at h
  simp only [Option.map_eq_some_iff] at h
  obtain ⟨q, _, h⟩ := h
  injection h with _ h
  injection h with _ h
  rw [← h]
  refine Keeps.trans ?_ (sendBack_keeps _ _ _ _)
  have := (perform_write { s with spine := { s.spine with
      wheel := Tab.put 0 s.spine.wheel t ((Tab.get 0 s.spine.wheel t + 1) % 16)
      lists := Tab.put (List.range 10) s.spine.lists (4 * t + q.cls) ((s.spine.list t q.cls).erase q.port ++ [q.port])
      waiting := s.spine.waiting.erase q
      acked := s.spine.acked ++ [SpineAck.mk q.tag q.port q.core q.cls q.target q.seq] } } q ok).keeps
  exact ⟨this.pending, this.form⟩

theorem serveFor_keeps (t tag fuel : Nat) (s : State) : Keeps s (State.serveFor t tag fuel s).2.2 := by
  induction fuel generalizing s with
  | zero => exact .refl s
  | succ n ih =>
    unfold State.serveFor
    split
    · exact .refl s
    · next h =>
      split
      · exact serveOne_keeps h
      · exact (serveOne_keeps h).trans (ih _)

theorem drainWhere_keeps (p : SpineReq → Bool) (fuel : Nat) (s : State) : Keeps s (State.drainWhere p fuel s) := by
  induction fuel generalizing s with
  | zero => exact .refl s
  | succ n ih =>
    unfold State.drainWhere
    split
    · exact .refl s
    · split
      · exact .refl s
      · next h => exact (serveOne_keeps h).trans (ih _)

/-- A sender that waits for a slot: targets serve what stands before it (R31). -/
theorem freeSlot_keeps (port cls fuel : Nat) (s : State) : Keeps s (State.freeSlot port cls fuel s) := by
  induction fuel generalizing s with
  | zero => exact .refl s
  | succ n ih =>
    unfold State.freeSlot
    split
    · exact .refl s
    · cases hp : portTarget port with
      | none => exact .refl s
      | some t =>
        simp only [Option.bind_some]
        split
        · exact .refl s
        · next h => exact (serveOne_keeps h).trans (ih _)

theorem awaitSlot_keeps (s : State) (port cls : Nat) : Keeps s (s.awaitSlot port cls) := freeSlot_keeps _ _ _ _

/-- Where a slot is free nothing waits. -/
theorem awaitSlot_free (s : State) (port cls : Nat) (h : s.spine.full port 1 cls = false) : s.awaitSlot port cls = s := by
  unfold State.awaitSlot
  cases s.spine.waiting.length with
  | zero => rfl
  | succ n => simp [State.freeSlot, h]

theorem comeBack_keeps (s : State) (a : SpineAck) : Keeps s (s.comeBack a) := (awaitSlot_keeps _ _ _).after rfl rfl

/-- Responses that reach their requesters. -/
theorem collect_keeps (s : State) (p : SpineAck → Bool) : Keeps s (s.collect p) := Keeps.foldl _ comeBack_keeps _ s

theorem settle_keeps (s : State) (os : List (Nat × Nat × Nat)) : Keeps s (s.settle os) :=
  (drainWhere_keeps _ _ s).trans (collect_keeps _ _)

theorem fence_keeps (s : State) (k : Nat) : Keeps s (s.fence k) := settle_keeps _ _
theorem drainAll_keeps (s : State) : Keeps s s.drainAll := (drainWhere_keeps _ _ s).trans (collect_keeps _ _)

theorem sendFlits_keeps (s : State) (r : SpineReq) : Keeps s (s.sendFlits r).2 := by
  unfold State.sendFlits
  have hw := awaitSlot_keeps s (targetPort r.target) r.cls
  generalize s.awaitSlot (targetPort r.target) r.cls = v at hw
  simp only
  split
  · exact hw.after rfl rfl
  · generalize v.spine.cross r.port 0 r.cls r.data r.mask r.poison = c
    have h := hw.trans (spineFlit_keeps v c.2 c.1)
    simp only
    generalize State.countFlit { v with spine := c.2 } c.1 = u at h ⊢
    generalize u.spine.cross (targetPort r.target) 1 r.cls r.data r.mask r.poison = d
    exact h.trans (spineFlit_keeps u d.2 d.1)

theorem issue_keeps (s : State) (r : SpineReq) : Keeps s (s.issue r).2 := by
  unfold State.issue
  have ht : Keeps s (if s.spine.tagFor r.port then s else s.drainAll) := by
    split
    · exact .refl s
    · exact drainAll_keeps s
  generalize (if s.spine.tagFor r.port then s else s.drainAll) = t at ht ⊢
  have hu : Keeps s { t with spine := { t.spine with issued := t.spine.issued + 1 } } := ht.after rfl rfl
  simp only
  split
  · exact ht.trans (.of_eq rfl rfl)
  · generalize ({ t with spine := { t.spine with issued := t.spine.issued + 1 } } : State) = u at hu ⊢
    have hs := sendFlits_keeps u r
    generalize u.sendFlits r = c at hs ⊢
    exact (hu.trans hs).trans (.of_eq rfl rfl)

theorem receive_keeps (s : State) (r : SpineReq) (tag : Nat) (ws : List Word) (p : Bool) : Keeps s (s.receive r tag ws p).2.2 := by
  unfold State.receive
  split
  · exact .refl s
  · next a _ =>
    extract_lets t v u
    have h : Keeps s u := ((drainWhere_keeps _ _ s).trans (collect_keeps _ _)).trans (awaitSlot_keeps _ _ _)
    generalize (if r.kind.reads then u.spine.cross r.port 1 r.cls ws r.mask p else (true, u.spine.hop r.port 1 r.cls)) = c
    exact (h.trans (spineFlit_keeps u c.2 c.1)).trans (.of_eq rfl rfl)

theorem transact_keeps (s : State) (r : SpineReq) : Keeps s (s.transact r).2.2 := by
  have h1 := issue_keeps s r
  simp only [State.transact]
  split
  · exact (h1.trans (serveFor_keeps _ _ _ _)).trans (receive_keeps _ _ _ _ _)
  · exact h1

theorem portWrite_keeps (s : State) (port cls l mask : Nat) (data : List Word) (p : Bool) :
    Keeps s (s.portWrite port cls l mask data p) := by
  unfold State.portWrite
  split
  · exact .refl s
  · exact transact_keeps _ _

theorem portRead_keeps (s : State) (port cls l mask : Nat) : Keeps s (s.portRead port cls l mask).2.2 := by
  unfold State.portRead
  split
  · exact .refl s
  · exact transact_keeps _ _

/-- What an agent writes through its port (R23, R26). -/
theorem portPut_keeps (port cls : Nat) (poison : Bool) (fuel : Nat) (s : State) (a : Nat) (ws : List Word) :
    Keeps s (State.portPut port cls poison fuel s a ws) := by
  induction fuel generalizing s a ws with
  | zero => exact .refl s
  | succ n ih =>
    unfold State.portPut
    split
    · exact .refl s
    · exact (portWrite_keeps _ _ _ _ _ _ _).trans (ih _ _ _)

/-- What an agent reads through its port. -/
theorem portGet_keeps (port cls : Nat) (fuel : Nat) (s : State) (a n : Nat) : Keeps s (State.portGet port cls fuel s a n).2 := by
  induction fuel generalizing s a n with
  | zero => exact .refl s
  | succ f ih =>
    unfold State.portGet
    split
    · exact .refl s
    · exact (portRead_keeps _ _ _ _ _).trans (ih _ _ _)

/-- The store of a checkpointed line (R541). -/
theorem commitLine_keeps (s : State) (e : Nat × Nat × List Word) : Keeps s (s.commitLine e) := by
  unfold State.commitLine
  generalize cpPlace (8 * e.1) = b
  have h := portWrite_keeps s 9 1 (b / 8) 255 e.2.2 (e.2.1.testBit 21)
  simp only
  split
  · exact ⟨h.pending, fun w => Memory.putMeta_wf _ _ (h.form w)⟩
  · exact .refl s

/-- A record that the journal unit writes (R309). -/
theorem jPut_keeps (s : State) (k i : Nat) (ws : List Word) : Keeps s (s.jPut k i ws).2 :=
  (transact_keeps s (portReq (corePort k) 2 4 ((jrnlBase + 8 * i) / 8) .write 255 ws false)).trans
    ((setRfld_keeps _ _ _ _ _).trans (setRfld_keeps _ _ _ _ _))

/-- Decoding lines is a write step (R64). -/
theorem decodes_write (s : State) (l n : Nat) : WriteStep s (s.decodes l n) := by
  unfold State.decodes
  generalize (s.mem.errs.filter (fun e => decide (l ≤ e.1) && decide (e.1 < l + n))).map Prod.fst = is
  induction is generalizing s with
  | nil => exact .refl s
  | cons i is ih => exact (decode_write s i).trans (ih _)

/-- What a reader in the memory's own place meets (R64). -/
theorem meets_write (s : State) (a n : Nat) : WriteStep s (s.meets a n).2 := decodes_write _ _ _

/-- A device agent's read (R64). -/
theorem agentRead_write (s : State) (a n : Nat) : WriteStep s (s.agentRead a n).2.2 := decodes_write _ _ _

/-! ### Orders, events, responses and tallies -/

theorem cueLost_keeps (s : State) (c : Option Nat) : Keeps s (s.cueLost c) := by
  unfold State.cueLost
  split
  · exact .refl s
  · exact .of_eq rfl rfl

theorem logConflict_keeps (s : State) (x : Conflict) : Keeps s (s.logConflict x) := by
  unfold State.logConflict
  extract_lets n t w3
  have h := (agentWrite_write s (0x27B0000 + 4 * (n % 256)) [dlo t, dhi t, wd (at_ x.kind 28 + x.idx), wd w3]).keeps
  exact h.after rfl rfl

theorem noteConflict_keeps (s : State) (x : Conflict) : Keeps s (s.noteConflict x) := by
  unfold State.noteConflict
  split
  · exact .of_eq rfl rfl
  · exact logConflict_keeps _ _

theorem msix_keeps (s : State) (v : Nat) : Keeps s (s.msix v) := by rw [msix_eq]; exact .of_eq rfl rfl
theorem eventEntry_keeps (s : State) (a b c : Word) : Keeps s (s.eventEntry a b c) := ⟨eventEntry_pending _ _ _ _, eventEntry_wf _ _ _ _⟩
theorem crownEvent_keeps (s : State) (k : Nat) (a b : Word) : Keeps s (s.crownEvent k a b) := eventEntry_keeps _ _ _ _
theorem cellEvent_keeps (s : State) (r o : Nat) (w : Word) : Keeps s (s.cellEvent r o w) := eventEntry_keeps _ _ _ _

theorem respond_keeps (s : State) (code status : Nat) (tag : Word) (res : List Word) : Keeps s (s.respond code status tag res) := by
  unfold State.respond
  extract_lets t ws n u
  have h : Keeps s u := (agentWrite_write _ _ _).keeps
  have h' : Keeps s { u.produce strRsp 1 with host := { (u.produce strRsp 1).host with rsppi := wd (n + 1) } } := h.after rfl rfl
  exact h'.trans (msix_keeps _ _)

theorem tallyBy_keeps (s : State) (f : Int → Int → Bool) (h : Nat) (v : Int) : Keeps s (s.tallyBy f h v) := .of_eq rfl rfl

/-! ### Cores, tasks and posts -/

theorem setCore_keeps (s : State) (k : Nat) (x : Core) : Keeps s (s.setCore k x) := .of_eq rfl rfl
theorem setTask_keeps (s : State) (n : Nat) (x : Task) : Keeps s (s.setTask n x) := .of_eq rfl rfl

/-- A refusal sets E and the code in ERRC of the core, and nothing else (R615). -/
theorem refuse_eq (s : State) (k code : Nat) :
    s.refuse k code = s.setCore k { s.core k with fl := setBit (s.core k).fl 5 true, errc := setFld (s.core k).errc 15 8 code } := rfl

theorem amendResponse_keeps (s : State) (r : Option Nat) : Keeps s (s.amendResponse r) := by
  unfold State.amendResponse
  split
  · exact .refl s
  · exact (agentWrite_write _ _ _).keeps

theorem refuse_keeps (s : State) (k code : Nat) : Keeps s (s.refuse k code) := .of_eq rfl rfl

theorem tellCore_keeps (s : State) (k : Nat) (gd : Option Nat) : Keeps s (s.tellCore k gd) := by
  cases gd <;> exact .of_eq rfl rfl

theorem tellLoser_keeps (s : State) (o : Order) : Keeps s (s.tellLoser o) := by
  unfold State.tellLoser
  split
  · exact tellCore_keeps _ _ _
  · exact tellCore_keeps _ _ _
  · split
    · exact tellCore_keeps _ _ _
    · exact amendResponse_keeps _ _
  · exact .refl s

theorem untouch_keeps (s : State) (e : Nat × Task) : Keeps s (s.untouch e) := .of_eq rfl rfl

theorem undoOrder_keeps (s : State) (o : Order) : Keeps s (s.undoOrder o) := by
  unfold State.undoOrder
  split
  · exact Keeps.foldl _ untouch_keeps o.tasks s
  · split
    · exact .refl s
    · exact .of_eq rfl rfl

theorem orderLost_keeps (s : State) (w l : Order) : Keeps s (s.orderLost w l) :=
  ((noteConflict_keeps _ _).trans (cueLost_keeps _ _)).trans (tellLoser_keeps _ _)

/-- An order against which no order stands wins, and stands (R43). -/
theorem rankOrder_alone (s : State) (o : Order) (h : ∀ x ∈ s.orders, o.against x = false) :
    s.rankOrder o = (true,
      { s with orders := o :: s.orders.filter (fun x => !(o.same x && (x.src = o.src || x.value != o.value))) }) := by
  have h1 : s.orders.filter o.against = [] := List.filter_eq_nil_iff.2 (fun x hx => by simp [h x hx])
  have h2 : s.orders.filter (fun x => o.against x && !o.beats x) = [] :=
    List.filter_eq_nil_iff.2 (fun x hx => by simp [h x hx])
  simp [State.rankOrder, State.strongerThan, State.beforeRivals, h1, h2]

theorem rankOrder_keeps (s : State) (o : Order) : Keeps s (s.rankOrder o).2 := by
  unfold State.rankOrder
  split
  · exact orderLost_keeps _ _ _
  · have h : Keeps s (s.beforeRivals o) := Keeps.foldl _ undoOrder_keeps _ s
    exact (h.trans (Keeps.foldl _ (fun t x => orderLost_keeps t o x) _ _)).after rfl rfl

theorem trace_keeps (s : State) (n reason tile : Nat) : Keeps s (s.trace n reason tile) := by
  unfold State.trace
  split
  · exact .refl s
  · extract_lets q m t w1 u
    have ht : Keeps s t := by
      simp only [t]
      split
      · exact .of_eq rfl rfl
      · exact .refl s
    have hu : Keeps s u := ht.trans (agentWrite_write _ _ _).keeps
    exact (hu.trans (incReg_keeps u (offTrwr q) 1)).trans (produce_keeps _ _ _)

theorem postTo_keeps (s : State) (n : Nat) (w : Word) (code : Nat) : Keeps s (s.postTo n w code).2 := by
  unfold State.postTo
  extract_lets t
  split
  · exact .refl s
  split
  · exact .refl s
  split
  · have h : Keeps s ((s.produce (strPost (taskQuad n)) 1).drop (strPost (taskQuad n)) 0x0D 1) := .of_eq rfl rfl
    exact h.trans (trace_keeps _ _ _ _)
  · exact .of_eq rfl rfl

theorem post_keeps (s : State) (n : Nat) (w : Word) : Keeps s (s.post n w) := postTo_keeps _ _ _ _
theorem postQ_keeps (s : State) (q t : Nat) (w : Word) : Keeps s (s.postQ q t w) := post_keeps _ _ _

theorem takePost_keeps (s : State) (n : Nat) : Keeps s (s.takePost n).2 := by
  unfold State.takePost
  extract_lets t
  split
  · exact .refl s
  · exact .of_eq rfl rfl

theorem tallyReady_keeps (s : State) (n : Nat) : Keeps s (s.tallyReady n) := by
  unfold State.tallyReady
  split
  · exact .of_eq rfl rfl
  · exact .refl s

theorem readyAtTick_keeps (s : State) (n reason : Nat) : Keeps s (s.readyAtTick n reason) :=
  ((setTask_keeps _ _ _).trans (trace_keeps _ _ _ _)).trans (tallyReady_keeps _ _)

theorem stopTask_keeps (s : State) (n : Nat) : Keeps s (s.stopTask n) := (setTask_keeps _ _ _).trans (trace_keeps _ _ _ _)

/-- Poisoning lines keeps the canonical form. -/
theorem foldl_putMeta_wf (l : Nat → Nat) (x : Nat → LineMeta) (is : List Nat) (m : Memory) (h : m.wf = true) :
    (is.foldl (fun m i => m.putMeta (l i) (x i)) m).wf = true := by
  induction is generalizing m with
  | nil => exact h
  | cons i is ih => exact ih _ (Memory.putMeta_wf _ _ h)

/-- What a tile reads of its own memory. -/
theorem locRun_keeps (s : State) (t a n : Nat) : Keeps s (s.locRun t a n).2 := by
  unfold State.locRun
  generalize List.range n = is
  suffices h : ∀ x : List (Word × Bool) × State, Keeps s x.2 → Keeps s (is.foldl (fun x i =>
      let (w, p, u) := x.2.locRead t (a + i)
      (x.1 ++ [(w, p)], u)) x).2 from h _ (.refl s)
  induction is with
  | nil => exact fun _ h => h
  | cons i is ih => exact fun x h => ih _ (h.trans (locRead_keeps _ _ _))

theorem saveContext_keeps (s : State) (k n : Nat) (pc : Word) : Keeps s (s.saveContext k n pc) := by
  unfold State.saveContext
  extract_lets c sp a
  have hr := locRun_keeps s k sp (if k < 64 then 0x10000 - sp else 0)
  generalize s.locRun k sp (if k < 64 then 0x10000 - sp else 0) = r at hr
  obtain ⟨stk, u⟩ := r
  have h := hr.trans (agentWrite_write u a (c.context pc ++ stk.map Prod.fst)).keeps
  exact ⟨h.pending, fun x => foldl_putMeta_wf _ _ _ _ (h.form x)⟩

/-- A core gives its task back and takes (R167): nothing else changes. -/
theorem giveBack_keeps (s : State) (k : Nat) : Keeps s (s.giveBack k) := .of_eq rfl rfl

end Sys2Proof.Machine
end

