-- ==== Sys2Proof/Machine/LineCode.lean ====
section
/-! DEFINITION. The line code (R62, R63): the 315-bit message of a line, its eight check symbols over GF(2^9), its slot of 384
bits, and what a disturbance of slot bits makes of a stored line. -/

namespace Sys2Proof.Machine

/-- Twice an element of GF(2^9), with field polynomial x^9 + x^4 + 1 (R62). -/
def gfDouble (a : Nat) : Nat := if 256 ≤ a then (2 * a) ^^^ 0x211 else 2 * a

/-- The product of two elements: the bits of b from the highest of k down. -/
def gfMulBits : Nat → Nat → Nat → Nat
  | 0, _, _ => 0
  | k + 1, a, b => gfDouble (gfMulBits k a (b / 2)) ^^^ (if b % 2 = 1 then a else 0)

/-- The product of two elements of GF(2^9). -/
def gfMul (a b : Nat) : Nat := gfMulBits 9 a b

/-- alpha to the power n; alpha is a root of the field polynomial. -/
def gfPow : Nat → Nat
  | 0 => 1
  | n + 1 => gfDouble (gfPow n)

/-- A polynomial, lowest coefficient first, times (x - r). -/
def polyTimesRoot (p : List Nat) (r : Nat) : List Nat :=
  ((p ++ [0]).zip (0 :: p)).map (fun (c : Nat × Nat) => gfMul c.1 r ^^^ c.2)

/-- The generator polynomial (x - alpha) ... (x - alpha^8), lowest coefficient first; its leading coefficient is 1 (R62). -/
def lineGenerator : List Nat := (List.range 8).foldl (fun p i => polyTimesRoot p (gfPow (i + 1))) [1]

/-- One step of the division by the generator: the remainder so far, c0 first, takes the next data symbol. -/
def checkStep (gen rem : List Nat) (sym : Nat) : List Nat :=
  let f := sym ^^^ rem.getD 7 0
  ((List.range 8).map (fun j => (if j = 0 then 0 else rem.getD (j - 1) 0) ^^^ gfMul f (gen.getD j 0)))

/-- The check symbols c0 to c7 of a message (R62): data symbol 34 has the highest power of x. -/
def checkSymbols (msg : Nat) : List Nat :=
  (List.range 35).foldl (fun rem i => checkStep lineGenerator rem (msg / 2 ^ (9 * (34 - i)) % 512)) (List.replicate 8 0)

/-- The message of a line: eight data words, then the 24 metadata bits, then three zeros (R62). -/
def lineMessage (words : List Word) (meta24 : Nat) : Nat := packWords words + meta24 * 2 ^ 288

/-- The slot of a message: check symbols in bits [71:0], the message from bit 72 on (R63). -/
def slotOf (msg : Nat) : Nat :=
  ((checkSymbols msg).zipIdx.foldl (fun acc c => acc + c.1 * 2 ^ (9 * c.2)) 0) + msg * 2 ^ 72

/-- The symbol that a slot bit belongs to: check symbols 0-7, data symbol i as 8 + i (R63). -/
def slotSymbol (b : Nat) : Nat := b / 9

/-- Symbols that a set of slot bits touches. -/
def symbolsHit (bits : List Nat) : Nat := ((List.range 43).filter (fun k => bits.any (fun b => slotSymbol b = k))).length

/-- The syndromes of a slot: the codeword at alpha^1 to alpha^8; all zero for a slot without error. -/
def syndromes (slot : Nat) : List Nat :=
  (List.range 8).map (fun i =>
    (List.range 43).foldl (fun acc k => gfMul acc (gfPow (i + 1)) ^^^ (slot / 2 ^ (9 * (42 - k)) % 512)) 0)

/-- The slot in which a line without error lies (R60, R62, R63). -/
def State.slot384 (s : State) (l : Nat) : Nat := slotOf (lineMessage (s.lineWords l) ((s.lineMeta l).bits l))

/-- A disturbance from outside flips slot bits of a stored line that has no error (R63, R64): no row of the table brings one. -/
def State.disturb (s : State) (l : Nat) (bits : List Nat) : State :=
  let m := (bits.foldl (fun acc b => acc ^^^ 2 ^ b) (s.slot384 l)) / 2 ^ 72
  { s with
    mem := { s.mem with
      errs := Tab.put {} s.mem.errs l
        { symbols := symbolsHit bits, tagWrong := false, asRead := (List.range 8).map (fun k => wd (m / 2 ^ (36 * k))) } } }

end Sys2Proof.Machine
end

