-- ==== Sys2Proof/Machine/Pins.lean ====
section
/-! DEFINITION. The output pins of J1 and the indicators that show the state (R595, R610). -/

namespace Sys2Proof.Machine

/-- FORCE_N is high: no force is active (R239, R595) (see assumption 66, DESIGN CHOICE). -/
def State.forceN (s : State) : Bool := !s.forceActive

/-- FAULT_N is high: the mode is neither HALT nor RECOVERY and Brim is not in FAULT (R595)
(see assumption 66, DESIGN CHOICE). -/
def State.faultN (s : State) : Bool := !(s.mode = 7 || s.mode = 0 || s.brimState = 2)

/-- RUN_N is high: the mode is neither RUN nor EXCHANGE (R595) (see assumption 66, DESIGN CHOICE). -/
def State.runN (s : State) : Bool := !(s.mode = 4 || s.mode = 5)

/-- HOLDUP_N is high: hold-up has not begun since the power-on reset (R595) (see assumption 66, DESIGN CHOICE). -/
def State.holdupN (s : State) : Bool := !s.holdup

/-- WAKE_N is never asserted (R595). -/
def wakeN : Bool := true

/-- CLKREQ_N is held low (R595). -/
def clkreqN : Bool := false

/-- The outputs of step generator g, STEP and DIR (R411, R412): none in high impedance (see assumption 66, DESIGN CHOICE). -/
def State.stepPins (s : State) (g : Nat) : Option (Bool × Bool) :=
  let x := s.stepGen g
  let w := s.reg (offStepOut g)
  let pulse := s.cellsLive && (match x.pulseEnd with
    | some c => decide (s.cc < c)
    | none => false)
  if bit w 7 then some (pulse != bit w 6, x.dirOut != bit (s.reg (offStep g 0)) 1) else none

/-- What the gates of a chopper phase make its bridge do. -/
inductive Bridge where
  | hiZ | drive (positive : Bool) | slow | fast
  deriving DecidableEq, Repr

/-- The gate outputs of phase f (R409, R410, R413, R415, R417). In MIXED the first quarter of an off-interval is fast, for a time that is a
free value, since the length shows only at the end (see assumption 29, DEDUCED). -/
def State.chopGates (s : State) (f : Nat) : Bridge :=
  let x := s.chop f
  if !s.chopRuns f then .hiZ
  else if x.on then .drive x.positive
  else match s.rfld (offChop f 0) 34 33 with
    | 0 => .slow
    | 1 => .fast
    | _ => if s.cc < x.offAt + x.fastFor then .fast else .slow

/-- What an indicator shows (R610). -/
inductive Lamp where
  | off | lit | flashing
  deriving DecidableEq, Repr

/-- RUN is lit in RUN and EXCHANGE and flashes at 2 Hz in any other mode that grants tasks (R610)
(see assumption 66, DESIGN CHOICE). -/
def State.lampRun (s : State) : Lamp :=
  if s.mode = 4 || s.mode = 5 then .lit
  else if modeGrants s.mode false || modeGrants s.mode true then .flashing
  else .off

/-- FAULT is lit while FAULT_N is low (R610). -/
def State.lampFault (s : State) : Lamp := if s.faultN then .off else .lit

/-- FORCE is lit while FORCE_N is low (R610). -/
def State.lampForce (s : State) : Lamp := if s.forceN then .off else .lit

end Sys2Proof.Machine
end

