-- ==== Sys2Proof/Tests/Slice0.lean ====
section
/-! SUPPORT. Tests on small states: ill-formed commands are refused, the hypotheses of every statement can be met, and single steps do what the rules
say. Expected results come from the rules and examples of spec/. -/

set_option Elab.async false

namespace Sys2Proof.Tests

open Sys2Proof Sys2Proof.Machine

/-! ### States for the tests -/

/-- Tile 0. -/
def T0 : CoreId := .tile 0

/-- A module in mode m, 5 us after reset. -/
def mod (m : Nat) : State := { regs := [(offSysMode, wd m)], now := 5 * tUs, prevNow := 4 * tUs, cc := 20000 }

/-- Tile 0 runs task 3 at word 9 of its code, with registers g. -/
def tile (m : Nat) (g : Tab Word) (t : Task) : State :=
  { mod m with
    cores := [(0, { g := g, pc := 9, task := some 3, fl := 0, sp := 0xFFF0, stackTop := 0x10000, stackLimit := 0xFF00, sb := 0xE000 })]
    tasks := [(3, { t with st := .running, tile := 0 })] }

/-- A task that hardware and other tasks post: EVENT, queue depth 4, TRAPEN, context at 0x100_0100. -/
def evt : Task := { desc := [wd (2 ^ 34 + 4 * 2 ^ 10 + 2 ^ 32), 0, 0, 0, 0, 0x1000100] }

/-- A CYCLIC task of c ticks with one post. -/
def cyc (c : Nat) : Task := { desc := [wd (4 * 2 ^ 10), 0, 0, 0, wd (c * 2 ^ 16), 0x1000100], queue := [⟨7, 0⟩] }

/-- Crown pair 1 runs Crown task 6. -/
def crown (m : Nat) (g : Tab Word) : State :=
  { mod m with
    cores := [(65, { g := g, pc := 0x2000009, task := some 1030 })]
    tasks := [(1030, { st := .running })] }

/-- Crown pair 0 runs a PROGRAM request. -/
def prog (m : Nat) (g : Tab Word) : State :=
  { mod m with
    cores := [(64, { pc := 9, g := g, sp := 0xFFF0, stackTop := 0x10000, stackLimit := 0xFC00 })]
    host := { prog := some { tag := 6 } } }

/-- The state after a meaning. -/
def aft (o : Host.Outcome State Fault Refusal) : State :=
  match o with
  | .next t => t
  | _ => {}

/-- A meaning leaves core x of s at x and all else as before. -/
def ends (o : Host.Outcome State Fault Refusal) (c : CoreId) (s : State) (x : Core) : Bool :=
  match o with
  | .next t => t = s.instrEnd (coreKey c) x
  | _ => false

/-! ### Well-formedness refuses each ill-formed command -/

theorem test_wf_mov : Instr.wf (.mov T0 ⟨0, 0, 0, 0x1000⟩) = false ∧ Instr.wf (.movFromSpecial T0 ⟨0, 0, 0, 0⟩) = false ∧
    Instr.wf (.movToSpecial T0 ⟨0, 0, 0, 0x1000⟩) = false ∧ Instr.wf (.movFromAcc T0 ⟨0, 0, 0, 0x4000⟩) = false ∧
    Instr.wf (.movToAcc T0 ⟨0, 0, 0, 0x3000⟩) = false := by decide
theorem test_wf_evwait : Instr.wf (.evwait T0 ⟨0, 0, 0, 1⟩) = false ∧ Instr.wf (.evwaitPoll T0 ⟨0, 0, 0, 2⟩) = false ∧
    Instr.wf (.evwaitStart T0 ⟨0, 0, 0, 0⟩) = false := by decide
theorem test_wf_cuex : Instr.wf (.cuexRead T0 ⟨0, 0, 0x10000⟩) = false ∧ Instr.wf (.cuexCancel T0 ⟨0, 0, 0⟩) = false := by decide
theorem test_wf_spgrp : Instr.wf (.spgrpLoad T0 ⟨0, 0, 0x10000⟩) = false ∧ Instr.wf (.spgrpApply T0 ⟨0, 0, 0⟩) = false ∧
    Instr.wf (.spgrpClear T0 ⟨0, 0, 0x10000⟩) = false := by decide
theorem test_wf_axcmd : Instr.wf (.config T0 ⟨0, 0, 2⟩) = false ∧ Instr.wf (.enable T0 ⟨0, 0, 1⟩) = false ∧
    Instr.wf (.disable T0 ⟨0, 0, 1⟩) = false ∧ Instr.wf (.go T0 ⟨0, 0, 1⟩) = false ∧ Instr.wf (.stop T0 ⟨0, 0, 6⟩) = false ∧
    Instr.wf (.qstop T0 ⟨0, 0, 5⟩) = false := by decide
theorem test_wf_axcmd_more : Instr.wf (.flush T0 ⟨0, 0, 1⟩) = false ∧ Instr.wf (.setpos T0 ⟨0, 0, 1⟩) = false ∧
    Instr.wf (.clear T0 ⟨0, 0, 1⟩) = false ∧ Instr.wf (.gstart T0 ⟨0, 0, 1⟩) = false ∧ Instr.wf (.govr T0 ⟨0, 0, 1⟩) = false ∧
    Instr.wf (.gslew T0 ⟨0, 0, 1⟩) = false := by decide
theorem test_wf_census : Instr.wf (.censusCopy T0 ⟨0, 0, 1⟩) = false ∧ Instr.wf (.censusExtraCheck T0 ⟨0, 0, 0⟩) = false := by decide
theorem test_wf_host_window : Instr.wf (.hostWindowWrite 4 [] false) = false ∧
    Instr.wf (.hostWindowWrite 0 (List.replicate 65 ⟨0, 0⟩) false) = false ∧
    Instr.wf (.hostWindowWrite 0x7FFFFF8 [⟨0, 0⟩, ⟨0, 0⟩] false) = false ∧ Instr.wf (.hostWindowRead 4) = false := by decide +kernel
theorem test_wf_can_frame :
    CanFrame.wf ⟨false, false, false, false, false, 2048, 0, []⟩ = false ∧ CanFrame.wf ⟨false, true, false, false, true, 2 ^ 18, 0, []⟩ = false ∧
    CanFrame.wf ⟨false, false, true, false, false, 2 ^ 18, 0, []⟩ = false ∧ CanFrame.wf ⟨false, false, false, false, false, 2 ^ 18, 2, [1]⟩ = false ∧
    CanFrame.wf ⟨false, false, false, false, false, 2 ^ 18, 2, [1, 2]⟩ = true := by decide
theorem test_wf_frame_command : Instr.wf (.canFrameValidated 0 ⟨⟨false, false, false, false, false, 2 ^ 18, 2, [1]⟩, 0, []⟩) = false := by decide
theorem test_wf_lists : Instr.wf (.evrFold []) = false ∧ Instr.wf (.calibrationDone []) = false := by decide

/-! ### The queue -/

theorem test_front_command : step { mod 4 with pending := [.evrSnapGo .crown1 1, .nop T0 ⟨0, 0, 0, 0⟩] } =
    exec (.evrSnapGo .crown1 1) { mod 4 with pending := [.nop T0 ⟨0, 0, 0, 0⟩] } := rfl
theorem test_idle_clock : (aft (step { regs := [(offSysMode, 2)] })).cc = 1 ∧
    (aft (step { regs := [(offSysMode, 2)] })).now = 0x280000000 := by decide +kernel
theorem test_idle_reset : aft (step { modes := { inReset := true } }) = { modes := { inReset := true } } := by decide +kernel
theorem test_reset_queue : State.reset.pending = [] ∧ decodeTableWord 36 0 = none := by decide +kernel

/-! ### Arithmetic (R157, R158, R108) -/

/-- Registers 1 to 5 for arithmetic. -/
def ar (a b d : Word) : State := tile 4 [(1, a), (2, b), (3, d)] evt

theorem test_hyp_core : coreReady T0 (ar 5 3 0) = true ∧ coreReady .crown1 (crown 4 []) = true ∧
    coreReady .crown0 (prog 4 []) = true ∧ requestReady T0 (ar 5 3 0) = true ∧ riBad (.r ⟨3, 1, 2, 0⟩) = false ∧
    riBad (.i ⟨3, 1, 7⟩) = false := by decide +kernel
theorem test_add_wraps : ends (execAdd T0 (.r ⟨3, 1, 2, 0⟩) (ar 0x7FFFFFFFF 1 0)) T0 (ar 0x7FFFFFFFF 1 0)
    { (ar 0x7FFFFFFFF 1 0).afterR 0 3 0x800000000 with fl := 0x00A } = true := by decide +kernel
theorem test_sub_borrow : ends (execSub T0 (.r ⟨3, 1, 2, 0⟩) (ar 3 5 0)) T0 (ar 3 5 0)
    { (ar 3 5 0).afterR 0 3 0xFFFFFFFFE with fl := 0x002 } = true := by decide +kernel
theorem test_cmp_equal : ends (execCmp T0 (.i ⟨0, 1, 5⟩) (ar 5 0 0)) T0 (ar 5 0 0) { (ar 5 0 0).afterI 0 with fl := 0x005 } = true := by
  decide +kernel
theorem test_adds_clamps : ends (execAdds T0 (.r ⟨3, 1, 2, 0⟩) (ar 0x7FFFFFFFF 1 0)) T0 (ar 0x7FFFFFFFF 1 0)
    { (ar 0x7FFFFFFFF 1 0).afterR 0 3 0x7FFFFFFFF with fl := 0x018 } = true := by decide +kernel
theorem test_subs_clamps : ends (execSubs T0 (.r ⟨3, 1, 2, 0⟩) (ar 0x800000000 1 0)) T0 (ar 0x800000000 1 0)
    { (ar 0x800000000 1 0).afterR 0 3 0x800000000 with fl := 0x01E } = true := by decide +kernel
theorem test_min_signed : ((aft (execMin T0 (.r ⟨3, 1, 2, 0⟩) (ar 0xFFFFFFFFF 1 0))).g 0 3) = 0xFFFFFFFFF := by decide +kernel
theorem test_max_signed : ((aft (execMax T0 (.r ⟨3, 1, 2, 0⟩) (ar 0xFFFFFFFFF 1 0))).g 0 3) = 1 := by decide +kernel
theorem test_mul_overflow : ends (execMul T0 ⟨3, 1, 2, 0⟩ (ar 0x400000000 2 0)) T0 (ar 0x400000000 2 0)
    { (ar 0x400000000 2 0).afterR 0 3 0x800000000 with fl := 0x00A } = true := by decide +kernel
theorem test_muls_rounds : ((aft (execMuls T0 ⟨3, 1, 2, 1⟩ (ar 3 1 0))).g 0 3) = 2 ∧
    ((aft (execMuls T0 ⟨3, 1, 2, 1⟩ (ar 0xFFFFFFFFD 1 0))).g 0 3) = 0xFFFFFFFFF := by decide +kernel
theorem test_mac_subtracts : (((aft (execMac T0 ⟨0, 1, 2, 0x40⟩ (ar 3 2 0))).core 0).acc) = BitVec.ofInt 72 (-6) := by decide +kernel
theorem test_div_truncates : ((aft (execDiv T0 ⟨3, 1, 2, 0⟩ (ar 0xFFFFFFFF9 2 0))).g 0 3) = 0xFFFFFFFFD := by decide +kernel
theorem test_div_zero : ends (execDiv T0 ⟨3, 1, 2, 0⟩ (ar 5 0 0)) T0 (ar 5 0 0)
    { (ar 5 0 0).afterR 0 3 0x7FFFFFFFF with fl := 0x018 } = true := by decide +kernel
theorem test_rem_zero : ends (execRem T0 ⟨3, 1, 2, 0⟩ (ar 0xFFFFFFFF9 0 0)) T0 (ar 0xFFFFFFFF9 0 0)
    { (ar 0xFFFFFFFF9 0 0).afterR 0 3 0xFFFFFFFF9 with fl := 0x01A } = true := by decide +kernel
theorem test_rem_sign : ((aft (execRem T0 ⟨3, 1, 2, 0⟩ (ar 0xFFFFFFFF9 2 0))).g 0 3) = 0xFFFFFFFFF := by decide +kernel
theorem test_neg_min : ends (execNeg T0 ⟨3, 1, 0, 0⟩ (ar 0x800000000 0 0)) T0 (ar 0x800000000 0 0)
    { (ar 0x800000000 0 0).afterR 0 3 0x7FFFFFFFF with fl := 0x018 } = true := by decide +kernel
theorem test_abs : ((aft (execAbs T0 ⟨3, 1, 0, 0⟩ (ar 0xFFFFFFFFB 0 0))).g 0 3) = 5 := by decide +kernel
theorem test_clamp_low : ((aft (execClamp T0 ⟨3, 1, 2, 0⟩ (ar 4 9 1))).g 0 3) = 4 := by decide +kernel

/-! ### Bits and shifts (R159) -/

theorem test_and_or_xor : ((aft (execAnd T0 (.r ⟨3, 1, 2, 0⟩) (ar 0xC 0xA 0))).g 0 3, (aft (execOr T0 (.r ⟨3, 1, 2, 0⟩) (ar 0xC 0xA 0))).g 0 3,
    (aft (execXor T0 (.r ⟨3, 1, 2, 0⟩) (ar 0xC 0xA 0))).g 0 3) = (8, 0xE, 6) := by decide +kernel
theorem test_bit_ops : ((aft (execNot T0 ⟨3, 1, 0, 0⟩ (ar 1 0 0))).g 0 3, (aft (execBset T0 ⟨3, 1, 0, 35⟩ (ar 1 0 0))).g 0 3,
    (aft (execBclr T0 ⟨3, 1, 0, 0⟩ (ar 1 0 0))).g 0 3) = (0xFFFFFFFFE, 0x800000001, 0) := by decide +kernel
theorem test_bext_signed : ((aft (execBext T0 ⟨3, 1, 0, 0x1104⟩ (ar 0xF0 0 0))).g 0 3) = 0xFFFFFFFFF := by decide +kernel
theorem test_bins : ((aft (execBins T0 ⟨3, 1, 0, 0x104⟩ (ar 0xA 0 0xFFF))).g 0 3) = 0xFAF := by decide +kernel
theorem test_shl_carry : ends (execShl T0 ⟨3, 1, 0, 1⟩ (ar 0x800000001 0 0)) T0 (ar 0x800000001 0 0)
    { (ar 0x800000001 0 0).afterR 0 3 2 with fl := 0x004 } = true := by decide +kernel
theorem test_sar_sign : ((aft (execSar T0 ⟨3, 1, 0, 4⟩ (ar 0x800000000 0 0))).g 0 3) = 0xF80000000 := by decide +kernel
theorem test_rot : ((aft (execRot T0 ⟨3, 1, 0, 1⟩ (ar 0x800000000 0 0))).g 0 3) = 1 := by decide +kernel
theorem test_shift_by_register : ((aft (execShr T0 ⟨3, 1, 2, 0x40⟩ (ar 0xF0 4 0))).g 0 3) = 0xF := by decide +kernel
theorem test_clz_popc : ((aft (execClz T0 ⟨3, 1, 0, 0⟩ (ar 1 0 0))).g 0 3, (aft (execPopc T0 ⟨3, 1, 0, 0⟩ (ar 0xFF 0 0))).g 0 3) = (35, 8) := by
  decide +kernel
theorem test_btst : (((aft (execBtst T0 ⟨0, 1, 0, 3⟩ (ar 8 0 0))).core 0).fl) = 0 := by decide +kernel

/-! ### F36 (R50, R160, R161): 1.0 is 0x3FC000000, 2.0 is 0x400000000 -/

theorem test_fadd : ends (execFadd T0 ⟨3, 1, 2, 0⟩ (ar 0x3FC000000 0x3FC000000 0)) T0 (ar 0x3FC000000 0x3FC000000 0)
    ((ar 0x3FC000000 0x3FC000000 0).afterF 0 3 0x400000000 { z := some false, n := some false, v := some false }) = true := by decide +kernel
theorem test_fdiv : ((aft (execFdiv T0 ⟨3, 1, 2, 0⟩ (ar 0x400000000 0x3FC000000 0))).g 0 3) = 0x400000000 := by decide +kernel
theorem test_fcmp_nan : (((aft (execFcmp T0 ⟨0, 1, 2, 0⟩ (ar 0x7FE000000 0x3FC000000 0))).core 0).fl) = 8 := by decide +kernel
theorem test_ftoi : ((aft (execFtoi T0 ⟨3, 1, 0, 0⟩ (ar 0x400000000 0 0))).g 0 3) = 2 := by decide +kernel
theorem test_itof : ((aft (execItof T0 ⟨3, 1, 0, 0⟩ (ar 1 0 0))).g 0 3) = 0x3FC000000 := by decide +kernel
theorem test_fcvt_single : ((aft (execFcvt T0 ⟨3, 1, 0, 0⟩ (ar 0x3FC000000 0 0))).g 0 3) = 0x3F800000 := by decide +kernel
theorem test_hyp_float : fpToInt 0 (ofF36 0x400000000) = some 2 ∧ fpToInt 0 (ofF36 0x7FE000000) = none := by decide +kernel

/-! ### Moves, memory and faults (R112 - R126, R152 - R156) -/

theorem test_ldi_negative : ((aft (execLdi T0 ⟨3, 0, 0xFFFFF⟩ (ar 1 0 0))).g 0 3) = 0xFFFFFFFFF := by decide +kernel
theorem test_ldh : ((aft (execLdh T0 ⟨3, 0, 0, 0x1234⟩ (ar 1 0 0xABCDE))).g 0 3) = 0x1234ABCDE := by decide +kernel
theorem test_lea_pc : ((aft (execLea T0 ⟨3, 15, 0xFFFFF⟩ (ar 1 0 0))).g 0 3) = 8 := by decide +kernel
theorem test_mov : ((aft (execMov T0 ⟨3, 1, 0, 0⟩ (ar 7 0 0))).g 0 3) = 7 := by decide +kernel
theorem test_mov_from_sp : ((aft (execMovFromSpecial T0 ⟨3, 3, 0, 0x1000⟩ (ar 7 0 0))).g 0 3) = 0xFFF0 := by decide +kernel
theorem test_mov_to_fl : (((aft (execMovToSpecial T0 ⟨4, 1, 0, 0x2000⟩ (ar 0xFFF 0 0))).core 0).fl) = 0xBF := by decide +kernel
theorem test_mov_acc : (((aft (execMovToAcc T0 ⟨0, 1, 0, 0x4004⟩ (ar 0xFFFFFFFFF 0 0))).core 0).acc) = BitVec.ofInt 72 (-16) := by
  decide +kernel
theorem test_mov_from_acc : ((aft (execMovFromAcc T0 ⟨3, 0, 0, 0x3001⟩ (aft (execMovToAcc T0 ⟨0, 1, 0, 0x4000⟩ (ar 3 0 0))))).g 0 3) = 2 := by
  decide +kernel

/-- Registers 1 and 2: an address, and a value; a writable task window at 0x100_0000. -/
def mm (a v : Word) : State :=
  tile 4 [(1, a), (2, v), (3, 0x55)] { evt with
    desc := [wd (2 ^ 34 + 4 * 2 ^ 10), 0, 0, 0, 0, 0x1000100, 0, 0, 0x1000000, wd (2 ^ 35 + 0x1000), 0x1002000, 0x100] }

theorem test_hyp_memory : (mm 0xE100 7).mayReach 0 true 0xE100 8 = true ∧ (mm 0x1000100 7).mayReach 0 true 0x1000100 8 = true ∧
    (mm 0x1002000 7).mayReach 0 false 0x1002000 1 = true ∧ (mm 0x1002000 7).accessN 0 true false 0x1002000 1 = .fault ∧
    (mm 0x1000 7).accessN 0 true false 0x1000 2 = .fault ∧ (mm 0x3000000 7).accessN 0 false true 0x3000000 2 = .fault ∧
    (mm 0 0).spOk 0 0xFFEF = true ∧ (mm 0 0).spOk 0 0xFFF1 = true ∧ (mm 0 0).mayReach 0 true 0xFFEF 1 = true ∧
    coreReady T0 (mm 0xE100 7) = true ∧ (mm 0xE100 0).wordAt 0 0xF100 = 0 ∧
    (tile 4 [] evt).spOk 0 0x10001 = false ∧ (tile 4 [] evt).spOk 0 0xFEFE = false := by decide +kernel
theorem test_st_ld : ((aft (execLd T0 ⟨4, 1, 0⟩ (aft (execSt T0 ⟨2, 1, 0⟩ (mm 0x1000100 7))))).g 0 4) = 7 := by decide +kernel
theorem test_st_other_word : ((aft (execSt T0 ⟨2, 1, 1⟩ (mm 0x1000100 7))).word 0x1000100) = 0 ∧
    ((aft (execSt T0 ⟨2, 1, 1⟩ (mm 0x1000100 7))).lineMeta 0x200020).version = 1 := by decide +kernel
theorem test_std_ldd : ((aft (execLdd T0 ⟨4, 1, 0⟩ (aft (execStd T0 ⟨2, 1, 0⟩ (mm 0xE100 7))))).gg 0 4) = dword 7 0x55 := by decide +kernel
theorem test_stl_line : ((aft (execStl T0 ⟨0, 1, 0⟩ (mm 0x1000100 7))).lineWords 0x200020) = [0, 0x1000100, 7, 0x55, 0, 0, 0, 0] := by
  decide +kernel
theorem test_push_pop : ((aft (execPush T0 ⟨2, 0, 0, 0⟩ (mm 0 7))).locWord 0 0xFFEF) = 7 ∧
    (((aft (execPop T0 ⟨4, 0, 0, 0⟩ (aft (execPush T0 ⟨2, 0, 0, 0⟩ (mm 0 7))))).core 0).sp) = 0xFFF0 := by decide +kernel
theorem test_cas : ((aft (execCas T0 ⟨4, 1, 2, 0⟩ (mm 0x1000100 7))).word 0x1000100) = 7 ∧
    ((aft (execCas T0 ⟨3, 1, 2, 0⟩ (mm 0x1000100 7))).word 0x1000100) = 0 := by decide +kernel
theorem test_window_fault : ((aft (execSt T0 ⟨2, 1, 0⟩ (mm 0x1002000 7))).task 3).st = .faulted := by decide +kernel
theorem test_line_write : (((mod 4).lineWrite 0x200020 3 [9, 8, 7, 6, 5, 4, 3, 2] false 1).lineWords 0x200020) = [9, 8, 0, 0, 0, 0, 0, 0] := by
  decide +kernel

/-! ### Flow (R110, R113, R115, R126, R130, R162 - R165) -/

theorem test_j_back : (((aft (execJ T0 ⟨0, 0xFFFFFD⟩ (ar 0 0 0))).core 0).pc) = 6 := by decide +kernel
theorem test_j_out : ((aft (execJ T0 ⟨0, 0xFFFFF6⟩ (ar 0 0 0))).task 3).st = .faulted := by decide +kernel
theorem test_jc : (((aft (execJc T0 ⟨0, 5⟩ (aft (execCmp T0 (.i ⟨0, 1, 0⟩) (ar 0 0 0))))).core 0).pc) = 15 := by decide +kernel
theorem test_loop : (((aft (execLoop T0 ⟨1, 0, 0xFFFFE⟩ (ar 2 0 0))).core 0).pc) = 7 ∧
    (((aft (execLoop T0 ⟨1, 0, 0xFFFFE⟩ (ar 1 0 0))).core 0).pc) = 10 := by decide +kernel
theorem test_call_ret : (((aft (execRet T0 ⟨0, 0, 0, 0⟩ (aft (execCall T0 ⟨0, 20⟩ (ar 0 0 0))))).core 0).pc) = 10 := by decide +kernel
theorem test_nop_fence : ends (execNop T0 ⟨0, 0, 0, 0⟩ (ar 0 0 0)) T0 (ar 0 0 0) ((ar 0 0 0).afterI 0) = true ∧
    ends (execFence T0 ⟨0, 0, 0, 0⟩ (ar 0 0 0)) T0 (ar 0 0 0) ((ar 0 0 0).afterI 0) = true := by decide +kernel
theorem test_trap_in_run : ends (execTrap T0 ⟨0, 0, 0, 5⟩ (ar 0 0 0)) T0 (ar 0 0 0) ((ar 0 0 0).afterI 0) = true := by decide +kernel
theorem test_hyp_flow : inCode 0 29 = true ∧ inCode 0 (2 ^ 36 - 1) = false ∧ condHolds 1 1 = some true ∧ condHolds 0 1 = some false ∧
    (ar 0 0 0).outstanding 0 = 0 ∧ (ar 0 0 0).mode = 4 := by decide +kernel

/-- A function block: its descriptor at word 16 of the code, entry 40; its header of the same type at 0xE100. -/
def fb : State :=
  let s := (tile 4 [(1, 0xE100)] evt).locWrites 0 16 [wd (5 * 2 ^ 12), 0, 40]
  s.locWrites 0 0xE100 [wd (5 * 2 ^ 12 + 3)]

theorem test_hyp_callfb : inCode 0 16 = true ∧ fb.spOk 0 0xFFEE = true ∧ fb.access 0 false false 0xE100 = .ok ∧ fb.wordClean 0 0xE100 = true ∧
    (∀ i < 3, fb.wordClean 0 (16 + i) = true) ∧ fb.mayReach 0 true 0xFFEE 2 = true ∧ (fb.wordAt 0 0xE100).toNat / 4096 = 5 := by
  decide +kernel
theorem test_callfb_retfb : ((aft (execCallfb T0 ⟨0, 1, 7⟩ fb)).core 0).pc = 40 ∧ ((aft (execCallfb T0 ⟨0, 1, 7⟩ fb)).core 0).ib = 0xE100 ∧
    ((aft (execRetfb T0 ⟨0, 0, 0, 0⟩ (aft (execCallfb T0 ⟨0, 1, 7⟩ fb)))).core 0).pc = 10 := by decide +kernel

/-! ### Tasks, posts and images (R121 - R123, R164, R166 - R174) -/

theorem test_done_event : ((aft (execDone T0 ⟨0, 0, 0, 0⟩ (tile 4 [] evt))).task 3).st = .idle ∧
    ((aft (execDone T0 ⟨0, 0, 0, 0⟩ (tile 4 [] evt))).core 0).taking = true := by decide +kernel
theorem test_done_cyclic : ((aft (execDone T0 ⟨0, 0, 0, 0⟩ (tile 4 [] (cyc 8)))).task 3).st = .delayed := by decide +kernel
theorem test_yield : ((aft (execYield T0 ⟨0, 0, 0, 0⟩ (tile 4 [] (cyc 8)))).task 3).st = .ready ∧
    ((aft (execYield T0 ⟨0, 0, 0, 0⟩ (tile 4 [] (cyc 8)))).task 3).saved = true := by decide +kernel
theorem test_wait : ((aft (execWait T0 ⟨0, 1, 0, 0⟩ (tile 4 [(1, 3)] (cyc 8)))).task 3).st = .delayed := by decide +kernel
theorem test_hyp_runs : requestReady T0 (tile 4 [] evt) = true ∧ (tile 4 [] evt).outstanding 0 = 0 ∧
    coreReady .crown0 (prog 4 []) = true ∧ targetOfWord 3 = some 3 ∧ targetOfWord 4 = some 4 ∧ targetOfWord 0x800 = none := by decide +kernel
theorem test_program_done : ((aft (execDone .crown0 ⟨0, 0, 0, 0⟩ (prog 4 [(1, 5)]))).host.prog) = none ∧
    ((aft (execDone .crown0 ⟨0, 0, 0, 0⟩ (prog 4 [(1, 5)]))).host.rsppi) = 1 := by decide +kernel
theorem test_take_faults : ((aft (execTake T0 (tile 4 [] evt))).task 3).st = .faulted := by decide +kernel
theorem test_post : ((aft (execPost T0 ⟨0, 1, 2, 0⟩ (tile 4 [(1, 3), (2, 77)] evt))).task 3).queue = [⟨77, 0⟩] := by decide +kernel
theorem test_post_full : (((aft (execPost T0 ⟨0, 1, 2, 0⟩
    (tile 4 [(1, 3), (2, 77)] { evt with queue := List.replicate 4 ⟨1, 0⟩ }))).core 0).errc) = 0x100 * 2 ∨
    (((aft (execPost T0 ⟨0, 1, 2, 0⟩ (tile 4 [(1, 3), (2, 77)] { evt with queue := List.replicate 4 ⟨1, 0⟩ }))).task 3).queue.length) = 4 := by
  decide +kernel
theorem test_evwait_takes : ((aft (execEvwait T0 ⟨1, 2, 0, 0⟩ (tile 4 [(2, 9)] { evt with queue := [⟨5, 0⟩, ⟨6, 0⟩] }))).g 0 1) = 5 := by
  decide +kernel
theorem test_evwait_waits : ((aft (execEvwait T0 ⟨1, 2, 0, 0⟩ (tile 4 [(2, 9)] evt))).task 3).st = .evwait := by decide +kernel
theorem test_evwait_poll : ends (execEvwaitPoll T0 ⟨1, 2, 0, 1⟩ (tile 4 [(2, 9)] evt)) T0 (tile 4 [(2, 9)] evt)
    ((tile 4 [(2, 9)] evt).afterF 0 1 0 { z := some true }) = true := by decide +kernel
theorem test_evwait_start : ends (execEvwaitStart T0 ⟨1, 2, 0, 2⟩ (tile 4 [(2, 9)] evt)) T0 (tile 4 [(2, 9)] evt)
    ((tile 4 [(2, 9)] evt).afterF 0 1 0 { z := some false }) = true := by decide +kernel
theorem test_trap_commission : ((aft (execTrap T0 ⟨0, 0, 0, 55⟩ (tile 3 [] evt))).task 3).st = .trapped := by decide +kernel

/-- An image entry of the task's window: 8 words from 0x100_0800; the scan time lies at 0x100_0900. -/
def img (out : Bool) : State :=
  let s := tile 4 [] { evt with
    desc := [wd (2 ^ 34 + 4 * 2 ^ 10), 0, 0, 0, 0, 0x1000100, 0, 0, 0x1000800, wd (2 ^ 35 + 64), 0x1000900, wd (2 ^ 35 + 2)] }
  let s := s.setCore 0 { s.core 0 with sb := 0x1000900 }
  { s with mem := s.mem.putWords (imgEntry 0 5) [wd ((if out then 2 ^ 35 else 0) + 2 ^ 24 + 3 * 2 ^ 25), 0x1000800, 8, 0x1000400, 0] }

theorem test_hyp_images : ((img false).imgCheck 0 5 false).1.isSome = true ∧ ((img true).imgCheck 0 5 true).1.isSome = true ∧
    requestReady T0 (img false) = true := by decide +kernel
theorem test_hyp_image_words : (img false).anyPoison (imgEntry 0 5) 16 = false ∧ (img false).mem.errs = [] ∧
    ((img false).img 0 5).buf = 0x1000800 ∧ ((img false).img 0 5).len = 8 ∧ ((img false).img 0 5).npts = 0 ∧
    (targetOf 0x1000900).isSome = true ∧ ((img false).core 0).sb = 0x1000900 := by decide +kernel
theorem test_imgin : ((aft (execImgin T0 ⟨2, 0, 5⟩ (img false))).core 0).pc = 10 ∧
    (aft (execImgin T0 ⟨2, 0, 5⟩ (img false))).word 0x1000900 = dlo (img false).t72 := by decide +kernel
theorem test_imgout : ((aft (execImgout T0 ⟨2, 0, 5⟩ (img true))).core 0).pc = 10 := by decide +kernel

/-! ### Cells, time and cues (R17, R175 - R178) -/

/-- Tile 0 owns step generator 3. -/
def cel (g : Tab Word) : State := { tile 4 g evt with owners := [(offStep 3 0, 1)] }

theorem test_iow_owned : ((aft (execIow T0 ⟨2, 1, 1⟩ (cel [(1, wd (offStep 3 0)), (2, 77)]))).reg (offStep 3 1)) = 77 := by decide +kernel
theorem test_iow_not_owned : ((aft (execIow T0 ⟨2, 1, 1⟩ (tile 4 [(1, wd (offStep 3 0)), (2, 77)] evt))).task 3).st = .faulted := by
  decide +kernel
theorem test_ior : ((aft (execIor T0 ⟨2, 1, 1⟩ ((tile 4 [(1, wd (offStep 3 0))] evt).setReg (offStep 3 1) 9))).g 0 2) = 9 := by decide +kernel
theorem test_register_write : ((aft (execRegisterWrite .crown1 (BitVec.ofNat 20 (offStep 3 1)) 66 (mod 4))).reg (offStep 3 1)) = 66 := by
  decide +kernel
theorem test_timerd : ((aft (execTimerd T0 ⟨2, 0, 0, 0⟩ (tile 4 [] evt))).gg 0 2) = dw 5000 := by decide +kernel
theorem test_crd : ((aft (execCrd T0 ⟨2, 0, 32⟩ (tile 4 [] evt))).core 0).pc = 10 := by decide +kernel

/-- A cue record at 0xE100 of local memory: action 6 with parameter 4, at coordinate 0. -/
def cu : State := (tile 4 [(1, 0xE100)] evt).locWrites 0 0xE100 [wd (2 ^ 29 + 6 * 2 ^ 24 + 4), 700, 0, 0]
/-- The same with cue 5 armed by tile 0. -/
def cuA : State := cu.setCue 5 { st := .armed, owner := some (.tile 0), armedAt := 2000 }

theorem test_hyp_cues : requestReady T0 cu = true ∧ cu.mayReach 0 false 0xE100 4 = true ∧ cu.mayReach 0 true 0xE100 4 = true ∧
    (cu.cue 5).st ≠ .armed ∧ cu.cueCrosses 5 = false ∧ cuA.cueCrosses 5 = false := by decide +kernel
theorem test_cue_arms : ((aft (execCue T0 ⟨2, 1, 5⟩ cu)).cue 5).st = .armed ∧ ((aft (execCue T0 ⟨2, 1, 5⟩ cu)).cue 5).value = 700 * 2 ^ 32 := by
  decide +kernel
theorem test_cuex_cancel : ((aft (execCuexCancel T0 ⟨2, 1, 0x10005⟩ cuA)).cue 5).st = .cancelled := by decide +kernel
theorem test_cuex_read : ((aft (execCuexRead T0 ⟨2, 1, 5⟩ cuA)).cue 5).st = .armed := by decide +kernel

/-! ### Lanes, setpoint groups and axes (R179 - R189, R279 - R303) -/

/-- A lane of quadrant 0 with setpoint register, input node 0 and output node 1, law L1. -/
def laneWords : List Word := (List.range 64).map (fun i =>
  ([(0, wd (2 ^ 32)), (1, wd (2 * 2 ^ 34 + 2 ^ 27)), (4, 5), (10, 1000), (14, wd (2 ^ 35 - 1)), (15, wd (2 ^ 35)), (17, wd (2 ^ 31)),
    (18, wd (2 ^ 31))].find? (fun e => e.1 = i)).elim (0 : Word) Prod.snd)

/-- A configured lane with that descriptor. -/
def lane : Lane := { configured := true, desc := (List.range 64).foldl (fun t i => Tab.put 0 t i (laneWords.getD i 0)) [], nodes := [4] }

/-- Tile 0 with lane 4, its descriptor at 0xE100, and a group image at 0xE200. -/
def ln (on : Bool) : State :=
  let s := (tile 4 [(1, 4), (2, 0xE100), (3, 0xE200), (5, 9)] evt).locWrites 0 0xE100 laneWords
  (s.locWrites 0 0xE200 [1, 4, 77]).setLane 4 { lane with enabled := on }

theorem test_hyp_lanes : requestReady T0 (ln false) = true ∧ (ln false).mayReach 0 false 0xE100 64 = true ∧
    (ln false).orders = [] ∧ ((ln false).lane 4).spKind < 2 ∧ ((ln true).lane 4).enabled = true ∧ ((ln true).lane 4).pendSp = none := by
  decide +kernel
theorem test_lcfg_ok : (ln false).laneOk 4 (some 0) laneWords = true ∧
    ((aft (execLcfg T0 ⟨2, 1, 1⟩ (ln false))).lane 4).pendEnable = some (true, .tile 0, 20000) := by decide +kernel
theorem test_lcfg_refused : (ln false).laneOk 4 (some 0) [] = false ∧
    ((aft (execLcfg T0 ⟨2, 1, 1⟩ (ln true))).task 3).st = .faulted := by decide +kernel
theorem test_lcoef : ((aft (execLcoef T0 ⟨5, 1, 2⟩ (ln false))).lane 4).w 19 = 9 ∧
    ((aft (execLcoef T0 ⟨5, 1, 2⟩ (ln true))).lane 4).pendCoef = [(2, 9)] := by decide +kernel
theorem test_lsp : ((aft (execLsp T0 ⟨5, 1, 0⟩ (ln false))).lane 4).w 10 = 9 ∧
    (((aft (execLsp T0 ⟨5, 1, 0⟩ (ln true))).lane 4).pendSp.map (·.value)) = some 9 := by decide +kernel
theorem test_lsp_far_lane : ((aft (execLsp (.tile 16) ⟨5, 1, 0⟩ { ln true with
    cores := [(16, { g := [(1, 4)], pc := 9, task := some 256 })], tasks := [(256, { st := .running })] })).task 256).st = .faulted := by
  decide +kernel
theorem test_lstat : ((aft (execLstat T0 ⟨5, 1, 0⟩ (ln true))).core 0).pc = 10 := by decide +kernel
theorem test_hyp_groups : (ln true).mayReach 0 false 0xE200 3 = true ∧ ((ln true).spGroup 7).st ≠ .applying ∧
    (([(4, (77 : Word))].map Prod.fst)).Nodup := by decide +kernel
theorem test_spgrp_load : ((aft (execSpgrpLoad T0 ⟨5, 3, 7⟩ (ln true))).spGroup 7) = { st := .loaded, members := [(4, 77)] } := by
  decide +kernel

/-- Group 7 loaded, or applying. -/
def gr (st : GState) : State := (ln true).setSpGroup 7 { st := st, members := [(4, 77)] }

theorem test_spgrp_apply : ((aft (execSpgrpApply T0 ⟨5, 3, 0x10007⟩ (gr .loaded))).spGroup 7).st = .applying ∧
    (((aft (execSpgrpApply T0 ⟨5, 3, 0x10007⟩ (gr .loaded))).lane 4).pendSp.map (·.group)) = some true := by decide +kernel
theorem test_spgrp_clear : ((aft (execSpgrpClear T0 ⟨5, 3, 0x20007⟩ (gr .loaded))).spGroup 7) = {} ∧
    ((aft (execSpgrpClear T0 ⟨5, 3, 0x20007⟩ (gr .applying))).task 3).st = .faulted := by decide +kernel

/-- The descriptor of axis 2 in group 1 on position lane 9: full-scale velocity and acceleration, decelerations 1000 and 2000. -/
def axD : List Word := [wd (2 ^ 31 + 9), 0, 0xFFFFFFFFF, 0xFFFFFFFFF, 1000, 2000, 0, 0, 0, 0, 0, 0, 0, 0, 0, 0]
/-- A segment of 1 s to position 2^32 that ends at rest. -/
def sg1 : Seg := { tag := 5, postStart := false, dur := 1000000000, pend := 2 ^ 32, vend := 0, unchecked := false }
/-- The words of that segment. -/
def segWords : List Word := [5, 1000000000, wd (2 ^ 32), 0, 0, 0]

/-- Tile 0 owns axis 2; words at 0xE100; lane 9 is a law L5 lane of the profile of axis 2. -/
def ax (st : AState) (q : List Seg) (ws : List Word) (on : Bool) : State :=
  let s := (tile 4 [(1, 2), (2, 0xE100), (3, 2)] evt).setAxis 2 { st := st, queue := q, desc := axD, pref := 7 }
  let s := (s.locWrites 0 0xE100 ws).setLane 9 { configured := true, enabled := on, desc := [(0, wd (5 * 2 ^ 32)), (9, wd (2 ^ 34 + 2))] }
  { s with owners := [(offAxis 2, 1)] }

theorem test_hyp_axes : requestReady T0 (ax .ready [] [] false) = true ∧ (ax .ready [] [] false).offAxisOwner 0 2 = false ∧
    State.axisRun 2 66 (ax .ready [] [] false) = ax .ready [] [] false ∧ (ax .ready [] [] false).orders = [] ∧
    ((ax .ready [] [] false).axis 2).setpos = none ∧ (ax .ready [] [] false).mayReach 0 false 0xE100 16 = true := by decide +kernel
theorem test_segpush : (ax .ready [] segWords false).segOf 2 segWords = some sg1 ∧
    ((aft (execSegpush T0 ⟨1, 2, 0⟩ (ax .ready [] segWords false))).axis 2).queue = [sg1] ∧
    (aft (execSegpush T0 ⟨1, 2, 0⟩ (ax .ready [] segWords false))).g 0 1 = 63 := by decide +kernel
theorem test_segpush_full : ((aft (execSegpush T0 ⟨1, 2, 0⟩ (ax .ready (List.replicate 64 sg1) segWords false))).task 3).st = .faulted := by
  decide +kernel
theorem test_config : (ax .unconf [] axD false).axisConfigOk 2 axD = true ∧
    ((aft (execConfig T0 ⟨1, 2, 1⟩ (ax .unconf [] axD false))).axis 2).st = .disabled := by decide +kernel
theorem test_enable : ((aft (execEnable T0 ⟨1, 2, 2⟩ (ax .disabled [] [] false))).axis 2).st = .ready ∧
    ((aft (execEnable T0 ⟨1, 2, 2⟩ (ax .disabled [] [] false))).lane 9).pendEnable = some (true, .tile 0, 20000) := by decide +kernel
theorem test_disable : ((aft (execDisable T0 ⟨1, 2, 3⟩ (ax .ready [] [] true))).axis 2).st = .disabled ∧
    ((aft (execDisable T0 ⟨1, 2, 3⟩ (ax .ready [] [] true))).lane 9).pendEnable = some (false, .tile 0, 20000) := by decide +kernel
theorem test_go : (ax .ready [sg1] [] true).canGo 2 = true ∧ (ax .ready [sg1] [] true).goChecks 2 = true ∧
    ((aft (execGo T0 ⟨1, 2, 4⟩ (ax .ready [sg1] [] true))).axis 2).p0 = 7 ∧ (ax .ready [] [] true).canGo 2 = false := by decide +kernel
theorem test_hyp_moving : State.axisRun 2 66 (ax .moving [sg1] [] true) = ax .moving [sg1] [] true := by decide +kernel
theorem test_stop : (((aft (execStop T0 ⟨1, 2, 5⟩ (ax .moving [sg1] [] true))).axis 2).stop.map Stop.decel) = some 1000 := by decide +kernel
theorem test_stop_ready : (aft (execStop T0 ⟨1, 2, 5⟩ (ax .ready [] [] true))).g 0 1 = 1 := by decide +kernel
theorem test_qstop : (((aft (execQstop T0 ⟨1, 2, 6⟩ (ax .moving [sg1] [] true))).axis 2).stop.map Stop.decel) = some 2000 := by decide +kernel
theorem test_flush : ((aft (execFlush T0 ⟨1, 2, 7⟩ (ax .fault [sg1] [] true))).axis 2).queue = [] := by decide +kernel
theorem test_setpos : ((aft (execSetpos T0 ⟨1, 2, 8⟩ (ax .ready [] [5, 0] false))).axis 2).pref = 5 ∧
    ((aft (execSetpos T0 ⟨1, 2, 8⟩ (ax .ready [] [5, 0] true))).axis 2).setpos = some 5 := by decide +kernel
theorem test_clear : ((aft (execClear T0 ⟨1, 2, 9⟩ (ax .fault [] [] true))).axis 2).st = .ready := by decide +kernel
theorem test_hyp_group : (∀ i < 256, (ax .ready [sg1] [] true).offAxisOwner 0 i = false → i = 2) := by decide +kernel
theorem test_gstart : ((aft (execGstart T0 ⟨1, 2, 16⟩ (ax .ready [sg1] [] true))).axis 2).st = .moving := by decide +kernel
theorem test_govr : ((aft (execGovr T0 ⟨1, 2, 17⟩ (ax .ready [] [] true))).agroup 1).ovrset = 0xE100 := by decide +kernel
theorem test_govr_range : (aft (execGovr T0 ⟨1, 2, 17⟩ ((ax .ready [] [] true).setG 0 2 0x20001))).g 0 1 = 4 ∧
    ((aft (execGovr T0 ⟨1, 2, 17⟩ ((ax .ready [] [] true).setG 0 2 0x20000))).agroup 1).ovrset = 0x20000 := by decide +kernel
theorem test_gslew : ((aft (execGslew T0 ⟨1, 2, 18⟩ (ax .ready [] [] true))).agroup 1).slew = 0xE100 := by decide +kernel
theorem test_axstat : (aft (execAxstat T0 ⟨5, 1, 0⟩ (ax .ready [] [] true))).g 0 5 = wd (2 * 2 ^ 32) := by decide +kernel

/-! ### The journal (R190 - R194, R308 - R322) -/

/-- The handle of the first step of a journal. -/
def h1 : Word := 1

/-- A tile with a value in register 1 and the handle 1 in register 2, register 3 an address. -/
def jr : State := tile 4 [(1, 99), (2, h1), (3, 0xE100)] evt
/-- Step 1 is open with intent 99: journal lines 0 and 1. -/
def jr1 : State :=
  { jr.setReg (offJrnl 1) 1 with mem := (jr.mem.putWords jrnlBase (jr.jRecord 0 1 0 h1 99 0)).putWords (jrnlBase + 8) (jr.jRecord 0 4 0 h1 0 0) }
/-- Its field 5 is 66: line 2. -/
def jr2 : State := { jr1 with mem := jr1.mem.putWords (jrnlBase + 16) (jr.jRecord 0 2 5 h1 66 1) }
/-- The journal is mirrored. -/
def jm : State := jr1.setReg (offJrnl 0) (setBit (jr1.reg (offJrnl 0)) 2 true)

theorem test_hyp_jbegin : requestReady T0 jr = true ∧ jr.outstanding 0 = 0 ∧ jr.holdup = false ∧ jr.jOpenSteps.length < 1024 ∧
    jr.jLines.length + 2 ≤ 8192 ∧ jr.jStep h1 = [] ∧ jr.jOpen h1 = false := by decide +kernel
theorem test_hyp_jprog : jr1.jOpen h1 = true ∧ jr1.jFind h1 2 5 = none ∧ (jr2.jFind h1 2 5).isSome = true := by decide +kernel
theorem test_jprog : ((aft (execJprog T0 ⟨0, 2, 3, 5⟩ jr2)).jWord 2 4, (aft (execJprog T0 ⟨0, 2, 3, 5⟩ jr2)).jWord 2 5) = (0xE100, 2) := by
  decide +kernel
theorem test_hyp_jend : requestReady T0 jr2 = true ∧ (jr2.jFind h1 1 0).isSome = true ∧ (jr2.jFind h1 4 0).isSome = true := by decide +kernel
theorem test_jend : ((aft (execJend T0 ⟨0, 2, 0, 0⟩ jr2)).jOpen h1) = false ∧ ((aft (execJend T0 ⟨0, 2, 0, 0⟩ jr2)).core 0).fl = 1 := by
  decide +kernel
theorem test_jend_refused : (((aft (execJend T0 ⟨0, 2, 0, 0⟩ jr)).core 0).errc.toNat / 256) % 256 = 4 := by decide +kernel
theorem test_jquery : (aft (execJquery T0 ⟨4, 3, 2⟩ jr2)).g 0 4 = 1 ∧ jr2.mayReach 0 true 0xE100 128 = true := by decide +kernel
theorem test_hyp_mirror : requestReady T0 jm = true ∧ jm.jOpen h1 = true ∧ (jm.jFind h1 4 0).isSome = true ∧ jm.outstanding 0 = 0 ∧
    jm.holdup = false := by decide +kernel
theorem test_mirror : ((aft (execJend T0 ⟨0, 2, 0, 0⟩ jm)).core 0).pc = 9 ∧
    ((aft (execMirrorAck (aft (execJend T0 ⟨0, 2, 0, 0⟩ jm)))).core 0).pc = 10 := by decide +kernel
theorem test_mirror_watchdog : (jm.task 3).wdog = false := by decide +kernel

/-! ### Recording (R195, R474, R480, R484) -/

/-- Signal 7 is declared with 9 words of credit; recording is on. -/
def rc : State :=
  let s := ((jr).setReg (offHist 5) (wd (2 ^ 35))).setSignal 7 { credit := 9 }
  { s with mem := s.mem.putWords (sigBase + 14) [wd (2 ^ 35 + 7 * 2 ^ 32), 0] }

theorem test_hyp_recmark : requestReady T0 rc = true ∧ rc.declared 7 = true ∧ rc.recording = true ∧ (rc.signal 7).seg = none ∧
    rc.declared 8 = false := by decide +kernel
theorem test_recmark : ((aft (execRecmark T0 ⟨1, 0, 7⟩ rc)).signal 7).credit = 1 ∧
    ((aft (execRecmark T0 ⟨1, 0, 7⟩ rc)).hist.closed.map (·.entryWords)) = [1] := by decide +kernel
theorem test_recmark_refused : (((aft (execRecmark T0 ⟨1, 0, 8⟩ rc)).core 0).errc.toNat / 256) % 256 = 4 := by decide +kernel

/-- Tile 0 owns capture unit 2, in state st, and has a descriptor at 0xE100 whose word 0 is w. -/
def cp (st : Nat) (w : Word) : State :=
  let s := { jr with owners := [(offCap 2 0, 1)] }
  (s.locWrites 0 0xE100 [w, 0, 0, 0, 0]).setCap 2 { s.cap 2 with st := st }

/-- A sound capture descriptor: one channel of kind 1, trigger kind 1 on its rising edge, into buffer 0 of 4,096 words. -/
def capD : List Word := [wd (2 ^ 28 + 2 ^ 26), 100, wd (2 ^ 32), 0, 0, 0, 50, 0, 5, wd (2 * 2 ^ 18 + 3), 1, 7, 0, 0, 0, 0]
/-- The state with that descriptor and a configured buffer 0. -/
def cq (st : Nat) : State :=
  let s := (cp st 0).locWrites 0 0xE100 capD
  { s with mem := s.mem.putWords (bufDesc 0) [wd (2 ^ 34), 0, 0x9000, 0x1000, 0] }

theorem test_hyp_capok : (cq 0).capOk capD = true ∧ (cp 0 0).capOk [0] = false := by decide +kernel
theorem test_caparm : ((aft (execCaparm T0 ⟨4, 3, 2⟩ (cq 0))).cap 2).st = 1 ∧ ((aft (execCaparm T0 ⟨4, 3, 2⟩ (cq 2))).cap 2).held = some capD := by
  decide +kernel
theorem test_hyp_caparm : requestReady T0 (cp 0 0) = true ∧ (cp 0 0).mayReach 0 false 0xE100 16 = true ∧
    Tab.get 0 (cp 0 0).owners (offCap 2 0) = 1 := by decide +kernel
theorem test_caparm_stop : ((aft (execCaparm T0 ⟨4, 3, 2⟩ (cp 1 (wd (2 ^ 35))))).cap 2).st = 0 ∧
    (aft (execCaparm T0 ⟨4, 3, 2⟩ (cp 1 (wd (2 ^ 35))))).g 0 4 = 1 := by decide +kernel

/-! ### Privileged instructions (R196, R197, R235 - R239, R571, R572) -/

theorem test_tile_privilege : ((aft (execMode T0 ⟨1, 2, 0⟩ (tile 4 [] evt))).task 3).st = .faulted ∧
    ((aft (execRingset .crown1 ⟨1, 2, 0⟩ (crown 2 []))).task 1030).st = .faulted := by decide +kernel
theorem test_not_allowed : (aft (execOwnset .crown0 ⟨1, 2, 0⟩ (prog 4 [(2, 0x2100000)]))).g 64 1 = 1 ∧
    (prog 4 [(2, 0x2100000)]).mayReach 64 false 0x2100000 16 = true := by decide +kernel
theorem test_hyp_mode : requestReady .crown1 (crown 2 [(2, 3)]) = true ∧ (crown 2 [(2, 3)]).modeAllowed 3 = true ∧
    (crown 2 [(2, 8)]).modeAllowed 8 = false ∧ (crown 2 []).holdup = false ∧ (crown 2 []).modes.inReset = false ∧
    (crown 2 []).modes.trans = none ∧ (crown 2 []).orders = [] ∧ (crown 2 []).census.sample = none ∧
    (crown 2 [(2, 0x2100000)]).mayReach 65 true 0x2100000 1840 = true := by decide +kernel
/-- Crown pair 1 asks for RUN in COMMISSION while no tile of quadrant 0 admits the class of task 3. -/
def mc : State :=
  let s := { crown 3 [(2, 4)] with tasks := [(1030, { st := .running }), (3, { st := .idle, desc := [wd (2 ^ 34)] })] }
  (List.range 16).foldl (fun s i => s.setReg (offMask i) 0) s

theorem test_hyp_mode_class : mc.modeAllowed 4 = true ∧ mc.classesOk = false ∧ (crown 3 []).classesOk = true ∧
    (aft (execMode .crown1 ⟨1, 2, 0⟩ mc)).g 65 1 = 4 := by decide +kernel
theorem test_mode : (aft (execMode .crown1 ⟨1, 2, 0⟩ (crown 2 [(2, 3)]))).modes.trans = some (3, 2) ∧
    (aft (execMode .crown1 ⟨1, 2, 0⟩ (crown 2 [(2, 3)]))).mode = 2 := by decide +kernel
theorem test_census_copy : (aft (execCensusCopy .crown1 ⟨1, 2, 0⟩ (crown 2 [(2, 0x2100000)]))).core 65 =
    (crown 2 [(2, 0x2100000)]).afterR 65 1 0 := by decide +kernel
theorem test_census_extra : (aft (execCensusExtraCheck .crown1 ⟨1, 2, 1⟩ (crown 2 []))).census.extra = some 20001 := by decide +kernel
theorem test_ownset : ownable (offStep 3 0) = true ∧ ownable 0 = false ∧
    Tab.get 0 (aft (execOwnset .crown0 ⟨1, 2, 0⟩ (prog 2 [(2, wd (offStep 3 0)), (1, 9)]))).owners (offStep 3 0) = 10 := by decide +kernel
theorem test_classset : (aft (execClassset .crown0 ⟨1, 2, 0⟩ (prog 2 [(2, 0xF0F0), (1, 9)]))).reg (offMask 9) = 0xF0F0 := by decide +kernel

/-- A sound EVENT descriptor at 0x210_0000 of Crown memory, and register 2 its address. -/
def ts (w0 : Word) : State := { prog 2 [(2, 0x2100000)] with mem := State.reset.mem.putWords 0x2100000 [w0, 0, 0, 0, 64, 0x1000100, 0x1000200] }

theorem test_hyp_taskset : requestReady .crown0 (ts 0) = true ∧ (ts 0).mayReach 64 false 0x2100000 16 = true ∧
    taskDescOk 3 [wd (2 ^ 34 + 4 * 2 ^ 10), 0, 0, 0, 64, 0x1000100, 0x1000200, 0, 0, 0, 0, 0, 0, 0, 0, 0] = true ∧
    taskDescOk 3 [wd (2 ^ 34), 0, 0, 0, 0, 0, 0, 0, 0, 0, 0, 0, 0, 0, 0, 0] = false := by decide +kernel
theorem test_taskset : ((aft (execTaskset .crown0 ⟨1, 2, 3⟩ (ts (wd (2 ^ 34 + 4 * 2 ^ 10))))).task 3).st = .idle := by decide +kernel
theorem test_taskset_busy : (aft (execTaskset .crown0 ⟨1, 2, 3⟩ { ts 0 with tasks := [(3, { st := .ready })] })).g 64 1 = 1 := by decide +kernel

/-- A CODELOAD descriptor: 2 words from 0x210_0100 to word 5 of tile 4. -/
def cl : State :=
  { prog 2 [(2, 0x2100000)] with
    mem := (State.reset.mem.putWords 0x2100000 [0x2100100, 2, 5, 16, 0]).putWords 0x2100100 [77, 78] }

theorem test_codeload : (aft (execCodeload .crown0 ⟨1, 2, 0⟩ cl)).locWord 4 6 = 78 ∧ (aft (execCodeload .crown0 ⟨1, 2, 0⟩ cl)).locWord 3 6 = 0 ∧
    cl.mayReach 64 false 0x2100000 5 = true ∧ cl.mayReach 64 false 0x2100100 2 = true ∧ inOneRange 0x2100100 2 = true := by decide +kernel

/-- Ring OFF in both words of a block for ring 1. -/
def rs (w0 : Word) : State := { prog 2 [(2, 0x2100000)] with mem := State.reset.mem.putWords 0x2100000 [w0] }

theorem test_hyp_ringset : ((rs 0).ringCheck 1 ((rs 0).ringBlock (List.replicate 16 0))).isSome = true ∧
    (rs 0).ringCheck 1 ((rs 0).ringBlock [0xFFFFFFFFF]) = none ∧ (rs 0).mayReach 64 false 0x2100000 16 = true := by decide +kernel
theorem test_ringset : ((aft (execRingset .crown0 ⟨1, 2, 1⟩ (rs 0))).ring 1).waiting.isSome = true ∧
    (aft (execRingset .crown0 ⟨1, 2, 1⟩ (rs 0xFFFFFFFFF))).g 64 1 = 4 := by decide +kernel

/-- A force command at 0x210_0000, and one entry in the table for point p. -/
def fo (m : Nat) (w0 p : Word) (on : Bool) : State :=
  let s := { prog m [(2, 0x2100000)] with mem := State.reset.mem.putWords 0x2100000 [w0, p, 0, 1] }
  if on then { s with mem := s.mem.putWords forceBase [setBit p 35 true, 0, 1, 0] } else s


/-- A FIELD point of input 3: kind 1, one bit. -/
def fp : Word := wd (2 ^ 32 + 2 ^ 4)

theorem test_hyp_force : requestReady .crown0 (fo 4 0 fp false) = true ∧ (fo 4 0 fp false).mayReach 64 false 0x2100000 4 = true ∧
    forcePointOk fp 0 = true ∧ (fo 4 0 fp false).forces = [] ∧ (fo 4 0 fp false).forceFree = some forceBase ∧
    (fo 4 0 fp false).orders = [] ∧ (fo 4 0 fp false).wordClean 65 forceBase = true ∧ (fo 4 0 fp true).forceFind fp 0 = some forceBase ∧
    (fo 4 0 fp true).forces = [forceBase] ∧ (fo 4 0 fp false).forceFind fp 0 = none := by decide +kernel
theorem test_force_set : (aft (execForceSet .crown0 ⟨1, 2, 0⟩ (fo 4 0 fp false))).word forceBase = setBit fp 35 true ∧
    (aft (execForceSet .crown0 ⟨1, 2, 0⟩ (fo 4 0 fp false))).reg offForceStat = 3 ∧
    (aft (execForceSet .crown0 ⟨1, 2, 0⟩ (fo 3 0 fp false))).g 64 1 = 1 := by decide +kernel
theorem test_force_release : (aft (execForceRelease .crown0 ⟨1, 2, 0⟩ (fo 4 (wd (2 ^ 34)) fp true))).forces = [] := by decide +kernel
theorem test_force_release_all : (aft (execForceReleaseAll .crown0 ⟨1, 2, 0⟩ (fo 4 (wd (2 ^ 35)) 0 true))).forces = [] := by decide +kernel

/-! ### Host requests (R563 - R567, R616) -/

/-- A request entry of code c, tag 77, a buffer or none, with words 3 and up, and its check. -/
def entry (c : Nat) (buf : Option Nat) (ws : List Word) : List Word :=
  let w0 := wd (2 ^ 28 * c + (match buf with
    | some b => 2 ^ 11 + b
    | none => 0))
  let r := (List.range 61).map (fun i => ws.getD i 0)
  [w0, 77, wd (crc32cWords ([w0, 77] ++ r))] ++ r

/-- Mode m; the host has placed that entry, and buffer 3 of 70,000 words, 4 of them valid, belongs to the device. -/
def rq (m c : Nat) (buf : Option Nat) (ws : List Word) : State :=
  let s := { mod m with
    host := { ready := true, reqpi := 1 }, census := { streams := [(strReq, { produced := 1, resident := 1 })] } }
  { s with mem := (s.mem.putWords (Config.hostArea + 0x2000) (entry c buf ws)).putWords (bufDesc 3) [wd (2 ^ 35 + 2 ^ 34), 0, 0x10000, 70000, 4] }

/-- The response that a request leaves: code and status. -/
def answered (o : Host.Outcome State Fault Refusal) : Nat × Nat :=
  let w := (aft o).word (Config.hostArea + 0x6000)
  (fld w 35 28, fld w 27 20)

theorem test_hyp_image : (rq 2 0xE (some 3) []).tablesOk noProgram = true ∧ codeFits noProgram noProgram = true ∧
    (((rq 2 0xE (some 3) []).loadAreas []).readTypes noProgram).2.blocksOk noProgram noProgram = true ∧ noProgram.areas.all areaOk = true := by
  decide +kernel
theorem test_program : (rq 4 1 none [0, 0, 0, 0, 0, 55]).entryFor 1 = true ∧
    (aft (execProgram (rq 4 1 none [0, 0, 0, 0, 0, 55]))).locWord 64 0 = 55 := by decide +kernel
theorem test_mode_request : (rq 4 2 none [2]).entryFor 2 = true ∧ (rq 4 2 none [2]).modeAllowed 2 = true ∧ (rq 4 2 none [2]).holdup = false ∧
    (rq 4 2 none [2]).modes.inReset = false ∧ answered (execModeRequest (rq 4 2 none [2])) = (2, 0) := by decide +kernel
theorem test_force_request : (rq 4 3 none [0, fp, 0, 1]).entryFor 3 = true ∧ (rq 4 3 none [0, fp, 0, 1]).forceFree = some forceBase ∧
    (rq 4 3 none []).forces = [] ∧ (rq 4 3 none []).wordClean 65 forceBase = true ∧
    (aft (execForceRequest (rq 4 3 none [0, fp, 0, 1]))).forces = [forceBase] := by decide +kernel
theorem test_trapresume : (rq 3 5 none [3]).entryFor 5 = true ∧
    ((aft (execTrapresume { rq 3 5 none [3] with tasks := [(3, { st := .trapped })] })).task 3).resume = true ∧
    answered (execTrapresume (rq 3 5 none [3])) = (5, 4) ∧ answered (execTrapresume (rq 4 5 none [3])) = (5, 1) ∧
    answered (execTrapresume { rq 3 5 none [3] with tasks := [(3, { st := .idle })] }) = (5, 1) := by decide +kernel
theorem test_safety_no_buffer : (rq 3 0xA none []).entryFor 0xA = true ∧ answered (execSafety (rq 3 0xA none [])) = (0xA, 4) := by decide +kernel

/-- Both modules have a band and LENGI, and the peer is at the same level. -/
def pr : State := ((rq 2 0xB none [wd (2 ^ 34 + 7), 9]).setReg offBlevel 1).setReg (offHist 0) (wd (2 ^ 32))

theorem test_hyp_pair : pr.entryFor 0xB = true ∧ pr.pairRefused ((pr.reqEntry.w.drop 3).take 18) ⟨1, 1, false, 0⟩ = false ∧
    pr.pairRefused ((pr.reqEntry.w.drop 3).take 18) ⟨2, 1, false, 0⟩ = true ∧ pr.modes.trans = none := by decide +kernel
theorem test_pair : (aft (execPair ⟨1, 1, false, 0⟩ pr)).role = 1 ∧ (aft (execPair ⟨1, 1, false, 0⟩ pr)).reg (offPair 6) = 7 ∧
    answered (execPair ⟨2, 1, false, 0⟩ pr) = (0xB, 4) := by decide +kernel
theorem test_confirm : (rq (4 + 32) 0x11 none []).entryFor 0x11 = true ∧ (rq (4 + 32) 0x11 none []).mode = 4 ∧
    answered (execConfirm (rq (4 + 32) 0x11 none [])) = (0x11, 0) ∧ answered (execConfirm (rq 4 0x11 none [])) = (0x11, 1) := by decide +kernel
theorem test_bad_request : (rq 4 0x12 none []).reqGood = true ∧ (rq 4 0x12 none []).mayTake = true ∧
    (fld ((aft (execModeRequest (rq 4 0x12 none []))).word (Config.hostArea + 0x6000)) 27 20) = 6 := by decide +kernel
theorem test_bad_check : ({ rq 4 2 none [] with mem := (rq 4 2 none []).mem.putWords (Config.hostArea + 0x2005) [1] } : State).reqGood = false ∧
    answered (execModeRequest { rq 4 2 none [] with mem := (rq 4 2 none []).mem.putWords (Config.hostArea + 0x2005) [1] }) = (2, 6) := by
  decide +kernel

theorem test_hyp_buffer : (rq 2 0xE (some 3) []).reqEntry.buf = some 3 ∧ (rq 2 0xE (some 3) []).bufDevice 3 = true ∧
    (rq 2 0xE (some 3) []).bufPoisoned 3 = false ∧ (rq 2 0xE (some 3) []).entryFor 0xE = true ∧ (rq 4 4 (some 3) []).entryFor 4 = true ∧
    (rq 3 0xA (some 3) []).entryFor 0xA = true ∧ (rq 2 0xF (some 3) []).entryFor 0xF = true ∧ (rq 2 0xE (some 3) []).modes.trans = none ∧
    (rq 3 0xA (some 3) []).brimState ≠ 2 := by decide +kernel
/-- A safety request, and the Brim cycle that takes its block. -/
def mailed (s : State) : Host.Outcome State Fault Refusal := execBrimCycleStart 0 [] (aft (execSafety s))
theorem test_safety_bad_block : answered (mailed (rq 3 0xA (some 3) [])) = (0xA, 4) ∧
    answered (mailed (rq 4 0xA (some 3) [])) = (0xA, 1) := by decide +kernel
theorem test_update_bad_header : (rq 2 0xF (some 3) []).headerCause (((rq 2 0xF (some 3) []).bufWords 3).take 256) ≠ 0 ∧
    (aft (execUpdate (rq 2 0xF (some 3) []))).store = (rq 2 0xF (some 3) []).store := by decide +kernel

/-- The safety block of BLOCK whose LOAD code the front panel shows. -/
def sf (ws : List Word) : State :=
  let s := rq 3 0xA (some 3) []
  { s.setRfld (offBrim 0) 15 0 (blockCrc ws) with
    mem := (s.mem.putWords (bufDesc 3) [wd (2 ^ 35 + 2 ^ 34), 0, 0x10000, 70000, wd ws.length]).putWords (s.bufAddr 3) ws }

theorem test_journal_dump : (rq 2 6 (some 3) [0]).entryFor 6 = true ∧ (rq 2 6 (some 3) [0]).bufCap 3 = 70000 := by decide +kernel
theorem test_journal_clear : (rq 2 6 none [1]).entryFor 6 = true ∧ answered (execJournalClear (rq 2 6 none [1])) = (6, 0) := by decide +kernel
theorem test_evr_read : (rq 2 9 (some 3) [1, 0, 2]).entryFor 9 = true ∧
    ((rq 2 9 (some 3) [1, 0, 2]).reqEntry.word 5).toNat * (evrWords + 1) ≤ (rq 2 9 (some 3) [1, 0, 2]).bufCap 3 ∧
    answered (execEvrRead (rq 2 9 (some 3) [1, 0, 0])) = (9, 0) := by decide +kernel
theorem test_evr_snapshot : (aft (execEvrSnapshot (rq 2 9 none [0]))).evr.request = true ∧ (rq 2 9 none [0]).entryFor 9 = true := by decide +kernel

/-- A table of one declaration in buffer 3. -/
def ht : State :=
  let s := rq 2 7 (some 3) [1]
  { s with mem := s.mem.putWords (s.bufAddr 3) [wd (2 ^ 35 + 2 ^ 32 + 5), wd (2 ^ 16), 0, 0] }

theorem test_history_table : ht.entryFor 7 = true ∧ ht.bufPoisoned 3 = false ∧ ht.wordClean 65 sigBase = true ∧
    answered (execHistoryTable ht) = (7, 0) ∧ (aft (execHistoryTable ht)).sigWord 0 0 = wd (2 ^ 35 + 2 ^ 32 + 5) := by decide +kernel
theorem test_history_take : (rq 2 7 none [0, 1]).entryFor 7 = true ∧
    (aft (execHistoryTake { rq 2 7 none [0, 1] with hist := { resident := [8, 16] } })).hist.resident = [16] := by decide +kernel
theorem test_trace : (rq 2 8 none [1, 5]).entryFor 8 = true ∧
    (aft (execTrace ((rq 2 8 none [1, 5]).setReg (offTrwr 1) 9))).reg (offTrrd 1) = 5 ∧
    ((rq 2 8 none [1, 5]).setReg (offTrwr 1) 9).entryFor 8 = true := by decide +kernel
theorem test_mbxrecv : (rq 4 0xD none [3, 1]).entryFor 0xD = true ∧ mbxModes 4 = true ∧
    (aft (execMbxrecv (rq 4 0xD none [3, 1]))).mbxBufs = [3] := by decide +kernel
theorem test_bufcfg : (rq 2 0x10 none [5, 1, 0x9000, 0x800]).entryFor 0x10 = true ∧
    (aft (execBufcfg (rq 2 0x10 none [5, 1, 0x9000, 0x800]))).bufConf 5 = true ∧
    (∀ i < 1024, i ≠ 3 → (rq 2 0x10 none [5, 1, 0x9000, 0x800]).bufConf i = false) := by decide +kernel

/-- A ring of segment 3 in mode 1 with two stations, cycle 250 us, layout 5, mailbox size 1,000. -/
def rg : RingCfg :=
  { w := [wd (2 ^ 34 + 3 * 2 ^ 28 + 2 * 2 ^ 19 + 12500), wd (5 * 2 ^ 20 + 24 * 2 ^ 5), wd (1000 * 2 ^ 25 + 2 ^ 22), 100, 0, 0x1000000, 0, 0, 0]
    stations := [(769, 0, 12), (770, 12, 12)], routes := [0, 0, 0, wd (2 ^ 35 + 2 ^ 32)], openAt := 3000, loopOpen := 3500, applyOff := 3000, close := 12290 }

/-- A message of 4 words for station 769 of ring 1. -/
def mb : State :=
  let s := rq 4 0xC (some 3) [wd (2 ^ 14 + 769)]
  s.setRing 1 { s.ring 1 with cfg := some rg }

/-- The same message for segment 9, to which no route leads. -/
def mbFar : State :=
  let s := rq 4 0xC (some 3) [wd (2 ^ 14 + 9 * 256 + 1)]
  s.setRing 1 { s.ring 1 with cfg := some rg }
theorem test_mbxsend_no_route : mbFar.entryFor 0xC = true ∧ mbFar.routeOf (9 * 256 + 1) = none ∧
    Tab.get 0 ((aft (execMbxsend mbFar)).stream (strMbx 1)).dropped 4 = 1 := by decide +kernel
theorem test_mbxsend : mb.entryFor 0xC = true ∧ rg.mode ≠ 0 ∧ 4 * (mb.bufW 3 4).toNat + 12 ≤ rg.mbxmax ∧ (mb.posOf 1 769).isSome = true ∧
    mb.bufPoisoned 3 = false ∧ ((aft (execMbxsend mb)).ring 1).msgs.map (·.src) = [768] := by decide +kernel

/-- A safety block without axes. -/
def blk : List Word := [wd (2 ^ 28 + 2 ^ 20), 100] ++ List.replicate 270 0

theorem test_safety_block : (sf blk).entryFor 0xA = true ∧ blockOk blk = true ∧ blockCrc blk ≠ 0 ∧
    blockCrc blk = (sf blk).rfld (offBrim 0) 15 0 ∧ (aft (mailed (sf blk))).brim.block = blk ∧
    ((aft (execSafety (sf blk))).brim.mailbox.map BrimMail.buffer) = some 3 ∧ (aft (execSafety (sf blk))).brim.due = false := by decide +kernel

/-! ### Host accesses (R553 - R562, R565, R567, R570) -/

/-- A module in RUN that the host serves, with buffer 3 in the host's hands, 4 words in it, and the check crc. -/
def gv (crc : Nat) : State :=
  let s := { mod 4 with host := { ready := true } }
  let s := { s with mem := s.mem.putWords (bufDesc 3) [wd (2 ^ 34), 7, 0x10000, 40, 4, wd crc] }
  { s with mem := s.mem.putWords (s.bufAddr 3) [5, 6, 7, 8] }

theorem test_reqpi : (aft (execHostReqpiWrite 256 (gv 0))).host.reqpi = 256 ∧ (aft (execHostReqpiWrite 257 (gv 0))).host.baddb = 1 := by
  decide +kernel
theorem test_rspci : (aft (execHostRspciWrite 0 (gv 0))).host.rspci = 0 ∧ (aft (execHostRspciWrite 1 (gv 0))).host.baddb = 1 := by decide +kernel
theorem test_hostwin : Tab.get 32 (aft (execHostWinWrite 2 10224 (gv 0))).host.win 3 = 10224 ∧
    Tab.get 32 (aft (execHostWinWrite 2 10225 (gv 0))).host.win 3 = 32 := by decide +kernel
theorem test_counters_read : (aft (execHostCountersRead true { gv 0 with host := { ready := true, wrdrop := 5 } })).host.wrdrop = 0 := by
  decide +kernel
theorem test_pcie_reset : (aft (execPcieReset (gv 0))).host = { ready := true } := by decide +kernel
theorem test_give : (gv 0).mode = 4 ∧ (gv (crc32cWords [5, 6, 7, 8])).bufPoisoned 3 = false ∧
    (aft (execGive (wd (3 + 7 * 2 ^ 10)) (gv (crc32cWords [5, 6, 7, 8])))).bufDevice 3 = true := by decide +kernel
theorem test_give_bad : fld ((gv 0).bufW 3 5) 31 0 ≠ crc32cWords ((gv 0).bufWords 3) ∧
    (aft (execGive (wd (3 + 7 * 2 ^ 10)) (gv 0))).bufW 3 0 = wd (2 ^ 34 + 2 ^ 33 + 6) ∧
    (aft (execGive (wd (3 + 6 * 2 ^ 10)) (gv 0))).host.baddb = 1 := by decide +kernel

/-- Byte offset in BAR2 of word 0x1_0003 of the host area. -/
def bo : BitVec 30 := 0x80018

theorem test_hyp_window : (gv 0).spine.waiting = [] ∧ (gv 0).hostMayWrite (Config.hostArea + bo.toNat / 8) = true ∧
    (rq 4 4 (some 3) []).hostMayWrite (Config.hostArea + bo.toNat / 8) = false ∧ (targetOf ((gv 0).windowWord 0x80000)).isSome = true := by
  decide +kernel
theorem test_window_write : (aft (execHostWindowWrite bo [⟨0x123456789ABCDEF0, 255⟩] false (gv 0))).word ((gv 0).windowWord bo.toNat) = 0x89ABCDEF0 ∧
    (aft (execHostWindowWrite bo [⟨1, 255⟩] false (rq 4 4 (some 3) []))).host.wrdrop = 1 := by decide +kernel
theorem test_not_ready : aft (execHostWindowWrite bo [⟨1, 255⟩] false { gv 0 with host := {} }) = { gv 0 with host := {} } ∧
    (aft (execHostWindowRead bo { gv 0 with host := {} })).outbox = [Msg.completion (List.replicate 8 0) false] := by decide +kernel
theorem test_window_read : (aft (execHostWindowRead 0x80000 (gv 0))).outbox.length = 1 := by decide +kernel

/-! ### Register writes (R17, R43, R88, R175, R397 - R466, R615) -/

/-- The Crown's pair 1 writes. -/
def C1 : CoreId := .crown1
/-- The module in mode m with no order in this cell clock. -/
def rw (m : Nat) : State := { mod m with cores := [(65, {}), (64, {})] }
/-- A meaning leaves word w in register o and changes no other register. -/
def one (out : Host.Outcome State Fault Refusal) (s : State) (o : Nat) (w : Word) : Bool :=
  let u := aft out
  u.reg o = w && Tab.erase u.regs o = Tab.erase s.regs o

theorem test_blevel : one (execSysBlevelWrite C1 0x100 (rw 2)) (rw 2) offBlevel (setFld ((rw 2).reg offBlevel) 15 8 1) = true ∧
    fld (0x100 : Word) 15 8 ≤ Config.native ∧ fld ((aft (execSysBlevelWrite C1 0x100 (rw 4))).core 65).errc 15 8 = 3 ∧
    fld ((aft (execSysBlevelWrite C1 0 (rw 2))).core 65).errc 15 8 = 4 := by
  refine ⟨by decide +kernel, ?_, by decide +kernel, by decide +kernel⟩
  have : fld (0x100 : Word) 15 8 = 1 := by decide
  rw [this]; exact Nat.le_add_left 1 _
theorem test_time_inc : one (execTimeIncWrite C1 5 (rw 4)) (rw 4) offTimeInc 0x27FE00000 = true ∧
    fld ((aft (execTimeIncWrite C1 5 ((rw 4).setReg offTimeStat 2))).core 65).errc 15 8 = 3 ∧ (rw 4).rfld offTimeStat 1 0 < 2 := by decide +kernel
theorem test_trrd : one (execTrrdWrite C1 2 3 ((rw 4).setReg (offTrwr 2) 3)) ((rw 4).setReg (offTrwr 2) 3) (offTrrd 2) 3 = true ∧
    aft (execTrrdWrite C1 2 3 (rw 4)) = rw 4 := by decide +kernel
theorem test_hist_take : (aft (execHistTakeWrite C1 1 { rw 4 with hist := { resident := [8, 16] } })).hist.resident = [16] := by decide +kernel
theorem test_hist_ctrl : (aft (execHistCtrlWrite C1 (wd (2 ^ 34 + 7)) (rw 2))).reg (offHist 0) = wd (2 ^ 34 + 10) := by decide +kernel
theorem test_ring_claim : one (execRingClaimWrite C1 0xFFF (rw 2)) (rw 2) (offClaim 0) 0x1FF = true ∧
    fld ((aft (execRingClaimWrite C1 1 (rw 4))).core 65).errc 15 8 = 3 := by decide +kernel
theorem test_rstreq : one (execBrimRstreqWrite C1 5 (rw 4)) (rw 4) (offBrim 5) (wd (2 ^ 35 + 5)) = true ∧
    aft (execBrimRstreqWrite .crown0 5 (rw 4)) = rw 4 := by decide +kernel
theorem test_snap : (aft (execEvrSnapGo C1 1 (rw 4))).evr.request = true ∧ aft (execEvrSnapGo C1 2 (rw 4)) = rw 4 := by decide +kernel
theorem test_upd_confirm : (aft (execUpdConfirmGo C1 1 (rw (4 + 32)))).reg offSysMode = 4 ∧
    aft (execUpdConfirmGo .crown0 1 (rw (4 + 32))) = rw (4 + 32) := by decide +kernel
theorem test_upd_win : one (execUpdWinWrite C1 5 (rw 4)) (rw 4) (offUpd 1) 10 = true := by decide +kernel
theorem test_adc_cal : bit ((aft (execAdcCalGo C1 (wd (2 ^ 35)) (rw 2))).reg offAdcCal) 34 = true ∧
    fld ((aft (execAdcCalGo C1 (wd (2 ^ 35)) (rw 4))).core 65).errc 15 8 = 3 := by decide +kernel
theorem test_rtask : one (execJrnlRtaskWrite C1 (wd (2 ^ 35 + 5)) (rw 4)) (rw 4) (offJrnl 2) (wd (2 ^ 35 + 5)) = true ∧
    (targetOfWord (wd (fld (0x7FF : Word) 10 0))).isSome = false ∧
    fld ((aft (execJrnlRtaskWrite C1 0x7FF (rw 4))).core 65).errc 15 8 = 4 := by decide +kernel

theorem test_pwm_writes : (rw 4).cellsLive = true ∧ (rw 2).pwmEn 3 = false ∧
    ((aft (execSetpwm C1 3 0x123 (rw 4))).pair 3).dutySh = ((rw 4).pair 3).dutySh.write 20000 0x123 false ∧
    ((aft (execPwmShadowWrite C1 3 1 5 (rw 4))).pair 3).perSh = ((rw 4).pair 3).perSh.write 20000 16 false ∧
    (aft (execPwmEnWrite C1 3 0x12B (rw 4))).reg (offPwm 3 0) = 0x129 := by decide +kernel
theorem test_tripped_clear : one (execTrippedClear C1 2 (wd (2 ^ 34)) ((rw 4).setReg (offTrip 2 2) (wd (2 ^ 34))))
    ((rw 4).setReg (offTrip 2 2) (wd (2 ^ 34))) (offTrip 2 2) 0 = true := by decide +kernel
theorem test_tofault_clear : one (execTofaultClear C1 2 (wd (2 ^ 34)) ((rw 4).setReg (offChop 2 5) (wd (2 ^ 34))))
    ((rw 4).setReg (offChop 2 5) (wd (2 ^ 34))) (offChop 2 5) 0 = true := by decide +kernel
theorem test_chopper_phase : one (execChopperPhaseWrite C1 2 (wd (2 ^ 29 + 5)) (rw 4)) (rw 4) (offChop 2 0) (wd (2 ^ 29 + 5)) = true ∧
    aft (execChopperPhaseWrite C1 2 (wd (3 * 2 ^ 33 + 2 ^ 29)) (rw 4)) = (rw 4).refuse 65 4 := by decide +kernel
theorem test_step_pos : (aft (execStepPosWrite C1 2 55 (rw 4))).reg (offStep 2 2) = 55 ∧
    (aft (execStepPosWrite C1 2 55 (rw 4))).reg (offStep 2 3) = 2 ^ 31 ∧ (∀ j < 8, bit ((rw 4).reg (offChopper j)) 35 = false) ∧
    (aft (execStepPosWrite C1 2 55 ((rw 4).setReg (offStep 2 0) 1))).reg (offStep 2 2) = 0 := by decide +kernel
theorem test_step_run : one (execStepRunWrite C1 2 29 (rw 4)) (rw 4) (offStep 2 0) 29 = true := by decide +kernel
theorem test_encoder_writes : one (execEncoderWrite C1 2 0 (wd (2 ^ 35 + 77)) (rw 4)) (rw 4) (offEnc 2 0) (wd (2 ^ 35)) = true ∧
    one (execEncoderWrite C1 2 1 0xF00000077 (rw 4)) (rw 4) (offEnc 2 1) 0x77 = true := by decide +kernel
theorem test_field_writes : (aft (execFieldInputWrite C1 2 0x77F (rw 4))).reg (offFin 2 0) = 0x77F ∧
    (aft (execFieldInputWrite C1 2 0x77F (rw 4))).field.queue.length = 1 ∧
    (aft (execFieldOutputWrite C1 2 (wd (2 ^ 35)) (rw 4))).reg (offFout 2 0) = wd (2 ^ 35) := by decide +kernel
theorem test_adc_input : one (execAdcInputWrite C1 2 (wd (2 ^ 28 + 77)) (rw 4)) (rw 4) (offAin 2 0) (wd (2 ^ 28 + 77)) = true := by decide +kernel
theorem test_adc_converter : (aft (execAdcConverterWrite C1 2 (wd (2 ^ 35 + 2 ^ 21 + 77)) (rw 4))).reg (offConv 2 0) = wd (2 ^ 35 + 2 ^ 21) := by
  decide +kernel
theorem test_band_slot : one (execBandSlotCellWrite C1 1 7 (wd (2 ^ 33)) (rw 4)) (rw 4) (offSlot 1 7 0) (wd (2 ^ 33)) = true := by decide +kernel
theorem test_register_order : bit ((aft (execStepRunWrite .crown0 2 29 (aft (execStepRunWrite C1 2 28 (rw 4))))).reg (offStep 2 0)) 0 = false := by
  decide +kernel

theorem test_fiford : one (execFifordWrite C1 1 3 ((rw 4).setReg (offCan 1 7) 3)) ((rw 4).setReg (offCan 1 7) 3) (offCan 1 8) 3 = true := by
  decide +kernel
theorem test_req : ((aft (execReq C1 1 3 (wd (2 ^ 35)) ((rw 4).setReg (offBox 1 3 1) (wd (2 ^ 32))))).box 1 3) = { st := 1 } ∧
    ((aft (execReq C1 1 3 (wd (2 ^ 35)) ((rw 4).setReg (offBox 1 3 1) (wd (2 ^ 33))))).box 1 3).result = 0x0A := by decide +kernel
theorem test_cancel : ((aft (execCancel C1 1 3 (wd (2 ^ 34)) ((rw 4).setBox 1 3 { st := 1 }))).box 1 3).result = 3 := by decide +kernel
theorem test_tsen : (aft (execTsenWrite C1 1 (wd (2 ^ 35 + 7)) (rw 4))).reg (offCan 1 9) = wd (2 ^ 35 + 7) := by decide +kernel
theorem test_coord_writes : coordDescOk (wd (5 * 2 ^ 32)) 0 = true ∧ coordDescOk (wd (5 * 2 ^ 32)) 7 = true ∧ (rw 4).cueOn 3 = false ∧
    (aft (execCoordDescriptorWrite C1 3 0 (wd (5 * 2 ^ 32)) (rw 4))).reg (offCoord 3 0) = wd (5 * 2 ^ 32) ∧
    coordDescOk (wd (6 * 2 ^ 32)) 0 = false := by decide +kernel
theorem test_virt : ((aft (execVirtValueWrite C1 3 true 7 ((rw 4).setReg (offCoord 3 0) (wd (5 * 2 ^ 32))))).coord 3).value = 7 * 2 ^ 36 := by
  decide +kernel

theorem test_reads_clear : (aft (execPwmCountersRead C1 3 3 ((rw 4).setReg (offPwm 3 11) 5))).g 65 3 = 5 ∧
    (aft (execPwmCountersRead C1 3 3 ((rw 4).setReg (offPwm 3 11) 5))).reg (offPwm 3 11) = 0 ∧
    (aft (execCorrmaxRead C1 3 3 { rw 4 with coords := [(3, { corrmax := 5 })] })).g 65 3 = 5 := by decide +kernel
theorem test_reads_clear_more : (aft (execFieldCountersRead C1 3 .badpkt ((rw 4).setReg offFieldStat 0x40007))).reg offFieldStat = 0x40000 ∧
    (aft (execEncoderQerrRead C1 3 1 ((rw 4).setReg (offEnc 1 5) 0x40007))).reg (offEnc 1 5) = 0x40000 ∧
    (aft (execLawLoadRead C1 3 1 ((rw 4).setReg (offLawLoad 1) 9))).g 65 3 = 9 ∧
    (aft (execAdcStatsRead C1 3 1 ((rw 4).setReg (offConv 1 6) 9))).reg (offConv 1 6) = 0 := by decide +kernel
theorem test_reads_clear_rest : (aft (execRingCounterRead C1 3 1 true ((rw 4).setReg (offRing 1 5) 9))).reg (offRing 1 5) = 0 ∧
    (aft (execRingFramesRead C1 3 1 ((rw 4).setReg (offRingFault 1 1) 9))).g 65 3 = 9 ∧
    (aft (execPairStretchRead C1 3 ((rw 4).setReg (offPair 3) 9))).g 65 3 = 9 ∧
    (aft (execStepCountersRead C1 3 1 ((rw 4).setReg (offStep 1 4) 9))).g 65 3 = 9 ∧
    (aft (execCaptureCountersRead C1 3 1 true ((rw 4).setReg (offCap 1 3) 9))).g 65 3 = 9 ∧
    (aft (execCanCountersRead C1 3 1 2 ((rw 4).setReg (offCan 1 11) 9))).g 65 3 = 9 := by decide +kernel

/-! ### Resets, hold-up and modes (R208, R571 - R576) -/

/-- A module in mode m, 5 ms after reset, with a lane, a cue and a task. -/
def mo (m : Nat) : State :=
  { mod m with
    now := 5 * tMs + 3, cores := [(65, {}), (64, {})], lanes := [(3, { enabled := true })], cues := [(2, { st := .armed })]
    tasks := [(3, { st := .idle })] }

theorem test_hyp_reset : (mo 4).evr.slots = [] ∧ bit ((mo 4).reg offSysMode) 5 = false ∧ (mo 4).store.recover = false ∧
    (mo 4).store.bootFails < 3 ∧ (mo 4).mode ≠ 0 ∧ (mo 4).modes.inReset = false ∧ (mo 4).modes.holdAt = none ∧
    keptReg true offSysMode = false ∧ keptReg false (offStep 3 0) = false := by decide +kernel
theorem test_power_on : (aft (execPowerOnReset (mo 4))).reg offSysMode = 1 ∧ (aft (execPowerOnReset (mo 4))).lanes = [] := by decide +kernel
/-- The pin is low. -/
def mr : State := aft (execResetPin true false (mo 4))
theorem test_reset_pin : mr.modes.inReset = true ∧ mr.reg offSysMode = 0x401 ∧ mr.evr.slots = [] ∧ mr.modes.holdAt = none ∧
    mr.rfld offSysMode 11 8 ≠ 0 ∧ mr.store.recover = false := by decide +kernel
theorem test_reset_released : (aft (execResetPin false false mr)).reg offSysMode = 0x1401 ∧ (aft (execResetPin false true mr)).mode = 0 := by
  decide +kernel
/-- Hold-up has begun. -/
def mh : State := aft (execHoldupBegin .input12V (mo 4))
theorem test_holdup : mh.holdup = true ∧ mh.store.restart.isSome = true ∧ mh.modes.holdAt.isSome = true ∧ (aft (execResetPin true false mh)).modes.inReset = false ∧
    (aft (execHoldupBegin .input12V mh)).modes = mh.modes := by decide +kernel
/-- RESET_N low since hold-up: the power-on reset waits for it (R605). -/
def mp : State := aft (execPowerOnReset { mod 1 with modes := { inReset := true, holdAt := some 0, pinLow := true } })
theorem test_por_waits : mp.modes.pinLow = true ∧ mp.modes.inReset = true ∧ mp.mode = 1 ∧
    (aft (execResetPin false false mp)).modes.inReset = false := by decide +kernel
theorem test_holdup_end : (aft (execHoldupEnd mh)).modes.inReset = true ∧ (aft (execHoldupEnd mh)).mode = 1 := by decide +kernel
theorem test_clock_loss : ((aft (execCellClockLoss (mo 4))).pair 5).driven = false := by decide +kernel

/-- On the way to IDLE. -/
def mi : State := { mo 4 with modes := { trans := some (2, 3) } }
theorem test_transition : mi.stopsDone = true ∧ mi.holdup = false ∧ mi.brim.wantSafe = false ∧
    (aft (execModeTransitionComplete mi)).reg offSysMode = 0x3402 ∧ ((aft (execModeTransitionComplete mi)).lane 3).enabled = false := by
  decide +kernel
theorem test_transition_waits : ({ mi with tasks := [(3, { st := .running, stopping := true })] } : State).stopsDone = false ∧
    aft (execModeTransitionComplete { mi with tasks := [(3, { st := .running, stopping := true })] }) =
      { mi with tasks := [(3, { st := .running, stopping := true })] } := by decide +kernel
theorem test_boot : (aft (execModeTransitionComplete (mod 1))).calAt = some 20000 ∧
    (aft (execModeTransitionComplete ((mod 1).setReg offAdcCal (wd (2 ^ 33))))).mode = 2 := by decide +kernel

/-! ### Census, line memory and spine (R27 - R42, R64 - R75) -/

/-- A served module whose census is due, with n items of stream 5 produced and resident. -/
def ce (n : Nat) : State := { mo 4 with host := { ready := true }, census := { streams := [(5, { produced := n, resident := 1 })] } }
theorem test_census_instant : (ce 1).censusRuns = true ∧ (ce 1).censusDue = true ∧ (ce 1).role = 0 ∧ ({ mod 4 with census := { lastMs := 1 } } : State).censusDue = false ∧
    (mod 4).extraDue = false ∧ (aft (execCensusInstant (ce 1))).census.lastMs = 6 := by decide +kernel
theorem test_census_good : (((aft (execCensusInstant (ce 1))).census.sample.map (fun x => x.failure))) = some none ∧
    (aft (execCensusCheck (aft (execCensusInstant (ce 1))))).reg offCensusSeq = 1 := by decide +kernel
theorem test_census_bad : (((aft (execCensusInstant (ce 2))).census.sample.map (fun x => x.failure.isSome))) = some true := by decide +kernel
theorem test_lockstep : bit ((mo 4).reg offCensusStat) 2 = false ∧ (aft (execCrownLockstepDifference (mo 4))).rfld offCensusStat 7 4 = 5 := by
  decide +kernel

/-- Line 0 of DRAM 0 holds n symbols in error, or its tag is wrong. -/
def me (n : Nat) (t : Bool) : State :=
  { ce 1 with mem := { (ce 1).mem with errs := [(Config.dramBase / 8, { symbols := n, tagWrong := t })] } }
theorem test_decode : (me 2 false).decode (Config.dramBase / 8) = (me 2 false).incReg offMemCorr 1 ∧
    ((me 0 true).decode (Config.dramBase / 8)).poisoned Config.dramBase = true ∧
    ((me 0 false).lineMeta (Config.dramBase / 8)).poison = false := by decide +kernel
theorem test_decode_retires : ((me 3 false).decode (Config.dramBase / 8)).mem.remap ≠ [] := by decide +kernel
theorem test_scrub : memLine (memNo .dram0) 0 = Config.dramBase / 8 ∧
    (aft (execScrubVisit .dram0 (me 2 false))).mem.errs = [] ∧ (aft (execScrubVisit .dram0 (me 2 false))).mem.scrub = [(memNo .dram0, 1)] := by
  decide +kernel

/-- A full-line write waits at quadrant 0. -/
def sp : State := ((mod 4).issue (SpineReq.mk 0 0 2 0 0 (Config.quadBase / 8) .write 255 [1, 2, 3, 4, 5, 6, 7, 8] false 0)).2
/-- A read waits there. -/
def sr : State := ((mod 4).issue (SpineReq.mk 0 0 2 0 0 (Config.quadBase / 8) .read 0 [] false 0)).2
theorem test_hyp_spine : (sp.spine.next (memNo (.quad 0))).map (fun r => r.data.length) = some 8 ∧
    (sr.spine.next (memNo (.quad 0))).map (fun r => r.kind) = some .read ∧ (mod 4).spine.next 0 = none ∧
    sp.spine.waiting.any (fun r => r.tag = (0 : Fin 512).val) = true := by decide +kernel
theorem test_spine_write : (aft (execSpineTargetService (.quad 0) true sp)).lineWords (Config.quadBase / 8) = [1, 2, 3, 4, 5, 6, 7, 8] := by
  decide +kernel
theorem test_spine_read : (aft (execSpineTargetService (.quad 0) true sr)).mem = sr.mem := by decide +kernel
theorem test_spine_done : ((aft (execSpineTargetService (.quad 0) true sp)).spine.acked.find? (fun a => a.tag = (0 : Fin 512).val)).isSome = true ∧
    (aft (execTransactionComplete 0 (aft (execSpineTargetService (.quad 0) true sp)))).spine.acked = [] := by decide +kernel
theorem test_spine_bad_beat : (aft (execCommandBeatCrcFail 0 sp)).reg offSpineCrcerr = 1 := by decide +kernel
theorem test_credit : 1 ≤ (Tab.get {} sp.spine.credits (loopNo 0 0 2)).occupied ∧
    (Tab.get {} (aft (execCreditReturn 0 false 2 sp)).spine.credits (loopNo 0 0 2)).occupied = 0 := by decide +kernel

/-! ### Faults, ticks, dispatch and the exchange (R121, R141 - R146, R198 - R214, R225 - R230) -/

/-- Task 3 runs on tile 0 with fault slot 0x100_0200; its error task 0 is an IDLE EVENT task. -/
def fa : State :=
  let s := tile 4 [(1, 1)] { evt with desc := [wd (2 ^ 34 + 4 * 2 ^ 10), 0, 0, 0, 0, 0x1000100, 0x1000200] }
  { s with tasks := (0, { st := .idle, desc := evt.desc }) :: s.tasks }
theorem test_hyp_fault : fa.outstanding 0 = 0 ∧ fa.exch.phase = .none ∧ fa.mode = 4 ∧ fa.twinOf 3 = none ∧ fa.errTaskOf 3 = 0 ∧
    (fa.task 3).slot = 0x1000200 ∧ (fa.task 0).queue.length < (fa.task 0).qdepth ∧ (fa.task 3).stopping = false := by decide +kernel
theorem test_fault : ((fa.takeFault 0 0x0C 5 6).task 0).queue = [⟨3, 0x0C⟩] ∧ (fa.takeFault 0 0x0C 5 6).word 0x1000205 = 5 := by decide +kernel

/-- A tick is due; task 3 is t. -/
def tk (t : Task) : State := { mod 4 with now := 5 * tUs, cc := 20000, sched := { tick := 4 }, tasks := [(3, t)] }
/-- A task of WDOG 1 us that was granted at time 0. -/
def wdg (st : TState) : Task := { st := st, scanning := true, desc := [0, 0, 0, 0, 0, 0, 0, 1] }
theorem test_hyp_tick : (tk {}).tickDue = true ∧ (tk {}).sched.stations = [] ∧ (tk {}).modes.restart = 0 ∧ (tk {}).modes.resume = 0 ∧
    (tk { st := .idle }).granted 3 = true ∧ (tk {}).wdogOut (wdg .running) = true ∧ (tk {}).wdogOut {} = false ∧
    taskKey (.quad 0 3) = 3 := by decide +kernel
theorem test_tick : ((aft (execSchedulerTick (tk { st := .idle, posted := true, queue := [⟨1, 0⟩] }))).task 3).st = .ready := by decide +kernel
theorem test_wait_deadline : ((aft (execWaitDeadline (.quad 0 3) (tk { st := .delayed, fresh := false, deadline := some 7 }))).task 3).st = .ready ∧
    (aft (execWaitDeadline (.quad 0 3) (tk { st := .delayed, fresh := false, deadline := some (9 * tUs) }))).tasks = (tk { st := .delayed, fresh := false, deadline := some (9 * tUs) }).tasks := by
  decide +kernel
theorem test_cycmin : ((aft (execCycminExpiry (.quad 0 3) (tk { st := .delayed, fresh := true, deadline := some 7 }))).task 3).st = .ready := by
  decide +kernel
theorem test_evwait_timeout : ((aft (execEvwaitTimeout (.quad 0 3) (tk { st := .evwait, timeout := some 7 }))).task 3).evGot = some none := by
  decide +kernel
theorem test_watchdog : ((aft (execScanWatchdogExpiry (.quad 0 3) (tk (wdg .running)))).task 3).wdog = true ∧
    ((aft (execScanWatchdogExpiry (.quad 0 3) (tk (wdg .delayed)))).task 3).st = .faulted := by decide +kernel

/-- Tile 2 waits in TAKE and task 3 is READY. -/
def di (fresh : Bool) : State :=
  { mod 4 with
    cores := [(2, { taking := true })]
    tasks := [(3, { st := .ready, fresh := fresh, saved := !fresh, queue := [⟨9, 0⟩], desc := [wd (2 ^ 34 + 4 * 2 ^ 10), 40, 0, 0, 64, 0x1000100] })] }
theorem test_hyp_dispatch : 2 ∈ (di true).tileOrder 0 ∧ (∀ j ∈ (di true).tileOrder 0, j ≠ 2 → ((di true).core j).taking = false) ∧
    (di true).candidate 2 = some 3 ∧ (di false).candidate 2 = some 3 ∧ ((di true).task 3).kind = 1 ∧
    (di false).mem.errs = [] ∧ ∀ i < 24, (di false).poisoned (((di false).task 3).ctx + i) = false := by decide +kernel
theorem test_dispatch : ((aft (execDispatchRound 0 (di true))).core 2).pc = 40 ∧ ((aft (execDispatchRound 0 (di true))).task 3).start = 9 ∧
    ((aft (execDispatchRound 0 (di false))).task 3).saved = false := by decide +kernel
/-- Poison in the first line of the context area of task 3. -/
def diBad : State := { di false with mem := (di false).mem.putMeta (((di false).task 3).ctx / 8) { poison := true } }
theorem test_dispatch_poison : ((aft (execDispatchRound 0 diBad)).task 3).st = .faulted := by decide +kernel

/-- An exchange of tasks 3 and 4 in a phase. -/
def ex (p : ExPhase) (held : Bool) : State :=
  { mod 5 with tasks := [(3, { st := .idle, held := held })], exch := { phase := p, affected := [3], limitMs := 0, img := [1] }, sched := { tick := 4 } }
theorem test_hyp_exchange : (ex .loading false).modes.trans = none ∧ (ex .loading false).brim.wantSafe = false ∧ (ex .holding true).allHeld = true ∧
    (ex .holding false).allHeld = false ∧ (ex .swapped true).tickDue = true := by decide +kernel
theorem test_hold_start : ((aft (execExchangeHoldStart (ex .loading false))).task 3).held = true := by decide +kernel
theorem test_swap_waits : aft (execSwap (ex .holding false)) = ex .holding false := by decide +kernel
theorem test_exchange_commit : ((aft (execExchangeCommit (ex .swapped true))).task 3).st = .ready ∧ (aft (execExchangeCommit (ex .swapped true))).mode = 4 := by
  decide +kernel
theorem test_exchange_abort : (aft (execExchangeAbort (ex .holding false))).mode = 4 ∧ (aft (execExchangeAbort (ex .holding false))).exch = {} := by
  decide +kernel

/-! ### Cues that fire, their actions, coordinates and lane samples (R86 - R103, R252 - R279) -/

/-- The module in RUN at cell clock 20000, its time now and a clock before. -/
def cf : State := { mod 4 with now := 5 * tMs + 3, prevNow := 5 * tMs }
/-- Cue 2 on coordinate 0, RISE, action 1 with parameter 3, just crossed. -/
def cu2 : Cue := { st := .armed, w0 := wd (2 ^ 29 + 2 ^ 24 + 3), value := 5 * tMs + 2, armedAt := 7, ref := 3, owner := some (.tile 2) }
/-- Coordinate 3 is VIRT and has just stepped from v to w. -/
def vi (v w : Int) (dir : Nat) : State :=
  { cf.setReg (offCoord 3 0) (wd (5 * 2 ^ 32)) with
    coords := [(3, { value := w, prev := v, stepped := true })]
    cues := [(2, { cu2 with w0 := wd (3 * 2 ^ 31 + dir * 2 ^ 29), value := 2 ^ 40, ref := v })] }

theorem test_hyp_cue : cu2.dir = 1 ∧ cf.coordMod 0 = none ∧ ({ cf with cues := [(2, cu2)] } : State).coordBefore 0 7 3 < cu2.value ∧
    cu2.value ≤ ({ cf with cues := [(2, cu2)] } : State).coordNow 0 := by decide +kernel
theorem test_cue_fires : ((aft (execCueFire 2 { cf with cues := [(2, cu2)] })).actions.map (·.code)) = [1] ∧
    ((aft (execCueFire 2 { cf with cues := [(2, cu2)] })).cue 2).fine = 21 := by decide +kernel
theorem test_cue_past : ((aft (execCueFire 2 { cf with cues := [(2, { cu2 with armedAt := 19999, ref := 5 * tMs + 2 })] })).cue 2).past = true := by
  decide +kernel
theorem test_cue_not_crossed : aft (execCueFire 2 { cf with cues := [(2, { cu2 with value := 6 * tMs })] }) =
    { cf with cues := [(2, { cu2 with value := 6 * tMs })] } := by decide +kernel
theorem test_hyp_cue_fall : ((vi (2 ^ 41) 0 2).cue 2).coord = 3 ∧ (vi (2 ^ 41) 0 2).coordMod 3 = none ∧
    ((vi (2 ^ 41) 0 2).cue 2).value < (vi (2 ^ 41) 0 2).coordBefore 3 7 (2 ^ 41) ∧ ((vi (2 ^ 41) 0 2).cue 2).dir = 2 := by decide +kernel
theorem test_cue_fall : ((aft (execCueFire 2 (vi (2 ^ 41) 0 2))).cue 2).st = .fired ∧ ((aft (execCueFire 2 (vi (2 ^ 41) (2 ^ 41) 2))).cue 2).st = .armed := by
  decide +kernel

/-- An action of code c at the head of the queue, of the firing two cell clocks ago. -/
def ac (c p : Nat) : State :=
  { cf with actions := [{ cue := 2, code := c, param := p, src := .tile 2, f := 19998, time := 5, fine := 3, stepped := false }] }
theorem test_conv : ((aft (execConv 2 (ac 1 3))).conv 3).coming = [(20000, false)] ∧ ((aft (execConv 2 (ac 1 3))).cue 2).deferCc = 2 := by
  decide +kernel
theorem test_pwmld : ((aft (execPwmld 2 (ac 2 35))).pair 3).loads = [(20001, some 3)] := by
  decide +kernel
theorem test_outset : (aft (execOutset 2 (ac 3 3))).reg (offFout 3 0) = wd (2 ^ 35) ∧ (aft (execOutclr 2 (ac 4 3))).reg (offFout 3 0) = 0 := by
  decide +kernel
theorem test_captrig : ((aft (execCaptrig 2 { ac 5 3 with caps := [(3, { st := 1 })] })).cap 3).triggers.length = 1 := by decide +kernel
theorem test_cue_post : ((aft (execCuePost 2 { ac 6 3 with tasks := [(3, { st := .idle, desc := evt.desc })] })).task 3).queue = [⟨2, 0⟩] := by
  decide +kernel
theorem test_spgrp_action : ((aft (execSpgrp 2 { ac 7 3 with
    spGroups := [(3, { st := .loaded, members := [(4, 77)] })], lanes := [(4, { enabled := true })] })).lane 4).pendSp.map (·.value) = some 77 := by
  decide +kernel
theorem test_laneen : ((aft (execLaneen 2 { ac 8 4 with lanes := [(4, { configured := true })] })).lane 4).pendEnable = some (true, .tile 2, 20000) := by
  decide +kernel
theorem test_lanedis : ((aft (execLanedis 2 { ac 9 4 with lanes := [(4, { enabled := true })] })).lane 4).pendEnable = some (false, .tile 2, 20000) := by
  decide +kernel
theorem test_stepgo : ((aft (execStepgo 2 (ac 10 4))).stepGen 4).goAt = some 20001 := by decide +kernel
theorem test_latch : (aft (execLatch 2 (ac 11 1))).reg (offLatch 1 0) = 2 := by decide +kernel
theorem test_action_waits : aft (execConv 2 { ac 1 3 with actionsDone := 16 }) = { ac 1 3 with actionsDone := 16 } ∧
    aft (execConv 5 (ac 1 3)) = ac 1 3 := by decide +kernel

/-- Coordinate 3 is an AC supply tracker. -/
def ma : State := cf.setReg (offCoord 3 0) (wd (4 * 2 ^ 32))
theorem test_mains : ma.coordSrc 3 = 4 ∧ ((aft (execMainsLockChange 3 true 50000 7 ma)).coord 3).mHz = 50000 ∧
    ((aft (execMainsLockChange 3 false 50000 7 ma)).coord 3).unlock = true ∧ aft (execMainsLockChange 3 true 1 1 cf) = cf := by decide +kernel

theorem test_ring_update_none : cf.ringUpdate 3 = none ∧ aft (execRingUpdateApply 3 cf) = cf := by decide +kernel

/-- Lane 4 of law L1 on nodes 0 and 1, due since cell clock 19999. -/
def le : Lane := { lane with enabled := true, waits := [19999] }
def ld (l : Lane) : State := { cf with lanes := [(4, l)] }
theorem test_hyp_lane_due : le.configured = true ∧ cellsRun 4 = true ∧ le.dueAt ≠ (ld le).cc + 1 ∧ le.cycle = false ∧ le.law = 1 := by decide +kernel
theorem test_lane_due : ((aft (execLaneDue 4 (ld le))).lane 4).due = some (19999, 0, 0) ∧
    ((aft (execLaneDue 4 (ld { le with due := some (1, 0, 0) }))).lane 4).missed = 1 ∧
    aft (execLaneDue 4 (ld { le with waits := [20001] })) = ld { le with waits := [20001] } := by decide +kernel
theorem test_lane_due_orders : ((aft (execLaneDue 4 (ld { le with enabled := false, pendEnable := some (true, .host, 3) }))).lane 4).enabled = true ∧
    ((aft (execLaneDue 4 (ld { le with pendEnable := some (false, .host, 3) }))).lane 4).enabled = false ∧
    ((aft (execLaneDue 4 (ld { le with enabled := false, pendEnable := some (true, .host, 19999) }))).lane 4).enabled = false := by decide +kernel
/-- The lane's sample is due. -/
def ls : State := aft (execLaneDue 4 (ld le))
theorem test_hyp_lane_sample : ls.sampleTurn 4 = true ∧ (ls.lane 4).prof = none ∧ (ls.lane 4).pendCoef = [] ∧ (ls.lane 4).pendSp = none ∧
    (ls.lane 4).hold = false ∧ fld ((ls.lane 4).w 57) 35 34 = 0 ∧ fld ((ls.lane 4).w 12) 35 32 = 0 ∧ fld ((ls.lane 4).w 62) 35 28 = 0 ∧
    ls.groupPending 4 = false ∧ (ld le).sampleTurn 4 = false := by decide +kernel
theorem test_lane_sample : ((aft (execLaneSample 4 ls)).lane 4).samples = 1 ∧ ls.sampleStart 4 = some 30000 ∧
    ((aft (execLaneSample 4 ls)).lane 4).busy = 30010 ∧ ((aft (execLaneSample 4 ls)).laneEnd 4).lanes != (aft (execLaneSample 4 ls)).lanes ∧ aft (execLaneSample 4 (ld le)) = ld le := by decide +kernel
/-- Inputs of a PI law inside its limits: error 1000, unity coefficients. -/
def pi : LawIn := { ls.lawIn 4 with r := 1000, rateMax := 0 }
theorem test_pi : pi.rateMax = 0 ∧ (law 1 pi).u = 1000 ∧ -2 ^ 35 ≤ pi.outMin ∧ pi.outMax < 2 ^ 35 := by decide +kernel

/-! ### Rings (R329 - R393) -/

/-- The ring's configuration without mailboxes. -/
def rn : RingCfg := { rg with w := [wd (2 ^ 34 + 3 * 2 ^ 28 + 2 * 2 ^ 19 + 12500), wd (5 * 2 ^ 20 + 24 * 2 ^ 5), wd (2 ^ 22), 100, 0, 0x1000000, 0, 0, 0] }
/-- Ring 1 is x. -/
def ri (x : Ring) : State := { cf with cc := 200000, rings := [(1, x)] }
/-- A configuration waits on a ring with both ports. -/
def rw1 : State := ri { waiting := some (rn, 100000), lostA := false, lostB := false }
/-- The ring claims since this cell clock. -/
def rclaim : State := aft (execRingStart 1 rw1)
/-- The same so many cell clocks on. -/
def later (s : State) (n : Nat) : State := { s with cc := s.cc + n }

theorem test_hyp_ring_start : rn.mode ≠ 0 ∧ rw1.ringTx = true ∧ (rw1.ring 1).first = none ∧ (rw1.ring 1).parent = false := by decide +kernel
theorem test_ring_start : rclaim.outbox.length = 2 ∧ (rclaim.ring 1).claim = some { start := 200000, last := 200000, epochMax := 0 } := by decide +kernel
theorem test_claim_repeat : (aft (execClaimRepeat 1 (later rclaim 3200))).outbox.length = 4 ∧ (aft (execClaimRepeat 1 (later rclaim 3199))).outbox.length = 2 := by
  decide +kernel
theorem test_claim_end : ((later rclaim 102400).setReg offTimeStat 1).rfld offTimeStat 1 0 = 1 ∧
    ((aft (execClaimEnd 1 ((later rclaim 102400).setReg offTimeStat 1))).ring 1).epoch = 1 := by
  decide +kernel
/-- A claim frame with a key. -/
def clm (key : Nat) : List Byte := claimFrame rn 7 9 key 5
theorem test_hyp_claim : headGood (clm 0) = true ∧ byteAt (clm 0) 0 = 0x10 ∧ blockGood (oneBlock (clm 0)) 0 = true ∧ headGood (clm (2 ^ 48 - 1)) = true ∧
    blockGood (oneBlock (clm (2 ^ 48 - 1))) 0 = true ∧ rclaim.modes.resume = 0 ∧ rclaim.loseNode = false ∧ rclaim.holdup = false ∧
    rclaim.modes.trans = none ∧ (rclaim.setReg (offClaim 0) 0x100).loseNode = true := by decide +kernel
theorem test_hyp_claim_key : rclaim.claimKey < 2 ^ 48 - 1 ∧ 0 ≤ rclaim.claimKey := by
  have h : rclaim.rfld (offClaim 0) 7 0 = 0 := by decide +kernel
  have := Config.serial.isLt
  unfold State.claimKey
  omega
/-- The ring runs in cycle 77 since cell clock 187,500. -/
def rr : Ring :=
  { cfg := some rn, run := true, lostA := false, lostB := false, start := 187500, cycle := 77, epoch := 8, due := true
    tx := [77, 1, 3, 4, 11, 12, 13, 14, 15, 16, 17, 18, 78, 1, 1, 1, 1, 1, 1, 1, 1, 1, 1, 1], assembled := true }
theorem test_hyp_cycle : (ri rr).ringTx = true ∧ rn.nblk = 1 ∧ ringStationsOk rn = true ∧ rr.start + rn.cyclen ≤ (ri rr).cc ∧
    rr.start + rn.close ≤ (ri rr).cc := by decide +kernel
theorem test_cycle_start : ((aft (execCycleStart 1 (ri rr))).ring 1).cycle = 78 ∧ (aft (execCycleStart 1 (ri rr))).outbox.length = 2 ∧
    aft (execCycleStart 1 (ri { rr with start := 187501 })) = ri { rr with start := 187501 } := by decide +kernel
set_option maxRecDepth 20000 in
theorem test_output_assembly : byteAt ((aft (execOutputAssembly 1 (ri { rr with assembled := false }))).ring 1).tx 0 = 78 ^^^ 0x80 ∧
    aft (execOutputAssembly 1 (ri rr)) = ri rr := by decide +kernel
set_option maxRecDepth 20000 in
theorem test_config_effect : ((aft (execRingConfigEffect 1 (ri { rr with waiting := some (rn, 100) }))).ring 1).waiting = none := by decide +kernel
theorem test_config_waits : ((aft (execRingConfigEffect 1 (ri { rr with waiting := some (rn, 199000) }))).ring 1).waiting = some (rn, 199000) := by
  decide +kernel

/-- The master's own band. -/
def bnd : List Byte := Ring.band rr rn 0
theorem test_hyp_band : headGood bnd = true ∧ byteAt bnd 0 = 1 ∧ byteAt bnd 1 % 4 = 0 ∧ leAt bnd 12 2 = rn.master ∧ leAt bnd 2 2 = 8 ∧
    leAt bnd 4 6 = 77 ∧ bnd.length = 64 + 264 * rn.nblk ∧ (ri rr).peer.portsOff = false := by decide +kernel
/-- It came back at port B. -/
def rb : State := aft (execBandFrameReceived 1 true 5 ⟨bnd, true, 0⟩ (ri rr))
theorem test_band : (rb.ring 1).back = true ∧ ((Tab.get [] (rb.ring 1).rx (rxKey 0 0)).take 4) = [77, 1, 3, 4] := by decide +kernel
theorem test_band_bad : Tab.get false ((aft (execBandFrameReceived 1 true 5 ⟨bnd.set 70 9, true, 0⟩ (ri rr))).ring 1).bad (rxKey 0 0) = true := by
  decide +kernel
/-- Two input cells, of stations 769 and 770. -/
def rb2 : State := (rb.setReg (offSlot 1 5 0) (wd (2 ^ 35 + 769 * 2 ^ 16 + 4))).setReg (offSlot 1 6 0) (wd (2 ^ 35 + 770 * 2 ^ 16 + 4))
theorem test_hyp_window_opening : (rb2.ring 1).opened = 0 ∧ (rb2.ring 1).start + (rb2.ring 1).openNow rn ≤ rb2.cc ∧ rb2.modes.resume = 0 ∧
    rn.stations.length = rn.nodes ∧ ((rb2.ring 1).markCopy rn 1).isSome = true ∧ (rb2.ring 1).markCopy rn 2 = none ∧ rn.mbxmax = 0 := by
  decide +kernel
set_option maxRecDepth 20000 in
theorem test_window_opening : ((aft (execWindowOpening 1 rb2)).station 1 1).marked = true ∧ ((aft (execWindowOpening 1 rb2)).station 1 2).missrun = 1 ∧
    bit ((aft (execWindowOpening 1 rb2)).reg (offSlot 1 6 2)) 35 = true := by decide +kernel
/-- RING coordinate 3 of ring 1's station 769, whose area then holds 11 to 18. -/
def ru : State := rb.setReg (offCoord 3 0) (wd (2 * 2 ^ 32 + 2 ^ 30 + 769 * 2 ^ 16))
theorem test_ring_update : (ru.ringUpdate 3).map (fun x => x.1) = some 0x0E0D0C0B ∧ (ru.reg (offCoord 3 3)).toNat = 0 ∧
    ((aft (execRingUpdateApply 3 ru)).coord 3).pos = 0x0E0D0C0B * 2 ^ 32 := by decide +kernel
theorem test_foreign : (aft (execForeignBand 1 9 (ri rr))).modes.trans = some (8, 8) ∧ epochNewer 8 9 = false ∧ epochNewer 8 7 = true ∧
    aft (execForeignBand 1 7 (ri rr)) = ri rr := by decide +kernel
theorem test_passive : (aft (execBandFrameReceived 1 true 5 ⟨[1, 2], true, 0⟩ (ri { passive := true, lostA := false, lostB := false }))).outbox.length = 1 ∧
    headGood [1, 2] = false := by decide +kernel
theorem test_no_delimiter : aft (execBandFrameReceived 1 true 5 ⟨bnd, false, 0⟩ (ri rr)) = (ri rr).setReg (offRing 1 5) 1 := by decide +kernel
/-- A node of the ring, with the slot of 12 bytes at 0. -/
def nd : Ring :=
  { parent := true, lostA := false, lostB := false, dly := some (0, 0), node := some { addr := 769, layout := some ⟨rn.layout, 0, 12, 0, 1000⟩ } }
/-- The first band that passes it. -/
def ndBand : List Byte := ((aft (execBandFrameReceived 1 false 5 ⟨bnd, true, 0⟩ ((ri nd).setReg offTimeStat 9))).outbox.head?.map (fun m => match m with
  | .band 1 1 b _ => b
  | _ => [])).getD []
set_option maxRecDepth 20000 in
theorem test_node : epochNewer nd.epoch (leAt bnd 2 2) = false ∧ leAt bnd 4 6 + 1 ≠ nd.processed ∧ leAt bnd 10 2 = rn.layout ∧
    ndBand.length = bnd.length ∧ byteAt ndBand 64 = 77 ∧ byteAt ndBand 67 = 8 ∧ 12 ≤ leAt bnd 42 2 := by decide +kernel
/-- Ring 0 runs 100 cell clocks ahead on common numbering. -/
def cm : State :=
  let c : RingCfg := { rn with w := rn.w.set 0 (wd (2 ^ 34 + 3 * 2 ^ 28 + 2 ^ 27 + 2 * 2 ^ 19 + 12500)) }
  (ri { rr with cfg := some c, start := 175000 }).setRing 0 { rr with cfg := some c, start := 187400, cycle := 900 }
theorem test_common : cm.followsRing0 1 = true ∧ ((aft (execCycleStart 1 cm)).ring 1).start = 187500 + 12400 ∧
    ((aft (execCycleStart 1 cm)).ring 1).cycle = 901 := by decide +kernel
theorem test_port_lost : ((aft (execPortLost 1 true (ri rr))).ring 1).lostB = true ∧ ((aft (execPortLost 1 true (ri rr))).ring 1).wantLoop = true ∧
    aft (execBandFrameReceived 1 true 5 ⟨bnd, true, 0⟩ (ri { rr with lostB := true })) = ri { rr with lostB := true } := by decide +kernel
theorem test_port_restored : ((aft (execPortRestored 1 true (ri { rr with lostB := true }))).ring 1).lostB = false ∧
    aft (execPortRestored 1 true { ri rr with peer := { portsOff := true } }) = { ri rr with peer := { portsOff := true } } := by decide +kernel
theorem test_freerun : (aft (execFreerunEntry ((ri { alignLen := 12500 }).setReg offTimeStat 2))).rfld offTimeStat 1 0 = 3 ∧
    aft (execFreerunEntry (ri { alignLen := 12500 })) = ri { alignLen := 12500 } := by decide +kernel

/-! ### The barrier, field points and encoders (R434 - R448) -/

/-- The link is up and output 3 is commanded on. -/
def fi : State := ((mod 4).setReg offFieldStat (wd (2 ^ 35))).setReg (offFout 3 0) (wd (2 ^ 35))
theorem test_hyp_barrier : fi.link = true ∧ fi.supply = 0 ∧ fi.cellsLive = true ∧ fi.packetStart = true ∧ fi.field.inFrom = 0 ∧ fi.recording = false ∧
    supplyNext fi.supply 24000 = fi.supply ∧ (mod 4).link = false ∧ fi.field.goodAt + 2304 ≤ fi.cc := by decide +kernel
theorem test_barrier_out : (aft (execBarrierPacketOut fi)).outbox = [.barrier 8 none (outCrc 8 none)] ∧
    aft (execBarrierPacketOut { fi with field := { outAt := 19900 } }) = { fi with field := { outAt := 19900 } } := by decide +kernel
theorem test_barrier_in : (aft (execBarrierPacketIn ⟨0, true, 24000, 8⟩
      { fi with field := { levels := [(2, true)], edges := [⟨2, true, 100⟩] } })).rfld (offFin 2 1) 33 18 = 1 ∧
    bit ((aft (execBarrierPacketIn ⟨0, true, 24000, 8⟩ fi)).reg (offFout 3 1)) 34 = true := by decide +kernel
theorem test_barrier_bad : Tab.get 0 ((aft (execBarrierPacketIn ⟨1, true, 24000, 8⟩ fi)).stream strBarIn).dropped 2 = 1 ∧
    aft (execBarrierPacketIn ⟨0, true, 24000, 8⟩ (mod 4)) = mod 4 := by decide +kernel
theorem test_barrier_lost : (aft (execBarrierLinkLost fi)).link = false ∧ aft (execBarrierLinkLost (mod 4)) = mod 4 := by decide +kernel
theorem test_barrier_restart : (aft (execBarrierLinkRestart (mod 4))).field.queue.length = 32 ∧ aft (execBarrierLinkRestart fi) = fi := by
  decide +kernel
theorem test_field_edge : (aft (execFieldEdgeAccepted 2 true 5 7 { fi with field := { side := [(2, wd (2 ^ 33))] } })).field.edges = [⟨2, true, 5⟩] ∧
    (aft (execFieldEdgeAccepted 2 true 5 7 { fi with field := { side := [(2, wd (2 ^ 17))] } })).rfld (offFin 2 1) 17 0 = 1 ∧
    aft (execFieldEdgeAccepted 2 false 5 7 fi) = fi := by decide +kernel
theorem test_field_trip : bit ((aft (execFieldOutputTrip 3 { fi with field := { outs := [(3, true)] } })).reg (offFout 3 1)) 33 = true ∧
    aft (execFieldOutputTrip 3 fi) = fi := by decide +kernel

/-- Encoder 2 is enabled, in form m, with Z on the falling edge. -/
def en (m : Nat) : State := (mod 4).setReg (offEnc 2 0) (wd (2 ^ 35 + m * 2 ^ 33 + 2 ^ 31 + 2 ^ 30))
theorem test_encoder_edge : ((aft (execEncoderEdge 2 true true (en 0))).rfld (offEnc 2 5) 17 0) = 1 ∧
    ((aft (execEncoderEdge 2 false false (en 0))).enc 2).coming = [] := by decide +kernel
theorem test_hyp_encoder : bit ((en 0).reg (offEnc 2 0)) 35 = true ∧ fld ((en 1).reg (offEnc 2 0)) 34 33 = 1 ∧
    fld ((en 2).reg (offEnc 2 0)) 34 33 = 2 ∧ ((en 0).enc 2).a = false ∧ ((en 0).enc 2).b = false ∧
    ((en 0).enc 2).tight true true false (en 0).cc = false ∧ ({ aAt := 20001 } : Encoder).tight false false true 20001 = false ∧
    ({ aAt := 20001 } : Encoder).tight true false true 20001 = true := by decide +kernel
theorem test_zlatch : (aft (execZLatch 2 false (en 0))).rfld (offEnc 2 5) 33 18 = 1 ∧ aft (execZLatch 2 true (en 0)) = en 0 := by decide +kernel
theorem test_encoder_loss : bit ((aft (execEncoderLoss 2 (en 0))).reg (offEnc 2 5)) 35 = true ∧
    bit ((aft (execEncoderLossEnd 2 (aft (execEncoderLoss 2 (en 0))))).reg (offEnc 2 5)) 35 = false ∧
    (aft (execEncoderLoss 2 (aft (execEncoderLoss 2 (en 0))))).host.evpi = 1 := by decide +kernel

/-! ### PWM pairs, steps, chopper phases and converters (R305 - R307, R399 - R433) -/

/-- Pair 2 is due, with PAIRGUARD and a shadow of PERIOD and DUTYF. -/
def pw (x : Pwm) : State := { (mod 4).setReg (offPwm 2 0) (wd (1 + 32)) with pwm := [(2, x)] }
/-- Both shadows are written. -/
def px : Pwm := { perSh := { v := 1000, fresh := true }, dutySh := { v := 2 ^ 34, frac := true, fresh := true } }
theorem test_hyp_pwm : (pw px).pwmDue 2 = true ∧ (mod 4).pwmDue 2 = false ∧ (pw px).lanePair 2 = false := by decide +kernel
theorem test_pwm_reload : ((aft (execPwmReload 2 (pw px))).pair 2).duty = 16000 ∧
    ((aft (execPwmReload 2 (pw { px with perSh := { v := 5 } }))).pair 2).held = 1 ∧
    (aft (execPwmReload 2 (pw { px with perSh := { v := 5 }, held := 4 }))).rfld (offPwm 2 11) 17 0 = 1 := by decide +kernel
/-- Half a period of 100 cc is on, the count at n. -/
def po (n : Nat) : State := pw { per := 100, duty := 1600, cnt := n, driven := true, hOn := true }
theorem test_pwm_out : (po 49).pwmOut 2 true 31 = some true ∧ (po 50).pwmOut 2 true 0 = some false ∧ (po 50).pwmOut 2 false 0 = some true ∧
    ((po 50).setRfld (offPwm 2 0) 15 6 1).pwmOut 2 false 31 = some false := by decide +kernel
/-- Trip input 1 is enabled for pair 2 with a filter of 3, which has counted n. -/
def tr (n : Nat) : State := ({ pw { px with driven := true } with trips := [(1, { count := n })] }.setReg (offTrip 1 0) (wd (2 ^ 35 + 2 ^ 17 * 3))).setReg (offTrip 1 1) 4
theorem test_trip : (tr 3).tripBlanked 1 = false ∧ ((aft (execTrip 1 true (tr 3))).pair 2).driven = false ∧
    ((aft (execTrip 1 true (tr 2))).pair 2).driven = true ∧ ((aft (execTrip 1 false (tr 3))).tripIn 1).count = 0 := by
  decide +kernel
theorem test_trip_blanked : ((tr 3).setReg (offTrip 1 0) (wd (2 ^ 35 + 2 ^ 17 * 3 + 2 ^ 33))).tripBlanked 1 = true := by decide +kernel
/-- Compare 1 of pair 2 sends its trigger, which converter 3 takes as a SELECT start. -/
def ct : State := ((pw px).setReg (offPwm 2 7) (wd (2 ^ 34))).setReg (offConv 3 0) (wd (2 ^ 35 + 2 ^ 32 + 9 * 2 ^ 21 + 2 ^ 31))
theorem test_converter_trigger : ct.triggerDue 2 1 = true ∧ ((aft (execConverterTrigger 9 ct)).conv 3).coming = [(20002, true)] ∧
    aft (execConverterTrigger 9 (mod 4)) = mod 4 := by decide +kernel
/-- Step generator 3 is x. -/
def sg (x : StepGen) : State := (mod 4).setStep 3 x
theorem test_step_carry : (aft (execStepCarry 3 (sg { carry := 2 }))).reg (offStep 3 2) = 1 ∧
    ((aft (execStepCarry 3 (sg { carry := -1, pend := some (true, 7) }))).stepGen 3).pend = none ∧
    aft (execStepCarry 3 (sg { carry := 1, pend := some (true, 7) })) = sg { carry := 1, pend := some (true, 7) } ∧
    aft (execStepCarry 3 (mod 4)) = mod 4 := by decide +kernel
theorem test_step_pulse : ((aft (execStepPulseStart 3 (sg { pend := some (true, 20000) }))).stepGen 3).lastDir = true ∧
    aft (execStepPulseStart 3 (sg { pend := some (true, 20001) })) = sg { pend := some (true, 20001) } := by decide +kernel
/-- Chopper phase 3 runs toward TARGET 1000; TONMAX is 5. -/
def chp (x : Chop) : State := (((mod 4).setReg (offChop 3 0) (wd (2 ^ 35 + 5))).setReg (offChop 3 1) 1000).setChop 3 x
theorem test_hyp_chopper : (chp {}).chopRuns 3 = true ∧ (chp {}).chopTarget 3 = 1000 ∧ (chp {}).rfld (offChop 3 2) 11 0 = 0 := by decide +kernel
theorem test_switch_on : ((aft (execChopperSwitchOn 3 900 (chp {}))).chop 3).on = true ∧ aft (execChopperSwitchOn 3 2100 (chp {})) = chp {} := by
  decide +kernel
theorem test_decay : ((aft (execChopperDecay 3 2100 (chp { on := true }))).chop 3).on = false ∧
    aft (execChopperDecay 3 900 (chp { on := true })) = chp { on := true } := by decide +kernel
theorem test_tonmax : (chp { on := true, onAt := 19994 }).rfld (offChop 3 0) 17 0 = 5 ∧ 19994 + 5 < (chp {}).cc ∧
    aft (execTonmaxExpiry 3 (chp { on := true, onAt := 19995 })) = chp { on := true, onAt := 19995 } := by decide +kernel
/-- Converter 3 is on, with its timer of 200 cc and inputs 1 and 2 in its scan list. -/
def ad (x : Conv) : State :=
  ((((mod 4).setReg (offConv 3 0) (wd (2 ^ 35 + 2 ^ 34 + 2 * 2 ^ 9))).setReg (offConv 3 1) 6).setReg (offConv 3 3) 200).setConv 3 x
theorem test_hyp_conv : (ad {}).convOn 3 = true ∧ (mod 4).convOn 3 = false ∧ ({} : Conv).idle = true ∧ ({ busy := some 5 } : Conv).idle = false := by
  decide +kernel
theorem test_adc_timer : ((aft (execAdcTimer 3 (ad {}))).conv 3).coming = [(20002, false)] ∧ aft (execAdcTimer 3 (ad { tenAt := 1 })) = ad { tenAt := 1 } := by
  decide +kernel
theorem test_start_arrival : ((aft (execStartArrival 3 (ad { coming := [(20000, true)] }))).conv 3).line = [(20000, true)] ∧
    (aft (execStartArrival 3 (ad { coming := [(20000, true)], line := List.replicate 8 (30000, false) }))).rfld (offConv 3 6) 35 18 = 1 := by
  decide +kernel
theorem test_delay_line : ((aft (execDelayLineExit 3 (ad { line := [(20000, false)] }))).conv 3).rest = [2] ∧
    ((aft (execDelayLineExit 3 (ad { line := [(20000, true)] }))).conv 3).qptr = 1 ∧
    ((aft (execDelayLineExit 3 (ad { line := [(20000, true)], busy := some 5 }))).conv 3).select = some 20000 ∧
    ((aft (execDelayLineExit 3 (ad { line := [(20000, false)], busy := some 5 }))).conv 3).scan = some 20000 := by decide +kernel
theorem test_converter_free : ((aft (execConverterFree 3 (ad { busy := some 19840, rest := [2] }))).conv 3).busy = some 20000 ∧
    ((aft (execConverterFree 3 (ad { busy := some 19840 }))).conv 3).busy = none ∧
    ((aft (execConverterFree 3 (ad { busy := some 19840, scan := some 19900 }))).conv 3).rest = [2] ∧
    aft (execConverterFree 3 (ad { busy := some 19841 })) = ad { busy := some 19841 } := by decide +kernel
/-- A sample of input 13 waits for its result. -/
def rx (s : Nat) : Conv := { results := [{ sel := 1, s := s, time := 7, epoch := 0, skip := false }] }
theorem test_result : (aft (execResultWrite 3 77 (ad (rx 19832)))).rfld (offAin 13 4) 17 0 = 1 ∧
    aft (execResultWrite 3 77 (ad (rx 19833))) = ad (rx 19833) ∧ aft (execResultWrite 3 77 (ad {})) = ad {} := by decide +kernel
/-- The 256 measurements of a calibration, one of them x. -/
def cal (x : Int × Nat) : List (Int × Nat) := (List.range 256).map (fun i => if i = 17 then x else (3, 2 ^ 32 + 7))
theorem test_calibration : (cal (0, 5)).getD 17 (0, 0) = (0, 5) ∧
    aft (execCalibrationDone (cal (0, 5)) { mod 4 with calAt := some 5 }) = { mod 4 with calAt := some 5 } := by decide +kernel

/-! ### Fieldbus ports (R449 - R467) -/

/-- Port 1 of tile 2 is enabled and not STOPPED, its FIFO at 0x100_0100, with a filter of base identifier 5. -/
def cn : State :=
  let s := (((mod 4).setReg (offCan 1 0) (wd (2 ^ 35))).setReg (offCan 1 6) 0x1000100).setReg (offCan 1 0x200) (wd (2 ^ 35 + 5 * 2 ^ 18))
  { (s.setReg (offCan 1 3) 0).setReg (offCan 1 0x201) 0x1FFC0000 with owners := [(offCan 1 0, 3)], cc := 60000 }
/-- A data frame of base identifier i. -/
def fr (i : Nat) : CanFrame := ⟨false, false, false, false, false, BitVec.ofNat 29 (i * 2 ^ 18), 2, [7, 8]⟩
/-- The runs of a line that shows bits of 400 cc. -/
def runs : Nat → Bool → List Bool → List Nat
  | n, _, [] => [n]
  | n, b, x :: r => if x = b then runs (n + 400) b r else n :: runs 400 x r
/-- A frame as it stands on the bus, acknowledged. -/
def heard (f : CanFrame) : CanHeard := ⟨f, 100, runs 0 false (canBits f ++ [true, false] ++ List.replicate 7 true)⟩
theorem test_hyp_can : cn.canEn 1 = true ∧ cn.canPolicy 1 = 0 ∧ cn.canFcs 1 = 0 ∧ cn.rxErr 1 = 0 ∧ cn.canFilter 1 (fr 5) = some 0 ∧
    cn.canFilter 1 (fr 6) = none ∧ cn.canMem 1 0x1000100 10240 = true ∧ (mod 4).canEn 1 = false ∧ cn.mem.errs = [] ∧
    cn.canOnBus 1 = false ∧ cn.canHears 1 (heard (fr 5)) = true ∧ cn.canHears 1 (heard (fr 6)) = true ∧
    cn.canHears 1 (heard { fr 5 with fdf := true }) = true := by decide +kernel
/-- ISO 11898-1: a stuff bit follows five equal bits; the frame of identifier 5 with bytes 7 and 8 begins so. -/
theorem test_can_bits : (canBits (fr 5)).take 13 = [false, false, false, false, false, true, false, false, false, false, true, false, true] ∧
    stuffBits false true 0 [false, false, false, false, false] = [false, false, false, false, false, true] ∧
    stuffCount 3 = [false, true, false, true] := by decide +kernel
/-- An edge one quantum late lengthens phase segment 1 (R452); one bit that reads otherwise is no valid frame. -/
theorem test_can_sync : (canSamples ⟨10, 32, 8, 8⟩ ⟨5, 12, 4, 4⟩ [400, 410, 400] [0, 810] 0 false [(false, false), (false, false), (false, false)]).map Prod.fst =
      [320, 720, 1130] ∧
    cn.canHears 1 { heard (fr 5) with frame := fr 4 } = false ∧ cn.canHears 1 { heard (fr 5) with sof := 59000 } = false := by decide +kernel
theorem test_can_frame : (aft (execCanFrameValidated 1 (heard (fr 5)) cn)).reg (offCan 1 7) = 1 ∧
    (aft (execCanFrameValidated 1 (heard (fr 5)) cn)).word 0x1000100 = wd (5 * 2 ^ 18) ∧
    Tab.get 0 ((aft (execCanFrameValidated 1 (heard (fr 6)) cn)).stream (strCanRx 1)).dropped 5 = 1 ∧
    (aft (execCanFrameValidated 1 (heard (fr 6)) cn)).outbox = [.canAck 1] ∧
    aft (execCanFrameValidated 1 (heard (fr 5)) (mod 4)) = mod 4 := by
  decide +kernel
theorem test_can_fd_off : (aft (execCanFrameValidated 1 (heard { fr 5 with fdf := true }) cn)).rfld (offCan 1 5) 17 0 = 1 ∧
    (aft (execCanFrameValidated 1 (heard { fr 5 with fdf := true }) cn)).reg (offCan 1 7) = 0 := by decide +kernel
theorem test_can_error : (aft (execCanBusError 1 (.receiveError 2) cn)).rxErr 1 = 1 ∧ (aft (execCanBusError 1 (.receiveErrorDominant 2) cn)).rxErr 1 = 8 ∧
    (aft (execCanBusError 1 (.receiveError 2) cn)).outbox = [.canFlag 1 false] ∧
    (aft (execCanBusError 1 (.receiveError 2) (cn.setRfld (offCan 1 3) 35 34 2))).outbox = [] := by decide +kernel
/-- Mailboxes 3 and 4 are pending; 3 has been chosen or not; p is the policy. -/
def cx (p : Nat) (ch : Option (Nat × Nat)) : State :=
  let s := ((cn.setBox 1 3 { st := 1, data := [1, 2] }).setBox 1 4 { st := 1 }).setReg (offBox 1 3 1) (wd (77 * 2 ^ 18))
  let s := ((s.setReg (offBox 1 4 1) (wd (78 * 2 ^ 18))).setRfld (offCan 1 3) 35 34 p).setRfld offSysMode 3 0 (if p = 1 then 11 else 4)
  s.setCan 1 { s.can 1 with chosen := ch }
theorem test_hyp_can_send : (cx 0 none).canRivals 1 ≠ [] ∧ (cx 1 none).canPolicy 1 = 1 ∧ (cx 0 none).canPolicy 1 = 0 ∧ cn.canRivals 1 = [] ∧
    policyOf (cx 0 none).mode = 0 ∧ policyOf (cx 1 none).mode = 1 ∧ (cx 0 none).canOnBus 1 = false ∧ ((cx 0 none).canFrame 1 3).fdf = false := by
  decide +kernel
theorem test_can_choice : ((((aft (execCanTxChoice 1 (cx 0 none))).can 1).chosen.map Prod.fst)) = some 3 ∧ aft (execCanTxChoice 1 cn) = cn ∧
    -- a new policy takes effect at the choice (R460)
    (aft (execCanTxChoice 1 ((cx 0 none).setRfld offSysMode 3 0 11))).canPolicy 1 = 1 := by
  decide +kernel
theorem test_can_sent : ((aft (execCanTxEnd 1 (.sent []) (cx 0 (some (3, 19990))))).box 1 3).result = 1 ∧
    aft (execCanTxEnd 1 (.sent []) (cx 0 (some (3, 60001)))) = cx 0 (some (3, 60001)) ∧ aft (execCanTxEnd 1 (.sent []) cn) = cn := by decide +kernel
/-- TSOF at the SOF; the arbitration field of 13 bits with one stuff bit is won at the sample point of its last bit (R457, R461). -/
theorem test_can_won : (cx 0 none).wonAfter 1 3 = 13 * 400 + 320 := by decide +kernel
theorem test_can_wins : (((cx 0 (some (3, 60000 - (cx 0 none).wonAfter 1 3))).canClock 1).box 1 3).st = 2 ∧
    (((cx 0 (some (3, 60001 - (cx 0 none).wonAfter 1 3))).canClock 1).box 1 3).st = 1 ∧
    ((cx 0 (some (3, 60000))).canClock 1).reg (offBox 1 3 4) = dlo cn.t72 := by decide +kernel
/-- Port 1 sends an FD frame with bit rate switching from its mailbox 3; its data bits last 80 cc at the reset timings. -/
def cf1 : State := (cx 0 (some (3, 19990))).setReg (offBox 1 3 1) (wd (2 ^ 34 + 2 ^ 33))
/-- RX shows what TX sent after a delay. -/
def echo (delay : Nat) : List Nat :=
  let f := cf1.canFrame 1 3
  let l := (canBits f).zip (canPhases f)
  l.foldl (fun (r : List Nat × Bool × Nat) e =>
    let n := (if e.2.1 then 60 else 320) + (if e.2.2 then 20 else 80)
    if e.1 = r.2.1 then (r.1, r.2.1, r.2.2 + n) else (r.1 ++ [r.2.2], e.1, n)) ([], true, delay) |> fun r => r.1 ++ [r.2.2]
theorem test_can_delay : (cf1.canFrame 1 3).fdf = true ∧ (cf1.canFrame 1 3).brs = true ∧
    ((aft (execCanTxEnd 1 (.sent (echo 30)) cf1)).box 1 3).result = 1 ∧ ((aft (execCanTxEnd 1 (.sent (echo 128)) cf1)).box 1 3).result = 6 ∧
    (aft (execCanTxEnd 1 (.sent (echo 128)) cf1)).rfld (offCan 1 3) 30 28 = 5 ∧
    ((aft (execCanTxEnd 1 (.sent ((echo 30).dropLast ++ [1])) cf1)).box 1 3).result = 6 := by decide +kernel
theorem test_can_lost : ((aft (execCanTxEnd 1 .lostArb (cx 0 (some (3, 19990))))).box 1 3).result = 5 ∧
    ((aft (execCanTxEnd 1 .lostArb (cx 1 (some (3, 19990))))).box 1 3).st = 1 ∧
    ((aft (execCanTxEnd 1 (.error 3 false []) (cx 0 (some (3, 19990))))).box 1 3).result = 7 ∧
    ((aft (execCanTxEnd 1 (.error 2 false []) (cx 1 (some (3, 19990))))).box 1 3).st = 2 := by decide +kernel
theorem test_can_early : ((aft (execCanTxEnd 1 (.errorEarly 2) (cx 0 (some (3, 19990))))).box 1 3).result = 8 ∧
    ((aft (execCanTxEnd 1 (.errorEarly 2) (cx 0 (some (3, 19990))))).stream (strCanTx 1)).produced = 0 := by decide +kernel
/-- A frame on the bus completes before STOPPED takes effect (R460). -/
theorem test_can_stopped : (((cx 1 (some (3, 19990))).canMode 7).box 1 3).st = 1 ∧
    ((aft (execCanTxChoice 1 ((cx 1 (some (3, 60001))).setRfld offSysMode 3 0 7))).box 1 3).result = 9 ∧
    aft (execCanTxChoice 1 ((cx 1 (some (3, 19990))).setRfld offSysMode 3 0 7)) = (cx 1 (some (3, 19990))).setRfld offSysMode 3 0 7 := by
  decide +kernel
theorem test_bus_off : (aft (execBusOffRecovery 1 (cn.setRfld (offCan 1 3) 33 32 2))).canFcs 1 = 0 ∧ aft (execBusOffRecovery 1 cn) = cn := by
  decide +kernel
theorem test_reference : ((aft (execReferenceMessageDue 1 (cn.setReg (offCan 1 9) (wd (2 ^ 35))))).can 1).refPend = true ∧
    aft (execReferenceMessageDue 1 cn) = cn := by decide +kernel

/-! ### Capture units, history and the event recorder (R469 - R502) -/

/-- Unit 2 records input 0: x. -/
def cz (x : Capture) : State := (((mod 4).setReg (offAin 0 3) 60).setCap 2 { x with desc := capD, armedAt := 19900 })
/-- Armed, with the sample before below the level. -/
def cA : Capture := { st := 1, prev := some (40, 4000000), primedRise := true }
theorem test_hyp_capture : ((cz cA).cap 2).native = false ∧ ((cz cA).cap 2).fulln = 0 ∧ ((cz cA).cap 2).tkind = 1 ∧ ((cz cA).cap 2).nch = 1 ∧
    ((cz cA).cap 2).fresh = none ∧ fld (((cz cA).cap 2).w 1) 19 0 = 100 ∧ cellsRun (cz cA).mode = true := by decide +kernel
theorem test_capture_pace : ((aft (execCapturePace 2 (cz cA))).cap 2).triggers.length = 1 ∧ ((aft (execCapturePace 2 (cz cA))).cap 2).samples.length = 1 ∧
    aft (execCapturePace 2 (cz {})) = cz {} := by decide +kernel
/-- One trigger of kind 1 at 5 ns. -/
def cg (st : Nat) : State := cz { st := st, triggers := [{ kind := 1, time := 5 * 2 ^ 16 + 9, target := 0, cc := 0 }] }
theorem test_capture_trigger : nsOf (ofT72 (t72ns 5)) * 2 ^ 16 + 9 = 5 * 2 ^ 16 + 9 ∧ ((aft (execCaptureTrigger 2 1 (t72ns 5) 9 (cg 1))).cap 2).st = 2 ∧
    (aft (execCaptureTrigger 2 1 (t72ns 5) 9 (cg 2))).rfld (offCap 2 2) 17 0 = 1 ∧
    ((aft (execCaptureTrigger 2 1 (t72ns 5) 9 (cg 3))).cap 2).missed = 1 := by decide +kernel
/-- A record of three samples that is to close into buffer 0. -/
def ck : State :=
  let s := cz { st := 2, trig := some ⟨1, 5, 5, 3⟩, index := some 0, samples := (List.range 5).map (fun i => ⟨[5], i, i, i, false, []⟩) }
  { s with mem := s.mem.putWords (bufDesc 0) [wd (2 ^ 35 + 2 ^ 34), 0, 0x9000, 0x1000] }
theorem test_hyp_record : ck.bufDevice 0 = true ∧ fld ((ck.cap 2).w 10) 33 24 = 0 ∧ 0 < fld ((ck.cap 2).w 10) 10 0 ∧
    0 + (ck.cap 2).post ≤ (ck.cap 2).samples.length ∧ (∀ e ∈ ck.caps, e.2.records = []) ∧ Config.hostArea + 0x9000 ≤ ck.bufAddr 0 := by decide +kernel
theorem test_record_close : ((aft (execRecordClose 2 ck)).cap 2).records.length = 1 ∧ (aft (execRecordClose 2 ck)).reg (offCap 2 1) = 1 := by
  decide +kernel
theorem test_record_copy : (aft (execRecordCopyDone 2 (aft (execRecordClose 2 ck)))).bufW 0 0 = wd (2 ^ 34 + 1) ∧ aft (execRecordCopyDone 2 ck) = ck := by
  decide +kernel
/-- ETASK is the arming's, also after the unit has become IDLE (R487). -/
theorem test_record_post : (((aft (execRecordClose 2 { ck with caps := mapTab (fun c => { c with desc := c.desc.set 11 9 }) ck.caps })).cap 2).records.map
    CapRecord.etask) = [9] := by decide +kernel
/-- EITHER: the value that crosses upward primes the way down (R483); a value that was outside leaves no window. -/
theorem test_either : (Capture.detect { desc := [wd (2 ^ 28 + 3 * 2 ^ 26), 0, 0, 0, 0, 0, 50], prev := some (40, 1), primedRise := true } 60 2).2 = (false, true) ∧
    (Capture.detect { desc := [wd (2 ^ 29 + 2 ^ 26), 0, 0, 0, 0, 0, 50, 70], prev := some (40, 1), primedRise := true } 80 2).1 = none := by decide +kernel
theorem test_rearm : ((aft (execCaptureRearm 2 (cz { st := 3 }))).cap 2).st = 1 ∧ aft (execCaptureRearm 2 (cz cA)) = cz cA := by decide +kernel
/-- A third of the way down: truncated (R483). -/
theorem test_cross_down : crossTime 0 1 3 0 2 = 21845 := by decide +kernel
theorem test_bus_drive : (aft (execBusPulseDrive 2 (cz { drive := [(0, 5)] }))).outbox.length = 1 ∧ aft (execBusPulseDrive 2 (cz {})) = cz {} := by
  decide +kernel
theorem test_bus_pulse : ((aft (execTriggerBusPulse 3 (t72ns 5000) 9
      (((mod 4).setCap 2 { desc := [wd (5 * 2 ^ 28 + 3 * 2 ^ 21)], st := 1 }).setReg (offTrigbus 3) (wd (2 ^ 34))))).cap 2).triggers.length = 1 ∧
    aft (execTriggerBusPulse 3 0 9 (mod 4)) = mod 4 := by decide +kernel

/-- Signal 5 is declared on a cell register with PER 10, and has credit n; recording is on. -/
def hs (n : Nat) : State :=
  let s := (mod 4).setReg (offHist 5) (wd (2 ^ 35))
  { s with
    mem := s.mem.putWords (sigBase + 10) [wd (2 ^ 35 + 4 * 2 ^ 32 + offAin 0 3), wd (500 * 2 ^ 16 + 10)]
    hist := { signals := [(5, { credit := n, declared := 19600 })] } }
theorem test_hyp_signal : (hs 20).declared 5 = true ∧ sigTimed ((hs 20).sigWord 5 0) = false ∧ (hs 20).recording = true ∧
    fld ((hs 20).sigWord 5 1) 15 0 = 10 ∧ fld ((hs 20).sigWord 5 0) 34 32 = 4 := by decide +kernel
theorem test_signal : ((aft (execSignalSamplingPeriod 5 (hs 20))).signal 5).credit = 4 ∧ ((aft (execSignalSamplingPeriod 5 (hs 15))).signal 5).overcnt = 1 ∧
    aft (execSignalSamplingPeriod 6 (hs 20)) = hs 20 := by decide +kernel
/-- Its segment, at an age of 100 ms. -/
def hq : State := { aft (execSignalSamplingPeriod 5 (hs 20)) with sched := { tick := 100000 } }
theorem test_segment_age : (aft (execSegmentAgeExpiry 5 hq)).hist.closed.length = 1 ∧
    (aft (execSegmentAgeExpiry 5 (aft (execSignalSamplingPeriod 5 (hs 20))))).hist.closed = [] := by decide +kernel
/-- The segment waits to be written. -/
def hw : State := (aft (execSegmentAgeExpiry 5 hq)).setReg (offHist 0) (wd (2 ^ 32))
theorem test_segment_write : hw.mem.errs = [] ∧ (aft (execSegmentWriteDone hw)).hist.resident = [16] ∧ aft (execSegmentWriteDone (mod 4)) = mod 4 := by
  decide +kernel

/-- A second after power-up. -/
def ev : State := { mod 4 with evr := { powerup := true } }
theorem test_evr_fold : (aft (execEvrFold [some 1000] (mod 4))).reg (offEvr 2) = 1 ∧ (mod 4).modes.holdAt = none ∧
    aft (execEvrFold [] { mod 4 with modes := { holdAt := some 5 } }) = { mod 4 with modes := { holdAt := some 5 } } := by decide +kernel
theorem test_snapshot_write : (aft (execSnapshotWriteDone { mod 4 with evr := { writing := [[5, 300]] } })).evr.slots = [(300, [5, 300])] ∧
    aft (execSnapshotWriteDone (mod 4)) = mod 4 := by decide +kernel

/-! ### Brim (R503 - R525) -/

/-- A block with pair 0 STO and pair 1 SS1 on output 0, pair 3 RESET, output 0 used with TMAX 100 ms, DISCT 4, a remote axis 0 and a local axis 1. -/
def bl : List Word := [wd (2 ^ 28 + 2 ^ 20), 4, 0, 0, 0, 0, 0, 0, wd (2 ^ 34 + 2 ^ 30), wd (2 ^ 35 + 2 ^ 30), 0, wd (3 * 2 ^ 34),
  wd (2 ^ 35 + 100), 0, 0, 0, wd (2 ^ 35 + 2 ^ 34), 0, 0, wd (2 * 2 ^ 12), wd (2 ^ 35), 0, 0, 0]
/-- Brim is ACTIVE with that block, output 0 in state o, and as b says. -/
def bm (o : Nat) (b : Brim) : State :=
  let s := { mod 4 with brim := { b with block := bl } }
  ((s.setRfld (offBrim 0) 35 34 1).setRfld (offBrim 0) 17 16 o).setRfld (offBrim 0) 15 0 77
/-- Pair 0 is in demand. -/
def bd (o : Nat) (b : Brim) : State := (bm o b).setReg (offBrim 1) (wd (2 ^ 8))

theorem test_hyp_brim : (bm 0 {}).brimState = 1 ∧ (bm 1 {}).stoState 0 = 1 ∧ (bm 2 {}).stoState 0 = 2 ∧ (bm 0 {}).pairAction 0 = 1 ∧
    (bm 0 {}).pairAction 3 = 3 ∧ (bm 0 {}).pairAction 2 = 0 ∧ (bm 0 {}).pairGroup 0 0 = true ∧ (bm 0 {}).outUsed 0 = true ∧
    (bm 0 {}).brimAxes = [0, 1] ∧ bit ((bm 0 {}).pb 0) 20 = true ∧ (bd 0 {}).inDemand 0 = true := by decide +kernel
theorem test_brim_start : (aft (execBrimCycleStart 0xFF [] (bm 0 {}))).brim.due = true ∧ aft (execBrimCycleStart 0xFF [] (bm 0 { due := true })) = bm 0 { due := true } ∧
    (aft (execBrimCycleStart 0xFC [] (bm 0 { pairs := [(0, { a := [false, false], b := [true, true] })] }))).inDemand 0 = true := by decide +kernel
theorem test_brim_release : (aft (execBrimCycleStart 0xFF [] (bd 0 { pairs := [(0, { a := [true, true], b := [true, true], both := true })] }))).inDemand 0 = false ∧
    (aft (execBrimCycleStart 0xFF [] (bd 0 { pairs := [(0, { a := [true, true], b := [true, true] })] }))).inDemand 0 = true := by decide +kernel
theorem test_brim_reset_pair : (aft (execBrimCycleStart 0x3F [] (bm 0 { pairs := [(3, { pressed := 400 })] }))).brim.reset = true ∧
    ((aft (execBrimCycleStart 0xFF [] (bm 0 { pairs := [(3, { a := [true, true], b := [true, true], pressed := 7 })] }))).bpair 3).pressed = 8 := by
  decide +kernel
theorem test_brim_speed : ((aft (execBrimCycleStart 0xFF [300] (bm 0 { axes := [(1, { count := some 50 })] }))).baxis 1).speed = 256 := by decide +kernel
theorem test_brim_opens : (bd 1 { due := true }).openDemand 0 = some 1 ∧ (aft (execBrimDecisionPoint (bd 1 { due := true }))).stoState 0 = 0 ∧
    (aft (execBrimDecisionPoint (bd 1 { due := true }))).rfld (offBrim 2) 7 0 = 1 := by decide +kernel
theorem test_brim_closes : (bm 0 { due := true, reset := true }).openDemand 0 = none ∧ (bm 0 { due := true, reset := true }).stopDemand 0 = none ∧
    (aft (execBrimDecisionPoint (bm 0 { due := true, reset := true }))).stoState 0 = 1 := by decide +kernel
/-- The SS1 pair is in demand. -/
def bs (o : Nat) (b : Brim) : State := (bm o b).setReg (offBrim 1) (wd (2 ^ 9))
theorem test_brim_ss1 : (bs 1 { due := true }).openDemand 0 = none ∧ ((bs 1 { due := true }).stopDemand 0).isSome = true ∧
    (aft (execBrimDecisionPoint (bs 1 { due := true }))).stoState 0 = 2 ∧ (aft (execBrimDecisionPoint (bs 1 { due := true }))).modes.trans = some (6, 4) := by
  decide +kernel
theorem test_brim_stop_ends :
    (aft (execBrimDecisionPoint (bm 2 { due := true, stops := [(0, { m := 400, cause := 5 })] }))).rfld (offBrim 2) 7 0 = 3 ∧
    (aft (execBrimDecisionPoint (bm 2 { due := true, axes := [(0, { still := 4 }), (1, { still := 4 })], stops := [(0, { m := 4, cause := 5 })] }))).stoState 0 = 0 ∧
    (aft (execBrimDecisionPoint (bm 2 { due := true, stops := [(0, { m := 4, cause := 5 })] }))).stoState 0 = 2 := by decide +kernel
theorem test_brim_waits : aft (execBrimDecisionPoint (bm 1 {})) = bm 1 {} := by decide +kernel
theorem test_open_demand : (bm 1 { f24 := true }).openDemand 0 = some 0xA ∧ ((bm 1 {}).setReg offSysMode 2).openDemand 0 = some 6 ∧
    (bm 1 { axes := [(0, { lost := true })] }).openDemand 0 = some 4 ∧ 0 ∈ (bm 1 {}).groupAxes 0 := by decide +kernel
theorem test_discrepancy : (aft (execDiscrepancy 0 (bm 1 { pairs := [(0, { differ := 5 })] }))).inDisc 0 = true ∧
    aft (execDiscrepancy 0 (bm 1 { pairs := [(0, { differ := 4 })] })) = bm 1 { pairs := [(0, { differ := 4 })] } := by decide +kernel
theorem test_container_lost : ((aft (execContainerLost 0 (bm 1 { axes := [(0, { age := 2 })] }))).baxis 0).lost = true ∧
    aft (execContainerLost 0 (bm 1 { axes := [(0, { age := 1 })] })) = bm 1 { axes := [(0, { age := 1 })] } := by decide +kernel
theorem test_tmax : ((aft (execTmaxExpiry 0 (bm 2 { stops := [(0, { m := 400 })] }))).bstop 0).expired = true ∧
    aft (execTmaxExpiry 0 (bm 2 { stops := [(0, { m := 399 })] })) = bm 2 { stops := [(0, { m := 399 })] } := by decide +kernel
theorem test_brim_lockstep : (aft (execBrimLockstepMismatch (bm 1 {}))).brimState = 2 ∧ (aft (execBrimLockstepMismatch (bm 1 {}))).stoState 0 = 0 ∧
    (aft (execBrimLockstepMismatch (bm 1 {}))).rfld (offBrim 0) 33 26 = 1 := by decide +kernel
theorem test_brim_rail : (aft (execBrimRailLow (bm 1 {}))).rfld (offBrim 0) 33 26 = 3 ∧
    aft (execBrimRailLow (aft (execBrimLockstepMismatch (bm 1 {})))) = aft (execBrimLockstepMismatch (bm 1 {})) := by decide +kernel
theorem test_oscillators : (aft (execBrimOscillatorCheck 10001 (bm 1 {}))).brimState = 2 ∧ aft (execBrimOscillatorCheck (-10000) (bm 1 {})) = bm 1 {} := by
  decide +kernel
theorem test_switch_pulse : (aft (execSwitchTestPulse 0 false 5000 0 (bm 1 { cycle := 2, pulseOn := true }))).brimState = 2 ∧
    aft (execSwitchTestPulse 0 false 4999 0 (bm 1 { cycle := 2, pulseOn := true })) = bm 1 { cycle := 2, pulseOn := true } ∧
    -- an output that opens within the pulse is judged as the pulse began; its tested switch stays open (R510)
    aft (execSwitchTestPulse 0 false 4999 0 ((bm 1 { cycle := 2, pulseOn := true }).setSto 0 0 1)) =
      (bm 1 { cycle := 2, pulseOn := true }).setSto 0 0 1 ∧
    ((bm 1 { cycle := 2, pulseOn := true }).setSto 0 0 1).switchClosed 0 false = false ∧
    (bm 1 { cycle := 2, pulseOn := true }).switchClosed 0 false = false ∧ (bm 1 { cycle := 2, pulseOn := true }).switchClosed 0 true = true ∧
    ((bm 1 { cycle := 2 }).setSto 0 0 1).switchClosed 0 false = true := by decide +kernel
theorem test_switch_read : (aft (execBrimSwitchRead 78 true (bm 1 { booted := true }))).rfld (offBrim 0) 33 26 = 5 ∧
    (aft (execBrimSwitchRead 77 false (bm 1 { booted := true, stored := blk }))).rfld (offBrim 0) 33 26 = 6 := by decide +kernel
theorem test_switch_power_up : blockCrc blk = (BitVec.ofNat 16 (blockCrc blk)).toNat ∧ BitVec.ofNat 16 (blockCrc blk) ≠ 0 ∧
    (aft (execBrimSwitchRead (BitVec.ofNat 16 (blockCrc blk)) true { mod 4 with brim := { stored := blk } })).brimState = 1 ∧
    (aft (execBrimSwitchRead 5 true { mod 4 with brim := { stored := blk } })).brimState = 0 := by decide +kernel
theorem test_f24v : (aft (execF24vMissing 9999 (bm 1 {}))).brim.f24 = true ∧ (aft (execF24vMissing 12000 (bm 1 { f24 := true }))).brim.f24Good = 1 := by
  decide +kernel

/-! ### Paired modules, trials and recovery (R322, R323, R533 - R546, R587, R593) -/

/-- Role r, mode m, link and CPOK as in w, and the peer's state. -/
def pa (r m w : Nat) (p : Pair) : State := { (mod m).setReg (offPair 0) (wd (r * 2 ^ 34 + w * 2 ^ 32)) with now := 5 * tMs, peer := p }
theorem test_hyp_role : (pa 1 4 3 {}).role = 1 ∧ (pa 2 8 3 {}).role = 2 ∧ (pa 1 4 3 {}).mirror = [] ∧ (pa 2 8 3 {}).holdup = false := by decide +kernel
theorem test_heartbeat_send : (aft (execHeartbeatSend (pa 1 4 0 {}))).outbox.length = 1 ∧ aft (execHeartbeatSend (pa 1 7 0 {})) = pa 1 7 0 {} := by
  decide +kernel
theorem test_pair_watchdog : (aft (execPairWatchdogExpiry (pa 1 4 0 {}))).peer.portsOff = true ∧ aft (execPairWatchdogExpiry (pa 2 8 0 {})) = pa 2 8 0 {} := by
  decide +kernel
/-- A heartbeat of a peer behind by d ns. -/
def hb (d : Int) : Heartbeat := ⟨1, 8, 9, 0, d, 5⟩
theorem test_heartbeat_active : bit ((aft (execHeartbeatReceive (hb 1) (pa 1 4 0 {}))).reg (offPair 0)) 33 = true ∧
    aft (execHeartbeatReceive (hb 1) (pa 0 4 0 {})) = pa 0 4 0 {} := by decide +kernel
theorem test_hyp_heartbeat_standby : ((pa 2 8 2 { committed := true }).setReg offTimeStat 8).rfld offTimeStat 3 3 = 1 ∧
    (pa 2 8 2 {}).rfld offTimeStat 3 3 = 0 := by decide +kernel
theorem test_link_lost : (aft (execPairLinkLost (pa 1 4 3 {}))).rfld (offPair 0) 33 32 = 0 ∧
    aft (execPairLinkLost (pa 1 4 3 { goodAt := 4 * tMs })) = pa 1 4 3 { goodAt := 4 * tMs } := by decide +kernel
theorem test_link_lost_cut : Tab.get false (aft (execPairLinkLost (pa 1 4 3 { waiting := true, sending := [5] }))).peer.dirty 5 = true := by decide +kernel
theorem test_standby_stays : (aft (execRelease (pa 2 8 2 {}))).rfld (offPair 0) 31 30 = 1 ∧ (aft (execPairLinkLost (pa 2 8 2 {}))).rfld (offPair 0) 31 30 = 2 ∧
    aft (execRelease (pa 1 4 3 {})) = pa 1 4 3 {} := by decide +kernel
/-- The cut of a checkpoint is due. -/
def cc1 : State := { pa 1 4 2 { dirty := [(0x24E0000, true)] } with host := { ready := true } }
theorem test_hyp_cut : cc1.censusRuns = true ∧ cc1.censusDue = true ∧ cc1.exch.phase ≠ .swapped := by decide +kernel
/-- A line record of zeros with its check. -/
def lr (kind : Nat) : List Byte :=
  let b := unpackBytes 5 0x2100000 ++ unpackBytes 1 kind ++ unpackBytes 54 0
  b ++ unpackBytes 4 (crc32c b)
theorem test_hyp_records : (lr 1).length = 64 ∧ leAt (lr 1) 60 4 = crc32c ((lr 1).take 60) ∧ byteAt (lr 1) 5 = 1 ∧ byteAt (lr 2) 5 = 2 ∧ leAt (lr 2) 50 5 = 0 := by
  decide +kernel
theorem test_checkpoint_record : (aft (execCheckpointRecord false (lr 1) (pa 2 8 2 {}))).peer.staging.length = 1 ∧
    (aft (execCheckpointRecord true (lr 1) (pa 2 8 2 {}))).outbox = [.mirrorAck] ∧ (aft (execCheckpointRecord false (lr 2) (pa 2 8 2 {}))).peer.bad = true ∧
    aft (execCheckpointRecord false (lr 1) (pa 1 4 2 {})) = pa 1 4 2 {} := by decide +kernel
theorem test_checkpoint_end : (aft (execCheckpointEnd (lr 2) (pa 2 8 2 {}))).peer.committed = true ∧
    (aft (execCheckpointEnd (lr 2) (pa 2 8 2 { bad := true }))).reg (offPair 4) = 1 ∧ aft (execCheckpointEnd (lr 2) (pa 1 4 2 {})) = pa 1 4 2 {} := by
  decide +kernel
theorem test_checkpoint_ack : (aft (execCheckpointAck 5 true (pa 1 4 2 { waiting := true, number := 5, sending := [7] }))).reg (offPair 1) = 5 ∧
    Tab.get false (aft (execCheckpointAck 5 false (pa 1 4 2 { waiting := true, number := 5, sending := [7] }))).peer.dirty 7 = true ∧
    aft (execCheckpointAck 6 true (pa 1 4 2 {})) = pa 1 4 2 {} := by decide +kernel
/-- Lane 4 is a COMPARED lane. -/
def cl1 (r : Nat) : State := { pa r 4 3 {} with lanes := [(4, { configured := true, desc := [(0, wd (2 ^ 30))] })] }
theorem test_hyp_compare : ((cl1 0).lane 4).compared = true ∧ ((cl1 0).lane 5).configured = false ∧ bit ((cl1 0).reg offCensusStat) 2 = false := by decide +kernel
theorem test_compare : (aft (execCompareFailure 1 4 (cl1 0))).mode = 7 ∧ (aft (execCompareFailure 1 4 (cl1 1))).role = 3 ∧
    aft (execCompareFailure 1 5 (cl1 0)) = cl1 0 := by decide +kernel
/-- A trial of class 2 whose window of 10 s has passed. -/
def tw : State := { (mod (4 + 32)).setRfld (offUpd 0) 31 27 2 with cc := 4400000000, store := { window := 10 } }
theorem test_hyp_trial : bit (tw.reg offSysMode) 5 = true ∧ tw.mode = 4 ∧ tw.store.window ≤ tw.windowUsed ∧ tw.hoods ≠ [] ∧ tw.evr.slots = [] := by
  decide +kernel
theorem test_trial_ends : (aft (execConfirmWindowExpiry tw)).reg offSysMode = 0xC401 ∧ aft (execConfirmWindowExpiry (mod 4)) = mod 4 := by decide +kernel
/-- A maintenance frame of the words ws with sequence number n. -/
def mf (n : Nat) (bs : List Byte) : List Byte :=
  let b := unpackBytes 2 n ++ unpackBytes 2 bs.length ++ bs
  b ++ unpackBytes 4 (crc32c b)
theorem test_hyp_maintenance : (mf 0 [1, 0, 0, 0, 0]).length = 5 + 8 ∧ leAt (mf 0 [1, 0, 0, 0, 0]) 9 4 = crc32c ((mf 0 [1, 0, 0, 0, 0]).take 9) := by decide +kernel
theorem test_maintenance : (aft (execMaintenanceFrame (mf 0 [1, 0, 0, 0, 0]) (mod 0))).store.recv = [1] ∧
    (aft (execMaintenanceFrame (mf 0 [1, 0, 0, 0, 0]) { mod 0 with store := { mseq := 1 } })).outbox = [.maintenance [6, 0, 0]] ∧
    (aft (execMaintenanceFrame (mf 4 [1, 0, 0, 0, 0]) (mod 0))).outbox = [.maintenance [0x15, 4, 0]] ∧
    (aft (execMaintenanceFrame (mf 0 []) (mod 0))).outbox = [.maintenance [6, 0, 0, 1]] ∧ aft (execMaintenanceFrame [] (mod 4)) = mod 4 := by decide +kernel

/-! ### The remaining commands -/

theorem test_wait_of_reset : State.reset.mode = 1 ∧ State.reset.mem.wf = true := by decide +kernel
/-- A vector that recurs within 2 us is sent once more at the end of them (R569). -/
theorem test_msix : ((((mod 4).msix 3).msix 3).outbox.length, (((mod 4).msix 3).msix 3).host.vecWait) = ((mod 4).outbox.length + 1, [3]) ∧
    (State.msixDue { ((mod 4).msix 3).msix 3 with now := (mod 4).now + 3 * tUs }).outbox.length = (mod 4).outbox.length + 2 := by decide +kernel

/-! ### Pins (R595, R610) and the line code (R60, R62 - R64, the example of R78) -/

theorem test_pins_run : (mod 4).runN = false ∧ (mod 4).faultN = true ∧ (mod 4).lampRun = .lit ∧ (mod 6).lampRun = .flashing ∧
    (mod 2).lampRun = .off := by decide +kernel
theorem test_pins_halt : (mod 7).faultN = false ∧ (mod 0).faultN = false ∧ (mod 7).lampFault = .lit ∧ (mod 7).holdupN = true := by decide +kernel
theorem test_line_tag : lineTag (0x123456780 / 8) = 0xFB4 := by decide +kernel
theorem test_line_burst : symbolsHit ((List.range 26).map (· + 100)) = 3 ∧ symbolsHit ((List.range 30).map (· + 72)) = 4 := by decide +kernel
theorem test_line_code : syndromes (slotOf (lineMessage [1, 2, 3, 4, 5, 6, 7, 0x800000008] 0xFFF345)) = [0, 0, 0, 0, 0, 0, 0, 0] := by
  decide +kernel
theorem test_line_corrected : (State.decode ((mod 4).disturb 0x2468ACF0 [100, 110, 125]) 0x2468ACF0).reg offMemCorr = 1 ∧
    (State.decode ((mod 4).disturb 0x2468ACF0 [100, 110, 125]) 0x2468ACF0).word 0x123456781 = 0 := by decide +kernel

/-- The states of these tests meet what statements ask of line memory and the spine. -/
theorem test_hyp_clean : (mod 4).mem.errs = [] ∧ (mod 4).spineQuiet = true ∧
    (∀ e ∈ [(forceBase / 8, 2048), (bufDesc 0 / 8, 1024), (jrnlBase / 8, 8192), (sigBase / 8, 4096), (evrBase / 8, 354)],
      (mod 4).linesPoisoned e.1 e.2 = false) ∧
    (mod 4).meets censusBase 1840 = (false, mod 4) ∧ (mod 4).sigReads 3 = (false, mod 4) := by decide

end Sys2Proof.Tests
end

section
/-! SUPPORT. Fields of words: what a field reads after a change of the same or of another field. -/

namespace Sys2Proof.Machine

/-- Bit i of a natural number whose bits [lo + n - 1 : lo] are replaced by v. -/
theorem testBit_replaceBits (m lo n v i : Nat) :
    (m - m / 2 ^ lo % 2 ^ n * 2 ^ lo + v % 2 ^ n * 2 ^ lo).testBit i =
      if lo ≤ i ∧ i < lo + n then v.testBit (i - lo) else m.testBit i := by
  set high := m / 2 ^ lo / 2 ^ n with hhigh
  set low := m % 2 ^ lo with hlow
  have hm : m = 2 ^ lo * (2 ^ n * high + m / 2 ^ lo % 2 ^ n) + low := by
    rw [hhigh, Nat.div_add_mod, hlow, Nat.div_add_mod]
  have hnew : m - m / 2 ^ lo % 2 ^ n * 2 ^ lo + v % 2 ^ n * 2 ^ lo = 2 ^ lo * (2 ^ n * high + v % 2 ^ n) + low := by
    conv_lhs => lhs; lhs; rw [hm]
    generalize m / 2 ^ lo % 2 ^ n = f
    rw [Nat.mul_add, Nat.mul_add, Nat.mul_comm f, Nat.mul_comm (v % 2 ^ n)]
    omega
  have hll : low < 2 ^ lo := Nat.mod_lt _ (by positivity)
  have hbits : ∀ f, f < 2 ^ n → (2 ^ lo * (2 ^ n * high + f) + low).testBit i =
      if i < lo then low.testBit i else if i - lo < n then f.testBit (i - lo) else high.testBit (i - lo - n) := by
    intro f hf
    rw [Nat.testBit_two_pow_mul_add _ hll, Nat.testBit_two_pow_mul_add _ hf]
  rw [hnew, hbits _ (Nat.mod_lt _ (by positivity))]
  have hold := hbits _ (Nat.mod_lt (m / 2 ^ lo) (by positivity : 0 < 2 ^ n))
  rw [← hm] at hold
  rw [hold, Nat.testBit_mod_two_pow]
  by_cases h1 : i < lo
  · rw [if_pos h1, if_pos h1, if_neg (by omega)]
  · by_cases h2 : i - lo < n
    · rw [if_neg h1, if_pos h2, if_pos (by omega : lo ≤ i ∧ i < lo + n)]; simp [h2]
    · rw [if_neg h1, if_neg h2, if_neg h1, if_neg h2, if_neg (by omega)]

/-- The bits of a field. -/
theorem testBit_fld (w : Word) (hi lo i : Nat) :
    (fld w hi lo).testBit i = (decide (i < hi + 1 - lo) && bit w (lo + i)) := by
  simp [fld, fldN, bit, Nat.testBit_mod_two_pow, Nat.testBit_div_two_pow, BitVec.getLsbD, Nat.add_comm]

/-- The bits of a word after a change of one of its fields. -/
theorem bit_setFld (w : Word) (hi lo v i : Nat) :
    bit (setFld w hi lo v) i = if lo ≤ i ∧ i ≤ hi then decide (i < 36) && v.testBit (i - lo) else bit w i := by
  have h := testBit_replaceBits w.toNat lo (hi + 1 - lo) v i
  have hin : (lo ≤ i ∧ i < lo + (hi + 1 - lo)) ↔ (lo ≤ i ∧ i ≤ hi) := by omega
  simp only [hin] at h
  unfold bit setFld wd fld fldN
  rw [BitVec.getLsbD_ofNat, h]
  split
  · rfl
  · by_cases hi36 : i < 36
    · simp [hi36, BitVec.getLsbD]
    · simp [hi36, BitVec.getLsbD_of_ge w i (by omega)]

/-- A bit outside the field that changes stays. -/
theorem bit_setFld_other (w : Word) {hi lo i : Nat} (v : Nat) (h : i < lo ∨ hi < i) : bit (setFld w hi lo v) i = bit w i := by
  rw [bit_setFld, if_neg (by omega)]

/-- A field of one bit reads as the lowest bit put there. -/
theorem bit_setFld_same (w : Word) {i : Nat} (v : Nat) (h : i < 36) : bit (setFld w i i v) i = v.testBit 0 := by
  rw [bit_setFld, if_pos ⟨Nat.le_refl i, Nat.le_refl i⟩]
  simp [h]

/-- A field reads what was put there, modulo its width. -/
theorem fld_setFld_same (w : Word) {hi : Nat} (lo v : Nat) (h : hi < 36) :
    fld (setFld w hi lo v) hi lo = v % 2 ^ (hi + 1 - lo) := by
  apply Nat.eq_of_testBit_eq
  intro i
  rw [testBit_fld, Nat.testBit_mod_two_pow, bit_setFld]
  by_cases hi' : i < hi + 1 - lo
  · rw [if_pos (by omega)]
    simp [hi', show lo + i < 36 by omega]
  · simp [hi']

/-- A field apart from the one that changes stays. -/
theorem fld_setFld_other (w : Word) {hi lo hi' lo' : Nat} (v : Nat) (h : hi' < lo ∨ hi < lo') :
    fld (setFld w hi lo v) hi' lo' = fld w hi' lo' := by
  apply Nat.eq_of_testBit_eq
  intro i
  rw [testBit_fld, testBit_fld]
  by_cases hi' : i < hi' + 1 - lo'
  · rw [bit_setFld_other w v (by omega)]
  · simp [hi']

end Sys2Proof.Machine
end

section
/-! SUPPORT. A write of a register that is no cell's, by a Crown core and by a tile (R17, R58, R175, R615). -/

namespace Sys2Proof.Machine

/-- A mapped register that belongs to no cell, coordinate or capture unit: a Crown core alone may write it (R17). -/
def crownOffset (o : Nat) : Bool := regMapped o && (cellOf o).isNone

/-- No offset of a coordinate is a Crown register's. -/
theorem not_coord_of_crownOffset {o : Nat} (h : crownOffset o = true) : ¬ (0x100 ≤ o ∧ o < 0x200) := by
  intro hc
  simp [crownOffset, cellOf, hc] at h

section
variable {c : CoreId} {o : Nat} (v : Word) (s : State)

/-- A Crown core's write is the register's own rule, with the refusal that it may meet (R615). -/
theorem writeReg_crown (hk : 64 ≤ coreKey c) (ho : crownOffset o = true) :
    writeReg c o v s = .next (if (s.crownWrite (coreKey c) o v).2 = 0 then (s.crownWrite (coreKey c) o v).1
      else (s.crownWrite (coreKey c) o v).1.refuse (coreKey c) (s.crownWrite (coreKey c) o v).2) := by
  have hcoord := not_coord_of_crownOffset ho
  simp only [crownOffset, Bool.and_eq_true, Option.isNone_iff_eq_none] at ho
  obtain ⟨hmap, hcell⟩ := ho
  have hstop : s.writeStop (coreKey c) o = none := by simp [State.writeStop, hmap, hk]
  have hwrite : s.regWrite (coreKey c) o v = s.crownWrite (coreKey c) o v := by
    simp only [State.regWrite, if_neg hcoord, hcell, Option.isSome_none, Bool.false_eq_true, if_false,
      if_neg (Nat.not_lt.2 hk)]
  simp only [writeReg, hstop, State.doWrite, hwrite]

/-- A Crown core's write that its register takes. -/
theorem writeReg_taken (hk : 64 ≤ coreKey c) (ho : crownOffset o = true) {t : State}
    (h : s.crownWrite (coreKey c) o v = (t, 0)) : writeReg c o v s = .next t := by
  rw [writeReg_crown v s hk ho, h]; rfl

/-- A Crown core's write that is refused leaves the register and sets E and ERRC.REFUSE (R615). -/
theorem writeReg_refused (hk : 64 ≤ coreKey c) (ho : crownOffset o = true) {code : Nat} (hc : code ≠ 0)
    (h : s.crownWrite (coreKey c) o v = (s, code)) : writeReg c o v s = .next (s.refuse (coreKey c) code) := by
  rw [writeReg_crown v s hk ho, h]; exact congrArg _ (if_neg hc)

/-- A tile's write of a Crown register is fault 0x08 at the register's address (R58, R175). -/
theorem writeReg_tile (t : Fin 64) (ho : crownOffset o = true) :
    writeReg (.tile t) o v s = .next
      (State.takeFault { s with free := s.free + 1 } t.val 0x08 (wd (Config.sysBase + o)) (Config.freeWord s.free)) := by
  simp only [crownOffset, Bool.and_eq_true, Option.isNone_iff_eq_none] at ho
  obtain ⟨hmap, hcell⟩ := ho
  have hstop : s.writeStop t.val o = some (.fault 0x08 (wd (Config.sysBase + o))) := by
    simp [State.writeStop, hmap, hcell, Nat.not_le.2 t.isLt]
  simp only [writeReg, coreKey, hstop, State.drawWord]

end

end Sys2Proof.Machine
end

section
/-! SUPPORT. The rule of each Crown register for a write (R10, R83, R224, R320, R379, R432, R476, R478, R502, R517, R586, R589). -/

namespace Sys2Proof.Machine

section
variable (k : Nat) (v : Word) (s : State)

theorem crownWrite_blevel : s.crownWrite k offBlevel v =
    if s.mode != 2 && s.mode != 3 then (s, 3)
    else if fld v 15 8 = 0 ∨ Config.native < fld v 15 8 then (s, 4)
    else (s.setRfld offBlevel 15 8 (fld v 15 8), 0) := rfl

theorem crownWrite_timeInc : s.crownWrite k offTimeInc v =
    if 2 ≤ s.rfld offTimeStat 1 0 then (s, 3)
    else (s.setReg offTimeInc (wd (max 0x27FE00000 (min v.toNat 0x280200000))), 0) := rfl

theorem crownWrite_trrd (q : Fin 4) : s.crownWrite k (offTrrd q.val) v = (s.takeTrace q.val v, 0) := by
  have hq := q.isLt
  have hfield : 0x1440 ≤ offTrrd q.val ∧ offTrrd q.val < 0x1450 ∧ offTrrd q.val % 4 = 2 := by unfold offTrrd; omega
  have hlevel : offTrrd q.val ≠ offBlevel := by unfold offTrrd offBlevel; omega
  have hinc : offTrrd q.val ≠ offTimeInc := by unfold offTrrd offTimeInc; omega
  have hindex : (offTrrd q.val - 0x1440) / 4 = q.val := by unfold offTrrd; omega
  simp only [State.crownWrite, if_neg hlevel, if_neg hinc, if_pos hfield, hindex]

theorem crownWrite_histTake : s.crownWrite k (offHist 4) v = (State.histTake (fld v 15 0) s, 0) := rfl

theorem crownWrite_histCtrl : s.crownWrite k (offHist 0) v = (s.histCtrl v, 0) := rfl

theorem crownWrite_ringClaim : s.crownWrite k (offClaim 0) v =
    if s.mode != 2 && s.mode != 3 && s.mode != 8 then (s, 3) else (s.setReg (offClaim 0) (v &&& 0x1FF), 0) := rfl

theorem crownWrite_rstreq : s.crownWrite k (offBrim 5) v =
    (if k = 65 then s.setReg (offBrim 5) (wd (at_ 1 35 + fld v 15 0)) else s, 0) := rfl

theorem crownWrite_evrSnap : s.crownWrite k (offEvr 5) v =
    (if bit v 0 then { s with evr := { s.evr with request := true } } else s, 0) := rfl

theorem crownWrite_updWin : s.crownWrite k (offUpd 1) v = (s.setReg (offUpd 1) (wd (max 10 (min (fld v 11 0) 3600))), 0) := rfl

theorem crownWrite_updConfirm : s.crownWrite k (offUpd 2) v = (if bit v 0 && k = 65 then s.confirmHoods else s, 0) := rfl

theorem crownWrite_adcCal : s.crownWrite k offAdcCal v =
    if !bit v 35 then (s, 0)
    else if (s.mode != 2 && s.mode != 3 && s.mode != 11) || bit (s.reg offAdcCal) 34 then (s, 3)
    else (s.calBegin, 0) := rfl

theorem crownWrite_jrnlRtask : s.crownWrite k (offJrnl 2) v =
    if (targetOfWord (wd (fld v 10 0))).isNone then (s, 4) else (s.setReg (offJrnl 2) (v &&& 0x8000007FF), 0) := rfl

end

theorem crownOffset_trrd (q : Fin 4) : crownOffset (offTrrd q.val) = true := by revert q; decide

end Sys2Proof.Machine
end

section
/-! SUPPORT. What a take of a scheduler trace, a take of history segments, a write of HIST.CTRL and a confirmation do (R224, R476, R478,
R586). -/

namespace Sys2Proof.Machine

/-- The registers alone may differ. -/
def RegStep (s t : State) : Prop := t = { s with regs := t.regs }

theorem RegStep.refl (s : State) : RegStep s s := rfl
theorem RegStep.trans {s t u : State} (h : RegStep s t) (g : RegStep t u) : RegStep s u := by
  unfold RegStep at *; rw [g, h]

theorem setReg_regStep (s : State) (o : Nat) (v : Word) : RegStep s (s.setReg o v) := rfl
theorem setRfld_regStep (s : State) (o hi lo v : Nat) : RegStep s (s.setRfld o hi lo v) := setReg_regStep _ _ _

theorem setReg_stream (s : State) (o : Nat) (v : Word) (i : Nat) : (s.setReg o v).stream i = s.stream i := rfl
theorem deliver_reg (s : State) (i n o : Nat) : (s.deliver i n).reg o = s.reg o := rfl

/-- The store of nonvolatile data takes a value. -/
def State.setStore (s : State) (x : Store) : State := { s with store := x }

theorem setStore_reg (s : State) (x : Store) (o : Nat) : (s.setStore x).reg o = s.reg o := rfl

/-- A take within the entries that are there moves TRRD and delivers them. -/
theorem takeTrace_within (s : State) (q : Nat) (v : Word)
    (h : (v - s.reg (offTrrd q)).toNat ≤ (s.reg (offTrwr q) - s.reg (offTrrd q)).toNat) :
    s.takeTrace q v = (s.setReg (offTrrd q) v).deliver (strTrace q) (v - s.reg (offTrrd q)).toNat := if_pos h

/-- A take beyond the entries that are there does nothing. -/
theorem takeTrace_beyond (s : State) (q : Nat) (v : Word)
    (h : (s.reg (offTrwr q) - s.reg (offTrrd q)).toNat < (v - s.reg (offTrrd q)).toNat) : s.takeTrace q v = s :=
  if_neg (Nat.not_le.2 h)

/-- A take of one segment, where one is resident. -/
theorem histTake_one {s : State} {n : Nat} {r : List Nat} (h : s.hist.resident = n :: r) :
    State.histTake 1 s = s.histPop.2.deliver strHistHost n := by
  have hpop : s.histPop.1 = n := by simp only [State.histPop, h]
  simp only [State.histTake, h, hpop]

/-- The oldest segment leaves the ring: RD and FILL follow, and nothing else changes. -/
theorem histPop_eq {s : State} {n : Nat} {r : List Nat} (h : s.hist.resident = n :: r) :
    s.histPop.2 = { s with regs := s.histPop.2.regs, hist := { s.hist with resident := r } } := by
  simp only [State.histPop, h]; rfl

/-- HIST.CTRL after a write of HIST.CTRL: LEN where it may change, then RATE between its limits. -/
theorem histCtrl_eq (s : State) (v : Word) : s.histCtrl v =
    (if s.mode = 2 ∧ s.reg (offHist 3) = 0 ∧ 1 ≤ fld v 35 32 ∧ fld v 35 32 ≤ 8 then s.setRfld (offHist 0) 35 32 (fld v 35 32)
      else s).setRfld (offHist 0) 16 0 (max 10 (min (fld v 16 0) 100000)) := by
  simp only [State.histCtrl, Bool.and_eq_true, decide_eq_true_eq, and_assoc]

/-- A confirmation ends the trial: TRIAL of SYS.MODE and CLASSES of UPD.STAT become 0 and the window starts again (R586). -/
theorem confirmHoods_trial {s : State} (h : bit (s.reg offSysMode) 5 = true) : s.confirmHoods =
    ((s.setRfld offSysMode 5 5 0).setRfld (offUpd 0) 35 27 0).setStore
      { ((s.setRfld offSysMode 5 5 0).setRfld (offUpd 0) 35 27 0).store with spent := 0, window := 0 } := by
  rw [State.confirmHoods, if_pos h, State.setStore]

end Sys2Proof.Machine
end

section
/-! SUPPORT. A calibration begins (R432). -/

namespace Sys2Proof.Machine

/-- What one element of a list establishes and every other keeps holds after a fold over the list. -/
theorem foldl_establishes {σ α : Type} {f : σ → α → σ} {P : σ → Prop} {i : α} (hset : ∀ s, P (f s i))
    (hkeep : ∀ s j, j ≠ i → P s → P (f s j)) {l : List α} (hi : i ∈ l) (s : σ) : P (l.foldl f s) := by
  have hkeeps : ∀ (l : List α) (s : σ), P s → P (l.foldl f s) := fun l s hs =>
    List.foldlRecOn l f hs fun t ht j _ => by
      by_cases hj : j = i
      · rw [hj]; exact hset t
      · exact hkeep t j hj ht
  obtain ⟨a, b, rfl⟩ := List.append_of_mem hi
  rw [List.foldl_append, List.foldl_cons]
  exact hkeeps b _ (hset _)

/-- The converters, the inputs and the registers alone may differ. -/
def AnalogueStep (s t : State) : Prop := t = { s with regs := t.regs, convs := t.convs, ains := t.ains }

theorem AnalogueStep.refl (s : State) : AnalogueStep s s := rfl
theorem AnalogueStep.trans {s t u : State} (h : AnalogueStep s t) (g : AnalogueStep t u) : AnalogueStep s u := by
  unfold AnalogueStep at *; rw [g, h]

theorem AnalogueStep.cc {s t : State} (h : AnalogueStep s t) : t.cc = s.cc := by
  unfold AnalogueStep at h; rw [h]

theorem AnalogueStep.mem {s t : State} (h : AnalogueStep s t) : t.mem = s.mem := by
  unfold AnalogueStep at h; rw [h]
theorem AnalogueStep.cores {s t : State} (h : AnalogueStep s t) : t.cores = s.cores := by
  unfold AnalogueStep at h; rw [h]
theorem AnalogueStep.calAt {s t : State} (h : AnalogueStep s t) : t.calAt = s.calAt := by
  unfold AnalogueStep at h; rw [h]

theorem AnalogueStep.foldl {α : Type} {f : State → α → State} (h : ∀ s a, AnalogueStep s (f s a)) (l : List α) (s : State) :
    AnalogueStep s (l.foldl f s) :=
  List.foldlRecOn l f (AnalogueStep.refl s) fun t ht a _ => ht.trans (h t a)

theorem setReg_analogue (s : State) (o : Nat) (v : Word) : AnalogueStep s (s.setReg o v) := rfl
theorem setRfld_analogue (s : State) (o hi lo v : Nat) : AnalogueStep s (s.setRfld o hi lo v) := setReg_analogue _ _ _
theorem setConv_analogue (s : State) (k : Nat) (x : Conv) : AnalogueStep s (s.setConv k x) := rfl
theorem setAin_analogue (s : State) (n : Nat) (x : Ain) : AnalogueStep s (s.setAin n x) := rfl

theorem setConv_reg (s : State) (k : Nat) (x : Conv) (o : Nat) : (s.setConv k x).reg o = s.reg o := rfl
theorem setAin_reg (s : State) (n : Nat) (x : Ain) (o : Nat) : (s.setAin n x).reg o = s.reg o := rfl
theorem setAin_conv (s : State) (n : Nat) (x : Ain) (k : Nat) : (s.setAin n x).conv k = s.conv k := rfl
theorem setReg_conv (s : State) (o : Nat) (v : Word) (k : Nat) : (s.setReg o v).conv k = s.conv k := rfl
theorem setRfld_conv (s : State) (o hi lo v k : Nat) : (s.setRfld o hi lo v).conv k = s.conv k := setReg_conv _ _ _ _

theorem dropInterval_analogue (s : State) (n : Nat) : AnalogueStep s (s.dropInterval n) :=
  (setAin_analogue s _ _).trans (setRfld_analogue _ _ _ _ _)

/-- An emptied interval of an input changes word 4 of the input alone. -/
theorem dropInterval_reg_ne (s : State) {n o : Nat} (h : o ≠ offAin n 4) : (s.dropInterval n).reg o = s.reg o := by
  rw [State.dropInterval, setRfld_reg_ne _ _ _ _ _ _ h, setAin_reg]

theorem dropInterval_conv (s : State) (n k : Nat) : (s.dropInterval n).conv k = s.conv k := by
  rw [State.dropInterval, setRfld_conv, setAin_conv]

theorem dropIntervals_reg (is : List Nat) (s : State) (k : Nat) {o : Nat} (h : o < 0x5400) :
    (is.foldl (fun s i => s.dropInterval (4 * k + i)) s).reg o = s.reg o := by
  induction is generalizing s with
  | nil => rfl
  | cons i is ih => rw [List.foldl_cons, ih, dropInterval_reg_ne s (by unfold offAin; omega)]

theorem dropIntervals_conv (is : List Nat) (s : State) (k j : Nat) :
    (is.foldl (fun s i => s.dropInterval (4 * k + i)) s).conv j = s.conv j := by
  induction is generalizing s with
  | nil => rfl
  | cons i is ih => rw [List.foldl_cons, ih, dropInterval_conv]

theorem convEmpty_analogue (s : State) (k : Nat) : AnalogueStep s (s.convEmpty k) :=
  (setConv_analogue s k _).trans (AnalogueStep.foldl (fun s i => dropInterval_analogue s (4 * k + i)) _ _)

/-- An emptied converter changes no register below the inputs'. -/
theorem convEmpty_reg (s : State) (k : Nat) {o : Nat} (h : o < 0x5400) : (s.convEmpty k).reg o = s.reg o := by
  rw [State.convEmpty, dropIntervals_reg _ _ _ h, setConv_reg]

/-- What an emptied converter still holds; every other converter stays. -/
theorem convEmpty_conv (s : State) (k j : Nat) : (s.convEmpty k).conv j = (s.setConv k { s.conv k with
    coming := [], line := [], scan := none, select := none, busy := none, rest := [], results := [] }).conv j := by
  rw [State.convEmpty, dropIntervals_conv]

/-- The calibration's hold of converter k (R432). -/
def State.calHold (s : State) (k : Nat) : State := (s.convEmpty k).setRfld (offConv k 0) 35 35 0

/-- The calibration's clearing of input n (R432). -/
def State.calClear (s : State) (n : Nat) : State :=
  ((s.setReg (offAin n 3) 0).setRfld (offAin n 4) 35 35 0).setRfld (offAin n 4) 33 32 0

/-- Every converter held, then every input cleared (R432). -/
def State.calCleared (s : State) : State := (List.range 64).foldl State.calClear ((List.range 16).foldl State.calHold s)

/-- The calibration in progress, or none. -/
def State.setCalAt (s : State) (x : Option Nat) : State := { s with calAt := x }

theorem setCalAt_reg (s : State) (x : Option Nat) (o : Nat) : (s.setCalAt x).reg o = s.reg o := rfl
theorem setCalAt_conv (s : State) (x : Option Nat) (k : Nat) : (s.setCalAt x).conv k = s.conv k := rfl

/-- Every converter is held, every input is cleared, and the calibration runs from this cell clock. -/
theorem calBegin_eq (s : State) : s.calBegin = (s.calCleared.setRfld offAdcCal 34 34 1).setCalAt (some s.calCleared.cc) := rfl

theorem calBegin_reg (s : State) (o : Nat) : s.calBegin.reg o = (s.calCleared.setRfld offAdcCal 34 34 1).reg o := by
  rw [calBegin_eq, setCalAt_reg]

theorem calBegin_conv (s : State) (k : Nat) : s.calBegin.conv k = s.calCleared.conv k := by
  rw [calBegin_eq, setCalAt_conv, setRfld_conv]

theorem calHold_analogue (s : State) (k : Nat) : AnalogueStep s (s.calHold k) :=
  (convEmpty_analogue s k).trans (setRfld_analogue _ _ _ _ _)

theorem calClear_analogue (s : State) (n : Nat) : AnalogueStep s (s.calClear n) :=
  ((setReg_analogue s _ _).trans (setRfld_analogue _ _ _ _ _)).trans (setRfld_analogue _ _ _ _ _)

theorem calCleared_analogue (s : State) : AnalogueStep s s.calCleared :=
  (AnalogueStep.foldl calHold_analogue _ s).trans (AnalogueStep.foldl calClear_analogue _ _)

/-- EN of the converter is 0, no conversion runs and its delay line is empty. -/
def ConvHeld (k : Nat) (s : State) : Prop := bit (s.reg (offConv k 0)) 35 = false ∧ (s.conv k).busy = none ∧ (s.conv k).line = []

/-- RES of the input is 0 and so is VALID. -/
def AinCleared (n : Nat) (s : State) : Prop := s.reg (offAin n 3) = 0 ∧ bit (s.reg (offAin n 4)) 35 = false

/-- A converter stays held where its word 0 and what it does are as before. -/
theorem ConvHeld.of_eq {s t : State} {k : Nat} (h : ConvHeld k s) (hreg : t.reg (offConv k 0) = s.reg (offConv k 0))
    (hconv : t.conv k = s.conv k) : ConvHeld k t := by
  unfold ConvHeld; rw [hreg, hconv]; exact h

/-- An input stays cleared where its words 3 and 4 are as before. -/
theorem AinCleared.of_eq {s t : State} {n : Nat} (h : AinCleared n s) (h3 : t.reg (offAin n 3) = s.reg (offAin n 3))
    (h4 : t.reg (offAin n 4) = s.reg (offAin n 4)) : AinCleared n t := by
  unfold AinCleared; rw [h3, h4]; exact h

theorem calHold_held (s : State) (k : Nat) : ConvHeld k (s.calHold k) := by
  have hconv : (s.calHold k).conv k = { s.conv k with
      coming := [], line := [], scan := none, select := none, busy := none, rest := [], results := [] } := by
    rw [State.calHold, setRfld_conv, convEmpty_conv, setConv_conv]
  refine ⟨?_, by rw [hconv], by rw [hconv]⟩
  rw [State.calHold, setRfld_reg, bit_setFld_same _ _ (by decide), Nat.zero_testBit]

theorem calHold_keeps_held {s : State} {k j : Nat} (hk : k < 16) (hj : j ≠ k) (h : ConvHeld k s) : ConvHeld k (s.calHold j) := by
  apply h.of_eq
  · rw [State.calHold, setRfld_reg_ne _ _ _ _ _ _ (by unfold offConv; omega), convEmpty_reg s j (by unfold offConv; omega)]
  · rw [State.calHold, setRfld_conv, convEmpty_conv, setConv_conv_ne _ _ _ _ hj.symm]

/-- A cleared input changes words 3 and 4 of the input alone. -/
theorem calClear_reg_ne (s : State) {n o : Nat} (h3 : o ≠ offAin n 3) (h4 : o ≠ offAin n 4) : (s.calClear n).reg o = s.reg o := by
  rw [State.calClear, setRfld_reg_ne _ _ _ _ _ _ h4, setRfld_reg_ne _ _ _ _ _ _ h4, setReg_reg_ne _ _ _ _ h3]

theorem calClear_keeps_held {s : State} {k : Nat} (n : Nat) (h : ConvHeld k s) : ConvHeld k (s.calClear n) := by
  apply h.of_eq
  · exact calClear_reg_ne s (by unfold offConv offAin; omega) (by unfold offConv offAin; omega)
  · rw [State.calClear, setRfld_conv, setRfld_conv, setReg_conv]

theorem calClear_cleared (s : State) (n : Nat) : AinCleared n (s.calClear n) := by
  have h34 : offAin n 3 ≠ offAin n 4 := by unfold offAin; omega
  constructor
  · rw [State.calClear, setRfld_reg_ne _ _ _ _ _ _ h34, setRfld_reg_ne _ _ _ _ _ _ h34, setReg_reg]
  · rw [State.calClear, setRfld_reg, setRfld_reg, bit_setFld_other _ _ (by decide), bit_setFld_same _ _ (by decide), Nat.zero_testBit]

theorem calClear_keeps_cleared {s : State} {n m : Nat} (hm : m ≠ n) (h : AinCleared n s) : AinCleared n (s.calClear m) :=
  h.of_eq (calClear_reg_ne s (by unfold offAin; omega) (by unfold offAin; omega))
    (calClear_reg_ne s (by unfold offAin; omega) (by unfold offAin; omega))

theorem calCleared_held (s : State) {k : Nat} (hk : k < 16) : ConvHeld k s.calCleared := by
  have hheld : ConvHeld k ((List.range 16).foldl State.calHold s) :=
    foldl_establishes (fun t => calHold_held t k) (fun _ _ hj h => calHold_keeps_held hk hj h) (List.mem_range.2 hk) s
  exact List.foldlRecOn _ _ hheld fun _ ht n _ => calClear_keeps_held n ht

theorem calCleared_cleared (s : State) {n : Nat} (hn : n < 64) : AinCleared n s.calCleared :=
  foldl_establishes (fun t => calClear_cleared t n) (fun _ _ hm h => calClear_keeps_cleared hm h) (List.mem_range.2 hn) _

theorem calBegin_held (s : State) {k : Nat} (hk : k < 16) : ConvHeld k s.calBegin := by
  apply (calCleared_held s hk).of_eq
  · rw [calBegin_reg, setRfld_reg_ne _ _ _ _ _ _ (by unfold offConv offAdcCal; omega)]
  · exact calBegin_conv s k

theorem calBegin_cleared (s : State) {n : Nat} (hn : n < 64) : AinCleared n s.calBegin := by
  apply (calCleared_cleared s hn).of_eq
  · rw [calBegin_reg, setRfld_reg_ne _ _ _ _ _ _ (by unfold offAin offAdcCal; omega)]
  · rw [calBegin_reg, setRfld_reg_ne _ _ _ _ _ _ (by unfold offAin offAdcCal; omega)]

/-- RUN of ADC.CAL is set. -/
theorem calBegin_runs (s : State) : bit (s.calBegin.reg offAdcCal) 34 = true := by
  rw [calBegin_reg, setRfld_reg, bit_setFld_same _ _ (by decide), Nat.testBit_one_zero]

/-- The calibration changes registers, converters, inputs and its own beginning alone. -/
theorem calBegin_frame (s : State) : AnalogueStep (s.setCalAt (some s.cc)) s.calBegin := by
  have h : AnalogueStep s (s.calCleared.setRfld offAdcCal 34 34 1) := (calCleared_analogue s).trans (setRfld_analogue _ _ _ _ _)
  rw [calBegin_eq, (calCleared_analogue s).cc]
  generalize s.calCleared.setRfld offAdcCal 34 34 1 = t at h ⊢
  unfold AnalogueStep at h
  rw [h]; rfl

end Sys2Proof.Machine
end

section
/-! The obligation of the Crown's register writes: each register in turn, then the whole statement. -/

namespace Sys2Proof.Machine

section
variable (c : CoreId) (v : Word) (s : State)

theorem exec_sysBlevelWrite : exec (.sysBlevelWrite c v) s = writeReg c offBlevel v s := rfl
theorem exec_timeIncWrite : exec (.timeIncWrite c v) s = writeReg c offTimeInc v s := rfl
theorem exec_trrdWrite (q : Fin 4) : exec (.trrdWrite c q v) s = writeReg c (offTrrd q.val) v s := rfl
theorem exec_histTakeWrite : exec (.histTakeWrite c v) s = writeReg c (offHist 4) v s := rfl
theorem exec_histCtrlWrite : exec (.histCtrlWrite c v) s = writeReg c (offHist 0) v s := rfl
theorem exec_ringClaimWrite : exec (.ringClaimWrite c v) s = writeReg c (offClaim 0) v s := rfl
theorem exec_brimRstreqWrite : exec (.brimRstreqWrite c v) s = writeReg c (offBrim 5) v s := rfl
theorem exec_evrSnapGo : exec (.evrSnapGo c v) s = writeReg c (offEvr 5) v s := rfl
theorem exec_updConfirmGo : exec (.updConfirmGo c v) s = writeReg c (offUpd 2) v s := rfl
theorem exec_updWinWrite : exec (.updWinWrite c v) s = writeReg c (offUpd 1) v s := rfl
theorem exec_adcCalGo : exec (.adcCalGo c v) s = writeReg c offAdcCal v s := rfl
theorem exec_jrnlRtaskWrite : exec (.jrnlRtaskWrite c v) s = writeReg c (offJrnl 2) v s := rfl

end

section
variable {c : CoreId} {v : Word} {s : State} (hk : 64 ≤ coreKey c)
include hk

theorem sysBlevelWrite_taken (hm : s.mode = 2 ∨ s.mode = 3) (h0 : fld v 15 8 ≠ 0) (hn : fld v 15 8 ≤ Config.native) :
    exec (.sysBlevelWrite c v) s = .next (s.setReg offBlevel (setFld (s.reg offBlevel) 15 8 (fld v 15 8))) := by
  have hmode : ¬ ((s.mode != 2 && s.mode != 3) = true) := by rcases hm with hm | hm <;> simp [hm]
  have hlevel : ¬ (fld v 15 8 = 0 ∨ Config.native < fld v 15 8) := by omega
  rw [exec_sysBlevelWrite]
  exact writeReg_taken v s hk (by decide) (by rw [crownWrite_blevel, if_neg hmode, if_neg hlevel, State.setRfld])

/-- The mode is judged before the level: a write that both refusals fit has REFUSE 0x03 (R10, assumption 7). -/
theorem sysBlevelWrite_mode (h2 : s.mode ≠ 2) (h3 : s.mode ≠ 3) :
    exec (.sysBlevelWrite c v) s = .next (s.refuse (coreKey c) 3) := by
  rw [exec_sysBlevelWrite]
  exact writeReg_refused v s hk (by decide) (by decide) (by rw [crownWrite_blevel, if_pos (by simp [h2, h3])])

theorem sysBlevelWrite_level (hm : s.mode = 2 ∨ s.mode = 3) (hl : fld v 15 8 = 0 ∨ Config.native < fld v 15 8) :
    exec (.sysBlevelWrite c v) s = .next (s.refuse (coreKey c) 4) := by
  have hmode : ¬ ((s.mode != 2 && s.mode != 3) = true) := by rcases hm with hm | hm <;> simp [hm]
  rw [exec_sysBlevelWrite]
  exact writeReg_refused v s hk (by decide) (by decide) (by rw [crownWrite_blevel, if_neg hmode, if_pos hl])

theorem timeIncWrite_taken (h : s.rfld offTimeStat 1 0 < 2) :
    exec (.timeIncWrite c v) s = .next (s.setReg offTimeInc (wd (max 0x27FE00000 (min v.toNat 0x280200000)))) := by
  rw [exec_timeIncWrite]
  exact writeReg_taken v s hk (by decide) (by rw [crownWrite_timeInc, if_neg (by omega)])

theorem timeIncWrite_state (h : 2 ≤ s.rfld offTimeStat 1 0) : exec (.timeIncWrite c v) s = .next (s.refuse (coreKey c) 3) := by
  rw [exec_timeIncWrite]
  exact writeReg_refused v s hk (by decide) (by decide) (by rw [crownWrite_timeInc, if_pos h])

theorem trrdWrite_eq (q : Fin 4) : exec (.trrdWrite c q v) s = .next (s.takeTrace q.val v) := by
  rw [exec_trrdWrite]
  exact writeReg_taken v s hk (crownOffset_trrd q) (crownWrite_trrd _ v s q)

theorem trrdWrite_within (q : Fin 4)
    (h : (v - s.reg (offTrrd q.val)).toNat ≤ (s.reg (offTrwr q.val) - s.reg (offTrrd q.val)).toNat) :
    ∃ u, exec (.trrdWrite c q v) s = .next u ∧ u.reg (offTrrd q.val) = v ∧
      (u.stream (strTrace q.val)).delivered = (s.stream (strTrace q.val)).delivered + (v - s.reg (offTrrd q.val)).toNat ∧
      u = { s with regs := (s.setReg (offTrrd q.val) v).regs, census := u.census } := by
  refine ⟨_, trrdWrite_eq hk q, ?_⟩
  rw [takeTrace_within s q.val v h]
  refine ⟨?_, ?_, rfl⟩
  · rw [deliver_reg, setReg_reg]
  · rw [deliver_stream, setReg_stream]

theorem histTakeWrite_one (hv : fld v 15 0 = 1) (hr : s.hist.resident ≠ []) :
    ∃ u, exec (.histTakeWrite c v) s = .next u ∧ u.hist.resident = s.hist.resident.tail ∧ u.mem = s.mem ∧ u.cores = s.cores ∧
      (u.stream strHistHost).delivered = (s.stream strHistHost).delivered + s.hist.resident.headD 0 := by
  obtain ⟨n, r, hnr⟩ := List.exists_cons_of_ne_nil hr
  have hpop := histPop_eq hnr
  refine ⟨_, (exec_histTakeWrite c v s).trans (writeReg_taken v s hk (by decide) (crownWrite_histTake _ v s)), ?_⟩
  rw [hv, histTake_one hnr, hnr, deliver_stream, hpop]
  exact ⟨rfl, rfl, rfl, rfl⟩

theorem histCtrlWrite_eq : exec (.histCtrlWrite c v) s = .next (s.histCtrl v) := by
  rw [exec_histCtrlWrite]
  exact writeReg_taken v s hk (by decide) (crownWrite_histCtrl _ v s)

theorem ringClaimWrite_taken (hm : s.mode = 2 ∨ s.mode = 3 ∨ s.mode = 8) :
    exec (.ringClaimWrite c v) s = .next (s.setReg (offClaim 0) (v &&& 0x1FF)) := by
  have hmode : ¬ ((s.mode != 2 && s.mode != 3 && s.mode != 8) = true) := by rcases hm with hm | hm | hm <;> simp [hm]
  rw [exec_ringClaimWrite]
  exact writeReg_taken v s hk (by decide) (by rw [crownWrite_ringClaim, if_neg hmode])

theorem ringClaimWrite_mode (h2 : s.mode ≠ 2) (h3 : s.mode ≠ 3) (h8 : s.mode ≠ 8) :
    exec (.ringClaimWrite c v) s = .next (s.refuse (coreKey c) 3) := by
  rw [exec_ringClaimWrite]
  exact writeReg_refused v s hk (by decide) (by decide) (by rw [crownWrite_ringClaim, if_pos (by simp [h2, h3, h8])])

/-- Pair 1 alone asks Brim for a reset (R517). -/
theorem brimRstreqWrite_eq : exec (.brimRstreqWrite c v) s =
    .next (if coreKey c = 65 then s.setReg (offBrim 5) (wd (at_ 1 35 + fld v 15 0)) else s) := by
  rw [exec_brimRstreqWrite]
  exact writeReg_taken v s hk (by decide) (crownWrite_rstreq _ v s)

theorem brimRstreqWrite_taken (h : coreKey c = 65) :
    exec (.brimRstreqWrite c v) s = .next (s.setReg (offBrim 5) (wd (2 ^ 35 + fld v 15 0))) := by
  rw [brimRstreqWrite_eq hk, if_pos h, at_, Nat.one_mul]

theorem evrSnapGo_eq : exec (.evrSnapGo c v) s = .next (if bit v 0 then { s with evr := { s.evr with request := true } } else s) := by
  rw [exec_evrSnapGo]
  exact writeReg_taken v s hk (by decide) (crownWrite_evrSnap _ v s)

/-- Pair 1 alone confirms (R586, assumption 59). -/
theorem updConfirmGo_eq : exec (.updConfirmGo c v) s = .next (if bit v 0 && coreKey c = 65 then s.confirmHoods else s) := by
  rw [exec_updConfirmGo]
  exact writeReg_taken v s hk (by decide) (crownWrite_updConfirm _ v s)

theorem updWinWrite_eq : exec (.updWinWrite c v) s = .next (s.setReg (offUpd 1) (wd (max 10 (min (fld v 11 0) 3600)))) := by
  rw [exec_updWinWrite]
  exact writeReg_taken v s hk (by decide) (crownWrite_updWin _ v s)

theorem adcCalGo_begins (hv : bit v 35 = true) (hm : s.mode = 2 ∨ s.mode = 3 ∨ s.mode = 11)
    (hrun : bit (s.reg offAdcCal) 34 = false) : exec (.adcCalGo c v) s = .next s.calBegin := by
  have hmode : ¬ (((s.mode != 2 && s.mode != 3 && s.mode != 11) || bit (s.reg offAdcCal) 34) = true) := by
    rcases hm with hm | hm | hm <;> simp [hm, hrun]
  rw [exec_adcCalGo]
  exact writeReg_taken v s hk (by decide) (by rw [crownWrite_adcCal, if_neg (by simp [hv]), if_neg hmode])

theorem adcCalGo_refused (hv : bit v 35 = true)
    (h : (s.mode ≠ 2 ∧ s.mode ≠ 3 ∧ s.mode ≠ 11) ∨ bit (s.reg offAdcCal) 34 = true) :
    exec (.adcCalGo c v) s = .next (s.refuse (coreKey c) 3) := by
  have hstop : ((s.mode != 2 && s.mode != 3 && s.mode != 11) || bit (s.reg offAdcCal) 34) = true := by
    rcases h with ⟨h2, h3, h11⟩ | h
    · simp [h2, h3, h11]
    · simp [h]
  rw [exec_adcCalGo]
  exact writeReg_refused v s hk (by decide) (by decide) (by rw [crownWrite_adcCal, if_neg (by simp [hv]), if_pos hstop])

theorem jrnlRtaskWrite_taken (h : (targetOfWord (wd (fld v 10 0))).isSome = true) :
    exec (.jrnlRtaskWrite c v) s = .next (s.setReg (offJrnl 2) (v &&& 0x8000007FF)) := by
  rw [exec_jrnlRtaskWrite]
  exact writeReg_taken v s hk (by decide) (by rw [crownWrite_jrnlRtask, if_neg (by simp [Option.isSome_iff_ne_none.1 h])])

theorem jrnlRtaskWrite_target (h : (targetOfWord (wd (fld v 10 0))).isSome = false) :
    exec (.jrnlRtaskWrite c v) s = .next (s.refuse (coreKey c) 4) := by
  rw [exec_jrnlRtaskWrite]
  exact writeReg_refused v s hk (by decide) (by decide) (by rw [crownWrite_jrnlRtask, if_pos (by simpa using h)])

end

/-- HIST.CTRL after a write of it: RATE lies between its limits, LEN changes where R478 lets it, and nothing else does. -/
theorem histCtrl_effect (s : State) (v : Word) :
    (s.histCtrl v).rfld (offHist 0) 16 0 = max 10 (min (fld v 16 0) 100000) ∧
    (s.histCtrl v).rfld (offHist 0) 35 32 =
      (if s.mode = 2 ∧ s.reg (offHist 3) = 0 ∧ 1 ≤ fld v 35 32 ∧ fld v 35 32 ≤ 8 then fld v 35 32 else s.rfld (offHist 0) 35 32) ∧
    (∀ o, o ≠ offHist 0 → (s.histCtrl v).reg o = s.reg o) ∧ RegStep s (s.histCtrl v) := by
  rw [histCtrl_eq]
  have hrate : max 10 (min (fld v 16 0) 100000) % 2 ^ 17 = max 10 (min (fld v 16 0) 100000) := Nat.mod_eq_of_lt (by omega)
  refine ⟨?_, ?_, fun o ho => ?_, ?_⟩
  · rw [State.rfld, setRfld_reg, fld_setFld_same _ _ _ (by decide), hrate]
  · rw [State.rfld, setRfld_reg, fld_setFld_other _ _ (by decide)]
    split
    · next h =>
      obtain ⟨-, -, -, h8⟩ := h
      rw [setRfld_reg, fld_setFld_same _ _ _ (by decide), Nat.mod_eq_of_lt (by omega)]
    · rfl
  · rw [setRfld_reg_ne _ _ _ _ _ _ ho]
    split
    · exact setRfld_reg_ne _ _ _ _ _ _ ho
    · rfl
  · refine RegStep.trans ?_ (setRfld_regStep _ _ _ _ _)
    split
    · exact setRfld_regStep _ _ _ _ _
    · exact .refl s

/-- A confirmation of a trial clears TRIAL, the classes and the window, and keeps the mode (R586). -/
theorem confirmHoods_effect {s : State} (h : bit (s.reg offSysMode) 5 = true) :
    bit (s.confirmHoods.reg offSysMode) 5 = false ∧ s.confirmHoods.mode = s.mode ∧ s.confirmHoods.rfld (offUpd 0) 35 27 = 0 ∧
    s.confirmHoods.store.window = 0 ∧ s.confirmHoods = { s with regs := s.confirmHoods.regs, store := s.confirmHoods.store } := by
  have hmode : ((s.setRfld offSysMode 5 5 0).setRfld (offUpd 0) 35 27 0).reg offSysMode = setFld (s.reg offSysMode) 5 5 0 := by
    rw [setRfld_reg_ne _ _ _ _ _ _ (by decide), setRfld_reg]
  have hupd : ((s.setRfld offSysMode 5 5 0).setRfld (offUpd 0) 35 27 0).rfld (offUpd 0) 35 27 = 0 := by
    rw [State.rfld, setRfld_reg, fld_setFld_same _ _ _ (by decide), Nat.zero_mod]
  have hstep : RegStep s ((s.setRfld offSysMode 5 5 0).setRfld (offUpd 0) 35 27 0) :=
    (setRfld_regStep _ _ _ _ _).trans (setRfld_regStep _ _ _ _ _)
  rw [confirmHoods_trial h]
  generalize (s.setRfld offSysMode 5 5 0).setRfld (offUpd 0) 35 27 0 = t at hmode hupd hstep ⊢
  refine ⟨?_, ?_, ?_, rfl, ?_⟩
  · rw [setStore_reg, hmode, bit_setFld_same _ _ (by decide), Nat.zero_testBit]
  · rw [State.mode, State.rfld, setStore_reg, hmode, fld_setFld_other _ _ (by decide)]; rfl
  · rw [State.rfld, setStore_reg]; exact hupd
  · unfold RegStep at hstep
    rw [hstep]; rfl

/-- Settles O29: a Crown core's write comes to the rule of its register (R17, R615), register by register, and a tile's to
fault 0x08 (R58, R175). -/
theorem crownRegisterWrites : Obligations.CrownRegisterWrites := by
  unfold Obligations.CrownRegisterWrites
  refine ⟨fun c v s hk => ?_, fun t v s => ?_⟩
  · refine ⟨sysBlevelWrite_taken hk, sysBlevelWrite_mode hk, sysBlevelWrite_level hk, timeIncWrite_taken hk, timeIncWrite_state hk,
      fun q => ⟨trrdWrite_within hk q, fun h => ?_⟩, histTakeWrite_one hk, ⟨_, histCtrlWrite_eq hk, histCtrl_effect s v⟩,
      ringClaimWrite_taken hk, ringClaimWrite_mode hk, brimRstreqWrite_taken hk, fun h => ?_, evrSnapGo_eq hk, fun hv h hs => ?_, fun h => ?_,
      updWinWrite_eq hk, fun hv hm hrun => ?_, adcCalGo_refused hk, jrnlRtaskWrite_taken hk, jrnlRtaskWrite_target hk⟩
    · rw [trrdWrite_eq hk, takeTrace_beyond s q.val v h]
    · rw [brimRstreqWrite_eq hk, if_neg (by omega)]
    · exact ⟨s.confirmHoods, by rw [updConfirmGo_eq hk, if_pos (by simp [hv, h])], confirmHoods_effect hs⟩
    · rw [updConfirmGo_eq hk, if_neg (by rcases h with h | h <;> simp [h])]
    · have hframe := calBegin_frame s
      exact ⟨s.calBegin, adcCalGo_begins hk hv hm hrun, calBegin_runs s, hframe.calAt, fun n hn => calBegin_held s hn,
        fun n hn => calBegin_cleared s hn, hframe.mem, hframe.cores⟩
  · exact ⟨writeReg_tile v s t (by decide), writeReg_tile v s t (by decide), fun q => writeReg_tile v s t (crownOffset_trrd q),
      writeReg_tile v s t (by decide), writeReg_tile v s t (by decide), writeReg_tile v s t (by decide),
      writeReg_tile v s t (by decide), writeReg_tile v s t (by decide), writeReg_tile v s t (by decide),
      writeReg_tile v s t (by decide), writeReg_tile v s t (by decide), writeReg_tile v s t (by decide)⟩

end Sys2Proof.Machine
end

section
/-! SUPPORT. Words under masks, and the bits that a mask leaves as they are. -/

namespace Sys2Proof.Machine

theorem bit_and (v m : Word) (i : Nat) : bit (v &&& m) i = (bit v i && bit m i) := BitVec.getLsbD_and

/-- Words with the same bits are the same. -/
theorem word_ext {v w : Word} (h : ∀ i < 36, bit v i = bit w i) : v = w := BitVec.eq_of_getLsbD_eq h

/-- A field that a mask covers stays. -/
theorem fld_and (v m : Word) {hi lo : Nat} (h : ∀ i < hi + 1 - lo, bit m (lo + i) = true) : fld (v &&& m) hi lo = fld v hi lo := by
  apply Nat.eq_of_testBit_eq
  intro i
  rw [testBit_fld, testBit_fld, bit_and]
  by_cases hi' : i < hi + 1 - lo
  · rw [h i hi', Bool.and_true]
  · simp [hi']

/-- A bit that takes the value it has. -/
theorem setBit_self (w : Word) (i : Nat) : setBit w i (bit w i) = w := by
  refine word_ext fun j hj => ?_
  rw [setBit, bit_setFld]
  split
  · next h =>
    obtain rfl : j = i := by omega
    cases hb : bit w j <;> simp [b2n, hj]
  · rfl

end Sys2Proof.Machine
end

section
/-! SUPPORT. A write of a cell's register by the cell's owner or the Crown that no other order meets (R17, R43, R175). -/

namespace Sys2Proof.Machine

/-- An offset within a range in use is mapped (R58). -/
theorem regMapped_of_range {o a b : Nat} (h : (a, b) ∈ regRanges) (ha : a ≤ o) (hb : o ≤ b) : regMapped o = true :=
  List.any_eq_true.2 ⟨(a, b), h, by simp [ha, hb]⟩

/-- A register of a cell other than a coordinate, and the offset that names the cell. -/
structure CellWord (o cell : Nat) : Prop where
  mapped : regMapped o = true
  cell : cellOf o = some cell
  noCoord : ¬ (0x100 ≤ o ∧ o < 0x200)

/-- Core c's order to the register at o is the only one of the cell clock. -/
def State.withOrder (s : State) (c : CoreId) (o : Nat) (v : Word) : State :=
  { s with orders := [{ kind := 4, idx := o, value := s36 v, src := coreSrc (coreKey c), code := 0x73 }] }

section
variable {c : CoreId} {o cell : Nat} {v : Word} {s : State}

theorem writeStop_may (h : CellWord o cell) (hmay : 64 ≤ coreKey c ∨ Tab.get 0 s.owners cell = coreKey c + 1) :
    s.writeStop (coreKey c) o = none := by
  rcases hmay with hk | hown
  · simp [State.writeStop, h.mapped, hk]
  · simp [State.writeStop, h.mapped, h.cell, hown]

theorem orderCell_alone (ho : s.orders = []) : s.orderCell o v (coreSrc (coreKey c)) 0x73 = (true, (s.withOrder c o v).storeCell o v) := by
  simp only [State.orderCell, rankOrder_alone s _ (by simp [ho]), ho, List.filter_nil, if_true, State.withOrder]

/-- What the cell's owner or the Crown writes comes to the register's own rule. -/
theorem writeReg_cell (h : CellWord o cell) (hmay : 64 ≤ coreKey c ∨ Tab.get 0 s.owners cell = coreKey c + 1) (ho : s.orders = [])
    (hr : cellRefuses o v = false) : writeReg c o v s = .next ((s.withOrder c o v).storeCell o v) := by
  have hwrite : s.regWrite (coreKey c) o v = ((s.withOrder c o v).storeCell o v, 0) := by
    simp [State.regWrite, h.noCoord, h.cell, hr, orderCell_alone ho]
  simp only [writeReg, writeStop_may h hmay, State.doWrite, hwrite, if_true]

/-- A word that the register's rule refuses (R615). -/
theorem writeReg_cell_refused (h : CellWord o cell) (hmay : 64 ≤ coreKey c ∨ Tab.get 0 s.owners cell = coreKey c + 1)
    (hr : cellRefuses o v = true) : writeReg c o v s = .next (s.refuse (coreKey c) 4) := by
  have hwrite : s.regWrite (coreKey c) o v = (s, 4) := by
    simp [State.regWrite, h.noCoord, h.cell, hr]
  simp only [writeReg, writeStop_may h hmay, State.doWrite, hwrite]
  rfl

/-- No rule of a register refuses a word whose field [34:33] is not 3. -/
theorem cellRefuses_of_fld (h : fld v 34 33 ≠ 3) : cellRefuses o v = false := by simp [cellRefuses, h]

/-- No register refuses a word but the first of a chopper phase and the first of an encoder (R413, R446). -/
theorem cellRefuses_of_place (hc : ¬ (0x3400 ≤ o ∧ o < 0x3480 ∧ o % 8 = 0)) (he : ¬ (0x6400 ≤ o ∧ o < 0x6480 ∧ o % 8 = 0)) :
    cellRefuses o v = false := by
  simp only [cellRefuses, Bool.and_eq_false_iff, Bool.or_eq_false_iff, decide_eq_false_iff_not]
  omega

end

/-! ### Where the registers of each cell stand -/

section
variable {o : Nat}

theorem cellOf_pwm (h : 0x3000 ≤ o) (h' : o < 0x3180) : cellOf o = some (o / 16 * 16) := by
  rw [cellOf, if_neg (by omega), if_pos ⟨h, h'⟩]

theorem cellOf_trip (h : 0x3200 ≤ o) (h' : o < 0x3220) : cellOf o = some (o / 4 * 4) := by
  rw [cellOf]; repeat rw [if_neg (by omega)]
  rw [if_pos ⟨h, h'⟩]

theorem cellOf_chop (h : 0x3400 ≤ o) (h' : o < 0x3480) : cellOf o = some (o / 16 * 16) := by
  rw [cellOf]; repeat rw [if_neg (by omega)]
  rw [if_pos ⟨h, h'⟩]

theorem cellOf_step (h : 0x4000 ≤ o) (h' : o < 0x4080) : cellOf o = some (o / 8 * 8) := by
  rw [cellOf]; repeat rw [if_neg (by omega)]
  rw [if_pos ⟨h, h'⟩]

theorem cellOf_conv (h : 0x5000 ≤ o) (h' : o < 0x5100) : cellOf o = some (o / 16 * 16) := by
  rw [cellOf]; repeat rw [if_neg (by omega)]
  rw [if_pos ⟨h, h'⟩]

theorem cellOf_ain (h : 0x5400 ≤ o) (h' : o < 0x5600) : cellOf o = some (0x5000 + 16 * ((o - 0x5400) / 32)) := by
  rw [cellOf]; repeat rw [if_neg (by omega)]
  rw [if_pos ⟨h, h'⟩]

theorem cellOf_fin (h : 0x6000 ≤ o) (h' : o < 0x6100) : cellOf o = some (o / 8 * 8) := by
  rw [cellOf]; repeat rw [if_neg (by omega)]
  rw [if_pos ⟨h, h'⟩]

theorem cellOf_fout (h : 0x6100 ≤ o) (h' : o < 0x6140) : cellOf o = some (o / 4 * 4) := by
  rw [cellOf]; repeat rw [if_neg (by omega)]
  rw [if_pos ⟨h, h'⟩]

theorem cellOf_enc (h : 0x6400 ≤ o) (h' : o < 0x6480) : cellOf o = some (o / 8 * 8) := by
  rw [cellOf]; repeat rw [if_neg (by omega)]
  rw [if_pos ⟨h, h'⟩]

theorem cellOf_slot (h : 0xA000 ≤ o) (h' : o < 0xC000) : cellOf o = some (o / 4 * 4) := by
  rw [cellOf]; repeat rw [if_neg (by omega)]
  rw [if_pos ⟨h, h'⟩]

end

/-- A word of a cell whose registers lie in a range in use beyond those of the coordinates. -/
theorem CellWord.of_range {o a b cell n : Nat} (h : (a, b) ∈ regRanges) (ha : a ≤ o) (hb : o ≤ b) (hc : 0x200 ≤ a)
    (hn : cellOf o = some n) (he : n = cell) : CellWord o cell :=
  ⟨regMapped_of_range h ha hb, he ▸ hn, by omega⟩

theorem cellWord_pwm (p : Fin 24) {w : Nat} (hw : w < 16) : CellWord (offPwm p.val w) (offPwm p.val 0) := by
  have ha : 0x3000 ≤ offPwm p.val w := by unfold offPwm; omega
  have hb : offPwm p.val w < 0x3180 := by unfold offPwm; omega
  exact .of_range (b := 0x317F) (by decide) ha (by omega) (by decide) (cellOf_pwm ha hb) (by unfold offPwm; omega)

theorem cellWord_trip (i : Fin 8) {w : Nat} (hw : w < 4) : CellWord (offTrip i.val w) (offTrip i.val 0) := by
  have ha : 0x3200 ≤ offTrip i.val w := by unfold offTrip; omega
  have hb : offTrip i.val w < 0x3220 := by unfold offTrip; omega
  exact .of_range (b := 0x321F) (by decide) ha (by omega) (by decide) (cellOf_trip ha hb) (by unfold offTrip; omega)

/-- A channel of two chopper phases is one cell (R413). -/
theorem cellWord_chop (f : Fin 16) {w : Nat} (hw : w < 8) : CellWord (offChop f.val w) (0x3400 + 16 * (f.val / 2)) := by
  have ha : 0x3400 ≤ offChop f.val w := by unfold offChop; omega
  have hb : offChop f.val w < 0x3480 := by unfold offChop; omega
  exact .of_range (b := 0x348F) (by decide) ha (by omega) (by decide) (cellOf_chop ha hb) (by unfold offChop; omega)

theorem cellWord_step (g : Fin 16) {w : Nat} (hw : w < 8) : CellWord (offStep g.val w) (offStep g.val 0) := by
  have ha : 0x4000 ≤ offStep g.val w := by unfold offStep; omega
  have hb : offStep g.val w < 0x4080 := by unfold offStep; omega
  exact .of_range (b := 0x408F) (by decide) ha (by omega) (by decide) (cellOf_step ha hb) (by unfold offStep; omega)

theorem cellWord_enc (e : Fin 16) {w : Nat} (hw : w < 8) : CellWord (offEnc e.val w) (offEnc e.val 0) := by
  have ha : 0x6400 ≤ offEnc e.val w := by unfold offEnc; omega
  have hb : offEnc e.val w < 0x6480 := by unfold offEnc; omega
  exact .of_range (b := 0x647F) (by decide) ha (by omega) (by decide) (cellOf_enc ha hb) (by unfold offEnc; omega)

theorem cellWord_fin (i : Fin 32) {w : Nat} (hw : w < 8) : CellWord (offFin i.val w) (offFin i.val 0) := by
  have ha : 0x6000 ≤ offFin i.val w := by unfold offFin; omega
  have hb : offFin i.val w < 0x6100 := by unfold offFin; omega
  exact .of_range (b := 0x60FF) (by decide) ha (by omega) (by decide) (cellOf_fin ha hb) (by unfold offFin; omega)

theorem cellWord_fout (i : Fin 16) {w : Nat} (hw : w < 4) : CellWord (offFout i.val w) (offFout i.val 0) := by
  have ha : 0x6100 ≤ offFout i.val w := by unfold offFout; omega
  have hb : offFout i.val w < 0x6140 := by unfold offFout; omega
  exact .of_range (b := 0x613F) (by decide) ha (by omega) (by decide) (cellOf_fout ha hb) (by unfold offFout; omega)

theorem cellWord_conv (n : Fin 16) {w : Nat} (hw : w < 16) : CellWord (offConv n.val w) (offConv n.val 0) := by
  have ha : 0x5000 ≤ offConv n.val w := by unfold offConv; omega
  have hb : offConv n.val w < 0x5100 := by unfold offConv; omega
  exact .of_range (b := 0x50FF) (by decide) ha (by omega) (by decide) (cellOf_conv ha hb) (by unfold offConv; omega)

/-- An analogue input belongs to the cell of its converter (R418). -/
theorem cellWord_ain (n : Fin 64) {w : Nat} (hw : w < 8) : CellWord (offAin n.val w) (offConv (n.val / 4) 0) := by
  have ha : 0x5400 ≤ offAin n.val w := by unfold offAin; omega
  have hb : offAin n.val w < 0x5600 := by unfold offAin; omega
  exact .of_range (b := 0x55FF) (by decide) ha (by omega) (by decide) (cellOf_ain ha hb) (by unfold offAin offConv; omega)

theorem cellWord_slot (r : Fin 2) (i : Fin 1024) {w : Nat} (hw : w < 4) :
    CellWord (offSlot r.val i.val w) (offSlot r.val i.val 0) := by
  have ha : 0xA000 ≤ offSlot r.val i.val w := by unfold offSlot; omega
  have hb : offSlot r.val i.val w < 0xC000 := by unfold offSlot; omega
  exact .of_range (b := 0xBFFF) (by decide) ha (by omega) (by decide) (cellOf_slot ha hb) (by unfold offSlot; omega)

/-! ### The rule that each register of a cell has for a write -/

section
variable (s : State) (v : Word)

theorem storeCell_pwm (p : Fin 24) {w : Nat} (hw : w < 16) : s.storeCell (offPwm p.val w) v = s.pwmStore p.val w v := by
  have hp : (offPwm p.val w - 0x3000) / 16 = p.val := by unfold offPwm; omega
  have hword : offPwm p.val w % 16 = w := by unfold offPwm; omega
  rw [State.storeCell, if_pos (by unfold offPwm; omega), hp, hword]

theorem storeCell_trip (i : Fin 8) {w : Nat} (hw : w < 4) : s.storeCell (offTrip i.val w) v = s.tripStore i.val w v := by
  have hi : (offTrip i.val w - 0x3200) / 4 = i.val := by unfold offTrip; omega
  have hword : offTrip i.val w % 4 = w := by unfold offTrip; omega
  rw [State.storeCell]; repeat rw [if_neg (by unfold offTrip; omega)]
  rw [if_pos (by unfold offTrip; omega), hi, hword]

theorem storeCell_chop (f : Fin 16) {w : Nat} (hw : w < 8) : s.storeCell (offChop f.val w) v = s.chopStore f.val w v := by
  have hf : (offChop f.val w - 0x3400) / 8 = f.val := by unfold offChop; omega
  have hword : offChop f.val w % 8 = w := by unfold offChop; omega
  rw [State.storeCell]; repeat rw [if_neg (by unfold offChop; omega)]
  rw [if_pos (by unfold offChop; omega), hf, hword]

theorem storeCell_step (g : Fin 16) {w : Nat} (hw : w < 8) : s.storeCell (offStep g.val w) v = s.stepStore g.val w v := by
  have hg : (offStep g.val w - 0x4000) / 8 = g.val := by unfold offStep; omega
  have hword : offStep g.val w % 8 = w := by unfold offStep; omega
  rw [State.storeCell]; repeat rw [if_neg (by unfold offStep; omega)]
  rw [if_pos (by unfold offStep; omega), hg, hword]

theorem storeCell_conv (n : Fin 16) {w : Nat} (hw : w < 16) : s.storeCell (offConv n.val w) v = s.convStore n.val w v := by
  have hn : (offConv n.val w - 0x5000) / 16 = n.val := by unfold offConv; omega
  have hword : offConv n.val w % 16 = w := by unfold offConv; omega
  rw [State.storeCell]; repeat rw [if_neg (by unfold offConv; omega)]
  rw [if_pos (by unfold offConv; omega), hn, hword]

theorem storeCell_ain (n : Fin 64) {w : Nat} (hw : w < 8) : s.storeCell (offAin n.val w) v = s.ainStore n.val w v := by
  have hn : (offAin n.val w - 0x5400) / 8 = n.val := by unfold offAin; omega
  have hword : offAin n.val w % 8 = w := by unfold offAin; omega
  rw [State.storeCell]; repeat rw [if_neg (by unfold offAin; omega)]
  rw [if_pos (by unfold offAin; omega), hn, hword]

theorem storeCell_fin (i : Fin 32) {w : Nat} (hw : w < 8) : s.storeCell (offFin i.val w) v = s.finStore i.val w v := by
  have hi : (offFin i.val w - 0x6000) / 8 = i.val := by unfold offFin; omega
  have hword : offFin i.val w % 8 = w := by unfold offFin; omega
  rw [State.storeCell]; repeat rw [if_neg (by unfold offFin; omega)]
  rw [if_pos (by unfold offFin; omega), hi, hword]

theorem storeCell_fout (i : Fin 16) {w : Nat} (hw : w < 4) : s.storeCell (offFout i.val w) v = s.foutStore i.val w v := by
  have hi : (offFout i.val w - 0x6100) / 4 = i.val := by unfold offFout; omega
  have hword : offFout i.val w % 4 = w := by unfold offFout; omega
  rw [State.storeCell]; repeat rw [if_neg (by unfold offFout; omega)]
  rw [if_pos (by unfold offFout; omega), hi, hword]

theorem storeCell_enc (e : Fin 16) {w : Nat} (hw : w < 8) : s.storeCell (offEnc e.val w) v = s.encStore e.val w v := by
  have he : (offEnc e.val w - 0x6400) / 8 = e.val := by unfold offEnc; omega
  have hword : offEnc e.val w % 8 = w := by unfold offEnc; omega
  rw [State.storeCell]; repeat rw [if_neg (by unfold offEnc; omega)]
  rw [if_pos (by unfold offEnc; omega), he, hword]

theorem storeCell_slot (r : Fin 2) (i : Fin 1024) {w : Nat} (hw : w < 4) :
    s.storeCell (offSlot r.val i.val w) v = s.slotStore r.val i.val w v := by
  have hr : (offSlot r.val i.val w - 0xA000) / 0x1000 = r.val := by unfold offSlot; omega
  have hi : offSlot r.val i.val w % 0x1000 / 4 = i.val := by unfold offSlot; omega
  have hword : offSlot r.val i.val w % 4 = w := by unfold offSlot; omega
  rw [State.storeCell]; repeat rw [if_neg (by unfold offSlot; omega)]
  rw [if_pos (by unfold offSlot; omega), hr, hi, hword]

end

end Sys2Proof.Machine
end

section
/-! The obligation of the cells' registers: what each register's rule does, then the whole statement. -/

namespace Sys2Proof.Machine

/-- Command i writes w to the register at o and changes no other register; the order of the write stands. -/
def WritesOne (i : Instr) (s : State) (o : Nat) (w : Word) : Prop :=
  ∃ u, exec i s = .next u ∧ u.reg o = w ∧ (∀ j, j ≠ o → u.reg j = s.reg j) ∧ u = { s with regs := u.regs, orders := u.orders }

/-- Command i leaves PWM pair p as x and every other pair as it is; the order of the write stands. -/
def WritesPair (i : Instr) (s : State) (p : Nat) (x : Pwm) : Prop :=
  ∃ u, exec i s = .next u ∧ u.pair p = x ∧ (∀ j, j ≠ p → u.pair j = s.pair j) ∧ u = { s with pwm := u.pwm, orders := u.orders }

section
variable (s : State) (c : CoreId) (o : Nat) (v : Word)

@[simp] theorem withOrder_reg (j : Nat) : (s.withOrder c o v).reg j = s.reg j := rfl
@[simp] theorem withOrder_pwmEn (p : Nat) : (s.withOrder c o v).pwmEn p = s.pwmEn p := rfl
@[simp] theorem withOrder_cellsLive : (s.withOrder c o v).cellsLive = s.cellsLive := rfl

end

section
variable {i : Instr} {s : State} (c : CoreId) (o : Nat) (v : Word) {j p : Nat} {w : Word}

theorem writesOne_setReg (h : exec i s = .next ((s.withOrder c o v).setReg j w)) : WritesOne i s j w :=
  ⟨_, h, setReg_reg _ _ _, fun k hk => setReg_reg_ne _ _ _ k hk, rfl⟩

theorem writesOne_same (h : exec i s = .next (s.withOrder c o v)) : WritesOne i s j (s.reg j) := ⟨_, h, rfl, fun _ _ => rfl, rfl⟩

theorem writesPair_setPair {x : Pwm} (h : exec i s = .next ((s.withOrder c o v).setPair p x)) : WritesPair i s p x :=
  ⟨_, h, setPair_pair _ _ _, fun k hk => setPair_pair_ne _ _ _ k hk, rfl⟩

end

/-- Core c is the owner of a cell, or one of the Crown (R17). -/
def MayWrite (c : CoreId) (s : State) (cell : Nat) : Prop := 64 ≤ coreKey c ∨ Tab.get 0 s.owners cell = coreKey c + 1

/-! ### What the rules of the registers do -/

section
variable {s : State} {v : Word}

/-- EN rises: the pair starts (R398). -/
theorem pwmStore_rise {p : Nat} (hv : bit v 0 = true) (hl : s.cellsLive = true) (hen : s.pwmEn p = false) :
    s.pwmStore p 0 v = (s.setReg (offPwm p 0) (v &&& 0x3FFFFD)).setPair p { s.pair p with start := 1 } := by
  have hword : setBit (v &&& 0x3FFFFD) 0 true = v &&& 0x3FFFFD := by
    have hbit : bit (v &&& 0x3FFFFD) 0 = true := by rw [bit_and, hv]; rfl
    rw [← hbit, setBit_self]
  simp only [State.pwmStore, hv, hl, hen, Bool.and_self, Bool.not_false, if_true, hword]

/-- EN is 0 after a write that clears it or comes where no cell drives (R398, R410). -/
theorem pwmStore_off {p : Nat} (h : bit v 0 = false ∨ s.cellsLive = false) :
    s.pwmStore p 0 v = (s.setReg (offPwm p 0) (setBit (v &&& 0x3FFFFD) 0 false)).setPair p { s.pair p with start := 0 } := by
  have hen : (bit v 0 && s.cellsLive) = false := by rcases h with h | h <;> simp [h]
  simp only [State.pwmStore, hen, Bool.false_and, Bool.not_false, if_true, Bool.false_eq_true, if_false]

/-- An on-interval ends: the phase is off, PEAK is written, and a free value may be drawn (R413, R415). -/
theorem chopDecay_eq (s : State) (f peak : Nat) : ∃ n x, x.on = false ∧
    s.chopDecay f peak = (State.setRfld { s with free := n } (offChop f 4) 23 12 peak).setChop f x := by
  by_cases h : s.rfld (offChop f 0) 34 33 = 2
  · exact ⟨s.free + 1, _, rfl, by simp only [State.chopDecay, if_pos h]; rfl⟩
  · exact ⟨s.free, _, rfl, by simp only [State.chopDecay, if_neg h]; rfl⟩

/-- A stopped phase is off; of the registers only its word 4, where the interval's extremes stand, may change (R413, R415). -/
theorem chopStop_effect (s : State) (f : Nat) :
    ((s.chopStop f).chop f).on = false ∧ (∀ j, j ≠ f → (s.chopStop f).chop j = s.chop j) ∧
    (∀ o, o ≠ offChop f 4 → (s.chopStop f).reg o = s.reg o) ∧
    s.chopStop f = { s with regs := (s.chopStop f).regs, chops := (s.chopStop f).chops, free := (s.chopStop f).free } := by
  by_cases h : (s.chop f).on = true
  · obtain ⟨n, x, hx, heq⟩ := chopDecay_eq s.drawSense.2 f s.drawSense.1
    have hstop : s.chopStop f = (State.setRfld { s with free := n } (offChop f 4) 23 12 s.drawSense.1).setChop f x := by
      rw [State.chopStop, h]; exact heq
    rw [hstop]
    exact ⟨(congrArg Chop.on (setChop_chop _ _ _)).trans hx, fun j hj => setChop_chop_ne _ _ _ _ hj,
      fun o ho => setRfld_reg_ne { s with free := n } (offChop f 4) 23 12 s.drawSense.1 o ho, rfl⟩
  · have hoff : (s.chop f).on = false := by simpa using h
    have hstop : s.chopStop f = s := by rw [State.chopStop, hoff]; rfl
    rw [hstop]
    exact ⟨hoff, fun _ _ => rfl, fun _ _ => rfl, rfl⟩

/-- Word 0 of a phase is written with EN 0: the phase stops (R413). -/
theorem chopStore_off {f : Nat} (hd : fld v 34 33 ≠ 3) (hk : 1 ≤ fld v 31 28) (hen : bit v 35 = false) :
    s.chopStore f 0 v = ((s.setReg (offChop f 0) v).chopStop f).setChop f
      { ((s.setReg (offChop f 0) v).chopStop f).chop f with hadOn := false } := by
  have hword : setBit v 35 false = v := by rw [← hen, setBit_self]
  have hk' : fld v 31 28 ≠ 0 := by omega
  simp only [State.chopStore, if_neg hd, hen, Bool.false_and, hword, if_neg hk', Bool.not_false, if_true]

/-- Steps that each leave a state as it is leave it so together. -/
theorem foldl_unmoved {σ α : Type} {f : σ → α → σ} {x : σ} {l : List α} (h : ∀ a ∈ l, f x a = x) : l.foldl f x = x := by
  induction l with
  | nil => rfl
  | cons a l ih => rw [List.foldl_cons, h a (by simp), ih fun b hb => h b (by simp [hb])]

/-- POS of a generator that no chopper channel follows (R414). -/
theorem stepFollow_none {g : Nat} (h : ∀ j < 8, bit (s.reg (offChopper j)) 35 = false) : s.stepFollow g = s :=
  foldl_unmoved fun j hj => by
    have hoff := h j (List.mem_range.1 hj)
    simp only [hoff, Bool.false_and, Bool.false_eq_true, if_false]

theorem setPos_free {g : Nat} (h : ∀ j < 8, bit (s.reg (offChopper j)) 35 = false) : s.setPos g v = s.setReg (offStep g 2) v := by
  have hfollow : (s.setReg (offStep g 2) v).stepFollow g = s.setReg (offStep g 2) v :=
    stepFollow_none fun j hj => by
      rw [setReg_reg_ne _ _ _ _ (by unfold offChopper offStep; omega)]; exact h j hj
  simp only [State.setPos, hfollow, ite_self]

end

section
variable {c : CoreId} {v : Word} {s : State} (ho : s.orders = [])
include ho

/-! ### PWM pairs (R397 - R402) -/

section
variable {p : Fin 24} (hmay : MayWrite c s (offPwm p.val 0))
include hmay

theorem writeReg_pwm {w : Nat} (hw : w < 16) :
    writeReg c (offPwm p.val w) v s = .next ((s.withOrder c (offPwm p.val w) v).pwmStore p.val w v) := by
  have hr : cellRefuses (offPwm p.val w) v = false := cellRefuses_of_place (by unfold offPwm; omega) (by unfold offPwm; omega)
  rw [writeReg_cell (cellWord_pwm p hw) hmay ho hr, storeCell_pwm _ _ _ hw]

theorem setpwm_writes : WritesPair (.setpwm c p v) s p.val { s.pair p.val with
    dutySh := (s.pair p.val).dutySh.write s.cc (fld v 22 0) false
    perSh := (s.pair p.val).perSh.write s.cc (s.reg (offPwm p.val 4)).toNat false } :=
  writesPair_setPair c _ v (writeReg_pwm ho hmay (by decide : 5 < 16))

theorem pwmShadowWrite_period : WritesPair (.pwmShadowWrite c p 1 v) s p.val { s.pair p.val with
    perSh := (s.pair p.val).perSh.write s.cc (max 16 (min v.toNat 262143)) false } :=
  writesPair_setPair c _ v (writeReg_pwm ho hmay (by decide : 1 < 16))

theorem pwmShadowWrite_duty : WritesPair (.pwmShadowWrite c p 2 v) s p.val { s.pair p.val with
    dutySh := (s.pair p.val).dutySh.write s.cc (fld v 22 0) false } :=
  writesPair_setPair c _ v (writeReg_pwm ho hmay (by decide : 2 < 16))

theorem pwmShadowWrite_fraction : WritesPair (.pwmShadowWrite c p 3 v) s p.val { s.pair p.val with
    dutySh := (s.pair p.val).dutySh.write s.cc (fld v 34 0) true } :=
  writesPair_setPair c _ v (writeReg_pwm ho hmay (by decide : 3 < 16))

theorem pwmEnWrite_rise (hv : bit v 0 = true) (hl : s.cellsLive = true) (hen : s.pwmEn p.val = false) :
    ∃ u, exec (.pwmEnWrite c p v) s = .next u ∧ s.pwmEn p.val = false ∧ u.pwmEn p.val = true ∧
      u.pair p.val = { s.pair p.val with start := 1 } ∧ u.reg (offPwm p.val 0) = v &&& 0x3FFFFD ||| 1 ∧
      u = { s with pwm := u.pwm, regs := u.regs, orders := u.orders } := by
  have hbit : bit (v &&& 0x3FFFFD) 0 = true := by rw [bit_and, hv]; rfl
  have hone : v &&& 0x3FFFFD ||| 1 = v &&& 0x3FFFFD := by
    refine word_ext fun i _ => ?_
    by_cases hi : i = 0
    · rw [hi, hbit, bit, BitVec.getLsbD_or]
      exact Bool.or_true _
    · simp [bit, hi]
  have hstore : (s.withOrder c (offPwm p.val 0) v).pwmStore p.val 0 v = _ := pwmStore_rise hv hl hen
  refine ⟨_, (writeReg_pwm ho hmay (by decide : 0 < 16)).trans (congrArg _ hstore), hen, ?_, setPair_pair _ _ _, ?_, rfl⟩
  · exact (congrArg (bit · 0) (setReg_reg _ _ _)).trans hbit
  · exact (setReg_reg _ _ _).trans hone.symm

theorem pwmEnWrite_off (h : bit v 0 = false ∨ s.cellsLive = false) :
    ∃ u, exec (.pwmEnWrite c p v) s = .next u ∧ u.pwmEn p.val = false ∧
      u = { s with pwm := u.pwm, regs := u.regs, orders := u.orders } := by
  have hstore : (s.withOrder c (offPwm p.val 0) v).pwmStore p.val 0 v = _ := pwmStore_off h
  refine ⟨_, (writeReg_pwm ho hmay (by decide : 0 < 16)).trans (congrArg _ hstore), ?_, rfl⟩
  exact (congrArg (bit · 0) (setReg_reg _ _ _)).trans (bit_setFld_same _ _ (by decide))

end

/-! ### Trip inputs (R407, R408) -/

section
variable {i : Fin 8} (hmay : MayWrite c s (offTrip i.val 0))
include hmay

theorem writeReg_trip {w : Nat} (hw : w < 4) :
    writeReg c (offTrip i.val w) v s = .next ((s.withOrder c (offTrip i.val w) v).tripStore i.val w v) := by
  have hr : cellRefuses (offTrip i.val w) v = false := cellRefuses_of_place (by unfold offTrip; omega) (by unfold offTrip; omega)
  rw [writeReg_cell (cellWord_trip i hw) hmay ho hr, storeCell_trip _ _ _ hw]

theorem trippedClear_clears (hv : bit v 34 = true) (hact : bit (s.reg (offTrip i.val 2)) 35 = false) :
    WritesOne (.trippedClear c i v) s (offTrip i.val 2) (setFld (s.reg (offTrip i.val 2)) 34 34 0) :=
  writesOne_setReg c (offTrip i.val 2) v ((writeReg_trip ho hmay (by decide : 2 < 4)).trans
    (by simp only [State.tripStore, withOrder_reg, hv, hact, Bool.not_false, Bool.and_self, if_true, State.setRfld]))

theorem trippedClear_stays (h : bit v 34 = false ∨ bit (s.reg (offTrip i.val 2)) 35 = true) :
    WritesOne (.trippedClear c i v) s (offTrip i.val 2) (s.reg (offTrip i.val 2)) := by
  have hstay : (bit v 34 && !bit (s.reg (offTrip i.val 2)) 35) = false := by rcases h with h | h <;> simp [h]
  exact writesOne_same c (offTrip i.val 2) v ((writeReg_trip ho hmay (by decide : 2 < 4)).trans
    (by simp only [State.tripStore, withOrder_reg, hstay, Bool.false_eq_true, if_false]))

end

/-! ### Chopper phases (R413, R417) -/

section
variable {f : Fin 16} (hmay : MayWrite c s (0x3400 + 16 * (f.val / 2)))
include hmay

theorem writeReg_chop {w : Nat} (hw : w < 8) (hr : cellRefuses (offChop f.val w) v = false) :
    writeReg c (offChop f.val w) v s = .next ((s.withOrder c (offChop f.val w) v).chopStore f.val w v) := by
  rw [writeReg_cell (cellWord_chop f hw) hmay ho hr, storeCell_chop _ _ _ hw]

theorem tofaultClear_clears (hv : bit v 34 = true) :
    WritesOne (.tofaultClear c f v) s (offChop f.val 5) (setFld (s.reg (offChop f.val 5)) 34 34 0) := by
  have hr : cellRefuses (offChop f.val 5) v = false := cellRefuses_of_place (by unfold offChop; omega) (by unfold offChop; omega)
  exact writesOne_setReg c (offChop f.val 5) v ((writeReg_chop ho hmay (by decide : 5 < 8) hr).trans
    (by simp only [State.chopStore, hv, if_true, State.setRfld, withOrder_reg]))

theorem chopperPhaseWrite_off (hd : fld v 34 33 ≠ 3) (hk : 1 ≤ fld v 31 28) (hen : bit v 35 = false) :
    ∃ u, exec (.chopperPhaseWrite c f v) s = .next u ∧ u.reg (offChop f.val 0) = v ∧ (u.chop f.val).on = false ∧
      (∀ j, j ≠ f.val → u.chop j = s.chop j) ∧ (∀ o, o ≠ offChop f.val 0 → o ≠ offChop f.val 4 → u.reg o = s.reg o) ∧
      u = { s with regs := u.regs, chops := u.chops, free := u.free, orders := u.orders } := by
  have hexec : exec (.chopperPhaseWrite c f v) s = .next ((s.withOrder c (offChop f.val 0) v).chopStore f.val 0 v) :=
    writeReg_chop ho hmay (by decide : 0 < 8) (cellRefuses_of_fld hd)
  rw [chopStore_off hd hk hen] at hexec
  obtain ⟨hon, hchop, hreg, hframe⟩ := chopStop_effect ((s.withOrder c (offChop f.val 0) v).setReg (offChop f.val 0) v) f.val
  refine ⟨_, hexec, ?_, ?_, fun j hj => ?_, fun o h0 h4 => ?_, ?_⟩
  · exact (hreg _ (by unfold offChop; omega)).trans (setReg_reg _ _ _)
  · rw [setChop_chop]; exact hon
  · rw [setChop_chop_ne _ _ _ _ hj]; exact hchop j hj
  · exact (hreg o h4).trans (setReg_reg_ne _ _ _ _ h0)
  · generalize State.chopStop _ _ = t at hframe ⊢
    rw [hframe]; rfl

end

/-! ### Step generators (R304, R307) -/

section
variable {g : Fin 16} (hmay : MayWrite c s (offStep g.val 0))
include hmay

theorem writeReg_step {w : Nat} (hw : w < 8) :
    writeReg c (offStep g.val w) v s = .next ((s.withOrder c (offStep g.val w) v).stepStore g.val w v) := by
  have hr : cellRefuses (offStep g.val w) v = false := cellRefuses_of_place (by unfold offStep; omega) (by unfold offStep; omega)
  rw [writeReg_cell (cellWord_step g hw) hmay ho hr, storeCell_step _ _ _ hw]

theorem stepPosWrite_running (h : bit (s.reg (offStep g.val 0)) 0 = true) :
    WritesOne (.stepPosWrite c g v) s (offStep g.val 2) (s.reg (offStep g.val 2)) :=
  writesOne_same c (offStep g.val 2) v ((writeReg_step ho hmay (by decide : 2 < 8)).trans (by simp only [State.stepStore, withOrder_reg, h, if_true]))

theorem stepPosWrite_stopped (h : bit (s.reg (offStep g.val 0)) 0 = false) (hfree : ∀ j < 8, bit (s.reg (offChopper j)) 35 = false) :
    ∃ u, exec (.stepPosWrite c g v) s = .next u ∧ u.reg (offStep g.val 2) = v ∧ u.reg (offStep g.val 3) = 2 ^ 31 ∧
      (∀ o, o ≠ offStep g.val 2 → o ≠ offStep g.val 3 → u.reg o = s.reg o) ∧
      u = { s with regs := u.regs, orders := u.orders } := by
  have hpos : (s.withOrder c (offStep g.val 2) v).setPos g.val v = (s.withOrder c (offStep g.val 2) v).setReg (offStep g.val 2) v :=
    setPos_free hfree
  have hstore : (s.withOrder c (offStep g.val 2) v).stepStore g.val 2 v =
      ((s.withOrder c (offStep g.val 2) v).setReg (offStep g.val 2) v).setReg (offStep g.val 3) (2 ^ 31) := by
    simp only [State.stepStore, withOrder_reg, h, Bool.false_eq_true, if_false, hpos]
    rfl
  refine ⟨_, (writeReg_step ho hmay (by decide : 2 < 8)).trans (congrArg _ hstore), ?_, setReg_reg _ _ _, fun o h2 h3 => ?_, rfl⟩
  · rw [setReg_reg_ne _ _ _ _ (by unfold offStep; omega), setReg_reg]
  · rw [setReg_reg_ne _ _ _ _ h3, setReg_reg_ne _ _ _ _ h2, withOrder_reg]

theorem stepRunWrite_runs (hv : bit v 0 = true) (hl : s.cellsLive = true) :
    WritesOne (.stepRunWrite c g v) s (offStep g.val 0) (wd (4 * max 4 (min (fld v 9 2) 40) + 2 * b2n (bit v 1) + 1)) := by
  have hword : at_ (max 4 (min (fld v 9 2) 40)) 2 + at_ (b2n (bit v 1)) 1 + 1 =
      4 * max 4 (min (fld v 9 2) 40) + 2 * b2n (bit v 1) + 1 := by unfold at_; omega
  rw [← hword]
  exact writesOne_setReg c (offStep g.val 0) v ((writeReg_step ho hmay (by decide : 0 < 8)).trans
    (by simp only [State.stepStore, withOrder_cellsLive, hv, hl, Bool.and_self, Bool.true_or, b2n, if_true, Bool.not_true, Bool.false_and,
          Bool.false_eq_true, if_false]))

end

/-! ### Encoders (R446) -/

section
variable {e : Fin 16} (hmay : MayWrite c s (offEnc e.val 0))
include hmay

theorem writeReg_enc {w : Nat} (hw : w < 8) (hr : cellRefuses (offEnc e.val w) v = false) :
    writeReg c (offEnc e.val w) v s = .next ((s.withOrder c (offEnc e.val w) v).encStore e.val w v) := by
  rw [writeReg_cell (cellWord_enc e hw) hmay ho hr, storeCell_enc _ _ _ hw]

theorem encoderWrite_word0 (h : fld v 34 33 ≠ 3) :
    WritesOne (.encoderWrite c e 0 v) s (offEnc e.val 0) (v &&& 0xFC0000000) :=
  writesOne_setReg c (offEnc e.val 0) v ((writeReg_enc ho hmay (by decide : 0 < 8) (cellRefuses_of_fld h)).trans
    (by simp only [State.encStore, if_neg h]))

theorem writeReg_enc_count :
    writeReg c (offEnc e.val 1) v s = .next ((s.withOrder c (offEnc e.val 1) v).encStore e.val 1 v) :=
  writeReg_enc ho hmay (by decide : 1 < 8) (cellRefuses_of_place (by unfold offEnc; omega) (by unfold offEnc; omega))

theorem encoderWrite_count (h : bit (s.reg (offEnc e.val 0)) 35 = false) :
    WritesOne (.encoderWrite c e 1 v) s (offEnc e.val 1) (v &&& 0xFFFFFFFF) :=
  writesOne_setReg c (offEnc e.val 1) v ((writeReg_enc_count ho hmay).trans
    (by simp only [State.encStore, withOrder_reg, h, Bool.false_eq_true, if_false]))

theorem encoderWrite_enabled (h : bit (s.reg (offEnc e.val 0)) 35 = true) :
    WritesOne (.encoderWrite c e 1 v) s (offEnc e.val 1) (s.reg (offEnc e.val 1)) :=
  writesOne_same c (offEnc e.val 1) v ((writeReg_enc_count ho hmay).trans (by simp only [State.encStore, withOrder_reg, h, if_true]))

end

/-! ### Field points (R436, R438, R442) -/

theorem fieldInputWrite_queued {i : Fin 32} (hmay : MayWrite c s (offFin i.val 0)) (hf : fld v 30 17 ≤ 10000)
    (hne : v &&& 0xFFFFE07FF ≠ s.reg (offFin i.val 0)) :
    ∃ u, exec (.fieldInputWrite c i v) s = .next u ∧ u.reg (offFin i.val 0) = v &&& 0xFFFFE07FF ∧
      u.field = { s.field with queue := s.field.queue ++ [(i.val, v &&& 0xFFFFE07FF)] } ∧
      (∀ o, o ≠ offFin i.val 0 → u.reg o = s.reg o) ∧ u = { s with regs := u.regs, field := u.field, orders := u.orders } := by
  have hr : cellRefuses (offFin i.val 0) v = false := cellRefuses_of_place (by unfold offFin; omega) (by unfold offFin; omega)
  have hexec : exec (.fieldInputWrite c i v) s = .next ((s.withOrder c (offFin i.val 0) v).finStore i.val 0 v) := by
    rw [← storeCell_fin _ _ _ (by decide : 0 < 8)]
    exact writeReg_cell (cellWord_fin i (by decide : 0 < 8)) hmay ho hr
  have hfilt : ¬ 10000 < fld (v &&& 0xFFFFE07FF) 30 17 := by rw [fld_and _ _ (by decide)]; omega
  have hstore : (s.withOrder c (offFin i.val 0) v).finStore i.val 0 v =
      { (s.withOrder c (offFin i.val 0) v).setReg (offFin i.val 0) (v &&& 0xFFFFE07FF) with
        field := { s.field with queue := s.field.queue ++ [(i.val, v &&& 0xFFFFE07FF)] } } := by
    simp only [State.finStore, bne_self_eq_false, Bool.false_eq_true, if_false, if_neg hfilt, withOrder_reg, if_neg hne.symm]
    rfl
  exact ⟨_, hexec.trans (congrArg _ hstore), setReg_reg _ _ _, rfl, fun o h => setReg_reg_ne _ _ _ _ h, rfl⟩

theorem fieldOutputWrite_value {i : Fin 16} (hmay : MayWrite c s (offFout i.val 0)) :
    ∃ u, exec (.fieldOutputWrite c i v) s = .next u ∧ u.reg (offFout i.val 0) = setBit 0 35 (bit v 35 && s.cellsLive) ∧
      (∀ j, j ≠ offFout i.val 0 → u.reg j = s.reg j) ∧ u = { s with regs := u.regs, field := u.field, orders := u.orders } := by
  have hr : cellRefuses (offFout i.val 0) v = false := cellRefuses_of_place (by unfold offFout; omega) (by unfold offFout; omega)
  have hexec : exec (.fieldOutputWrite c i v) s = .next ((s.withOrder c (offFout i.val 0) v).foutStore i.val 0 v) := by
    rw [← storeCell_fout _ _ _ (by decide : 0 < 4)]
    exact writeReg_cell (cellWord_fout i (by decide : 0 < 4)) hmay ho hr
  exact ⟨_, hexec, setReg_reg _ _ _, fun j h => setReg_reg_ne _ _ _ _ h, rfl⟩

/-! ### Analogue conversion (R419, R428) -/

theorem adcInputWrite_writes {n : Fin 64} (hmay : MayWrite c s (offConv (n.val / 4) 0)) (hd : fld v 33 30 ≤ 12)
    (hsame : fld (s.reg (offAin n.val 0)) 35 30 = fld v 35 30) (hclr : bit v 29 = false) :
    WritesOne (.adcInputWrite c n v) s (offAin n.val 0) (v &&& 0xFF00007FF) := by
  have hr : cellRefuses (offAin n.val 0) v = false := cellRefuses_of_place (by unfold offAin; omega) (by unfold offAin; omega)
  have hdec : ¬ 12 < fld (v &&& 0xFF00007FF) 33 30 := by rw [fld_and _ _ (by decide)]; omega
  have hbit : bit (v &&& 0xFF00007FF) 29 = false := by rw [bit_and, hclr, Bool.false_and]
  have hmode : fld (s.reg (offAin n.val 0)) 35 30 = fld (v &&& 0xFF00007FF) 35 30 := by rw [hsame, fld_and _ _ (by decide)]
  refine writesOne_setReg c (offAin n.val 0) v ((writeReg_cell (cellWord_ain n (by decide : 0 < 8)) hmay ho hr).trans ?_)
  simp only [storeCell_ain _ _ n (by decide : 0 < 8), State.ainStore, if_neg hdec, hbit, Bool.false_and, Bool.false_eq_true, if_false,
    withOrder_reg, if_pos hmode]

theorem adcConverterWrite_writes {n : Fin 16} (hmay : MayWrite c s (offConv n.val 0)) (ha : fld v 27 21 ≤ 95) (hb : fld v 20 14 ≤ 95)
    (hq : fld v 13 9 ≤ 16) (hbusy : bit (s.reg offAdcCal) n.val = false) (hrun : bit (s.reg offAdcCal) 34 = false) :
    ∃ u, exec (.adcConverterWrite c n v) s = .next u ∧ u.reg (offConv n.val 0) = v &&& 0xFFFFFFE00 ∧
      (u.conv n.val).qptr = 0 ∧ (∀ o, o ≠ offConv n.val 0 → u.reg o = s.reg o) ∧
      u = { s with regs := u.regs, convs := u.convs, orders := u.orders } := by
  have hr : cellRefuses (offConv n.val 0) v = false := cellRefuses_of_place (by unfold offConv; omega) (by unfold offConv; omega)
  have hrange : ¬ (95 < fld v 27 21 ∨ 95 < fld v 20 14 ∨ 16 < fld v 13 9) := by omega
  have hword : setBit (v &&& 0xFFFFFFE00) 35 (bit v 35) = v &&& 0xFFFFFFE00 := by
    have hbit : bit (v &&& 0xFFFFFFE00) 35 = bit v 35 := by rw [bit_and]; exact Bool.and_true _
    rw [← hbit, setBit_self]
  have hexec : exec (.adcConverterWrite c n v) s = .next ((s.withOrder c (offConv n.val 0) v).convStore n.val 0 v) := by
    rw [← storeCell_conv _ _ _ (by decide : 0 < 16)]
    exact writeReg_cell (cellWord_conv n (by decide : 0 < 16)) hmay ho hr
  simp only [State.convStore, if_neg hrange, withOrder_reg, hbusy, hrun, Bool.not_false, Bool.and_true, hword] at hexec
  exact ⟨_, hexec, setReg_reg _ _ _, by rw [setConv_conv], fun o h => setReg_reg_ne _ _ _ _ h, rfl⟩

/-! ### Band slot cells (R356, R357) -/

theorem bandSlotCellWrite_writes {r : Fin 2} {i : Fin 1024} (hmay : MayWrite c s (offSlot r.val i.val 0)) :
    WritesOne (.bandSlotCellWrite c r i v) s (offSlot r.val i.val 0) (setBit (v &&& 0xE3FFFFFFF) 35
      (bit v 35 && s.slotFits r.val (v &&& 0xE3FFFFFFF) && !s.slotClash r.val i.val (v &&& 0xE3FFFFFFF))) := by
  have hr : cellRefuses (offSlot r.val i.val 0) v = false := cellRefuses_of_place (by unfold offSlot; omega) (by unfold offSlot; omega)
  have hbit : bit (v &&& 0xE3FFFFFFF) 35 = bit v 35 := by rw [bit_and]; exact Bool.and_true _
  refine writesOne_setReg c (offSlot r.val i.val 0) v ((writeReg_cell (cellWord_slot r i (by decide : 0 < 4)) hmay ho hr).trans ?_)
  rw [storeCell_slot _ _ _ _ (by decide : 0 < 4), State.slotStore, hbit]
  rfl

end

/-- DECAY 3 of a chopper phase is refused (R413, R615). -/
theorem chopperPhaseWrite_refused {c : CoreId} {v : Word} {s : State} {f : Fin 16} (hmay : MayWrite c s (0x3400 + 16 * (f.val / 2)))
    (h : fld v 34 33 = 3) : exec (.chopperPhaseWrite c f v) s = .next (s.refuse (coreKey c) 4) := by
  have hr : cellRefuses (offChop f.val 0) v = true := by
    have hlo : 0x3400 ≤ offChop f.val 0 := by unfold offChop; omega
    have hhi : offChop f.val 0 < 0x3480 := by unfold offChop; omega
    have hw : offChop f.val 0 % 8 = 0 := by unfold offChop; omega
    simp [cellRefuses, h, hlo, hhi, hw]
  exact writeReg_cell_refused (cellWord_chop f (by decide : 0 < 8)) hmay hr

/-- MODE 3 of an encoder is refused (R446, R615). -/
theorem encoderWrite_refused {c : CoreId} {v : Word} {s : State} {e : Fin 16} (hmay : MayWrite c s (offEnc e.val 0))
    (h : fld v 34 33 = 3) : exec (.encoderWrite c e 0 v) s = .next (s.refuse (coreKey c) 4) := by
  have hr : cellRefuses (offEnc e.val 0) v = true := by
    have hlo : 0x6400 ≤ offEnc e.val 0 := by unfold offEnc; omega
    have hhi : offEnc e.val 0 < 0x6480 := by unfold offEnc; omega
    have hw : offEnc e.val 0 % 8 = 0 := by unfold offEnc; omega
    simp [cellRefuses, h, hlo, hhi, hw]
  exact writeReg_cell_refused (cellWord_enc e (by decide : 0 < 8)) hmay hr

/-- Settles O30: the owner's or the Crown's write of each cell register comes to that register's rule (R17, R43). -/
theorem cellRegisterWrites : Obligations.CellRegisterWrites := by
  unfold Obligations.CellRegisterWrites
  intro c v s ho
  refine ⟨fun p hp => ?_, fun i hi => ?_, fun f hf => ?_, fun g hg => ?_, fun e he => ?_, fun i hi hfilt hne => ?_, fun o hfo => ?_,
    fun n hn hd hsame hclr => ?_, fun n hn ha hb hq hbusy hrun => ?_, fun r i hi => ?_⟩
  · exact ⟨setpwm_writes ho hp, fun hv hl hen => pwmEnWrite_rise ho hp hv hl hen, fun h => pwmEnWrite_off ho hp h,
      pwmShadowWrite_period ho hp, pwmShadowWrite_duty ho hp, pwmShadowWrite_fraction ho hp⟩
  · exact ⟨fun hv hact => trippedClear_clears ho hi hv hact, fun h => trippedClear_stays ho hi h⟩
  · exact ⟨fun hv => tofaultClear_clears ho hf hv, fun hd hk hen => chopperPhaseWrite_off ho hf hd hk hen,
      fun h => chopperPhaseWrite_refused hf h⟩
  · exact ⟨fun h => stepPosWrite_running ho hg h, fun h hfree => stepPosWrite_stopped ho hg h hfree,
      fun hv hl => stepRunWrite_runs ho hg hv hl⟩
  · exact ⟨fun h => encoderWrite_word0 ho he h, fun h => encoderWrite_refused he h, fun h => encoderWrite_count ho he h,
      fun h => encoderWrite_enabled ho he h⟩
  · exact fieldInputWrite_queued ho hi hfilt hne
  · exact fieldOutputWrite_value ho hfo
  · exact adcInputWrite_writes ho hn hd hsame hclr
  · exact adcConverterWrite_writes ho hn ha hb hq hbusy hrun
  · exact bandSlotCellWrite_writes ho hi

end Sys2Proof.Machine
end

section
/-! SUPPORT. Instructions that change a register besides their core: what the registers' state is after them (R17, R175). -/

namespace Sys2Proof.Machine

/-- What a read of the register at o may leave: all as it was, the register changed, or the maximum that a coordinate keeps changed
(R15, R88). -/
inductive Cleared (s : State) (o : Nat) : State → Prop
  | same : Cleared s o s
  | word (w : Word) : Cleared s o (s.setReg o w)
  | coords (x : Tab Coord) : Cleared s o { s with coords := x }

theorem Cleared.ite {s t u : State} {o : Nat} {p : Prop} [Decidable p] (ht : Cleared s o t) (hu : Cleared s o u) :
    Cleared s o (if p then t else u) := by
  split
  · exact ht
  · exact hu

theorem regClear_cleared (s : State) (o : Nat) : Cleared s o (s.regClear o) := by
  unfold State.regClear State.cellClear State.setRfld
  repeat' apply Cleared.ite
  all_goals constructor

/-- The registers, the coordinates and the orders alone may differ, and the mode is the same. -/
structure RegisterStep (s t : State) : Prop where
  same : t = { s with regs := t.regs, coords := t.coords, orders := t.orders }
  mode : t.mode = s.mode

theorem RegisterStep.refl (s : State) : RegisterStep s s := ⟨rfl, rfl⟩

theorem mode_setReg_of_ne (s : State) {o : Nat} (v : Word) (h : o ≠ offSysMode) : (s.setReg o v).mode = s.mode :=
  congrArg (fld · 3 0) (setReg_reg_ne _ _ _ _ h.symm)

/-- SYS.MODE has no field that a read clears. -/
theorem regClear_sysMode (s : State) : s.regClear offSysMode = s := rfl

theorem regClear_step (s : State) (o : Nat) : RegisterStep s (s.regClear o) := by
  by_cases h : o = offSysMode
  · rw [h, regClear_sysMode]; exact .refl s
  · have hcleared := regClear_cleared s o
    generalize s.regClear o = t at hcleared ⊢
    cases hcleared with
    | same => exact .refl s
    | word w => exact ⟨rfl, mode_setReg_of_ne s w h⟩
    | coords x => exact ⟨rfl, rfl⟩

/-- Whether a core issues an instruction depends on no register but SYS.MODE. -/
theorem RegisterStep.coreReady {s t : State} (h : RegisterStep s t) (c : CoreId) : coreReady c t = coreReady c s := by
  have hmode := h.mode
  rw [h.same] at hmode ⊢
  simp only [Machine.coreReady, State.runs, hmode]
  rfl

theorem RegisterStep.core {s t : State} (h : RegisterStep s t) (k : Nat) : t.core k = s.core k := by rw [h.same]; rfl

/-- The parts of requestReady. -/
theorem requestReady_iff (c : CoreId) (s : State) : requestReady c s = true ↔ coreReady c s = true ∧ s.twinRole (coreKey c) = none := by
  simp [requestReady]

/-- An instruction's end that puts its core back first. -/
theorem advance_setCore_self (t : State) (k : Nat) (pc : Word) : (t.setCore k (t.core k)).advance k pc = t.advance k pc := by
  simp only [State.advance, core_setCore, setCore_setCore]

section
variable {c : CoreId} {w : Word} {body : Nat → State → Res} {s t : State} (h : requestReady c s = true)
include h

/-- A request that faults (R141). -/
theorem runInstr_flt {code : Nat} {a : Word} (he : body (coreKey c) s = .flt code a s) :
    runInstr c w false body s = .next (s.takeFault (coreKey c) code a w) := by
  obtain ⟨hready, htwin⟩ := (requestReady_iff c s).1 h
  rw [runInstr_ready hready rfl (.inr htwin), he]
  rfl

/-- A request that changes registers and its core. -/
theorem runInstr_register_core (hstep : RegisterStep s t) (x : Core) (he : body (coreKey c) s = .next (t.setCore (coreKey c) x))
    (hx : x.task = (s.core (coreKey c)).task) :
    runInstr c w false body s = .next (t.instrEnd (coreKey c) { x with pc := (s.core (coreKey c)).pc + 1 }) := by
  obtain ⟨hready, htwin⟩ := (requestReady_iff c s).1 h
  rw [runInstr_ready hready rfl (.inr htwin), he]
  simp only [finishInstr]
  rw [advance_core ((hstep.coreReady c).trans hready) x _ (by rw [hstep.core]; exact hx)]

/-- A request that changes registers and leaves its core at the next word. -/
theorem runInstr_register (hstep : RegisterStep s t) (he : body (coreKey c) s = .next t) :
    runInstr c w false body s = .next (t.instrEnd (coreKey c) (s.afterI (coreKey c))) := by
  obtain ⟨hready, htwin⟩ := (requestReady_iff c s).1 h
  rw [runInstr_ready hready rfl (.inr htwin), he]
  simp only [finishInstr]
  rw [← advance_setCore_self, advance_core ((hstep.coreReady c).trans hready) _ _ rfl, hstep.core]
  rfl

end

end Sys2Proof.Machine
end

section
/-! The obligation of IOR, IOW and REGISTER_WRITE: each outcome in turn, then the whole statement. -/

namespace Sys2Proof.Machine

/-- The register that the fields of IOR and IOW name (R175). -/
def State.ioOffset (s : State) (k : Nat) (f : CF) : Nat := ((s.g k f.a.toNat).toNat + f.sel.toNat) % 2 ^ 20

/-- What IOR does once its word is fetched. -/
def iorBody (f : CF) (k : Nat) (s : State) : Res :=
  if regMapped (s.ioOffset k f) then .next ((s.regClear (s.ioOffset k f)).setG k f.d.toNat (s.regRead (s.ioOffset k f)))
  else if k < 64 then .flt 0x08 (wd (Config.sysBase + s.ioOffset k f)) s
  else .next ((s.refuse k 4).setG k f.d.toNat 0)

/-- What IOW does once its word is fetched. -/
def iowBody (f : CF) (k : Nat) (s : State) : Res :=
  match s.writeStop k (s.ioOffset k f) with
  | some (.fault code a) => .flt code a s
  | some .refused => .next (s.refuse k 4)
  | none => .next (s.doWrite k (s.ioOffset k f) (s.g k f.d.toNat))

theorem exec_ior (c : CoreId) (f : CF) (s : State) : exec (.ior c f) s = runInstr c (encC 0x72 f) false (iorBody f) s := rfl

theorem exec_iow (c : CoreId) (f : CF) (s : State) : exec (.iow c f) s = runInstr c (encC 0x73 f) false (iowBody f) s := rfl

/-- The registers at offsets 0 to 7 are read-only (R1). -/
theorem crownWrite_family (s : State) (k : Nat) {o : Nat} (v : Word) (h : o < 8) : s.crownWrite k o v = (s, 0) := by
  interval_cases o <;> rfl

/-! ### What stops a write -/

section
variable {s : State} {k o : Nat}

theorem writeStop_unmapped_tile (h : regMapped o = false) (hk : k < 64) :
    s.writeStop k o = some (.fault 0x08 (wd (Config.sysBase + o))) := by simp [State.writeStop, h, hk]

theorem writeStop_unmapped_crown (h : regMapped o = false) (hk : 64 ≤ k) : s.writeStop k o = some .refused := by
  simp [State.writeStop, h, hk]

theorem writeStop_noCell (h : regMapped o = true) (hk : k < 64) (hc : cellOf o = none) :
    s.writeStop k o = some (.fault 0x08 (wd (Config.sysBase + o))) := by simp [State.writeStop, h, hk, hc]

theorem writeStop_foreign {n : Nat} (h : regMapped o = true) (hk : k < 64) (hc : cellOf o = some n)
    (hn : Tab.get 0 s.owners n ≠ k + 1) : s.writeStop k o = some (.fault 0x09 (wd n)) := by
  simp [State.writeStop, h, hk, hc, hn]

theorem writeStop_crown (h : regMapped o = true) (hk : 64 ≤ k) : s.writeStop k o = none := by simp [State.writeStop, h, hk]

/-- A Crown write of a register of the family page changes nothing. -/
theorem doWrite_family (v : Word) (hk : 64 ≤ k) (h : o < 8) : s.doWrite k o v = s := by
  have hcell : cellOf o = none := by interval_cases o <;> rfl
  have hwrite : s.regWrite k o v = (s, 0) := by
    rw [State.regWrite, if_neg (by omega), hcell, if_neg (by decide), if_neg (by omega), crownWrite_family s k v h]
  simp only [State.doWrite, hwrite, if_true]

end

section
variable {c : CoreId} {f : CF} {s : State} (h : requestReady c s = true)
include h

theorem ior_mapped (ho : regMapped (s.ioOffset (coreKey c) f) = true) : exec (.ior c f) s = .next
    ((s.regClear (s.ioOffset (coreKey c) f)).instrEnd (coreKey c) (s.afterR (coreKey c) f.d.toNat (s.regRead (s.ioOffset (coreKey c) f)))) := by
  have hstep := regClear_step s (s.ioOffset (coreKey c) f)
  have hbody : iorBody f (coreKey c) s = .next ((s.regClear (s.ioOffset (coreKey c) f)).setCore (coreKey c)
      { s.core (coreKey c) with g := Tab.put 0 (s.core (coreKey c)).g f.d.toNat (s.regRead (s.ioOffset (coreKey c) f)) }) := by
    rw [← hstep.core]; exact if_pos ho
  rw [exec_ior, runInstr_register_core h hstep _ hbody rfl]
  rfl

theorem ior_unmapped (ho : regMapped (s.ioOffset (coreKey c) f) = false) (hk : coreKey c < 64) :
    Faults (.ior c f) c (encC 0x72 f) s 0x08 (wd (0x100000 + s.ioOffset (coreKey c) f)) := by
  have hbody : iorBody f (coreKey c) s = .flt 0x08 (wd (Config.sysBase + s.ioOffset (coreKey c) f)) s := by
    simp only [iorBody, ho, Bool.false_eq_true, if_false, if_pos hk]
  rw [Faults, exec_ior, runInstr_flt h hbody]
  rfl

theorem iow_fault {code : Nat} {a : Word} (hstop : s.writeStop (coreKey c) (s.ioOffset (coreKey c) f) = some (.fault code a)) :
    Faults (.iow c f) c (encC 0x73 f) s code a :=
  runInstr_flt h (by simp only [iowBody, hstop] : iowBody f (coreKey c) s = .flt code a s)

theorem iow_refused (hstop : s.writeStop (coreKey c) (s.ioOffset (coreKey c) f) = some .refused) :
    Completes (.iow c f) c s { s.afterI (coreKey c) with
      fl := setBit (s.core (coreKey c)).fl 5 true, errc := setFld (s.core (coreKey c)).errc 15 8 4 } := by
  have hbody : iowBody f (coreKey c) s = .next (s.setCore (coreKey c) { s.core (coreKey c) with
      fl := setBit (s.core (coreKey c)).fl 5 true, errc := setFld (s.core (coreKey c)).errc 15 8 4 }) := by
    simp only [iowBody, hstop, refuse_eq]
  rw [Completes, exec_iow, runInstr_register_core h (.refl s) _ hbody rfl]
  rfl

theorem iow_written {t : State} (hstop : s.writeStop (coreKey c) (s.ioOffset (coreKey c) f) = none) (hstep : RegisterStep s t)
    (ht : s.doWrite (coreKey c) (s.ioOffset (coreKey c) f) (s.g (coreKey c) f.d.toNat) = t) :
    exec (.iow c f) s = .next (t.instrEnd (coreKey c) (s.afterI (coreKey c))) :=
  runInstr_register h hstep (by simp only [iowBody, hstop, ht] : iowBody f (coreKey c) s = .next t)

end

/-! ### VEL of a step generator -/

section
variable {c : CoreId} {g : Fin 16} {s : State} {v : Word} (hmay : MayWrite c s (offStep g.val 0)) (ho : s.orders = [])
include hmay ho

theorem writeReg_vel :
    writeReg c (offStep g.val 1) v s = .next ((s.withOrder c (offStep g.val 1) v).setReg (offStep g.val 1) v) :=
  writeReg_step ho hmay (by decide : 1 < 8)

theorem doWrite_vel :
    s.doWrite (coreKey c) (offStep g.val 1) v = (s.withOrder c (offStep g.val 1) v).setReg (offStep g.val 1) v := by
  have h := writeReg_vel (v := v) hmay ho
  rw [writeReg, writeStop_may (cellWord_step g (by decide : 1 < 8)) hmay] at h
  exact Host.Outcome.next.inj h

theorem iow_vel {f : CF} (h : requestReady c s = true) (hoff : s.ioOffset (coreKey c) f = offStep g.val 1)
    (hv : s.g (coreKey c) f.d.toNat = v) : ∃ u, exec (.iow c f) s = .next u ∧ u.reg (offStep g.val 1) = v ∧
      (∀ j, j ≠ offStep g.val 1 → u.reg j = s.reg j) ∧
      u = { s.instrEnd (coreKey c) (s.afterI (coreKey c)) with regs := u.regs, orders := u.orders } := by
  have hne : offStep g.val 1 ≠ offSysMode := by unfold offStep offSysMode; omega
  refine ⟨_, iow_written h (by rw [hoff]; exact writeStop_may (cellWord_step g (by decide : 1 < 8)) hmay)
    ⟨rfl, mode_setReg_of_ne (s.withOrder c (offStep g.val 1) v) v hne⟩ (by rw [hoff, hv]; exact doWrite_vel hmay ho), ?_, fun j hj => ?_, rfl⟩
  · exact setReg_reg (s.withOrder c (offStep g.val 1) v) _ _
  · exact setReg_reg_ne (s.withOrder c (offStep g.val 1) v) _ _ _ hj

theorem registerWrite_vel : WritesOne (.registerWrite c (BitVec.ofNat 20 (offStep g.val 1)) v) s (offStep g.val 1) v := by
  have hoff : (BitVec.ofNat 20 (offStep g.val 1)).toNat = offStep g.val 1 :=
    (BitVec.toNat_ofNat _ _).trans (Nat.mod_eq_of_lt (by unfold offStep; omega))
  have hexec : exec (.registerWrite c (BitVec.ofNat 20 (offStep g.val 1)) v) s = writeReg c (offStep g.val 1) v s :=
    congrArg (writeReg c · v s) hoff
  exact writesOne_setReg c (offStep g.val 1) v (hexec.trans (writeReg_vel hmay ho))

end

/-- Settles O18: a read clears, a write is stopped as the register's place and owner say, or comes to the register's own rule (R17, R58,
R175). -/
theorem cellRegisterAccess : Obligations.CellRegisterAccess := by
  unfold Obligations.CellRegisterAccess
  refine ⟨fun c f s h => ?_, fun c g v s hmay ho => registerWrite_vel hmay ho⟩
  refine ⟨fun hm => ior_mapped h hm, fun hm hk => ⟨ior_unmapped h hm hk, iow_fault h (writeStop_unmapped_tile hm hk)⟩,
    fun hm hk => iow_refused h (writeStop_unmapped_crown hm hk), fun hm hk hc => iow_fault h (writeStop_noCell hm hk hc),
    fun n hm hk hc hn => iow_fault h (writeStop_foreign hm hk hc hn), fun hk hlt => ?_, fun g hoff hmay ho => ?_⟩
  · have hm : regMapped (s.ioOffset (coreKey c) f) = true :=
      regMapped_of_range (a := 0) (b := 8) (by decide) (Nat.zero_le _) (Nat.le_of_lt hlt)
    exact iow_written h (writeStop_crown hm hk) (.refl s) (doWrite_family _ hk hlt)
  · obtain ⟨u, hexec, hreg, hother, hframe⟩ := iow_vel hmay ho h hoff rfl
    simp only [hoff]
    exact ⟨u, hexec, hreg, hother, hframe⟩

end Sys2Proof.Machine
end

section
/-! SUPPORT. The registers that a use of line memory may change: the counters of what the decoder found (R64, R73). -/

namespace Sys2Proof.Machine

/-- The counters and the address that the decoder of line memory writes (R73). -/
def MemCounter (o : Nat) : Prop := offMemCorr ≤ o ∧ o ≤ offMemLastBad

theorem markDirty_reg (s : State) (l o : Nat) : (s.markDirty l).reg o = s.reg o := by
  unfold State.markDirty
  split <;> rfl

section
variable {o : Nat} (h : ¬ MemCounter o)
include h

theorem memCounter_ne {p : Nat} (hp : MemCounter p) : o ≠ p := fun he => h (he ▸ hp)

theorem retire_reg (s : State) (l : Nat) : (s.retire l).reg o = s.reg o := by
  have hne : o ≠ offMemRetired := memCounter_ne h ⟨by decide, by decide⟩
  unfold State.retire
  extract_lets used was m t
  have ht : t.reg o = s.reg o := incReg_reg_ne { s with mem := m } _ _ _ hne
  split
  · split
    · exact ht
    · exact ht
  · rfl

theorem decode_reg (s : State) (l : Nat) : (s.decode l).reg o = s.reg o := by
  have hcorr : o ≠ offMemCorr := memCounter_ne h ⟨by decide, by decide⟩
  have huncorr : o ≠ offMemUncorr := memCounter_ne h ⟨by decide, by decide⟩
  have hbad : o ≠ offMemLastBad := memCounter_ne h ⟨by decide, by decide⟩
  unfold State.decode
  extract_lets
  split
  · rfl
  split
  · rw [markDirty_reg, setReg_reg_ne _ _ _ _ hbad, incReg_reg_ne _ _ _ _ huncorr]
    rfl
  split
  · rfl
  split
  · rw [retire_reg h]; exact incReg_reg_ne s _ _ _ hcorr
  · exact incReg_reg_ne s _ _ _ hcorr

theorem lineWrite_reg (s : State) (l mask : Nat) (data : List Word) (poison : Bool) (owner : BitVec 2) :
    (s.lineWrite l mask data poison owner).reg o = s.reg o := by
  unfold State.lineWrite
  rw [markDirty_reg]
  split
  · rfl
  · exact decode_reg h s l

theorem spanWrite_reg (owner : BitVec 2) (poison : Bool) (fuel : Nat) (s : State) (a : Nat) (ws : List Word) :
    (State.spanWrite owner poison fuel s a ws).reg o = s.reg o := by
  induction fuel generalizing s a ws with
  | zero => rfl
  | succ n ih =>
    unfold State.spanWrite
    split
    · rfl
    · rw [ih, lineWrite_reg h]

theorem agentWrite_reg (s : State) (a : Nat) (ws : List Word) : (s.agentWrite a ws).reg o = s.reg o := spanWrite_reg h _ _ _ _ _ _

theorem decodes_reg (s : State) (l n : Nat) : (s.decodes l n).reg o = s.reg o :=
  List.foldlRecOn (motive := fun t => t.reg o = s.reg o) _ _ rfl fun t ht l _ => (decode_reg h t l).trans ht

end

end Sys2Proof.Machine
end

section
/-! SUPPORT. What the ways into HALT leave as it is (R38, R208, R545): the words that say what was declared, the output gate, what was sent,
the outputs that are off, and how many items of a stream no capture record holds. -/

namespace Sys2Proof.Machine

/-- SYS.MODE, CENSUS.STAT and PAIR.STAT. -/
abbrev Declares (o : Nat) : Prop := o = offSysMode ∨ o = offCensusStat ∨ o = offPair 0

theorem Declares.notCounter {o : Nat} (h : Declares o) : ¬ MemCounter o := by
  rcases h with rfl | rfl | rfl <;> simp [MemCounter, offSysMode, offCensusStat, offPair, offMemCorr, offMemLastBad]

/-- The registers of schedulers, cells and units lie above the three words. -/
theorem not_declares_of_le {o : Nat} (h : 0x81 ≤ o) : ¬ Declares o := by
  rintro (rfl | rfl | rfl) <;> exact absurd h (by decide)

/-- Items of stream i that no closed capture record holds (R33, R487). -/
def State.backlog (s : State) (i : Nat) : Nat :=
  (s.stream i).resident - if 2 ≤ i ∧ i < 18 then (s.cap (i - 2)).records.length else 0

/-- A step on the way into HALT. -/
structure HaltStep (s t : State) : Prop where
  word : ∀ o, Declares o → t.reg o = s.reg o
  gate : t.peer.gate = s.peer.gate
  sent : s.outbox ⊆ t.outbox
  undriven : ∀ p, (s.pair p).driven = false → (t.pair p).driven = false
  settled : s.exch.phase = .none → t.exch.phase = .none

/-- A step that also leaves the fieldbus ports as they are and adds no item to a stream that no record holds. -/
structure DrainStep (s t : State) : Prop extends HaltStep s t where
  cans : t.cans = s.cans
  backlog : ∀ i, t.backlog i ≤ s.backlog i

theorem HaltStep.refl (s : State) : HaltStep s s := ⟨fun _ _ => rfl, rfl, fun _ h => h, fun _ h => h, id⟩
theorem DrainStep.refl (s : State) : DrainStep s s := ⟨.refl s, rfl, fun _ => le_rfl⟩

theorem HaltStep.trans {s t u : State} (h : HaltStep s t) (g : HaltStep t u) : HaltStep s u :=
  ⟨fun o ho => (g.word o ho).trans (h.word o ho), g.gate.trans h.gate, fun _ hm => g.sent (h.sent hm),
    fun p hp => g.undriven p (h.undriven p hp), fun hp => g.settled (h.settled hp)⟩

theorem DrainStep.trans {s t u : State} (h : DrainStep s t) (g : DrainStep t u) : DrainStep s u :=
  ⟨h.toHaltStep.trans g.toHaltStep, g.cans.trans h.cans, fun i => (g.backlog i).trans (h.backlog i)⟩

theorem HaltStep.foldl {α : Type} {f : State → α → State} (h : ∀ s a, HaltStep s (f s a)) (l : List α) (s : State) :
    HaltStep s (l.foldl f s) :=
  List.foldlRecOn l f (.refl s) fun t ht a _ => ht.trans (h t a)

theorem DrainStep.foldl {α : Type} {f : State → α → State} (h : ∀ s a, DrainStep s (f s a)) (l : List α) (s : State) :
    DrainStep s (l.foldl f s) :=
  List.foldlRecOn l f (.refl s) fun t ht a _ => ht.trans (h t a)

theorem DrainStep.ite {s t u : State} {p : Prop} [Decidable p] (ht : DrainStep s t) (hu : DrainStep s u) :
    DrainStep s (if p then t else u) := by
  split
  · exact ht
  · exact hu

/-- What HaltStep looks at besides the registers. -/
def State.haltView (s : State) : Bool × List Msg × Tab Pwm × ExPhase := (s.peer.gate, s.outbox, s.pwm, s.exch.phase)

theorem HaltStep.of_view {s t : State} (h : t.haltView = s.haltView) (hw : ∀ o, Declares o → t.reg o = s.reg o) : HaltStep s t := by
  simp only [State.haltView, Prod.mk.injEq] at h
  obtain ⟨hgate, hout, hpwm, hphase⟩ := h
  exact ⟨hw, hgate, by rw [hout]; exact List.Subset.refl _, fun p hp => by rw [State.pair, hpwm]; exact hp, fun hp => hphase.trans hp⟩

theorem HaltStep.of_same {s t : State} (h : t.haltView = s.haltView) (hr : t.regs = s.regs) : HaltStep s t :=
  .of_view h fun o _ => by rw [State.reg, hr]; rfl

/-- What DrainStep looks at besides the registers. -/
def State.drainView (s : State) : (Bool × List Msg × Tab Pwm × ExPhase) × Tab Can × Tab Stream × Tab Capture :=
  (s.haltView, s.cans, s.census.streams, s.caps)

theorem DrainStep.of_view {s t : State} (h : t.drainView = s.drainView) (hw : ∀ o, Declares o → t.reg o = s.reg o) : DrainStep s t := by
  simp only [State.drainView, Prod.mk.injEq] at h
  obtain ⟨hview, hcans, hstreams, hcaps⟩ := h
  refine ⟨.of_view hview hw, hcans, fun i => le_of_eq ?_⟩
  simp only [State.backlog, State.stream, State.cap, hstreams, hcaps]

/-- The same for a state whose registers are all as before. -/
theorem DrainStep.of_same {s t : State} (h : t.drainView = s.drainView) (hr : t.regs = s.regs) : DrainStep s t :=
  .of_view h fun o _ => by rw [State.reg, hr]; rfl

theorem WriteStep.drains {s t : State} (h : WriteStep s t) (hw : ∀ o, Declares o → t.reg o = s.reg o) : DrainStep s t :=
  .of_view (by rw [h.same]; rfl) hw

section
variable (s : State)

theorem setReg_drains {o : Nat} (v : Word) (h : ¬ Declares o) : DrainStep s (s.setReg o v) :=
  .of_view rfl fun _ hp => setReg_reg_ne _ _ _ _ fun he => h (he ▸ hp)

theorem setRfld_drains {o : Nat} (hi lo v : Nat) (h : ¬ Declares o) : DrainStep s (s.setRfld o hi lo v) := setReg_drains s _ h
theorem incReg_drains {o : Nat} (k : Nat) (h : ¬ Declares o) : DrainStep s (s.incReg o k) := setReg_drains s _ h
theorem satRfld_drains {o : Nat} (hi lo k : Nat) (h : ¬ Declares o) : DrainStep s (s.satRfld o hi lo k) := setReg_drains s _ h

/-! ### Line memory, the spine and events -/

theorem decode_drains (l : Nat) : DrainStep s (s.decode l) :=
  (decode_write s l).drains fun _ h => decode_reg h.notCounter s l

theorem lineWrite_drains (l mask : Nat) (data : List Word) (poison : Bool) (owner : BitVec 2) :
    DrainStep s (s.lineWrite l mask data poison owner) :=
  (lineWrite_write s _ _ _ _ _).drains fun _ h => lineWrite_reg h.notCounter s _ _ _ _ _

theorem agentWrite_drains (a : Nat) (ws : List Word) : DrainStep s (s.agentWrite a ws) :=
  (agentWrite_write s a ws).drains fun _ h => agentWrite_reg h.notCounter s a ws

theorem agentRead_drains (a n : Nat) : DrainStep s (s.agentRead a n).2.2 :=
  (agentRead_write s a n).drains fun _ h => decodes_reg h.notCounter s _ _

theorem countFlit_drains (ok : Bool) : DrainStep s (s.countFlit ok) :=
  .ite (.refl s) (incReg_drains s 1 (by decide))

theorem perform_drains (r : SpineReq) (ok : Bool) : DrainStep s (s.perform r ok).1 := by
  have h := countFlit_drains s ok
  unfold State.perform
  extract_lets u
  split
  · exact h.trans (decode_drains _ _)
  · exact h.trans (lineWrite_drains _ _ _ _ _ _)
  · have hv : DrainStep s (u.decode r.line) := h.trans (decode_drains _ _)
    split
    · exact hv
    split
    · exact hv.trans (lineWrite_drains _ _ _ _ _ _)
    · exact hv
  · exact h

/-- A change of the spine. -/
theorem setSpine_drains (x : Spine) : DrainStep s { s with spine := x } := .of_same rfl rfl

theorem sendBack_drains (r : SpineReq) (ws : List Word) (p : Bool) : DrainStep s (s.sendBack r ws p).2 := by
  unfold State.sendBack
  split
  · generalize s.spine.cross (targetPort r.target) 0 r.cls ws r.mask p = c
    exact (setSpine_drains s c.2).trans (countFlit_drains _ c.1)
  · exact setSpine_drains s _

theorem serveOne_drains {s u : State} {t : Nat} {ok : Bool} {r : SpineReq} {x : List Word × Bool}
    (h : s.serveOne t ok = some (r, x, u)) : DrainStep s u := by
  unfold State.serveOne at h
  simp only [Option.map_eq_some_iff] at h
  obtain ⟨q, -, h⟩ := h
  injection h with _ h
  injection h with _ h
  rw [← h]
  exact ((setSpine_drains s _).trans (perform_drains _ q ok)).trans (sendBack_drains _ _ _ _)

theorem drainWhere_drains (p : SpineReq → Bool) (fuel : Nat) (s : State) : DrainStep s (State.drainWhere p fuel s) := by
  induction fuel generalizing s with
  | zero => exact .refl s
  | succ n ih =>
    unfold State.drainWhere
    split
    · exact .refl s
    split
    · exact .refl s
    · next h => exact (serveOne_drains h).trans (ih _)

theorem freeSlot_drains (port cls fuel : Nat) (s : State) : DrainStep s (State.freeSlot port cls fuel s) := by
  induction fuel generalizing s with
  | zero => exact .refl s
  | succ n ih =>
    unfold State.freeSlot
    split
    · exact .refl s
    cases portTarget port with
    | none => exact .refl s
    | some t =>
      simp only [Option.bind_some]
      split
      · exact .refl s
      · next h => exact (serveOne_drains h).trans (ih _)

theorem comeBack_drains (a : SpineAck) : DrainStep s (s.comeBack a) :=
  (freeSlot_drains a.port a.cls _ s).trans ((setSpine_drains _ _).trans (setSpine_drains _ _))

theorem drainAll_drains : DrainStep s s.drainAll := (drainWhere_drains _ _ s).trans (DrainStep.foldl comeBack_drains _ _)

/-- More messages have been sent. -/
theorem send_drains {ms : List Msg} (h : s.outbox ⊆ ms) : DrainStep s { s with outbox := ms } :=
  ⟨⟨fun _ _ => rfl, rfl, h, fun _ hp => hp, id⟩, rfl, fun _ => le_rfl⟩

theorem msix_drains (v : Nat) : DrainStep s (s.msix v) := by
  have hview : (s.msix v).drainView = State.drainView { s with outbox := (s.msix v).outbox } := by rw [msix_eq]; rfl
  have hregs : (s.msix v).regs = s.regs := by rw [msix_eq]
  have hout : s.outbox ⊆ (s.msix v).outbox := by
    unfold State.msix
    split
    · exact List.Subset.refl _
    · exact List.subset_append_left _ _
  exact (send_drains s hout).trans (.of_same hview hregs)

theorem eventEntry_drains (a b c : Word) : DrainStep s (s.eventEntry a b c) := by
  unfold State.eventEntry
  extract_lets t n u
  have hu : DrainStep u { u with host := { u.host with evpi := wd (n + 1) } } := .of_same rfl rfl
  exact ((agentWrite_drains s _ _).trans hu).trans (msix_drains _ _)

/-! ### Lanes, axes and forces -/

theorem logConflict_drains (x : Conflict) : DrainStep s (s.logConflict x) :=
  (agentWrite_drains s _ _).trans (incReg_drains _ _ (by decide))

theorem flushConflicts_drains (kind n : Nat) : DrainStep s (s.flushConflicts kind n) := by
  unfold State.flushConflicts
  extract_lets own
  exact (DrainStep.of_same (s := s) (t := { s with conflicts := s.conflicts.filter fun x => !own x }) rfl rfl).trans
    (DrainStep.foldl logConflict_drains _ _)

theorem samplePassed_drains (n : Nat) (c : Option Nat) : DrainStep s (s.samplePassed n c) := by
  unfold State.samplePassed
  extract_lets t stays
  exact (DrainStep.of_same (s := s) (t := { t with orders := t.orders.filter stays }) rfl rfl).trans (flushConflicts_drains _ _ _)

theorem axisLeave_drains (a : Nat) : DrainStep s (s.axisLeave a) := by
  unfold State.axisLeave
  extract_lets x y
  split
  · exact .refl s
  split
  · exact .of_same rfl rfl
  · exact .of_same rfl rfl

theorem lanesOff_drains : DrainStep s s.lanesOff := by
  refine (DrainStep.foldl (fun t e => ?_) _ s).trans (DrainStep.foldl axisLeave_drains _ _)
  have ht : DrainStep t (t.setLane e.1 e.2.stopped) := .of_same rfl rfl
  exact (ht.trans (samplePassed_drains _ _ _)).trans (flushConflicts_drains _ _ _)

theorem cancelCues_drains (p : Cue → Bool) (reason : Nat) : DrainStep s (s.cancelCues p reason) := .of_same rfl rfl

theorem closeSeg_drains (n : Nat) : DrainStep s (s.closeSeg n) := by
  unfold State.closeSeg
  split
  · exact .refl s
  · exact .of_same rfl rfl

end

end Sys2Proof.Machine
end

section
/-! SUPPORT. The units that stop on the way into HALT: histories, captures, forces and cells, each a step that adds nothing to a stream
(R410, R433, R475, R484, R487). -/

namespace Sys2Proof.Machine

theorem Tab.get_mapTab {α : Type} {d : α} {f : α → α} (h : f d = d) (t : Tab α) (k : Nat) :
    Tab.get d (mapTab f t) k = f (Tab.get d t k) := by
  induction t with
  | nil => exact h.symm
  | cons e r ih =>
    obtain ⟨j, v⟩ := e
    by_cases hj : j = k
    · simp [mapTab, Tab.get, hj]
    · have ih' : Tab.get d (List.map (fun e => (e.1, f e.2)) r) k = f (Tab.get d r k) := ih
      simp [mapTab, Tab.get, hj, ih']

theorem AnalogueStep.drains {s t : State} (h : AnalogueStep s t) (hw : ∀ o, Declares o → t.reg o = s.reg o) : DrainStep s t :=
  .of_view (by rw [h]; rfl) hw

section
variable (s : State)

/-! ### Streams and capture units -/

@[simp] theorem setCap_stream (u : Nat) (x : Capture) (i : Nat) : (s.setCap u x).stream i = s.stream i := rfl
@[simp] theorem produce_cap (i n u : Nat) : (s.produce i n).cap u = s.cap u := rfl
@[simp] theorem incReg_cap (o k u : Nat) : (s.incReg o k).cap u = s.cap u := rfl
@[simp] theorem drop_cap (i r n u : Nat) : (s.drop i r n).cap u = s.cap u := rfl

theorem drop_drains (i r n : Nat) : DrainStep s (s.drop i r n) := by
  refine ⟨⟨fun _ _ => rfl, rfl, List.Subset.refl _, fun _ h => h, id⟩, rfl, fun j => ?_⟩
  by_cases h : j = i
  · subst h
    simp only [State.backlog, drop_stream]
    exact Nat.sub_le_sub_right (Nat.sub_le _ _) _
  · simp only [State.backlog, drop_stream_ne _ _ _ _ _ h]
    exact le_rfl

/-- A unit that keeps at least as many closed records. -/
theorem setCap_drains (u : Nat) (x : Capture) (h : (s.cap u).records.length ≤ x.records.length) : DrainStep s (s.setCap u x) := by
  refine ⟨⟨fun _ _ => rfl, rfl, List.Subset.refl _, fun _ h => h, id⟩, rfl, fun j => ?_⟩
  simp only [State.backlog, setCap_stream]
  by_cases hj : j - 2 = u
  · rw [hj, setCap_cap]
    split
    · exact Nat.sub_le_sub_left h _
    · exact le_rfl
  · rw [setCap_cap_ne _ _ _ _ hj]

/-- Every unit changed in the same way, which leaves its records. -/
theorem mapCaps_drains (f : Capture → Capture) (h0 : f {} = {}) (h : ∀ x, (f x).records = x.records) :
    DrainStep s { s with caps := mapTab f s.caps } := by
  refine ⟨⟨fun _ _ => rfl, rfl, List.Subset.refl _, fun _ h => h, id⟩, rfl, fun j => le_of_eq ?_⟩
  have hcap : State.cap { s with caps := mapTab f s.caps } (j - 2) = f (s.cap (j - 2)) := Tab.get_mapTab h0 _ _
  rw [State.backlog, hcap, h]
  rfl

/-- A record closes into a buffer. -/
theorem capKept_drains {u : Nat} (hu : u < 16) (x : Capture) (h : x.records.length = (s.cap u).records.length + 1) :
    DrainStep s ((s.produce (strCap u) 1).setCap u x) := by
  refine ⟨⟨fun _ _ => rfl, rfl, List.Subset.refl _, fun _ h => h, id⟩, rfl, fun j => ?_⟩
  simp only [State.backlog, setCap_stream]
  by_cases hj : j = strCap u
  · have hj2 : j - 2 = u := by unfold strCap at hj; omega
    have hr : 2 ≤ j ∧ j < 18 := by unfold strCap at hj; omega
    rw [if_pos hr, if_pos hr, hj2, setCap_cap, hj, produce_stream, h]
    simp only
    omega
  · rw [produce_stream_ne _ _ _ _ hj]
    split
    · have hj2 : j - 2 ≠ u := by unfold strCap at hj; omega
      rw [setCap_cap_ne _ _ _ _ hj2]
      exact le_rfl
    · exact le_rfl

/-- An item that is dropped as soon as it is there. -/
theorem produce_drop_drains (i r : Nat) : DrainStep s ((s.produce i 1).drop i r 1) := by
  refine ⟨⟨fun _ _ => rfl, rfl, List.Subset.refl _, fun _ h => h, id⟩, rfl, fun j => ?_⟩
  by_cases h : j = i
  · subst h
    simp only [State.backlog, drop_stream, produce_stream, Nat.add_sub_cancel]
    exact le_rfl
  · simp only [State.backlog, drop_stream_ne _ _ _ _ _ h, produce_stream_ne _ _ _ _ h]
    exact le_rfl

theorem capIdle_drains (u : Nat) : DrainStep s (s.capIdle u) := setCap_drains s u _ le_rfl

theorem capPost_drains (u t kind b : Nat) : DrainStep s (s.capPost u t kind b) := .of_same rfl rfl

theorem capClose_drains {u : Nat} (hu : u < 16) (cut : Bool) : DrainStep s (s.capClose u cut) := by
  have hcount : DrainStep s (s.incReg (offCap u 1) 1) := incReg_drains s 1 (not_declares_of_le (by unfold offCap; omega))
  unfold State.capClose
  extract_lets x ws first busy b t v y rearm
  clear_value b
  have hv : DrainStep s v := by
    simp only [v]
    split
    · exact hcount.trans (capKept_drains _ hu _ (by rw [List.length_append, incReg_cap, List.length_singleton]))
    · have hfull : ¬ Declares (offCap u 3) := not_declares_of_le (by unfold offCap; omega)
      exact ((hcount.trans (produce_drop_drains _ (strCap u) 0x0C)).trans (satRfld_drains _ _ _ _ hfull)).trans (capPost_drains _ _ _ _ _)
  split
  · exact hv.trans (setCap_drains v u _ le_rfl)
  · exact (hv.trans (setCap_drains v u { y with missed := 0 } le_rfl)).trans (capIdle_drains _ u)

theorem capsCut_drains : DrainStep s s.capsCut :=
  List.foldlRecOn (motive := DrainStep s) _ _ (.refl s) fun t ht u hu =>
    (ht.trans (.ite (capClose_drains t (List.mem_range.1 hu) true) (.refl t))).trans (capIdle_drains _ u)

theorem capDrop_drains (u reason : Nat) :
    DrainStep s ((s.drop (strCap u) reason (s.cap u).records.length).setCap u { s.cap u with records := [] }) := by
  refine ⟨⟨fun _ _ => rfl, rfl, List.Subset.refl _, fun _ h => h, id⟩, rfl, fun j => ?_⟩
  simp only [State.backlog, setCap_stream]
  by_cases hj : j = strCap u
  · have hj2 : j - 2 = u := by unfold strCap at hj; omega
    rw [hj2, setCap_cap, hj, drop_stream]
    split
    · simp
    · exact Nat.sub_le_sub_right (Nat.sub_le _ _) _
  · rw [drop_stream_ne _ _ _ _ _ hj]
    split
    · have hj2 : j - 2 ≠ u := by unfold strCap at hj; omega
      rw [setCap_cap_ne _ _ _ _ hj2]
      exact le_rfl
    · exact le_rfl

theorem capsDrop_drains (reason : Nat) : DrainStep s (s.capsDrop reason) := DrainStep.foldl (fun t u => capDrop_drains t u reason) _ s

/-! ### The history -/

theorem setHist_drains (x : Hist) : DrainStep s { s with hist := x } := .of_same rfl rfl

theorem histDrop_drains (reason : Nat) (staging : Bool) : DrainStep s (s.histDrop reason staging) := by
  unfold State.histDrop
  extract_lets n t v h w x y
  have ht : DrainStep s t := (drop_drains s _ _ _).trans (setReg_drains _ _ (by decide))
  have hv : DrainStep s v := ht.trans (setReg_drains _ _ (by decide))
  have hw : DrainStep s w := hv.trans (setHist_drains v _)
  split
  · exact ((hw.trans (drop_drains _ _ _ _)).trans (setRfld_drains _ _ _ _ (by decide))).trans (setHist_drains _ _)
  · exact hw

theorem closeAll_drains : DrainStep s s.closeAll := DrainStep.foldl closeSeg_drains _ _

/-! ### Forces -/

theorem forceSync_drains : DrainStep s s.forceSync := by
  unfold State.forceSync
  extract_lets w u mark v t
  refine DrainStep.trans ?_ (setReg_drains t w (by decide))
  refine .ite (.refl s) (DrainStep.trans ?_ (send_drains v (List.subset_append_left _ _)))
  have hu : DrainStep s u := closeAll_drains s
  refine .ite (hu.trans (mapCaps_drains u mark rfl fun x => ?_)) hu
  simp only [mark]
  split <;> rfl

theorem forcesEmpty_drains : DrainStep s s.forcesEmpty :=
  (DrainStep.foldl (fun t a => agentWrite_drains t a _) _ s).trans (forceSync_drains _)

/-! ### Cells -/

theorem setPair_drains (p : Nat) (x : Pwm) (h : x.driven = false) : DrainStep s (s.setPair p x) := by
  refine ⟨⟨fun _ _ => rfl, rfl, List.Subset.refl _, fun j hj => ?_, id⟩, rfl, fun _ => le_rfl⟩
  by_cases hp : j = p
  · rw [hp, setPair_pair, h]
  · rw [setPair_pair_ne _ _ _ _ hp, hj]

theorem setChop_drains (f : Nat) (x : Chop) : DrainStep s (s.setChop f x) := .of_same rfl rfl

theorem chopStop_drains (f : Nat) : DrainStep s (s.chopStop f) := by
  obtain ⟨-, -, hreg, hframe⟩ := chopStop_effect s f
  refine .of_view (by rw [hframe]; rfl) fun o ho => hreg o fun he => ?_
  exact not_declares_of_le (o := offChop f 4) (by unfold offChop; omega) (he ▸ ho)

theorem not_declares_chop (f w : Nat) : ¬ Declares (offChop f w) := not_declares_of_le (by unfold offChop; omega)
theorem not_declares_step (g w : Nat) : ¬ Declares (offStep g w) := not_declares_of_le (by unfold offStep; omega)

theorem chopOn_drains (f : Nat) : DrainStep s (s.chopOn f) :=
  (satRfld_drains s _ _ _ (not_declares_chop f 5)).trans (setChop_drains _ f _)

theorem chopLearn_drains (f valley : Nat) (target : Int) : DrainStep s (s.chopLearn f valley target) := by
  have h : DrainStep s (s.setRfld (offChop f 4) 11 0 valley) := setRfld_drains s _ _ _ (not_declares_chop f 4)
  unfold State.chopLearn
  extract_lets t w pk e o
  exact .ite (h.trans (setReg_drains _ _ (not_declares_chop f 3))) h

theorem chopSetTarget_drains (f v : Nat) : DrainStep s (s.chopSetTarget f v) := by
  have h : DrainStep s (s.setReg (offChop f 1) (wd (v % 4096))) := setReg_drains s _ (not_declares_chop f 1)
  unfold State.chopSetTarget
  extract_lets old t x
  have hdraw : DrainStep s t.drawSense.2 := h.trans (.of_same rfl rfl)
  split
  · exact h.trans (chopStop_drains t f)
  split
  · split
    · exact (hdraw.trans (setRfld_drains _ _ _ _ (not_declares_chop f 4))).trans (chopOn_drains _ f)
    · exact (hdraw.trans (chopLearn_drains _ f _ _)).trans (chopOn_drains _ f)
  · exact h

/-- What a write of word 0 of a phase does (R413). -/
theorem chopStore_zero (f : Nat) (v : Word) : s.chopStore f 0 v =
    if fld v 34 33 = 3 then s
    else
      let en := bit v 35 && s.cellsLive
      let v := setBit v 35 en
      let v := if fld v 31 28 = 0 then setFld v 31 28 1 else v
      let s := s.setReg (offChop f 0) v
      let x := s.chop f
      if !en then (s.chopStop f).setChop f { (s.chopStop f).chop f with hadOn := false }
      else if bit (s.reg (offChop f 5)) 34 then s
      else s.setChop f { x with locked := false } := rfl

theorem chopStore_drains (f : Nat) (v : Word) : DrainStep s (s.chopStore f 0 v) := by
  rw [chopStore_zero]
  split
  · exact .refl s
  extract_lets en v' v'' t x
  have ht : DrainStep s t := setReg_drains s _ (not_declares_chop f 0)
  split
  · exact (ht.trans (chopStop_drains t f)).trans (setChop_drains _ f _)
  split
  · exact ht
  · exact ht.trans (setChop_drains _ f _)

theorem stepFollow_drains (g : Nat) : DrainStep s (s.stepFollow g) := by
  refine DrainStep.foldl (fun t c => ?_) _ s
  extract_lets w pos x
  exact .ite ((chopSetTarget_drains t _ _).trans (chopSetTarget_drains _ _ _)) (.refl t)

theorem setStep_drains (g : Nat) (x : StepGen) : DrainStep s (s.setStep g x) := .of_same rfl rfl

theorem withdrawStep_drains (g : Nat) : DrainStep s (s.withdrawStep g) := by
  unfold State.withdrawStep
  extract_lets x
  split
  · exact .refl s
  · exact (setReg_drains s _ (not_declares_step g 2)).trans (setStep_drains _ g _)

theorem stepStop_drains (g : Nat) : DrainStep s (s.stepStop g) :=
  ((setRfld_drains s _ _ _ (not_declares_step g 0)).trans (withdrawStep_drains _ g)).trans (setStep_drains _ g _)

theorem stepHalt_drains (g : Nat) : DrainStep s (s.stepHalt g) :=
  .ite (stepStop_drains s g) ((stepStop_drains s g).trans (stepFollow_drains _ g))

theorem convEmpty_drains (k : Nat) : DrainStep s (s.convEmpty k) :=
  (convEmpty_analogue s k).drains fun _ ho => convEmpty_reg s k (by rcases ho with rfl | rfl | rfl <;> decide)

theorem foutStore_drains (o : Nat) : DrainStep s (s.foutStore o 0 0) := by
  have hne : ¬ Declares (offFout o 0) := not_declares_of_le (by unfold offFout; omega)
  unfold State.foutStore
  extract_lets f g
  exact .ite (.refl s) ((DrainStep.of_same (s := s) (t := { s with field := g }) rfl rfl).trans (setReg_drains _ _ hne))

end

end Sys2Proof.Machine
end

section
/-! SUPPORT. HALT is entered (R38, R208, R545, R571, R572): what every way into it keeps, what a paired active module gives up, and that
nothing stays resident. -/

namespace Sys2Proof.Machine

section
variable (s : State)

/-! ### The parts of HALT -/

theorem faultKind_drains (k : Nat) : DrainStep s (s.faultKind k) := .ite (.refl s) (.of_same rfl rfl)

theorem haltUnits_drains : DrainStep s s.haltUnits :=
  ((drainAll_drains s).trans (histDrop_drains _ _ _)).trans (capsDrop_drains _ _)

theorem pwmOff_drains (p : Nat) : DrainStep s ((s.setReg (offPwm p 0) (setBit (s.reg (offPwm p 0)) 0 false)).setPair p
    { s.pair p with start := 0, driven := false }) :=
  (setReg_drains s _ (not_declares_of_le (by unfold offPwm; omega))).trans (setPair_drains _ p _ rfl)

/-- The output stages are off (R410). -/
def State.pwmOff (s : State) : State :=
  (List.range 24).foldl (fun s p =>
    (s.setReg (offPwm p 0) (setBit (s.reg (offPwm p 0)) 0 false)).setPair p { s.pair p with start := 0, driven := false }) s

theorem pwmOff_driven {p : Nat} (hp : p < 24) : (s.pwmOff.pair p).driven = false := by
  refine foldl_establishes (P := fun t => (t.pair p).driven = false) (fun t => ?_) (fun t j hj h => ?_) (List.mem_range.2 hp) s
  · rw [setPair_pair]
  · exact (pwmOff_drains t j).undriven p h

theorem cellsOff_eq : ∃ t, DrainStep s.pwmOff t ∧ s.cellsOff = t := by
  refine ⟨_, ?_, rfl⟩
  refine DrainStep.trans ?_ (DrainStep.foldl (fun t o => foutStore_drains t o) _ _)
  refine DrainStep.trans ?_ (DrainStep.foldl (fun t n => setRfld_drains t _ _ _ (not_declares_of_le (by unfold offAin; omega))) _ _)
  refine DrainStep.trans ?_ (DrainStep.foldl (fun t k => (setRfld_drains t _ _ _ (not_declares_of_le (by unfold offConv; omega))).trans
    (convEmpty_drains _ k)) _ _)
  refine DrainStep.trans ?_ (DrainStep.foldl (fun t f => chopStore_drains t f _) _ _)
  exact DrainStep.foldl (fun t g => .ite (stepHalt_drains t g) (.refl t)) _ _

theorem cellsOff_drains : DrainStep s s.cellsOff := by
  obtain ⟨t, ht, he⟩ := cellsOff_eq s
  rw [he]
  exact (DrainStep.foldl pwmOff_drains _ s).trans ht

theorem cellsOff_driven {p : Nat} (hp : p < 24) : (s.cellsOff.pair p).driven = false := by
  obtain ⟨t, ht, he⟩ := cellsOff_eq s
  rw [he]
  exact ht.undriven p (pwmOff_driven s hp)

/-! ### An exchange that is given up -/

theorem passBuf_drains (b len use_ vec : Nat) (bad : Bool) : DrainStep s (s.passBuf b len use_ vec bad) := by
  unfold State.passBuf
  split
  · exact .refl s
  · exact ((((agentRead_drains s _ _).trans (agentWrite_drains _ _ _)).trans (agentWrite_drains _ _ _)).trans
      (agentWrite_drains _ _ _)).trans (msix_drains _ _)

theorem exReport_drains (buf result pause us : Nat) (insts forces : List Word) (stay : Bool) :
    DrainStep s (s.exReport buf result pause us insts forces stay) := by
  unfold State.exReport
  split
  · exact .refl s
  extract_lets t ws ws'
  split
  · exact (agentWrite_drains s _ _).trans (agentWrite_drains _ _ _)
  · exact (agentWrite_drains s _ _).trans (passBuf_drains _ _ _ _ _ _)

theorem setTask_drains (n : Nat) (x : Task) : DrainStep s (s.setTask n x) := .of_same rfl rfl

theorem setSignal_drains (n : Nat) (x : Signal) : DrainStep s (s.setSignal n x) := .of_same rfl rfl

theorem setSignals_drains (es : List (Nat × Word × Word)) : DrainStep s ((s.setSignals es).getD s) := by
  unfold State.setSignals
  extract_lets es' t sum
  have ht : DrainStep s t := DrainStep.foldl (fun u e =>
    ((closeSeg_drains u _).trans (agentWrite_drains _ _ _)).trans (setSignal_drains _ _ _)) _ s
  split
  · exact ht.trans (setReg_drains _ _ (by decide))
  · exact .refl s

theorem exAbort_drains : DrainStep s s.exAbort := by
  unfold State.exAbort
  extract_lets x a b t u us v
  split
  · exact .refl s
  have ht : DrainStep s t := by
    refine .ite (DrainStep.trans ?_ (setSignals_drains b _)) (.refl s)
    exact (DrainStep.foldl (fun u e => setTask_drains u _ _) _ s).trans (DrainStep.foldl (fun u e => agentWrite_drains u _ _) _ _)
  have hu : DrainStep s u := ht.trans (DrainStep.foldl (fun u n => setTask_drains u _ _) _ _)
  have hend : DrainStep v { v with exch := {} } :=
    ⟨⟨fun _ _ => rfl, rfl, List.Subset.refl _, fun _ h => h, fun _ => rfl⟩, rfl, fun _ => le_rfl⟩
  exact (hu.trans (exReport_drains u _ _ _ _ _ _ _)).trans hend

/-! ### The fieldbus ports take the policy of HALT -/

theorem produce_halts (i n : Nat) : HaltStep s (s.produce i n) := .of_same rfl rfl

theorem trace_halts (n reason tile : Nat) : HaltStep s (s.trace n reason tile) := by
  unfold State.trace
  split
  · exact .refl s
  extract_lets q m t w1 u
  have hrd : ¬ Declares (offTrrd q) := not_declares_of_le (by unfold offTrrd; omega)
  have hwr : ¬ Declares (offTrwr q) := not_declares_of_le (by unfold offTrwr; omega)
  have ht : DrainStep s t := .ite ((incReg_drains s _ hrd).trans (drop_drains _ _ _ _)) (.refl s)
  exact ((ht.trans (agentWrite_drains t _ _)).trans (incReg_drains _ _ hwr)).toHaltStep.trans (produce_halts _ _ _)

theorem post_halts (n : Nat) (w : Word) : HaltStep s (s.post n w) := by
  unfold State.post State.postTo
  extract_lets t
  split
  · exact .refl s
  split
  · exact .refl s
  split
  · exact ((produce_halts s _ _).trans (drop_drains _ _ _ _).toHaltStep).trans (trace_halts _ _ _ _)
  · exact (produce_halts s _ _).trans (setTask_drains _ _ _).toHaltStep

theorem canEvent_halts (p w : Nat) : HaltStep s (s.canEvent p w) := by
  unfold State.canEvent State.postField
  extract_lets w'
  split
  · exact (eventEntry_drains s _ _ _).toHaltStep
  split
  · exact (eventEntry_drains s _ _ _).toHaltStep
  · exact post_halts s _ _

theorem setCan_halts (p : Nat) (x : Can) : HaltStep s (s.setCan p x) := .of_same rfl rfl

theorem boxEnd_halts (p m result : Nat) : HaltStep s (s.boxEnd p m result) := by
  unfold State.boxEnd
  extract_lets b t
  have ht : HaltStep s t := setCan_halts s p _
  split
  · exact ht.trans (canEvent_halts t _ _)
  · exact ht

theorem boxDrop_halts (p m reason : Nat) : HaltStep s (s.boxDrop p m reason) :=
  (DrainStep.ite (drop_drains s _ _ _) (.refl s)).toHaltStep

theorem refDrop_halts (p reason : Nat) : HaltStep s (s.refDrop p reason) := by
  unfold State.refDrop
  split
  · exact (setCan_halts s p _).trans (drop_drains _ _ _ _).toHaltStep
  · exact .refl s

theorem not_declares_can (p w : Nat) : ¬ Declares (offCan p w) := not_declares_of_le (by unfold offCan; omega)

theorem canSettle_halts (p mode : Nat) : HaltStep s (s.canSettle p mode) := by
  unfold State.canSettle
  extract_lets pol t reason c u
  have ht : HaltStep s t := (setRfld_drains s _ _ _ (not_declares_can p 3)).toHaltStep
  split
  · exact .refl s
  split
  · exact ht
  have hu : HaltStep s (u.refDrop p reason) := (ht.trans (setCan_halts t p _)).trans (refDrop_halts u p reason)
  refine hu.trans (HaltStep.foldl (fun v m => ?_) _ _)
  extract_lets st
  split
  · exact (boxDrop_halts v p m reason).trans (boxEnd_halts _ p m 9)
  · exact .refl v

theorem canMode_halts (mode : Nat) : HaltStep s (s.canMode mode) := by
  refine HaltStep.foldl (fun t p => ?_) _ s
  split
  · exact .refl t
  · exact canSettle_halts t p mode

/-! ### HALT -/

/-- What stands between the entry into HALT and the policies of the fieldbus ports. -/
def State.haltQuiet (s : State) : State := ((s.lanesOff.cancelCues (fun _ => true) 4).forcesEmpty).cellsOff.capsCut

/-- A request of Brim that met the transition into HALT is void (R573). -/
def State.wishVoid (s : State) : State := if s.brim.wantSafe then { s with brim := { s.brim with wantSafe := false } } else s

/-- The event that tells of HALT. -/
def State.haltTold (s : State) : State := ((s.eventEntry (wd (at_ 2 28 + 7)) 0 0).msix 3).wishVoid

theorem wishVoid_eq :
    (if s.brim.wantSafe then { s with brim := { s.brim with wantSafe := false } } else s) = s.wishVoid := rfl

theorem enterMode_seven (cause : Nat) :
    s.enterMode 7 cause = ((((s.exAbort.putMode 7 cause).haltQuiet.canMode 7).faultKind snapStop).haltUnits).haltTold := by
  have hgrants : (modeGrants 7 false || modeGrants 7 true) = false := by decide
  have hquiet : modeQuiet 7 = true := by decide
  have hcells : cellsRun 7 = false := by decide
  simp only [State.enterMode, hgrants, hquiet, hcells, ne_eq, not_true_eq_false, and_false, if_false, if_true, true_or,
    Bool.false_eq_true, Nat.reduceEqDiff, false_and, or_self, State.haltTold, State.haltQuiet]
  exact wishVoid_eq _

theorem haltQuiet_drains : DrainStep s s.haltQuiet :=
  ((((lanesOff_drains s).trans (cancelCues_drains _ _ _)).trans (forcesEmpty_drains _)).trans (cellsOff_drains _)).trans (capsCut_drains _)

theorem wishVoid_drains : DrainStep s s.wishVoid := .ite (.of_same rfl rfl) (.refl s)

theorem haltTold_drains : DrainStep s s.haltTold := ((eventEntry_drains s _ _ _).trans (msix_drains _ _)).trans (wishVoid_drains _)

end

end Sys2Proof.Machine
end

section
/-! SUPPORT. A paired active module fails (R38, R545): what stays resident nowhere, and the whole way into HALT. -/

namespace Sys2Proof.Machine

/-! ### Fieldbus ports without a request -/

/-- No port holds a request or a reference message that counts as produced (R462). -/
def State.portsQuiet (s : State) : Prop :=
  ∀ p < 4, (s.can p).refMade = false ∧ ∀ m, (s.box p m).st ≠ 1 ∧ (s.box p m).st ≠ 2

/-- The registers and the fieldbus ports alone may differ. -/
def PortStep (s t : State) : Prop := t = { s with regs := t.regs, cans := t.cans }

theorem PortStep.trans {s t u : State} (h : PortStep s t) (g : PortStep t u) : PortStep s u := by
  unfold PortStep at *
  rw [g, h]

theorem setRfld_port (s : State) (o hi lo v : Nat) : PortStep s (s.setRfld o hi lo v) := rfl
theorem setCan_port (s : State) (p : Nat) (x : Can) : PortStep s (s.setCan p x) := rfl

/-- Whether the ports are quiet rests with the ports alone. -/
theorem State.portsQuiet.of_cans {s t : State} (h : s.portsQuiet) (hc : t.cans = s.cans) : t.portsQuiet := by
  intro p hp
  simp only [State.box, State.can, hc]
  exact h p hp

theorem canSettle_quiet {s : State} {p : Nat} (hp : p < 4) (mode : Nat) (hq : s.portsQuiet) :
    PortStep s (s.canSettle p mode) ∧ (s.canSettle p mode).portsQuiet := by
  unfold State.canSettle
  extract_lets pol t reason c u
  have ht : t.portsQuiet := hq.of_cans (setReg_cans s _ _)
  have hu : u.portsQuiet := fun q hq4 => by
    by_cases h : q = p
    · subst h
      simp only [u, State.box, setCan_can]
      exact ht q hq4
    · simp only [u, State.box, setCan_can_ne _ _ _ _ h]
      exact ht q hq4
  obtain ⟨href, hbox⟩ := hu p hp
  have hrefs : u.refDrop p reason = u := by simp [State.refDrop, href]
  split
  · exact ⟨rfl, hq⟩
  split
  · exact ⟨setRfld_port s _ _ _ _, ht⟩
  rw [hrefs, foldl_unmoved fun m _ => if_neg (by simpa [not_or] using hbox m)]
  exact ⟨(setRfld_port s _ _ _ _).trans (setCan_port t p _), hu⟩

theorem canMode_quiet {s : State} (mode : Nat) (hq : s.portsQuiet) : PortStep s (s.canMode mode) := by
  have h : PortStep s (s.canMode mode) ∧ (s.canMode mode).portsQuiet := by
    refine List.foldlRecOn (motive := fun t => PortStep s t ∧ t.portsQuiet) _ _ ⟨rfl, hq⟩ fun t ht p hp => ?_
    obtain ⟨hstep, hquiet⟩ := ht
    split
    · exact ⟨hstep, hquiet⟩
    · obtain ⟨hsettle, hstill⟩ := canSettle_quiet (List.mem_range.1 hp) mode hquiet
      exact ⟨hstep.trans hsettle, hstill⟩
  exact h.1

/-! ### Resident items are dropped -/

section
variable (s : State) (reason : Nat)

/-- Closed capture records are gone. -/
def State.capsEmptied (s : State) : State := (List.range 16).foldl (fun s u => s.setCap u { s.cap u with records := [] }) s

/-- What is resident in each stream is dropped. -/
def State.streamsEmptied (s : State) (reason : Nat) : State :=
  (List.range 45).foldl (fun s i => s.drop i reason (s.stream i).resident) s

/-- The scheduler traces are taken. -/
def State.tracesTaken (s : State) : State := (List.range 4).foldl (fun s q => s.setReg (offTrrd q) (s.reg (offTrwr q))) s

/-- A port's receive FIFO is taken and its requests end. -/
def State.portEmptied (s : State) (p : Nat) : State :=
  let s := s.setReg (offCan p 8) (s.reg (offCan p 7))
  let x := s.can p
  s.setCan p { x with
    chosen := none, refPend := false, refMade := false
    boxes := mapTab (fun (b : Mailbox) => if b.st = 1 ∨ b.st = 2 then { b with st := 3, result := 9 } else b) x.boxes }

/-- A ring's messages are gone. -/
def State.ringEmptied (s : State) (r : Nat) : State :=
  s.setRing r { s.ring r with msgs := [], rx := [], bad := [], due := false, assembled := false }

/-- Field packets, posts and the host's requests and responses are gone. -/
def State.queuesEmptied (s : State) : State :=
  let s := { s with field := { s.field with sent := [] } }
  { s with
    tasks := mapTab (fun (t : Task) => { t with queue := [], posted := false }) s.tasks
    host := { s.host with reqci := s.host.reqpi, rspci := s.host.rsppi } }

theorem dropResident_eq : s.dropResident reason =
    ((List.range 2).foldl State.ringEmptied ((List.range 4).foldl State.portEmptied
      ((s.histDrop reason true).capsEmptied.streamsEmptied reason).tracesTaken)).queuesEmptied := rfl

theorem streamsEmptied_resident {i : Nat} (hi : i < 45) : ((s.streamsEmptied reason).stream i).resident = 0 := by
  refine foldl_establishes (P := fun t => (t.stream i).resident = 0) (fun t => ?_) (fun t j hj h => ?_) (List.mem_range.2 hi) s
  · rw [drop_stream]; exact Nat.sub_self _
  · rw [drop_stream_ne _ _ _ _ _ hj.symm, h]

theorem portEmptied_quiet (p : Nat) : ((s.portEmptied p).can p).refMade = false ∧
    ∀ m, ((s.portEmptied p).box p m).st ≠ 1 ∧ ((s.portEmptied p).box p m).st ≠ 2 := by
  simp only [State.portEmptied, State.box, setCan_can, true_and]
  intro m
  rw [Tab.get_mapTab rfl]
  split
  · exact ⟨(by decide : 3 ≠ 1), (by decide : 3 ≠ 2)⟩
  · next h => exact not_or.1 h

theorem portsEmptied_quiet : ((List.range 4).foldl State.portEmptied s).portsQuiet := by
  intro p hp
  refine foldl_establishes (P := fun t => (t.can p).refMade = false ∧ ∀ m, (t.box p m).st ≠ 1 ∧ (t.box p m).st ≠ 2)
    (fun t => portEmptied_quiet t p) (fun t j hj h => ?_) (List.mem_range.2 hp) s
  simp only [State.box, State.portEmptied, setCan_can_ne _ _ _ _ hj.symm]
  exact h

theorem portEmptied_halts (p : Nat) : HaltStep s (s.portEmptied p) :=
  (setReg_drains s _ (not_declares_can p 8)).toHaltStep.trans (setCan_halts _ p _)

theorem capEmptied_halts (u : Nat) : HaltStep s (s.setCap u { s.cap u with records := [] }) := .of_same rfl rfl

theorem traceTaken_halts (q : Nat) : HaltStep s (s.setReg (offTrrd q) (s.reg (offTrwr q))) :=
  (setReg_drains s _ (not_declares_of_le (by unfold offTrrd; omega))).toHaltStep

theorem ringEmptied_halts (r : Nat) : HaltStep s (s.ringEmptied r) := .of_same rfl rfl

theorem queuesEmptied_halts : HaltStep s s.queuesEmptied := .of_same rfl rfl

theorem dropResident_halts : HaltStep s (s.dropResident reason) := by
  have hcaps : HaltStep s (s.histDrop reason true).capsEmptied :=
    (histDrop_drains s _ _).toHaltStep.trans (HaltStep.foldl capEmptied_halts _ _)
  have hstreams : HaltStep s ((s.histDrop reason true).capsEmptied.streamsEmptied reason) :=
    hcaps.trans (DrainStep.foldl (fun t i => drop_drains t i reason _) _ _).toHaltStep
  have hports := (hstreams.trans (HaltStep.foldl traceTaken_halts (List.range 4) _)).trans
    (HaltStep.foldl portEmptied_halts (List.range 4) _)
  rw [dropResident_eq]
  exact (hports.trans (HaltStep.foldl ringEmptied_halts (List.range 2) _)).trans (queuesEmptied_halts _)

theorem ringsEmptied_cans : ((List.range 2).foldl State.ringEmptied s).cans = s.cans :=
  List.foldlRecOn (motive := fun t : State => t.cans = s.cans) _ _ rfl fun _ ht _ _ => ht

theorem ringsEmptied_stream (i : Nat) : ((List.range 2).foldl State.ringEmptied s).stream i = s.stream i :=
  List.foldlRecOn (motive := fun t : State => t.stream i = s.stream i) _ _ rfl fun _ ht _ _ => ht

theorem portsEmptied_stream (i : Nat) : ((List.range 4).foldl State.portEmptied s).stream i = s.stream i :=
  List.foldlRecOn (motive := fun t : State => t.stream i = s.stream i) _ _ rfl fun _ ht _ _ => ht

theorem tracesTaken_stream (i : Nat) : s.tracesTaken.stream i = s.stream i :=
  List.foldlRecOn (motive := fun t : State => t.stream i = s.stream i) _ _ rfl fun _ ht _ _ => ht

theorem queuesEmptied_stream (i : Nat) : s.queuesEmptied.stream i = s.stream i := rfl
theorem queuesEmptied_cans : s.queuesEmptied.cans = s.cans := rfl

theorem dropResident_quiet : (s.dropResident reason).portsQuiet := by
  rw [dropResident_eq]
  exact (portsEmptied_quiet _).of_cans ((queuesEmptied_cans _).trans (ringsEmptied_cans _))

theorem dropResident_resident {i : Nat} (hi : i < 45) : ((s.dropResident reason).stream i).resident = 0 := by
  rw [dropResident_eq, queuesEmptied_stream, ringsEmptied_stream, portsEmptied_stream, tracesTaken_stream,
    streamsEmptied_resident _ _ hi]

end

end Sys2Proof.Machine
end

section
/-! SUPPORT. The ways into HALT as a whole (R38, R208, R545). -/

namespace Sys2Proof.Machine

/-- What HALT leaves of a state: CENSUS.STAT and PAIR.STAT, the output gate, what was sent, and the outputs that are off. -/
structure Halts (s t : State) : Prop where
  census : t.reg offCensusStat = s.reg offCensusStat
  pair : t.reg (offPair 0) = s.reg (offPair 0)
  gate : t.peer.gate = s.peer.gate
  sent : s.outbox ⊆ t.outbox
  undriven : ∀ p, (s.pair p).driven = false → (t.pair p).driven = false

theorem Halts.refl (s : State) : Halts s s := ⟨rfl, rfl, rfl, List.Subset.refl _, fun _ h => h⟩

theorem Halts.trans {s t u : State} (h : Halts s t) (g : Halts t u) : Halts s u :=
  ⟨g.census.trans h.census, g.pair.trans h.pair, g.gate.trans h.gate, fun _ hm => g.sent (h.sent hm),
    fun p hp => g.undriven p (h.undriven p hp)⟩

theorem HaltStep.halts {s t : State} (h : HaltStep s t) : Halts s t :=
  ⟨h.word _ (.inr (.inl rfl)), h.word _ (.inr (.inr rfl)), h.gate, h.sent, h.undriven⟩

theorem HaltStep.mode {s t : State} (h : HaltStep s t) : t.mode = s.mode := by
  rw [State.mode, State.rfld, h.word _ (.inl rfl)]; rfl

section
variable (s : State)

theorem putMode_reg_ne (m cause : Nat) {o : Nat} (h : o ≠ offSysMode) : (s.putMode m cause).reg o = s.reg o :=
  setReg_reg_ne s _ _ _ h

theorem putMode_reg (m cause : Nat) : (s.putMode m cause).reg offSysMode =
    wd (at_ cause 12 + at_ s.mode 8 + at_ (fld (s.reg offSysMode) 6 5) 5 + m) := setReg_reg s _ _

theorem putMode_mode (cause : Nat) {m : Nat} (h : m < 16) : (s.putMode m cause).mode = m := by
  rw [State.mode, State.rfld, putMode_reg]
  simp only [fld, fldN, wd, at_, BitVec.toNat_ofNat]
  omega

theorem putMode_halts (m cause : Nat) : Halts s (s.putMode m cause) :=
  ⟨putMode_reg_ne s m cause (by decide), putMode_reg_ne s m cause (by decide), rfl, List.Subset.refl _, fun _ h => h⟩

/-- The way into HALT after SYS.MODE is written. -/
theorem enterMode_seven_halts (cause : Nat) : HaltStep (s.exAbort.putMode 7 cause) (s.enterMode 7 cause) := by
  rw [enterMode_seven]
  generalize s.exAbort.putMode 7 cause = t
  exact ((((haltQuiet_drains t).toHaltStep.trans (canMode_halts _ 7)).trans (faultKind_drains _ _).toHaltStep).trans
    (haltUnits_drains _).toHaltStep).trans (haltTold_drains _).toHaltStep

/-- What HALT does before the mode is entered (R208, R587). -/
def State.haltPrepared (s : State) : State :=
  let s := if bit (s.reg offSysMode) 5 then { s with store := { s.store with fallback := true } } else s
  { s with tasks := mapTab (fun (t : Task) => { t with stopping := false }) s.tasks }

theorem halt_eq : s.halt = if s.mode = 1 ∨ s.mode = 0 ∨ s.mode = 7 then s else s.haltPrepared.enterMode 7 5 := rfl

theorem setStore_drains (x : Store) : DrainStep s { s with store := x } := .of_same rfl rfl
theorem setTasks_drains (x : Tab Task) : DrainStep s { s with tasks := x } := .of_same rfl rfl

theorem haltPrepared_drains : DrainStep s s.haltPrepared :=
  (DrainStep.ite (setStore_drains s _) (.refl s)).trans (setTasks_drains _ _)

theorem halt_halts : Halts s s.halt := by
  rw [halt_eq]
  split
  · exact .refl s
  · have hbefore := (haltPrepared_drains s).trans (exAbort_drains _)
    exact (hbefore.toHaltStep.halts.trans (putMode_halts _ 7 5)).trans (enterMode_seven_halts _ 5).halts

/-- HALT is entered from every mode but BOOT and RECOVERY (R572). -/
theorem halt_mode {s : State} (h0 : s.mode ≠ 0) (h1 : s.mode ≠ 1) : s.halt.mode = 7 := by
  rw [halt_eq]
  split
  · omega
  · rw [(enterMode_seven_halts _ 5).mode, putMode_mode _ _ (by decide)]

/-! ### Nothing stays resident -/

theorem capsDrop_records (reason : Nat) {u : Nat} (hu : u < 16) : ((s.capsDrop reason).cap u).records = [] := by
  refine foldl_establishes (P := fun t => (t.cap u).records = []) (fun t => ?_) (fun t j hj h => ?_) (List.mem_range.2 hu) s
  · rw [setCap_cap]
  · rw [setCap_cap_ne _ _ _ _ hj.symm, drop_cap, h]

theorem haltUnits_resident {i : Nat} (h : s.backlog i = 0) : (s.haltUnits.stream i).resident = 0 := by
  have hzero : s.haltUnits.backlog i = 0 := Nat.le_zero.1 (((haltUnits_drains s).backlog i).trans h.le)
  have hrec : ∀ u < 16, (s.haltUnits.cap u).records = [] := fun u hu => by
    rw [State.haltUnits]
    exact capsDrop_records _ _ hu
  generalize s.haltUnits = t at hzero hrec ⊢
  unfold State.backlog at hzero
  split at hzero
  · rwa [hrec (i - 2) (by omega), List.length_nil, Nat.sub_zero] at hzero
  · exact hzero

theorem wishVoid_stream (i : Nat) : s.wishVoid.stream i = s.stream i := by
  unfold State.wishVoid
  split <;> rfl

theorem msix_stream (v i : Nat) : (s.msix v).stream i = s.stream i := by rw [msix_eq]; rfl

theorem eventEntry_stream (a b c : Word) (i : Nat) : (s.eventEntry a b c).stream i = s.stream i := by
  obtain ⟨t, ht, he⟩ := eventEntry_eq s a b c
  rw [he]
  exact congrArg (fun x => Tab.get {} x.streams i) ht.census

theorem haltTold_stream (i : Nat) : s.haltTold.stream i = s.stream i := by
  rw [State.haltTold, wishVoid_stream, msix_stream, eventEntry_stream]

theorem faultKind_backlog (k i : Nat) : (s.faultKind k).backlog i ≤ s.backlog i := (faultKind_drains s k).backlog i

theorem PortStep.backlog {s t : State} (h : PortStep s t) (i : Nat) : t.backlog i = s.backlog i := by rw [h]; rfl

theorem exAbort_none {s : State} (h : s.exch.phase = .none) : s.exAbort = s := if_pos h

/-- Where no exchange runs, no port has a request and nothing is resident, HALT leaves nothing resident. -/
theorem enterMode_seven_resident {s : State} (cause : Nat) (hx : s.exch.phase = .none) (hq : s.portsQuiet) {i : Nat}
    (h : s.backlog i = 0) : ((s.enterMode 7 cause).stream i).resident = 0 := by
  rw [enterMode_seven, haltTold_stream, exAbort_none hx]
  apply haltUnits_resident
  have hmode : (s.putMode 7 cause).backlog i = s.backlog i := rfl
  have hquiet := haltQuiet_drains (s.putMode 7 cause)
  have hport := canMode_quiet 7 (hq.of_cans hquiet.cans)
  have hle := (faultKind_backlog ((s.putMode 7 cause).haltQuiet.canMode 7) snapStop i).trans (hport.backlog i).le
  exact Nat.le_zero.1 ((hle.trans (hquiet.backlog i)).trans (hmode.trans h).le)

theorem halt_resident {s : State} (hx : s.exch.phase = .none) (hq : s.portsQuiet) {i : Nat} (h : (s.stream i).resident = 0) :
    (s.halt.stream i).resident = 0 := by
  have hprep := haltPrepared_drains s
  have hzero : s.backlog i = 0 := by rw [State.backlog, h, Nat.zero_sub]
  rw [halt_eq]
  split
  · exact h
  · exact enterMode_seven_resident 5 (hprep.settled hx) (hq.of_cans hprep.cans) (Nat.le_zero.1 ((hprep.backlog i).trans hzero.le))

/-! ### A paired active module -/

/-- The gate closes, the release leaves and resident items are dropped (R545). -/
def State.pairReleased (s : State) : State :=
  let s := State.cellsOff { s with peer := { s.peer with gate := true } }
  State.dropResident { s with outbox := s.outbox ++ [Msg.release 1] } 0x07

theorem pairFail_eq : s.pairFail = (s.pairReleased.setRfld (offPair 0) 35 34 3).halt := rfl

theorem pairReleased_halts : HaltStep { s with peer := { s.peer with gate := true } } s.pairReleased :=
  ((cellsOff_drains _).trans (send_drains _ (List.subset_append_left _ [Msg.release 1]))).toHaltStep.trans (dropResident_halts _ 7)

theorem pairReleased_sent : Msg.release 1 ∈ s.pairReleased.outbox :=
  (dropResident_halts _ 7).sent (List.mem_append_right _ (List.mem_singleton_self _))

theorem pairReleased_undriven {p : Nat} (hp : p < 24) : (s.pairReleased.pair p).driven = false :=
  ((send_drains _ (List.subset_append_left _ [Msg.release 1])).toHaltStep.trans (dropResident_halts _ 7)).undriven p
    (cellsOff_driven { s with peer := { s.peer with gate := true } } hp)

end

end Sys2Proof.Machine
end

section
/-! SUPPORT. Full-line writes of line memory, word by word (R60, R65). -/

namespace Sys2Proof.Machine

/-- The word of a memory at an address. -/
def Memory.word (m : Memory) (a : Nat) : Word := Tab.get (memReset a) m.words a

theorem word_eq (s : State) (a : Nat) : s.word a = s.mem.word a := rfl

theorem Memory.putWord_word (m : Memory) (a b : Nat) (v : Word) : (m.putWord a v).word b = if b = a then v else m.word b := by
  split
  · next h => subst h; exact Tab.get_put_same _ _ _ _
  · next h => exact Tab.get_put_other _ _ _ _ h

/-- Words under a mask of ones. -/
theorem Memory.putMasked_full (m : Memory) (a : Nat) (ws : List Word) (b : Nat) :
    (m.putMasked a (2 ^ ws.length - 1) ws).word b = if a ≤ b ∧ b < a + ws.length then ws.getD (b - a) 0 else m.word b := by
  induction ws generalizing m a with
  | nil => simp [Memory.putMasked]
  | cons v r ih =>
    have hpow : 2 ^ (v :: r).length = 2 * 2 ^ r.length := by rw [List.length_cons, pow_succ']
    have hpos : 0 < 2 ^ r.length := by positivity
    have hodd : (2 ^ (v :: r).length - 1) % 2 = 1 := by omega
    have hhalf : (2 ^ (v :: r).length - 1) / 2 = 2 ^ r.length - 1 := by omega
    rw [Memory.putMasked, if_pos hodd, hhalf, ih, Memory.putWord_word, List.length_cons]
    by_cases hb : b = a
    · subst hb
      simp
    · by_cases hr : a + 1 ≤ b ∧ b < a + 1 + r.length
      · obtain ⟨j, hj⟩ : ∃ j, b - a = j + 1 := ⟨b - a - 1, by omega⟩
        rw [if_pos hr, if_pos (by omega), hj, List.getD_cons_succ, show b - (a + 1) = j by omega]
      · rw [if_neg hr, if_neg hb, if_neg (by omega)]

theorem markDirty_word (s : State) (l a : Nat) : (s.markDirty l).word a = s.word a := by
  unfold State.markDirty
  split <;> rfl

/-- A full line (R65). -/
theorem lineWrite_full_word (s : State) (l : Nat) {data : List Word} (h : data.length = 8) (poison : Bool) (owner : BitVec 2) (b : Nat) :
    (s.lineWrite l 255 data poison owner).word b = if 8 * l ≤ b ∧ b < 8 * l + 8 then data.getD (b - 8 * l) 0 else s.word b := by
  have hput := Memory.putMasked_full s.mem (8 * l) data b
  rw [h] at hput
  rw [State.lineWrite, markDirty_word]
  exact hput

/-- Whole lines written in one go. -/
theorem spanWrite_full_word (owner : BitVec 2) (poison : Bool) (n : Nat) {fuel : Nat} (s : State) {a : Nat} {ws : List Word}
    (hf : n ≤ fuel) (ha : a % 8 = 0) (hw : ws.length = 8 * n) (b : Nat) :
    (State.spanWrite owner poison fuel s a ws).word b = if a ≤ b ∧ b < a + 8 * n then ws.getD (b - a) 0 else s.word b := by
  induction n generalizing fuel s a ws with
  | zero =>
    have hnil : ws = [] := List.length_eq_zero_iff.1 hw
    rw [if_neg (by omega), hnil]
    cases fuel <;> rfl
  | succ n ih =>
    obtain ⟨f, rfl⟩ : ∃ f, fuel = f + 1 := ⟨fuel - 1, by omega⟩
    have hne : ws.isEmpty = false := List.isEmpty_eq_false_iff.2 fun h => by rw [h, List.length_nil] at hw; omega
    have hmin : min (8 - 0) ws.length = 8 := by omega
    have htake : (ws.take 8).length = 8 := by rw [List.length_take]; omega
    have hdrop : (ws.drop 8).length = 8 * n := by rw [List.length_drop]; omega
    rw [State.spanWrite, if_neg (by simp [hne])]
    simp only [ha, hmin, List.replicate_zero, List.nil_append]
    rw [ih _ (by omega) (by omega) hdrop, show maskOf 0 8 = 255 by decide, lineWrite_full_word _ _ htake, show 8 * (a / 8) = a by omega]
    by_cases hlow : a ≤ b ∧ b < a + 8
    · rw [if_neg (by omega), if_pos hlow, if_pos (by omega), List.getD_eq_getElem?_getD, List.getElem?_take_of_lt (by omega),
        ← List.getD_eq_getElem?_getD]
    · by_cases hhigh : a + 8 ≤ b ∧ b < a + 8 + 8 * n
      · rw [if_pos hhigh, if_pos (by omega), List.getD_eq_getElem?_getD, List.getElem?_drop, ← List.getD_eq_getElem?_getD,
          show 8 + (b - (a + 8)) = b - a by omega]
      · rw [if_neg hhigh, if_neg hlow, if_neg (by omega)]

theorem agentWrite_full_word (n : Nat) (s : State) {a : Nat} {ws : List Word} (ha : a % 8 = 0) (hw : ws.length = 8 * n) (b : Nat) :
    (s.agentWrite a ws).word b = if a ≤ b ∧ b < a + 8 * n then ws.getD (b - a) 0 else s.word b :=
  spanWrite_full_word 1 false n s (by omega) ha hw b

end Sys2Proof.Machine
end

section
/-! The obligation of the census: the sample, the check with its table, and the failures, then the whole statement. -/

namespace Sys2Proof.Machine

/-! ### Integrity faults (R38) -/

/-- A field of one bit. -/
theorem fld_bit (w : Word) (i : Nat) : fld w i i = b2n (bit w i) := by
  apply Nat.eq_of_testBit_eq
  intro j
  rw [testBit_fld]
  by_cases hj : j = 0
  · subst hj
    cases bit w i <;> simp [b2n]
  · obtain ⟨k, rfl⟩ : ∃ k, j = k + 1 := ⟨j - 1, by omega⟩
    cases bit w i <;> simp [b2n, Nat.testBit_succ]

section
variable (s : State) (kind id : Nat)

/-- The declaration of an integrity fault. -/
def State.faultDeclared (s : State) (kind id : Nat) : State :=
  let s := ((s.setRfld offCensusStat 19 8 id).setRfld offCensusStat 7 4 kind).setRfld offCensusStat 2 2 1
  let s := s.faultKind snapIntegrity
  if bit (s.reg offSysMode) 5 then { s with store := { s.store with fallback := true } } else s

theorem integrityFault_eq : s.integrityFault kind id =
    if s.rfld offCensusStat 2 2 = 1 then s
    else if (s.faultDeclared kind id).role = 1 then (s.faultDeclared kind id).pairFail else (s.faultDeclared kind id).halt := rfl

theorem faultDeclared_drains : DrainStep (((s.setRfld offCensusStat 19 8 id).setRfld offCensusStat 7 4 kind).setRfld offCensusStat 2 2 1)
    (s.faultDeclared kind id) := by
  unfold State.faultDeclared
  generalize ((s.setRfld offCensusStat 19 8 id).setRfld offCensusStat 7 4 kind).setRfld offCensusStat 2 2 1 = t
  have ht := faultKind_drains t snapIntegrity
  exact .ite (ht.trans (setStore_drains _ _)) ht

theorem faultDeclared_stat : (s.faultDeclared kind id).reg offCensusStat =
    setFld (setFld (setFld (s.reg offCensusStat) 19 8 id) 7 4 kind) 2 2 1 := by
  rw [(faultDeclared_drains s kind id).word _ (.inr (.inl rfl)), setRfld_reg, setRfld_reg, setRfld_reg]

/-- SYS.MODE and PAIR.STAT stay. -/
theorem faultDeclared_reg {o : Nat} (h : o = offSysMode ∨ o = offPair 0) : (s.faultDeclared kind id).reg o = s.reg o := by
  have hne : o ≠ offCensusStat := by rcases h with rfl | rfl <;> decide
  have hd : Declares o := h.imp_right .inr
  rw [(faultDeclared_drains s kind id).word o hd, setRfld_reg_ne _ _ _ _ _ _ hne, setRfld_reg_ne _ _ _ _ _ _ hne,
    setRfld_reg_ne _ _ _ _ _ _ hne]

/-- The first integrity fault of a module without a peer ends in HALT, with its kind and item in CENSUS.STAT (R38). -/
theorem integrityFault_halts {s : State} {kind id : Nat} (hk : kind < 16) (hid : id < 4096)
    (hfirst : bit (s.reg offCensusStat) 2 = false) (hrole : s.role ≠ 1) (h0 : s.mode ≠ 0) (h1 : s.mode ≠ 1) :
    (s.integrityFault kind id).mode = 7 ∧ bit ((s.integrityFault kind id).reg offCensusStat) 2 = true ∧
    (s.integrityFault kind id).rfld offCensusStat 7 4 = kind ∧ (s.integrityFault kind id).rfld offCensusStat 19 8 = id := by
  have hdone : s.rfld offCensusStat 2 2 ≠ 1 := by rw [State.rfld, fld_bit, hfirst]; decide
  have hrole' : (s.faultDeclared kind id).role ≠ 1 := by
    rwa [State.role, State.rfld, faultDeclared_reg s kind id (.inr rfl)]
  have hmode : (s.faultDeclared kind id).mode = s.mode := by
    rw [State.mode, State.rfld, faultDeclared_reg s kind id (.inl rfl)]; rfl
  have hstat := (halt_halts (s.faultDeclared kind id)).census.trans (faultDeclared_stat s kind id)
  rw [integrityFault_eq, if_neg hdone, if_neg hrole', State.rfld, State.rfld, hstat]
  refine ⟨halt_mode (by rwa [hmode]) (by rwa [hmode]), ?_, ?_, ?_⟩
  · rw [bit_setFld_same _ _ (by decide), Nat.testBit_one_zero]
  · rw [fld_setFld_other _ _ (by decide), fld_setFld_same _ _ _ (by decide)]
    omega
  · rw [fld_setFld_other _ _ (by decide), fld_setFld_other _ _ (by decide), fld_setFld_same _ _ _ (by decide)]
    omega

end

/-! ### The sample (R36) -/

theorem decodes_clean {s : State} (h : s.mem.errs = []) (l n : Nat) : s.decodes l n = s := by simp [State.decodes, h]

/-- Lines among lines of which none is poisoned. -/
theorem linesPoisoned_within {s : State} {l n l' n' : Nat} (h : s.linesPoisoned l n = false) (hl : l ≤ l') (hn : l' + n' ≤ l + n) :
    s.linesPoisoned l' n' = false := by
  simp only [State.linesPoisoned, List.any_eq_false, Bool.and_eq_true, decide_eq_true_eq] at h ⊢
  intro e he ⟨⟨hlo, hhi⟩, hp⟩
  exact h e he ⟨⟨by omega, by omega⟩, hp⟩

theorem signals_lt {s : State} {n : Nat} (h : n ∈ s.signals) : n < 0x4000 := by
  simp only [State.signals, List.mem_map, List.mem_filter, Bool.and_eq_true, decide_eq_true_eq] at h
  obtain ⟨e, ⟨-, ⟨⟨⟨hlo, hhi⟩, -⟩, -⟩⟩, rfl⟩ := h
  omega

theorem setSignal_signal (s : State) (n : Nat) (x : Signal) : (s.setSignal n x).signal n = x := Tab.get_put_same _ _ _ _
theorem setSignal_signal_ne (s : State) (n : Nat) (x : Signal) {m : Nat} (h : m ≠ n) : (s.setSignal n x).signal m = s.signal m :=
  Tab.get_put_other _ _ _ _ h

/-- The credit of signal n starts anew. -/
def State.creditNew (s : State) (n : Nat) : State :=
  let (bad, s) := s.sigReads n
  if bad then s else s.setSignal n { s.signal n with credit := fld (s.sigWord n 1) 35 16 }

theorem histCredits_eq (s : State) : s.histCredits = s.signals.foldl State.creditNew s := rfl

/-- The census and every register but a counter of line memory stay. -/
theorem creditNew_keeps (s : State) (n : Nat) :
    (s.creditNew n).census = s.census ∧ ∀ o, ¬ MemCounter o → (s.creditNew n).reg o = s.reg o := by
  have hcensus : (s.sigReads n).2.census = s.census := (meets_write s _ _).census
  have hreg : ∀ o, ¬ MemCounter o → (s.sigReads n).2.reg o = s.reg o := fun o ho => decodes_reg ho s _ _
  unfold State.creditNew
  generalize s.sigReads n = r at hcensus hreg
  obtain ⟨bad, t⟩ := r
  cases bad
  · exact ⟨hcensus, hreg⟩
  · exact ⟨hcensus, hreg⟩

theorem histCredits_keeps (s : State) :
    s.histCredits.census = s.census ∧ ∀ o, ¬ MemCounter o → s.histCredits.reg o = s.reg o := by
  rw [histCredits_eq]
  refine List.foldlRecOn (motive := fun t : State => t.census = s.census ∧ ∀ o, ¬ MemCounter o → t.reg o = s.reg o) _ _ ⟨rfl, fun _ _ => rfl⟩ ?_
  intro t ⟨hcensus, hreg⟩ n _
  obtain ⟨hc, hr⟩ := creditNew_keeps t n
  exact ⟨hc.trans hcensus, fun o ho => (hr o ho).trans (hreg o ho)⟩

/-- Without a disturbed line, a credit alone is what changes. -/
theorem creditNew_mem {s : State} (h : s.mem.errs = []) (n : Nat) : (s.creditNew n).mem = s.mem := by
  have hreads : s.sigReads n = (s.linesPoisoned ((sigBase + 2 * n) / 8) (lineSpan (sigBase + 2 * n) 2), s) := by
    simp only [State.sigReads, State.meets, decodes_clean h]
  simp only [State.creditNew, hreads]
  split <;> rfl

theorem creditNew_signal_ne {s : State} (h : s.mem.errs = []) {n m : Nat} (hm : m ≠ n) : (s.creditNew n).signal m = s.signal m := by
  have hreads : s.sigReads n = (s.linesPoisoned ((sigBase + 2 * n) / 8) (lineSpan (sigBase + 2 * n) 2), s) := by
    simp only [State.sigReads, State.meets, decodes_clean h]
  simp only [State.creditNew, hreads]
  split
  · rfl
  · exact setSignal_signal_ne _ _ _ hm

theorem creditNew_credit {s : State} (h : s.mem.errs = []) (hp : s.linesPoisoned (sigBase / 8) 4096 = false) {n : Nat} (hn : n < 0x4000) :
    ((s.creditNew n).signal n).credit = fld (s.sigWord n 1) 35 16 := by
  have hgood : s.linesPoisoned ((sigBase + 2 * n) / 8) (lineSpan (sigBase + 2 * n) 2) = false :=
    linesPoisoned_within hp (by omega) (by rw [lineSpan, if_neg (by decide)]; unfold sigBase; omega)
  have hreads : s.sigReads n = (false, s) := by simp only [State.sigReads, State.meets, decodes_clean h, hgood]
  simp only [State.creditNew, hreads, Bool.false_eq_true, if_false, setSignal_signal]

theorem histCredits_mem {s : State} (h : s.mem.errs = []) : s.histCredits.mem = s.mem := by
  rw [histCredits_eq]
  exact List.foldlRecOn (motive := fun t : State => t.mem = s.mem) _ _ rfl fun t ht n _ => (creditNew_mem (by rw [ht, h]) n).trans ht

/-- Every declared signal whose entry can be read has its credit anew (R471). -/
theorem histCredits_credit {s : State} (h : s.mem.errs = []) (hp : s.linesPoisoned (sigBase / 8) 4096 = false) {n : Nat}
    (hn : n ∈ s.signals) : (s.histCredits.signal n).credit = fld (s.sigWord n 1) 35 16 := by
  obtain ⟨a, b, hab⟩ := List.append_of_mem hn
  rw [histCredits_eq, hab, List.foldl_append, List.foldl_cons]
  have ha : (a.foldl State.creditNew s).mem = s.mem :=
    List.foldlRecOn (motive := fun t : State => t.mem = s.mem) _ _ rfl fun t ht m _ => (creditNew_mem (by rw [ht, h]) m).trans ht
  generalize a.foldl State.creditNew s = t at ha ⊢
  have ht : t.mem.errs = [] := by rw [ha, h]
  have hcredit : ∀ u : State, u.mem = s.mem → ((u.creditNew n).signal n).credit = fld (s.sigWord n 1) 35 16 := fun u hu => by
    rw [creditNew_credit (by rw [hu, h]) (by rw [State.linesPoisoned, hu]; exact hp) (signals_lt hn), State.sigWord, State.word, hu]
    rfl
  have hend : (b.foldl State.creditNew (t.creditNew n)).mem = s.mem ∧
      ((b.foldl State.creditNew (t.creditNew n)).signal n).credit = fld (s.sigWord n 1) 35 16 := by
    refine List.foldlRecOn (motive := fun u : State => u.mem = s.mem ∧ (u.signal n).credit = fld (s.sigWord n 1) 35 16) _ _
      ⟨(creditNew_mem ht n).trans ha, hcredit t ha⟩ fun u ⟨hu, hc⟩ m _ => ?_
    have herrs : u.mem.errs = [] := by rw [hu, h]
    refine ⟨(creditNew_mem herrs m).trans hu, ?_⟩
    by_cases hm : n = m
    · rw [← hm]; exact hcredit u hu
    · rw [creditNew_signal_ne herrs hm]; exact hc
  exact hend.2

/-! ### CENSUS_INSTANT (R36, R537) -/

section
variable {s : State}

theorem censusSample_eq : s.censusSample = {
    time := s.now, streams := s.census.streams, credits := s.spine.credits
    tagsHeld := s.spine.waiting.length + s.spine.acked.length
    winHost := s.bufCounts.1 - s.bufCounts.2, winDevice := s.bufCounts.2, winConf := s.bufCounts.1 } := by
  unfold State.censusSample
  generalize s.bufCounts = counts
  rfl

/-- The census after a sample at a whole millisecond. -/
def State.sampled (s : State) : Census :=
  { s.census with
    sample := some s.censusSample, older := s.census.older ++ s.census.sample.toList, lastMs := s.now / tMs + 1
    extra := if s.extraDue && !(s.censusDue && s.census.apart) then none else s.census.extra, apart := false }

theorem censusTake_due (h : s.censusDue = true) :
    s.censusTake = (State.setRfld { s with census := s.sampled } offCensusStat 3 3 1).histCredits := by
  simp only [State.censusTake, State.sampled, h, if_true]

theorem cut_of_role (h : s.role ≠ 1) : s.cut = s := by simp [State.cut, State.mayCut, h]

theorem execCensusInstant_due (hruns : s.censusRuns = true) (hdue : s.censusDue = true) (hrole : s.role ≠ 1) :
    exec .censusInstant s = .next (State.setRfld { s with census := s.sampled } offCensusStat 3 3 1).histCredits := by
  have hrole' : s.censusTake.role ≠ 1 := by
    have hreg : s.censusTake.reg (offPair 0) = s.reg (offPair 0) := by
      rw [censusTake_due hdue, (histCredits_keeps _).2 _ (Declares.notCounter (.inr (.inr rfl))), setRfld_reg_ne _ _ _ _ _ _ (by decide)]
      rfl
    rwa [State.role, State.rfld, hreg]
  have hexec : exec .censusInstant s = .next s.censusTake.cut := by
    show execCensusInstant s = _
    simp [execCensusInstant, hruns, hdue]
  rw [hexec, cut_of_role hrole', censusTake_due hdue]

theorem censusInstant_due (hruns : s.censusRuns = true) (hdue : s.censusDue = true) (hrole : s.role ≠ 1) :
    ∃ u, exec .censusInstant s = .next u ∧ u.census = s.sampled ∧ bit (u.reg offCensusStat) 3 = true ∧
      (s.mem.errs = [] → u.mem = s.mem ∧
        (s.linesPoisoned (sigBase / 8) 4096 = false → ∀ n ∈ s.signals, (u.signal n).credit = fld (s.sigWord n 1) 35 16)) := by
  refine ⟨_, execCensusInstant_due hruns hdue hrole, ?_⟩
  have hmem : (State.setRfld { s with census := s.sampled } offCensusStat 3 3 1).mem = s.mem := setReg_mem _ _ _
  have hcensus : (State.setRfld { s with census := s.sampled } offCensusStat 3 3 1).census = s.sampled := setReg_census _ _ _
  have hreg : bit ((State.setRfld { s with census := s.sampled } offCensusStat 3 3 1).reg offCensusStat) 3 = true := by
    rw [setRfld_reg, bit_setFld_same _ _ (by decide), Nat.testBit_one_zero]
  generalize State.setRfld { s with census := s.sampled } offCensusStat 3 3 1 = t at hmem hcensus hreg ⊢
  obtain ⟨hc, hr⟩ := histCredits_keeps t
  refine ⟨hc.trans hcensus, by rw [hr _ (Declares.notCounter (.inr (.inl rfl)))]; exact hreg, fun herrs => ?_⟩
  have ht : t.mem.errs = [] := by rw [hmem, herrs]
  refine ⟨(histCredits_mem ht).trans hmem, fun hp n hn => ?_⟩
  have hsig : n ∈ t.signals := by rw [State.signals, hmem]; exact hn
  rw [histCredits_credit ht (by rw [State.linesPoisoned, hmem]; exact hp) hsig, State.sigWord, State.word, hmem]
  rfl

theorem censusInstant_early (hdue : s.censusDue = false) (hextra : s.extraDue = false) : exec .censusInstant s = .next s := by
  show execCensusInstant s = _
  simp [execCensusInstant, hdue, hextra]

end

/-! ### CENSUS_CHECK (R37, R38, R42, R613) -/

/-- The kinds and items of R41. -/
theorem failure_bounds {x : CensusSample} {kind id : Nat} (h : x.failure = some (kind, id)) : kind < 16 ∧ id < 4096 := by
  unfold CensusSample.failure at h
  split at h
  · next i hi =>
    have hlt := List.mem_range.1 (List.mem_of_find?_eq_some hi)
    simp only [Option.some.injEq, Prod.mk.injEq] at h
    omega
  split at h
  · next j hj =>
    have hlt := List.mem_range.1 (List.mem_of_find?_eq_some hj)
    simp only [Option.some.injEq, Prod.mk.injEq] at h
    omega
  split at h
  · simp only [Option.some.injEq, Prod.mk.injEq] at h
    omega
  split at h
  · simp only [Option.some.injEq, Prod.mk.injEq] at h
    omega
  · exact absurd h (by simp)

theorem u72_length (n : Nat) : (u72 n).length = 2 := rfl

theorem table_length (x : CensusSample) (seq : Word) : (x.table seq).length = 8 * 230 := by
  simp [CensusSample.table, List.length_flatMap, u72_length]

section
variable {s : State} {x : CensusSample}

/-- The state after the check of a sample, its verdict apart: the table, SEQ and the sample that is no more. -/
def State.checked (s : State) (x : CensusSample) : State :=
  ((State.agentWrite { s with census := { s.census with sample := none } } censusBase (x.table (s.reg offCensusSeq + 1))).setReg
    offCensusSeq (s.reg offCensusSeq + 1)).setRfld offCensusStat 3 3 0

/-- The sample that is the only one is the next. -/
theorem nextCheck_alone (hx : s.census.sample = some x) (ho : s.census.older = []) :
    s.census.nextCheck = some (x, { s.census with sample := none }) := by simp only [Census.nextCheck, hx, ho]

theorem execCensusCheck_good (hx : s.census.sample = some x) (ho : s.census.older = []) (hf : s.census.final = false)
    (h : x.failure = none) : exec .censusCheck s = .next (s.checked x) := by
  show execCensusCheck s = _
  simp only [execCensusCheck, hf, Bool.false_eq_true, if_false, nextCheck_alone hx ho, h, Option.isSome_none, b2n, State.checked]

theorem execCensusCheck_bad (hx : s.census.sample = some x) (ho : s.census.older = []) (hf : s.census.final = false) {kind id : Nat}
    (h : x.failure = some (kind, id)) : exec .censusCheck s = .next ((s.checked x).integrityFault kind id) := by
  show execCensusCheck s = _
  simp only [execCensusCheck, hf, Bool.false_eq_true, if_false, nextCheck_alone hx ho, h, Option.isSome_none, b2n, State.checked]

theorem checked_write : WriteStep { s with census := { s.census with sample := none } } (s.checked x) :=
  ((agentWrite_write _ _ _).trans (setReg_write _ _ _)).trans (setReg_write _ _ _)

theorem checked_seq : (s.checked x).reg offCensusSeq = s.reg offCensusSeq + 1 := by
  rw [State.checked, setRfld_reg_ne _ _ _ _ _ _ (by decide), setReg_reg]

theorem checked_stat : (s.checked x).reg offCensusStat = setFld (s.reg offCensusStat) 3 3 0 := by
  rw [State.checked, setRfld_reg, setReg_reg_ne _ _ _ _ (by decide), agentWrite_reg (Declares.notCounter (.inr (.inl rfl)))]
  rfl

theorem checked_reg {o : Nat} (h : o = offSysMode ∨ o = offPair 0) : (s.checked x).reg o = s.reg o := by
  have hstat : o ≠ offCensusStat := by rcases h with rfl | rfl <;> decide
  have hseq : o ≠ offCensusSeq := by rcases h with rfl | rfl <;> decide
  have hd : Declares o := h.imp_right .inr
  rw [State.checked, setRfld_reg_ne _ _ _ _ _ _ hstat, setReg_reg_ne _ _ _ _ hseq, agentWrite_reg hd.notCounter]
  rfl

theorem checked_mode : (s.checked x).mode = s.mode := by
  rw [State.mode, State.rfld, checked_reg (.inl rfl)]; rfl

theorem checked_role : (s.checked x).role = s.role := by
  rw [State.role, State.rfld, checked_reg (.inr rfl)]; rfl

theorem checked_word (b : Nat) : (s.checked x).word b =
    if censusBase ≤ b ∧ b < censusBase + 1840 then (x.table (s.reg offCensusSeq + 1)).getD (b - censusBase) 0 else s.word b := by
  have htable := agentWrite_full_word 230 { s with census := { s.census with sample := none } } (a := censusBase) (by decide)
    (table_length x (s.reg offCensusSeq + 1)) b
  rw [State.checked, State.word, State.setRfld, setReg_mem, setReg_mem]
  exact htable

/-- A sample whose equations hold. -/
theorem censusCheck_good (hx : s.census.sample = some x) (ho : s.census.older = []) (hf : s.census.final = false)
    (h : x.failure = none) : ∃ u, exec .censusCheck s = .next u ∧ u.census.sample = none ∧ u.reg offCensusSeq = s.reg offCensusSeq + 1 ∧
      (∀ i < 1840, u.word (censusBase + i) = (x.table (s.reg offCensusSeq + 1)).getD i 0) ∧ bit (u.reg offCensusStat) 3 = false ∧
      (∀ a, a < censusBase ∨ censusBase + 1840 ≤ a → u.word a = s.word a) ∧ u.cores = s.cores ∧ u.mode = s.mode := by
  refine ⟨s.checked x, execCensusCheck_good hx ho hf h, ?_, checked_seq, fun i hi => ?_, ?_, fun a ha => ?_,
    checked_write.cores, checked_mode⟩
  · rw [checked_write.census]
  · rw [checked_word, if_pos (by omega), Nat.add_sub_cancel_left]
  · rw [checked_stat, bit_setFld_same _ _ (by decide), Nat.zero_testBit]
  · rw [checked_word, if_neg (by omega)]

/-- A sample that fails, on a module without a peer in RUN (R38). -/
theorem censusCheck_bad (hx : s.census.sample = some x) (ho : s.census.older = []) (hf : s.census.final = false) {kind id : Nat}
    (h : x.failure = some (kind, id)) (hfirst : bit (s.reg offCensusStat) 2 = false) (hrole : s.role = 0) (hmode : s.mode = 4) :
    ∃ u, exec .censusCheck s = .next u ∧ u.mode = 7 ∧ bit (u.reg offCensusStat) 2 = true ∧
      u.rfld offCensusStat 7 4 = kind ∧ u.rfld offCensusStat 19 8 = id := by
  obtain ⟨hk, hid⟩ := failure_bounds h
  have hfirst' : bit ((s.checked x).reg offCensusStat) 2 = false := by rw [checked_stat, bit_setFld_other _ _ (by decide), hfirst]
  exact ⟨_, execCensusCheck_bad hx ho hf h, integrityFault_halts hk hid hfirst' (by rw [checked_role, hrole]; decide)
    (by rw [checked_mode, hmode]; decide) (by rw [checked_mode, hmode]; decide)⟩

theorem censusCheck_idle (h : s.census.sample = none ∨ s.census.final = true) : exec .censusCheck s = .next s := by
  show execCensusCheck s = _
  rcases h with h | h
  · have hnext : s.census.nextCheck = none := by simp only [Census.nextCheck, h]
    simp only [execCensusCheck, hnext, ite_self]
  · simp only [execCensusCheck, h, if_true]

end

theorem exec_crownLockstepDifference (s : State) : exec .crownLockstepDifference s = .next (s.integrityFault 5 0) := rfl

/-- Settles O34: the sample and its check, and every failure through HALT, which keeps what the fault declared (R36 - R38, R41, R42). -/
theorem censusEvents : Obligations.CensusEvents := by
  unfold Obligations.CensusEvents
  intro s
  refine ⟨fun hruns hdue hrole => ?_, censusInstant_early, fun x hx ho hf => ⟨censusCheck_good hx ho hf,
    fun kind id => censusCheck_bad hx ho hf⟩, censusCheck_idle, fun hfirst hrole hmode => ?_⟩
  · obtain ⟨u, hexec, hcensus, hrun, hmem⟩ := censusInstant_due hruns hdue hrole
    refine ⟨u, hexec, ?_, by rw [hcensus]; rfl, by rw [hcensus]; rfl, hrun, hmem⟩
    rw [hcensus, ← censusSample_eq]
    rfl
  · obtain ⟨h7, hbit, hkind, hid⟩ := integrityFault_halts (kind := 5) (id := 0) (by omega) (by omega) hfirst
      (by rw [hrole]; decide) (by rw [hmode]; decide) (by rw [hmode]; decide)
    exact ⟨_, exec_crownLockstepDifference s, h7, hkind, hid, hbit⟩

end Sys2Proof.Machine
end

section
/-! SUPPORT. Compare failures (R545): what a paired active module gives up, and what a failure declares. -/

namespace Sys2Proof.Machine

section
variable (s : State)

theorem pairReleased_reg {o : Nat} (h : Declares o) : s.pairReleased.reg o = s.reg o := (pairReleased_halts s).word o h

theorem pairFail_pair : s.pairFail.reg (offPair 0) = setFld (s.reg (offPair 0)) 35 34 3 := by
  rw [pairFail_eq, (halt_halts _).pair, setRfld_reg, pairReleased_reg s (.inr (.inr rfl))]

theorem pairFail_census : s.pairFail.reg offCensusStat = s.reg offCensusStat := by
  rw [pairFail_eq, (halt_halts _).census, setRfld_reg_ne _ _ _ _ _ _ (by decide), pairReleased_reg s (.inr (.inl rfl))]

theorem pairFail_role : s.pairFail.role = 3 := by
  rw [State.role, State.rfld, pairFail_pair, fld_setFld_same _ _ _ (by decide)]
  rfl

theorem pairFail_mode {s : State} (h0 : s.mode ≠ 0) (h1 : s.mode ≠ 1) : s.pairFail.mode = 7 := by
  have hmode : (s.pairReleased.setRfld (offPair 0) 35 34 3).mode = s.mode := by
    rw [State.mode, State.rfld, setRfld_reg_ne _ _ _ _ _ _ (by decide), pairReleased_reg s (.inl rfl)]; rfl
  rw [pairFail_eq]
  exact halt_mode (by rwa [hmode]) (by rwa [hmode])

theorem pairFail_gate : s.pairFail.peer.gate = true := by
  rw [pairFail_eq, (halt_halts _).gate, State.setRfld, setReg_peer, (pairReleased_halts s).gate]

theorem pairFail_sent : Msg.release 1 ∈ s.pairFail.outbox := by
  rw [pairFail_eq]
  refine (halt_halts _).sent ?_
  rw [State.setRfld, setReg_outbox]
  exact pairReleased_sent s

theorem pairFail_undriven {p : Nat} (hp : p < 24) : (s.pairFail.pair p).driven = false := by
  rw [pairFail_eq]
  refine (halt_halts _).undriven p ?_
  rw [State.setRfld, State.pair, setReg_pwm]
  exact pairReleased_undriven s hp

theorem pairFail_resident {s : State} (hx : s.exch.phase = .none) {i : Nat} (hi : i < 45) : (s.pairFail.stream i).resident = 0 := by
  have hphase : s.pairReleased.exch.phase = .none := (pairReleased_halts s).settled hx
  have hquiet : s.pairReleased.portsQuiet := dropResident_quiet _ 7
  have hstream : (s.pairReleased.stream i).resident = 0 := dropResident_resident _ 7 hi
  have hexch : (s.pairReleased.setRfld (offPair 0) 35 34 3).exch = s.pairReleased.exch := setReg_exch _ _ _
  have hcensus : (s.pairReleased.setRfld (offPair 0) 35 34 3).census = s.pairReleased.census := setReg_census _ _ _
  rw [pairFail_eq]
  exact halt_resident (s := s.pairReleased.setRfld (offPair 0) 35 34 3) (by rw [hexch, hphase])
    (hquiet.of_cans (setReg_cans _ _ _)) (by rw [State.stream, hcensus]; exact hstream)

end

section
variable (s : State) (kind : BitVec 4) (index : BitVec 10)

/-- PAIR.STAT shows what failed (R545). -/
def State.compareShown (s : State) (kind : BitVec 4) (index : BitVec 10) : State :=
  (s.setRfld (offPair 0) 29 26 kind.toNat).setRfld (offPair 0) 25 16 index.toNat

/-- The first failure after a reset is declared. -/
def State.compareDeclared (s : State) (kind : BitVec 4) (index : BitVec 10) : State :=
  ((s.compareShown kind index).setRfld offCensusStat 2 2 1).faultKind snapIntegrity

theorem exec_compareFailure : exec (.compareFailure kind index) s = .next
    (if !s.comparesAt kind.toNat index.toNat || s.modes.inReset then s
     else if (s.compareShown kind index).rfld offCensusStat 2 2 = 1 then s.compareShown kind index
     else if (s.compareDeclared kind index).role = 1 then (s.compareDeclared kind index).pairFail
     else (s.compareDeclared kind index).halt) := rfl

theorem compareShown_reg_ne {o : Nat} (h : o ≠ offPair 0) : (s.compareShown kind index).reg o = s.reg o := by
  rw [State.compareShown, setRfld_reg_ne _ _ _ _ _ _ h, setRfld_reg_ne _ _ _ _ _ _ h]

theorem compareShown_frame : RegStep s (s.compareShown kind index) :=
  (setRfld_regStep _ _ _ _ _).trans (setRfld_regStep _ _ _ _ _)

theorem compareShown_pair :
    (s.compareShown kind index).reg (offPair 0) = setFld (setFld (s.reg (offPair 0)) 29 26 kind.toNat) 25 16 index.toNat := by
  rw [State.compareShown, setRfld_reg, setRfld_reg]

theorem compareDeclared_drains : DrainStep ((s.compareShown kind index).setRfld offCensusStat 2 2 1) (s.compareDeclared kind index) :=
  faultKind_drains _ _

theorem compareDeclared_pair : (s.compareDeclared kind index).reg (offPair 0) = (s.compareShown kind index).reg (offPair 0) := by
  rw [(compareDeclared_drains s kind index).word _ (.inr (.inr rfl)), setRfld_reg_ne _ _ _ _ _ _ (by decide)]

theorem compareDeclared_census : bit ((s.compareDeclared kind index).reg offCensusStat) 2 = true := by
  rw [(compareDeclared_drains s kind index).word _ (.inr (.inl rfl)), setRfld_reg, bit_setFld_same _ _ (by decide), Nat.testBit_one_zero]

theorem compareDeclared_mode : (s.compareDeclared kind index).mode = s.mode := by
  rw [State.mode, State.rfld, (compareDeclared_drains s kind index).word _ (.inl rfl), setRfld_reg_ne _ _ _ _ _ _ (by decide),
    compareShown_reg_ne _ _ _ (by decide)]
  rfl

theorem compareDeclared_role : (s.compareDeclared kind index).role = s.role := by
  rw [State.role, State.rfld, compareDeclared_pair, compareShown_pair, fld_setFld_other _ _ (by decide), fld_setFld_other _ _ (by decide)]
  rfl

theorem compareDeclared_phase (h : s.exch.phase = .none) : (s.compareDeclared kind index).exch.phase = .none := by
  refine (compareDeclared_drains s kind index).settled ?_
  rw [State.setRfld, setReg_exch, State.compareShown, State.setRfld, setReg_exch, State.setRfld, setReg_exch, h]

/-- The kind and the index that PAIR.STAT shows. -/
def ComparesShown (w : Word) (kind : BitVec 4) (index : BitVec 10) : Prop := fld w 29 26 = kind.toNat ∧ fld w 25 16 = index.toNat

theorem compareShown_shows : ComparesShown ((s.compareShown kind index).reg (offPair 0)) kind index := by
  have hk : kind.toNat < 16 := kind.isLt
  have hi : index.toNat < 1024 := index.isLt
  rw [compareShown_pair]
  constructor
  · rw [fld_setFld_other _ _ (by decide), fld_setFld_same _ _ _ (by decide)]
    omega
  · rw [fld_setFld_same _ _ _ (by decide)]
    omega

/-- ROLE stands apart from both. -/
theorem ComparesShown.setRole {w : Word} {kind : BitVec 4} {index : BitVec 10} (h : ComparesShown w kind index) (v : Nat) :
    ComparesShown (setFld w 35 34 v) kind index := by
  rw [ComparesShown, fld_setFld_other _ _ (by decide), fld_setFld_other _ _ (by decide)]
  exact h

/-- The word of the statement for what may be compared, and the model's test. -/
theorem comparesAt_iff : s.comparesAt kind.toNat index.toNat = true ↔
    if kind = 1 then (s.lane index.toNat).configured = true ∧ (s.lane index.toNat).compared = true
    else 2 ≤ kind.toNat ∧ kind.toNat ≤ 5 ∧ index.toNat < 64 ∧ bit (s.word (0x2702000 + 2 * index.toNat)) 35 = true := by
  have hkind : kind.toNat = 1 ↔ kind = 1 := by
    rw [← BitVec.toNat_inj]; rfl
  by_cases h : kind = 1
  · rw [State.comparesAt, if_pos (hkind.2 h), if_pos h, Bool.and_eq_true]
  · rw [State.comparesAt, if_neg (mt hkind.1 h), if_neg h]
    simp only [Bool.and_eq_true, decide_eq_true_eq]
    tauto

end

section
variable {s : State} {kind : BitVec 4} {index : BitVec 10}

theorem compareFailure_void (h : s.comparesAt kind.toNat index.toNat = false ∨ s.modes.inReset = true) :
    exec (.compareFailure kind index) s = .next s := by
  rw [exec_compareFailure, if_pos (by rcases h with h | h <;> simp [h])]

section
variable (h : s.comparesAt kind.toNat index.toNat = true) (hreset : s.modes.inReset = false)
include h hreset

theorem compareFailure_again (hfirst : bit (s.reg offCensusStat) 2 = true) :
    exec (.compareFailure kind index) s = .next (s.compareShown kind index) := by
  have hdone : (s.compareShown kind index).rfld offCensusStat 2 2 = 1 := by
    rw [State.rfld, compareShown_reg_ne _ _ _ (by decide), fld_bit, hfirst]; rfl
  rw [exec_compareFailure, if_neg (by simp [h, hreset]), if_pos hdone]

theorem compareFailure_first (hfirst : bit (s.reg offCensusStat) 2 = false) :
    exec (.compareFailure kind index) s = .next (if s.role = 1 then (s.compareDeclared kind index).pairFail
      else (s.compareDeclared kind index).halt) := by
  have hdone : (s.compareShown kind index).rfld offCensusStat 2 2 ≠ 1 := by
    rw [State.rfld, compareShown_reg_ne _ _ _ (by decide), fld_bit, hfirst]; decide
  rw [exec_compareFailure, if_neg (by simp [h, hreset]), if_neg hdone, compareDeclared_role]

end

/-- What the first failure after a reset ends in. -/
theorem compareFailure_effect (h : s.comparesAt kind.toNat index.toNat = true) (hreset : s.modes.inReset = false) :
    ∃ u, exec (.compareFailure kind index) s = .next u ∧
      u.rfld (offPair 0) 29 26 = kind.toNat ∧ u.rfld (offPair 0) 25 16 = index.toNat ∧
      (¬ bit (s.reg offCensusStat) 2 = false → u = { s with regs := u.regs } ∧ (∀ o, o ≠ offPair 0 → u.reg o = s.reg o)) ∧
      (bit (s.reg offCensusStat) 2 = false → bit (u.reg offCensusStat) 2 = true) ∧
      (bit (s.reg offCensusStat) 2 = false → s.mode ≠ 0 → s.mode ≠ 1 → u.mode = 7) ∧
      (bit (s.reg offCensusStat) 2 = false → s.role ≠ 1 → u.role = s.role) ∧
      (bit (s.reg offCensusStat) 2 = false → s.role = 1 → u.role = 3 ∧ u.peer.gate = true ∧ Msg.release 1 ∈ u.outbox ∧
        (s.exch.phase = .none → ∀ i < 45, (u.stream i).resident = 0) ∧ (∀ p < 24, (u.pair p).driven = false)) := by
  have hshown := compareShown_shows s kind index
  by_cases hfirst : bit (s.reg offCensusStat) 2 = false
  · have hshown' : ComparesShown ((s.compareDeclared kind index).reg (offPair 0)) kind index := by rwa [compareDeclared_pair]
    have hmode := compareDeclared_mode s kind index
    refine ⟨_, compareFailure_first h hreset hfirst, ?_⟩
    by_cases hrole : s.role = 1
    · obtain ⟨hkind, hindex⟩ : ComparesShown ((s.compareDeclared kind index).pairFail.reg (offPair 0)) kind index := by
        rw [pairFail_pair]; exact hshown'.setRole 3
      rw [if_pos hrole]
      exact ⟨hkind, hindex, fun hn => absurd hfirst hn, fun _ => by rw [pairFail_census]; exact compareDeclared_census _ _ _,
        fun _ h0 h1 => pairFail_mode (by rwa [hmode]) (by rwa [hmode]), fun _ hn => absurd hrole hn,
        fun _ _ => ⟨pairFail_role _, pairFail_gate _, pairFail_sent _,
          fun hx i hi => pairFail_resident (compareDeclared_phase _ _ _ hx) hi, fun p hp => pairFail_undriven _ hp⟩⟩
    · have hhalt := halt_halts (s.compareDeclared kind index)
      obtain ⟨hkind, hindex⟩ : ComparesShown ((s.compareDeclared kind index).halt.reg (offPair 0)) kind index := by
        rw [hhalt.pair]; exact hshown'
      rw [if_neg hrole]
      refine ⟨hkind, hindex, fun hn => absurd hfirst hn, fun _ => by rw [hhalt.census]; exact compareDeclared_census _ _ _,
        fun _ h0 h1 => halt_mode (by rwa [hmode]) (by rwa [hmode]), fun _ _ => ?_, fun _ hp => absurd hp hrole⟩
      rw [State.role, State.rfld, hhalt.pair]
      exact compareDeclared_role s kind index
  · obtain ⟨hkind, hindex⟩ := hshown
    exact ⟨_, compareFailure_again h hreset (by simpa using hfirst), hkind, hindex,
      fun _ => ⟨compareShown_frame s kind index, fun o ho => compareShown_reg_ne s kind index ho⟩, fun hf => absurd hf hfirst, fun hf => absurd hf hfirst,
      fun hf => absurd hf hfirst, fun hf => absurd hf hfirst⟩

end

end Sys2Proof.Machine
end

section
/-! SUPPORT. The end of a trial (R587): the banks of its classes change back, Brim restarts where its own has changed, and BOOT begins. -/

namespace Sys2Proof.Machine

/-! ### Banks -/

/-- The banks of one class change places. -/
def State.swapBank (s : State) (c : Nat) : State :=
  let a := s.runBank c
  let b := s.spareBank c
  State.setReg { s with store := { s.store with
    running := Tab.put {} s.store.running c b, spare := Tab.put {} s.store.spare c a } } (offVer c) b.version

theorem swapBanks_eq (s : State) (cs : List Nat) : s.swapBanks cs = cs.foldl State.swapBank s := rfl

section
variable (s : State) (c : Nat)

theorem swapBank_run : (s.swapBank c).runBank c = s.spareBank c := Tab.get_put_same _ _ _ _
theorem swapBank_spare : (s.swapBank c).spareBank c = s.runBank c := Tab.get_put_same _ _ _ _
theorem swapBank_run_ne {j : Nat} (h : j ≠ c) : (s.swapBank c).runBank j = s.runBank j := Tab.get_put_other _ _ _ _ h
theorem swapBank_spare_ne {j : Nat} (h : j ≠ c) : (s.swapBank c).spareBank j = s.spareBank j := Tab.get_put_other _ _ _ _ h
theorem swapBank_version : (s.swapBank c).reg (offVer c) = (s.spareBank c).version := setReg_reg _ _ _
theorem swapBank_reg_ne {o : Nat} (h : o ≠ offVer c) : (s.swapBank c).reg o = s.reg o := setReg_reg_ne _ _ _ _ h

/-- Banks that change places leave all but the registers and the two tables. -/
def SwapStep (s t : State) : Prop :=
  t = { s with regs := t.regs, store := { s.store with running := t.store.running, spare := t.store.spare } }

theorem SwapStep.trans {s t u : State} (h : SwapStep s t) (g : SwapStep t u) : SwapStep s u := by
  unfold SwapStep at *
  rw [g, h]

theorem swapBank_step : SwapStep s (s.swapBank c) := rfl

theorem swapBanks_step (cs : List Nat) : SwapStep s (s.swapBanks cs) :=
  List.foldlRecOn (motive := SwapStep s) cs State.swapBank rfl fun t ht c _ => ht.trans (swapBank_step t c)

end

/-- What banks of other classes, and their versions, are after some have changed places. -/
theorem swapBanks_other (s : State) {cs : List Nat} {c : Nat} (h : c ∉ cs) :
    (s.swapBanks cs).runBank c = s.runBank c ∧ (s.swapBanks cs).spareBank c = s.spareBank c ∧
    (s.swapBanks cs).reg (offVer c) = s.reg (offVer c) := by
  refine List.foldlRecOn (motive := fun t : State =>
    t.runBank c = s.runBank c ∧ t.spareBank c = s.spareBank c ∧ t.reg (offVer c) = s.reg (offVer c)) cs State.swapBank ⟨rfl, rfl, rfl⟩ ?_
  intro t ⟨hrun, hspare, hver⟩ j hj
  have hne : c ≠ j := fun he => h (he ▸ hj)
  exact ⟨(swapBank_run_ne t j hne).trans hrun, (swapBank_spare_ne t j hne).trans hspare,
    (swapBank_reg_ne t j (by unfold offVer; omega)).trans hver⟩

/-- What the banks of a class, and its version, are after they have changed places. -/
theorem swapBanks_mem (s : State) {cs : List Nat} (hcs : cs.Nodup) {c : Nat} (h : c ∈ cs) :
    (s.swapBanks cs).runBank c = s.spareBank c ∧ (s.swapBanks cs).spareBank c = s.runBank c ∧
    (s.swapBanks cs).reg (offVer c) = (s.spareBank c).version := by
  obtain ⟨a, b, rfl⟩ := List.append_of_mem h
  have ha : c ∉ a := fun hm => (List.nodup_append.1 hcs).2.2 c hm c (by simp) rfl
  have hb : c ∉ b := (List.nodup_cons.1 (List.nodup_append.1 hcs).2.1).1
  have heq : s.swapBanks (a ++ c :: b) = ((s.swapBanks a).swapBank c).swapBanks b := by
    simp only [swapBanks_eq, List.foldl_append, List.foldl_cons]
  obtain ⟨hrun, hspare, -⟩ := swapBanks_other s ha
  obtain ⟨hrun', hspare', hver'⟩ := swapBanks_other ((s.swapBanks a).swapBank c) hb
  rw [heq, hrun', hspare', hver', swapBank_run, swapBank_spare, swapBank_version, hrun, hspare]
  exact ⟨rfl, rfl, rfl⟩

theorem swapBanks_reg (s : State) {cs : List Nat} {o : Nat} (h : o < 0x18) : (s.swapBanks cs).reg o = s.reg o :=
  List.foldlRecOn (motive := fun t : State => t.reg o = s.reg o) cs State.swapBank rfl fun t ht c _ =>
    (swapBank_reg_ne t c (by unfold offVer; omega)).trans ht

theorem mem_hoods {s : State} {c : Nat} : c ∈ s.hoods ↔ (1 ≤ c ∧ c ≤ 5) ∧ bit (s.reg (offUpd 0)) (26 + c) = true := by
  simp only [State.hoods, List.mem_filterMap, List.mem_range]
  constructor
  · rintro ⟨i, hi, h⟩
    split at h
    · next hb =>
      obtain rfl : i + 1 = c := by simpa using h
      exact ⟨by omega, by rw [show 26 + (i + 1) = 27 + i by omega]; exact hb⟩
    · simp at h
  · rintro ⟨hc, hb⟩
    refine ⟨c - 1, by omega, ?_⟩
    rw [show 27 + (c - 1) = 26 + c by omega, if_pos hb, show c - 1 + 1 = c by omega]

theorem hoods_nodup (s : State) : s.hoods.Nodup := by
  refine List.Nodup.filterMap (fun i j b hi hj => ?_) List.nodup_range
  simp only [Option.mem_def] at hi hj
  split at hi
  · split at hj
    · simp only [Option.some.injEq] at hi hj
      omega
    · simp at hj
  · simp at hi

/-! ### Brim's restart -/

/-- A step that leaves the banks, the queue, and the registers of the update unit (R589). -/
structure BankStep (s t : State) : Prop where
  store : t.store = s.store
  pending : t.pending = s.pending
  reg : ∀ o, 0x14 ≤ o → o < 0x20 → t.reg o = s.reg o

theorem BankStep.refl (s : State) : BankStep s s := ⟨rfl, rfl, fun _ _ _ => rfl⟩
theorem BankStep.trans {s t u : State} (h : BankStep s t) (g : BankStep t u) : BankStep s u :=
  ⟨g.store.trans h.store, g.pending.trans h.pending, fun o hl hh => (g.reg o hl hh).trans (h.reg o hl hh)⟩

section
variable (s : State)

theorem setReg_bank {o : Nat} (v : Word) (h : 0x20 ≤ o) : BankStep s (s.setReg o v) :=
  ⟨rfl, rfl, fun _ _ _ => setReg_reg_ne _ _ _ _ (by omega)⟩

theorem setRfld_bank {o : Nat} (hi lo v : Nat) (h : 0x20 ≤ o) : BankStep s (s.setRfld o hi lo v) := setReg_bank s _ h
theorem incReg_bank {o : Nat} (k : Nat) (h : 0x20 ≤ o) : BankStep s (s.incReg o k) := setReg_bank s _ h

theorem agentWrite_bank (a : Nat) (ws : List Word) : BankStep s (s.agentWrite a ws) := by
  refine ⟨by rw [(agentWrite_write s a ws).same], (agentWrite_write s a ws).pending, fun o hl hh => agentWrite_reg (fun hc => ?_) s a ws⟩
  unfold MemCounter offMemCorr at hc
  omega

theorem msix_bank (v : Nat) : BankStep s (s.msix v) := by rw [msix_eq]; exact ⟨rfl, rfl, fun _ _ _ => rfl⟩

theorem eventEntry_bank (a b c : Word) : BankStep s (s.eventEntry a b c) := by
  unfold State.eventEntry
  extract_lets t n u
  have hhost : BankStep u { u with host := { u.host with evpi := wd (n + 1) } } := ⟨rfl, rfl, fun _ _ _ => rfl⟩
  exact ((agentWrite_bank s _ _).trans hhost).trans (msix_bank _ _)

theorem setBrim_bank (x : Brim) : BankStep s { s with brim := x } := ⟨rfl, rfl, fun _ _ _ => rfl⟩
theorem setOutbox_bank (x : List Msg) : BankStep s { s with outbox := x } := ⟨rfl, rfl, fun _ _ _ => rfl⟩

theorem offBrim_high (w : Nat) : 0x20 ≤ offBrim w := by unfold offBrim; omega

theorem BankStep.ite {s t u : State} {p : Prop} [Decidable p] (ht : BankStep s t) (hu : BankStep s u) : BankStep s (if p then t else u) := by
  split
  · exact ht
  · exact hu

theorem setSto_bank (k st cause : Nat) : BankStep s (s.setSto k st cause) := by
  unfold State.setSto
  split
  · exact .refl s
  extract_lets pin a b c d
  have ha : BankStep s a := setRfld_bank s _ _ _ (offBrim_high 0)
  have hb : BankStep s b := .ite ((ha.trans (setRfld_bank a _ _ _ (offBrim_high 2))).trans (incReg_bank _ _ (offBrim_high 4))) ha
  have hc : BankStep s c := hb.trans (setBrim_bank b _)
  have hd : BankStep s d := .ite (hc.trans (setOutbox_bank c _)) hc
  exact hd.trans (eventEntry_bank d _ _ _)

theorem brimRestart_bank : BankStep s s.brimRestart := by
  have hopen : BankStep s (s.openAll 6) := List.foldlRecOn (motive := BankStep s) _ _ (.refl s) fun t ht k _ => ht.trans (setSto_bank t k 0 6)
  unfold State.brimRestart
  extract_lets a b
  have hb : BankStep s b := ((hopen.trans (setRfld_bank a _ _ _ (offBrim_high 0))).trans (setReg_bank _ _ (offBrim_high 1))).trans
    (setReg_bank _ _ (offBrim_high 3))
  exact hb.trans (setBrim_bank b _)

end

end Sys2Proof.Machine
end

section
/-! SUPPORT. The reset that ends a trial (R574, R587). -/

namespace Sys2Proof.Machine

theorem Tab.get_filter {α : Type} (d : α) (p : Nat → Bool) (t : Tab α) (k : Nat) :
    Tab.get d (t.filter fun e => p e.1) k = if p k then Tab.get d t k else d := by
  induction t with
  | nil => simp
  | cons e r ih =>
    obtain ⟨j, v⟩ := e
    by_cases hp : p j = true
    · rw [List.filter_cons_of_pos (by simpa using hp), Tab.get, Tab.get, ih]
      by_cases hj : j = k
      · subst hj
        simp [hp]
      · simp [hj]
    · rw [List.filter_cons_of_neg (by simpa using hp), ih, Tab.get]
      by_cases hj : j = k
      · subst hj
        simp [hp]
      · simp [hj]

section
variable (s : State)

/-- The registers that a reset keeps (R574). -/
theorem bare_reg (powerOn : Bool) {o : Nat} (h : keptReg powerOn o = true) : (s.bare powerOn).reg o = s.reg o := by
  have hget := Tab.get_filter (regReset o) (keptReg powerOn) s.regs o
  rw [if_pos h] at hget
  exact hget

/-- The recorder's own fields apart, nothing changes (R491). -/
theorem evrCollect_eq : s.evrCollect = { s with evr := s.evrCollect.evr } :=
  List.foldlRecOn (motive := fun t : State => t = { s with evr := t.evr }) _ _ rfl fun t ht h _ => by
    rw [ht]
    rfl

/-- The choice of banks at the reset that ends a trial (R587). -/
def State.fallenBack (s : State) : State :=
  (((s.swapBanks s.hoods).setRfld (offUpd 0) 31 27 0).setRfld (offUpd 0) 35 32 3).setStore
    { (s.swapBanks s.hoods).store with fallback := false, spent := 0, installed := [] }

theorem chooseBanks_fallback {s : State} (cause : Nat) (hf : s.store.fallback = true) (ht : bit (s.reg offSysMode) 5 = true) :
    s.chooseBanks cause = (s.fallenBack, 0xC, false) := by
  simp only [State.chooseBanks, hf, ht, Bool.and_self, if_true]
  rfl

/-- Brim restarts where its banks have changed and it is not in FAULT. -/
def State.brimSettled (s : State) (brim : Bank) : State := if s.runBank 5 != brim && s.brimState != 2 then s.brimRestart else s

theorem brimSettled_bank (brim : Bank) : BankStep s (s.brimSettled brim) := .ite (brimRestart_bank s) (.refl s)

/-- BOOT begins after a reset that is not a power-on reset and ends a trial (R571, R574). -/
def State.bootBegun (s : State) (cause old : Nat) : State :=
  State.setReg { s.bare false with
    store := { s.store with recover := false, bootFails := s.store.bootFails, spentAt := 0 }, evr := { s.evr with last := [] } }
    offSysMode (wd (at_ cause 12 + at_ old 8 + at_ (b2n false) 5 + 1))

/-- A reset whose choice of banks, and the state that Brim is left in, are known, and which neither asks for RECOVERY nor must end there. -/
theorem reboot_bootBegun {s t : State} {cause : Nat} (hreset : s.modes.inReset = false) (hmode : s.mode ≠ 0)
    (hchoice : s.evrCollect.chooseBanks cause = (t, 0xC, false)) (hrecover : (t.brimSettled (s.runBank 5)).store.recover = false)
    (hfails : (t.brimSettled (s.runBank 5)).store.bootFails < 3)
    (hcrown : ((t.brimSettled (s.runBank 5)).runBank 4).good = true ∨ ((t.brimSettled (s.runBank 5)).spareBank 4).good = true) :
    s.reboot false cause false = (t.brimSettled (s.runBank 5)).bootBegun 0xC s.mode := by
  have hnoCrown : (!((t.brimSettled (s.runBank 5)).runBank 4).good && !((t.brimSettled (s.runBank 5)).spareBank 4).good) = false := by
    rcases hcrown with h | h <;> simp [h]
  have hfew : decide (3 ≤ (t.brimSettled (s.runBank 5)).store.bootFails) = false := by simpa using hfails
  simp only [State.reboot, hchoice]
  rw [← State.brimSettled]
  simp only [hreset, hrecover, hfew, hnoCrown, hmode, Bool.false_eq_true, if_false, decide_false, Bool.false_and, Bool.or_self]
  rfl

end

/-! ### What the fallback leaves -/

section
variable (s : State)

theorem setStore_store (x : Store) : (s.setStore x).store = x := rfl
theorem setStore_pending (x : Store) : (s.setStore x).pending = s.pending := rfl

theorem evrCollect_store : s.evrCollect.store = s.store := by rw [evrCollect_eq]
theorem evrCollect_pending : s.evrCollect.pending = s.pending := by rw [evrCollect_eq]
theorem evrCollect_regs : s.evrCollect.regs = s.regs := by rw [evrCollect_eq]
theorem evrCollect_reg (o : Nat) : s.evrCollect.reg o = s.reg o := congrArg (fun t => Tab.get (regReset o) t o) (evrCollect_regs s)
theorem evrCollect_hoods : s.evrCollect.hoods = s.hoods := by simp only [State.hoods, evrCollect_reg]
theorem evrCollect_runBank (c : Nat) : s.evrCollect.runBank c = s.runBank c :=
  congrArg (fun x : Store => Tab.get ({} : Bank) x.running c) (evrCollect_store s)
theorem evrCollect_spareBank (c : Nat) : s.evrCollect.spareBank c = s.spareBank c :=
  congrArg (fun x : Store => Tab.get ({} : Bank) x.spare c) (evrCollect_store s)

theorem fallenBack_store :
    s.fallenBack.store = { (s.swapBanks s.hoods).store with fallback := false, spent := 0, installed := [] } := setStore_store _ _

theorem fallenBack_recover : s.fallenBack.store.recover = s.store.recover := by
  rw [fallenBack_store, swapBanks_step s s.hoods]

theorem fallenBack_bootFails : s.fallenBack.store.bootFails = s.store.bootFails := by
  rw [fallenBack_store, swapBanks_step s s.hoods]

theorem fallenBack_pending : s.fallenBack.pending = s.pending := by
  rw [State.fallenBack, setStore_pending, State.setRfld, setReg_pending, State.setRfld, setReg_pending, swapBanks_step s s.hoods]

theorem fallenBack_runBank (c : Nat) : s.fallenBack.runBank c = (s.swapBanks s.hoods).runBank c := by
  rw [State.runBank, fallenBack_store, State.runBank]

theorem fallenBack_spareBank (c : Nat) : s.fallenBack.spareBank c = (s.swapBanks s.hoods).spareBank c := by
  rw [State.spareBank, fallenBack_store, State.spareBank]

theorem fallenBack_version (c : Nat) : s.fallenBack.reg (offVer c) = (s.swapBanks s.hoods).reg (offVer c) := by
  have hne : offVer c ≠ offUpd 0 := by unfold offVer offUpd; omega
  rw [State.fallenBack, setStore_reg, setRfld_reg_ne _ _ _ _ _ _ hne, setRfld_reg_ne _ _ _ _ _ _ hne]

/-- UPD.STAT shows the fallback, and no class is on trial. -/
theorem fallenBack_update : s.fallenBack.reg (offUpd 0) = setFld (setFld (s.reg (offUpd 0)) 31 27 0) 35 32 3 := by
  rw [State.fallenBack, setStore_reg, setRfld_reg, setRfld_reg, swapBanks_reg s (by decide)]

/-- One of the two banks of a class is good after the choice as before. -/
theorem fallenBack_good {c : Nat} (h : (s.runBank c).good = true ∨ (s.spareBank c).good = true) :
    (s.fallenBack.runBank c).good = true ∨ (s.fallenBack.spareBank c).good = true := by
  rw [fallenBack_runBank, fallenBack_spareBank]
  by_cases hc : c ∈ s.hoods
  · obtain ⟨hrun, hspare, -⟩ := swapBanks_mem s (hoods_nodup s) hc
    rw [hrun, hspare]
    exact h.symm
  · obtain ⟨hrun, hspare, -⟩ := swapBanks_other s hc
    rw [hrun, hspare]
    exact h

/-- What BOOT begins with: SYS.MODE, the kept registers, the banks and the queue. -/
theorem bootBegun_mode (cause old : Nat) :
    (s.bootBegun cause old).reg offSysMode = wd (at_ cause 12 + at_ old 8 + at_ (b2n false) 5 + 1) := setReg_reg _ _ _

theorem bootBegun_reg (cause old : Nat) {o : Nat} (hk : keptReg false o = true) (h : o ≠ offSysMode) :
    (s.bootBegun cause old).reg o = s.reg o := (setReg_reg_ne _ _ _ _ h).trans (bare_reg s false hk)

theorem bootBegun_store (cause old : Nat) : (s.bootBegun cause old).store =
    { s.store with recover := false, bootFails := s.store.bootFails, spentAt := 0 } := by rw [State.bootBegun, setReg_store]

theorem bootBegun_runBank (cause old c : Nat) : (s.bootBegun cause old).runBank c = s.runBank c := by
  rw [State.runBank, bootBegun_store, State.runBank]

theorem bootBegun_spareBank (cause old c : Nat) : (s.bootBegun cause old).spareBank c = s.spareBank c := by
  rw [State.spareBank, bootBegun_store, State.spareBank]

theorem bootBegun_pending (cause old : Nat) : (s.bootBegun cause old).pending = s.pending := by
  rw [State.bootBegun, setReg_pending]
  rfl

/-- Tasks, cores, lanes and the host's fields start anew. -/
theorem bootBegun_bare (cause old : Nat) : (s.bootBegun cause old).cores = [] ∧ (s.bootBegun cause old).tasks = [] ∧
    (s.bootBegun cause old).lanes = [] ∧ (s.bootBegun cause old).host = {} := by
  rw [State.bootBegun, setReg_cores, setReg_tasks, setReg_lanes, setReg_host]
  exact ⟨rfl, rfl, rfl, rfl⟩

end

theorem keptReg_ver (powerOn : Bool) {c : Nat} (h : 1 ≤ c ∧ c ≤ 5) : keptReg powerOn (offVer c) = true := by
  have hrange : (decide (offVer 1 ≤ offVer c) && decide (offVer c ≤ offVer 5)) = true := by
    rw [Bool.and_eq_true, decide_eq_true_eq, decide_eq_true_eq]
    unfold offVer
    omega
  simp [keptReg, hrange]

/-! ### CONFIRM_WINDOW_EXPIRY -/

/-- The trial falls back at the next reset. -/
def State.fallbackSet (s : State) : State := s.setStore { s.store with fallback := true }

/-- The state after the choice of banks that ends a trial, with Brim restarted where its own have changed. -/
def State.trialEnded (s : State) : State := s.fallbackSet.evrCollect.fallenBack.brimSettled (s.runBank 5)

section
variable (s : State)

theorem fallbackSet_reg (o : Nat) : s.fallbackSet.evrCollect.reg o = s.reg o := evrCollect_reg _ o
theorem fallbackSet_hoods : s.fallbackSet.evrCollect.hoods = s.hoods := evrCollect_hoods _
theorem fallbackSet_runBank (c : Nat) : s.fallbackSet.evrCollect.runBank c = s.runBank c := evrCollect_runBank _ c
theorem fallbackSet_spareBank (c : Nat) : s.fallbackSet.evrCollect.spareBank c = s.spareBank c := evrCollect_spareBank _ c

theorem fallbackSet_store : s.fallbackSet.evrCollect.store = { s.store with fallback := true } := evrCollect_store _

theorem trialEnded_bank : BankStep s.fallbackSet.evrCollect.fallenBack s.trialEnded := brimSettled_bank _ _

theorem trialEnded_recover : s.trialEnded.store.recover = s.store.recover := by
  rw [(trialEnded_bank s).store, fallenBack_recover, fallbackSet_store]

theorem trialEnded_bootFails : s.trialEnded.store.bootFails = s.store.bootFails := by
  rw [(trialEnded_bank s).store, fallenBack_bootFails, fallbackSet_store]

theorem trialEnded_pending : s.trialEnded.pending = s.pending := by
  rw [(trialEnded_bank s).pending, fallenBack_pending, evrCollect_pending]
  rfl

theorem trialEnded_runBank (c : Nat) : s.trialEnded.runBank c = s.fallbackSet.evrCollect.fallenBack.runBank c := by
  rw [State.runBank, (trialEnded_bank s).store, State.runBank]

theorem trialEnded_spareBank (c : Nat) : s.trialEnded.spareBank c = s.fallbackSet.evrCollect.fallenBack.spareBank c := by
  rw [State.spareBank, (trialEnded_bank s).store, State.spareBank]

/-- UPD.STAT after the trial. -/
theorem trialEnded_update : s.trialEnded.reg (offUpd 0) = setFld (setFld (s.reg (offUpd 0)) 31 27 0) 35 32 3 := by
  rw [(trialEnded_bank s).reg _ (by decide) (by decide), fallenBack_update, fallbackSet_reg]

/-- The banks of the classes on trial have changed places. -/
theorem trialEnded_mem {c : Nat} (h : c ∈ s.hoods) : s.trialEnded.runBank c = s.spareBank c ∧ s.trialEnded.spareBank c = s.runBank c ∧
    s.trialEnded.reg (offVer c) = (s.spareBank c).version := by
  obtain ⟨hrange, -⟩ := mem_hoods.1 h
  obtain ⟨hrun, hspare, hver⟩ := swapBanks_mem s.fallbackSet.evrCollect (hoods_nodup _) (by rw [fallbackSet_hoods]; exact h)
  rw [trialEnded_runBank, trialEnded_spareBank, (trialEnded_bank s).reg (offVer c) (by unfold offVer; omega) (by unfold offVer; omega),
    fallenBack_runBank, fallenBack_spareBank, fallenBack_version, hrun, hspare, hver, fallbackSet_runBank, fallbackSet_spareBank]
  exact ⟨rfl, rfl, rfl⟩

/-- The other banks stay. -/
theorem trialEnded_other {c : Nat} (h : c ∉ s.hoods) : s.trialEnded.runBank c = s.runBank c ∧ s.trialEnded.spareBank c = s.spareBank c := by
  obtain ⟨hrun, hspare, -⟩ := swapBanks_other s.fallbackSet.evrCollect (cs := s.fallbackSet.evrCollect.hoods) (c := c) (by rw [fallbackSet_hoods]; exact h)
  rw [trialEnded_runBank, trialEnded_spareBank, fallenBack_runBank, fallenBack_spareBank, hrun, hspare, fallbackSet_runBank,
    fallbackSet_spareBank]
  exact ⟨rfl, rfl⟩

/-- One of the two banks of a class is good after the trial as before. -/
theorem trialEnded_good {c : Nat} (h : (s.runBank c).good = true ∨ (s.spareBank c).good = true) :
    (s.trialEnded.runBank c).good = true ∨ (s.trialEnded.spareBank c).good = true := by
  rw [trialEnded_runBank, trialEnded_spareBank]
  exact fallenBack_good _ (by rwa [fallbackSet_runBank, fallbackSet_spareBank])

end

section
variable {s : State}

theorem confirmWindowExpiry_void (h : bit (s.reg offSysMode) 5 = false ∨ s.mode = 1 ∨ s.modes.inReset = true ∨ s.windowUsed < s.store.window) :
    exec .confirmWindowExpiry s = .next s := by
  show execConfirmWindowExpiry s = _
  rw [execConfirmWindowExpiry, if_neg]
  rcases h with h | h | h | h
  · simp [h]
  · simp [h]
  · simp [h]
  · simp [Nat.not_le.2 h]

theorem confirmWindowExpiry_ends (htrial : bit (s.reg offSysMode) 5 = true) (h1 : s.mode ≠ 1) (h0 : s.mode ≠ 0)
    (hreset : s.modes.inReset = false) (hwindow : s.store.window ≤ s.windowUsed) (hrecover : s.store.recover = false)
    (hfails : s.store.bootFails < 3) (hcrown : (s.runBank 4).good = true ∨ (s.spareBank 4).good = true) :
    exec .confirmWindowExpiry s = .next (s.trialEnded.bootBegun 0xC s.mode) := by
  have hguard : (bit (s.reg offSysMode) 5 && s.mode != 1 && !s.modes.inReset && decide (s.store.window ≤ s.windowUsed)) = true := by
    simp [htrial, h1, hreset, hwindow]
  have hexec : exec .confirmWindowExpiry s = .next (s.fallbackSet.reboot false 0xC false) := by
    show execConfirmWindowExpiry s = _
    rw [execConfirmWindowExpiry, if_pos hguard]
    rfl
  have hchoice := chooseBanks_fallback (s := s.fallbackSet.evrCollect) 0xC (by rw [fallbackSet_store]) (by rw [fallbackSet_reg]; exact htrial)
  rw [hexec]
  exact congrArg Host.Outcome.next (reboot_bootBegun (s := s.fallbackSet) hreset h0 hchoice ((trialEnded_recover s).trans hrecover)
    ((trialEnded_bootFails s).trans_lt hfails) (trialEnded_good s hcrown))

/-- What the end of a trial leaves. -/
theorem confirmWindowExpiry_effect (htrial : bit (s.reg offSysMode) 5 = true) (h1 : s.mode ≠ 1) (h0 : s.mode ≠ 0)
    (hreset : s.modes.inReset = false) (hwindow : s.store.window ≤ s.windowUsed) (hrecover : s.store.recover = false)
    (hfails : s.store.bootFails < 3) (hcrown : (s.runBank 4).good = true ∨ (s.spareBank 4).good = true) :
    ∃ u, exec .confirmWindowExpiry s = .next u ∧
      u.reg offSysMode = wd (0xC * 2 ^ 12 + s.mode * 2 ^ 8 + 1) ∧ u.cores = [] ∧ u.tasks = [] ∧ u.lanes = [] ∧ u.host = {} ∧
      u.rfld (offUpd 0) 35 32 = 3 ∧ u.rfld (offUpd 0) 31 27 = 0 ∧ u.pending = s.pending ∧
      (∀ c ∈ s.hoods, u.runBank c = s.spareBank c ∧ u.spareBank c = s.runBank c ∧
        u.reg (offVer c) = (s.spareBank c).header.getD 2 0) ∧
      (∀ c, c ∉ s.hoods → u.runBank c = s.runBank c ∧ u.spareBank c = s.spareBank c) := by
  obtain ⟨hcores, htasks, hlanes, hhost⟩ := bootBegun_bare s.trialEnded 0xC s.mode
  have hupd : (s.trialEnded.bootBegun 0xC s.mode).reg (offUpd 0) = setFld (setFld (s.reg (offUpd 0)) 31 27 0) 35 32 3 := by
    rw [bootBegun_reg _ _ _ (by decide) (by decide), trialEnded_update]
  refine ⟨_, confirmWindowExpiry_ends htrial h1 h0 hreset hwindow hrecover hfails hcrown, ?_, hcores, htasks, hlanes, hhost, ?_, ?_,
    (bootBegun_pending _ _ _).trans (trialEnded_pending s), fun c hc => ?_, fun c hc => ?_⟩
  · rw [bootBegun_mode]
    rfl
  · rw [State.rfld, hupd, fld_setFld_same _ _ _ (by decide)]
    rfl
  · rw [State.rfld, hupd, fld_setFld_other _ _ (by decide), fld_setFld_same _ _ _ (by decide)]
    rfl
  · obtain ⟨hrange, -⟩ := mem_hoods.1 hc
    rw [bootBegun_runBank, bootBegun_spareBank,
      bootBegun_reg _ _ _ (keptReg_ver false hrange) (by unfold offVer offSysMode; omega)]
    exact trialEnded_mem s hc
  · rw [bootBegun_runBank, bootBegun_spareBank]
    exact trialEnded_other s hc

end

end Sys2Proof.Machine
end

section
/-! SUPPORT. The maintenance connection in RECOVERY (R593), and the end of an image (R590). -/

namespace Sys2Proof.Machine

/-! ### The end of an image -/

/-- No words of an image are held, and the sequence starts anew. -/
def State.imageDropped (s : State) : State := s.setStore { s.store with recv := [], mseq := 0 }

/-- An image stands in both banks of a class. -/
def State.imageTaken (s : State) (c : Nat) (b : Bank) : State :=
  (s.setStore { s.store with running := Tab.put {} s.store.running c b, spare := Tab.put {} s.store.spare c b }).setReg (offVer c) b.version

section
variable (s : State)

theorem imageTaken_runBank (c : Nat) (b : Bank) : (s.imageTaken c b).runBank c = b := by
  rw [State.runBank, State.imageTaken, setReg_store, setStore_store]
  exact Tab.get_put_same _ _ _ _

theorem imageTaken_spareBank (c : Nat) (b : Bank) : (s.imageTaken c b).spareBank c = b := by
  rw [State.spareBank, State.imageTaken, setReg_store, setStore_store]
  exact Tab.get_put_same _ _ _ _

theorem imageTaken_version (c : Nat) (b : Bank) : (s.imageTaken c b).reg (offVer c) = b.version := setReg_reg _ _ _

/-- A header of fewer than 256 words is not sound. -/
theorem headerCause_short {h : List Word} (hlen : h.length < 256) : s.headerCause h = 1 := by
  have hsound : headerSound h = false := by
    simp only [headerSound, decide_eq_false (Nat.ne_of_lt hlen), Bool.false_and]
  simp only [State.headerCause, hsound, Bool.not_false, if_true]

/-- The end of an image, by its two causes. -/
theorem recoveryEnd_eq : s.recoveryEnd =
    (if s.imageDropped.headerCause (s.store.recv.take 256) != 0 then (s.imageDropped.headerCause (s.store.recv.take 256), s.imageDropped)
     else if (s.imageDropped.imageResult (s.store.recv.take 256) (s.store.recv.drop 256)).1 != 0 then
       ((s.imageDropped.imageResult (s.store.recv.take 256) (s.store.recv.drop 256)).1, s.imageDropped)
     else (0, s.imageDropped.imageTaken (imgClass (s.store.recv.take 256))
       ⟨s.store.recv.take 256, (s.imageDropped.imageResult (s.store.recv.take 256) (s.store.recv.drop 256)).2⟩)) := rfl

/-- An image ends refused, and leaves its words out, or is taken into both banks of its class. -/
theorem recoveryEnd_cases :
    (∃ cause, cause ≠ 0 ∧ s.recoveryEnd = (cause, s.imageDropped)) ∨
    (∃ res, s.recoveryEnd = (0, s.imageDropped.imageTaken (imgClass (s.store.recv.take 256)) ⟨s.store.recv.take 256, res⟩)) := by
  rw [recoveryEnd_eq]
  split
  · next hhead => exact .inl ⟨_, by simpa using hhead, rfl⟩
  · split
    · next hbody => exact .inl ⟨_, by simpa using hbody, rfl⟩
    · exact .inr ⟨_, rfl⟩

theorem recoveryEnd_short (hlen : s.store.recv.length < 256) : s.recoveryEnd = (1, s.imageDropped) := by
  have hcause : s.imageDropped.headerCause (s.store.recv.take 256) = 1 := headerCause_short _ (by rw [List.length_take]; omega)
  rw [recoveryEnd_eq, hcause, if_pos (by decide)]

end

/-! ### The frames -/

/-- Is a frame well formed, with a good check (R593)? -/
def frameGood (b : List Byte) : Bool :=
  b.length = leAt b 2 2 + 8 && decide (leAt b 2 2 ≤ 1020) && leAt b 2 2 % 5 = 0 && leAt b (leAt b 2 2 + 4) 4 = crc32c (b.take (leAt b 2 2 + 4))

theorem frameGood_iff {b : List Byte} : frameGood b = true ↔
    b.length = leAt b 2 2 + 8 ∧ leAt b 2 2 ≤ 1020 ∧ leAt b 2 2 % 5 = 0 ∧ leAt b (leAt b 2 2 + 4) 4 = crc32c (b.take (leAt b 2 2 + 4)) := by
  simp only [frameGood, Bool.and_eq_true, decide_eq_true_eq, and_assoc]

/-- The words of a frame are taken. -/
def State.frameTaken (s : State) (b : List Byte) : State :=
  s.setStore { s.store with
    recv := s.store.recv ++ words5 (leAt b 2 2 / 5) ((b.drop 4).take (leAt b 2 2)), mseq := s.store.mseq + 1 }

theorem exec_maintenanceFrame (s : State) (b : List Byte) : exec (.maintenanceFrame b) s = .next
    (if s.mode != 0 || s.modes.inReset then s
     else if frameGood b && s.store.mseq != 0 && leAt b 0 2 = (s.store.mseq - 1) % 65536 then s.answer true (leAt b 0 2) []
     else if !frameGood b || leAt b 0 2 != s.store.mseq % 65536 then s.answer false (leAt b 0 2) []
     else if leAt b 2 2 = 0 then s.recoveryEnd.2.answer true (leAt b 0 2) [s.recoveryEnd.1]
     else (s.frameTaken b).answer true (leAt b 0 2) []) := by
  show execMaintenanceFrame b s = _
  simp only [execMaintenanceFrame, frameGood]
  rfl

section
variable {s : State} {b : List Byte}

theorem maintenanceFrame_void (h : s.mode ≠ 0 ∨ s.modes.inReset = true) : exec (.maintenanceFrame b) s = .next s := by
  rw [exec_maintenanceFrame, if_pos (by rcases h with h | h <;> simp [h])]

section
variable (hmode : s.mode = 0) (hreset : s.modes.inReset = false)
include hmode hreset

theorem maintenanceFrame_again (hgood : frameGood b = true) (hany : s.store.mseq ≠ 0) (hseq : leAt b 0 2 = (s.store.mseq - 1) % 65536) :
    exec (.maintenanceFrame b) s = .next (s.answer true (leAt b 0 2) []) := by
  rw [exec_maintenanceFrame, if_neg (by simp [hmode, hreset]), if_pos (by simp [hgood, hany, hseq])]

variable (hnew : ¬ (frameGood b = true ∧ s.store.mseq ≠ 0 ∧ leAt b 0 2 = (s.store.mseq - 1) % 65536))
include hnew

/-- A frame that repeats none. -/
theorem maintenanceFrame_new : exec (.maintenanceFrame b) s = .next
    (if !frameGood b || leAt b 0 2 != s.store.mseq % 65536 then s.answer false (leAt b 0 2) []
     else if leAt b 2 2 = 0 then s.recoveryEnd.2.answer true (leAt b 0 2) [s.recoveryEnd.1]
     else (s.frameTaken b).answer true (leAt b 0 2) []) := by
  rw [exec_maintenanceFrame, if_neg (by simp [hmode, hreset]), if_neg]
  simpa only [Bool.and_eq_true, bne_iff_ne, decide_eq_true_eq, and_assoc] using hnew

theorem maintenanceFrame_bad (h : ¬ frameGood b = true ∨ leAt b 0 2 ≠ s.store.mseq % 65536) :
    exec (.maintenanceFrame b) s = .next (s.answer false (leAt b 0 2) []) := by
  rw [maintenanceFrame_new hmode hreset hnew, if_pos (by rcases h with h | h <;> simp [h])]

variable (hgood : frameGood b = true) (hseq : leAt b 0 2 = s.store.mseq % 65536)
include hgood hseq

theorem maintenanceFrame_words (hn : leAt b 2 2 ≠ 0) :
    exec (.maintenanceFrame b) s = .next ((s.frameTaken b).answer true (leAt b 0 2) []) := by
  rw [maintenanceFrame_new hmode hreset hnew, if_neg (by simp [hgood, hseq]), if_neg hn]

theorem maintenanceFrame_end (hn : leAt b 2 2 = 0) :
    exec (.maintenanceFrame b) s = .next (s.recoveryEnd.2.answer true (leAt b 0 2) [s.recoveryEnd.1]) := by
  rw [maintenanceFrame_new hmode hreset hnew, if_neg (by simp [hgood, hseq]), if_pos hn]

end

end

/-! ### The answers -/

section
variable (s : State)

/-- The answer of the ROM to a frame (R593). -/
def romReply (code seq : Nat) (cause : List Nat) : Msg :=
  .maintenance (unpackBytes 1 code ++ unpackBytes 2 seq ++ cause.flatMap (unpackBytes 1))

theorem answer_outbox (ack : Bool) (seq : Nat) (cause : List Nat) :
    (s.answer ack seq cause).outbox = s.outbox ++ [romReply (if ack then 0x06 else 0x15) seq cause] := rfl

theorem answer_eq (ack : Bool) (seq : Nat) (cause : List Nat) :
    s.answer ack seq cause = { s with outbox := (s.answer ack seq cause).outbox } := rfl

/-- The words of a frame change the store alone, and the answer adds to what is sent. -/
theorem frameTaken_answer (b : List Byte) (seq : Nat) (cause : List Nat) :
    (s.frameTaken b).answer true seq cause = { s with
      outbox := ((s.frameTaken b).answer true seq cause).outbox, store := ((s.frameTaken b).answer true seq cause).store } := rfl

/-- What the end of an image leaves as it was. -/
def EndStep (s t : State) : Prop := t = { s with outbox := t.outbox, store := t.store, regs := t.regs }

/-- What holds after the end of an image with its cause (R590, R593). -/
structure ImageEnd (s u : State) (cause : Nat) : Prop where
  dropped : u.store.recv = []
  restarts : u.store.mseq = 0
  frame : EndStep s u
  refused : cause ≠ 0 → u.store.running = s.store.running ∧ u.store.spare = s.store.spare
  taken : cause = 0 → u.runBank (imgClass (s.store.recv.take 256)) = u.spareBank (imgClass (s.store.recv.take 256)) ∧
    (u.runBank (imgClass (s.store.recv.take 256))).header = s.store.recv.take 256 ∧
    u.reg (offVer (imgClass (s.store.recv.take 256))) = (s.store.recv.take 256).getD 2 0

theorem imageTaken_frame (c : Nat) (b : Bank) : EndStep s (s.imageDropped.imageTaken c b) := rfl

theorem recoveryEnd_ends : ImageEnd s s.recoveryEnd.2 s.recoveryEnd.1 := by
  rcases recoveryEnd_cases s with ⟨cause, hcause, heq⟩ | ⟨res, heq⟩
  · rw [heq]
    exact ⟨rfl, rfl, rfl, fun _ => ⟨rfl, rfl⟩, fun h => absurd h hcause⟩
  · rw [heq]
    refine ⟨rfl, rfl, imageTaken_frame s _ _, fun h => absurd rfl h, fun _ => ⟨?_, ?_, ?_⟩⟩
    · rw [imageTaken_runBank, imageTaken_spareBank]
    · rw [imageTaken_runBank]
    · rw [imageTaken_version]
      rfl

/-- The end of an image answers nothing itself. -/
theorem recoveryEnd_outbox : s.recoveryEnd.2.outbox = s.outbox := by
  rcases recoveryEnd_cases s with ⟨cause, -, heq⟩ | ⟨res, heq⟩
  · rw [heq]
    rfl
  · rw [heq, State.imageTaken, setReg_outbox]
    rfl

theorem ImageEnd.answer {s u : State} {cause : Nat} (h : ImageEnd s u cause) (ack : Bool) (seq : Nat) (cs : List Nat) :
    ImageEnd s (u.answer ack seq cs) cause := by
  refine ⟨h.dropped, h.restarts, ?_, h.refused, h.taken⟩
  unfold EndStep
  rw [answer_eq, h.frame]

end

/-- The first words of an image are those of its header. -/
theorem getD_take_of_lt {l : List Word} {n i : Nat} (h : i < n) : (l.take n).getD i 0 = l.getD i 0 := by
  simp [List.getD_eq_getElem?_getD, h]

end Sys2Proof.Machine
end

section
namespace Sys2Proof.Machine

/-- Settles O59: the compare failure by what it declares, the trial's end by what the choice of banks and BOOT leave, the maintenance
frames by the branches of the ROM. -/
theorem failuresAndRecovery : Obligations.FailuresAndRecovery := by
  intro s
  refine ⟨fun kind index => ⟨fun h => compareFailure_void ?_, fun h hreset => ?_⟩, confirmWindowExpiry_effect, confirmWindowExpiry_void,
    fun b => ⟨maintenanceFrame_void, fun hmode hreset => ⟨fun hagain => ?_, fun hnew hbad => ?_, fun hnew hgood hseq hn => ?_,
      fun hnew hgood hseq hn => ?_⟩⟩⟩
  · exact h.imp_left fun hc => by rwa [← Bool.not_eq_true, comparesAt_iff]
  · exact compareFailure_effect ((comparesAt_iff _ _ _).2 h) hreset
  · obtain ⟨hgood, hany, hseq⟩ := hagain
    exact maintenanceFrame_again hmode hreset (frameGood_iff.2 hgood) hany hseq
  · rw [← frameGood_iff] at hnew hbad
    exact maintenanceFrame_bad hmode hreset hnew hbad
  · rw [← frameGood_iff] at hnew hgood
    exact ⟨_, maintenanceFrame_words hmode hreset hnew hgood hseq hn, answer_outbox _ _ _ _, frameTaken_answer _ _ _ _, rfl⟩
  · rw [← frameGood_iff] at hnew hgood
    have hend := (recoveryEnd_ends s).answer true (leAt b 0 2) [s.recoveryEnd.1]
    have hclass : imgClass (s.store.recv.take 256) = fld (s.store.recv.getD 0 0) 27 20 := by
      rw [imgClass, getD_take_of_lt (by decide)]
    obtain ⟨hrecv, hmseq, hframe, hrefused, htaken⟩ := hend
    rw [hclass, getD_take_of_lt (by decide)] at htaken
    refine ⟨_, _, maintenanceFrame_end hmode hreset hnew hgood hseq hn, ?_, hrecv, hmseq, hframe,
      fun hshort => by rw [recoveryEnd_short s hshort], hrefused, htaken⟩
    rw [answer_outbox, recoveryEnd_outbox]
    rfl

end Sys2Proof.Machine
end
section
/-! SUPPORT. O5 and the totality of the step rest on one fact per function of the model: it leaves the queue of commands, and line
memory stays in its form (`Keeps`). Each lemma has the shape `Keeps s t → Keeps s (t.f …)`, so that the lemma about a function reads as
the chain of the functions that it calls. -/

namespace Sys2Proof.Machine
section

/-- Every way in which a body of an instruction goes on keeps the queue and the form of line memory. -/
inductive ResKeeps (s : State) : Res → Prop
  | next {t : State} (h : Keeps s t) : ResKeeps s (.next t)
  | jump {t : State} {pc : Word} (h : Keeps s t) : ResKeeps s (.jump pc t)
  | left {t : State} (h : Keeps s t) : ResKeeps s (.left t)
  | flt {t : State} {code : Nat} {a : Word} (h : Keeps s t) : ResKeeps s (.flt code a t)

/-- A command answers a next state and keeps both. -/
inductive OutKeeps (s : State) : Host.Outcome State Fault Refusal → Prop
  | next {t : State} (h : Keeps s t) : OutKeeps s (.next t)

/-- The answer to a request of the host leaves a state that keeps both. -/
structure AnsKeeps (s : State) (a : Answer) : Prop where
  st : Keeps s a.st

variable {s t : State}

/-- A state that differs from one that keeps both in other fields alone. -/
theorem Keeps.frame {u : State} (h : Keeps s t) (e : u.pending = t.pending ∧ u.mem = t.mem) : Keeps s u :=
  h.after e.1 e.2

/-- Records of the state that hold neither. -/
theorem Keeps.withHost (h : Keeps s t) {x : HostWin} : Keeps s { t with host := x } := h.frame ⟨rfl, rfl⟩
theorem Keeps.withStore (h : Keeps s t) {x : Store} : Keeps s { t with store := x } := h.frame ⟨rfl, rfl⟩
theorem Keeps.withBrim (h : Keeps s t) {x : Brim} : Keeps s { t with brim := x } := h.frame ⟨rfl, rfl⟩
theorem Keeps.withPeer (h : Keeps s t) {x : Pair} : Keeps s { t with peer := x } := h.frame ⟨rfl, rfl⟩
theorem Keeps.withModes (h : Keeps s t) {x : Modes} : Keeps s { t with modes := x } := h.frame ⟨rfl, rfl⟩
theorem Keeps.withOutbox (h : Keeps s t) {x : List Msg} : Keeps s { t with outbox := x } := h.frame ⟨rfl, rfl⟩
theorem Keeps.withField (h : Keeps s t) {x : Field} : Keeps s { t with field := x } := h.frame ⟨rfl, rfl⟩
theorem Keeps.withSched (h : Keeps s t) {x : Sched} : Keeps s { t with sched := x } := h.frame ⟨rfl, rfl⟩
theorem Keeps.withHist (h : Keeps s t) {x : Hist} : Keeps s { t with hist := x } := h.frame ⟨rfl, rfl⟩
theorem Keeps.withMirror (h : Keeps s t) {x : List MirrorWait} : Keeps s { t with mirror := x } := h.frame ⟨rfl, rfl⟩
theorem Keeps.withMbxBufs (h : Keeps s t) {x : List Nat} : Keeps s { t with mbxBufs := x } := h.frame ⟨rfl, rfl⟩
theorem Keeps.withCalAt (h : Keeps s t) {x : Option Nat} : Keeps s { t with calAt := x } := h.frame ⟨rfl, rfl⟩

theorem Keeps.ite {c : Prop} [Decidable c] {u v : State} (h : Keeps s u) (g : Keeps s v) : Keeps s (if c then u else v) := by
  split
  · exact h
  · exact g

theorem ResKeeps.ite {c : Prop} [Decidable c] {u v : Res} (h : ResKeeps s u) (g : ResKeeps s v) : ResKeeps s (if c then u else v) := by
  split
  · exact h
  · exact g

theorem OutKeeps.ite {c : Prop} [Decidable c] {u v : Host.Outcome State Fault Refusal} (h : OutKeeps s u) (g : OutKeeps s v) :
    OutKeeps s (if c then u else v) := by
  split
  · exact h
  · exact g

theorem AnsKeeps.ite {c : Prop} [Decidable c] {u v : Answer} (h : AnsKeeps s u) (g : AnsKeeps s v) : AnsKeeps s (if c then u else v) := by
  split
  · exact h
  · exact g

/-- A fold whose steps each go on from a state that keeps both. -/
theorem Keeps.fold {α : Type} {f : State → α → State} {l : List α} (h : Keeps s t) (hf : ∀ u a, Keeps s u → Keeps s (f u a)) :
    Keeps s (l.foldl f t) := by
  induction l generalizing t with
  | nil => exact h
  | cons a r ih => exact ih (hf t a h)

theorem Keeps.iteFst {α : Type} {c : Prop} [Decidable c] {u v : State × α} (h : Keeps s u.1) (g : Keeps s v.1) :
    Keeps s (if c then u else v).1 := by
  split
  · exact h
  · exact g

theorem Keeps.iteSnd {α : Type} {c : Prop} [Decidable c] {u v : α × State} (h : Keeps s u.2) (g : Keeps s v.2) :
    Keeps s (if c then u else v).2 := by
  split
  · exact h
  · exact g

theorem Keeps.iteThd {α β : Type} {c : Prop} [Decidable c] {u v : α × β × State} (h : Keeps s u.2.2) (g : Keeps s v.2.2) :
    Keeps s (if c then u else v).2.2 := by
  split
  · exact h
  · exact g

/-- The state of a pair, of a triple, and the state that stands first, named by a match. -/
theorem Keeps.snd {α : Type} {p : α × State} {a : α} {u : State} (h : Keeps s p.2) (e : p = (a, u)) : Keeps s u := by
  rw [e] at h; exact h
theorem Keeps.thd {α β : Type} {p : α × β × State} {a : α} {b : β} {u : State} (h : Keeps s p.2.2) (e : p = (a, b, u)) : Keeps s u := by
  rw [e] at h; exact h
theorem Keeps.fst {α : Type} {p : State × α} {a : α} {u : State} (h : Keeps s p.1) (e : p = (u, a)) : Keeps s u := by
  rw [e] at h; exact h

/-- Folds that carry other data beside the state. -/
theorem Keeps.foldSnd {α β : Type} {f : α × State → β → α × State} {l : List β} {p : α × State} (h : Keeps s p.2)
    (hf : ∀ q b, Keeps s q.2 → Keeps s (f q b).2) : Keeps s (l.foldl f p).2 := by
  induction l generalizing p with
  | nil => exact h
  | cons b r ih => exact ih (hf p b h)

theorem Keeps.foldThd {α β γ : Type} {f : α × β × State → γ → α × β × State} {l : List γ} {p : α × β × State}
    (h : Keeps s p.2.2) (hf : ∀ q c, Keeps s q.2.2 → Keeps s (f q c).2.2) : Keeps s (l.foldl f p).2.2 := by
  induction l generalizing p with
  | nil => exact h
  | cons c r ih => exact ih (hf p c h)

theorem Keeps.foldFst {α β : Type} {f : State × α → β → State × α} {l : List β} {p : State × α} (h : Keeps s p.1)
    (hf : ∀ q b, Keeps s q.1 → Keeps s (f q b).1) : Keeps s (l.foldl f p).1 := by
  induction l generalizing p with
  | nil => exact h
  | cons b r ih => exact ih (hf p b h)

/-- A state that an operation may have refused to give. -/
theorem Keeps.getD {o : Option State} (h : Keeps s t) (ho : ∀ u, o = some u → Keeps s u) : Keeps s (o.getD t) := by
  cases o with
  | none => exact h
  | some u => exact ho u rfl

end

section
variable {s t : State}

/-! ### Machine/Ops -/

theorem Keeps.setReg (h : Keeps s t) {o : Nat} {v : Word} : Keeps s (t.setReg o v) := h.trans (setReg_keeps ..)

theorem Keeps.setRfld (h : Keeps s t) {o hi lo v : Nat} : Keeps s (t.setRfld o hi lo v) := h.trans (setRfld_keeps ..)

theorem Keeps.incReg (h : Keeps s t) {o k : Nat} : Keeps s (t.incReg o k) := h.trans (incReg_keeps ..)

theorem Keeps.satRfld (h : Keeps s t) {o hi lo k : Nat} : Keeps s (t.satRfld o hi lo k) := h.trans (satRfld_keeps ..)

theorem Keeps.drawWord (h : Keeps s t) : Keeps s t.drawWord.2 := h.trans (drawWord_keeps ..)

theorem Keeps.setStream (h : Keeps s t) {i : Nat} {x : Stream} : Keeps s (t.setStream i x) := by
  unfold State.setStream
  exact h.frame ⟨rfl, rfl⟩

theorem Keeps.produce (h : Keeps s t) {i n : Nat} : Keeps s (t.produce i n) := h.trans (produce_keeps ..)

theorem Keeps.deliver (h : Keeps s t) {i n : Nat} : Keeps s (t.deliver i n) := h.trans (deliver_keeps ..)

theorem Keeps.drop (h : Keeps s t) {i r n : Nat} : Keeps s (t.drop i r n) := h.trans (drop_keeps ..)

theorem Keeps.retire (h : Keeps s t) {l : Nat} : Keeps s (t.retire l) := h.trans (retire_write ..).keeps

theorem Keeps.markDirty (h : Keeps s t) {l : Nat} : Keeps s (t.markDirty l) := h.trans (markDirty_write ..).keeps

theorem Keeps.decode (h : Keeps s t) {l : Nat} : Keeps s (t.decode l) := h.trans (decode_write ..).keeps

theorem Keeps.lineWrite (h : Keeps s t) {l mask : Nat} {data : List Word} {poison : Bool} {owner : BitVec 2} :
    Keeps s (t.lineWrite l mask data poison owner) :=
    h.trans (lineWrite_write ..).keeps

theorem Keeps.spanWrite (h : Keeps s t) {owner : BitVec 2} {poison : Bool} {i j : Nat} {a : List Word} :
    Keeps s (State.spanWrite owner poison i t j a) :=
    h.trans (spanWrite_write ..).keeps

theorem Keeps.agentWrite (h : Keeps s t) {a : Nat} {ws : List Word} : Keeps s (t.agentWrite a ws) := h.trans (agentWrite_write ..).keeps

theorem Keeps.agentWord (h : Keeps s t) {a : Nat} {w : Word} : Keeps s (t.agentWord a w) := h.trans (agentWord_write ..).keeps

theorem Keeps.decodes (h : Keeps s t) {l n : Nat} : Keeps s (t.decodes l n) := h.trans (decodes_write ..).keeps

theorem Keeps.agentRead (h : Keeps s t) {a n : Nat} : Keeps s (t.agentRead a n).2.2 := h.trans (agentRead_write ..).keeps

theorem Keeps.meets (h : Keeps s t) {a n : Nat} : Keeps s (t.meets a n).2 := h.trans (meets_write ..).keeps

theorem Keeps.forcesMet (h : Keeps s t) : Keeps s t.forcesMet.2 := by
  unfold State.forcesMet
  exact h.meets

theorem Keeps.locRead (h : Keeps s t) {t' a : Nat} : Keeps s (t.locRead t' a).2.2 := h.trans (locRead_keeps ..)

theorem Keeps.locWrite (h : Keeps s t) {t' a : Nat} {v : Word} : Keeps s (t.locWrite t' a v) := by
  unfold State.locWrite
  exact h.frame ⟨rfl, rfl⟩

theorem Keeps.dropScratch (h : Keeps s t) {t' : Nat} : Keeps s (t.dropScratch t') := h.trans (dropScratch_keeps ..)

theorem Keeps.locWrites (h : Keeps s t) {t' j : Nat} {a : List Word} : Keeps s (t.locWrites t' j a) := h.trans (locWrites_keeps ..)

theorem Keeps.countFlit (h : Keeps s t) {ok : Bool} : Keeps s (t.countFlit ok) := h.trans (countFlit_keeps ..)

theorem Keeps.perform (h : Keeps s t) {r : SpineReq} {flitOk : Bool} : Keeps s (t.perform r flitOk).1 := h.trans (perform_write ..).keeps

theorem Keeps.sendBack (h : Keeps s t) {r : SpineReq} {ws : List Word} {p : Bool} : Keeps s (t.sendBack r ws p).2 :=
    h.trans (sendBack_keeps ..)

theorem Keeps.serveOne (h : Keeps s t) {n : Nat} {ok : Bool} {r : SpineReq} {x : List Word × Bool} {u : State}
    (e : t.serveOne n ok = some (r, x, u)) : Keeps s u := h.trans (serveOne_keeps e)

theorem Keeps.serveFor (h : Keeps s t) {t' tag a : Nat} : Keeps s (State.serveFor t' tag a t).2.2 := h.trans (serveFor_keeps ..)

theorem Keeps.freeSlot (h : Keeps s t) {port cls a : Nat} : Keeps s (State.freeSlot port cls a t) := h.trans (freeSlot_keeps ..)

theorem Keeps.awaitSlot (h : Keeps s t) {port cls : Nat} : Keeps s (t.awaitSlot port cls) := h.trans (awaitSlot_keeps ..)

theorem Keeps.returnTag (h : Keeps s t) {tag : Nat} : Keeps s (t.returnTag tag) := by
  unfold State.returnTag
  exact h.frame ⟨rfl, rfl⟩

theorem Keeps.drainWhere (h : Keeps s t) {p : SpineReq → Bool} {a : Nat} : Keeps s (State.drainWhere p a t) := h.trans (drainWhere_keeps ..)

theorem Keeps.comeBack (h : Keeps s t) {a : SpineAck} : Keeps s (t.comeBack a) := h.trans (comeBack_keeps ..)

theorem Keeps.collect (h : Keeps s t) {p : SpineAck → Bool} : Keeps s (t.collect p) := h.trans (collect_keeps ..)

theorem Keeps.settle (h : Keeps s t) {os : List (Nat × Nat × Nat)} : Keeps s (t.settle os) := h.trans (settle_keeps ..)

theorem Keeps.fence (h : Keeps s t) {core : Nat} : Keeps s (t.fence core) := h.trans (fence_keeps ..)

theorem Keeps.drainAll (h : Keeps s t) : Keeps s (t.drainAll) := h.trans (drainAll_keeps ..)

theorem Keeps.sendFlits (h : Keeps s t) {r : SpineReq} : Keeps s (t.sendFlits r).2 := h.trans (sendFlits_keeps ..)

theorem Keeps.issue (h : Keeps s t) {r : SpineReq} : Keeps s (t.issue r).2 := h.trans (issue_keeps ..)

theorem Keeps.receive (h : Keeps s t) {r : SpineReq} {tag : Nat} {ws : List Word} {p : Bool} : Keeps s (t.receive r tag ws p).2.2 :=
    h.trans (receive_keeps ..)

theorem Keeps.transact (h : Keeps s t) {r : SpineReq} : Keeps s (t.transact r).2.2 := h.trans (transact_keeps ..)

theorem Keeps.portWrite (h : Keeps s t) {port cls l mask : Nat} {data : List Word} {poison : Bool} :
    Keeps s (t.portWrite port cls l mask data poison) :=
    h.trans (portWrite_keeps ..)

theorem Keeps.portRead (h : Keeps s t) {port cls l mask : Nat} : Keeps s (t.portRead port cls l mask).2.2 := h.trans (portRead_keeps ..)

theorem Keeps.portPut (h : Keeps s t) {port cls : Nat} {poison : Bool} {i j : Nat} {a : List Word} :
    Keeps s (State.portPut port cls poison i t j a) :=
    h.trans (portPut_keeps ..)

theorem Keeps.portGet (h : Keeps s t) {port cls i j a : Nat} : Keeps s (State.portGet port cls i t j a).2 := h.trans (portGet_keeps ..)

theorem Keeps.bandPut (h : Keeps s t) {r a : Nat} {ws : List Word} {poison : Bool} : Keeps s (t.bandPut r a ws poison) := by
  unfold State.bandPut
  exact h.portPut

theorem Keeps.bandGet (h : Keeps s t) {r a n : Nat} : Keeps s (t.bandGet r a n).2 := by
  unfold State.bandGet
  exact h.portGet

theorem Keeps.histPut (h : Keeps s t) {a : Nat} {ws : List Word} : Keeps s (t.histPut a ws) := by
  unfold State.histPut
  exact h.portPut

theorem Keeps.msix (h : Keeps s t) {v : Nat} : Keeps s (t.msix v) := h.trans (msix_keeps ..)

theorem Keeps.msixDue (h : Keeps s t) : Keeps s (t.msixDue) := by
  unfold State.msixDue
  exact h.fold fun _ _ k => k.msix

theorem Keeps.eventEntry (h : Keeps s t) {w0 w1 w2 : Word} : Keeps s (t.eventEntry w0 w1 w2) := h.trans (eventEntry_keeps ..)

theorem Keeps.crownEvent (h : Keeps s t) {kind : Nat} {w1 w2 : Word} : Keeps s (t.crownEvent kind w1 w2) := h.trans (crownEvent_keeps ..)

theorem Keeps.cellEvent (h : Keeps s t) {reason off : Nat} {w2 : Word} : Keeps s (t.cellEvent reason off w2) := h.trans (cellEvent_keeps ..)

theorem Keeps.logConflict (h : Keeps s t) {x : Conflict} : Keeps s (t.logConflict x) := h.trans (logConflict_keeps ..)

theorem Keeps.noteConflict (h : Keeps s t) {x : Conflict} : Keeps s (t.noteConflict x) := h.trans (noteConflict_keeps ..)

theorem Keeps.flushConflicts (h : Keeps s t) {kind n : Nat} : Keeps s (t.flushConflicts kind n) := by
  unfold State.flushConflicts
  extract_lets own
  exact Keeps.fold (h.frame ⟨rfl, rfl⟩) fun _ _ k => k.logConflict

theorem Keeps.cueLost (h : Keeps s t) {c : Option Nat} : Keeps s (t.cueLost c) := h.trans (cueLost_keeps ..)

theorem Keeps.amendResponse (h : Keeps s t) {r : Option Nat} : Keeps s (t.amendResponse r) := h.trans (amendResponse_keeps ..)

theorem Keeps.tallyBy (h : Keeps s t) {f : Int → Int → Bool} {h' : Nat} {v : Int} : Keeps s (t.tallyBy f h' v) := h.trans (tallyBy_keeps ..)

theorem Keeps.tallyMax (h : Keeps s t) {h' : Nat} {v : Int} : Keeps s (t.tallyMax h' v) := by
  unfold State.tallyMax
  exact h.tallyBy

theorem Keeps.tallyMin (h : Keeps s t) {h' : Nat} {v : Int} : Keeps s (t.tallyMin h' v) := by
  unfold State.tallyMin
  exact h.tallyBy

theorem Keeps.tallyAdd (h : Keeps s t) {h' n : Nat} : Keeps s (t.tallyAdd h' n) := by
  unfold State.tallyAdd
  exact h.frame ⟨rfl, rfl⟩

theorem Keeps.respond (h : Keeps s t) {code status : Nat} {tag : Word} {res : List Word} : Keeps s (t.respond code status tag res) :=
    h.trans (respond_keeps ..)

/-! ### Machine/Tasks -/

theorem Keeps.setCore (h : Keeps s t) {k : Nat} {c : Core} : Keeps s (t.setCore k c) := h.trans (setCore_keeps ..)

theorem Keeps.setG (h : Keeps s t) {k i : Nat} {v : Word} : Keeps s (t.setG k i v) := by
  unfold State.setG
  exact h.setCore

theorem Keeps.setGG (h : Keeps s t) {k d : Nat} {v : DWord} : Keeps s (t.setGG k d v) := by
  unfold State.setGG
  exact h.setG.setG

theorem Keeps.refuse (h : Keeps s t) {k code : Nat} : Keeps s (t.refuse k code) := h.trans (refuse_keeps ..)

theorem Keeps.setTask (h : Keeps s t) {n : Nat} {t' : Task} : Keeps s (t.setTask n t') := h.trans (setTask_keeps ..)

theorem Keeps.tellCore (h : Keeps s t) {k : Nat} {gd : Option Nat} : Keeps s (t.tellCore k gd) := h.trans (tellCore_keeps ..)

theorem Keeps.tellLoser (h : Keeps s t) {o : Order} : Keeps s (t.tellLoser o) := h.trans (tellLoser_keeps ..)

theorem Keeps.untouch (h : Keeps s t) {e : Nat × Task} : Keeps s (t.untouch e) := h.trans (untouch_keeps ..)

theorem Keeps.undoOrder (h : Keeps s t) {o : Order} : Keeps s (t.undoOrder o) := h.trans (undoOrder_keeps ..)

theorem Keeps.beforeRivals (h : Keeps s t) {o : Order} : Keeps s (t.beforeRivals o) := by
  unfold State.beforeRivals
  exact h.fold fun _ _ k => k.undoOrder

theorem Keeps.orderLost (h : Keeps s t) {w l : Order} : Keeps s (t.orderLost w l) := h.trans (orderLost_keeps ..)

theorem Keeps.rankOrder (h : Keeps s t) {o : Order} : Keeps s (t.rankOrder o).2 := h.trans (rankOrder_keeps ..)

theorem Keeps.trace (h : Keeps s t) {n reason tile : Nat} : Keeps s (t.trace n reason tile) := h.trans (trace_keeps ..)

theorem Keeps.postTo (h : Keeps s t) {n : Nat} {w : Word} {code : Nat} : Keeps s (t.postTo n w code).2 := h.trans (postTo_keeps ..)

theorem Keeps.post (h : Keeps s t) {n : Nat} {w : Word} : Keeps s (t.post n w) := h.trans (post_keeps ..)

theorem Keeps.postQ (h : Keeps s t) {q t' : Nat} {w : Word} : Keeps s (t.postQ q t' w) := h.trans (postQ_keeps ..)

theorem Keeps.postField (h : Keeps s t) {field : Nat} {w : Word} {ev : State → State} (he : ∀ u, Keeps s u → Keeps s (ev u)) :
    Keeps s (t.postField field w ev) := by
  unfold State.postField
  split
  · exact he _ h
  · exact .ite (he _ h) h.post

theorem Keeps.takePost (h : Keeps s t) {n : Nat} : Keeps s (t.takePost n).2 := h.trans (takePost_keeps ..)

theorem Keeps.tallyReady (h : Keeps s t) {n : Nat} : Keeps s (t.tallyReady n) := h.trans (tallyReady_keeps ..)

theorem Keeps.readyAtTick (h : Keeps s t) {n reason : Nat} : Keeps s (t.readyAtTick n reason) := h.trans (readyAtTick_keeps ..)

theorem Keeps.readyNow (h : Keeps s t) {k n : Nat} : Keeps s (t.readyNow k n) := by
  unfold State.readyNow
  extract_lets _ u _'
  have hu : Keeps s u := h.frame ⟨rfl, rfl⟩
  exact hu.setTask.trace.tallyReady

theorem Keeps.stopTask (h : Keeps s t) {n : Nat} : Keeps s (t.stopTask n) := h.trans (stopTask_keeps ..)

theorem Keeps.locRun (h : Keeps s t) {t' a n : Nat} : Keeps s (t.locRun t' a n).2 := h.trans (locRun_keeps ..)

theorem Keeps.saveContext (h : Keeps s t) {k n : Nat} {pc : Word} : Keeps s (t.saveContext k n pc) := h.trans (saveContext_keeps ..)

theorem Keeps.giveBack (h : Keeps s t) {k : Nat} : Keeps s (t.giveBack k) := h.trans (giveBack_keeps ..)

theorem Keeps.grant (h : Keeps s t) {k n : Nat} : Keeps s (t.grant k n) := by
  unfold State.grant
  extract_lets t' top u ws sp stk v _ core core' _'
  have hu : Keeps s u := .ite h.dropScratch h
  have hv : Keeps s v := .ite hu.locWrites hu
  split
  · split
    next w _ x he =>
      have hx := (Keeps.iteSnd hu.takePost hu).snd he
      exact hx.setCore.setTask.trace
  · exact hv.setCore.setTask.trace

theorem Keeps.runDone (h : Keeps s t) {k n : Nat} : Keeps s (t.runDone k n) := by
  unfold State.runDone
  extract_lets u t' v t''
  have hu : Keeps s u := h.trace.giveBack
  have hv : Keeps s v := hu.setTask
  exact .ite hv.stopTask (.ite hv.setTask (.ite hv.setTask (.ite hv.readyNow hv.setTask)))

theorem Keeps.postError (h : Keeps s t) {n code : Nat} {w2 w3 : Word} : Keeps s (t.postError n code w2 w3) := by
  unfold State.postError
  extract_lets e bad u
  have hu : Keeps s u := .ite h h.produce.drop.trace
  split
  · exact hu.crownEvent
  · split
    next v w he =>
      have hw := h.postTo.snd he
      exact hw.crownEvent
    next v _ w _ he =>
      have hw := h.postTo.snd he
      exact hw

theorem Keeps.faultTask (h : Keeps s t) {k n code : Nat} {pc instr addr ib sp : Word} {wdog : Bool} {reason : Nat} :
    Keeps s (t.faultTask k n code pc instr addr ib sp wdog reason) := by
  unfold State.faultTask
  extract_lets t' cnt rec_ u _ v w _'
  have hu : Keeps s u := h.agentWrite.trace
  have hv : Keeps s v := hu.setTask
  have hw : Keeps s w := .ite hv hv.postError
  exact .ite hw.stopTask (.ite hw.setTask hw)

theorem Keeps.takeFault (h : Keeps s t) {k code : Nat} {addr instr : Word} : Keeps s (t.takeFault k code addr instr) := by
  unfold State.takeFault
  extract_lets u c _
  have hu : Keeps s u := h.fence
  split
  · exact hu.giveBack.faultTask
  · split
    · exact .ite (hu.withHost.respond.setCore) hu
    · exact hu

theorem Keeps.watchdogBoundary (h : Keeps s t) {k : Nat} : Keeps s (t.watchdogBoundary k) := by
  unfold State.watchdogBoundary
  split
  · exact h
  · exact .ite h.setTask.takeFault h

theorem Keeps.runSuspend (h : Keeps s t) {k n : Nat} {pc : Word} {reason : Nat} {f : Task → Task} :
    Keeps s (t.runSuspend k n pc reason f) := by
  unfold State.runSuspend
  split
  · extract_lets u _
    have hu : Keeps s u := h.saveContext
    exact hu.setCore.watchdogBoundary
  · extract_lets u v _
    have hu : Keeps s u := h.saveContext.trace
    have hv : Keeps s v := hu.giveBack
    exact .ite hv.stopTask hv.setTask

/-! ### Machine/RegRead -/

theorem Keeps.setAgroup (h : Keeps s t) {g : Nat} {x : AGroup} : Keeps s (t.setAgroup g x) := by
  unfold State.setAgroup
  exact h.frame ⟨rfl, rfl⟩

/-! ### Machine/Coord -/

theorem Keeps.setCoord (h : Keeps s t) {c : Nat} {x : Coord} : Keeps s (t.setCoord c x) := by
  unfold State.setCoord
  exact h.frame ⟨rfl, rfl⟩

theorem Keeps.coordsTick (h : Keeps s t) : Keeps s (t.coordsTick) := by
  unfold State.coordsTick
  exact h.fold fun _ _ ku => .ite ku ku.setCoord

theorem Keeps.coordUpdate (h : Keeps s t) {c : Nat} {pos vel25 : Int} {at_ : Nat} : Keeps s (t.coordUpdate c pos vel25 at_) := by
  unfold State.coordUpdate
  extract_lets x' new d first dt amax exc u
  have hu : Keeps s u := h.setCoord
  exact .ite hu.crownEvent hu

theorem Keeps.coordHold (h : Keeps s t) {c : Nat} : Keeps s (t.coordHold c) := by
  unfold State.coordHold
  exact h.setCoord

theorem Keeps.coordStale (h : Keeps s t) {c : Nat} : Keeps s (t.coordStale c) := by
  unfold State.coordStale
  exact h.setCoord

theorem Keeps.setCue (h : Keeps s t) {n : Nat} {x : Cue} : Keeps s (t.setCue n x) := by
  unfold State.setCue
  exact h.frame ⟨rfl, rfl⟩

theorem Keeps.fireCue (h : Keeps s t) {n : Nat} : Keeps s (t.fireCue n) := by
  unfold State.fireCue
  extract_lets x' c cur past step fine act x'' x₁ u
  have hu : Keeps s u := h.setCue
  exact .ite hu (hu.frame ⟨rfl, rfl⟩)

theorem Keeps.fireIfDue (h : Keeps s t) {n : Nat} : Keeps s (t.fireIfDue n) := by
  unfold State.fireIfDue
  exact .ite h.fireCue h

theorem Keeps.cancelCue (h : Keeps s t) {n reason : Nat} : Keeps s (t.cancelCue n reason) := by
  unfold State.cancelCue
  exact .ite h.setCue h

theorem Keeps.armCue (h : Keeps s t) {n : Nat} {owner : Src} {ws : List Word} : Keeps s (t.armCue n owner ws) := by
  unfold State.armCue
  exact h.setCue

theorem Keeps.cancelCues (h : Keeps s t) {p : Cue → Bool} {reason : Nat} : Keeps s (t.cancelCues p reason) := by
  unfold State.cancelCues
  exact h.frame ⟨rfl, rfl⟩

theorem Keeps.latchBank (h : Keeps s t) {k : Nat} {vs : List DWord} : Keeps s (t.latchBank k vs) := by
  unfold State.latchBank
  extract_lets u
  have hu : Keeps s u := h.fold fun _ _ kv => kv.setReg.setReg
  exact hu.incReg

/-! ### Machine/Axis -/

theorem Keeps.setAxis (h : Keeps s t) {a : Nat} {x : Axis} : Keeps s (t.setAxis a x) := by
  unfold State.setAxis
  exact h.frame ⟨rfl, rfl⟩

theorem Keeps.axisEvent (h : Keeps s t) {a ev : Nat} : Keeps s (t.axisEvent a ev) := by
  unfold State.axisEvent
  extract_lets x' w' u
  have hu : Keeps s u := .ite h.postQ h
  exact .ite hu.crownEvent hu

theorem Keeps.segStart (h : Keeps s t) {a : Nat} : Keeps s (t.segStart a) := by
  unfold State.segStart
  extract_lets x'
  split
  · exact h
  · extract_lets u
    have hu : Keeps s u := h.setAxis
    exact .ite hu.axisEvent hu

theorem Keeps.stopEnd (h : Keeps s t) {a : Nat} {p : Int} {lim : Bool} : Keeps s (t.stopEnd a p lim) := by
  unfold State.stopEnd
  extract_lets x' toFault u
  have hu : Keeps s u := h.setAxis
  exact .ite hu.axisEvent (.ite hu hu.axisEvent)

/-- The kernel unfolds `stopStep` as a function, and does not compute the limits of the axis. -/
theorem Keeps.stopStep (h : Keeps s t) {a : Nat} {x : Axis} {st : Stop} : Keeps s (State.axisRun.stopStep t a x st) := by
  have e : @State.axisRun.stopStep = State.axisRun.stopStep := rfl
  conv_rhs at e => delta State.axisRun.stopStep
  rw [e]
  beta_reduce
  extract_lets p
  clear_value p
  generalize x.limits = l
  split
  · exact .ite h.stopEnd (.ite h.stopEnd h)
  · exact .ite h.stopEnd h

theorem Keeps.axisRun (h : Keeps s t) {a fuel : Nat} : Keeps s (State.axisRun a fuel t) := by
  induction fuel generalizing t with
  | zero => exact h
  | succ n ih =>
    unfold State.axisRun
    extract_lets x gr
    split
    · extract_lets gEnd y back v st u _ w
      have hu : Keeps s u := h.setAxis
      have hw : Keeps s w := .ite hu.setAgroup hu
      exact .ite h (.ite (ih h.setAxis.segStart) (.ite h.setAxis (ih hw.axisEvent)))
    · exact h.stopStep
    · exact h.stopStep
    · exact h

theorem Keeps.beginStop (h : Keeps s t) {a decel : Nat} {quick toFault : Bool} : Keeps s (t.beginStop a decel quick toFault) := by
  unfold State.beginStop
  split
  exact h.setAxis

theorem Keeps.startMotion (h : Keeps s t) {a : Nat} : Keeps s (t.startMotion a) := by
  unfold State.startMotion
  exact h.setAxis.segStart

theorem Keeps.axisCmd (h : Keeps s t) {a : Nat} {p v16 : Int} {at_ : Nat} : Keeps s (t.axisCmd a p v16 at_) := by
  unfold State.axisCmd
  exact h.fold fun _ _ ku => .ite ku.coordUpdate ku

theorem Keeps.groupsTick (h : Keeps s t) {inc : Nat} : Keeps s (t.groupsTick inc) := by
  unfold State.groupsTick
  exact h.fold fun _ _ ku => ku.setAgroup

theorem Keeps.groupsSlew (h : Keeps s t) : Keeps s (t.groupsSlew) := by
  unfold State.groupsSlew
  exact h.fold fun _ _ ku => ku.setAgroup

theorem Keeps.setStep (h : Keeps s t) {g : Nat} {x : StepGen} : Keeps s (t.setStep g x) := by
  unfold State.setStep
  exact h.frame ⟨rfl, rfl⟩

theorem Keeps.withdrawStep (h : Keeps s t) {g : Nat} : Keeps s (t.withdrawStep g) := by
  unfold State.withdrawStep
  extract_lets x'
  split
  · exact h
  · exact h.setReg.setStep

theorem Keeps.stepStop (h : Keeps s t) {g : Nat} : Keeps s (t.stepStop g) := by
  unfold State.stepStop
  extract_lets u _
  have hu : Keeps s u := h.setRfld.withdrawStep
  exact hu.setStep

/-! ### Machine/Flags -/

theorem Keeps.flags (h : Keeps s t) {k : Nat} {f : FlagSet} : Keeps s (t.flags k f) := by
  unfold State.flags
  exact h.setCore

/-! ### Machine/Cells -/

theorem Keeps.setPair (h : Keeps s t) {p : Nat} {x : Pwm} : Keeps s (t.setPair p x) := by
  unfold State.setPair
  exact h.frame ⟨rfl, rfl⟩

theorem Keeps.pwmCopy (h : Keeps s t) {p : Nat} : Keeps s (t.pwmCopy p) := by
  unfold State.pwmCopy
  extract_lets x' sh
  split
  split
  extract_lets d u
  have hu : Keeps s u := .ite h.satRfld h
  exact hu.setPair

theorem Keeps.pwmEvent (h : Keeps s t) {p : Nat} : Keeps s (t.pwmEvent p) := by
  unfold State.pwmEvent
  extract_lets x' both guard u x''
  have hu : Keeps s u := .ite h.setPair (.ite h.satRfld.pwmCopy h.pwmCopy)
  exact hu.setPair

theorem Keeps.pwmEdges (h : Keeps s t) : Keeps s (t.pwmEdges) := by
  unfold State.pwmEdges
  exact h.fold fun _ _ ku => ku.setPair

theorem Keeps.pwmTick (h : Keeps s t) : Keeps s (t.pwmTick) := by
  unfold State.pwmTick
  refine h.fold fun u _ hu => ?_
  extract_lets x' r
  split
  exact hu.setPair

theorem Keeps.pwmStore (h : Keeps s t) {p w : Nat} {v : Word} : Keeps s (t.pwmStore p w v) := by
  unfold State.pwmStore
  extract_lets x' en was u
  have hu : Keeps s u := h.setReg
  split
  · exact .ite hu.setPair (.ite hu.setPair hu)
  · exact h.setPair
  · exact h.setPair
  · exact h.setPair
  · exact h.setReg
  · exact h.setPair
  · exact .ite h.setReg.setPair h

theorem Keeps.hiZ (h : Keeps s t) {p : Nat → Bool} : Keeps s (t.hiZ p) := by
  unfold State.hiZ
  exact h.fold fun _ _ ku => .ite ku.setPair ku

theorem Keeps.tripClock (h : Keeps s t) {i : Nat} : Keeps s (t.tripClock i) := by
  unfold State.tripClock
  extract_lets x' n was act u v w x
  have hu : Keeps s u := h.frame ⟨rfl, rfl⟩
  have hv : Keeps s v := hu.setRfld
  have hw : Keeps s w := hv.hiZ
  have hx : Keeps s x := hw.setRfld.satRfld
  exact .ite h (.ite hx.cellEvent hv)

theorem Keeps.tripStore (h : Keeps s t) {i w : Nat} {v : Word} : Keeps s (t.tripStore i w v) := by
  unfold State.tripStore
  split
  · exact h.setReg
  · exact h.setReg
  · exact .ite h.setRfld h
  · exact h

theorem Keeps.setChop (h : Keeps s t) {f : Nat} {x : Chop} : Keeps s (t.setChop f x) := by
  unfold State.setChop
  exact h.frame ⟨rfl, rfl⟩

theorem Keeps.chopOn (h : Keeps s t) {f : Nat} : Keeps s (t.chopOn f) := by
  unfold State.chopOn
  exact h.satRfld.setChop

theorem Keeps.chopDecay (h : Keeps s t) {f peak : Nat} : Keeps s (t.chopDecay f peak) := by
  unfold State.chopDecay
  split
  next u _ v he =>
    have hv := (Keeps.iteSnd h.drawWord h).snd he
    exact hv.setRfld.setChop

theorem Keeps.chopLearn (h : Keeps s t) {f valley : Nat} {target : Int} : Keeps s (t.chopLearn f valley target) := by
  unfold State.chopLearn
  extract_lets u w' pk e o
  have hu : Keeps s u := h.setRfld
  exact .ite hu.setReg hu

theorem Keeps.drawSense (h : Keeps s t) : Keeps s t.drawSense.2 := by
  unfold State.drawSense
  split
  next u _ v he =>
    have hv := h.drawWord.snd he
    exact hv

theorem Keeps.chopStop (h : Keeps s t) {f : Nat} : Keeps s (t.chopStop f) := by
  unfold State.chopStop
  split
  · exact h
  · split
    next u _ v he =>
      have hv := h.drawSense.snd he
      exact hv.chopDecay

theorem Keeps.chopSetTarget (h : Keeps s t) {f v : Nat} : Keeps s (t.chopSetTarget f v) := by
  unfold State.chopSetTarget
  extract_lets old u t'
  have hu : Keeps s u := h.setReg
  split
  · exact hu.chopStop
  · split
    · split
      · split
        next w _ x he =>
          have hx := hu.drawSense.snd he
          exact hx.setRfld.chopOn
      · split
        next w _ x he =>
          have hx := hu.drawSense.snd he
          exact hx.chopLearn.chopOn
    · exact hu

theorem Keeps.chopStore (h : Keeps s t) {f w : Nat} {v : Word} : Keeps s (t.chopStore f w v) := by
  unfold State.chopStore
  split
  · split
    · exact h
    · extract_lets en v' v'' u x' _
      have hu : Keeps s u := h.setReg
      exact .ite hu.chopStop.setChop (.ite hu hu.setChop)
  · exact .ite h h.chopSetTarget
  · exact h.setReg
  · exact h.setReg
  · exact .ite h.setRfld h
  · exact h

theorem Keeps.stepFollow (h : Keeps s t) {g : Nat} : Keeps s (t.stepFollow g) := by
  unfold State.stepFollow
  exact h.fold fun _ _ ku => .ite ku.chopSetTarget.chopSetTarget ku

theorem Keeps.chopperStore (h : Keeps s t) {c : Nat} {v : Word} : Keeps s (t.chopperStore c v) := by
  unfold State.chopperStore
  exact h.setReg

theorem Keeps.setPos (h : Keeps s t) {g : Nat} {v : Word} : Keeps s (t.setPos g v) := by
  unfold State.setPos
  extract_lets old u
  have hu : Keeps s u := h.setReg
  exact .ite hu hu.stepFollow

theorem Keeps.stepHalt (h : Keeps s t) {g : Nat} : Keeps s (t.stepHalt g) := by
  unfold State.stepHalt
  extract_lets u
  have hu : Keeps s u := h.stepStop
  exact .ite hu hu.stepFollow

theorem Keeps.stepStore (h : Keeps s t) {g w : Nat} {v : Word} : Keeps s (t.stepStore g w v) := by
  unfold State.stepStore
  split
  · extract_lets run was dirsu u
    have hu : Keeps s u := h.setReg
    exact .ite hu.stepHalt hu
  · exact h.setReg
  · exact .ite h h.setPos.setReg
  · exact h

theorem Keeps.stepOutStore (h : Keeps s t) {g : Nat} {v : Word} : Keeps s (t.stepOutStore g v) := by
  unfold State.stepOutStore
  exact h.setReg

theorem Keeps.stepsTick (h : Keeps s t) : Keeps s (t.stepsTick) := by
  unfold State.stepsTick
  refine h.fold fun u _ hu => ?_
  extract_lets x' v w vel x'' a x
  have hv : Keeps s v := hu.setStep
  have hw : Keeps s w := by
    unfold w
    split
    · exact .ite hu (.ite hv.setRfld hv)
    · exact hu
  have hx : Keeps s x := .ite hw.satRfld hw
  exact .ite hw hx.setReg.setStep

theorem Keeps.setConv (h : Keeps s t) {k : Nat} {x : Conv} : Keeps s (t.setConv k x) := by
  unfold State.setConv
  exact h.frame ⟨rfl, rfl⟩

theorem Keeps.setAin (h : Keeps s t) {n : Nat} {x : Ain} : Keeps s (t.setAin n x) := by
  unfold State.setAin
  exact h.frame ⟨rfl, rfl⟩

theorem Keeps.dropInterval (h : Keeps s t) {n : Nat} : Keeps s (t.dropInterval n) := by
  unfold State.dropInterval
  exact h.setAin.setRfld

theorem Keeps.convStore (h : Keeps s t) {k w : Nat} {v : Word} : Keeps s (t.convStore k w v) := by
  unfold State.convStore
  extract_lets x' ten en u x
  have hu : Keeps s u := h.setReg
  have hx : Keeps s x := .ite h h.setConv
  split
  · exact .ite h hu.setConv
  · exact h.setReg
  · exact h.setReg
  · exact h.setReg
  · exact hx.setReg
  · exact h

theorem Keeps.ainStore (h : Keeps s t) {n w : Nat} {v : Word} : Keeps s (t.ainStore n w v) := by
  unfold State.ainStore
  split
  · extract_lets old v' v'' u w x x' range y
    have hu : Keeps s u := h.setReg
    have hw : Keeps s w := .ite hu.setRfld hu
    have hx : Keeps s x := hw.dropInterval
    have hy : Keeps s y := hx.setAin
    exact .ite hw (.ite hy.setRfld hy)
  · exact h.setReg
  · exact h.setReg
  · exact h

theorem Keeps.convEmpty (h : Keeps s t) {k : Nat} : Keeps s (t.convEmpty k) := by
  unfold State.convEmpty
  extract_lets _ u
  have hu : Keeps s u := h.setConv
  exact hu.fold fun _ _ kv => kv.dropInterval

theorem Keeps.calBegin (h : Keeps s t) : Keeps s t.calBegin := by
  unfold State.calBegin
  extract_lets u v _
  have hu : Keeps s u := h.fold fun _ _ k => k.convEmpty.setRfld
  have hv : Keeps s v := hu.fold fun _ _ k => k.setReg.setRfld.setRfld
  exact hv.setRfld.withCalAt

theorem Keeps.finStore (h : Keeps s t) {i w : Nat} {v : Word} : Keeps s (t.finStore i w v) := by
  unfold State.finStore
  split
  · exact h
  · extract_lets v' v'' u _
    have hu : Keeps s u := h.setReg
    exact .ite h (hu.frame ⟨rfl, rfl⟩)

theorem Keeps.foutStore (h : Keeps s t) {o w : Nat} {v : Word} : Keeps s (t.foutStore o w v) := by
  unfold State.foutStore
  split
  · exact h
  · extract_lets f f'
    refine Keeps.setReg ?_
    exact h.frame ⟨rfl, rfl⟩

theorem Keeps.setEnc (h : Keeps s t) {e : Nat} {x : Encoder} : Keeps s (t.setEnc e x) := by
  unfold State.setEnc
  exact h.frame ⟨rfl, rfl⟩

theorem Keeps.encStore (h : Keeps s t) {e w : Nat} {v : Word} : Keeps s (t.encStore e w v) := by
  unfold State.encStore
  split
  · exact .ite h h.setReg
  · exact .ite h h.setReg
  · exact .ite h.setRfld h
  · exact h

theorem Keeps.encsTick (h : Keeps s t) : Keeps s (t.encsTick) := by
  unfold State.encsTick
  exact h.fold fun _ _ ku => .ite ku ku.setReg.setEnc

/-! ### Machine/History -/

theorem Keeps.sigReads (h : Keeps s t) {n : Nat} : Keeps s (t.sigReads n).2 := by
  unfold State.sigReads
  exact h.meets

theorem Keeps.setSignal (h : Keeps s t) {n : Nat} {x : Signal} : Keeps s (t.setSignal n x) := by
  unfold State.setSignal
  exact h.frame ⟨rfl, rfl⟩

theorem Keeps.putSegment (h : Keeps s t) {n fmt count t0 tlast : Nat} {forced : Bool} {period : Word} {pay : List Word}
    {entryWords : Nat} {src : Option OpenSeg} :
    Keeps s (t.putSegment n fmt count t0 tlast forced period pay entryWords src) := by
  unfold State.putSegment
  extract_lets x' seg _ u _'
  have hu : Keeps s u := h.frame ⟨rfl, rfl⟩
  exact hu.setSignal

theorem Keeps.closeSeg (h : Keeps s t) {n : Nat} : Keeps s (t.closeSeg n) := by
  unfold State.closeSeg
  split
  · exact h
  · exact h.putSegment

theorem Keeps.cutSegment (h : Keeps s t) {c : ClosedSeg} {g : OpenSeg} {i : Nat} : Keeps s (t.cutSegment c g i).2 := by
  unfold State.cutSegment
  extract_lets k u b head x' x'' a
  have hu : Keeps s u := h.drop
  exact .iteSnd hu.setSignal hu.setSignal

theorem Keeps.closeAll (h : Keeps s t) : Keeps s (t.closeAll) := by
  unfold State.closeAll
  exact h.fold fun _ _ k => k.closeSeg

theorem Keeps.refuseEntry (h : Keeps s t) {n : Nat} : Keeps s (t.refuseEntry n) := by
  unfold State.refuseEntry
  extract_lets x' u
  have hu : Keeps s u := h.setSignal
  exact hu.setRfld.setRfld

theorem Keeps.histEntry (h : Keeps s t) {n cc stamp : Nat} {vals : List Word} : Keeps s (t.histEntry n cc stamp vals) := by
  unfold State.histEntry
  split
  · exact h
  · split
    next u _ v he =>
      have hv := h.sigReads.snd he
      split
      · exact hv
      · extract_lets timed k w x' g charge ws g'
        have hw : Keeps s w := by
          unfold w
          split
          · exact .ite hv.closeSeg hv
          · exact hv
        exact .ite hw.refuseEntry hw.setSignal.produce

theorem Keeps.histMark (h : Keeps s t) {n : Nat} {v : Word} : Keeps s (t.histMark n v) := by
  unfold State.histMark
  split
  next u _ w he =>
    have hw := h.sigReads.snd he
    split
    · exact hw
    · extract_lets x x' y
      have hx : Keeps s x := hw.closeSeg
      have hy : Keeps s y := hx.setSignal
      exact .ite hx.refuseEntry hy.produce.putSegment

theorem Keeps.histCredits (h : Keeps s t) : Keeps s (t.histCredits) := by
  unfold State.histCredits
  refine h.fold fun u _ hu => ?_
  split
  next v _ w he =>
    have hw := hu.sigReads.snd he
    exact .ite hw hw.setSignal

theorem Keeps.readSignals (h : Keeps s t) : Keeps s t.readSignals.2 := by
  unfold State.readSignals
  exact h.meets

theorem Keeps.setSignals (h : Keeps s t) {es : List (Nat × Word × Word)} {u : State} (e : t.setSignals es = some u) : Keeps s u := by
  unfold State.setSignals at e
  extract_lets fs v sum at e
  have hv : Keeps s v := h.fold fun _ _ ku => ku.closeSeg.agentWrite.setSignal
  split at e
  · exact Option.some.inj e ▸ hv.setReg
  · cases e

theorem Keeps.histPop (h : Keeps s t) : Keeps s t.histPop.2 := by
  unfold State.histPop
  split
  · exact h
  · extract_lets rd rd' u _
    have hu : Keeps s u := h.setReg.setReg
    exact hu.frame ⟨rfl, rfl⟩

theorem Keeps.histRoom (h : Keeps s t) {n fuel : Nat} : Keeps s (State.histRoom n fuel t) := by
  induction fuel generalizing t with
  | zero => exact h
  | succ m ih =>
    unfold State.histRoom
    exact .ite h (ih h.histPop.drop.setRfld)

theorem Keeps.histTake (h : Keeps s t) {n : Nat} : Keeps s (State.histTake n t) := by
  induction n generalizing t with
  | zero => exact h
  | succ n ih =>
    unfold State.histTake
    split
    · exact h
    · exact ih h.histPop.deliver

theorem Keeps.histSkip (h : Keeps s t) {k : Nat} : Keeps s (t.histSkip k) := by
  unfold State.histSkip
  split
  · exact h.setReg.setReg
  · extract_lets _ u
    have hu : Keeps s u := h.frame ⟨rfl, rfl⟩
    exact hu.setReg.setReg.produce

theorem Keeps.histDrop (h : Keeps s t) {reason : Nat} {staging : Bool} : Keeps s (t.histDrop reason staging) := by
  unfold State.histDrop
  extract_lets n u v _ w x y _'
  have hu : Keeps s u := h.drop.setReg
  have hv : Keeps s v := hu.setReg
  have hw : Keeps s w := hv.frame ⟨rfl, rfl⟩
  have hx : Keeps s x := hw.drop
  have hy : Keeps s y := hx.setRfld
  exact .ite (hy.frame ⟨rfl, rfl⟩) hw

theorem Keeps.setCap (h : Keeps s t) {u : Nat} {x : Capture} : Keeps s (t.setCap u x) := by
  unfold State.setCap
  exact h.frame ⟨rfl, rfl⟩

theorem Keeps.captureAt (h : Keeps s t) {u kind time target : Nat} : Keeps s (t.captureAt u kind time target) := by
  unfold State.captureAt
  exact .ite h h.setCap

theorem Keeps.captureHit (h : Keeps s t) {u kind time : Nat} : Keeps s (t.captureHit u kind time) := by
  unfold State.captureHit
  exact h.captureAt

theorem Keeps.newValue (h : Keeps s t) {kind src cc stamp : Nat} {v : Word} {sigs : List Nat} :
    Keeps s (t.newValue kind src cc stamp v sigs) := by
  unfold State.newValue
  extract_lets u
  have hu : Keeps s u := h.fold fun _ _ kw => kw.histEntry
  exact hu.fold fun _ _ kw => .ite kw.setCap kw

theorem Keeps.newEdge (h : Keeps s t) {i : Nat} {rise : Bool} {cc stamp : Nat} : Keeps s (t.newEdge i rise cc stamp) := by
  unfold State.newEdge
  extract_lets u
  have hu : Keeps s u := h.fold fun _ _ kv => kv.histEntry
  exact hu.fold fun _ _ kv => .ite kv.captureHit kv

theorem Keeps.bandTrigger (h : Keeps s t) {id time : Nat} : Keeps s (t.bandTrigger id time) := by
  unfold State.bandTrigger
  exact h.fold fun _ _ ku => .ite ku.captureHit ku

/-! ### Machine/CellEvents -/

theorem Keeps.execTrip (h : Keeps s t) {i : Fin 8} {run : Bool} : OutKeeps s (execTrip i run t) := by
  unfold Machine.execTrip
  extract_lets x'
  refine .next ?_
  refine Keeps.tripClock ?_
  exact h.frame ⟨rfl, rfl⟩

theorem Keeps.execPwmReload (h : Keeps s t) {p : Fin 24} : OutKeeps s (execPwmReload p t) := by
  unfold Machine.execPwmReload
  exact .next (.ite h.pwmEvent h)

theorem Keeps.startTo (h : Keeps s t) {k : Nat} {select : Bool} {at_ : Nat} : Keeps s (t.startTo k select at_) := by
  unfold State.startTo
  exact h.setConv

theorem Keeps.execConverterTrigger (h : Keeps s t) {n : Fin 96} : OutKeeps s (execConverterTrigger n t) := by
  unfold Machine.execConverterTrigger
  extract_lets p k x' u
  have hu : Keeps s u := h.setPair
  refine .next ?_
  split
  · refine hu.fold fun v _ hv => ?_
    extract_lets w' w
    have hw : Keeps s w := .ite hv.startTo hv
    exact .ite hw.startTo hw
  · exact h

theorem Keeps.execStepCarry (h : Keeps s t) {g : Fin 16} : OutKeeps s (execStepCarry g t) := by
  unfold Machine.execStepCarry
  extract_lets g' x' up d move
  refine .next ?_
  split
  · exact h
  · split
    · exact h.setPos.setStep
    · exact .ite h h.setPos.setStep.satRfld

theorem Keeps.execStepPulseStart (h : Keeps s t) {g : Fin 16} : OutKeeps s (execStepPulseStart g t) := by
  unfold Machine.execStepPulseStart
  extract_lets g' x'
  refine .next ?_
  split
  · exact h
  · split
    · exact h
    · extract_lets u
      have hu : Keeps s u := h.setStep
      exact .ite (hu.frame ⟨rfl, rfl⟩) hu

theorem Keeps.execCellClockLoss (h : Keeps s t) : OutKeeps s (execCellClockLoss t) := by
  unfold Machine.execCellClockLoss
  exact .next h.withModes.hiZ

theorem Keeps.execChopperSwitchOn (h : Keeps s t) {f : Fin 16} {current : BitVec 12} : OutKeeps s (execChopperSwitchOn f current t) := by
  unfold Machine.execChopperSwitchOn
  extract_lets f' x' u
  have hu : Keeps s u := h.chopLearn
  exact .next (.ite hu.chopOn h)

theorem Keeps.execChopperDecay (h : Keeps s t) {f : Fin 16} {current : BitVec 12} : OutKeeps s (execChopperDecay f current t) := by
  unfold Machine.execChopperDecay
  exact .next (.ite h.chopDecay h)

theorem Keeps.execTonmaxExpiry (h : Keeps s t) {f : Fin 16} : OutKeeps s (execTonmaxExpiry f t) := by
  unfold Machine.execTonmaxExpiry
  extract_lets f' x' m u _ v
  have hu : Keeps s u := h.setRfld.chopStop
  have hv : Keeps s v := hu.setChop
  exact .next (.ite hv.cellEvent h)

theorem Keeps.execAdcTimer (h : Keeps s t) {k : Fin 16} : OutKeeps s (execAdcTimer k t) := by
  unfold Machine.execAdcTimer
  exact .next (.ite h.setConv.startTo h)

theorem Keeps.lost (h : Keeps s t) {k : Nat} : Keeps s (t.lost k) := by
  unfold State.lost
  exact h.satRfld

theorem Keeps.sample (h : Keeps s t) {k sel : Nat} {rest : List Nat} : Keeps s (t.sample k sel rest) := by
  unfold State.sample
  extract_lets n a old skip smp u x'
  have hu : Keeps s u := .ite h.setAin h
  exact hu.setConv.incReg

theorem Keeps.beginSelect (h : Keeps s t) {k : Nat} : Keeps s (t.beginSelect k) := by
  unfold State.beginSelect
  exact .ite h.lost h.setConv.sample

theorem Keeps.beginScan (h : Keeps s t) {k : Nat} : Keeps s (t.beginScan k) := by
  unfold State.beginScan
  split
  · exact h.lost
  · exact h.sample

theorem Keeps.leaveLine (h : Keeps s t) {k : Nat} {select : Bool} : Keeps s (t.leaveLine k select) := by
  unfold State.leaveLine
  exact .ite (.ite h.beginSelect h.beginScan) (.ite (.ite h.lost h.setConv) (.ite h.lost h.setConv))

theorem Keeps.execStartArrival (h : Keeps s t) {k : Fin 16} : OutKeeps s (execStartArrival k t) := by
  unfold Machine.execStartArrival
  extract_lets k' x' due u enter
  have hu : Keeps s u := h.setConv
  exact .next (.ite (.ite (.ite hu (.ite hu.lost hu.setConv)) (.ite (.lost (.ite hu (.ite hu.lost hu.setConv))) (.setConv (.ite hu
    (.ite hu.lost hu.setConv))))) hu)

theorem Keeps.execDelayLineExit (h : Keeps s t) {k : Fin 16} : OutKeeps s (execDelayLineExit k t) := by
  unfold Machine.execDelayLineExit
  extract_lets k' x' out u leave
  have hu : Keeps s u := h.setConv
  exact .next ((hu.fold fun _ _ kv => kv.leaveLine).fold fun _ _ kv => kv.leaveLine)

theorem Keeps.waited (h : Keeps s t) {k since : Nat} : Keeps s (t.waited k since) := by
  unfold State.waited
  exact h.setRfld

theorem Keeps.takePending (h : Keeps s t) {k : Nat} : Keeps s (t.takePending k) := by
  unfold State.takePending
  extract_lets _ u _'
  have hu : Keeps s u := by
    unfold u
    split
    · exact h.setConv.waited.beginSelect
    · exact h
  split
  · exact hu
  · split
    · exact hu.setConv.waited.beginScan
    · exact hu

theorem Keeps.execConverterFree (h : Keeps s t) {k : Fin 16} : OutKeeps s (execConverterFree k t) := by
  unfold Machine.execConverterFree
  extract_lets k' x' u
  have hu : Keeps s u := h.setConv
  refine .next ?_
  split
  · exact h
  · split
    · exact h
    · split
      · exact hu.sample
      · exact hu.takePending

theorem Keeps.window (h : Keeps s t) {n : Nat} : Keeps s (t.window n) := by
  unfold State.window
  extract_lets w' r st was u kind
  have hu : Keeps s u := h.setRfld
  exact .ite h (.ite hu (hu.postField fun _ kv => kv.cellEvent))

theorem Keeps.execResultWrite (h : Keeps s t) {k : Fin 16} {raw : BitVec 20} : OutKeeps s (execResultWrite k raw t) := by
  unfold Machine.execResultWrite
  extract_lets k' x'
  refine .next ?_
  split
  · exact h
  · split
    · exact h
    · extract_lets u n a w' range full t'
      have hu : Keeps s u := h.setConv
      split
      · exact hu
      · split
        extract_lets a' v valid w4' w x _ y z
        have hv : Keeps s v := hu.setAin
        have hw : Keeps s w := hv.setReg.setReg
        have hx : Keeps s x := hw.setReg.setReg
        have hy : Keeps s y := .ite hx.setAin hx
        have hz : Keeps s z := .ite hy.newValue hy
        exact .ite hu.setAin.setRfld hz.window

theorem Keeps.execCalibrationDone (h : Keeps s t) {measured : List (Int × Nat)} : OutKeeps s (execCalibrationDone measured t) := by
  unfold Machine.execCalibrationDone
  refine .next ?_
  split
  · exact h
  · extract_lets f bad failed u mask _ v
    have hu : Keeps s u := h.fold fun _ _ k => k.setReg.setReg
    have hv : Keeps s v := hu.setReg.withCalAt
    exact .ite h (hv.fold fun _ _ k => .ite k.cellEvent k)

theorem Keeps.execBarrierPacketOut (h : Keeps s t) : OutKeeps s (execBarrierPacketOut t) := by
  unfold Machine.execBarrierPacketOut
  refine .next ?_
  split
  · exact h
  · extract_lets cmd out f u v
    have hu : Keeps s u := h.frame ⟨rfl, rfl⟩
    have hv : Keeps s v := hu.produce
    exact hv.fold fun _ _ kw => kw.setRfld

theorem Keeps.fellOut (h : Keeps s t) {k : Nat} : Keeps s (t.fellOut k) := by
  unfold State.fellOut
  exact h.frame ⟨rfl, rfl⟩

theorem Keeps.supplyStep (h : Keeps s t) {n : Nat} : Keeps s (t.supplyStep n) := by
  unfold State.supplyStep
  split
  · exact h
  · extract_lets u v
    have hu : Keeps s u := h.setRfld
    have hv : Keeps s v := hu.cellEvent
    exact .ite hv.fellOut hv

theorem Keeps.fieldEdge (h : Keeps s t) {e : FieldEdge} : Keeps s (t.fieldEdge e) := by
  unfold State.fieldEdge
  extract_lets t' w' u v w c
  have hu : Keeps s u := h.setReg.setReg
  have hv : Keeps s v := hu.setRfld
  have hw : Keeps s w := hv.newEdge
  exact .ite (hw.postField fun _ kx => kx.cellEvent) hw

theorem Keeps.fieldTakes (h : Keeps s t) {out : Nat} {cfg : Option (Nat × Word)} : Keeps s (t.fieldTakes out cfg) := by
  unfold State.fieldTakes
  extract_lets f side outs u
  have hu : Keeps s u := h.frame ⟨rfl, rfl⟩
  exact hu.fold fun _ _ kv => .ite kv kv.setRfld

theorem Keeps.fieldEnds (h : Keeps s t) {p : InPacket} : Keeps s (t.fieldEnds p) := by
  unfold State.fieldEnds
  extract_lets f ended u
  have hu : Keeps s u := h.frame ⟨rfl, rfl⟩
  split
  · exact .ite hu.fieldTakes hu
  · exact hu

theorem Keeps.reported (h : Keeps s t) {rxok : Bool} {start : Nat} : Keeps s (t.reported rxok start) := by
  unfold State.reported
  extract_lets f n u v confirmed
  have hu : Keeps s u := .ite h.deliver (.ite h h.deliver.drop)
  have hv : Keeps s v := .ite hu hu.satRfld
  exact hv.frame ⟨rfl, rfl⟩

theorem Keeps.goodPacket (h : Keeps s t) {p : InPacket} {x : InFields} : Keeps s (t.goodPacket p x) := by
  unfold State.goodPacket
  extract_lets u first _ v w y z u1 v1
  have hu : Keeps s u := h.deliver.reported
  have hv : Keeps s v := hu.frame ⟨rfl, rfl⟩
  have hw : Keeps s w := .ite hv.setRfld hv
  have hy : Keeps s y := .ite hw.incReg hw
  have hz : Keeps s z := hy.fold fun _ _ kw1 => kw1.setRfld
  have hu1 : Keeps s u1 := hz.fold fun _ _ kw1 => kw1.setRfld
  have hv1 : Keeps s v1 := hu1.supplyStep.tallyMin
  split
  · exact hv1.fieldEdge
  · exact hv1

theorem Keeps.execBarrierPacketIn (h : Keeps s t) {p : InPacket} : OutKeeps s (execBarrierPacketIn p t) := by
  unfold Machine.execBarrierPacketIn
  refine .next ?_
  split
  · exact h
  · extract_lets u v
    have hu : Keeps s u := h.produce
    have hv : Keeps s v := by
      unfold v
      split
      · exact hu.goodPacket
      · exact hu.drop.satRfld
    exact hv.fieldEnds

theorem Keeps.execBarrierLinkLost (h : Keeps s t) : OutKeeps s (execBarrierLinkLost t) := by
  unfold Machine.execBarrierLinkLost
  refine .next ?_
  split
  · extract_lets _ u
    have hu : Keeps s u := by
      unfold u
      refine Keeps.setRfld ?_
      exact h.frame ⟨rfl, rfl⟩
    exact hu.cellEvent.fellOut
  · exact h

theorem Keeps.execBarrierLinkRestart (h : Keeps s t) : OutKeeps s (execBarrierLinkRestart t) := by
  unfold Machine.execBarrierLinkRestart
  exact .next (.ite h h.setRfld.withField)

theorem Keeps.execFieldEdgeAccepted (h : Keeps s t) {i : Fin 32} {level : Bool} {tick ticksHeld : Nat} :
    OutKeeps s (execFieldEdgeAccepted i level tick ticksHeld t) := by
  unfold Machine.execFieldEdgeAccepted
  exact .next (.ite h (.ite h (.ite h.satRfld (h.frame ⟨rfl, rfl⟩))))

theorem Keeps.execFieldOutputTrip (h : Keeps s t) {o : Fin 16} : OutKeeps s (execFieldOutputTrip o t) := by
  unfold Machine.execFieldOutputTrip
  extract_lets o' w' u
  have hu : Keeps s u := h.setRfld.satRfld
  exact .next (.ite hu.cellEvent h)

theorem Keeps.execEncoderEdge (h : Keeps s t) {e : Fin 16} {a b : Bool} : OutKeeps s (execEncoderEdge e a b t) := by
  unfold Machine.execEncoderEdge
  extract_lets e x w run quad
  split
  next d err _ =>
    extract_lets d'
    split
    next d u he =>
      have hu : Keeps s u := by
        split at he
        · split at he
          next v w hd =>
            cases he
            exact h.drawWord.snd hd
        · cases he
          exact h
      exact .next (.ite hu.setEnc.satRfld hu.setEnc)

theorem Keeps.execZLatch (h : Keeps s t) {e : Fin 16} {rising : Bool} : OutKeeps s (execZLatch e rising t) := by
  unfold Machine.execZLatch
  extract_lets e' w' t' u v
  have hu : Keeps s u := h.setReg.setReg
  have hv : Keeps s v := hu.setReg
  exact .next (.ite hv.setRfld.setRfld h)

theorem Keeps.execEncoderLoss (h : Keeps s t) {e : Fin 16} : OutKeeps s (execEncoderLoss e t) := by
  unfold Machine.execEncoderLoss
  extract_lets e' u
  have hu : Keeps s u := h.setRfld
  exact .next (.ite h hu.cellEvent)

theorem Keeps.execEncoderLossEnd (h : Keeps s t) {e : Fin 16} : OutKeeps s (execEncoderLossEnd e t) := by
  unfold Machine.execEncoderLossEnd
  exact .next h.setRfld

/-! ### Machine/Window -/

theorem Keeps.bufRead (h : Keeps s t) {b : Nat} : Keeps s (t.bufRead b).2 := by
  unfold State.bufRead
  exact h.meets

theorem Keeps.descRead (h : Keeps s t) {b n : Nat} : Keeps s (t.descRead b n).2 := by
  unfold State.descRead
  exact h.meets

theorem Keeps.passBuf (h : Keeps s t) {b len use_ vec : Nat} {crcBad : Bool} : Keeps s (t.passBuf b len use_ vec crcBad) := by
  unfold State.passBuf
  split
  · exact h
  · split
    next u _ _ v he =>
      have hv := h.agentRead.thd he
      extract_lets w x y
      have hw : Keeps s w := hv.agentWrite
      have hx : Keeps s x := hw.agentWord
      have hy : Keeps s y := hx.agentWord
      exact hy.msix

theorem Keeps.fillBuf (h : Keeps s t) {b : Nat} {ws : List Word} {use_ vec : Nat} : Keeps s (t.fillBuf b ws use_ vec) := by
  unfold State.fillBuf
  exact h.agentWrite.passBuf

theorem Keeps.returnBuf (h : Keeps s t) {b : Nat} : Keeps s (t.returnBuf b) := by
  unfold State.returnBuf
  exact .ite h.passBuf h

/-! ### Machine/Can -/

theorem Keeps.canFlagSeen (h : Keeps s t) {p : Nat} : Keeps s (t.canFlagSeen p) := by
  unfold State.canFlagSeen
  exact h.satRfld.tallyAdd

theorem Keeps.setCan (h : Keeps s t) {p : Nat} {x : Can} : Keeps s (t.setCan p x) := by
  unfold State.setCan
  exact h.frame ⟨rfl, rfl⟩

theorem Keeps.setBox (h : Keeps s t) {p m : Nat} {x : Mailbox} : Keeps s (t.setBox p m x) := by
  unfold State.setBox
  exact h.setCan

theorem Keeps.canEvent (h : Keeps s t) {p w : Nat} : Keeps s (t.canEvent p w) := by
  unfold State.canEvent
  exact h.postField fun _ ku => ku.cellEvent

theorem Keeps.boxEnd (h : Keeps s t) {p m result : Nat} : Keeps s (t.boxEnd p m result) := by
  unfold State.boxEnd
  extract_lets _ u
  have hu : Keeps s u := h.setBox
  exact .ite hu.canEvent hu

theorem Keeps.boxDrop (h : Keeps s t) {p m reason : Nat} : Keeps s (t.boxDrop p m reason) := by
  unfold State.boxDrop
  exact .ite h.drop h

theorem Keeps.refWon (h : Keeps s t) {p : Nat} : Keeps s (t.refWon p) := by
  unfold State.refWon
  exact .ite h h.setCan.produce

theorem Keeps.refDrop (h : Keeps s t) {p reason : Nat} : Keeps s (t.refDrop p reason) := by
  unfold State.refDrop
  exact .ite h.setCan.drop h

theorem Keeps.boxReq (h : Keeps s t) {p m : Nat} : Keeps s (t.boxReq p m) := by
  unfold State.boxReq
  extract_lets b u w' c fdf n k a bad v w
  have hu : Keeps s u := h.setReg
  have hv : Keeps s v := hu.setBox
  have hw : Keeps s w := hv.fold fun _ _ kx => kx.decode
  exact .ite h (.ite hv.boxEnd (.ite hw.boxEnd hw.setBox))

theorem Keeps.boxCancel (h : Keeps s t) {p m : Nat} : Keeps s (t.boxCancel p m) := by
  unfold State.boxCancel
  extract_lets b _
  split
  · exact h
  · split
    · split
      · exact h.setBox
      · extract_lets u
        have hu : Keeps s u := .ite h.setCan h
        exact hu.boxDrop.boxEnd
    · exact h.boxDrop.boxEnd

theorem Keeps.boxStore (h : Keeps s t) {p m w : Nat} {v : Word} : Keeps s (t.boxStore p m w v) := by
  unfold State.boxStore
  extract_lets st u
  have hu : Keeps s u := h.setReg
  split
  · exact .ite hu.boxCancel (.ite hu.boxReq hu)
  · exact .ite h h.setReg
  · exact .ite h h.setReg
  · exact .ite h h.setReg
  · exact h

theorem Keeps.fifoRd (h : Keeps s t) {p : Nat} {v : Word} : Keeps s (t.fifoRd p v) := by
  unfold State.fifoRd
  exact .ite h.setReg.deliver h

theorem Keeps.canStore (h : Keeps s t) {p w : Nat} {v : Word} : Keeps s (t.canStore p w v) := by
  unfold State.canStore
  extract_lets en v' was u x' n
  have hu : Keeps s u := h.setReg
  split
  · exact h.boxStore
  · split
    · exact h.setReg
    · split
      · exact h.setReg
      · exact .ite h h.setReg
      · exact .ite h h.setReg
      · exact .ite h h.setReg
      · exact h.fifoRd
      · exact .ite h (.ite hu.setCan (.ite hu.setCan.refDrop hu))
      · exact .ite h h.setRfld
      · exact h

theorem Keeps.canErrors (h : Keeps s t) {p tec rec_ : Nat} : Keeps s (t.canErrors p tec rec_) := by
  unfold State.canErrors
  extract_lets old fcs u v w x
  have hu : Keeps s u := h.setRfld.setRfld
  have hv : Keeps s v := hu.setRfld
  have hw : Keeps s w := .ite hv.satRfld hv
  have hx : Keeps s x := hw.canEvent
  exact .ite hu (.ite hx.cellEvent hx)

theorem Keeps.canSettle (h : Keeps s t) {p mode : Nat} : Keeps s (t.canSettle p mode) := by
  unfold State.canSettle
  extract_lets pol u reason _ v
  have hu : Keeps s u := h.setRfld
  have hv : Keeps s v := hu.setCan
  exact .ite h (.ite hu (hv.refDrop.fold fun _ _ kw => .ite kw.boxDrop.boxEnd kw))

theorem Keeps.canMode (h : Keeps s t) {mode : Nat} : Keeps s (t.canMode mode) := by
  unfold State.canMode
  exact h.fold fun _ _ ku => .ite ku ku.canSettle

theorem Keeps.canChoose (h : Keeps s t) {p : Nat} : Keeps s (t.canChoose p) := by
  unfold State.canChoose
  extract_lets x' a
  split
  · exact h
  · split
    · exact h
    · exact h.setCan

theorem Keeps.execCanTxChoice (h : Keeps s t) {p : Fin 4} : OutKeeps s (execCanTxChoice p t) := by
  unfold Machine.execCanTxChoice
  exact .next (.ite h h.canSettle.canChoose)

theorem Keeps.collision (h : Keeps s t) {p : Nat} {f : CanFrame} : Keeps s (t.collision p f) := by
  unfold State.collision
  extract_lets x' k last u v w
  have hu : Keeps s u := h.setCan
  have hv : Keeps s v := hu.setReg
  have hw : Keeps s w := hv.setReg
  exact .ite hw.cellEvent.canEvent hu

theorem Keeps.boxWon (h : Keeps s t) {p n : Nat} : Keeps s (t.boxWon p n) := by
  unfold State.boxWon
  extract_lets b u v _
  have hu : Keeps s u := h.setRfld
  have hv : Keeps s v := .ite hu hu.produce
  exact hv.setBox

theorem Keeps.canWin (h : Keeps s t) {p n : Nat} : Keeps s (t.canWin p n) := by
  unfold State.canWin
  split
  · exact h
  · extract_lets _ u
    have hu : Keeps s u := h.setCan
    exact .ite hu.refWon hu.boxWon

theorem Keeps.canClock (h : Keeps s t) {p : Nat} : Keeps s (t.canClock p) := by
  unfold State.canClock
  split
  · exact h
  · extract_lets u
    have hu : Keeps s u := .ite h.setReg.setReg h
    exact .ite hu.canWin hu

theorem Keeps.sendFlag (h : Keeps s t) {p : Nat} : Keeps s (t.sendFlag p) := by
  unfold State.sendFlag
  split
  · exact h
  · refine Keeps.canFlagSeen ?_
    exact h.frame ⟨rfl, rfl⟩

theorem Keeps.canGiveUp (h : Keeps s t) {p n result : Nat} : Keeps s (t.canGiveUp p n result) := by
  unfold State.canGiveUp
  exact .ite h.setCan.refDrop h.boxDrop.boxEnd

theorem Keeps.canEnds (h : Keeps s t) {p n sof : Nat} {e : CanEnd} : Keeps s (t.canEnds p n sof e) := by
  unfold State.canEnds
  extract_lets f oneshot u cancel edge t' v _ w send x y z _'
  have hu : Keeps s u := by
    unfold u
    split
    · exact h.canWin
    · exact h.canWin
    · exact h
  have hv : Keeps s v := .ite hu hu.setReg.setReg
  have hw : Keeps s w := hv.setCan
  have hx : Keeps s x := hw.frame ⟨rfl, rfl⟩
  have hy : Keeps s y := .ite hx hx.canErrors
  have hz : Keeps s z := hy.setRfld
  split
  · exact .ite hw.canGiveUp (.ite hw.canGiveUp hw)
  · exact .ite hz.setCan.deliver hy.deliver.boxEnd
  · extract_lets u1 v1
    have hu1 : Keeps s u1 := hw.setRfld.sendFlag
    have hv1 : Keeps s v1 := .ite hu1 hu1.canErrors
    exact .ite hv1.canGiveUp (.ite hv1.canGiveUp hv1)
  · extract_lets u1 v1 w1
    have hu1 : Keeps s u1 := by
      unfold u1
      refine Keeps.sendFlag ?_
      refine Keeps.setRfld ?_
      exact hw.frame ⟨rfl, rfl⟩
    have hv1 : Keeps s v1 := .ite hu1 hu1.canErrors
    have hw1 : Keeps s w1 := .ite hv1.canGiveUp (.ite hv1.canGiveUp hv1)
    exact .ite hw1.collision hw1

theorem Keeps.execCanTxEnd (h : Keeps s t) {p : Fin 4} {e : CanEnd} : OutKeeps s (execCanTxEnd p e t) := by
  unfold Machine.execCanTxEnd
  extract_lets p' early
  refine .next ?_
  split
  · exact h
  · exact .ite h h.canEnds.canSettle

theorem Keeps.execReferenceMessageDue (h : Keeps s t) {p : Fin 4} : OutKeeps s (execReferenceMessageDue p t) := by
  unfold Machine.execReferenceMessageDue
  exact .next (.ite h.refDrop.setCan h)

theorem Keeps.canException (h : Keeps s t) {p : Nat} : Keeps s (t.canException p) := by
  unfold State.canException
  exact h.setRfld.satRfld

theorem Keeps.canReceive (h : Keeps s t) {p : Nat} {f : CanFrame} {sof : DWord} : Keeps s (t.canReceive p f sof) := by
  unfold State.canReceive
  extract_lets _ u v w r x base wr m
  have hu : Keeps s u := h.setCan
  have hv : Keeps s v := .ite hu (hu.frame ⟨rfl, rfl⟩)
  have hw : Keeps s w := hv.produce
  have hx : Keeps s x := by
    unfold x
    split
    · exact hw
    · split
      · exact hw.canErrors
      · split
        next y _ z he =>
          have hz := hw.drawWord.snd he
          exact hz.canErrors
  split
  · exact hx.satRfld.drop
  · split
    · exact hx.drop
    · extract_lets y
      have hy : Keeps s y := hx.agentWrite.setReg
      exact .ite hy.canEvent hy

theorem Keeps.execCanFrameValidated (h : Keeps s t) {p : Fin 4} {f : CanHeard} : OutKeeps s (execCanFrameValidated p f t) := by
  unfold Machine.execCanFrameValidated
  exact .next (.ite h (.ite h.canException h.canReceive))

theorem Keeps.execCanBusError (h : Keeps s t) {p : Fin 4} {e : CanBusEvent} : OutKeeps s (execCanBusError p e t) := by
  unfold Machine.execCanBusError
  extract_lets p failed
  have hf : ∀ k n, Keeps s (failed k n) := fun k n => .ite h.setRfld.sendFlag h.setRfld.sendFlag.canErrors
  refine .next (.ite h ?_)
  split
  · exact hf _ _
  · exact hf _ _
  · exact h.canFlagSeen
  · exact .ite h h.canException

theorem Keeps.execBusOffRecovery (h : Keeps s t) {p : Fin 4} : OutKeeps s (execBusOffRecovery p t) := by
  unfold Machine.execBusOffRecovery
  extract_lets p' u
  have hu : Keeps s u := h.setRfld.setRfld.setRfld
  exact .next (.ite h hu.canEvent)

/-! ### Machine/Rings -/

theorem Keeps.setRing (h : Keeps s t) {r : Nat} {x : Ring} : Keeps s (t.setRing r x) := by
  unfold State.setRing
  exact h.frame ⟨rfl, rfl⟩

theorem Keeps.setStation (h : Keeps s t) {r p : Nat} {x : Station} : Keeps s (t.setStation r p x) := by
  unfold State.setStation
  exact h.setRing

theorem Keeps.slotStore (h : Keeps s t) {r i w : Nat} {v : Word} : Keeps s (t.slotStore r i w v) := by
  unfold State.slotStore
  split
  · exact h.setReg
  · exact .ite h.setReg h
  · exact h

theorem Keeps.assembleCells (h : Keeps s t) {r : Nat} {c : RingCfg} {n : Tab Nat} : Keeps s (t.assembleCells r c n).1 := by
  unfold State.assembleCells
  refine .foldFst h fun q i hq => ?_
  extract_lets w n
  split
  · exact .ite hq.satRfld hq
  · exact hq

/-- The kernel unfolds `assemble` as a function, and does not compute the bytes of a cycle. -/
theorem Keeps.assemble (h : Keeps s t) {r : Nat} {c : RingCfg} : Keeps s (t.assemble r c) := by
  have e : @State.assemble = State.assemble := rfl
  conv_rhs at e => delta State.assemble
  rw [e]
  beta_reduce
  extract_lets -underBinder x next t₀ t₁
  split
  next u v _ he =>
    have hv := h.assembleCells.fst he
    extract_lets -underBinder t₂ area
    split
    extract_lets -underBinder base
    split
    next w _ x he =>
      have hx := hv.bandPut.bandGet.snd he
      extract_lets -underBinder x''
      split
      exact hx.setRing.produce

theorem Keeps.storeBlock (h : Keeps s t) {r i : Nat} {pay : List Byte} : Keeps s (t.storeBlock r i pay) := by
  unfold State.storeBlock
  split
  · exact h
  · split
    exact .ite h h.bandPut

theorem Keeps.takeBlock (h : Keeps s t) {r copy i bidx : Nat} {bs : List Byte} {headOk : Bool} :
    Keeps s (t.takeBlock r copy i bidx bs headOk) := by
  unfold State.takeBlock
  exact .ite h (.ite h.setRing.storeBlock h.setRing.drop.setReg)

theorem Keeps.mbxSend (h : Keeps s t) {r dst src : Nat} {data : List Byte} : Keeps s (t.mbxSend r dst src data) := by
  unfold State.mbxSend
  exact h.setRing.produce

theorem Keeps.mbxNews (h : Keeps s t) {r : Nat} {c : RingCfg} {addr : Nat} {v : List Int} : Keeps s (t.mbxNews r c addr v) := by
  unfold State.mbxNews
  exact .ite h h.mbxSend

theorem Keeps.mbxDeliver (h : Keeps s t) {m : MbxMsg} : Keeps s (t.mbxDeliver m) := by
  unfold State.mbxDeliver
  split
  · exact h
  · exact h.withMbxBufs.fillBuf

theorem Keeps.mbxAppended (h : Keeps s t) {r : Nat} {m : MbxMsg} : Keeps s (t.mbxAppended r m) := by
  unfold State.mbxAppended
  extract_lets x' key u own
  have hu : Keeps s u := h.setRing.produce
  split
  · exact h
  · split
    · exact hu.deliver.mbxDeliver
    · split
      · exact hu.deliver.mbxSend
      · exact hu.drop

theorem Keeps.mbxAcked (h : Keeps s t) {r : Nat} {m : MbxMsg} : Keeps s (t.mbxAcked r m) := by
  unfold State.mbxAcked
  exact .ite h.setRing.deliver h

theorem Keeps.mbxReturn (h : Keeps s t) {r : Nat} {c : RingCfg} : Keeps s (t.mbxReturn r c) := by
  unfold State.mbxReturn
  extract_lets x' a out own copies consumed fin gone left lost keep u
  have hu : Keeps s u := h.setRing.deliver.drop
  exact hu.fold fun _ _ kv => .ite kv.mbxAppended kv

/-! ### Machine/CellStore -/

theorem Keeps.storeCell (h : Keeps s t) {o : Nat} {v : Word} : Keeps s (t.storeCell o v) := by
  unfold State.storeCell
  exact .ite h.pwmStore (.ite h.tripStore (.ite h.chopStore (.ite (.ite h.chopperStore h) (.ite h.stepStore (.ite h.stepOutStore
    (.ite h.convStore (.ite h.ainStore (.ite h.finStore (.ite h.foutStore (.ite h.encStore (.ite h.slotStore (.ite h.canStore h))))))))))))

theorem Keeps.cellClear (h : Keeps s t) {o : Nat} : Keeps s (t.cellClear o) := by
  unfold State.cellClear
  exact .ite (.ite h.setReg h) (.ite (.ite h.setRfld h) (.ite (.ite h.setRfld h) (.ite (.ite h.setReg h) (.ite (.ite h.setReg h) (.ite
    (.ite h.setRfld h) (.ite (.ite h.setRfld h) (.ite (.ite h.setRfld h) (.ite (.ite h.setRfld h) (.ite (.ite h.setReg h) h)))))))))

/-! ### Machine/RegFile -/

theorem Keeps.regClear (h : Keeps s t) {o : Nat} : Keeps s (t.regClear o) := by
  unfold State.regClear
  exact .ite h.setReg (.ite h.setReg (.ite (.ite h.setReg h) (.ite h.setRfld (.ite h.setReg (.ite (h.frame ⟨rfl, rfl⟩) (.ite
    (.ite h.setReg h) h.cellClear))))))

/-! ### Machine/Operands -/

theorem Keeps.fetchPoison (h : Keeps s t) {k a : Nat} : Keeps s (t.fetchPoison k a).2 := by
  unfold State.fetchPoison
  split
  · split
    next u _ _ v he =>
      have hv := h.locRead.thd he
      exact hv
  · extract_lets u
    have hu : Keeps s u := h.decode
    exact hu

theorem Keeps.programCount (h : Keeps s t) {k : Nat} : Keeps s (t.programCount k) := by
  unfold State.programCount
  split
  · exact h
  · exact .ite h (.ite h.withHost (h.withHost.respond.setCore))

theorem Keeps.slot (h : Keeps s t) {k : Nat} : Keeps s (t.slot k) := by
  unfold State.slot
  exact .ite h.fence h

theorem Keeps.readIn (h : Keeps s t) {k a n : Nat} : Keeps s (t.readIn k a n).2.2 := by
  unfold State.readIn
  refine .iteThd ?_ (.iteThd (.foldThd h fun q i hq => ?_) ?_)
  · split
    next w p u he =>
      have hu : Keeps s u := h.locRead.thd he
      refine .iteThd hu (.foldThd hu fun q i hq => ?_)
      split
      next w p v he => exact Keeps.thd hq.locRead he
  · dsimp only
    exact hq.regClear
  · split
    · exact h
    · refine .iteThd h.decode ?_
      split
      next ws p u he => exact h.slot.transact.thd he

theorem Keeps.readN (h : Keeps s t) {k fuel a n : Nat} : Keeps s (State.readN k fuel t a n).2.2 := by
  induction fuel generalizing t a n with
  | zero => exact h
  | succ m ih =>
    unfold State.readN
    exact .iteThd h (ih h.readIn)

theorem Keeps.writeIn (h : Keeps s t) {k a : Nat} {ws : List Word} : Keeps s (t.writeIn k a ws) := by
  unfold State.writeIn
  split
  · exact h.locWrites
  · split
    · exact h
    · exact .ite h.lineWrite h.slot.issue

theorem Keeps.writeN (h : Keeps s t) {k fuel a : Nat} {ws : List Word} : Keeps s (State.writeN k fuel t a ws) := by
  induction fuel generalizing t a ws with
  | zero => exact h
  | succ n ih =>
    unfold State.writeN
    exact .ite h (ih h.writeIn)

theorem Keeps.consume (h : Keeps s t) {k : Nat} {regs : Bool} {a : Word} {n : Nat} {f : List Word → State → Res}
    (hf : ∀ ws u, Keeps s u → ResKeeps s (f ws u)) : ResKeeps s (consume t k regs a n f) := by
  unfold Machine.consume
  split
  · exact .flt h
  · exact hf _ _ h.refuse
  · exact .ite (.flt h.readN) (hf _ _ h.readN)

theorem Keeps.emit (h : Keeps s t) {k : Nat} {a : Word} {ws : List Word} {f : State → Res}
    (hf : ∀ u, Keeps s u → ResKeeps s (f u)) : ResKeeps s (emit t k a ws f) := by
  unfold Machine.emit
  split
  · exact .flt h
  · exact hf _ h.refuse
  · exact hf _ h.writeN

theorem Keeps.advance (h : Keeps s t) {k : Nat} {pc : Word} : Keeps s (t.advance k pc) := by
  unfold State.advance
  exact h.setCore.programCount.watchdogBoundary

theorem Keeps.setTwin (h : Keeps s t) {e : Nat} {x : Twin} : Keeps s (t.setTwin e x) := by
  unfold State.setTwin
  exact h.frame ⟨rfl, rfl⟩

theorem Keeps.twinBlock (h : Keeps s t) {k : Nat} {ws : List Word} : Keeps s (t.twinBlock k ws) := by
  unfold State.twinBlock
  split
  · exact h.setTwin
  · exact h

theorem Keeps.twinReceive (h : Keeps s t) {k : Nat} {d : TwinDone} : Keeps s (t.twinReceive k d) := by
  unfold State.twinReceive
  extract_lets c a u _
  have hu : Keeps s u := .ite h h.writeN
  split
  · exact h.takeFault
  · exact .ite h.takeFault hu.setCore.advance

theorem Keeps.twinShare (h : Keeps s t) {e : Nat} {d : TwinDone} : Keeps s (t.twinShare e d) := by
  unfold State.twinShare
  extract_lets _ t'
  split
  · exact .ite h.setTwin.twinReceive h.setTwin
  · exact h.setTwin

theorem Keeps.twinWait (h : Keeps s t) {e k : Nat} {w : Word} : Keeps s (t.twinWait e k w) := by
  unfold State.twinWait
  extract_lets t' v'
  split
  · exact h.setTwin
  · exact .ite h.setTwin.twinReceive h

/-- The end of an instruction. -/
theorem ResKeeps.finishInstr {r : Res} (h : ResKeeps s r) {k : Nat} {w pc : Word} {twin : Option (Nat × List Word)} {before : Core} :
    Keeps s (finishInstr k w pc twin before r) := by
  cases h with
  | next h =>
    unfold Machine.finishInstr
    refine Keeps.advance ?_
    split
    · exact h.twinShare
    · exact h
  | jump h => exact h.advance
  | left h => exact h
  | flt h =>
    unfold Machine.finishInstr
    refine Keeps.takeFault ?_
    split
    · exact h.twinShare
    · exact h

theorem Keeps.runInstr (h : Keeps s t) {c : CoreId} {w : Word} {bad : Bool} {body : Nat → State → Res}
    (hb : ∀ k u, Keeps s u → ResKeeps s (body k u)) : OutKeeps s (runInstr c w bad body t) := by
  unfold Machine.runInstr
  extract_lets k pc
  refine .ite (.next h) (.ite (.next h.takeFault) ?_)
  split
  next p u he =>
    have hu := h.fetchPoison.snd he
    refine .ite (.next hu.takeFault) (.ite (.next hu.takeFault) ?_)
    split
    · exact .next (hb _ _ hu).finishInstr
    · exact .next (hb _ _ hu).finishInstr
    · exact .next hu.twinWait

/-! ### Machine/Lanes -/

theorem Keeps.setLane (h : Keeps s t) {n : Nat} {x : Lane} : Keeps s (t.setLane n x) := by
  unfold State.setLane
  exact h.frame ⟨rfl, rfl⟩

theorem Keeps.orderCell (h : Keeps s t) {o : Nat} {v : Word} {src : Src} {code : Nat} : Keeps s (t.orderCell o v src code).2 := by
  unfold State.orderCell
  split
  next u _ w he =>
    have hw := h.rankOrder.snd he
    exact .ite hw.storeCell hw

theorem Keeps.laneWrite (h : Keeps s t) {n : Nat} {u : Int} {on : Bool} {duties : List Int} : Keeps s (t.laneWrite n u on duties) := by
  unfold State.laneWrite
  extract_lets l w' i put
  split
  · exact h.orderCell
  · exact h.fold fun _ _ kv => kv.orderCell
  · exact h.orderCell
  · exact h.orderCell
  · exact h

theorem Keeps.laneClears (h : Keeps s t) {n : Nat} : Keeps s (t.laneClears n) := by
  unfold State.laneClears
  exact h.fold fun _ _ ku => .ite ku.regClear ku

theorem Keeps.groupsTaken (h : Keeps s t) {n : Nat} {c : Option Nat} : Keeps s (t.groupsTaken n c) := by
  unfold State.groupsTaken
  exact h.frame ⟨rfl, rfl⟩

theorem Keeps.samplePassed (h : Keeps s t) {n : Nat} {c : Option Nat} : Keeps s (t.samplePassed n c) := by
  unfold State.samplePassed
  extract_lets u stays
  have hu : Keeps s u := h.groupsTaken
  refine Keeps.flushConflicts ?_
  exact hu.frame ⟨rfl, rfl⟩

theorem Keeps.axisLeave (h : Keeps s t) {a : Nat} : Keeps s (t.axisLeave a) := by
  unfold State.axisLeave
  extract_lets x' _ y' l
  split
  · exact h
  · split
    · exact h.setAxis
    · exact h.setLane.setAxis

theorem Keeps.axesLeave (h : Keeps s t) {n : Nat} : Keeps s (t.axesLeave n) := by
  unfold State.axesLeave
  exact h.fold fun _ _ ku => .ite ku.axisLeave ku

theorem Keeps.laneTaps (h : Keeps s t) {n : Nat} {r : LaneRun} : Keeps s (t.laneTaps n r) := by
  unfold State.laneTaps
  exact h.fold fun _ _ ku => ku.newValue

theorem Keeps.laneEnd (h : Keeps s t) {n : Nat} : Keeps s (t.laneEnd n) := by
  unfold State.laneEnd
  extract_lets l
  split
  · exact h
  · extract_lets u
    have hu : Keeps s u := h.setLane
    exact .laneTaps (.ite hu.laneWrite hu)

theorem Keeps.lanesEnd (h : Keeps s t) : Keeps s (t.lanesEnd) := by
  unfold State.lanesEnd
  exact h.fold fun _ _ ku => .ite ku.laneEnd ku

theorem Keeps.laneOff (h : Keeps s t) {n : Nat} : Keeps s (t.laneOff n) := by
  unfold State.laneOff
  extract_lets u l v v' w
  have hu : Keeps s u := h.laneEnd
  have hv : Keeps s v := hu.setLane.samplePassed
  have hw : Keeps s w := .ite hv.laneWrite hv
  exact hw.axesLeave

theorem Keeps.lanesOff (h : Keeps s t) : Keeps s (t.lanesOff) := by
  unfold State.lanesOff
  extract_lets u
  have hu : Keeps s u := h.fold fun _ _ kv => kv.setLane.samplePassed.flushConflicts
  exact hu.fold fun _ _ k => k.axisLeave

theorem Keeps.laneEnable (h : Keeps s t) {n : Nat} {src : Src} : Keeps s (t.laneEnable n src) := by
  unfold State.laneEnable
  exact .ite h.setLane h.setLane

theorem Keeps.laneDisable (h : Keeps s t) {n : Nat} {src : Src} : Keeps s (t.laneDisable n src) := by
  unfold State.laneDisable
  exact .ite h.setLane h.setLane.axesLeave

theorem Keeps.orderLane (h : Keeps s t) {n : Nat} {on : Bool} {src : Src} {code : Nat} {cue : Option Nat} :
    Keeps s (t.orderLane n on src code cue) := by
  unfold State.orderLane
  extract_lets axes
  split
  next u _ v he =>
    have hv := h.rankOrder.snd he
    extract_lets w
    have hw : Keeps s w := .ite hv (.ite hv.laneEnable hv.laneDisable)
    exact .ite hw hw.flushConflicts

theorem Keeps.lanesTick (h : Keeps s t) : Keeps s (t.lanesTick) := by
  unfold State.lanesTick
  exact h.fold fun _ _ ku => .ite ku.setLane ku

theorem Keeps.laneRead (h : Keeps s t) {n m j : Nat} : Keeps s (t.laneRead n m j).2 := by
  unfold State.laneRead
  extract_lets v'
  split
  · exact h
  · split
    next u _ _ v he =>
      have hv := h.transact.thd he
      split
      · split
        next w _ x he =>
          have hx := hv.drawWord.snd he
          exact hx
      · exact hv

theorem Keeps.laneReads (h : Keeps s t) {n : Nat} : Keeps s (t.laneReads n).2 := by
  unfold State.laneReads
  exact .foldSnd h fun _ _ hq => .iteSnd hq.laneRead hq

theorem Keeps.laneProfile (h : Keeps s t) {n : Nat} : Keeps s (t.laneProfile n).2 := by
  unfold State.laneProfile
  extract_lets l a u _ v o
  have hu : Keeps s u := h.axisRun
  have hv : Keeps s v := .ite hu.setAxis hu
  exact .iteSnd hv h

theorem Keeps.execLaneDue (h : Keeps s t) {n : Fin 1024} : OutKeeps s (execLaneDue n t) := by
  unfold Machine.execLaneDue
  extract_lets n' l l'
  refine .next ?_
  split
  · exact h
  · extract_lets takes u l''
    have hu : Keeps s u := by
      unfold u
      split
      · refine Keeps.flushConflicts ?_
        exact h.frame ⟨rfl, rfl⟩
      · exact h
    split
    · exact .ite hu.setLane.laneOff hu.setLane
    · split
      · exact hu.setLane
      · split
        next v _ w he =>
          have hw := hu.laneReads.snd he
          split
          next x _ y he =>
            have hy := hw.setLane.laneProfile.snd he
            exact hy.setLane

theorem Keeps.lanePend (h : Keeps s t) {n : Nat} : Keeps s (t.lanePend n) := by
  unfold State.lanePend
  exact h.setLane.samplePassed

theorem Keeps.laneSetpos (h : Keeps s t) {n : Nat} : Keeps s (t.laneSetpos n) := by
  unfold State.laneSetpos
  extract_lets l a _
  split
  · exact .ite h h.setLane.setAxis
  · exact h

theorem Keeps.laneAxis (h : Keeps s t) {n : Nat} {p : Int} {dueCc : Nat} : Keeps s (t.laneAxis n p dueCc) := by
  unfold State.laneAxis
  extract_lets l a x'
  split
  · exact h
  · split
    · exact h
    · extract_lets fe u v x'' femax w _
      have hu : Keeps s u := h.setAxis
      have hv : Keeps s v := hu.axisCmd
      have hw : Keeps s w := hv.setAxis.axisEvent
      exact .ite (.ite hw.setAxis hw.beginStop) hv

theorem Keeps.laneLoad (h : Keeps s t) {n : Nat} {due : Nat × Nat × Nat} {last : Nat} : Keeps s (t.laneLoad n due last) := by
  unfold State.laneLoad
  extract_lets l late u peak
  have hu : Keeps s u := h.setLane
  split
  · exact h.setLane
  · refine hu.fold fun v _ hv => ?_
    extract_lets o w x k
    have hw : Keeps s w := hv.setRfld
    have hx : Keeps s x := hw.tallyMin
    split
    · refine Keeps.satRfld ?_
      exact hx.frame ⟨rfl, rfl⟩
    · exact hx

theorem Keeps.execLaneSample (h : Keeps s t) {n : Fin 1024} : OutKeeps s (execLaneSample n t) := by
  unfold Machine.execLaneSample
  extract_lets n' due u l i o st u' nodes
  have hu : Keeps s u := h.lanePend.laneSetpos
  refine .next ?_
  split
  · exact h
  · split
    extract_lets out pout trips sat hold v w x y _
    have hv : Keeps s v := hu.laneClears.setLane
    have hw : Keeps s w := hv.laneLoad
    have hx : Keeps s x := hw.tallyMax.laneAxis
    have hy : Keeps s y := .ite hx.crownEvent hx
    exact .ite hy.setLane hy

theorem Keeps.setSpGroup (h : Keeps s t) {g : Nat} {x : SpGroup} : Keeps s (t.setSpGroup g x) := by
  unfold State.setSpGroup
  exact h.frame ⟨rfl, rfl⟩

theorem Keeps.orderSetpoint (h : Keeps s t) {n : Nat} {v : Word} {src : Src} {code : Nat} {group : Bool} {cue : Option Nat} :
    Keeps s (t.orderSetpoint n v src code group cue) := by
  unfold State.orderSetpoint
  split
  next u _ w he =>
    have hw := h.rankOrder.snd he
    extract_lets l keep old x
    have hx : Keeps s x := .ite hw.setLane hw
    exact .ite (.ite hx.groupsTaken.flushConflicts hx.flushConflicts) (.ite hw.setLane hw)

theorem Keeps.applyGroup (h : Keeps s t) {g : Nat} {src : Src} {code : Nat} {cue : Option Nat} : Keeps s (t.applyGroup g src code cue) := by
  unfold State.applyGroup
  extract_lets x' u
  have hu : Keeps s u := h.setSpGroup
  exact .ite h (hu.fold fun _ _ kv => kv.orderSetpoint)

theorem Keeps.execLcfg (h : Keeps s t) {c : CoreId} {f : CF} : OutKeeps s (execLcfg c f t) := by
  unfold Machine.execLcfg
  refine h.runInstr fun _ u hu => ?_
  extract_lets n
  split
  · exact .flt hu
  · refine hu.consume fun _ v hv => ?_
    split
    · exact .flt hv
    · split
      · split
        · exact .next hv.refuse
        · extract_lets l w
          have hw : Keeps s w := hv.setLane
          exact .next (.ite hw.orderLane hw)
      · split
        · exact .next hv.refuse
        · extract_lets l w
          have hw : Keeps s w := hv.setLane
          exact .next (.ite hw.orderLane hw)

theorem Keeps.execLcoef (h : Keeps s t) {c : CoreId} {f : CF} : OutKeeps s (execLcoef c f t) := by
  unfold Machine.execLcoef
  exact h.runInstr fun _ _ ku => .ite (.flt ku) (.next (.ite ku.setLane ku.setLane))

theorem Keeps.execLsp (h : Keeps s t) {c : CoreId} {f : CF} : OutKeeps s (execLsp c f t) := by
  unfold Machine.execLsp
  exact h.runInstr fun _ _ ku => .ite (.flt ku) (.ite (.flt ku) (.next ku.orderSetpoint))

theorem Keeps.execLstat (h : Keeps s t) {c : CoreId} {f : CF} : OutKeeps s (execLstat c f t) := by
  unfold Machine.execLstat
  exact h.runInstr fun _ _ ku => .ite (.flt ku) (.next ku.setG)

theorem Keeps.spgrpOp (h : Keeps s t) {c : CoreId} {f : CF} {op : Nat → Nat → State → Res}
    (ho : ∀ k g u, Keeps s u → ResKeeps s (op k g u)) : OutKeeps s (spgrpOp c f op t) := by
  unfold Machine.spgrpOp
  exact h.runInstr fun _ _ hu => .ite (.flt hu) (ho _ _ _ hu)

theorem Keeps.execSpgrpLoad (h : Keeps s t) {c : CoreId} {f : CF} : OutKeeps s (execSpgrpLoad c f t) := by
  unfold Machine.execSpgrpLoad
  refine h.spgrpOp fun _ _ u hu => ?_
  extract_lets a x' done
  refine hu.consume fun _ v hv => ?_
  extract_lets n
  split
  · exact .ite (.flt hv) (.next hv.refuse.setG)
  · refine hv.consume fun _ w hw => ?_
    extract_lets ms lanes
    split
    · exact .flt hw
    · split
      · exact .flt hw
      · split
        · exact .flt hw
        · exact .ite (.next hw.refuse.setG) (.next hw.setSpGroup.setG)

theorem Keeps.execSpgrpApply (h : Keeps s t) {c : CoreId} {f : CF} : OutKeeps s (execSpgrpApply c f t) := by
  unfold Machine.execSpgrpApply
  refine h.spgrpOp fun _ _ u hu => ?_
  extract_lets v
  have hv : Keeps s v := hu.applyGroup
  exact .next hv.setG

theorem Keeps.execSpgrpClear (h : Keeps s t) {c : CoreId} {f : CF} : OutKeeps s (execSpgrpClear c f t) := by
  unfold Machine.execSpgrpClear
  exact h.spgrpOp fun _ _ _ ku => .ite (.flt ku) (.next ku.setSpGroup.setG)

/-! ### Machine/Motion -/

theorem Keeps.execSegpush (h : Keeps s t) {c : CoreId} {f : CF} : OutKeeps s (execSegpush c f t) := by
  unfold Machine.execSegpush
  refine h.runInstr fun _ u hu => ?_
  extract_lets a ad
  split
  · exact .flt hu
  · split
    · exact .flt hu
    · refine hu.consume fun _ v hv => ?_
      extract_lets w x'
      have hw : Keeps s w := hv.axisRun
      split
      · exact .flt hw
      · split
        · exact .next hw.refuse.setG
        · extract_lets x
          have hx : Keeps s x := hw.setAxis
          exact .next hx.setG

theorem Keeps.axResult (h : Keeps s t) {k : Nat} {f : CF} {code refuse : Nat} : Keeps s (axResult t k f code refuse) := by
  unfold Machine.axResult
  extract_lets u
  have hu : Keeps s u := .ite h h.refuse
  exact hu.setG

theorem Keeps.axcmd (h : Keeps s t) {c : CoreId} {f : CF} {group : Bool} {reads : Nat}
    {op : Nat → Nat → State → List Word → Nat × Nat × State} (ho : ∀ a k u ws, Keeps s u → Keeps s (op a k u ws).2.2) :
    OutKeeps s (axcmd c f group reads op t) := by
  unfold Machine.axcmd
  refine h.runInstr fun k u hu => ?_
  extract_lets a ad members body
  have hbody : ∀ ws v, Keeps s v → ResKeeps s (body ws v) := by
    intro ws v hv
    unfold body
    extract_lets w os
    have hw : Keeps s w := hv.axisRun
    refine .ite (.next hw.axResult) ?_
    split
    next code rf _ _ =>
      refine .ite (.next hw.axResult) (.ite (.next ?_) (.next ?_))
      · exact (hw.fold fun _ _ k => k.rankOrder).axResult
      · exact (ho _ _ _ _ (hw.fold fun _ _ k => k.rankOrder)).axResult
  refine .ite (.flt hu) ?_
  split
  · exact .flt hu
  · exact .ite (hbody _ _ hu) (hu.consume hbody)

theorem Keeps.execConfig (h : Keeps s t) {c : CoreId} {f : CF} : OutKeeps s (execConfig c f t) := by
  unfold Machine.execConfig
  refine h.axcmd fun _ _ u _ hu => ?_
  extract_lets x'
  exact .iteThd hu (.iteThd hu hu.setAxis)

theorem Keeps.execEnable (h : Keeps s t) {c : CoreId} {f : CF} : OutKeeps s (execEnable c f t) := by
  unfold Machine.execEnable
  refine h.axcmd fun _ _ u _ hu => ?_
  extract_lets x' v
  have hv : Keeps s v := hu.setAxis
  exact .iteThd hu (hv.fold fun _ _ kw => kw.orderLane)

theorem Keeps.execDisable (h : Keeps s t) {c : CoreId} {f : CF} : OutKeeps s (execDisable c f t) := by
  unfold Machine.execDisable
  refine h.axcmd fun _ _ u _ hu => ?_
  extract_lets x'
  exact .iteThd hu ((hu.fold fun _ _ kv => kv.orderLane).axisLeave)

theorem Keeps.execGo (h : Keeps s t) {c : CoreId} {f : CF} : OutKeeps s (execGo c f t) := by
  unfold Machine.execGo
  exact h.axcmd fun _ _ _ _ ku => .iteThd ku (.iteThd ku ku.startMotion)

theorem Keeps.stopAxis (h : Keeps s t) {a : Nat} {quick : Bool} : Keeps s (t.stopAxis a quick) := by
  unfold State.stopAxis
  extract_lets x' decel _
  split
  · exact .ite h (.ite h.setAxis h.beginStop)
  · exact h.beginStop

theorem Keeps.execStop (h : Keeps s t) {c : CoreId} {f : CF} : OutKeeps s (execStop c f t) := by
  unfold Machine.execStop
  exact h.axcmd fun _ _ _ _ ku => .iteThd ku.stopAxis ku

theorem Keeps.execQstop (h : Keeps s t) {c : CoreId} {f : CF} : OutKeeps s (execQstop c f t) := by
  unfold Machine.execQstop
  exact h.axcmd fun _ _ _ _ ku => .iteThd ku.stopAxis ku

theorem Keeps.execFlush (h : Keeps s t) {c : CoreId} {f : CF} : OutKeeps s (execFlush c f t) := by
  unfold Machine.execFlush
  refine h.axcmd fun _ _ u _ hu => ?_
  extract_lets x' _
  exact .iteThd hu.setAxis hu

theorem Keeps.execSetpos (h : Keeps s t) {c : CoreId} {f : CF} : OutKeeps s (execSetpos c f t) := by
  unfold Machine.execSetpos
  refine h.axcmd fun _ _ u _ hu => ?_
  extract_lets x' p l
  exact .iteThd hu (.iteThd hu.setAxis hu.setLane.setAxis)

theorem Keeps.execClear (h : Keeps s t) {c : CoreId} {f : CF} : OutKeeps s (execClear c f t) := by
  unfold Machine.execClear
  refine h.axcmd fun _ _ u _ hu => ?_
  extract_lets x'
  exact .iteThd hu.setAxis hu

theorem Keeps.execGstart (h : Keeps s t) {c : CoreId} {f : CF} : OutKeeps s (execGstart c f t) := by
  unfold Machine.execGstart
  refine h.axcmd fun a k u ws hu => ?_
  extract_lets v ms
  have hv : Keeps s v := hu.fold fun _ _ k => .ite k k.axisRun
  clear_value v
  refine .iteThd hv (.iteThd hv ?_)
  exact (hv.fold fun _ _ k => k.startMotion)

theorem Keeps.execGovr (h : Keeps s t) {c : CoreId} {f : CF} : OutKeeps s (execGovr c f t) := by
  unfold Machine.execGovr
  refine h.axcmd fun _ _ u _ hu => ?_
  extract_lets g v' _
  exact .iteThd hu hu.setAgroup

theorem Keeps.execGslew (h : Keeps s t) {c : CoreId} {f : CF} : OutKeeps s (execGslew c f t) := by
  unfold Machine.execGslew
  refine h.axcmd fun _ _ u _ hu => ?_
  extract_lets g _
  exact hu.setAgroup

theorem Keeps.execAxstat (h : Keeps s t) {c : CoreId} {f : CF} : OutKeeps s (execAxstat c f t) := by
  unfold Machine.execAxstat
  refine h.runInstr fun _ u hu => ?_
  extract_lets a x' v
  have hv : Keeps s v := hu.setG
  exact .next (.ite hv.setAxis hv)

/-! ### Machine/Capture -/

theorem Keeps.execSignalSamplingPeriod (h : Keeps s t) {n : Fin 16384} : OutKeeps s (execSignalSamplingPeriod n t) := by
  unfold Machine.execSignalSamplingPeriod
  exact .next (.ite h.setSignal.histEntry h)

theorem Keeps.execSegmentAgeExpiry (h : Keeps s t) {n : Fin 16384} : OutKeeps s (execSegmentAgeExpiry n t) := by
  unfold Machine.execSegmentAgeExpiry
  refine .next ?_
  split
  · exact h
  · exact .ite h.closeSeg h

theorem Keeps.ringWrite (h : Keeps s t) {g : ClosedSeg} : Keeps s (t.ringWrite g) := by
  unfold State.ringWrite
  extract_lets n wr u v wr' w x _ y
  have hu : Keeps s u := .ite h.histSkip h
  have hv : Keeps s v := hu.histRoom
  have hw : Keeps s w := hv.histPut
  have hx : Keeps s x := hw.setReg.setReg
  have hy : Keeps s y := hx.frame ⟨rfl, rfl⟩
  exact hy.deliver.produce.tallyMax

theorem Keeps.execSegmentWriteDone (h : Keeps s t) : OutKeeps s (execSegmentWriteDone t) := by
  unfold Machine.execSegmentWriteDone
  refine .next ?_
  split
  · exact h
  · split
    · split
      next parts u he =>
        have hu := h.cutSegment.snd he
        split
        · exact hu.withHist
        · exact .ite hu.withHist hu.withHist.ringWrite
    · exact h.withHist.ringWrite

theorem Keeps.execRecmark (h : Keeps s t) {c : CoreId} {f : CF} : OutKeeps s (execRecmark c f t) := by
  unfold Machine.execRecmark
  exact h.runInstr fun _ _ ku => .next (.ite ku.histMark ku.refuse)

theorem Keeps.capArm (h : Keeps s t) {u : Nat} {ws : List Word} : Keeps s (t.capArm u ws) := by
  unfold State.capArm
  exact h.setCap

theorem Keeps.capIdle (h : Keeps s t) {u : Nat} : Keeps s (t.capIdle u) := by
  unfold State.capIdle
  exact h.setCap

theorem Keeps.execCaparm (h : Keeps s t) {c : CoreId} {f : CF} : OutKeeps s (execCaparm c f t) := by
  unfold Machine.execCaparm
  refine h.runInstr fun _ u hu => ?_
  extract_lets u' a
  split
  · exact .flt hu
  · split
    · exact .flt hu
    · refine hu.consume fun _ v hv => ?_
      extract_lets x' was stop w
      have hw : Keeps s w := .ite hv.refuse (.ite hv.setCap (.ite hv.capIdle hv.capArm))
      exact .next hw.setG

theorem Keeps.capReads (h : Keeps s t) {x : Capture} : Keeps s (t.capReads x) := by
  unfold State.capReads
  exact h.fold fun _ _ ku => .ite ku.regClear ku

theorem Keeps.execCapturePace (h : Keeps s t) {u : Fin 16} : OutKeeps s (execCapturePace u t) := by
  unfold Machine.execCapturePace
  extract_lets u' x' per due t' vs sats old first sums reaches
  refine .next ?_
  split
  · exact h
  · split
    extract_lets y' full smp y'' v
    have hv : Keeps s v := h.capReads.setCap
    split
    · exact hv.captureAt
    · exact hv

theorem Keeps.broadcast (h : Keeps s t) {id time : Nat} : Keeps s (t.broadcast id time) := by
  unfold State.broadcast
  exact h.fold fun _ _ ku => .ite ku (.ite ku.setRing ku.satRfld)

theorem Keeps.capStart (h : Keeps s t) {u : Nat} {g : Trigger} : Keeps s (t.capStart u g) := by
  unfold State.capStart
  extract_lets x' paced smps late index before inc due out v w
  have hv : Keeps s v := h.setCap
  have hw : Keeps s w := .ite hv.satRfld hv
  exact .ite hw.broadcast hw

theorem Keeps.execCaptureTrigger (h : Keeps s t) {u : Fin 16} {kind : BitVec 4} {time : DWord} {frac : BitVec 16} :
    OutKeeps s (execCaptureTrigger u kind time frac t) := by
  unfold Machine.execCaptureTrigger
  extract_lets u' x' t16
  refine .next ?_
  split
  · exact h
  · extract_lets same best v _ w
    have hv : Keeps s v := h.setCap
    have hw : Keeps s w := hv.setCap.satRfld
    exact .ite hv.capStart (.ite hv.satRfld (.ite hw.produce.drop hv))

theorem Keeps.capPost (h : Keeps s t) {u t' kind b : Nat} : Keeps s (t.capPost u t' kind b) := by
  unfold State.capPost
  exact h.frame ⟨rfl, rfl⟩

theorem Keeps.capClose (h : Keeps s t) {u : Nat} {cut : Bool} : Keeps s (t.capClose u cut) := by
  unfold State.capClose
  extract_lets x ws first busy b v w y rearm
  have hv : Keeps s v := h.incReg.produce
  have hw : Keeps s w := by
    unfold w
    clear_value b
    split
    · exact hv.setCap
    · exact hv.drop.satRfld.capPost
  clear_value w rearm
  exact .ite hw.setCap hw.setCap.capIdle

theorem Keeps.execRecordClose (h : Keeps s t) {u : Fin 16} : OutKeeps s (execRecordClose u t) := by
  unfold Machine.execRecordClose
  extract_lets x'
  refine .next ?_
  split
  · exact .ite h.capClose h
  · exact h

theorem Keeps.capsCut (h : Keeps s t) : Keeps s (t.capsCut) := by
  unfold State.capsCut
  refine h.fold fun u _ hu => ?_
  extract_lets v
  have hv : Keeps s v := .ite hu.capClose hu
  exact hv.capIdle

theorem Keeps.capsDrop (h : Keeps s t) {reason : Nat} : Keeps s (t.capsDrop reason) := by
  unfold State.capsDrop
  exact h.fold fun _ _ ku => ku.drop.setCap

theorem Keeps.execRecordCopyDone (h : Keeps s t) {u : Fin 16} : OutKeeps s (execRecordCopyDone u t) := by
  unfold Machine.execRecordCopyDone
  extract_lets u' x'
  refine .next ?_
  split
  · exact h
  · extract_lets v
    have hv : Keeps s v := h.setCap
    exact .ite hv.drop.capPost hv.histPut.passBuf.deliver.capPost

theorem Keeps.execCaptureRearm (h : Keeps s t) {u : Fin 16} : OutKeeps s (execCaptureRearm u t) := by
  unfold Machine.execCaptureRearm
  extract_lets u' x'
  refine .next ?_
  split
  · exact h
  · split
    · exact .ite h.capIdle h.capArm
    · exact h.capArm

theorem Keeps.execTriggerBusPulse (h : Keeps s t) {l : Fin 8} {stamp : DWord} {frac : BitVec 16} :
    OutKeeps s (execTriggerBusPulse l stamp frac t) := by
  unfold Machine.execTriggerBusPulse
  exact .next (.ite h (h.fold fun _ _ ku => .ite ku.captureHit ku))

theorem Keeps.execBusPulseDrive (h : Keeps s t) {u : Fin 16} : OutKeeps s (execBusPulseDrive u t) := by
  unfold Machine.execBusPulseDrive
  extract_lets u' x'
  refine .next ?_
  split
  · exact h
  · split
    · exact h
    · extract_lets last t' v
      have hv : Keeps s v := h.setCap
      exact .ite hv.satRfld (hv.frame ⟨rfl, rfl⟩)

/-! ### Machine/Journal -/

theorem Keeps.jSync (h : Keeps s t) : Keeps s (t.jSync) := by
  unfold State.jSync
  exact h.setRfld.setRfld

theorem Keeps.jPut (h : Keeps s t) {k i : Nat} {ws : List Word} : Keeps s (t.jPut k i ws).2 := h.trans (jPut_keeps ..)

theorem Keeps.jBad (h : Keeps s t) {i : Nat} : ResKeeps s (jBad i t) := by
  unfold Machine.jBad
  exact .flt h

theorem Keeps.jMeets (h : Keeps s t) {i : Nat} : Keeps s (t.jMeets i).2 := by
  unfold State.jMeets
  exact h.meets

theorem Keeps.jFreeLine (h : Keeps s t) {i : Nat} {u : State} (e : t.jFreeLine = some (i, u)) : Keeps s u := by
  unfold State.jFreeLine at e
  extract_lets used at e
  split at e
  · cases e
  · split at e
    next w v hd =>
      obtain ⟨_, _, e⟩ := Option.map_eq_some_iff.1 e
      cases e
      exact h.drawWord.snd hd

theorem Keeps.jReclaim (h : Keeps s t) {h' : Word} : Keeps s (t.jReclaim h') := by
  unfold State.jReclaim
  exact (h.fold fun _ _ ku => ku.agentWrite).jSync

theorem Keeps.jRoom (h : Keeps s t) {n fuel : Nat} {u : State} (e : State.jRoom n fuel t = some u) : Keeps s u := by
  induction fuel generalizing t with
  | zero =>
    unfold State.jRoom at e
    split at e
    · exact Option.some.inj e ▸ h
    · cases e
  | succ n ih =>
    unfold State.jRoom at e
    split at e
    · exact Option.some.inj e ▸ h
    · split at e
      · cases e
      · exact ih h.jReclaim e

theorem Keeps.jFull (h : Keeps s t) {addr : Word} : ResKeeps s (t.jFull addr) := by
  unfold State.jFull
  exact .flt h.setRfld.incReg

theorem Keeps.jFinish (h : Keeps s t) {k : Nat} {begins : Bool} {d : Nat} {h' : Word} : Keeps s (t.jFinish k begins d h') := by
  unfold State.jFinish
  exact .ite h.setG h.flags

theorem Keeps.jStall (h : Keeps s t) {k : Nat} : ResKeeps s (t.jStall k) := by
  unfold State.jStall
  exact .left h.setCore

theorem Keeps.jComplete (h : Keeps s t) {k : Nat} {begins : Bool} {d : Nat} {h' : Word} {i : Nat} {w : Word} :
    ResKeeps s (t.jComplete k begins d h' i w) := by
  unfold State.jComplete
  split
  · extract_lets u
    have hu : Keeps s u := h.frame ⟨rfl, rfl⟩
    exact .left (hu.frame ⟨rfl, rfl⟩)
  · exact .next h.jFinish

theorem Keeps.execJbegin (h : Keeps s t) {c : CoreId} {f : CF} : OutKeeps s (execJbegin c f t) := by
  unfold Machine.execJbegin
  refine h.runInstr fun _ u hu => ?_
  extract_lets v
  have hv : Keeps s v := hu.fence
  split
  · exact hv.jStall
  · split
    · exact hv.jFull
    · split
      next w _ =>
        exact hv.jFull
      next w x he =>
        have hx := hv.jRoom he
        extract_lets h'
        split
        next y _ =>
          exact hx.jFull
        next y _ z he =>
          have hz := hx.jFreeLine he
          split
          next u1 _ v1 he =>
            have hv1 := hz.jPut.snd he
            split
            · exact hv1.jBad
            · extract_lets w1
              have hw1 : Keeps s w1 := hv1.setReg
              split
              next x1 _ =>
                exact hw1.jFull
              next x1 _ y1 he =>
                have hy1 := hw1.jFreeLine he
                split
                next z1 _ u2 he =>
                  have hu2 := hy1.jPut.snd he
                  exact .ite hu2.jBad hu2.jComplete

theorem Keeps.jProgress (h : Keeps s t) {k i fd : Nat} {h' v writes : Word} : ResKeeps s (t.jProgress k i fd h' v writes) := by
  unfold State.jProgress
  split
  next u _ w he =>
    have hw := h.jPut.snd he
    exact .ite hw.jBad (.next (hw.frame ⟨rfl, rfl⟩))

theorem Keeps.execJprog (h : Keeps s t) {c : CoreId} {f : RF} : OutKeeps s (execJprog c f t) := by
  unfold Machine.execJprog
  refine h.runInstr fun _ u hu => ?_
  extract_lets h' fd v'
  split
  · exact hu.jStall
  · split
    · exact .next hu.refuse
    · split
      · split
        next v _ w he =>
          have hw := hu.jMeets.snd he
          exact .ite hw.jBad hw.jProgress
      · split
        next v _ =>
          exact hu.jFull
        next v w he =>
          have hw := hu.jRoom he
          split
          next x _ =>
            exact hw.jFull
          next x _ y he =>
            have hy := hw.jFreeLine he
            exact hy.jProgress

theorem Keeps.execJend (h : Keeps s t) {c : CoreId} {f : RF} : OutKeeps s (execJend c f t) := by
  unfold Machine.execJend
  refine h.runInstr fun _ u hu => ?_
  extract_lets v h'
  have hv : Keeps s v := hu.fence
  split
  · exact hv.jStall
  · split
    · split
      next w _ x he =>
        have hx := hv.jMeets.snd he
        split
        · exact hx.jBad
        · split
          next y _ z he =>
            have hz := hx.jPut.snd he
            exact .ite hz.jBad hz.jComplete
    · exact .next hv.refuse.flags

theorem Keeps.jRead (h : Keeps s t) {hs : List Word} : Keeps s (t.jRead hs).2 := by
  unfold State.jRead
  extract_lets ls
  exact h.fold fun _ _ k => k.decode

theorem Keeps.execJquery (h : Keeps s t) {c : CoreId} {f : CF} : OutKeeps s (execJquery c f t) := by
  unfold Machine.execJquery
  refine h.runInstr fun _ u hu => ?_
  extract_lets a n hs
  split
  · exact .flt hu
  · exact .next hu.refuse.setG
  · split
    next v _ w he =>
      have hw := hu.jRead.snd he
      exact .ite (.flt hw) (.next hw.twinBlock.writeN.setG)

theorem Keeps.jRelease (h : Keeps s t) {m : MirrorWait} : Keeps s (t.jRelease m) := by
  unfold State.jRelease
  extract_lets u v
  have hu : Keeps s u := h.jFinish
  have hv : Keeps s v := by
    unfold v
    split
    · exact hu.twinShare
    · exact hu
  exact hv.advance

theorem Keeps.execMirrorAck (h : Keeps s t) : OutKeeps s (execMirrorAck t) := by
  unfold Machine.execMirrorAck
  refine .next ?_
  split
  · exact h
  · refine Keeps.jRelease ?_
    exact h.frame ⟨rfl, rfl⟩

theorem Keeps.jUnmirror (h : Keeps s t) : Keeps s t.jUnmirror := by
  unfold State.jUnmirror
  exact .fold h.withMirror.setRfld fun _ _ k => k.jRelease

theorem Keeps.jClear (h : Keeps s t) {boot : Bool} : Keeps s (t.jClear boot) := by
  unfold State.jClear
  extract_lets u
  have hu : Keeps s u := (h.fold fun _ _ kv => kv.agentWrite).jSync
  exact .ite hu.setReg.setRfld hu

theorem Keeps.jLifeUp (h : Keeps s t) : Keeps s (t.jLifeUp) := by
  unfold State.jLifeUp
  exact h.setRfld

/-! ### Machine/TimeCue -/

theorem Keeps.execTimerd (h : Keeps s t) {c : CoreId} {f : RF} : OutKeeps s (execTimerd c f t) := by
  unfold Machine.execTimerd
  exact h.runInstr fun _ _ ku => .next ku.setGG

theorem Keeps.execCrd (h : Keeps s t) {c : CoreId} {f : CF} : OutKeeps s (execCrd c f t) := by
  unfold Machine.execCrd
  exact h.runInstr fun _ _ ku => .ite (.next ku.setGG) (.next ku.setG)

theorem Keeps.execCue (h : Keeps s t) {c : CoreId} {f : CF} : OutKeeps s (execCue c f t) := by
  unfold Machine.execCue
  refine h.runInstr fun _ u hu => ?_
  extract_lets a n x'
  split
  · exact .flt hu
  · split
    · exact .flt hu
    · refine hu.consume fun _ v hv => ?_
      extract_lets w before x
      have hw : Keeps s w := hv.fireIfDue
      have hx : Keeps s x := hw.cancelCue
      exact .ite (.next hw.armCue.setG.flags) (.next hx.refuse.setG.flags)

theorem Keeps.cueRecordTo (h : Keeps s t) {k d n : Nat} {a : Word} : ResKeeps s (cueRecordTo t k d n a) := by
  unfold Machine.cueRecordTo
  exact h.twinBlock.emit fun _ ku => .next ku.setG

theorem Keeps.execCuexRead (h : Keeps s t) {c : CoreId} {f : CF} : OutKeeps s (execCuexRead c f t) := by
  unfold Machine.execCuexRead
  exact h.runInstr fun _ _ ku => ku.cueRecordTo

theorem Keeps.execCuexCancel (h : Keeps s t) {c : CoreId} {f : CF} : OutKeeps s (execCuexCancel c f t) := by
  unfold Machine.execCuexCancel
  refine h.runInstr fun _ u hu => ?_
  extract_lets a n x' v w
  have hv : Keeps s v := hu.fireIfDue
  have hw : Keeps s w := .ite hv hv.cancelCue
  exact .ite (.flt hu) (.ite (.flt hu) hw.cueRecordTo)

/-! ### Machine/RegWrite -/

theorem Keeps.coordDescribe (h : Keeps s t) {c : Nat} {w0 w1 : Word} : Keeps s (t.coordDescribe c w0 w1) := by
  unfold State.coordDescribe
  extract_lets old u x' x''
  have hu : Keeps s u := h.setReg.setReg
  exact hu.setCoord

theorem Keeps.coordWrite (h : Keeps s t) {c w : Nat} {v : Word} : Keeps s (t.coordWrite c w v).1 := by
  unfold State.coordWrite
  extract_lets src x' d
  split
  · exact h
  · split
    · split
      · exact h
      · exact h.coordDescribe
    · split
      · exact h
      · exact h.coordDescribe
    · exact .ite h.setReg h
    · exact h.setReg
    · exact .ite h.setCoord h
    · split
      · exact h
      · extract_lets d'
        exact h.setCoord

theorem Keeps.confirmHoods (h : Keeps s t) : Keeps s (t.confirmHoods) := by
  unfold State.confirmHoods
  split
  · extract_lets u _
    have hu : Keeps s u := h.setRfld.setRfld
    exact hu.frame ⟨rfl, rfl⟩
  · exact h

theorem Keeps.w1c (h : Keeps s t) {o : Nat} {mask v : Word} : Keeps s (t.w1c o mask v) := by
  unfold State.w1c
  exact h.setReg

theorem Keeps.takeTrace (h : Keeps s t) {q : Nat} {v : Word} : Keeps s (t.takeTrace q v) := by
  unfold State.takeTrace
  exact .ite h.setReg.deliver h

theorem Keeps.histCtrl (h : Keeps s t) {v : Word} : Keeps s (t.histCtrl v) := by
  unfold State.histCtrl
  extract_lets len u
  have hu : Keeps s u := .ite h.setRfld h
  exact hu.setRfld

theorem Keeps.crownWrite (h : Keeps s t) {k o : Nat} {v : Word} : Keeps s (t.crownWrite k o v).1 := by
  unfold State.crownWrite
  extract_lets m lv
  refine .iteFst (.iteFst h (.iteFst h h.setRfld)) (.iteFst (.iteFst h h.setReg) (.iteFst h.takeTrace (.iteFst h.histTake ?_)))
  refine .iteFst h.histCtrl (.iteFst h.w1c (.iteFst (.iteFst h h.setReg) (.iteFst (.ite h.setReg h) ?_)))
  refine .iteFst (.ite (h.frame ⟨rfl, rfl⟩) h) (.iteFst h.w1c (.iteFst h.setReg (.iteFst (.ite h.confirmHoods h) ?_)))
  refine .iteFst (.iteFst h (.iteFst h h.calBegin)) (.iteFst (.iteFst h h.setReg) (.iteFst h.w1c (.iteFst h.w1c ?_)))
  exact .iteFst h.w1c (.iteFst h.setReg (.iteFst h.setReg h))

theorem Keeps.regWrite (h : Keeps s t) {k o : Nat} {v : Word} : Keeps s (t.regWrite k o v).1 := by
  unfold State.regWrite
  split
  · exact h.coordWrite
  · split
    · split
      · exact h
      · split
        next u _ w he =>
          have hw := h.orderCell.snd he
          exact hw
    · split
      · exact h
      · exact h.crownWrite

theorem Keeps.doWrite (h : Keeps s t) {k o : Nat} {v : Word} : Keeps s (t.doWrite k o v) := by
  unfold State.doWrite
  split
  next u w _ he =>
    have hw := h.regWrite.fst he
    exact .ite hw hw.refuse

theorem Keeps.execIor (h : Keeps s t) {c : CoreId} {f : CF} : OutKeeps s (execIor c f t) := by
  unfold Machine.execIor
  exact h.runInstr fun _ _ ku => .ite (.next ku.regClear.setG) (.ite (.flt ku) (.next ku.refuse.setG))

theorem Keeps.execIow (h : Keeps s t) {c : CoreId} {f : CF} : OutKeeps s (execIow c f t) := by
  unfold Machine.execIow
  refine h.runInstr fun _ u hu => ?_
  extract_lets o
  split
  · exact .flt hu
  · exact .next hu.refuse
  · exact .next hu.doWrite

theorem Keeps.writeReg (h : Keeps s t) {c : CoreId} {o : Nat} {v : Word} : OutKeeps s (writeReg c o v t) := by
  unfold Machine.writeReg
  extract_lets k
  refine .next ?_
  split
  · split
    next u _ w he =>
      have hw := h.drawWord.snd he
      exact hw.takeFault
  · exact h.refuse
  · exact h.doWrite

theorem Keeps.execSysBlevelWrite (h : Keeps s t) {c : CoreId} {v : Word} : OutKeeps s (execSysBlevelWrite c v t) := by
  unfold Machine.execSysBlevelWrite
  exact h.writeReg

theorem Keeps.execTimeIncWrite (h : Keeps s t) {c : CoreId} {v : Word} : OutKeeps s (execTimeIncWrite c v t) := by
  unfold Machine.execTimeIncWrite
  exact h.writeReg

theorem Keeps.execTrrdWrite (h : Keeps s t) {c : CoreId} {q : Fin 4} {v : Word} : OutKeeps s (execTrrdWrite c q v t) := by
  unfold Machine.execTrrdWrite
  exact h.writeReg

theorem Keeps.execHistTakeWrite (h : Keeps s t) {c : CoreId} {v : Word} : OutKeeps s (execHistTakeWrite c v t) := by
  unfold Machine.execHistTakeWrite
  exact h.writeReg

theorem Keeps.execHistCtrlWrite (h : Keeps s t) {c : CoreId} {v : Word} : OutKeeps s (execHistCtrlWrite c v t) := by
  unfold Machine.execHistCtrlWrite
  exact h.writeReg

theorem Keeps.execRingClaimWrite (h : Keeps s t) {c : CoreId} {v : Word} : OutKeeps s (execRingClaimWrite c v t) := by
  unfold Machine.execRingClaimWrite
  exact h.writeReg

theorem Keeps.execBrimRstreqWrite (h : Keeps s t) {c : CoreId} {v : Word} : OutKeeps s (execBrimRstreqWrite c v t) := by
  unfold Machine.execBrimRstreqWrite
  exact h.writeReg

theorem Keeps.execEvrSnapGo (h : Keeps s t) {c : CoreId} {v : Word} : OutKeeps s (execEvrSnapGo c v t) := by
  unfold Machine.execEvrSnapGo
  exact h.writeReg

theorem Keeps.execUpdConfirmGo (h : Keeps s t) {c : CoreId} {v : Word} : OutKeeps s (execUpdConfirmGo c v t) := by
  unfold Machine.execUpdConfirmGo
  exact h.writeReg

theorem Keeps.execUpdWinWrite (h : Keeps s t) {c : CoreId} {v : Word} : OutKeeps s (execUpdWinWrite c v t) := by
  unfold Machine.execUpdWinWrite
  exact h.writeReg

theorem Keeps.execAdcCalGo (h : Keeps s t) {c : CoreId} {v : Word} : OutKeeps s (execAdcCalGo c v t) := by
  unfold Machine.execAdcCalGo
  exact h.writeReg

theorem Keeps.execJrnlRtaskWrite (h : Keeps s t) {c : CoreId} {v : Word} : OutKeeps s (execJrnlRtaskWrite c v t) := by
  unfold Machine.execJrnlRtaskWrite
  exact h.writeReg

theorem Keeps.execFifordWrite (h : Keeps s t) {c : CoreId} {p : Fin 4} {v : Word} : OutKeeps s (execFifordWrite c p v t) := by
  unfold Machine.execFifordWrite
  exact h.writeReg

theorem Keeps.execReq (h : Keeps s t) {c : CoreId} {p : Fin 4} {m : Fin 64} {v : Word} : OutKeeps s (execReq c p m v t) := by
  unfold Machine.execReq
  exact h.writeReg

theorem Keeps.execCancel (h : Keeps s t) {c : CoreId} {p : Fin 4} {m : Fin 64} {v : Word} : OutKeeps s (execCancel c p m v t) := by
  unfold Machine.execCancel
  exact h.writeReg

theorem Keeps.execTsenWrite (h : Keeps s t) {c : CoreId} {p : Fin 4} {v : Word} : OutKeeps s (execTsenWrite c p v t) := by
  unfold Machine.execTsenWrite
  exact h.writeReg

theorem Keeps.execSetpwm (h : Keeps s t) {c : CoreId} {p : Fin 24} {v : Word} : OutKeeps s (execSetpwm c p v t) := by
  unfold Machine.execSetpwm
  exact h.writeReg

theorem Keeps.execPwmEnWrite (h : Keeps s t) {c : CoreId} {p : Fin 24} {v : Word} : OutKeeps s (execPwmEnWrite c p v t) := by
  unfold Machine.execPwmEnWrite
  exact h.writeReg

theorem Keeps.execPwmShadowWrite (h : Keeps s t) {c : CoreId} {p : Fin 24} {k : Fin 16} {v : Word} :
    OutKeeps s (execPwmShadowWrite c p k v t) := by
  unfold Machine.execPwmShadowWrite
  exact h.writeReg

theorem Keeps.execStepPosWrite (h : Keeps s t) {c : CoreId} {g : Fin 16} {v : Word} : OutKeeps s (execStepPosWrite c g v t) := by
  unfold Machine.execStepPosWrite
  exact h.writeReg

theorem Keeps.execStepRunWrite (h : Keeps s t) {c : CoreId} {g : Fin 16} {v : Word} : OutKeeps s (execStepRunWrite c g v t) := by
  unfold Machine.execStepRunWrite
  exact h.writeReg

theorem Keeps.execAdcInputWrite (h : Keeps s t) {c : CoreId} {n : Fin 64} {v : Word} : OutKeeps s (execAdcInputWrite c n v t) := by
  unfold Machine.execAdcInputWrite
  exact h.writeReg

theorem Keeps.execAdcConverterWrite (h : Keeps s t) {c : CoreId} {k : Fin 16} {v : Word} : OutKeeps s (execAdcConverterWrite c k v t) := by
  unfold Machine.execAdcConverterWrite
  exact h.writeReg

theorem Keeps.execCoordDescriptorWrite (h : Keeps s t) {c : CoreId} {k : Fin 32} {w : Fin 2} {v : Word} :
    OutKeeps s (execCoordDescriptorWrite c k w v t) := by
  unfold Machine.execCoordDescriptorWrite
  exact h.writeReg

theorem Keeps.execVirtValueWrite (h : Keeps s t) {c : CoreId} {k : Fin 32} {hi : Bool} {v : Word} :
    OutKeeps s (execVirtValueWrite c k hi v t) := by
  unfold Machine.execVirtValueWrite
  exact h.writeReg

theorem Keeps.execEncoderWrite (h : Keeps s t) {c : CoreId} {e : Fin 16} {w : Fin 2} {v : Word} :
    OutKeeps s (execEncoderWrite c e w v t) := by
  unfold Machine.execEncoderWrite
  exact h.writeReg

theorem Keeps.execFieldInputWrite (h : Keeps s t) {c : CoreId} {i : Fin 32} {v : Word} : OutKeeps s (execFieldInputWrite c i v t) := by
  unfold Machine.execFieldInputWrite
  exact h.writeReg

theorem Keeps.execFieldOutputWrite (h : Keeps s t) {c : CoreId} {o : Fin 16} {v : Word} : OutKeeps s (execFieldOutputWrite c o v t) := by
  unfold Machine.execFieldOutputWrite
  exact h.writeReg

theorem Keeps.execBandSlotCellWrite (h : Keeps s t) {c : CoreId} {r : Fin 2} {i : Fin 1024} {v : Word} :
    OutKeeps s (execBandSlotCellWrite c r i v t) := by
  unfold Machine.execBandSlotCellWrite
  exact h.writeReg

theorem Keeps.execChopperPhaseWrite (h : Keeps s t) {c : CoreId} {f : Fin 16} {v : Word} : OutKeeps s (execChopperPhaseWrite c f v t) := by
  unfold Machine.execChopperPhaseWrite
  exact h.writeReg

theorem Keeps.execTrippedClear (h : Keeps s t) {c : CoreId} {i : Fin 8} {v : Word} : OutKeeps s (execTrippedClear c i v t) := by
  unfold Machine.execTrippedClear
  exact h.writeReg

theorem Keeps.execTofaultClear (h : Keeps s t) {c : CoreId} {f : Fin 16} {v : Word} : OutKeeps s (execTofaultClear c f v t) := by
  unfold Machine.execTofaultClear
  exact h.writeReg

theorem Keeps.execRegisterWrite (h : Keeps s t) {c : CoreId} {off : BitVec 20} {v : Word} : OutKeeps s (execRegisterWrite c off v t) := by
  unfold Machine.execRegisterWrite
  exact h.writeReg

theorem Keeps.readReg (h : Keeps s t) {c : CoreId} {d : BitVec 4} {o : Nat} : OutKeeps s (readReg c d o t) := by
  unfold Machine.readReg
  exact .next h.regClear.setG

theorem Keeps.execCorrmaxRead (h : Keeps s t) {c : CoreId} {d : BitVec 4} {k : Fin 32} : OutKeeps s (execCorrmaxRead c d k t) := by
  unfold Machine.execCorrmaxRead
  exact h.readReg

theorem Keeps.execLawLoadRead (h : Keeps s t) {c : CoreId} {d : BitVec 4} {u : Fin 8} : OutKeeps s (execLawLoadRead c d u t) := by
  unfold Machine.execLawLoadRead
  exact h.readReg

theorem Keeps.execRingCounterRead (h : Keeps s t) {c : CoreId} {d : BitVec 4} {r : Fin 2} {badblk : Bool} :
    OutKeeps s (execRingCounterRead c d r badblk t) := by
  unfold Machine.execRingCounterRead
  exact h.readReg

theorem Keeps.execRingFramesRead (h : Keeps s t) {c : CoreId} {d : BitVec 4} {r : Fin 2} : OutKeeps s (execRingFramesRead c d r t) := by
  unfold Machine.execRingFramesRead
  exact h.readReg

theorem Keeps.execPairStretchRead (h : Keeps s t) {c : CoreId} {d : BitVec 4} : OutKeeps s (execPairStretchRead c d t) := by
  unfold Machine.execPairStretchRead
  exact h.readReg

theorem Keeps.execAdcStatsRead (h : Keeps s t) {c : CoreId} {d : BitVec 4} {k : Fin 16} : OutKeeps s (execAdcStatsRead c d k t) := by
  unfold Machine.execAdcStatsRead
  exact h.readReg

theorem Keeps.execPwmCountersRead (h : Keeps s t) {c : CoreId} {d : BitVec 4} {p : Fin 24} : OutKeeps s (execPwmCountersRead c d p t) := by
  unfold Machine.execPwmCountersRead
  exact h.readReg

theorem Keeps.execStepCountersRead (h : Keeps s t) {c : CoreId} {d : BitVec 4} {g : Fin 16} :
    OutKeeps s (execStepCountersRead c d g t) := by
  unfold Machine.execStepCountersRead
  exact h.readReg

theorem Keeps.execFieldCountersRead (h : Keeps s t) {c : CoreId} {d : BitVec 4} {k : FieldCounter} :
    OutKeeps s (execFieldCountersRead c d k t) := by
  unfold Machine.execFieldCountersRead
  exact h.readReg

theorem Keeps.execEncoderQerrRead (h : Keeps s t) {c : CoreId} {d : BitVec 4} {e : Fin 16} : OutKeeps s (execEncoderQerrRead c d e t) := by
  unfold Machine.execEncoderQerrRead
  exact h.readReg

theorem Keeps.execCanCountersRead (h : Keeps s t) {c : CoreId} {d : BitVec 4} {p : Fin 4} {k : Fin 3} :
    OutKeeps s (execCanCountersRead c d p k t) := by
  unfold Machine.execCanCountersRead
  exact h.readReg

theorem Keeps.execCaptureCountersRead (h : Keeps s t) {c : CoreId} {d : BitVec 4} {u : Fin 16} {nobuf : Bool} :
    OutKeeps s (execCaptureCountersRead c d u nobuf t) := by
  unfold Machine.execCaptureCountersRead
  exact h.readReg

/-! ### Machine/Images -/

theorem Keeps.imgEvent (h : Keeps s t) {g : Img} {i : Word} : Keeps s (t.imgEvent g i) := by
  unfold State.imgEvent
  exact h.crownEvent

theorem Keeps.points (h : Keeps s t) {g : Img} : Keeps s (t.points g).2 := by
  unfold State.points
  extract_lets u
  have hu : Keeps s u := h.decodes.forcesMet
  exact .foldSnd hu fun _ _ hq => .iteSnd hq.imgEvent hq

theorem Keeps.imgCheck (h : Keeps s t) {k i : Nat} {output : Bool} : Keeps s (t.imgCheck k i output).2 := by
  unfold State.imgCheck
  split
  · exact h
  · split
    · exact h
    · extract_lets u g d inWin ok
      have hu : Keeps s u := h.decodes
      exact .iteSnd hu.imgEvent hu

theorem Keeps.imgLatch (h : Keeps s t) {k d : Nat} {g : Img} : Keeps s (t.imgLatch k d g) := by
  unfold State.imgLatch
  split
  next u _ v he =>
    have hv := h.points.snd he
    extract_lets c w cyc
    have hw : Keeps s w := hv.fold fun _ _ kx => kx.regClear
    split
    extract_lets hdr ws x sb
    have hx : Keeps s x := hw.agentWrite
    exact hx.agentWrite.setG

theorem Keeps.imgIn (h : Keeps s t) {k i d : Nat} : ResKeeps s (imgIn k i d t) := by
  unfold Machine.imgIn
  split
  next u v he =>
    have hv := h.imgCheck.snd he
    exact .flt hv
  next u _ v he =>
    have hv := h.imgCheck.snd he
    exact .next hv.imgLatch

theorem Keeps.imgTwins (h : Keeps s t) {w : Word} {i d : Nat} {act : Nat → Nat → Nat → State → Res} {k : Nat}
    (ha : ∀ k i d u, Keeps s u → ResKeeps s (act k i d u)) : ResKeeps s (imgTwins w i d act k t) := by
  unfold Machine.imgTwins
  split
  next => exact ha _ _ _ _ h
  next e sec _ =>
    extract_lets x u
    split
    next sec2 k2 w2 b _ =>
      extract_lets v
      have hr := ha k2 i d u h.setTwin
      have hv : Keeps s v := by
        unfold v
        generalize act k2 i d u = r at hr ⊢
        cases hr with
        | next hr => exact hr.advance
        | flt hr => exact hr.takeFault
        | jump hr => exact hr
        | left hr => exact hr
      exact .ite (.left h) (ha _ _ _ _ hv)
    next => exact .left h.setTwin

theorem Keeps.execImgin (h : Keeps s t) {c : CoreId} {f : CF} : OutKeeps s (execImgin c f t) := by
  unfold Machine.execImgin
  exact h.runInstr fun _ _ ku => ku.imgTwins fun _ _ _ _ ku => ku.imgIn

theorem Keeps.imgOrder (h : Keeps s t) {k : Nat} {p : Pt} {v : Nat} : Keeps s (t.imgOrder k p v) := by
  unfold State.imgOrder
  extract_lets src o x'
  split
  · exact h.orderCell
  · split
    · split
      next u _ w he =>
        have hw := h.rankOrder.snd he
        exact .ite hw hw.setRing
    · split
      next u _ w he =>
        have hw := h.rankOrder.snd he
        exact .ite hw hw.setRing
    · exact h

theorem Keeps.reportWrites (h : Keeps s t) {vals : List (Pt × Nat)} : Keeps s (t.reportWrites vals) := by
  unfold State.reportWrites
  extract_lets ws u left _ v
  have hu : Keeps s u := by
    unfold u
    refine h.fold fun w _ hw => ?_
    split
    · exact hw
    · exact hw.agentWord
  have hv : Keeps s v := hu.frame ⟨rfl, rfl⟩
  exact .ite h (.ite hv.passBuf hv)

theorem Keeps.imgPublish (h : Keeps s t) {k d : Nat} {g : Img} {orders : Bool} : Keeps s (t.imgPublish k d g orders) := by
  unfold State.imgPublish
  split
  next u _ v he =>
    have hv := h.points.snd he
    extract_lets w bad good vals cyc hdr x
    have hw : Keeps s w := hv.fold fun _ _ k => k.decode
    have hx : Keeps s x := .ite ((hw.fold fun _ _ ky => ky.imgOrder).reportWrites) hw
    exact hx.agentWrite.setG

theorem Keeps.imgOut (h : Keeps s t) {k i d : Nat} : ResKeeps s (imgOut k i d t) := by
  unfold Machine.imgOut
  split
  next u v he =>
    have hv := h.imgCheck.snd he
    exact .flt hv
  next u _ v he =>
    have hv := h.imgCheck.snd he
    exact .next hv.imgPublish

theorem Keeps.execImgout (h : Keeps s t) {c : CoreId} {f : CF} : OutKeeps s (execImgout c f t) := by
  unfold Machine.execImgout
  exact h.runInstr fun _ _ ku => ku.imgTwins fun _ _ _ _ ku => ku.imgOut

/-! ### Machine/Scheduler -/

theorem Keeps.beginTick (h : Keeps s t) : Keeps s (t.beginTick) := by
  unfold State.beginTick
  exact .ite (h.frame ⟨rfl, rfl⟩) h

/-- The fault of a task whose watchdog ran out, with its slot poisoned where the context was. -/
theorem Keeps.wdogFault (h : Keeps s t) {x : Task} {n : Nat} : Keeps s
    (let (ws, p, v) := t.agentRead (x.ctx + 16) 8
    let u := v.faultTask (if n < 1024 then x.tile else 65) n 7 (ws.getD 2 0) 0 0 (ws.getD 3 0) (ws.getD 5 0) false 0x0E
    if p then { u with mem := (List.range (lineSpan x.slot 8)).foldl (fun m i =>
      m.putMeta (x.slot / 8 + i) { u.lineMeta (x.slot / 8 + i) with poison := true }) u.mem }
    else u) := by
  split
  next ws p v he =>
    extract_lets u
    have hu : Keeps s u := (h.agentRead.thd he).faultTask
    exact .ite ⟨hu.pending, fun w => foldl_putMeta_wf _ _ _ _ (hu.form w)⟩ hu

theorem Keeps.wdogExpire (h : Keeps s t) {n : Nat} : Keeps s (t.wdogExpire n) := by
  unfold State.wdogExpire
  extract_lets x
  split
  · exact h.setTask
  · exact h.wdogFault
  · exact h.wdogFault
  · exact h.wdogFault
  · exact h

theorem Keeps.trapResume (h : Keeps s t) {n : Nat} : Keeps s (t.trapResume n) := by
  unfold State.trapResume
  exact h.setTask.readyAtTick

theorem Keeps.readyByPost (h : Keeps s t) {n : Nat} : Keeps s (t.readyByPost n) := by
  unfold State.readyByPost
  extract_lets t'
  split
  · split
    next u _ v he =>
      have hv := h.takePost.snd he
      exact hv.setTask.readyAtTick
    next u v he =>
      have hv := h.takePost.snd he
      exact hv
  · exact h.setTask.readyAtTick

theorem Keeps.readyByDeadline (h : Keeps s t) {n : Nat} : Keeps s (t.readyByDeadline n) := by
  unfold State.readyByDeadline
  exact h.setTask.readyAtTick

theorem Keeps.applyChange (h : Keeps s t) {n : Nat} {a : TickChange} : Keeps s (t.applyChange n a) := by
  unfold State.applyChange
  split
  · exact h
  · exact h.wdogExpire
  · exact h.readyByPost
  · exact h.readyByDeadline
  · exact h.trapResume
  · exact h.readyAtTick

theorem Keeps.postAll (h : Keeps s t) {ps : List (Nat × Word)} : Keeps s (t.postAll ps) := by
  unfold State.postAll
  exact h.fold fun _ _ ku => ku.post

theorem Keeps.schedTick (h : Keeps s t) : Keeps s (t.schedTick) := by
  unfold State.schedTick
  split
  · exact h
  · extract_lets u v hwPosts w _ x changes cc clear y z _' u1
    have hu : Keeps s u := h.beginTick
    have hv : Keeps s v := .ite hu hu.decodes
    have hw : Keeps s w := hv.postAll
    have hx : Keeps s x := .ite (hw.frame ⟨rfl, rfl⟩) hw
    have hy : Keeps s y := hx.frame ⟨rfl, rfl⟩
    have hz : Keeps s z := hy.fold fun _ _ kv1 => kv1.applyChange
    have hu1 : Keeps s u1 := hz.frame ⟨rfl, rfl⟩
    exact .ite hu hu1.groupsSlew

theorem Keeps.tickOne (h : Keeps s t) {n : Nat} {p : TickChange → Bool} : Keeps s (t.tickOne n p) := by
  unfold State.tickOne
  split
  · exact h
  · extract_lets u c
    have hu : Keeps s u := h.beginTick
    exact .ite hu.applyChange hu

theorem Keeps.execWaitDeadline (h : Keeps s t) {k : TaskRef} : OutKeeps s (execWaitDeadline k t) := by
  unfold Machine.execWaitDeadline
  exact .next (.ite h.tickOne h)

theorem Keeps.execEvwaitTimeout (h : Keeps s t) {k : TaskRef} : OutKeeps s (execEvwaitTimeout k t) := by
  unfold Machine.execEvwaitTimeout
  exact .next (.ite h.tickOne h)

theorem Keeps.execCycminExpiry (h : Keeps s t) {k : TaskRef} : OutKeeps s (execCycminExpiry k t) := by
  unfold Machine.execCycminExpiry
  exact .next (.ite h.tickOne h)

theorem Keeps.execScanWatchdogExpiry (h : Keeps s t) {k : TaskRef} : OutKeeps s (execScanWatchdogExpiry k t) := by
  unfold Machine.execScanWatchdogExpiry
  exact .next h.tickOne

theorem Keeps.grantChecked (h : Keeps s t) {k n : Nat} : Keeps s (t.grantChecked k n) := by
  unfold State.grantChecked
  extract_lets t' a m u v sp _
  have hu : Keeps s u := h.fold fun _ _ kw => kw.decode
  have hv : Keeps s v := hu.grant
  split
  · exact h.grant
  · split
    · exact hv.takeFault
    · exact hv.frame ⟨rfl, rfl⟩

theorem Keeps.dispatch (h : Keeps s t) {q : Nat} : Keeps s (t.dispatch q) := by
  unfold State.dispatch
  extract_lets ks
  refine h.fold fun u _ hu => ?_
  split
  · exact hu.grantChecked
  · exact hu

theorem Keeps.execDispatchRound (h : Keeps s t) {q : Fin 5} : OutKeeps s (execDispatchRound q t) := by
  unfold Machine.execDispatchRound
  exact .next (.ite h h.dispatch)

/-! ### Machine/TimeLoad -/

theorem Keeps.unitsMoved (h : Keeps s t) {d : Int} : Keeps s (t.unitsMoved d) := by
  unfold State.unitsMoved
  exact h.frame ⟨rfl, rfl⟩

theorem Keeps.timeLoad (h : Keeps s t) {t' : Nat} : Keeps s (t.timeLoad t') := by
  unfold State.timeLoad
  split
  · exact h
  · extract_lets d u v w x _ y dn z u1 _' v1
    have hu : Keeps s u := h.cancelCues
    have hv : Keeps s v := hu.closeAll
    have hw : Keeps s w := hv.frame ⟨rfl, rfl⟩
    have hx : Keeps s x := hw.unitsMoved
    have hy : Keeps s y := hx.frame ⟨rfl, rfl⟩
    have hz : Keeps s z := hy.setReg.setReg
    have hu1 : Keeps s u1 := hz.setRfld
    have hv1 : Keeps s v1 := hu1.frame ⟨rfl, rfl⟩
    exact hv1.schedTick

/-! ### Machine/Force -/

theorem Keeps.result (h : Keeps s t) {k d res : Nat} : Keeps s (t.result k d res) := by
  unfold State.result
  exact .setG (.ite h h.refuse)

theorem Keeps.privileged (h : Keeps s t) {c : CoreId} {w : Word} {bad comm : Bool} {body : Nat → State → Res}
    (hb : ∀ k u, Keeps s u → ResKeeps s (body k u)) : OutKeeps s (privileged c w bad comm body t) := by
  unfold Machine.privileged
  exact h.runInstr fun _ _ hu => .ite (.flt hu) (hb _ _ hu)

theorem Keeps.forceSync (h : Keeps s t) : Keeps s (t.forceSync) := by
  unfold State.forceSync
  extract_lets w' u mark v w
  have hu : Keeps s u := h.closeAll
  have hv : Keeps s v := .ite (hu.frame ⟨rfl, rfl⟩) hu
  have hw : Keeps s w := .ite h (hv.frame ⟨rfl, rfl⟩)
  exact hw.setReg

theorem Keeps.forceRank (h : Keeps s t) {k point : Nat} {a : Option Nat} {value : Int} {gd : Option Nat} :
    Keeps s (t.forceRank k point a value gd).2 := by
  unfold State.forceRank
  extract_lets r
  exact h.rankOrder

theorem Keeps.forceSet (h : Keeps s t) {k : Nat} {w0 src v : Word} {gd : Option Nat} : Keeps s (t.forceSet k w0 src v gd).2 := by
  unfold State.forceSet
  extract_lets clash
  split
  · exact h
  · split
    · exact h
    · split
      · exact h
      · split
        next u _ w he =>
          have hw := h.forceRank.snd he
          exact .iteSnd hw.agentWrite.forceSync hw

theorem Keeps.forceRelease (h : Keeps s t) {k : Nat} {w0 src : Word} {gd : Option Nat} : Keeps s (t.forceRelease k w0 src gd).2 := by
  unfold State.forceRelease
  refine .iteSnd h (.iteSnd h ?_)
  extract_lets e
  split
  next won u he =>
    have hu : Keeps s u := h.forceRank.snd he
    refine .iteSnd hu ?_
    clear_value e
    split
    · exact hu
    · exact hu.agentWrite.forceSync

theorem Keeps.forcesEmpty (h : Keeps s t) : Keeps s (t.forcesEmpty) := by
  unfold State.forcesEmpty
  exact (h.fold fun _ _ ku => ku.agentWrite).forceSync

theorem Keeps.forceReleaseAll (h : Keeps s t) {k : Nat} {gd : Option Nat} : Keeps s (t.forceReleaseAll k gd).2 := by
  unfold State.forceReleaseAll
  split
  · exact h
  · split
    next u _ v he =>
      have hv := h.forceRank.snd he
      exact .iteSnd hv.forcesEmpty hv

theorem Keeps.forceRequest (h : Keeps s t) {k : Nat} {ws : List Word} {gd : Option Nat} : Keeps s (t.forceRequest k ws gd).2 := by
  unfold State.forceRequest
  extract_lets op
  split
  next u _ v he =>
    have hv := h.forcesMet.snd he
    exact .iteSnd hv (.iteSnd hv (.iteSnd hv.forceSet (.iteSnd hv.forceRelease hv.forceReleaseAll)))

theorem Keeps.forceInstr (h : Keeps s t) {c : CoreId} {f : CF} {op : Nat} : OutKeeps s (forceInstr c f op t) := by
  unfold Machine.forceInstr
  refine h.privileged fun _ u hu => ?_
  refine hu.consume fun _ v hv => ?_
  split
  · split
    next w _ x he =>
      have hx := hv.forceRequest.snd he
      exact .ite (.flt hx) (.next hx.result)
  · exact .left hv

theorem Keeps.execForceSet (h : Keeps s t) {c : CoreId} {f : CF} : OutKeeps s (execForceSet c f t) := by
  unfold Machine.execForceSet
  exact h.forceInstr

theorem Keeps.execForceRelease (h : Keeps s t) {c : CoreId} {f : CF} : OutKeeps s (execForceRelease c f t) := by
  unfold Machine.execForceRelease
  exact h.forceInstr

theorem Keeps.execForceReleaseAll (h : Keeps s t) {c : CoreId} {f : CF} : OutKeeps s (execForceReleaseAll c f t) := by
  unfold Machine.execForceReleaseAll
  exact h.forceInstr

/-! ### Machine/Program -/

theorem Keeps.putDesc (h : Keeps s t) {n : Nat} {ws : List Word} : Keeps s (t.putDesc n ws) := by
  unfold State.putDesc
  exact .ite h.setTask h.setTask

theorem Keeps.taskSet (h : Keeps s t) {n : Nat} {ws : List Word} : Keeps s (t.taskSet n ws).2 := by
  unfold State.taskSet
  exact .iteSnd h (.iteSnd h.putDesc h)

theorem Keeps.execTaskset (h : Keeps s t) {c : CoreId} {f : CF} : OutKeeps s (execTaskset c f t) := by
  unfold Machine.execTaskset
  refine h.privileged fun _ u hu => ?_
  extract_lets t'
  split
  · exact .next hu.result
  · refine hu.consume fun _ v hv => ?_
    split
    · exact .next hv.result
    · split
      next w _ x he =>
        have hx := hv.taskSet.snd he
        exact .next hx.result

theorem Keeps.setOwner (h : Keeps s t) {o t' : Nat} : Keeps s (t.setOwner o t') := by
  unfold State.setOwner
  exact h.frame ⟨rfl, rfl⟩

theorem Keeps.execOwnset (h : Keeps s t) {c : CoreId} {f : CF} : OutKeeps s (execOwnset c f t) := by
  unfold Machine.execOwnset
  exact h.privileged fun _ _ ku => .ite (.next ku.result) (.ite (.next ku.result) (.next ku.setOwner.result))

theorem Keeps.execClassset (h : Keeps s t) {c : CoreId} {f : CF} : OutKeeps s (execClassset c f t) := by
  unfold Machine.execClassset
  exact h.privileged fun _ _ ku => .ite (.next ku.result) (.ite (.next ku.result) (.next ku.setReg.result))

theorem Keeps.loadCode (h : Keeps s t) {mask off : Nat} {ws : List Word} : Keeps s (t.loadCode mask off ws) := by
  unfold State.loadCode
  exact h.fold fun _ _ ku => .ite ku.locWrites ku

theorem Keeps.execCodeload (h : Keeps s t) {c : CoreId} {f : CF} : OutKeeps s (execCodeload c f t) := by
  unfold Machine.execCodeload
  exact h.privileged fun _ _ ku => .ite (.next ku.result) (ku.consume fun _ _ ku => .ite (.next ku.result)
    (ku.consume fun _ _ ku => .next ku.loadCode.result))

theorem Keeps.tellLayout (h : Keeps s t) {r : Nat} {c : RingCfg} : Keeps s (t.tellLayout r c) := by
  unfold State.tellLayout
  split
  · exact h
  · refine h.fold fun u _ hu => ?_
    split
    extract_lets x' same d v
    have hv : Keeps s v := .ite hu.setRing hu
    exact hv.mbxNews

theorem Keeps.ringSet (h : Keeps s t) {r : Nat} {ws : List Word} : Keeps s (t.ringSet r ws).2 := by
  unfold State.ringSet
  split
  · exact h
  · exact h.setRing.tellLayout

theorem Keeps.tableRead (h : Keeps s t) {ws : List Word} : Keeps s (t.tableRead ws).2 := by
  unfold State.tableRead
  extract_lets c
  split
  · exact h
  · split
    next u _ _ v he =>
      have hv := h.agentRead.thd he
      split
      next w _ _ x he =>
        have hx := (Keeps.iteThd hv hv.agentRead).thd he
        exact hx

theorem Keeps.execRingset (h : Keeps s t) {c : CoreId} {f : CF} : OutKeeps s (execRingset c f t) := by
  unfold Machine.execRingset
  refine h.privileged fun _ u hu => ?_
  split
  · exact .next hu.result
  · refine hu.consume fun _ v hv => ?_
    split
    next w _ x he =>
      have hx := hv.tableRead.snd he
      exact .flt hx
    next w x he =>
      have hx := hv.tableRead.snd he
      split
      next y _ z he =>
        have hz := hx.ringSet.snd he
        exact .next hz.result

theorem Keeps.loadArea (h : Keeps s t) {a : ProgramArea} : Keeps s (t.loadArea a) := by
  unfold State.loadArea
  split
  · exact h.locWrites
  · exact h.agentWrite

theorem Keeps.loadAreas (h : Keeps s t) {as : List ProgramArea} : Keeps s (t.loadAreas as) := by
  unfold State.loadAreas
  exact h.fold fun _ _ ku => ku.loadArea

theorem Keeps.locReads (h : Keeps s t) {n : Nat} {spans : List (Nat × Nat)} : Keeps s (t.locReads n spans).2 := by
  unfold State.locReads
  exact .foldSnd h fun _ _ hq => hq.locRead

theorem Keeps.readTypes (h : Keeps s t) {img : ProgramImage} : Keeps s (t.readTypes img).2 := by
  unfold State.readTypes
  exact .foldSnd h fun _ _ hq => hq.locReads

theorem Keeps.readSizes (h : Keeps s t) {img : ProgramImage} : Keeps s (t.readSizes img).2 := by
  unfold State.readSizes
  exact .foldSnd h fun _ _ hq => hq.locReads

theorem Keeps.readHeads (h : Keeps s t) {is : List (Nat × Nat)} : Keeps s (t.readHeads is).2 := by
  unfold State.readHeads
  exact .foldSnd h fun _ _ hq => hq.meets

theorem Keeps.readProgram (h : Keeps s t) {old img : ProgramImage} : Keeps s (t.readProgram old img).2 := by
  unfold State.readProgram
  split
  next u _ v he =>
    have hv := h.readTypes.snd he
    split
    next w _ x he =>
      have hx := hv.readSizes.snd he
      split
      next y _ z he =>
        have hz := hx.readHeads.snd he
        split
        next u1 _ v1 he =>
          have hv1 := hz.readSignals.snd he
          exact hv1

theorem Keeps.readBlocks (h : Keeps s t) {img : ProgramImage} : Keeps s (t.readBlocks img).2 := by
  unfold State.readBlocks
  exact .foldSnd h fun _ _ hq => hq.locReads.meets

theorem Keeps.loadTables (h : Keeps s t) {img : ProgramImage} : Keeps s (t.loadTables img) := by
  unfold State.loadTables
  extract_lets u v
  have hu : Keeps s u := h.fold fun _ _ k => k.agentWrite
  have hv : Keeps s v := hu.fold fun _ _ k => k.agentWord
  exact .getD hv fun _ e => hv.setSignals e

theorem Keeps.migrate (h : Keeps s t) {old img : ProgramImage} : Keeps s (t.migrate old img).1 := by
  unfold State.migrate
  exact .foldFst h fun _ _ hq => hq.agentWrite

theorem Keeps.firstScans (h : Keeps s t) {img : ProgramImage} : Keeps s (t.firstScans img) := by
  unfold State.firstScans
  exact h.fold fun _ _ ku => ku.agentWrite

theorem Keeps.loadProgram (h : Keeps s t) {ws : List Word} : Keeps s (t.loadProgram ws).2 := by
  unfold State.loadProgram
  split
  · exact h
  · split
    next u _ v he =>
      have hv := h.loadAreas.readProgram.snd he
      split
      · exact h
      · split
        · exact h
        · split
          · exact hv
          · split
            · exact h
            · extract_lets w x y z _
              have hw : Keeps s w := hv.firstScans.loadTables
              have hx : Keeps s x := hw.fold fun _ _ ku1 => ku1.putDesc
              have hy : Keeps s y := hx.fold fun _ _ ku1 => ku1.setOwner
              have hz : Keeps s z := hy.fold fun _ _ ku1 => ku1.setReg
              exact hz.frame ⟨rfl, rfl⟩

/-! ### Machine/Exchange -/

theorem Keeps.exReport (h : Keeps s t) {buf result pause us : Nat} {insts forces : List Word} {stay : Bool} :
    Keeps s (t.exReport buf result pause us insts forces stay) := by
  unfold State.exReport
  exact .ite h (.ite h.agentWrite.agentWord h.fillBuf)

theorem Keeps.reportFlush (h : Keeps s t) : Keeps s (t.reportFlush) := by
  unfold State.reportFlush
  split
  · exact h
  · extract_lets b _ u
    have hu : Keeps s u := h.frame ⟨rfl, rfl⟩
    exact .ite hu.passBuf hu

theorem Keeps.exPrepare (h : Keeps s t) {ws : List Word} {limit buf : Nat} {tag : Word} : Keeps s (t.exPrepare ws limit buf tag).2 := by
  unfold State.exPrepare
  extract_lets u refused old
  have hu : Keeps s u := h.reportFlush
  split
  · exact hu.exReport
  · split
    next v _ w he =>
      have hw := hu.loadAreas.readProgram.snd he
      split
      · exact hu.exReport
      · split
        · exact hw
        · split
          · exact hu.exReport
          · extract_lets rs aff
            exact hw.frame ⟨rfl, rfl⟩

theorem Keeps.exHold (h : Keeps s t) : Keeps s (t.exHold) := by
  unfold State.exHold
  extract_lets _ u
  have hu : Keeps s u := h.frame ⟨rfl, rfl⟩
  exact hu.fold fun _ _ kv => .ite kv.setTask kv

theorem Keeps.exSwap (h : Keeps s t) : Keeps s (t.exSwap) := by
  unfold State.exSwap
  split
  · exact h
  · extract_lets old x' changed blocks
    split
    next u v _ _ he =>
      have hv := h.migrate.fst he
      extract_lets w x olds
      have hw : Keeps s w := by
        unfold w
        refine hv.fold fun y _ hy => ?_
        extract_lets z _
        have hz : Keeps s z := hy.putDesc
        exact hz.setTask
      have hx : Keeps s x := hw.loadTables
      split
      next y _ z he =>
        have hz := hx.drawWord.snd he
        exact hz.frame ⟨rfl, rfl⟩

theorem Keeps.exCommit (h : Keeps s t) : Keeps s (t.exCommit) := by
  unfold State.exCommit
  extract_lets x' u v new fs waits w _
  have hu : Keeps s u := h.beginTick
  have hv : Keeps s v := hu.fold fun _ _ kx => .ite kx.setTask (.ite kx.setTask.readyAtTick kx)
  have hw : Keeps s w := hv.exReport
  exact hw.frame ⟨rfl, rfl⟩

theorem Keeps.exAbort (h : Keeps s t) : Keeps s t.exAbort := by
  unfold State.exAbort
  extract_lets x u v w y us z
  have hu : Keeps s u := h.fold fun _ _ k => k.setTask
  have hv : Keeps s v := hu.fold fun _ _ k => k.agentWord
  have hw : Keeps s w := .ite (.getD hv fun _ e => hv.setSignals e) h
  have hy : Keeps s y := hw.fold fun _ _ k => k.setTask
  have hz : Keeps s z := hy.exReport
  exact .ite h (hz.frame ⟨rfl, rfl⟩)

/-! ### Machine/Modes -/

theorem Keeps.stopFor (h : Keeps s t) {target n : Nat} : Keeps s (t.stopFor target n) := by
  unfold State.stopFor
  extract_lets t' stop
  split
  · exact .ite h.setTask h
  · exact h.setTask
  · exact h

theorem Keeps.stopsTick (h : Keeps s t) : Keeps s (t.stopsTick) := by
  unfold State.stopsTick
  exact h.fold fun _ _ ku => .ite ku.stopTask ku

theorem Keeps.beginTransition (h : Keeps s t) {target cause : Nat} : Keeps s (t.beginTransition target cause) := by
  unfold State.beginTransition
  extract_lets u _ v
  have hu : Keeps s u := h.setRfld
  have hv : Keeps s v := hu.frame ⟨rfl, rfl⟩
  exact hv.fold fun _ _ kw => kw.stopFor

theorem Keeps.cellsOff (h : Keeps s t) : Keeps s (t.cellsOff) := by
  unfold State.cellsOff
  extract_lets u v w x y
  have hu : Keeps s u := h.fold fun _ _ kz => kz.setReg.setPair
  have hv : Keeps s v := hu.fold fun _ _ kz => .ite kz.stepHalt kz
  have hw : Keeps s w := hv.fold fun _ _ kz => kz.chopStore
  have hx : Keeps s x := hw.fold fun _ _ kz => kz.setRfld.convEmpty
  have hy : Keeps s y := hx.fold fun _ _ kz => kz.setRfld
  exact hy.fold fun _ _ kz => kz.foutStore

theorem Keeps.putMode (h : Keeps s t) {m cause : Nat} : Keeps s (t.putMode m cause) := by
  unfold State.putMode
  extract_lets w' u _
  have hu : Keeps s u := h.setReg
  exact hu.frame ⟨rfl, rfl⟩

theorem Keeps.faultKind (h : Keeps s t) {k : Nat} : Keeps s (t.faultKind k) := by
  unfold State.faultKind
  exact .ite h (h.frame ⟨rfl, rfl⟩)

theorem Keeps.haltUnits (h : Keeps s t) : Keeps s (t.haltUnits) := by
  unfold State.haltUnits
  exact h.drainAll.histDrop.capsDrop

theorem Keeps.untrap (h : Keeps s t) : Keeps s (t.untrap) := by
  unfold State.untrap
  exact h.frame ⟨rfl, rfl⟩

theorem Keeps.enterMode (h : Keeps s t) {m cause : Nat} : Keeps s (t.enterMode m cause) := by
  unfold State.enterMode
  extract_lets a b c d e f g i _ _ j _ k l _ n
  have ha : Keeps s a := .ite h.untrap h
  have hb : Keeps s b := .ite ha ha.exAbort
  have hc : Keeps s c := hb.putMode
  have hd : Keeps s d := .ite hc.lanesOff.cancelCues.forcesEmpty hc
  have he : Keeps s e := .ite hd hd.cellsOff.capsCut
  have hf : Keeps s f := he.canMode
  have hg : Keeps s g := .ite hf.faultKind hf
  have hi : Keeps s i := .ite hg.haltUnits hg
  have hj : Keeps s j := .ite hi.setRfld.withStore hi
  have hk : Keeps s k := .ite hj.withSched hj
  have hl : Keeps s l := hk.eventEntry.msix
  have hn : Keeps s n := hl.withBrim
  exact .ite (.ite hn.beginTransition hn) hl

theorem Keeps.brimSafestop (h : Keeps s t) : Keeps s (t.brimSafestop) := by
  unfold State.brimSafestop
  exact .ite (h.frame ⟨rfl, rfl⟩) (.ite h.beginTransition h)

theorem Keeps.halt (h : Keeps s t) : Keeps s (t.halt) := by
  unfold State.halt
  split
  · exact h
  · extract_lets _ u v
    have hu : Keeps s u := .ite (h.frame ⟨rfl, rfl⟩) h
    have hv : Keeps s v := hu.frame ⟨rfl, rfl⟩
    exact hv.enterMode

theorem Keeps.dropResident (h : Keeps s t) {reason : Nat} : Keeps s (t.dropResident reason) := by
  unfold State.dropResident
  extract_lets a b c d e f _ g
  have ha : Keeps s a := h.histDrop
  have hb : Keeps s b := ha.fold fun _ _ k => k.setCap
  have hc : Keeps s c := hb.fold fun _ _ k => k.drop
  have hd : Keeps s d := hc.fold fun _ _ k => k.setReg
  have he : Keeps s e := hd.fold fun _ _ k => k.setReg.setCan
  have hf : Keeps s f := he.fold fun _ _ k => k.setRing
  have hg : Keeps s g := hf.withField
  have last : ∀ u a b, Keeps s u → Keeps s { u with tasks := a, host := b } := fun _ _ _ h => h.frame ⟨rfl, rfl⟩
  exact last _ _ _ hg

theorem Keeps.pairFail (h : Keeps s t) : Keeps s t.pairFail := by
  unfold State.pairFail
  extract_lets _ u v w
  have hu : Keeps s u := h.withPeer.cellsOff
  have hw : Keeps s w := hu.withOutbox.dropResident
  exact hw.setRfld.halt

theorem Keeps.integrityFault (h : Keeps s t) {kind id : Nat} : Keeps s (t.integrityFault kind id) := by
  unfold State.integrityFault
  split
  · exact h
  · extract_lets u v _ w
    have hu : Keeps s u := h.setRfld.setRfld.setRfld
    have hv : Keeps s v := hu.faultKind
    have hw : Keeps s w := .ite (hv.frame ⟨rfl, rfl⟩) hv
    exact .ite hw.pairFail hw.halt

theorem Keeps.modeRequest (h : Keeps s t) {k target : Nat} {gd : Option Nat} : Keeps s (t.modeRequest k target gd).2 := by
  unfold State.modeRequest
  extract_lets src r standing o same
  split
  · exact h
  · split
    · exact h
    · split
      · exact h
      · split
        · exact h
        · split
          · exact h
          · split
            next u _ v he =>
              have hv := h.rankOrder.snd he
              exact .iteSnd hv (.iteSnd hv (.beginTransition (.ite hv hv.undoOrder)))

theorem Keeps.execMode (h : Keeps s t) {c : CoreId} {f : CF} : OutKeeps s (execMode c f t) := by
  unfold Machine.execMode
  refine h.privileged fun _ u hu => ?_
  split
  next v _ w he =>
    have hw := hu.modeRequest.snd he
    exact .next hw.result

theorem Keeps.execExchangeHoldStart (h : Keeps s t) : OutKeeps s (execExchangeHoldStart t) := by
  unfold Machine.execExchangeHoldStart
  exact .next (.ite h.exHold h)

theorem Keeps.execSwap (h : Keeps s t) : OutKeeps s (execSwap t) := by
  unfold Machine.execSwap
  refine .next (.ite ?_ h)
  split
  next p u he =>
    have hu := h.readBlocks.snd he
    split
    next q v he =>
      have hv : Keeps s v := by
        split at he
        · exact hu.readProgram.snd he
        · exact hu.snd (p := (_, _)) he
      exact .ite hv.integrityFault hv.exSwap

theorem Keeps.execExchangeCommit (h : Keeps s t) : OutKeeps s (execExchangeCommit t) := by
  unfold Machine.execExchangeCommit
  refine .next (.ite ?_ h)
  split
  next p u he =>
    have hu := h.forcesMet.snd he
    refine .ite hu.integrityFault ?_
    extract_lets v x w
    have hw : Keeps s w := hu.exCommit.enterMode
    clear_value x
    split
    · exact hw.beginTransition
    · exact hw

theorem Keeps.execExchangeAbort (h : Keeps s t) : OutKeeps s (execExchangeAbort t) := by
  unfold Machine.execExchangeAbort
  refine .next (.ite ?_ h)
  extract_lets x u
  have hu : Keeps s u := h.exAbort.enterMode
  clear_value x
  split
  · exact hu.beginTransition
  · exact hu

/-! ### Machine/Census -/

theorem Keeps.censusTake (h : Keeps s t) : Keeps s (t.censusTake) := by
  unfold State.censusTake
  extract_lets whole both _ u v
  have hu : Keeps s u := h.frame ⟨rfl, rfl⟩
  have hv : Keeps s v := hu.setRfld
  exact .ite hv.histCredits hv

theorem Keeps.execCensusCheck (h : Keeps s t) : OutKeeps s (execCensusCheck t) := by
  unfold Machine.execCensusCheck
  refine .next ?_
  split
  · exact h
  · extract_lets seq u v w
    have hu : Keeps s u := h.frame ⟨rfl, rfl⟩
    have hv : Keeps s v := hu.agentWrite.setReg
    have hw : Keeps s w := hv.setRfld
    split
    · exact hw
    · exact hw.integrityFault

theorem Keeps.execCensusCopy (h : Keeps s t) {c : CoreId} {f : CF} : OutKeeps s (execCensusCopy c f t) := by
  unfold Machine.execCensusCopy
  refine h.privileged fun _ u hu => ?_
  split
  · exact .flt hu
  · split
    next v _ _ w he =>
      have hw := hu.agentRead.thd he
      exact .ite (.flt hw) (hw.emit fun _ kx => .next kx.setG)

theorem Keeps.execCensusExtraCheck (h : Keeps s t) {c : CoreId} {f : CF} : OutKeeps s (execCensusExtraCheck c f t) := by
  unfold Machine.execCensusExtraCheck
  refine h.privileged fun _ u hu => ?_
  extract_lets due n _
  refine .next ?_
  refine Keeps.setG ?_
  exact hu.frame ⟨rfl, rfl⟩

theorem Keeps.scrubLine (h : Keeps s t) {l : Nat} : Keeps s (t.scrubLine l) := by
  unfold State.scrubLine
  extract_lets e clear u moved _ v
  have hc : ∀ w, Keeps s w → Keeps s (clear w) := fun w hw => hw.trans ⟨rfl, id⟩
  have hu : Keeps s u := h.decode
  have hv : Keeps s v := hu.trans ⟨rfl, id⟩
  exact .ite (hc _ h) (.ite (hc _ hu) (.ite hv (.ite (.ite hv hv.retire) (hv.trans ⟨rfl, id⟩))))

theorem Keeps.execScrubVisit (h : Keeps s t) {m : MemTarget} : OutKeeps s (execScrubVisit m t) := by
  unfold Machine.execScrubVisit
  extract_lets k n u done _ x
  have hu : Keeps s u := h.scrubLine
  have hx : Keeps s { u with mem := x } := hu.trans ⟨rfl, id⟩
  exact .next (.ite h (.ite hx hx.incReg))

theorem Keeps.execCommandBeatCrcFail (h : Keeps s t) {tag : Fin 512} : OutKeeps s (execCommandBeatCrcFail tag t) := by
  unfold Machine.execCommandBeatCrcFail
  refine .next ?_
  split
  · refine Keeps.incReg ?_
    exact h.frame ⟨rfl, rfl⟩
  · exact .ite h (h.frame ⟨rfl, rfl⟩)

theorem Keeps.execSpineTargetService (h : Keeps s t) {m : MemTarget} {flitOk : Bool} : OutKeeps s (execSpineTargetService m flitOk t) := by
  unfold Machine.execSpineTargetService
  refine .next ?_
  split
  next u _ _ v he =>
    have hv := h.serveOne he
    exact hv
  next u _ =>
    exact h

theorem Keeps.execTransactionComplete (h : Keeps s t) {tag : Fin 512} : OutKeeps s (execTransactionComplete tag t) := by
  unfold Machine.execTransactionComplete
  refine .next ?_
  split
  · exact h
  · split
    · exact h
    · extract_lets u
      have hu : Keeps s u := h.returnTag
      exact hu.frame ⟨rfl, rfl⟩

theorem Keeps.execCreditReturn (h : Keeps s t) {port : Fin 12} {toPort : Bool} {cls : Fin 4} :
    OutKeeps s (execCreditReturn port toPort cls t) := by
  unfold Machine.execCreditReturn
  exact .next (.ite h (h.frame ⟨rfl, rfl⟩))

theorem Keeps.execCrownLockstepDifference (h : Keeps s t) : OutKeeps s (execCrownLockstepDifference t) := by
  unfold Machine.execCrownLockstepDifference
  exact .next h.integrityFault

/-! ### Machine/Evr -/

theorem Keeps.evrCollect (h : Keeps s t) : Keeps s (t.evrCollect) := by
  unfold State.evrCollect
  refine h.fold fun u _ hu => ?_
  extract_lets v' v _
  have hv : Keeps s v := hu.tallyAdd
  exact hv.frame ⟨rfl, rfl⟩

theorem Keeps.evrTrack (h : Keeps s t) {q : Nat} {v : Int} : Keeps s (t.evrTrack q v) := by
  unfold State.evrTrack
  extract_lets a o p u w
  have hu : Keeps s u := h.decode
  have hw : Keeps s w := .ite hu.agentWord.agentWrite hu
  exact .ite hw.agentWord.agentWrite hw

theorem Keeps.evrTrackAll (h : Keeps s t) {vals : List (Option Int)} : Keeps s (t.evrTrackAll vals) := by
  unfold State.evrTrackAll
  extract_lets u
  have hu : Keeps s u := by
    unfold u
    refine h.fold fun v _ hv => ?_
    split
    · exact hv.evrTrack
    · exact hv
  refine hu.fold fun v _ hv => ?_
  extract_lets a w
  have hw : Keeps s w := hv.decode
  exact .ite hw.evrTrack hw

theorem Keeps.evrSnapshot (h : Keeps s t) {cause : Nat} : Keeps s (t.evrSnapshot cause) := by
  unfold State.evrSnapshot
  extract_lets t' head
  split
  next u _ _ v he =>
    have hv := h.agentRead.thd he
    extract_lets r r' w _
    have hw : Keeps s w := hv.incReg.setRfld
    exact hw.frame ⟨rfl, rfl⟩

theorem Keeps.execEvrFold (h : Keeps s t) {sensors : List (Option Int)} : OutKeeps s (execEvrFold sensors t) := by
  unfold Machine.execEvrFold
  refine .next ?_
  split
  · exact h
  · extract_lets u vals w' v w x _ y
    have hu : Keeps s u := h.incReg.evrCollect
    have hv : Keeps s v := by
      unfold v
      refine hu.fold fun z _ hz => ?_
      split
      · extract_lets a u1
        have hu1 : Keeps s u1 := hz.decode
        exact hu1.agentWord
      · exact hz
    have hw : Keeps s w := hv.evrTrackAll.incReg
    have hx : Keeps s x := hw.agentWrite
    have hy : Keeps s y := hx.frame ⟨rfl, rfl⟩
    split
    · exact hy
    · extract_lets z _
      have hz : Keeps s z := hy.evrSnapshot
      exact hz.frame ⟨rfl, rfl⟩

theorem Keeps.evrWritten (h : Keeps s t) : Keeps s (t.evrWritten) := by
  unfold State.evrWritten
  split
  · exact h
  · extract_lets n _ u v
    have hu : Keeps s u := h.frame ⟨rfl, rfl⟩
    have hv : Keeps s v := .ite hu.setRfld hu
    exact .ite hv.setRfld hv

theorem Keeps.execSnapshotWriteDone (h : Keeps s t) : OutKeeps s (execSnapshotWriteDone t) := by
  unfold Machine.execSnapshotWriteDone
  exact .next h.evrWritten

theorem Keeps.evrFlush (h : Keeps s t) : Keeps s (t.evrFlush) := by
  unfold State.evrFlush
  exact h.fold fun _ _ ku => ku.evrWritten

theorem Keeps.evrPowerfail (h : Keeps s t) : Keeps s (t.evrPowerfail) := by
  unfold State.evrPowerfail
  extract_lets u v
  have hu : Keeps s u := h.evrFlush.evrCollect
  have hv : Keeps s v := hu.evrTrackAll
  exact hv.evrSnapshot.evrFlush

theorem Keeps.evrPowerUp (h : Keeps s t) {pcyc : Word} : Keeps s (t.evrPowerUp pcyc) := by
  unfold State.evrPowerUp
  extract_lets rs best last next skipped u _ v
  have hu : Keeps s u := h.setReg.setReg.setReg
  clear_value last skipped
  have hv : Keeps s v := hu.frame ⟨rfl, rfl⟩
  clear_value v
  clear_value best
  split
  · exact hv
  · exact .ite hv.agentWrite.agentWrite.setReg hv.agentWrite.agentWrite.setReg.setRfld

/-! ### Machine/Brim -/

theorem Keeps.setBpair (h : Keeps s t) {i : Nat} {x : BrimPair} : Keeps s (t.setBpair i x) := by
  unfold State.setBpair
  exact h.frame ⟨rfl, rfl⟩

theorem Keeps.setBaxis (h : Keeps s t) {a : Nat} {x : BrimAxis} : Keeps s (t.setBaxis a x) := by
  unfold State.setBaxis
  exact h.frame ⟨rfl, rfl⟩

theorem Keeps.setBstop (h : Keeps s t) {k : Nat} {x : BrimStop} : Keeps s (t.setBstop k x) := by
  unfold State.setBstop
  exact h.frame ⟨rfl, rfl⟩

theorem Keeps.setSto (h : Keeps s t) {k st cause : Nat} : Keeps s (t.setSto k st cause) := by
  unfold State.setSto
  split
  · exact h
  · extract_lets pin u v w x
    have hu : Keeps s u := h.setRfld
    have hv : Keeps s v := .ite hu.setRfld.incReg hu
    have hw : Keeps s w := hv.setBstop
    have hx : Keeps s x := .ite (hw.frame ⟨rfl, rfl⟩) hw
    exact hx.crownEvent

theorem Keeps.openAll (h : Keeps s t) {cause : Nat} : Keeps s (t.openAll cause) := by
  unfold State.openAll
  exact h.fold fun _ _ ku => ku.setSto

theorem Keeps.brimFault (h : Keeps s t) {code out : Nat} : Keeps s (t.brimFault code out) := by
  unfold State.brimFault
  split
  · exact h
  · extract_lets u v
    have hu : Keeps s u := h.setRfld.setRfld.setRfld
    have hv : Keeps s v := hu.openAll.crownEvent
    exact hv.brimSafestop

theorem Keeps.discrepant (h : Keeps s t) {i : Nat} : Keeps s (t.discrepant i) := by
  unfold State.discrepant
  split
  · extract_lets _ u
    have hu : Keeps s u := .ite h h.setBpair
    exact hu.setReg
  · exact h

theorem Keeps.samplePair (h : Keeps s t) {i : Nat} {a b : Bool} : Keeps s (t.samplePair i a b) := by
  unfold State.samplePair
  extract_lets x' x'' act entered x₁ dem x₂ leaves w' w'' held given x₃ u _
  have hu : Keeps s u := h.setBpair.setReg
  exact .ite h.setBpair (.ite (hu.frame ⟨rfl, rfl⟩) hu)

theorem Keeps.container (h : Keeps s t) {r addr off : Nat} : Keeps s (t.container r addr off).2 := by
  unfold State.container
  split
  · extract_lets at0 b0
    split
    next u _ _ v he =>
      have hv := h.agentRead.thd he
      exact hv
  · exact h

theorem Keeps.sampleAxis (h : Keeps s t) {a : Nat} {counts : List Int} : Keeps s (t.sampleAxis a counts) := by
  unfold State.sampleAxis
  extract_lets w' x' n d
  split
  next u _ v he =>
    have hv := (Keeps.iteSnd h.container h).snd he
    exact hv.setBaxis

theorem Keeps.brimLostBits (h : Keeps s t) : Keeps s (t.brimLostBits) := by
  unfold State.brimLostBits
  exact h.fold fun _ _ ku => ku.setReg

theorem Keeps.brimLost (h : Keeps s t) {a : Nat} : Keeps s (t.brimLost a) := by
  unfold State.brimLost
  exact .ite h.setBaxis.brimLostBits h

theorem Keeps.takeReset (h : Keeps s t) : Keeps s (t.takeReset) := by
  unfold State.takeReset
  extract_lets w' u _
  have hu : Keeps s u := h.setReg
  exact .ite (hu.frame ⟨rfl, rfl⟩) hu

theorem Keeps.tmaxOver (h : Keeps s t) {k : Nat} : Keeps s (t.tmaxOver k) := by
  unfold State.tmaxOver
  exact .ite h.setBstop h

theorem Keeps.brimQstop (h : Keeps s t) {k : Nat} : Keeps s (t.brimQstop k) := by
  unfold State.brimQstop
  refine h.fold fun u _ hu => ?_
  extract_lets a v o w
  have hv : Keeps s v := hu.axisRun
  have hw : Keeps s w := hv.rankOrder
  exact .ite (.ite hw.stopAxis hw) hv

theorem Keeps.beginSs1 (h : Keeps s t) {k cause : Nat} : Keeps s (t.beginSs1 k cause) := by
  unfold State.beginSs1
  extract_lets u v w
  have hu : Keeps s u := h.setSto
  have hv : Keeps s v := hu.setBstop
  have hw : Keeps s w := hv.fold fun _ _ kx => kx.setBaxis
  exact hw.brimQstop.brimSafestop

theorem Keeps.decideOut (h : Keeps s t) {reset : Bool} {k : Nat} : Keeps s (t.decideOut reset k) := by
  unfold State.decideOut
  split
  · exact h
  · exact .ite h.setSto h
  · exact h.setSto
  · exact .ite h.setSto (.ite h.setSto (.ite h.setSto h))
  · split
    · exact h.beginSs1
    · exact h

theorem Keeps.brimDecide (h : Keeps s t) : Keeps s (t.brimDecide) := by
  unfold State.brimDecide
  extract_lets u v w reset _ x
  have hu : Keeps s u := h.fold fun _ _ k => k.discrepant
  have hv : Keeps s v := hu.fold fun _ _ k => k.brimLost
  have hw : Keeps s w := hv.fold fun _ _ k => k.tmaxOver
  have hx : Keeps s x := hw.frame ⟨rfl, rfl⟩
  exact .ite (hx.fold fun _ _ ky => ky.decideOut) hx

theorem Keeps.execBrimDecisionPoint (h : Keeps s t) : OutKeeps s (execBrimDecisionPoint t) := by
  unfold Machine.execBrimDecisionPoint
  exact .next (.ite (.brimDecide (h.frame ⟨rfl, rfl⟩)) h)

theorem Keeps.execDiscrepancy (h : Keeps s t) {i : Fin 4} : OutKeeps s (execDiscrepancy i t) := by
  unfold Machine.execDiscrepancy
  exact .next h.discrepant

theorem Keeps.execContainerLost (h : Keeps s t) {a : Fin 64} : OutKeeps s (execContainerLost a t) := by
  unfold Machine.execContainerLost
  exact .next h.brimLost

theorem Keeps.execTmaxExpiry (h : Keeps s t) {k : Fin 4} : OutKeeps s (execTmaxExpiry k t) := by
  unfold Machine.execTmaxExpiry
  exact .next h.tmaxOver

theorem Keeps.execSwitchTestPulse (h : Keeps s t) {k : Fin 4} {lowSide : Bool} {pinMv : Int} {loadUa : Nat} :
    OutKeeps s (execSwitchTestPulse k lowSide pinMv loadUa t) := by
  unfold Machine.execSwitchTestPulse
  exact .next (.ite h.brimFault h)

theorem Keeps.execBrimOscillatorCheck (h : Keeps s t) {differencePpm : Int} : OutKeeps s (execBrimOscillatorCheck differencePpm t) := by
  unfold Machine.execBrimOscillatorCheck
  exact .next (.ite h.brimFault h)

theorem Keeps.brimAccept (h : Keeps s t) {ws : List Word} : Keeps s (t.brimAccept ws) := by
  unfold State.brimAccept
  extract_lets _ u
  have hu : Keeps s u := h.frame ⟨rfl, rfl⟩
  exact hu.setRfld.setReg

theorem Keeps.execBrimSwitchRead (h : Keeps s t) {code : BitVec 16} {storedOk : Bool} :
    OutKeeps s (execBrimSwitchRead code storedOk t) := by
  unfold Machine.execBrimSwitchRead
  refine .next ?_
  extract_lets old up u _ v
  have hu : Keeps s u := h.setRfld
  have hv : Keeps s v := hu.frame ⟨rfl, rfl⟩
  exact .ite hv.brimFault (.ite (.ite hv.brimAccept hv) (.ite hv.brimFault hv))

theorem Keeps.execF24vMissing (h : Keeps s t) {mv : Nat} : OutKeeps s (execF24vMissing mv t) := by
  unfold Machine.execF24vMissing
  exact .next (.ite (h.frame ⟨rfl, rfl⟩) (.ite (h.frame ⟨rfl, rfl⟩) (.ite (h.frame ⟨rfl, rfl⟩) h)))

theorem Keeps.execBrimRailLow (h : Keeps s t) : OutKeeps s (execBrimRailLow t) := by
  unfold Machine.execBrimRailLow
  exact .next h.brimFault

theorem Keeps.execBrimLockstepMismatch (h : Keeps s t) : OutKeeps s (execBrimLockstepMismatch t) := by
  unfold Machine.execBrimLockstepMismatch
  exact .next h.brimFault

theorem Keeps.brimLoad (h : Keeps s t) {ws : List Word} : Keeps s (t.brimLoad ws).2 := by
  unfold State.brimLoad
  extract_lets u clear _ v w x
  have hu : Keeps s u := h.openAll
  have hw : Keeps s w := hu.withBrim.setRfld.setReg.setRfld
  have hx : Keeps s x := hw.brimAccept
  exact .iteSnd h (.iteSnd hw (.iteSnd hw hx.withBrim))

theorem Keeps.takeMailbox (h : Keeps s t) : Keeps s t.takeMailbox := by
  unfold State.takeMailbox
  split
  · exact h
  · extract_lets _ r
    have hr : Keeps s r.2 := h.withBrim.brimLoad
    exact hr.returnBuf.respond

theorem Keeps.execBrimCycleStart (h : Keeps s t) {si : BitVec 8} {counts : List Int} : OutKeeps s (execBrimCycleStart si counts t) := by
  unfold Machine.execBrimCycleStart
  refine .next ?_
  split
  · exact h
  · extract_lets b back u v w x y
    have hu : Keeps s u := h.frame ⟨rfl, rfl⟩
    have hv : Keeps s v := hu.setRfld
    have hw : Keeps s w := hv.fold fun _ _ kz => .ite kz.setBstop kz
    have hx : Keeps s x := hw.fold fun _ _ kz => kz.samplePair
    have hy : Keeps s y := hx.fold fun _ _ kz => kz.sampleAxis
    exact hy.brimLostBits.takeReset.takeMailbox

/-! ### Machine/Boot -/

theorem Keeps.restoreStreams (h : Keeps s t) {t' : Tab Stream} : Keeps s (t.restoreStreams t') := by
  unfold State.restoreStreams
  exact h.fold fun _ _ ku => ku.setStream

theorem Keeps.restoreTasks (h : Keeps s t) {t' : Tab Task} : Keeps s (t.restoreTasks t') := by
  unfold State.restoreTasks
  exact h.fold fun _ _ ku => ku.setTask.produce

theorem Keeps.restoreJournal (h : Keeps s t) {t' : Tab Word} {bad : List Nat} {handle : Word} {life : Nat} :
    Keeps s (t.restoreJournal t' bad handle life) := by
  unfold State.restoreJournal
  extract_lets u v
  have hu : Keeps s u := h.fold fun _ _ kw => kw.agentWord
  have hv : Keeps s v := hu.fold fun _ _ kw => kw.lineWrite
  exact hv.setReg.setRfld.jSync

theorem Keeps.restoreCoords (h : Keeps s t) {t' : Tab Word} : Keeps s (t.restoreCoords t') := by
  unfold State.restoreCoords
  exact h.fold fun _ _ ku => ku.coordDescribe.setReg.setReg

theorem Keeps.restore (h : Keeps s t) {u : Units} : Keeps s (t.restore u) := by
  unfold State.restore
  extract_lets v w x y
  have hv : Keeps s v := h.frame ⟨rfl, rfl⟩
  have hw : Keeps s w := hv.cancelCues
  have hx : Keeps s x := hw.frame ⟨rfl, rfl⟩
  have hy : Keeps s y := hx.restoreCoords.restoreStreams
  exact hy.restoreTasks.restoreJournal.jLifeUp

theorem Keeps.bare (h : Keeps s t) {powerOn : Bool} : Keeps s (t.bare powerOn) :=
  ⟨h.pending, fun w => bare_wf t powerOn (h.form w)⟩

theorem Keeps.swapBanks (h : Keeps s t) {cs : List Nat} : Keeps s (t.swapBanks cs) := by
  unfold State.swapBanks
  refine h.fold fun u _ hu => ?_
  extract_lets a b _
  refine Keeps.setReg ?_
  exact hu.frame ⟨rfl, rfl⟩

theorem Keeps.chooseBanks (h : Keeps s t) {cause : Nat} : Keeps s (t.chooseBanks cause).1 := by
  unfold State.chooseBanks
  extract_lets trial session u v _ cs hood w' w x _' y _''
  have hu : Keeps s u := h.swapBanks
  have hw : Keeps s w := h.swapBanks
  have hy : Keeps s y := .ite h.setRfld h
  split
  · exact hu.setRfld.setRfld.withStore
  · split
    · exact hw.setRfld.setRfld.withStore
    · exact hy.withStore

theorem Keeps.recoveryBuffer (h : Keeps s t) : Keeps s (t.recoveryBuffer) := by
  unfold State.recoveryBuffer
  extract_lets u _ _'
  have hu : Keeps s u := h.agentWrite
  exact hu.frame ⟨rfl, rfl⟩

theorem Keeps.brimRestart (h : Keeps s t) : Keeps s (t.brimRestart) := by
  unfold State.brimRestart
  extract_lets u v
  have hu : Keeps s u := h.openAll
  have hv : Keeps s v := hu.setRfld.setReg.setReg
  exact hv.frame ⟨rfl, rfl⟩

theorem Keeps.reboot (h : Keeps s t) {powerOn : Bool} {cause : Nat} {recov : Bool} : Keeps s (t.reboot powerOn cause recov) := by
  unfold State.reboot
  extract_lets old brim
  split
  next u v _ _ he =>
    have hv := h.evrCollect.chooseBanks.fst he
    extract_lets w incompatible noCrown rec_ pcyc x _ y _' z m u1
    have hw : Keeps s w := .ite hv.brimRestart hv
    have hx : Keeps s x := hw.bare
    have hy : Keeps s y := hx.frame ⟨rfl, rfl⟩
    have hz : Keeps s z := .ite hy.evrPowerUp (hy.frame ⟨rfl, rfl⟩)
    have hu1 : Keeps s u1 := hz.setReg
    exact .ite hu1.recoveryBuffer.canMode hu1

theorem Keeps.execPowerOnReset (h : Keeps s t) : OutKeeps s (execPowerOnReset t) := by
  unfold Machine.execPowerOnReset
  refine .next ?_
  split
  · extract_lets m
    refine Keeps.setReg ?_
    exact h.frame ⟨rfl, rfl⟩
  · exact h.reboot

theorem Keeps.execResetPin (h : Keeps s t) {low recovLow : Bool} : OutKeeps s (execResetPin low recovLow t) := by
  unfold Machine.execResetPin
  extract_lets _ u m v _' w x
  have hu : Keeps s u := h.frame ⟨rfl, rfl⟩
  have hv : Keeps s v := hu.evrCollect
  have hw : Keeps s w := .ite (hv.frame ⟨rfl, rfl⟩) hv
  have hx : Keeps s x := hw.bare
  refine .next ?_
  split
  · exact hu
  · split
    · split
      · exact hu
      · refine Keeps.setReg ?_
        exact hx.frame ⟨rfl, rfl⟩
    · exact .ite hu.reboot hu

theorem Keeps.coresReady (h : Keeps s t) : Keeps s (t.coresReady) := by
  unfold State.coresReady
  exact h.fold fun _ _ ku => ku.setCore

theorem Keeps.bootEnd (h : Keeps s t) : Keeps s (t.bootEnd) := by
  unfold State.bootEnd
  extract_lets u _ _' v w why valid t' x y
  have hu : Keeps s u := h.setRfld
  have hv : Keeps s v := hu.frame ⟨rfl, rfl⟩
  have hw : Keeps s w := hv.setRfld.coresReady
  have hx : Keeps s x := hw.setReg
  have hy : Keeps s y := hx.setReg.setReg
  exact .ite hy.setRfld hy.enterMode

theorem Keeps.bootFail (h : Keeps s t) : Keeps s (t.bootFail) := by
  unfold State.bootFail
  extract_lets m _ u v
  have hu : Keeps s u := h.frame ⟨rfl, rfl⟩
  have hv : Keeps s v := hu.bare
  refine Keeps.setReg ?_
  exact hv.frame ⟨rfl, rfl⟩

theorem Keeps.bootStep (h : Keeps s t) : Keeps s (t.bootStep) := by
  unfold State.bootStep
  exact .ite h.bootFail (.ite h (.ite h.bootEnd (.ite h h.calBegin)))

theorem Keeps.useRestart (h : Keeps s t) : Keeps s (t.consume) := by
  unfold State.consume
  extract_lets u _
  have hu : Keeps s u := h.setRfld
  exact hu.frame ⟨rfl, rfl⟩

theorem Keeps.resumeBegin (h : Keeps s t) : Keeps s (t.resumeBegin) := by
  unfold State.resumeBegin
  split
  · exact h
  · extract_lets u v w _
    have hu : Keeps s u := .ite h h.loadProgram
    have hv : Keeps s v := hu.restore
    have hw : Keeps s w := by
      unfold w
      refine hv.fold fun x _ hx => ?_
      split
      · exact .ite hx hx.setRing
      · exact hx
    exact hw.frame ⟨rfl, rfl⟩

theorem Keeps.resumeStep (h : Keeps s t) : Keeps s (t.resumeStep) := by
  unfold State.resumeStep
  split
  · exact h
  · extract_lets kind cause u goal _ v
    have hu : Keeps s u := .ite h.useRestart h.jLifeUp.setReg
    have hv : Keeps s v := hu.frame ⟨rfl, rfl⟩
    exact hv.enterMode

theorem Keeps.execSchedulerTick (h : Keeps s t) : OutKeeps s (execSchedulerTick t) := by
  unfold Machine.execSchedulerTick
  exact .next (.ite h.schedTick.resumeStep h.schedTick)

theorem Keeps.leavePair (h : Keeps s t) : Keeps s t.leavePair := by
  unfold State.leavePair
  extract_lets u v
  have hu : Keeps s u := h.fold fun _ _ k => k.setRing
  have hv : Keeps s v := hu.jUnmirror.dropResident.setRfld
  exact .ite hu hv.withPeer

theorem Keeps.modeDone (h : Keeps s t) {target cause : Nat} : Keeps s (t.modeDone target cause) := by
  unfold State.modeDone
  exact .ite h.reboot (.ite h.withStore.reboot (.ite (.ite h.resumeBegin h) (.ite h.useRestart.enterMode
    (.ite h.leavePair.enterMode h.enterMode))))

theorem Keeps.execModeTransitionComplete (h : Keeps s t) : OutKeeps s (execModeTransitionComplete t) := by
  unfold Machine.execModeTransitionComplete
  refine .next ?_
  split
  · exact h
  · split
    · exact .ite h.modeDone h
    · exact .ite h.bootStep h

theorem Keeps.execHoldupBegin (h : Keeps s t) {cause : HoldupCause} : OutKeeps s (execHoldupBegin cause t) := by
  unfold Machine.execHoldupBegin
  extract_lets _ a keep b x _ _ _ _ c d
  have ha : Keeps s a := .ite h.withModes.hiZ h
  have hb : Keeps s b := ha.meets
  have units : ∀ u i j k, Keeps s u → Keeps s { u with census := i, modes := j, brim := k } := fun _ _ _ _ h => h.frame ⟨rfl, rfl⟩
  have hc : Keeps s c := units _ _ _ _ hb.setRfld
  have hd : Keeps s d := hc.evrPowerfail.dropResident.setRfld
  exact .next (.ite ha (.ite hd.withStore hd))

theorem Keeps.execHoldupEnd (h : Keeps s t) : OutKeeps s (execHoldupEnd t) := by
  unfold Machine.execHoldupEnd
  refine .next ?_
  split
  · extract_lets m _ u v
    have hu : Keeps s u := .ite (h.frame ⟨rfl, rfl⟩) h
    have hv : Keeps s v := hu.bare
    refine Keeps.setReg ?_
    exact hv.frame ⟨rfl, rfl⟩
  · exact h

/-! ### Machine/Actions -/

theorem Keeps.execCueFire (h : Keeps s t) {n : Fin 4096} : OutKeeps s (execCueFire n t) := by
  unfold Machine.execCueFire
  exact .next h.fireIfDue

theorem Keeps.act (h : Keeps s t) {code n : Nat} {effect : Action → State → State} (he : ∀ a u, Keeps s u → Keeps s (effect a u)) :
    Keeps s (t.act code n effect) := by
  unfold State.act
  split
  · exact h
  · extract_lets u late _ v
    have hu : Keeps s u := h.frame ⟨rfl, rfl⟩
    have hv : Keeps s v := .ite hu hu.setCue
    exact .ite (he _ _ hv) h

theorem Keeps.execConv (h : Keeps s t) {n : Fin 4096} : OutKeeps s (execConv n t) := by
  unfold Machine.execConv
  exact .next (h.act fun _ _ ku => ku.startTo)

theorem Keeps.execPwmld (h : Keeps s t) {n : Fin 4096} : OutKeeps s (execPwmld n t) := by
  unfold Machine.execPwmld
  exact .next (h.act fun _ _ ku => ku.setPair)

theorem Keeps.cueOut (h : Keeps s t) {a : Action} {on : Bool} : Keeps s (t.cueOut a on) := by
  unfold State.cueOut
  extract_lets o v'
  split
  next u _ v he =>
    have hv := h.rankOrder.snd he
    exact .ite hv.storeCell hv

theorem Keeps.execOutset (h : Keeps s t) {n : Fin 4096} : OutKeeps s (execOutset n t) := by
  unfold Machine.execOutset
  exact .next (h.act fun _ _ ku => ku.cueOut)

theorem Keeps.execOutclr (h : Keeps s t) {n : Fin 4096} : OutKeeps s (execOutclr n t) := by
  unfold Machine.execOutclr
  exact .next (h.act fun _ _ ku => ku.cueOut)

theorem Keeps.execCaptrig (h : Keeps s t) {n : Fin 4096} : OutKeeps s (execCaptrig n t) := by
  unfold Machine.execCaptrig
  exact .next (h.act fun _ _ ku => ku.captureHit)

theorem Keeps.execCuePost (h : Keeps s t) {n : Fin 4096} : OutKeeps s (execCuePost n t) := by
  unfold Machine.execCuePost
  exact .next (h.act fun _ _ ku => ku.post)

theorem Keeps.execSpgrp (h : Keeps s t) {n : Fin 4096} : OutKeeps s (execSpgrp n t) := by
  unfold Machine.execSpgrp
  exact .next (h.act fun _ _ ku => ku.applyGroup)

theorem Keeps.execLaneen (h : Keeps s t) {n : Fin 4096} : OutKeeps s (execLaneen n t) := by
  unfold Machine.execLaneen
  exact .next (h.act fun _ _ ku => ku.orderLane)

theorem Keeps.execLanedis (h : Keeps s t) {n : Fin 4096} : OutKeeps s (execLanedis n t) := by
  unfold Machine.execLanedis
  exact .next (h.act fun _ _ ku => ku.orderLane)

theorem Keeps.execStepgo (h : Keeps s t) {n : Fin 4096} : OutKeeps s (execStepgo n t) := by
  unfold Machine.execStepgo
  exact .next (h.act fun _ _ ku => ku.setStep)

theorem Keeps.execLatch (h : Keeps s t) {n : Fin 4096} : OutKeeps s (execLatch n t) := by
  unfold Machine.execLatch
  exact .next (h.act fun _ _ ku => ku.latchBank)

/-! ### Machine/Arith -/

theorem Keeps.putRes (h : Keeps s t) {k d : Nat} {v : Word} {f : FlagSet} : ResKeeps s (putRes t k d v f) := by
  unfold Machine.putRes
  exact .next h.setG.flags

theorem Keeps.execAdd (h : Keeps s t) {c : CoreId} {f : RIF} : OutKeeps s (execAdd c f t) := by
  unfold Machine.execAdd
  exact h.runInstr fun _ _ ku => ku.putRes

theorem Keeps.execSub (h : Keeps s t) {c : CoreId} {f : RIF} : OutKeeps s (execSub c f t) := by
  unfold Machine.execSub
  exact h.runInstr fun _ _ ku => ku.putRes

theorem Keeps.execAdds (h : Keeps s t) {c : CoreId} {f : RIF} : OutKeeps s (execAdds c f t) := by
  unfold Machine.execAdds
  exact h.runInstr fun _ _ ku => ku.putRes

theorem Keeps.execSubs (h : Keeps s t) {c : CoreId} {f : RIF} : OutKeeps s (execSubs c f t) := by
  unfold Machine.execSubs
  exact h.runInstr fun _ _ ku => ku.putRes

theorem Keeps.execMul (h : Keeps s t) {c : CoreId} {f : RF} : OutKeeps s (execMul c f t) := by
  unfold Machine.execMul
  exact h.runInstr fun _ _ ku => ku.putRes

theorem Keeps.execMuls (h : Keeps s t) {c : CoreId} {f : RF} : OutKeeps s (execMuls c f t) := by
  unfold Machine.execMuls
  exact h.runInstr fun _ _ ku => ku.putRes

theorem Keeps.execMac (h : Keeps s t) {c : CoreId} {f : RF} : OutKeeps s (execMac c f t) := by
  unfold Machine.execMac
  refine h.runInstr fun _ u hu => ?_
  extract_lets x' r _ v
  have hv : Keeps s v := hu.setCore
  exact .next hv.flags

theorem Keeps.execDiv (h : Keeps s t) {c : CoreId} {f : RF} : OutKeeps s (execDiv c f t) := by
  unfold Machine.execDiv
  exact h.runInstr fun _ _ ku => .ite (.ite (.flt ku) ku.putRes) ku.putRes

theorem Keeps.execRem (h : Keeps s t) {c : CoreId} {f : RF} : OutKeeps s (execRem c f t) := by
  unfold Machine.execRem
  exact h.runInstr fun _ _ ku => .ite (.ite (.flt ku) ku.putRes) ku.putRes

theorem Keeps.execNeg (h : Keeps s t) {c : CoreId} {f : RF} : OutKeeps s (execNeg c f t) := by
  unfold Machine.execNeg
  exact h.runInstr fun _ _ ku => ku.putRes

theorem Keeps.execAbs (h : Keeps s t) {c : CoreId} {f : RF} : OutKeeps s (execAbs c f t) := by
  unfold Machine.execAbs
  exact h.runInstr fun _ _ ku => ku.putRes

theorem Keeps.execCmp (h : Keeps s t) {c : CoreId} {f : RIF} : OutKeeps s (execCmp c f t) := by
  unfold Machine.execCmp
  exact h.runInstr fun _ _ ku => .next ku.flags

theorem Keeps.execMin (h : Keeps s t) {c : CoreId} {f : RIF} : OutKeeps s (execMin c f t) := by
  unfold Machine.execMin
  exact h.runInstr fun _ _ ku => ku.putRes

theorem Keeps.execMax (h : Keeps s t) {c : CoreId} {f : RIF} : OutKeeps s (execMax c f t) := by
  unfold Machine.execMax
  exact h.runInstr fun _ _ ku => ku.putRes

theorem Keeps.execClamp (h : Keeps s t) {c : CoreId} {f : RF} : OutKeeps s (execClamp c f t) := by
  unfold Machine.execClamp
  exact h.runInstr fun _ _ ku => ku.putRes

/-! ### Machine/Bit -/

theorem Keeps.execAnd (h : Keeps s t) {c : CoreId} {f : RIF} : OutKeeps s (execAnd c f t) := by
  unfold Machine.execAnd
  exact h.runInstr fun _ _ ku => ku.putRes

theorem Keeps.execOr (h : Keeps s t) {c : CoreId} {f : RIF} : OutKeeps s (execOr c f t) := by
  unfold Machine.execOr
  exact h.runInstr fun _ _ ku => ku.putRes

theorem Keeps.execXor (h : Keeps s t) {c : CoreId} {f : RIF} : OutKeeps s (execXor c f t) := by
  unfold Machine.execXor
  exact h.runInstr fun _ _ ku => ku.putRes

theorem Keeps.execNot (h : Keeps s t) {c : CoreId} {f : RF} : OutKeeps s (execNot c f t) := by
  unfold Machine.execNot
  exact h.runInstr fun _ _ ku => ku.putRes

theorem Keeps.execShl (h : Keeps s t) {c : CoreId} {f : RF} : OutKeeps s (execShl c f t) := by
  unfold Machine.execShl
  exact h.runInstr fun _ _ ku => ku.putRes

theorem Keeps.execShr (h : Keeps s t) {c : CoreId} {f : RF} : OutKeeps s (execShr c f t) := by
  unfold Machine.execShr
  exact h.runInstr fun _ _ ku => ku.putRes

theorem Keeps.execSar (h : Keeps s t) {c : CoreId} {f : RF} : OutKeeps s (execSar c f t) := by
  unfold Machine.execSar
  exact h.runInstr fun _ _ ku => ku.putRes

theorem Keeps.execRot (h : Keeps s t) {c : CoreId} {f : RF} : OutKeeps s (execRot c f t) := by
  unfold Machine.execRot
  exact h.runInstr fun _ _ ku => ku.putRes

theorem Keeps.execBset (h : Keeps s t) {c : CoreId} {f : RF} : OutKeeps s (execBset c f t) := by
  unfold Machine.execBset
  exact h.runInstr fun _ _ ku => ku.putRes

theorem Keeps.execBclr (h : Keeps s t) {c : CoreId} {f : RF} : OutKeeps s (execBclr c f t) := by
  unfold Machine.execBclr
  exact h.runInstr fun _ _ ku => ku.putRes

theorem Keeps.execBtst (h : Keeps s t) {c : CoreId} {f : RF} : OutKeeps s (execBtst c f t) := by
  unfold Machine.execBtst
  exact h.runInstr fun _ _ ku => .next ku.flags

theorem Keeps.execBext (h : Keeps s t) {c : CoreId} {f : RF} : OutKeeps s (execBext c f t) := by
  unfold Machine.execBext
  exact h.runInstr fun _ _ ku => ku.putRes

theorem Keeps.execBins (h : Keeps s t) {c : CoreId} {f : RF} : OutKeeps s (execBins c f t) := by
  unfold Machine.execBins
  exact h.runInstr fun _ _ ku => ku.putRes

theorem Keeps.execClz (h : Keeps s t) {c : CoreId} {f : RF} : OutKeeps s (execClz c f t) := by
  unfold Machine.execClz
  exact h.runInstr fun _ _ ku => ku.putRes

theorem Keeps.execPopc (h : Keeps s t) {c : CoreId} {f : RF} : OutKeeps s (execPopc c f t) := by
  unfold Machine.execPopc
  exact h.runInstr fun _ _ ku => ku.putRes

/-! ### Machine/Float -/

theorem Keeps.fpOp (h : Keeps s t) {op : Nat} {g : Fp → Fp → Fp} {c : CoreId} {f : RF} : OutKeeps s (fpOp op g c f t) := by
  unfold Machine.fpOp
  exact h.runInstr fun _ _ ku => ku.putRes

theorem Keeps.execFadd (h : Keeps s t) {c : CoreId} {f : RF} : OutKeeps s (execFadd c f t) := by
  unfold Machine.execFadd
  exact h.fpOp

theorem Keeps.execFsub (h : Keeps s t) {c : CoreId} {f : RF} : OutKeeps s (execFsub c f t) := by
  unfold Machine.execFsub
  exact h.fpOp

theorem Keeps.execFmul (h : Keeps s t) {c : CoreId} {f : RF} : OutKeeps s (execFmul c f t) := by
  unfold Machine.execFmul
  exact h.fpOp

theorem Keeps.execFdiv (h : Keeps s t) {c : CoreId} {f : RF} : OutKeeps s (execFdiv c f t) := by
  unfold Machine.execFdiv
  exact h.fpOp

theorem Keeps.execFsqrt (h : Keeps s t) {c : CoreId} {f : RF} : OutKeeps s (execFsqrt c f t) := by
  unfold Machine.execFsqrt
  exact h.runInstr fun _ _ ku => ku.putRes

theorem Keeps.execFcmp (h : Keeps s t) {c : CoreId} {f : RF} : OutKeeps s (execFcmp c f t) := by
  unfold Machine.execFcmp
  exact h.runInstr fun _ _ ku => .next ku.flags

theorem Keeps.execFcvt (h : Keeps s t) {c : CoreId} {f : RF} : OutKeeps s (execFcvt c f t) := by
  unfold Machine.execFcvt
  exact h.runInstr fun _ _ ku => .ite (.next ku.setG) (.ite (.next ku.setG) (.ite (.next ku.setG.setG) (.next ku.setG)))

theorem Keeps.execFtoi (h : Keeps s t) {c : CoreId} {f : RF} : OutKeeps s (execFtoi c f t) := by
  unfold Machine.execFtoi
  refine h.runInstr fun _ u hu => ?_
  split
  · exact hu.putRes
  · exact hu.putRes

theorem Keeps.execItof (h : Keeps s t) {c : CoreId} {f : RF} : OutKeeps s (execItof c f t) := by
  unfold Machine.execItof
  exact h.runInstr fun _ _ ku => ku.putRes

/-! ### Machine/Flow -/

theorem Keeps.goTo (h : Keeps s t) {k : Nat} {t' : Word} : ResKeeps s (goTo t k t') := by
  unfold Machine.goTo
  exact .ite (.jump h) (.flt h)

theorem Keeps.execJ (h : Keeps s t) {c : CoreId} {f : JF} : OutKeeps s (execJ c f t) := by
  unfold Machine.execJ
  exact h.runInstr fun _ _ ku => ku.goTo

theorem Keeps.execJc (h : Keeps s t) {c : CoreId} {f : JF} : OutKeeps s (execJc c f t) := by
  unfold Machine.execJc
  exact h.runInstr fun _ _ ku => .ite ku.goTo (.next ku)

theorem Keeps.execCall (h : Keeps s t) {c : CoreId} {f : JF} : OutKeeps s (execCall c f t) := by
  unfold Machine.execCall
  exact h.runInstr fun _ _ ku => .ite (.flt ku) (.ite (.flt ku) (ku.emit fun _ ku => .jump ku.setCore))

theorem Keeps.execRet (h : Keeps s t) {c : CoreId} {f : RF} : OutKeeps s (execRet c f t) := by
  unfold Machine.execRet
  exact h.runInstr fun _ _ ku => .ite (.flt ku) (ku.consume fun _ _ ku => .ite (.jump ku.setCore) (.flt ku))

theorem Keeps.execCallfb (h : Keeps s t) {c : CoreId} {f : IF} : OutKeeps s (execCallfb c f t) := by
  unfold Machine.execCallfb
  refine h.runInstr fun k u hu => ?_
  extract_lets inst desc sp
  refine .ite (.flt hu) (.ite (.flt hu) (.ite (.flt hu) ?_))
  split
  next te pe v he =>
    have hv : Keeps s v := hu.readIn.thd he
    split
    next td pd w he =>
      have hw : Keeps s w := hv.readIn.thd he
      extract_lets entry
      refine .ite (.flt hw) ?_
      split
      next x pi y he =>
        have hy : Keeps s y := by
          split at he
          · split at he
            next ws p z hr =>
              cases he
              exact hw.readIn.thd hr
          · cases he
            exact hw.refuse
        exact .ite (.flt hy) (.ite (.flt hy) (.ite (.flt hy) (.ite (.flt hy) (hy.emit fun _ hz => .jump hz.setCore))))

theorem Keeps.execRetfb (h : Keeps s t) {c : CoreId} {f : RF} : OutKeeps s (execRetfb c f t) := by
  unfold Machine.execRetfb
  refine h.runInstr fun _ u hu => ?_
  extract_lets sp
  split
  · exact .flt hu
  · split
    · exact hu.consume fun _ _ kv => .flt kv
    · split
      next v _ _ w he =>
        have hw := hu.readIn.thd he
        split
        next x _ _ y he =>
          have hy := hw.readIn.thd he
          exact .ite (.flt hy) (.ite (.flt hy) (.jump hy.setCore))

theorem Keeps.execLoop (h : Keeps s t) {c : CoreId} {f : IF} : OutKeeps s (execLoop c f t) := by
  unfold Machine.execLoop
  exact h.runInstr fun _ _ ku => .ite (.next ku.setG) (.ite (.jump ku.setG) (.flt ku))

theorem Keeps.execTrap (h : Keeps s t) {c : CoreId} {f : RF} : OutKeeps s (execTrap c f t) := by
  unfold Machine.execTrap
  refine h.runInstr fun _ u hu => ?_
  split
  · exact .next hu
  · extract_lets t' pc tid v w
    have hv : Keeps s v := hu.fence
    have hw : Keeps s w := hv.runSuspend
    exact .ite (.left hw.eventEntry) (.next hu)

theorem Keeps.execNop (h : Keeps s t) {c : CoreId} {f : RF} : OutKeeps s (execNop c f t) := by
  unfold Machine.execNop
  exact h.runInstr fun _ _ ku => .next ku

theorem Keeps.execFence (h : Keeps s t) {c : CoreId} {f : RF} : OutKeeps s (execFence c f t) := by
  unfold Machine.execFence
  exact h.runInstr fun _ _ ku => .next ku.fence

/-! ### Machine/RingTime -/

theorem Keeps.ringApply (h : Keeps s t) {k : Nat} : Keeps s (t.ringApply k) := by
  unfold State.ringApply
  split
  · exact h
  · extract_lets x' pos u _
    have hu : Keeps s u := h.coordUpdate
    exact hu.setCoord

theorem Keeps.execRingUpdateApply (h : Keeps s t) {k : Fin 32} : OutKeeps s (execRingUpdateApply k t) := by
  unfold Machine.execRingUpdateApply
  exact .next h.ringApply

theorem Keeps.execMainsLockChange (h : Keeps s t) {k : Fin 32} {locked : Bool} {mHz : Word} {phase : BitVec 16} :
    OutKeeps s (execMainsLockChange k locked mHz phase t) := by
  unfold Machine.execMainsLockChange
  exact .next (.ite h h.setCoord)

theorem Keeps.takeStamps (h : Keeps s t) {r : Nat} {bs : List Byte} : Keeps s (t.takeStamps r bs) := by
  unfold State.takeStamps
  split
  · exact h
  · exact .ite h.setStation (.ite h.setStation h)

theorem Keeps.babble (h : Keeps s t) {r pos : Nat} : Keeps s (t.babble r pos) := by
  unfold State.babble
  extract_lets u
  have hu : Keeps s u := h.setRfld.setRfld.setRfld
  exact hu.crownEvent

theorem Keeps.tellDelays (h : Keeps s t) {r : Nat} : Keeps s (t.tellDelays r) := by
  unfold State.tellDelays
  split
  · exact h
  · refine h.fold fun u _ hu => ?_
    extract_lets x' near
    split
    exact .ite hu hu.setRing.mbxNews

theorem Keeps.endSweep (h : Keeps s t) {r n : Nat} : Keeps s (t.endSweep r n) := by
  unfold State.endSweep
  extract_lets ls fs x' far of suspects put u
  have hu : Keeps s u := h.setRing
  exact .ite h (hu.tellDelays.fold fun _ _ kv => kv.babble)

theorem Keeps.timeMaster (h : Keeps s t) : Keeps s (t.timeMaster) := by
  unfold State.timeMaster
  split
  · exact h
  · extract_lets u
    have hu : Keeps s u := h.timeLoad.setRfld
    exact hu.setReg.setReg

theorem Keeps.timeFollow (h : Keeps s t) : Keeps s (t.timeFollow) := by
  unfold State.timeFollow
  split
  · extract_lets u
    have hu : Keeps s u := h.fold fun _ _ kv => kv.setRing
    exact hu.setRfld
  · exact h

theorem Keeps.steer (h : Keeps s t) {cyclen : Nat} {theta : Int} : Keeps s (t.steer cyclen theta) := by
  unfold State.steer
  split
  next u _ v he =>
    have hv := h.drawWord.snd he
    split
    next w _ x he =>
      have hx := hv.drawWord.snd he
      extract_lets est need m inc
      refine Keeps.setReg ?_
      exact hx.frame ⟨rfl, rfl⟩

theorem Keeps.alignTo (h : Keeps s t) {r epoch cyclen : Nat} {theta : Int} : Keeps s (t.alignTo r epoch cyclen theta) := by
  unfold State.alignTo
  extract_lets loaded u v w x y x'
  have hu : Keeps s u := .ite h.steer h.timeLoad
  have hv : Keeps s v := hu.setRfld.setRfld
  have hw : Keeps s w := hv.setReg
  have hx : Keeps s x := hw.setReg
  have hy : Keeps s y := hx.tallyMax
  exact hy.setRing

theorem Keeps.freerun (h : Keeps s t) : Keeps s (t.freerun) := by
  unfold State.freerun
  exact .ite h.setRfld.setRfld h

theorem Keeps.epochMet (h : Keeps s t) {r epoch : Nat} : Keeps s (t.epochMet r epoch) := by
  unfold State.epochMet
  extract_lets x' known
  split
  · exact h
  · split
    · exact .ite h.setRing h
    · exact h.setRing.freerun

theorem Keeps.bandAlign (h : Keeps s t) {r : Nat} {portB : Bool} {arrival : Nat} {body : List Byte} :
    Keeps s (t.bandAlign r portB arrival body) := by
  unfold State.bandAlign
  extract_lets x' epoch cyclen
  split
  · exact h
  · split
    · split
      next u _ v he =>
        have hv := h.drawWord.snd he
        split
        next w _ x he =>
          have hx := hv.drawWord.snd he
          exact hx.setRing
    · extract_lets d theta
      split
      · exact h.alignTo
      · exact .ite h.alignTo h

theorem Keeps.execFreerunEntry (h : Keeps s t) : OutKeeps s (execFreerunEntry t) := by
  unfold Machine.execFreerunEntry
  exact .next (.ite h.freerun h)

/-! ### Machine/Node -/

theorem Keeps.portSend (h : Keeps s t) {m : Msg} : Keeps s (t.portSend m) := by
  unfold State.portSend
  exact .ite (h.frame ⟨rfl, rfl⟩) h

theorem Keeps.sendBand (h : Keeps s t) {r port : Nat} {body : List Byte} {tail : BitVec 24} : Keeps s (t.sendBand r port body tail) := by
  unfold State.sendBand
  exact h.portSend

theorem Keeps.forwardBand (h : Keeps s t) {r : Nat} {portB : Bool} {body : List Byte} {tail : BitVec 24} :
    Keeps s (t.forwardBand r portB body tail) := by
  unfold State.forwardBand
  exact h.sendBand

theorem Keeps.badBlk (h : Keeps s t) {r : Nat} : Keeps s (t.badBlk r) := by
  unfold State.badBlk
  exact h.setReg

theorem Keeps.framed (h : Keeps s t) {r : Nat} {f : RingFrame} : Keeps s (t.framed r f) := by
  unfold State.framed
  exact .ite h h.badBlk

theorem Keeps.nodeOf (h : Keeps s t) {r segment : Nat} : Keeps s (t.nodeOf r segment).2 := by
  unfold State.nodeOf
  split
  · exact h
  · split
    next u _ v he =>
      have hv := h.drawWord.snd he
      split
      next w _ x he =>
        have hx := hv.drawWord.snd he
        split
        next y _ z he =>
          have hz := hx.drawWord.snd he
          extract_lets delay n _
          exact hz.setRing

theorem Keeps.setNode (h : Keeps s t) {r : Nat} {n : Node} : Keeps s (t.setNode r n) := by
  unfold State.setNode
  exact h.setRing

theorem Keeps.departs (h : Keeps s t) {n : Node} {portB : Bool} {arrival : Nat} : Keeps s (t.departs n portB arrival).2 := by
  unfold State.departs
  split
  next u _ v he =>
    have hv := h.drawWord.snd he
    exact hv

theorem Keeps.nodeCounts (h : Keeps s t) {r k : Nat} : Keeps s (t.nodeCounts r k) := by
  unfold State.nodeCounts
  split
  · exact .ite h h.setNode
  · exact h

theorem Keeps.nodeMessage (h : Keeps s t) {r : Nat} {m : MbxMsg} : Keeps s (t.nodeMessage r m) := by
  unfold State.nodeMessage
  split
  · exact h
  · extract_lets u
    have hu : Keeps s u := h.produce.deliver
    split
    · split
      · exact hu.mbxSend
      · exact hu
    · split
      next v _ w he =>
        have hw := hu.drawWord.snd he
        split
        · exact hw.mbxDeliver
        · split
          · exact hw.setNode
          · split
            next x _ y he =>
              have hy := hw.drawWord.snd he
              split
              next z _ u1 he =>
                have hu1 := hy.drawWord.snd he
                split
                next v1 _ w1 he =>
                  have hw1 := hu1.drawWord.snd he
                  exact hw1.setNode

theorem Keeps.nodeHears (h : Keeps s t) {r : Nat} {m : MbxMsg} : Keeps s (t.nodeHears r m) := by
  unfold State.nodeHears
  split
  · exact h
  · exact .ite h h.setNode.nodeMessage

theorem Keeps.nodeAppends (h : Keeps s t) {r a mbx : Nat} {area : List Byte} {puts : Tab (Option Byte)} :
    Keeps s (t.nodeAppends r a mbx area puts).2 := by
  unfold State.nodeAppends
  extract_lets x' fill
  split
  · exact h
  · exact .iteSnd h h.setRing.deliver

theorem Keeps.nodeMailbox (h : Keeps s t) {r : Nat} {body : List Byte} {puts : Tab (Option Byte)} :
    Keeps s (t.nodeMailbox r body puts).2 := by
  unfold State.nodeMailbox
  extract_lets a mbx area
  split
  · exact h
  · split
    · exact h
    · extract_lets mine puts'
      split
      next u _ v he =>
        have hv := h.nodeAppends.snd he
        exact hv.fold fun _ _ kw => .ite kw.nodeHears kw

theorem Keeps.nodeBand (h : Keeps s t) {r : Nat} {portB : Bool} {arrival : Nat} {body : List Byte} :
    Keeps s (t.nodeBand r portB arrival body).2 := by
  unfold State.nodeBand
  split
  · exact h
  · extract_lets cycle cyc last
    split
    next u _ v he =>
      have hv := h.departs.snd he
      extract_lets n seen mark puts puts' n' n''
      split
      next w _ x he =>
        have hx := hv.setNode.nodeMailbox.snd he
        exact hx

theorem Keeps.nodeProbe (h : Keeps s t) {r : Nat} {portB : Bool} {arrival : Nat} {body : List Byte} :
    Keeps s (t.nodeProbe r portB arrival body).2 := by
  unfold State.nodeProbe
  split
  · exact h
  · extract_lets cycle
    split
    next u _ v he =>
      have hv := h.departs.snd he
      extract_lets w
      have hw : Keeps s w := hv.setNode
      split
      · exact .iteSnd hw hw
      · exact hw

theorem Keeps.nodeHeader (h : Keeps s t) {r : Nat} {portB : Bool} {arrival : Nat} {body : List Byte} :
    Keeps s (t.nodeHeader r portB arrival body) := by
  unfold State.nodeHeader
  split
  · exact h
  · extract_lets cycle asked stamps missed gap
    split
    next u _ v he =>
      have hv := h.departs.snd he
      extract_lets n n' out w
      have hw : Keeps s w := by
        unfold w
        split
        · exact .ite hv hv.sendBand
        · exact hv
      split
      next x _ y he =>
        have hy := hw.drawWord.snd he
        extract_lets limit
        split
        · exact hy.setNode.sendBand
        · exact hy.setNode

theorem Keeps.nodeSlot (h : Keeps s t) {r : Nat} {portB : Bool} {body : List Byte} : Keeps s (t.nodeSlot r portB body) := by
  unfold State.nodeSlot
  split
  · exact h
  · split
    · exact .ite h h.setNode
    · exact h

theorem Keeps.nodeDyn (h : Keeps s t) {r : Nat} {body : List Byte} : Keeps s (t.nodeDyn r body) := by
  unfold State.nodeDyn
  split
  · exact h
  · extract_lets nb bs
    split
    · exact h
    · refine h.fold fun u _ hu => ?_
      extract_lets m v
      have hv : Keeps s v := hu.nodeHears
      split
      · split
        · exact hv.setNode
        · exact hv
      · exact .ite hu.mbxAcked hu

theorem Keeps.nodeFrame (h : Keeps s t) {r : Nat} {portB : Bool} {arrival : Nat} {tail : BitVec 24} {body : List Byte} :
    Keeps s (t.nodeFrame r portB arrival tail body) := by
  unfold State.nodeFrame
  extract_lets kind x epoch fresh first u v _ w
  have hu : Keeps s u := .ite h.setRing h
  have hv : Keeps s v := hu.epochMet
  have hw : Keeps s w := hv.setRing
  have hcounts : Keeps s (match x.parent, x.node with
      | true, some _ => t.nodeCounts r 1
      | _, _ => t) := by
    split
    · exact h.nodeCounts
    · exact h
  refine .ite (Keeps.ite h.nodeSlot h).forwardBand (.ite (Keeps.ite h.nodeDyn h).forwardBand (.ite hcounts.forwardBand (.ite ?_ ?_)))
  · refine .ite ?_ h.forwardBand
    split
    next f y he => exact (h.nodeProbe.snd he).forwardBand
  · refine .ite h.forwardBand (.ite hv.forwardBand (.ite hv.nodeCounts.forwardBand (.ite hw.bandAlign.forwardBand ?_)))
    split
    next n y he =>
      have hy : Keeps s y := hw.nodeOf.snd he
      extract_lets z z1
      have hz : Keeps s z := hy.setNode.bandAlign
      have hz1 : Keeps s z1 := .ite hz.bandTrigger hz
      refine .ite hy.forwardBand (.ite hz1.forwardBand.nodeHeader ?_)
      split
      next f y1 he => exact (hz1.nodeBand.snd he).forwardBand

/-! ### Machine/RingEvents -/

theorem Keeps.slotsRefit (h : Keeps s t) {r : Nat} : Keeps s (t.slotsRefit r) := by
  unfold State.slotsRefit
  exact h.fold fun _ _ ku => .ite ku.setReg ku

theorem Keeps.unassemble (h : Keeps s t) {r : Nat} : Keeps s (t.unassemble r) := by
  unfold State.unassemble
  exact .ite h.drop.setRing h

theorem Keeps.configEffect (h : Keeps s t) {r : Nat} {c : RingCfg} : Keeps s (t.configEffect r c) := by
  unfold State.configEffect
  extract_lets x' same st u v w x
  have hu : Keeps s u := h.unassemble
  have hv : Keeps s v := hu.setRing
  have hw : Keeps s w := hv.setReg.setReg
  have hx : Keeps s x := hw.setReg.setReg
  exact hx.slotsRefit

theorem Keeps.effectDue (h : Keeps s t) {r : Nat} : Keeps s (t.effectDue r) := by
  unfold State.effectDue
  split
  · exact h
  · split
    · exact h
    · split
      · exact h.configEffect
      · exact h

theorem Keeps.sendCycle (h : Keeps s t) {r : Nat} {c : RingCfg} : Keeps s (t.sendCycle r c) := by
  unfold State.sendCycle
  extract_lets x'
  split
  · split
    extract_lets u v
    have hu : Keeps s u := h.setRing
    have hv : Keeps s v := hu.fold fun _ _ kw => kw.sendBand
    exact .ite (hv.fold fun _ _ kw => kw.sendBand) hv.sendBand
  · exact .ite h.sendBand.sendBand h.sendBand.sendBand

theorem Keeps.countCycle (h : Keeps s t) {r : Nat} {c : RingCfg} : Keeps s (t.countCycle r c) := by
  unfold State.countCycle
  extract_lets x' n bad k u v _
  have hu : Keeps s u := h.produce
  have hv : Keeps s v := hu.deliver.drop
  exact hv.setRing.produce

theorem Keeps.settleBlocks (h : Keeps s t) {r : Nat} {c : RingCfg} {out : Nat → Bool} : Keeps s (t.settleBlocks r c out) := by
  unfold State.settleBlocks
  extract_lets x' ks stored out' bad late u v
  have hu : Keeps s u := h.deliver.drop.drop
  have hv : Keeps s v := hu.setRing
  exact .ite h (.ite hv hv.setReg.tallyAdd)

theorem Keeps.settleEnd (h : Keeps s t) {r : Nat} : Keeps s (t.settleEnd r) := by
  unfold State.settleEnd
  split
  · exact h.settleBlocks
  · exact h

theorem Keeps.cycleBegin (h : Keeps s t) {r t' : Nat} : Keeps s (t.cycleBegin r t') := by
  unfold State.cycleBegin
  split
  · exact h
  · extract_lets x' u n v w x y x'' enter leave z time u1 v1 w1
    have hu : Keeps s u := .ite h.setRing h
    have hv : Keeps s v := .ite hu.setRing hu
    have hw : Keeps s w := hv.settleEnd
    have hx : Keeps s x := .ite hw.endSweep hw
    have hy : Keeps s y := .ite hx hx.assemble
    have hz : Keeps s z := .ite hy.incReg hy
    have hu1 : Keeps s u1 := hz.setRing
    have hv1 : Keeps s v1 := hu1.countCycle.sendCycle
    have hw1 : Keeps s w1 := hv1.tallyAdd
    exact .ite hw1.tallyAdd hw1

theorem Keeps.execCycleStart (h : Keeps s t) {r : Fin 2} : OutKeeps s (execCycleStart r t) := by
  unfold Machine.execCycleStart
  refine .next ?_
  split
  · exact h
  · split
    · exact h
    · extract_lets u
      have hu : Keeps s u := h.effectDue
      exact .ite hu.cycleBegin hu

theorem Keeps.execRingConfigEffect (h : Keeps s t) {r : Fin 2} : OutKeeps s (execRingConfigEffect r t) := by
  unfold Machine.execRingConfigEffect
  exact .next h.effectDue

theorem Keeps.execOutputAssembly (h : Keeps s t) {r : Fin 2} : OutKeeps s (execOutputAssembly r t) := by
  unfold Machine.execOutputAssembly
  extract_lets r' x'
  refine .next ?_
  split
  · exact h
  · exact .ite h h.assemble

theorem Keeps.writeRx (h : Keeps s t) {r : Nat} {c : RingCfg} {out : Nat → Bool} : Keeps s (t.writeRx r c out) := by
  unfold State.writeRx
  extract_lets x' late
  refine h.fold fun u _ hu => ?_
  split
  split
  · exact hu
  · split
    · exact .ite hu hu.bandPut
    · exact hu

theorem Keeps.stationEvent (h : Keeps s t) {r p reason : Nat} {w0 : Word} {addr : Nat} : Keeps s (t.stationEvent r p reason w0 addr) := by
  unfold State.stationEvent
  exact .ite h.crownEvent (h.crownEvent.frame ⟨rfl, rfl⟩)

theorem Keeps.openStation (h : Keeps s t) {r : Nat} {c : RingCfg} {out : Nat → Bool} {p : Nat} : Keeps s (t.openStation r c out p) := by
  unfold State.openStation
  extract_lets old addr after drop back
  split
  extract_lets lost x' x'' u v w x
  have hu : Keeps s u := h.setStation.tallyAdd
  have hv : Keeps s v := .ite hu.stationEvent hu
  have hw : Keeps s w := .ite hv.stationEvent hv
  have hx : Keeps s x := .ite hw.stationEvent hw
  exact hx.fold fun _ _ ky => .ite ky.coordHold (.ite ky.ringApply (.ite ky ky.coordStale))

theorem Keeps.locate (h : Keeps s t) {r : Nat} {c : RingCfg} {rises : List Nat} : Keeps s (t.locate r c rises) := by
  unfold State.locate
  extract_lets x n up own near f w
  clear_value f
  split
  · exact h.setRing
  · exact .ite h.setReg.setRing.babble h.setReg.setRing

theorem Keeps.statusTable (h : Keeps s t) {r : Nat} {c : RingCfg} : Keeps s (t.statusTable r c) := by
  unfold State.statusTable
  extract_lets x' base u
  have hu : Keeps s u := by
    unfold u
    refine h.fold fun v _ hv => ?_
    extract_lets p t'
    split
    exact hv.agentWrite
  exact hu.agentWrite

theorem Keeps.openCells (h : Keeps s t) {r : Nat} {c : RingCfg} : Keeps s (t.openCells r c) := by
  unfold State.openCells
  extract_lets at0
  refine h.fold fun u _ hu => ?_
  extract_lets w' n
  split
  · extract_lets t' v' v
    have hv : Keeps s v := hu.setReg.setRfld.setRfld
    exact .ite (hv.fold fun _ _ kw => kw.histEntry) hu.setRfld.satRfld
  · exact hu

theorem Keeps.judgeLoop (h : Keeps s t) {r : Nat} {c : RingCfg} : Keeps s (t.judgeLoop r c) := by
  unfold State.judgeLoop
  exact .ite h.setRing h.setRing

theorem Keeps.openWindow (h : Keeps s t) {r : Nat} {c : RingCfg} : Keeps s (t.openWindow r c) := by
  unfold State.openWindow
  extract_lets olds x' out u a v w news x y x'' z u1 v1 x₁ w1 _ x1
  have hu : Keeps s u := h.settleBlocks.writeRx
  have hv : Keeps s v := hu.fold fun _ _ ky1 => .ite ky1.takeStamps ky1
  have hw : Keeps s w := hv.fold fun _ _ ky1 => ky1.openStation
  have hx : Keeps s x := hw.locate
  have hy : Keeps s y := hx.judgeLoop
  have hz : Keeps s z := .ite hy.endSweep hy
  have hu1 : Keeps s u1 := hz.openCells.statusTable
  have hv1 : Keeps s v1 := hu1.mbxReturn
  have hw1 : Keeps s w1 := hv1.setRing
  have hx1 : Keeps s x1 := hw1.frame ⟨rfl, rfl⟩
  exact hx1.resumeStep

theorem Keeps.execWindowOpening (h : Keeps s t) {r : Fin 2} : OutKeeps s (execWindowOpening r t) := by
  unfold Machine.execWindowOpening
  refine .next ?_
  split
  · exact h
  · exact .ite h h.openWindow

theorem Keeps.sendClaim (h : Keeps s t) {r : Nat} : Keeps s (t.sendClaim r) := by
  unfold State.sendClaim
  split
  · extract_lets f u
    have hu : Keeps s u := .ite h h.sendBand
    exact .ite hu hu.sendBand
  · exact h

theorem Keeps.execRingStart (h : Keeps s t) {r : Fin 2} : OutKeeps s (execRingStart r t) := by
  unfold Machine.execRingStart
  extract_lets x' u
  have hu : Keeps s u := h.setRing
  exact .next (.ite h hu.setReg.setReg.sendClaim)

theorem Keeps.execClaimRepeat (h : Keeps s t) {r : Fin 2} : OutKeeps s (execClaimRepeat r t) := by
  unfold Machine.execClaimRepeat
  extract_lets x'
  refine .next ?_
  split
  · exact .ite h h.setRing.sendClaim
  · exact h

theorem Keeps.ringOut (h : Keeps s t) {r : Nat} {parent : Bool} : Keeps s (t.ringOut r parent) := by
  unfold State.ringOut
  extract_lets u x'
  have hu : Keeps s u := h.settleEnd.unassemble.timeFollow
  exact hu.setRing

theorem Keeps.enterStandby (h : Keeps s t) {cause : Nat} : Keeps s (t.enterStandby cause) := by
  unfold State.enterStandby
  extract_lets u v _ w
  have hu : Keeps s u := h.ringOut.ringOut
  have hv : Keeps s v := hu.useRestart
  have hw : Keeps s w := .ite (hv.frame ⟨rfl, rfl⟩) hu
  exact .ite hw hw.beginTransition

theorem Keeps.claimLost (h : Keeps s t) {r result key : Nat} : Keeps s (t.claimLost r result key) := by
  unfold State.claimLost
  extract_lets u v w
  have hu : Keeps s u := h.setReg
  have hv : Keeps s v := hu.setReg
  have hw : Keeps s w := .ite hv.useRestart hv
  exact .ite hw.ringOut hv.enterStandby

theorem Keeps.execClaimReceived (h : Keeps s t) {r : Fin 2} {portB : Bool} {f : RingFrame} :
    OutKeeps s (execClaimReceived r portB f t) := by
  unfold Machine.execClaimReceived
  extract_lets r' body u x' b key met seen
  have hu : Keeps s u := h.framed
  refine .next ?_
  split
  · exact hu
  · split
    · split
      · exact hu.forwardBand
      · split
        · exact hu.forwardBand.claimLost
        · split
          · exact hu.setRing
          · exact hu
    · exact .ite hu.setRing.nodeCounts.forwardBand hu

theorem Keeps.execClaimEnd (h : Keeps s t) {r : Fin 2} : OutKeeps s (execClaimEnd r t) := by
  unfold Machine.execClaimEnd
  extract_lets r' x' u key v _
  have hu : Keeps s u := h.timeMaster
  have hv : Keeps s v := hu.setReg.setReg
  refine .next ?_
  split
  · exact h
  · exact .ite h hv.setRing

theorem Keeps.foreign (h : Keeps s t) {r epoch : Nat} : Keeps s (t.foreign r epoch) := by
  unfold State.foreign
  extract_lets x' m u _ v w x
  have hu : Keeps s u := h.ringOut
  have hv : Keeps s v := hu.setRing
  have hw : Keeps s w := hv.crownEvent
  have hx : Keeps s x := hw.jUnmirror.dropResident.setRfld
  exact .ite h.claimLost (.ite h (.ite hx.setRfld.enterStandby (.ite hw.enterStandby (.ite hw.ringOut hw.enterStandby))))

theorem Keeps.execForeignBand (h : Keeps s t) {r : Fin 2} {epoch : BitVec 16} : OutKeeps s (execForeignBand r epoch t) := by
  unfold Machine.execForeignBand
  exact .next h.foreign

theorem Keeps.takeBlocks (h : Keeps s t) {r copy i0 a n : Nat} {body : List Byte} {headOk : Bool} :
    Keeps s (t.takeBlocks r copy i0 a n body headOk) := by
  unfold State.takeBlocks
  exact h.fold fun _ _ ku => ku.takeBlock

theorem Keeps.strayFrame (h : Keeps s t) {r : Nat} : Keeps s (t.strayFrame r) := by
  unfold State.strayFrame
  extract_lets u
  have hu : Keeps s u := h.setReg
  exact hu.babble

theorem Keeps.ownBand (h : Keeps s t) {r : Nat} {c : RingCfg} {portB : Bool} {arrival : Nat} {body : List Byte} :
    Keeps s (t.ownBand r c portB arrival body) := by
  unfold State.ownBand
  extract_lets x' half whole u x'' x₁ x₂ v
  have hu : Keeps s u := .ite h.takeBlocks h
  have hv : Keeps s v := hu.setRing
  exact .ite hv.babble hv

theorem Keeps.probeBack (h : Keeps s t) {r arrival : Nat} {body : List Byte} : Keeps s (t.probeBack r arrival body) := by
  unfold State.probeBack
  extract_lets x' u
  have hu : Keeps s u := h.setRing
  exact .ite hu.takeStamps hu

theorem Keeps.ownHeader (h : Keeps s t) {r : Nat} {c : RingCfg} {portB : Bool} {arrival : Nat} {body : List Byte} :
    Keeps s (t.ownHeader r c portB arrival body) := by
  unfold State.ownHeader
  exact h.setRing

theorem Keeps.badHeader (h : Keeps s t) {r : Nat} {c : RingCfg} {portB : Bool} {arrival : Nat} {body : List Byte} :
    Keeps s (t.badHeader r c portB arrival body) := by
  unfold State.badHeader
  extract_lets x'
  split
  · exact h
  · split
    · exact h.takeBlocks
    · split
      · exact h.takeBlocks
      · exact h

theorem Keeps.slotFrame (h : Keeps s t) {r : Nat} {c : RingCfg} {portB : Bool} {arrival : Nat} {body : List Byte} :
    Keeps s (t.slotFrame r c portB arrival body) := by
  unfold State.slotFrame
  extract_lets x' n nb bs area
  split
  · exact h.badHeader
  · split
    · exact .ite h.setRing h
    · split
      · split
        · exact .ite h h.takeBlocks
        · exact h.strayFrame
      · split
        · exact h
        · refine h.fold fun u _ hu => ?_
          extract_lets m v x''
          have hv : Keeps s v := hu.mbxAppended
          exact .ite hu.mbxAcked (.ite hv.setRing (.ite hu.takeStamps hu))

theorem Keeps.masterFrame (h : Keeps s t) {r : Nat} {c : RingCfg} {portB : Bool} {arrival : Nat} {tail : BitVec 24} {body : List Byte} :
    Keeps s (t.masterFrame r c portB arrival tail body) := by
  unfold State.masterFrame
  exact .ite h.slotFrame (.ite h.badHeader (.ite h.foreign.forwardBand (.ite (.ite h (.ite h.ownBand h.ownHeader)) (.ite
    (.ite h.probeBack h) (.ite h h.strayFrame)))))

theorem Keeps.bodyArrives (h : Keeps s t) {r : Nat} {portB : Bool} {arrival : Nat} {tail : BitVec 24} {body : List Byte} :
    Keeps s (t.bodyArrives r portB arrival tail body) := by
  unfold State.bodyArrives
  extract_lets x'
  split
  · exact h.masterFrame
  · exact .ite (.ite h.claimLost h.forwardBand) (.ite h.nodeFrame h)

theorem Keeps.execBandFrameReceived (h : Keeps s t) {r : Fin 2} {portB : Bool} {arrival : Nat} {f : RingFrame} :
    OutKeeps s (execBandFrameReceived r portB arrival f t) := by
  unfold Machine.execBandFrameReceived
  extract_lets x' u
  have hu : Keeps s u := h.framed
  exact .next (.ite h (.ite hu.bodyArrives hu))

theorem Keeps.execPortLost (h : Keeps s t) {r : Fin 2} {portB : Bool} : OutKeeps s (execPortLost r portB t) := by
  unfold Machine.execPortLost
  extract_lets x' u
  have hu : Keeps s u := h.setRing
  exact .next (.ite hu hu.portSend)

theorem Keeps.execPortRestored (h : Keeps s t) {r : Fin 2} {portB : Bool} : OutKeeps s (execPortRestored r portB t) := by
  unfold Machine.execPortRestored
  extract_lets x' u
  have hu : Keeps s u := h.setRing
  exact .next (.ite h (.ite hu.portSend hu))

/-! ### Machine/Pair -/

theorem Keeps.pairForm (h : Keeps s t) {args : List Word} : Keeps s (t.pairForm args) := by
  unfold State.pairForm
  extract_lets w' u v w
  have hu : Keeps s u := h.setReg.setReg
  have hv : Keeps s v := hu.setReg
  have hw : Keeps s w := hv.frame ⟨rfl, rfl⟩
  exact .ite hw.ringOut.ringOut.beginTransition hw

theorem Keeps.execHeartbeatSend (h : Keeps s t) : OutKeeps s (execHeartbeatSend t) := by
  unfold Machine.execHeartbeatSend
  exact .next (.ite (h.frame ⟨rfl, rfl⟩) h)

theorem Keeps.pairAlign (h : Keeps s t) {d : Int} : Keeps s (t.pairAlign d) := by
  unfold State.pairAlign
  split
  · extract_lets u _
    have hu : Keeps s u := h.timeLoad
    refine Keeps.setRfld ?_
    exact hu.frame ⟨rfl, rfl⟩
  · extract_lets u v w _
    have hu : Keeps s u := h.steer.setRfld
    have hv : Keeps s v := hu.setReg
    have hw : Keeps s w := hv.setReg
    exact hw.frame ⟨rfl, rfl⟩

theorem Keeps.setCpok (h : Keeps s t) : Keeps s (t.setCpok) := by
  unfold State.setCpok
  exact .ite h.setRfld h

theorem Keeps.pairGood (h : Keeps s t) : Keeps s (t.pairGood) := by
  unfold State.pairGood
  extract_lets _ u
  have hu : Keeps s u := h.frame ⟨rfl, rfl⟩
  exact hu.setRfld

theorem Keeps.execHeartbeatReceive (h : Keeps s t) {h' : Heartbeat} : OutKeeps s (execHeartbeatReceive h' t) := by
  unfold Machine.execHeartbeatReceive
  refine .next ?_
  split
  · extract_lets u _ v
    have hu : Keeps s u := h.pairGood
    have hv : Keeps s v := hu.frame ⟨rfl, rfl⟩
    exact .ite hv.pairAlign.setCpok hv
  · exact h

theorem Keeps.execPairWatchdogExpiry (h : Keeps s t) : OutKeeps s (execPairWatchdogExpiry t) := by
  unfold Machine.execPairWatchdogExpiry
  exact .next (.ite (.cellsOff (h.frame ⟨rfl, rfl⟩)) h)

theorem Keeps.endInterval (h : Keeps s t) : Keeps s (t.endInterval) := by
  unfold State.endInterval
  split
  · exact h
  · extract_lets us u
    have hu : Keeps s u := h.setRfld
    exact .ite hu hu.setRfld

theorem Keeps.pairRecords (h : Keeps s t) {ls : List Nat} : Keeps s (t.pairRecords ls).2 := by
  unfold State.pairRecords
  exact .foldSnd h fun _ _ hq => hq.portRead

theorem Keeps.cut (h : Keeps s t) : Keeps s t.cut := by
  unfold State.cut
  extract_lets u v full lines number _
  have hu : Keeps s u := h.endInterval
  have hv : Keeps s v := hu.agentWrite
  refine .ite h ?_
  split
  next recs w he =>
    have hw : Keeps s w := hv.withPeer.pairRecords.snd he
    extract_lets recs' _ x y z
    have hx : Keeps s x := hw.frame ⟨rfl, rfl⟩
    have hy : Keeps s y := hx.produce.setRfld
    exact .ite hy.satRfld.crownEvent hy

theorem Keeps.execCensusInstant (h : Keeps s t) : OutKeeps s (execCensusInstant t) := by
  unfold Machine.execCensusInstant
  refine .next ?_
  split
  · extract_lets whole u
    have hu : Keeps s u := h.censusTake
    exact .ite hu.cut hu
  · exact h

theorem Keeps.cutLost (h : Keeps s t) : Keeps s (t.cutLost) := by
  unfold State.cutLost
  extract_lets n
  split
  next u _ v he =>
    have hv := h.drawWord.snd he
    exact hv.deliver.drop

theorem Keeps.cutAgain (h : Keeps s t) : Keeps s (t.cutAgain) := by
  unfold State.cutAgain
  exact h.frame ⟨rfl, rfl⟩

theorem Keeps.execCheckpointAck (h : Keeps s t) {number : Word} {accepted : Bool} :
    OutKeeps s (execCheckpointAck number accepted t) := by
  unfold Machine.execCheckpointAck
  extract_lets u n v w
  have hu : Keeps s u := h.pairGood
  have hv : Keeps s v := hu.deliver.setReg
  have hw : Keeps s w := hv.setReg.setRfld
  exact .next (.ite h (.ite hw.withPeer hu.cutLost.incReg.cutAgain))

theorem Keeps.recordBad (h : Keeps s t) : Keeps s (t.recordBad) := by
  unfold State.recordBad
  exact h.produce.drop

theorem Keeps.execCheckpointRecord (h : Keeps s t) {mirror : Bool} {bytes : List Byte} :
    OutKeeps s (execCheckpointRecord mirror bytes t) := by
  unfold Machine.execCheckpointRecord
  extract_lets u _ v x p w q
  have hu : Keeps s u := h.recordBad
  have hv : Keeps s v := h.pairGood
  have hw : Keeps s w := hv.produce.deliver
  have both : ∀ u a b, Keeps s u → Keeps s { u with outbox := a, peer := b } := fun _ _ _ h => h.frame ⟨rfl, rfl⟩
  exact .next (.ite h (.ite (.ite h hu.withPeer) (.ite (both _ _ _ hv) hw.withPeer)))

theorem Keeps.commitLine (h : Keeps s t) {e : Nat × Nat × List Word} : Keeps s (t.commitLine e) := h.trans (commitLine_keeps ..)

theorem Keeps.commit (h : Keeps s t) {number : Word} {lines : Nat} : Keeps s (t.commit number lines) := by
  unfold State.commit
  extract_lets u us v w _
  have hu : Keeps s u := h.fold fun _ _ k => k.commitLine
  have hv : Keeps s v := hu.setReg
  have hw : Keeps s w := hv.setReg
  exact .setCpok (hw.frame ⟨rfl, rfl⟩)

theorem Keeps.execCheckpointEnd (h : Keeps s t) {bytes : List Byte} : OutKeeps s (execCheckpointEnd bytes t) := by
  unfold Machine.execCheckpointEnd
  refine .next ?_
  split
  · exact h
  · extract_lets good number u v w _
    have hu : Keeps s u := .ite h.pairGood h.recordBad
    have hv : Keeps s v := hu.commit
    have hw : Keeps s w := hu.incReg
    exact .ite (hv.frame ⟨rfl, rfl⟩) (hw.frame ⟨rfl, rfl⟩)

theorem Keeps.execCompareFailure (h : Keeps s t) {kind : BitVec 4} {index : BitVec 10} : OutKeeps s (execCompareFailure kind index t) := by
  unfold Machine.execCompareFailure
  refine .next ?_
  split
  · exact h
  · extract_lets u v
    have hu : Keeps s u := h.setRfld.setRfld
    have hv : Keeps s v := hu.setRfld.faultKind
    exact .ite hu (.ite hv.pairFail hv.halt)

theorem Keeps.crownRestore (h : Keeps s t) : Keeps s (t.crownRestore) := by
  unfold State.crownRestore
  extract_lets own mine theirs
  refine h.fold fun u _ hu => ?_
  split
  next v _ _ w he =>
    have hw := hu.agentRead.thd he
    exact hw.lineWrite

theorem Keeps.mirrorRestore (h : Keeps s t) {e : Nat × Nat × List Word} : Keeps s (t.mirrorRestore e) := by
  unfold State.mirrorRestore
  split
  · extract_lets u h'
    have hu : Keeps s u := h.portPut
    exact .ite hu.setReg hu
  · exact h

theorem Keeps.reserveOpen (h : Keeps s t) : Keeps s t.reserveOpen := by
  unfold State.reserveOpen
  refine h.fold fun u _ hu => ?_
  extract_lets v
  have hv : Keeps s v := .getD hu fun _ e => hu.jRoom e
  refine .ite hu ?_
  split
  next _ _ _ he => exact (hv.jFreeLine he).jPut
  · exact hu

theorem Keeps.unitsLoad (h : Keeps s t) {u : Units} : Keeps s (t.unitsLoad u) := by
  unfold State.unitsLoad
  extract_lets v w x y z ax u1 v1 w1 x1 y1 z1
  have hv : Keeps s v := h.fold fun _ _ ku2 => ku2.setReg
  have hw : Keeps s w := hv.fold fun _ _ ku2 => ku2.setReg
  have hx : Keeps s x := hw.frame ⟨rfl, rfl⟩
  have hy : Keeps s y := hx.cancelCues
  have hz : Keeps s z := hy.frame ⟨rfl, rfl⟩
  have hu1 : Keeps s u1 := hz.fold fun _ _ ku2 => .ite ku2.laneEnable ku2
  have hv1 : Keeps s v1 := hu1.restoreCoords
  have hw1 : Keeps s w1 := hv1.histDrop
  have hx1 : Keeps s x1 := hw1.fold fun _ _ ku2 => ku2.setStream
  have hy1 : Keeps s y1 := hx1.restoreTasks
  have hz1 : Keeps s z1 := hy1.fold fun _ _ k => k.mirrorRestore
  exact hz1.setRfld.jSync.reserveOpen.cellsOff

theorem Keeps.delaysRestore (h : Keeps s t) {r n : Nat} : Keeps s (t.delaysRestore r n) := by
  unfold State.delaysRestore
  extract_lets base
  split
  next u _ v he =>
    have hv := h.drawWord.snd he
    split
    next w _ x he =>
      have hx := hv.drawWord.snd he
      extract_lets at3 links _
      split
      exact hx.setRing

theorem Keeps.ringTake (h : Keeps s t) {r : Nat} {u : Units} : Keeps s (t.ringTake r u) := by
  unfold State.ringTake
  split
  extract_lets x' seen v
  have hv : Keeps s v := h.setRing
  split
  · exact h
  · split
    · exact h
    · extract_lets w x per t' first _
      have hw : Keeps s w := hv.configEffect
      have hx : Keeps s x := hw.delaysRestore.tellDelays
      exact hx.setRing

theorem Keeps.cpImage (h : Keeps s t) : Keeps s t.cpImage.2.2 := by
  unfold State.cpImage
  exact h.agentRead

theorem Keeps.takeover (h : Keeps s t) {cause : Nat} : Keeps s (t.takeover cause) := by
  unfold State.takeover
  extract_lets refused
  have hr : ∀ u b, Keeps s u → Keeps s (refused u b) := fun u b hu => hu.setRfld.setRfld.withPeer
  refine .ite h ?_
  split
  next ws poison u he =>
    have hu := h.cpImage.thd he
    extract_lets x a b _ c d _ e f _
    have ha : Keeps s a := hu.setRfld.enterMode
    have hb : Keeps s b := ha.setRfld.setRfld
    have hd : Keeps s d := hb.withPeer.crownRestore.unitsLoad
    have hf : Keeps s f := hd.withModes.timeMaster.ringTake.ringTake
    exact .ite (hr _ _ h) (.ite (hr _ _ hu).integrityFault (.ite (hr _ _ hu) hf.withPeer))

theorem Keeps.execRelease (h : Keeps s t) : OutKeeps s (execRelease t) := by
  unfold Machine.execRelease
  exact .next h.takeover

theorem Keeps.execPairLinkLost (h : Keeps s t) : OutKeeps s (execPairLinkLost t) := by
  unfold Machine.execPairLinkLost
  refine .next ?_
  split
  · extract_lets u v w
    have hu : Keeps s u := h.setRfld
    have hv : Keeps s v := hu.crownEvent
    have hw : Keeps s w := hv.jUnmirror.setRfld
    exact .ite (.ite hw.cutLost.cutAgain hw) hv.takeover
  · exact h

/-! ### Machine/Update -/

theorem Keeps.updLast (h : Keeps s t) {h' : List Word} {cause : Nat} : Keeps s (t.updLast h' cause) := by
  unfold State.updLast
  exact h.setRfld.setRfld

theorem Keeps.updateImage (h : Keeps s t) {ws : List Word} : Keeps s (t.updateImage ws).2.2 := by
  unfold State.updateImage
  extract_lets h' c cause
  split
  · exact h.updLast
  · split
    extract_lets u _
    have hu : Keeps s u := h.updLast
    exact .iteThd hu.withStore hu.withStore

theorem Keeps.execConfirmWindowExpiry (h : Keeps s t) : OutKeeps s (execConfirmWindowExpiry t) := by
  unfold Machine.execConfirmWindowExpiry
  exact .next (.ite h.withStore.reboot h)

theorem Keeps.recoveryEnd (h : Keeps s t) : Keeps s t.recoveryEnd.2 := by
  unfold State.recoveryEnd
  extract_lets ws _ u h' c cause _'
  have hu : Keeps s u := h.frame ⟨rfl, rfl⟩
  split
  · exact hu
  · split
    split
    · exact hu
    · extract_lets b
      refine Keeps.setReg ?_
      exact hu.frame ⟨rfl, rfl⟩

theorem Keeps.recoveryPart (h : Keeps s t) : Keeps s (t.recoveryPart) := by
  unfold State.recoveryPart
  extract_lets ws status n all cause _ u
  have hu : Keeps s u := h.frame ⟨rfl, rfl⟩
  split
  · split
    next v _ w he =>
      have hw := h.recoveryEnd.snd he
      exact hw.returnBuf.respond
  · exact hu.returnBuf.respond

theorem Keeps.answer (h : Keeps s t) {ack : Bool} {seq : Nat} {cause : List Nat} : Keeps s (t.answer ack seq cause) := by
  unfold State.answer
  exact h.frame ⟨rfl, rfl⟩

theorem Keeps.execMaintenanceFrame (h : Keeps s t) {bytes : List Byte} : OutKeeps s (execMaintenanceFrame bytes t) := by
  unfold Machine.execMaintenanceFrame
  refine .next ?_
  split
  · exact h
  · extract_lets seq n good want ws _ u
    have hu : Keeps s u := h.frame ⟨rfl, rfl⟩
    split
    · exact h.answer
    · split
      · exact h.answer
      · split
        · split
          next v _ w he =>
            have hw := h.recoveryEnd.snd he
            exact hw.answer
        · exact hu.answer

/-! ### Machine/HostReq -/

theorem Keeps.reqRead (h : Keeps s t) : Keeps s (t.reqRead) := by
  unfold State.reqRead
  exact h.decodes

theorem AnsKeeps.finish {a : Answer} (h : AnsKeeps s a) {e : ReqEntry} : Keeps s (a.finish e) := by
  unfold Answer.finish
  split
  · exact h.st
  · refine .respond ?_
    split
    · exact h.st.returnBuf
    · exact h.st

theorem Keeps.takeReq (h : Keeps s t) {code : Nat} {sub : ReqEntry → Bool} {modes : Nat → Bool} {act : ReqEntry → State → Answer}
    (ha : ∀ e u, Keeps s u → AnsKeeps s (act e u)) : OutKeeps s (takeReq code sub modes act t) := by
  unfold Machine.takeReq
  extract_lets u e _ v w
  have hu : Keeps s u := h.reqRead
  have hv : Keeps s v := hu.frame ⟨rfl, rfl⟩
  have hw : Keeps s w := hv.deliver
  exact .next (.ite h (.ite hv.drop.respond (.ite (AnsKeeps.mk hv.deliver).finish
    (.ite h (.ite (AnsKeeps.mk hw).finish (ha e _ hw).finish)))))

theorem Keeps.withDesc (h : Keeps s t) {act : ReqEntry → Nat → State → Answer} {e : ReqEntry}
    (ha : ∀ e b u, Keeps s u → AnsKeeps s (act e b u)) : AnsKeeps s (withDesc act e t) := by
  unfold Machine.withDesc
  split
  · exact ⟨h⟩
  · split
    next p u he =>
      have hu := h.descRead.snd he
      exact .ite ⟨hu.integrityFault⟩ (.ite ⟨hu⟩ (ha _ _ _ hu))

theorem Keeps.withBuf (h : Keeps s t) {act : ReqEntry → Nat → State → Answer} {e : ReqEntry}
    (ha : ∀ e b u, Keeps s u → AnsKeeps s (act e b u)) : AnsKeeps s (withBuf act e t) := by
  unfold Machine.withBuf
  refine h.withDesc fun e b u hu => ?_
  split
  next p v he =>
    have hv := hu.bufRead.snd he
    exact .ite ⟨hv.integrityFault⟩ (ha _ _ _ hv)

theorem Keeps.beginProgram (h : Keeps s t) {e : ReqEntry} : AnsKeeps s (beginProgram e t) := by
  unfold Machine.beginProgram
  extract_lets u c _
  have hu : Keeps s u := h.locWrites
  refine ⟨?_⟩
  refine Keeps.setCore ?_
  exact hu.frame ⟨rfl, rfl⟩

theorem Keeps.execProgram (h : Keeps s t) : OutKeeps s (execProgram t) := by
  unfold Machine.execProgram
  exact h.takeReq fun _ _ ku => ku.beginProgram

theorem Keeps.answered {r : Nat × State} (h : Keeps s r.2) : AnsKeeps s (answered r) := by
  unfold Machine.answered
  exact .ite ⟨h.integrityFault⟩ ⟨h⟩

theorem Keeps.execModeRequest (h : Keeps s t) : OutKeeps s (execModeRequest t) := by
  unfold Machine.execModeRequest
  exact h.takeReq fun _ _ ku => ku.modeRequest.answered

theorem Keeps.execForceRequest (h : Keeps s t) : OutKeeps s (execForceRequest t) := by
  unfold Machine.execForceRequest
  exact h.takeReq fun _ _ ku => ku.forceRequest.answered

theorem Keeps.beginExchange (h : Keeps s t) {e : ReqEntry} {b : Nat} : AnsKeeps s (beginExchange e b t) := by
  unfold Machine.beginExchange
  split
  · exact ⟨h⟩
  · split
    next u _ v he =>
      have hv := h.exPrepare.snd he
      exact Keeps.answered (.ite hv.enterMode hv)

theorem Keeps.execExchange (h : Keeps s t) : OutKeeps s (execExchange t) := by
  unfold Machine.execExchange
  exact h.takeReq fun _ _ ku => ku.withBuf fun _ _ _ ku => ku.beginExchange

theorem Keeps.resumeTrapped (h : Keeps s t) {e : ReqEntry} : AnsKeeps s (resumeTrapped e t) := by
  unfold Machine.resumeTrapped
  exact .ite ⟨h⟩ (.ite ⟨h⟩ ⟨h.setTask⟩)

theorem Keeps.execTrapresume (h : Keeps s t) : OutKeeps s (execTrapresume t) := by
  unfold Machine.execTrapresume
  exact h.takeReq fun _ _ ku => ku.resumeTrapped

theorem Keeps.dumpJournal (h : Keeps s t) {x : ReqEntry} {b : Nat} : AnsKeeps s (dumpJournal x b t) := by
  unfold Machine.dumpJournal
  split
  · exact ⟨h⟩
  · split
    next u _ _ v he =>
      have hv := h.agentRead.thd he
      exact .ite ⟨hv.integrityFault⟩ ⟨hv.fillBuf⟩

theorem Keeps.execJournalDump (h : Keeps s t) : OutKeeps s (execJournalDump t) := by
  unfold Machine.execJournalDump
  exact h.takeReq fun _ _ ku => .ite (ku.withDesc fun _ _ _ ku => ku.dumpJournal) ⟨ku⟩

theorem Keeps.execJournalClear (h : Keeps s t) : OutKeeps s (execJournalClear t) := by
  unfold Machine.execJournalClear
  refine h.takeReq fun _ u hu => ?_
  have hv : Keeps s (u.jClear false) := hu.jClear
  exact ⟨hv⟩

theorem Keeps.takeHistory (h : Keeps s t) {e : ReqEntry} : AnsKeeps s (takeHistory e t) := by
  unfold Machine.takeHistory
  exact .ite ⟨h⟩ ⟨h.histTake⟩

theorem Keeps.execHistoryTake (h : Keeps s t) : OutKeeps s (execHistoryTake t) := by
  unfold Machine.execHistoryTake
  exact h.takeReq fun _ _ ku => .ite ku.takeHistory ⟨ku⟩

theorem Keeps.tableHistory (h : Keeps s t) {x : ReqEntry} {b : Nat} : AnsKeeps s (tableHistory x b t) := by
  unfold Machine.tableHistory
  extract_lets ws es
  split
  next u _ v he =>
    have hv := h.readSignals.snd he
    split
    · exact ⟨hv.integrityFault⟩
    · split
      next w y he =>
        have hy := hv.setSignals he
        exact ⟨hy⟩
      next w _ =>
        exact ⟨hv⟩

theorem Keeps.execHistoryTable (h : Keeps s t) : OutKeeps s (execHistoryTable t) := by
  unfold Machine.execHistoryTable
  exact h.takeReq fun _ _ ku => ku.withBuf fun _ _ _ ku => ku.tableHistory

theorem Keeps.writeTrace (h : Keeps s t) {e : ReqEntry} : AnsKeeps s (writeTrace e t) := by
  unfold Machine.writeTrace
  exact .ite ⟨h⟩ ⟨h.takeTrace⟩

theorem Keeps.execTrace (h : Keeps s t) : OutKeeps s (execTrace t) := by
  unfold Machine.execTrace
  exact h.takeReq fun _ _ ku => ku.writeTrace

theorem Keeps.execEvrSnapshot (h : Keeps s t) : OutKeeps s (execEvrSnapshot t) := by
  unfold Machine.execEvrSnapshot
  exact h.takeReq fun _ _ ku => .ite ⟨ku.frame ⟨rfl, rfl⟩⟩ ⟨ku⟩

theorem Keeps.readRecords (h : Keeps s t) {e : ReqEntry} {b : Nat} : AnsKeeps s (readRecords e b t) := by
  unfold Machine.readRecords
  exact .ite ⟨h⟩ ⟨h.fillBuf⟩

theorem Keeps.execEvrRead (h : Keeps s t) : OutKeeps s (execEvrRead t) := by
  unfold Machine.execEvrRead
  exact h.takeReq fun _ _ ku => ku.withDesc fun _ _ _ ku => ku.readRecords

theorem Keeps.mailBlock (h : Keeps s t) {e : ReqEntry} {b : Nat} : AnsKeeps s (mailBlock e b t) := by
  unfold Machine.mailBlock
  exact ⟨h.frame ⟨rfl, rfl⟩⟩

theorem Keeps.execSafety (h : Keeps s t) : OutKeeps s (execSafety t) := by
  unfold Machine.execSafety
  exact h.takeReq fun _ _ ku => ku.withBuf fun _ _ _ ku => ku.mailBlock

theorem Keeps.execPair (h : Keeps s t) {p : PeerView} : OutKeeps s (execPair p t) := by
  unfold Machine.execPair
  exact h.takeReq fun _ _ ku => .ite ⟨ku⟩ (.ite ⟨ku⟩ ⟨ku.pairForm⟩)

theorem Keeps.sendMessage (h : Keeps s t) {e : ReqEntry} {b : Nat} : AnsKeeps s (sendMessage e b t) := by
  unfold Machine.sendMessage
  extract_lets r dst n
  split
  · split
    · exact ⟨h⟩
    · split
      next u _ v he =>
        have hv := h.bufRead.snd he
        split
        · exact ⟨hv.produce.drop⟩
        · extract_lets data
          split
          · exact ⟨hv.mbxSend⟩
          · exact ⟨hv.produce.drop⟩
  · exact ⟨h⟩

theorem Keeps.execMbxsend (h : Keeps s t) : OutKeeps s (execMbxsend t) := by
  unfold Machine.execMbxsend
  exact h.takeReq fun _ _ ku => ku.withDesc fun _ _ _ ku => ku.sendMessage

theorem Keeps.giveBuffers (h : Keeps s t) {e : ReqEntry} : AnsKeeps s (giveBuffers e t) := by
  unfold Machine.giveBuffers
  extract_lets b n bs
  split
  next u _ v he =>
    have hv := h.descRead.snd he
    exact .ite ⟨hv.integrityFault⟩ (.ite ⟨hv⟩ ⟨hv.frame ⟨rfl, rfl⟩⟩)

theorem Keeps.execMbxrecv (h : Keeps s t) : OutKeeps s (execMbxrecv t) := by
  unfold Machine.execMbxrecv
  exact h.takeReq fun _ _ ku => ku.giveBuffers

theorem Keeps.execLoad (h : Keeps s t) : OutKeeps s (execLoad t) := by
  unfold Machine.execLoad
  exact h.takeReq fun _ _ ku => ku.withBuf fun _ _ _ ku => ku.loadProgram.answered

theorem Keeps.takeImage (h : Keeps s t) {x : ReqEntry} {b : Nat} : AnsKeeps s (takeImage x b t) := by
  unfold Machine.takeImage
  split
  next u _ v he =>
    have hv := h.meets.snd he
    split
    next w _ y he =>
      have hy := (Keeps.iteSnd hv hv.bufRead).snd he
      split
      · exact ⟨hy.integrityFault⟩
      · split
        next z _ _ u1 he =>
          have hu1 := hy.updateImage.thd he
          exact ⟨hu1⟩

theorem Keeps.execUpdate (h : Keeps s t) : OutKeeps s (execUpdate t) := by
  unfold Machine.execUpdate
  exact h.takeReq fun _ _ ku => ku.withDesc fun _ _ _ ku => ku.takeImage

theorem Keeps.configureBuffers (h : Keeps s t) {e : ReqEntry} : AnsKeeps s (configureBuffers e t) := by
  unfold Machine.configureBuffers
  extract_lets first n ps
  split
  next u _ v he =>
    have hv := h.descRead.snd he
    extract_lets others w
    have hw : Keeps s w := hv.frame ⟨rfl, rfl⟩
    exact .ite ⟨hv.integrityFault⟩ (.ite ⟨hv⟩ (⟨hw.fold fun _ _ kx => kx.agentWrite⟩))

theorem Keeps.execBufcfg (h : Keeps s t) : OutKeeps s (execBufcfg t) := by
  unfold Machine.execBufcfg
  exact h.takeReq fun _ _ ku => ku.configureBuffers

theorem Keeps.execConfirm (h : Keeps s t) : OutKeeps s (execConfirm t) := by
  unfold Machine.execConfirm
  exact h.takeReq fun _ _ ku => .ite ⟨ku.confirmHoods⟩ ⟨ku⟩

/-! ### Machine/HostAccess -/

theorem Keeps.badDoorbell (h : Keeps s t) : Keeps s (t.badDoorbell) := by
  unfold State.badDoorbell
  exact h.frame ⟨rfl, rfl⟩

theorem Keeps.execHostReqpiWrite (h : Keeps s t) {v : Word} : OutKeeps s (execHostReqpiWrite v t) := by
  unfold Machine.execHostReqpiWrite
  refine .next ?_
  split
  · exact h
  · extract_lets n _
    split
    · refine Keeps.produce ?_
      exact h.frame ⟨rfl, rfl⟩
    · exact h.badDoorbell

theorem Keeps.execHostRspciWrite (h : Keeps s t) {v : Word} : OutKeeps s (execHostRspciWrite v t) := by
  unfold Machine.execHostRspciWrite
  refine .next ?_
  split
  · exact h
  · extract_lets n _
    split
    · refine Keeps.deliver ?_
      exact h.frame ⟨rfl, rfl⟩
    · exact h.badDoorbell

theorem Keeps.giveBad (h : Keeps s t) {b : Nat} : Keeps s (t.giveBad b) := by
  unfold State.giveBad
  extract_lets a u v w
  have hu : Keeps s u := h.fold fun _ _ kx => kx.lineWrite
  have hv : Keeps s v := hu.produce.drop
  have hw : Keeps s w := hv.agentWord
  exact hw.agentWord.msix

theorem Keeps.execGive (h : Keeps s t) {v : Word} : OutKeeps s (execGive v t) := by
  unfold Machine.execGive
  extract_lets b
  refine .next ?_
  split
  · exact h
  · split
    next u _ w he =>
      have hw := h.descRead.snd he
      extract_lets w0 n x good y z
      have hx : Keeps s x := hw.bufRead
      have hy : Keeps s y := hx.agentWord
      have hz : Keeps s z := hy.agentWord
      exact .ite hw.badDoorbell (.ite hz.giveBad (.ite hz.recoveryPart hz))

theorem Keeps.execHostWinWrite (h : Keeps s t) {a : Fin 7} {v : Word} : OutKeeps s (execHostWinWrite a v t) := by
  unfold Machine.execHostWinWrite
  exact .next (.ite h (h.frame ⟨rfl, rfl⟩))

theorem Keeps.windowLine (h : Keeps s t) {l : Nat} {xs : List (Nat × HostSlot)} {ep : Bool} : Keeps s (t.windowLine l xs ep) := by
  unfold State.windowLine
  extract_lets full u data mask
  have hu : Keeps s u := h.drainWhere
  exact hu.portWrite

theorem Keeps.windowPut (h : Keeps s t) {l : Nat} {xs : List (Nat × HostSlot)} {ep : Bool} : Keeps s (t.windowPut l xs ep) := by
  unfold State.windowPut
  exact .ite h.windowLine.windowLine h.windowLine

theorem Keeps.execHostWindowWrite (h : Keeps s t) {off : BitVec 30} {slots : List HostSlot} {ep : Bool} :
    OutKeeps s (execHostWindowWrite off slots ep t) := by
  unfold Machine.execHostWindowWrite
  refine .next ?_
  split
  · exact h
  · extract_lets o xs ok ys ls _ u
    have hu : Keeps s u := .ite h (h.frame ⟨rfl, rfl⟩)
    exact hu.fold fun _ _ kv => kv.windowPut

theorem Keeps.execHostWindowRead (h : Keeps s t) {off : BitVec 30} : OutKeeps s (execHostWindowRead off t) := by
  unfold Machine.execHostWindowRead
  refine .next ?_
  split
  · exact h.frame ⟨rfl, rfl⟩
  · extract_lets a
    split
    next u _ _ v he =>
      have hv := h.portRead.thd he
      exact hv.frame ⟨rfl, rfl⟩

theorem Keeps.execHostCountersRead (h : Keeps s t) {wrdrop : Bool} : OutKeeps s (execHostCountersRead wrdrop t) := by
  unfold Machine.execHostCountersRead
  exact .next (h.frame ⟨rfl, rfl⟩)

theorem Keeps.execPcieReset (h : Keeps s t) : OutKeeps s (execPcieReset t) := by
  unfold Machine.execPcieReset
  exact .next (h.frame ⟨rfl, rfl⟩)

/-! ### Machine/Move -/

theorem Keeps.execLd (h : Keeps s t) {c : CoreId} {f : MF} : OutKeeps s (execLd c f t) := by
  unfold Machine.execLd
  exact h.runInstr fun _ _ ku => ku.consume fun _ _ ku => .next ku.setG

theorem Keeps.execSt (h : Keeps s t) {c : CoreId} {f : MF} : OutKeeps s (execSt c f t) := by
  unfold Machine.execSt
  exact h.runInstr fun _ _ ku => ku.emit fun _ ku => .next ku

theorem Keeps.execLdd (h : Keeps s t) {c : CoreId} {f : MF} : OutKeeps s (execLdd c f t) := by
  unfold Machine.execLdd
  exact h.runInstr fun _ _ ku => ku.consume fun _ _ ku => .next ku.setGG

theorem Keeps.execStd (h : Keeps s t) {c : CoreId} {f : MF} : OutKeeps s (execStd c f t) := by
  unfold Machine.execStd
  exact h.runInstr fun _ _ ku => ku.emit fun _ ku => .next ku

theorem Keeps.execLdi (h : Keeps s t) {c : CoreId} {f : IF} : OutKeeps s (execLdi c f t) := by
  unfold Machine.execLdi
  exact h.runInstr fun _ _ ku => .next ku.setG

theorem Keeps.execLdh (h : Keeps s t) {c : CoreId} {f : RF} : OutKeeps s (execLdh c f t) := by
  unfold Machine.execLdh
  exact h.runInstr fun _ _ ku => .next ku.setG

theorem Keeps.execMov (h : Keeps s t) {c : CoreId} {f : RF} : OutKeeps s (execMov c f t) := by
  unfold Machine.execMov
  exact h.runInstr fun _ _ ku => .next ku.setG

theorem Keeps.setSpecial (h : Keeps s t) {k n : Nat} {v : Word} : Keeps s (t.setSpecial k n v) := by
  unfold State.setSpecial
  exact h.setCore

theorem Keeps.execMovFromSpecial (h : Keeps s t) {c : CoreId} {f : RF} : OutKeeps s (execMovFromSpecial c f t) := by
  unfold Machine.execMovFromSpecial
  exact h.runInstr fun _ _ ku => .next ku.setG

theorem Keeps.execMovToSpecial (h : Keeps s t) {c : CoreId} {f : RF} : OutKeeps s (execMovToSpecial c f t) := by
  unfold Machine.execMovToSpecial
  exact h.runInstr fun _ _ ku => .next ku.setSpecial

theorem Keeps.execMovFromAcc (h : Keeps s t) {c : CoreId} {f : RF} : OutKeeps s (execMovFromAcc c f t) := by
  unfold Machine.execMovFromAcc
  exact h.runInstr fun _ _ ku => .next ku.setG.flags

theorem Keeps.execMovToAcc (h : Keeps s t) {c : CoreId} {f : RF} : OutKeeps s (execMovToAcc c f t) := by
  unfold Machine.execMovToAcc
  exact h.runInstr fun _ _ ku => .next ku.setCore

theorem Keeps.execLea (h : Keeps s t) {c : CoreId} {f : MF} : OutKeeps s (execLea c f t) := by
  unfold Machine.execLea
  exact h.runInstr fun _ _ ku => .next ku.setG

theorem Keeps.execPush (h : Keeps s t) {c : CoreId} {f : RF} : OutKeeps s (execPush c f t) := by
  unfold Machine.execPush
  exact h.runInstr fun _ _ ku => .ite (.flt ku) (ku.emit fun _ ku => .next ku.setCore)

theorem Keeps.execPop (h : Keeps s t) {c : CoreId} {f : RF} : OutKeeps s (execPop c f t) := by
  unfold Machine.execPop
  refine h.runInstr fun _ u hu => ?_
  extract_lets sp
  split
  · exact .flt hu
  · refine hu.consume fun _ v hv => ?_
    extract_lets w _
    have hw : Keeps s w := hv.setG
    exact .next hw.setCore

theorem Keeps.casAt (h : Keeps s t) {k a : Nat} {expect new : Word} : Keeps s (t.casAt k a expect new).2.2 := by
  unfold State.casAt
  split
  · split
    next u _ _ v he =>
      have hv := h.locRead.thd he
      exact .ite hv.locWrite hv
  · split
    · exact h
    · extract_lets r
      split
      · split
        next u v _ _ he =>
          have hv := h.perform.fst he
          exact hv
      · split
        next u _ _ v he =>
          have hv := h.slot.transact.thd he
          exact hv

theorem Keeps.execCas (h : Keeps s t) {c : CoreId} {f : RF} : OutKeeps s (execCas c f t) := by
  unfold Machine.execCas
  refine h.runInstr fun _ u hu => ?_
  extract_lets a e
  split
  · exact .flt hu
  · exact .next hu.refuse.setG
  · split
    next v _ _ w he =>
      have hw := hu.casAt.thd he
      exact .ite (.flt hw) (.next hw.setG.flags)

theorem Keeps.execStl (h : Keeps s t) {c : CoreId} {f : MF} : OutKeeps s (execStl c f t) := by
  unfold Machine.execStl
  exact h.runInstr fun _ _ ku => .ite (.flt ku) (ku.emit fun _ ku => .next ku)

/-! ### Machine/TaskInstr -/

theorem Keeps.execTake (h : Keeps s t) {c : CoreId} : OutKeeps s (execTake c t) := by
  unfold Machine.execTake
  exact h.runInstr fun _ _ ku => .next ku

theorem Keeps.execDone (h : Keeps s t) {c : CoreId} {f : RF} : OutKeeps s (execDone c f t) := by
  unfold Machine.execDone
  refine h.runInstr fun k u hu => ?_
  extract_lets v
  have hv : Keeps s v := hu.fence
  split
  · exact .left hv.runDone
  · split
    · exact .left hv
    · exact .left (hv.withHost.respond.setCore)

theorem Keeps.execYield (h : Keeps s t) {c : CoreId} {f : RF} : OutKeeps s (execYield c f t) := by
  unfold Machine.execYield
  refine h.runInstr fun _ u hu => ?_
  extract_lets v
  have hv : Keeps s v := hu.fence
  split
  · exact .left hv
  · extract_lets w
    have hw : Keeps s w := hv.runSuspend
    exact .left (.ite hw.readyNow hw)

theorem Keeps.execWait (h : Keeps s t) {c : CoreId} {f : RF} : OutKeeps s (execWait c f t) := by
  unfold Machine.execWait
  refine h.runInstr fun _ u hu => ?_
  extract_lets v dl
  have hv : Keeps s v := hu.fence
  split
  · exact .left hv
  · exact .left hv.runSuspend

theorem Keeps.execPost (h : Keeps s t) {c : CoreId} {f : RF} : OutKeeps s (execPost c f t) := by
  unfold Machine.execPost
  refine h.runInstr fun _ u hu => ?_
  extract_lets v
  have hv : Keeps s v := hu.fence
  split
  · exact .next hv.refuse.flags
  · split
    next w x he =>
      have hx := hv.postTo.snd he
      exact .next hx.flags
    next w x he =>
      have hx := hv.postTo.snd he
      exact .next hx.refuse.flags
    next w _ x _ _ he =>
      have hx := hv.postTo.snd he
      exact .next hx.refuse.flags

theorem Keeps.execEvwait (h : Keeps s t) {c : CoreId} {f : RF} : OutKeeps s (execEvwait c f t) := by
  unfold Machine.execEvwait
  refine h.runInstr fun _ u hu => ?_
  split
  · exact .next hu
  · split
    next v _ w he =>
      have hw := hu.takePost.snd he
      exact .next hw.setG.flags
    next v w he =>
      have hw := hu.takePost.snd he
      extract_lets x us tmo
      have hx : Keeps s x := hw.fence
      exact .left hx.runSuspend

theorem Keeps.execEvwaitPoll (h : Keeps s t) {c : CoreId} {f : RF} : OutKeeps s (execEvwaitPoll c f t) := by
  unfold Machine.execEvwaitPoll
  refine h.runInstr fun _ u hu => ?_
  split
  · exact .next hu
  · split
    next v _ w he =>
      have hw := hu.takePost.snd he
      exact .next hw.setG.flags
    next v w he =>
      have hw := hu.takePost.snd he
      exact .next hw.setG.flags

theorem Keeps.execEvwaitStart (h : Keeps s t) {c : CoreId} {f : RF} : OutKeeps s (execEvwaitStart c f t) := by
  unfold Machine.execEvwaitStart
  refine h.runInstr fun _ u hu => ?_
  split
  · exact .next hu
  · exact .next hu.setG.flags

/-! ### Machine/Dispatch -/

theorem Keeps.exec (h : Keeps s t) {i : Instr} : OutKeeps s (exec i t) := by
  unfold Machine.exec
  split
  · exact h.execLd
  · exact h.execSt
  · exact h.execLdd
  · exact h.execStd
  · exact h.execLdi
  · exact h.execLdh
  · exact h.execMov
  · exact h.execMovFromSpecial
  · exact h.execMovToSpecial
  · exact h.execMovFromAcc
  · exact h.execMovToAcc
  · exact h.execLea
  · exact h.execPush
  · exact h.execPop
  · exact h.execCas
  · exact h.execStl
  · exact h.execAdd
  · exact h.execSub
  · exact h.execAdds
  · exact h.execSubs
  · exact h.execMul
  · exact h.execMuls
  · exact h.execMac
  · exact h.execDiv
  · exact h.execRem
  · exact h.execNeg
  · exact h.execAbs
  · exact h.execCmp
  · exact h.execMin
  · exact h.execMax
  · exact h.execClamp
  · exact h.execAnd
  · exact h.execOr
  · exact h.execXor
  · exact h.execNot
  · exact h.execShl
  · exact h.execShr
  · exact h.execSar
  · exact h.execRot
  · exact h.execBset
  · exact h.execBclr
  · exact h.execBtst
  · exact h.execBext
  · exact h.execBins
  · exact h.execClz
  · exact h.execPopc
  · exact h.execFadd
  · exact h.execFsub
  · exact h.execFmul
  · exact h.execFdiv
  · exact h.execFsqrt
  · exact h.execFcmp
  · exact h.execFcvt
  · exact h.execFtoi
  · exact h.execItof
  · exact h.execJ
  · exact h.execJc
  · exact h.execCall
  · exact h.execRet
  · exact h.execCallfb
  · exact h.execRetfb
  · exact h.execLoop
  · exact h.execTrap
  · exact h.execNop
  · exact h.execFence
  · exact h.execTake
  · exact h.execDone
  · exact h.execYield
  · exact h.execWait
  · exact h.execPost
  · exact h.execEvwait
  · exact h.execEvwaitPoll
  · exact h.execEvwaitStart
  · exact h.execImgin
  · exact h.execImgout
  · exact h.execIor
  · exact h.execIow
  · exact h.execTimerd
  · exact h.execCrd
  · exact h.execCue
  · exact h.execCuexRead
  · exact h.execCuexCancel
  · exact h.execLcfg
  · exact h.execLcoef
  · exact h.execLsp
  · exact h.execSpgrpLoad
  · exact h.execSpgrpApply
  · exact h.execSpgrpClear
  · exact h.execLstat
  · exact h.execSegpush
  · exact h.execConfig
  · exact h.execEnable
  · exact h.execDisable
  · exact h.execGo
  · exact h.execStop
  · exact h.execQstop
  · exact h.execFlush
  · exact h.execSetpos
  · exact h.execClear
  · exact h.execGstart
  · exact h.execGovr
  · exact h.execGslew
  · exact h.execAxstat
  · exact h.execJbegin
  · exact h.execJprog
  · exact h.execJend
  · exact h.execJquery
  · exact h.execRecmark
  · exact h.execCaparm
  · exact h.execMode
  · exact h.execForceSet
  · exact h.execForceRelease
  · exact h.execForceReleaseAll
  · exact h.execCensusCopy
  · exact h.execCensusExtraCheck
  · exact h.execOwnset
  · exact h.execClassset
  · exact h.execTaskset
  · exact h.execCodeload
  · exact h.execRingset
  · exact h.execProgram
  · exact h.execModeRequest
  · exact h.execForceRequest
  · exact h.execExchange
  · exact h.execTrapresume
  · exact h.execJournalDump
  · exact h.execJournalClear
  · exact h.execHistoryTake
  · exact h.execHistoryTable
  · exact h.execTrace
  · exact h.execEvrSnapshot
  · exact h.execEvrRead
  · exact h.execSafety
  · exact h.execPair
  · exact h.execMbxsend
  · exact h.execMbxrecv
  · exact h.execLoad
  · exact h.execUpdate
  · exact h.execBufcfg
  · exact h.execConfirm
  · exact h.execHostReqpiWrite
  · exact h.execHostRspciWrite
  · exact h.execGive
  · exact h.execHostWinWrite
  · exact h.execHostWindowWrite
  · exact h.execHostWindowRead
  · exact h.execPcieReset
  · exact h.execSysBlevelWrite
  · exact h.execTimeIncWrite
  · exact h.execTrrdWrite
  · exact h.execHistTakeWrite
  · exact h.execHistCtrlWrite
  · exact h.execRingClaimWrite
  · exact h.execBrimRstreqWrite
  · exact h.execEvrSnapGo
  · exact h.execUpdConfirmGo
  · exact h.execUpdWinWrite
  · exact h.execAdcCalGo
  · exact h.execJrnlRtaskWrite
  · exact h.execFifordWrite
  · exact h.execReq
  · exact h.execCancel
  · exact h.execTsenWrite
  · exact h.execSetpwm
  · exact h.execPwmEnWrite
  · exact h.execPwmShadowWrite
  · exact h.execStepPosWrite
  · exact h.execStepRunWrite
  · exact h.execAdcInputWrite
  · exact h.execAdcConverterWrite
  · exact h.execCoordDescriptorWrite
  · exact h.execVirtValueWrite
  · exact h.execEncoderWrite
  · exact h.execFieldInputWrite
  · exact h.execFieldOutputWrite
  · exact h.execBandSlotCellWrite
  · exact h.execChopperPhaseWrite
  · exact h.execTrippedClear
  · exact h.execTofaultClear
  · exact h.execRegisterWrite
  · exact h.execCorrmaxRead
  · exact h.execLawLoadRead
  · exact h.execRingCounterRead
  · exact h.execRingFramesRead
  · exact h.execPairStretchRead
  · exact h.execAdcStatsRead
  · exact h.execPwmCountersRead
  · exact h.execStepCountersRead
  · exact h.execFieldCountersRead
  · exact h.execEncoderQerrRead
  · exact h.execCanCountersRead
  · exact h.execCaptureCountersRead
  · exact h.execHostCountersRead
  · exact h.execPowerOnReset
  · exact h.execResetPin
  · exact h.execHoldupBegin
  · exact h.execHoldupEnd
  · exact h.execModeTransitionComplete
  · exact h.execCensusInstant
  · exact h.execCensusCheck
  · exact h.execScrubVisit
  · exact h.execCommandBeatCrcFail
  · exact h.execSchedulerTick
  · exact h.execDispatchRound
  · exact h.execWaitDeadline
  · exact h.execEvwaitTimeout
  · exact h.execCycminExpiry
  · exact h.execScanWatchdogExpiry
  · exact h.execExchangeHoldStart
  · exact h.execSwap
  · exact h.execExchangeCommit
  · exact h.execExchangeAbort
  · exact h.execCueFire
  · exact h.execConv
  · exact h.execPwmld
  · exact h.execOutset
  · exact h.execOutclr
  · exact h.execCaptrig
  · exact h.execCuePost
  · exact h.execSpgrp
  · exact h.execLaneen
  · exact h.execLanedis
  · exact h.execStepgo
  · exact h.execLatch
  · exact h.execRingUpdateApply
  · exact h.execMainsLockChange
  · exact h.execLaneDue
  · exact h.execLaneSample
  · exact h.execCycleStart
  · exact h.execOutputAssembly
  · exact h.execBandFrameReceived
  · exact h.execWindowOpening
  · exact h.execPortLost
  · exact h.execPortRestored
  · exact h.execRingConfigEffect
  · exact h.execRingStart
  · exact h.execClaimReceived
  · exact h.execClaimEnd
  · exact h.execForeignBand
  · exact h.execFreerunEntry
  · exact h.execBarrierPacketOut
  · exact h.execBarrierPacketIn
  · exact h.execBarrierLinkLost
  · exact h.execBarrierLinkRestart
  · exact h.execFieldEdgeAccepted
  · exact h.execFieldOutputTrip
  · exact h.execEncoderEdge
  · exact h.execZLatch
  · exact h.execEncoderLoss
  · exact h.execTrip
  · exact h.execPwmReload
  · exact h.execConverterTrigger
  · exact h.execStepCarry
  · exact h.execStepPulseStart
  · exact h.execChopperSwitchOn
  · exact h.execChopperDecay
  · exact h.execTonmaxExpiry
  · exact h.execAdcTimer
  · exact h.execStartArrival
  · exact h.execDelayLineExit
  · exact h.execConverterFree
  · exact h.execResultWrite
  · exact h.execCalibrationDone
  · exact h.execCanFrameValidated
  · exact h.execCanTxChoice
  · exact h.execCanTxEnd
  · exact h.execBusOffRecovery
  · exact h.execReferenceMessageDue
  · exact h.execCapturePace
  · exact h.execCaptureTrigger
  · exact h.execRecordClose
  · exact h.execRecordCopyDone
  · exact h.execCaptureRearm
  · exact h.execTriggerBusPulse
  · exact h.execBusPulseDrive
  · exact h.execSegmentAgeExpiry
  · exact h.execSegmentWriteDone
  · exact h.execEvrFold
  · exact h.execSnapshotWriteDone
  · exact h.execBrimCycleStart
  · exact h.execBrimDecisionPoint
  · exact h.execDiscrepancy
  · exact h.execContainerLost
  · exact h.execTmaxExpiry
  · exact h.execSwitchTestPulse
  · exact h.execBrimOscillatorCheck
  · exact h.execBrimSwitchRead
  · exact h.execF24vMissing
  · exact h.execBrimRailLow
  · exact h.execHeartbeatSend
  · exact h.execHeartbeatReceive
  · exact h.execPairLinkLost
  · exact h.execPairWatchdogExpiry
  · exact h.execCheckpointRecord
  · exact h.execCheckpointEnd
  · exact h.execCheckpointAck
  · exact h.execMirrorAck
  · exact h.execCompareFailure
  · exact h.execRelease
  · exact h.execConfirmWindowExpiry
  · exact h.execMaintenanceFrame
  · exact h.execCrownLockstepDifference
  · exact h.execBrimLockstepMismatch
  · exact h.execSpineTargetService
  · exact h.execTransactionComplete
  · exact h.execCreditReturn
  · exact h.execSignalSamplingPeriod
  · exact h.execCanBusError
  · exact h.execEncoderLossEnd
  · exact h.execCellClockLoss
  · exact h.execClaimRepeat

/-! ### Machine/Tick -/

theorem Keeps.pwmLoad (h : Keeps s t) {p : Nat} : Keeps s (t.pwmLoad p) := by
  unfold State.pwmLoad
  extract_lets x' now u y' fine
  have hu : Keeps s u := .ite h h.pwmCopy
  exact .ite h hu.setPair

theorem Keeps.nextClock (h : Keeps s t) : Keeps s (t.nextClock) := by
  unfold State.nextClock
  exact h.frame ⟨rfl, rfl⟩

theorem Keeps.tripsTick (h : Keeps s t) : Keeps s (t.tripsTick) := by
  unfold State.tripsTick
  exact h.fold fun _ _ ku => ku.tripClock

theorem Keeps.nodesTick (h : Keeps s t) : Keeps s (t.nodesTick) := by
  unfold State.nodesTick
  refine h.fold fun u _ hu => ?_
  split
  · exact .ite hu hu.setRing
  · exact hu

theorem Keeps.tick (h : Keeps s t) : Keeps s (t.tick) := by
  unfold State.tick
  split
  · exact h
  · extract_lets inc u v w
    have hu : Keeps s u := .ite h h.forceSync
    have hv : Keeps s v := (hu.stopsTick.lanesTick.tripsTick.pwmEdges.fold fun _ _ k => k.pwmLoad).pwmTick
    have hw : Keeps s w := (((hv.nextClock.fold fun _ _ k => k.canClock).encsTick).coordsTick).groupsTick
    exact ((((hw.fold fun _ _ kx => kx.axisRun).lanesEnd).stepsTick).nodesTick).msixDue

end

end Sys2Proof.Machine
end
section

namespace Sys2Proof.Machine

/-- Settles O5: a cell clock and each command keep the form of line memory, function by function. -/
theorem stepKeepsMemoryForm : Obligations.StepKeepsMemoryForm := by
  intro s t hs hstep
  unfold step at hstep
  split at hstep
  · cases hstep
    exact (Keeps.refl s).tick.form hs
  next c r _ =>
    have hexec : OutKeeps { s with pending := r } (exec c { s with pending := r }) := (Keeps.refl _).exec
    rw [hstep] at hexec
    cases hexec with
    | next h => exact h.form hs

end Sys2Proof.Machine
end
section
/-! SUPPORT. Instructions that stay in their tile: the opcode of an instruction word, and completion with a result and flags. -/

namespace Sys2Proof.Machine

/-- The opcode of an instruction word: its top eight bits. -/
theorem fld_opcode {op n : Nat} (hop : op < 256) (hn : n < 2 ^ 28) : fld (wd (at_ op 28 + n)) 35 28 = op := by
  simp only [fld, fldN, wd, at_, BitVec.toNat_ofNat]
  omega

theorem fld_encR {op : Nat} (hop : op < 256) (f : RF) : fld (encR op f) 35 28 = op := by
  have hd := f.d.isLt
  have ha := f.a.isLt
  have hb := f.b.isLt
  have hfn := f.fn.isLt
  unfold encR
  rw [Nat.add_assoc, Nat.add_assoc, Nat.add_assoc]
  exact fld_opcode hop (by simp only [at_]; omega)

/-- Twin cores wait for each other at loads of registers and from 6C on alone: every other opcode runs by itself. -/
theorem encR_inTile {op : Nat} (hop : op < 0x6C) (h1 : op ≠ 1) (h3 : op ≠ 3) (f : RF) (s : State) (k : Nat) :
    (leavesTile (encR op f) || s.loadsRegs k (encR op f)) = false := by
  have hw := fld_encR (by omega : op < 256) f
  simp [leavesTile, State.loadsRegs, hw, h1, h3]
  omega

theorem setG_eq (s : State) (k d : Nat) (v : Word) :
    s.setG k d v = s.setCore k { s.core k with g := Tab.put 0 (s.core k).g d v } := rfl

theorem setG_setG (s : State) (k d e : Nat) (v w : Word) : (s.setG k d v).setG k e w =
    s.setCore k { s.core k with g := Tab.put 0 (Tab.put 0 (s.core k).g d v) e w } := by
  rw [setG_eq, setG_eq, core_setCore, setCore_setCore]

theorem putRes_eq (s : State) (k d : Nat) (v : Word) (f : FlagSet) :
    putRes s k d v f =
      .next (s.setCore k { s.core k with g := Tab.put 0 (s.core k).g d v, fl := f.apply (s.core k).fl }) := by
  simp only [putRes, State.setG, State.flags, core_setCore, setCore_setCore]

section
variable {c : CoreId} {s : State} {op : Nat} {f : RF} {bad : Bool} {body : Nat → State → Res}

/-- An instruction of the R format in its tile whose body leaves core x, but for the pc. -/
theorem runInstr_R_core (hop : 3 < op ∧ op < 0x6C) (x : Core) (h : coreReady c s = true) (hb : bad = false)
    (he : body (coreKey c) s = .next (s.setCore (coreKey c) x)) (hx : x.task = (s.core (coreKey c)).task) :
    runInstr c (encR op f) bad body s = .next (s.instrEnd (coreKey c) { x with pc := (s.core (coreKey c)).pc + 1 }) :=
  runInstr_core x h hb (.inl (encR_inTile hop.2 (by omega) (by omega) ..)) he hx

/-- The same with a result in register d. -/
theorem runInstr_R_setG {d : Nat} {r : Word} (hop : 3 < op ∧ op < 0x6C) (h : coreReady c s = true) (hb : bad = false)
    (he : body (coreKey c) s = .next (s.setG (coreKey c) d r)) :
    runInstr c (encR op f) bad body s = .next (s.instrEnd (coreKey c) (s.afterR (coreKey c) d r)) :=
  runInstr_R_core hop _ h hb he rfl

/-- The same with a result in register d, and flags. -/
theorem runInstr_R_putRes {d : Nat} {r : Word} {fl : FlagSet} (hop : 3 < op ∧ op < 0x6C) (h : coreReady c s = true)
    (hb : bad = false) (he : body (coreKey c) s = putRes s (coreKey c) d r fl) :
    runInstr c (encR op f) bad body s = .next (s.instrEnd (coreKey c) (s.afterF (coreKey c) d r fl)) :=
  runInstr_R_core hop _ h hb (he.trans (putRes_eq ..)) rfl

end

end Sys2Proof.Machine
end
section
/-! SUPPORT. F36: rounding to nearest, and the order of the values that words stand for. -/

namespace Sys2Proof.Machine

/-- Rounding errs by half a unit at most, and a tie goes to an even integer (R52). -/
theorem rne_nearest (m sh : Nat) :
    2 * (2 ^ sh * rne m sh) ≤ 2 * m + 2 ^ sh ∧ 2 * m ≤ 2 * (2 ^ sh * rne m sh) + 2 ^ sh ∧
      (2 * (2 ^ sh * rne m sh) = 2 * m + 2 ^ sh ∨ 2 * m = 2 * (2 ^ sh * rne m sh) + 2 ^ sh → rne m sh % 2 = 0) := by
  have hm := Nat.div_add_mod m (2 ^ sh)
  have hr := Nat.mod_lt m (Nat.two_pow_pos sh)
  unfold rne
  extract_lets q r
  change 2 ^ sh * q + r = m at hm
  change r < 2 ^ sh at hr
  split
  next hup =>
    rw [Nat.mul_add, Nat.mul_one]
    omega
  next hdown => omega

/-- Value of the magnitude n of an F36 word, bits [34:0], in units of 2^-280. -/
def f36Mag (n : Nat) : Nat :=
  if n / 2 ^ 26 = 511 then 2 ^ 600 else if n / 2 ^ 26 = 0 then n else (2 ^ 26 + n % 2 ^ 26) * 2 ^ (n / 2 ^ 26 - 1)

theorem f36Mag_lt_two_pow {n : Nat} (h : n / 2 ^ 26 < 511) : f36Mag n < 2 ^ 27 * 2 ^ (n / 2 ^ 26 - 1) := by
  unfold f36Mag
  rw [if_neg (by omega)]
  split
  next h0 => rw [h0]; omega
  next => exact Nat.mul_lt_mul_of_pos_right (by omega) (by positivity)

theorem two_pow_le_f36Mag {n : Nat} (h0 : n / 2 ^ 26 ≠ 0) (h : n / 2 ^ 26 < 511) : 2 ^ 26 * 2 ^ (n / 2 ^ 26 - 1) ≤ f36Mag n := by
  unfold f36Mag
  rw [if_neg (by omega), if_neg h0]
  exact Nat.mul_le_mul_right _ (by omega)

/-- The greater magnitude up to infinity has the greater value. -/
theorem f36Mag_lt {m n : Nat} (h : m < n) (hn : n ≤ 511 * 2 ^ 26) : f36Mag m < f36Mag n := by
  have hm : m / 2 ^ 26 < 511 := by omega
  have hlt := f36Mag_lt_two_pow hm
  by_cases hinf : n / 2 ^ 26 = 511
  · calc f36Mag m < 2 ^ 27 * 2 ^ (m / 2 ^ 26 - 1) := hlt
      _ = 2 ^ (27 + (m / 2 ^ 26 - 1)) := (Nat.pow_add ..).symm
      _ ≤ 2 ^ 600 := by gcongr <;> omega
      _ = f36Mag n := by rw [f36Mag, if_pos hinf]
  have hn' : n / 2 ^ 26 < 511 := by omega
  by_cases hsame : m / 2 ^ 26 = n / 2 ^ 26
  · unfold f36Mag
    rw [if_neg (by omega), if_neg hinf, hsame]
    split
    · exact h
    · exact Nat.mul_lt_mul_of_pos_right (by omega) (by positivity)
  · have hge := two_pow_le_f36Mag (n := n) (by omega) hn'
    by_cases h0 : m / 2 ^ 26 = 0
    · have hmag : f36Mag m = m := by rw [f36Mag, if_neg (by omega), if_pos h0]
      have hpos := Nat.two_pow_pos (n / 2 ^ 26 - 1)
      calc f36Mag m < 2 ^ 26 * 1 := by omega
        _ ≤ 2 ^ 26 * 2 ^ (n / 2 ^ 26 - 1) := Nat.mul_le_mul_left _ hpos
        _ ≤ f36Mag n := hge
    · calc f36Mag m < 2 ^ 27 * 2 ^ (m / 2 ^ 26 - 1) := hlt
        _ = 2 ^ 26 * 2 ^ (m / 2 ^ 26 - 1 + 1) := by rw [Nat.pow_succ]; omega
        _ ≤ 2 ^ 26 * 2 ^ (n / 2 ^ 26 - 1) := Nat.mul_le_mul_left _ (Nat.pow_le_pow_right (by omega) (by omega))
        _ ≤ f36Mag n := hge

theorem f36Mag_lt_iff {m n : Nat} (hm : m ≤ 511 * 2 ^ 26) (hn : n ≤ 511 * 2 ^ 26) : m < n ↔ f36Mag m < f36Mag n := by
  constructor
  · exact fun h => f36Mag_lt h hn
  · intro h
    by_contra hge
    obtain heq | hlt := Nat.eq_or_lt_of_le (Nat.le_of_not_lt hge)
    · exact absurd (heq ▸ h) (Nat.lt_irrefl _)
    · exact absurd (f36Mag_lt hlt hm) (Nat.lt_asymm h)

theorem f36_sign (w : Word) : decide (w.toNat / 2 ^ 35 % 2 = 1) = bit w 35 := by
  simp only [bit, BitVec.getLsbD, Nat.testBit_eq_decide_div_mod_eq]

/-- A word is a NaN when its magnitude lies beyond infinity's (R51). -/
theorem isNan_ofF36 (w : Word) : (ofF36 w).isNan = decide (511 * 2 ^ 26 < fld w 34 0) := by
  unfold ofF36 decodeFp
  extract_lets neg ex fr bias
  have hfld : fld w 34 0 = ex * 2 ^ 26 + fr := by
    simp only [fld, fldN, ex, fr]
    omega
  have hex : ex < 512 := Nat.mod_lt _ (by decide)
  have hfr : fr < 2 ^ 26 := Nat.mod_lt _ (by decide)
  rw [hfld]
  split
  · split
    · simp only [Fp.isNan, false_eq_decide_iff]; omega
    · simp only [Fp.isNan, true_eq_decide_iff]; omega
  · split
    · simp only [Fp.isNan, false_eq_decide_iff]; omega
    · simp only [Fp.isNan, false_eq_decide_iff]; omega

theorem sgnI_mul (neg : Bool) (m k : Nat) : sgnI neg (m * k) = sgnI neg m * k := by
  cases neg <;> simp [sgnI]

/-- The value of a number or an infinity: the value of its magnitude, with its sign. -/
theorem f36Value_ofF36 {w : Word} (h : fld w 34 0 ≤ 511 * 2 ^ 26) :
    f36Value (ofF36 w) = sgnI (bit w 35) (f36Mag (fld w 34 0)) := by
  rw [← f36_sign]
  unfold ofF36 decodeFp
  extract_lets neg ex fr bias
  have hfld : fld w 34 0 = ex * 2 ^ 26 + fr := by
    simp only [fld, fldN, ex, fr]
    omega
  have hex : ex < 512 := Nat.mod_lt _ (by decide)
  have hfr : fr < 2 ^ 26 := Nat.mod_lt _ (by decide)
  have hdiv : fld w 34 0 / 2 ^ 26 = ex := by omega
  have hmod : fld w 34 0 % 2 ^ 26 = fr := by omega
  unfold f36Mag
  rw [hdiv, hmod]
  have hbias : bias = 255 := rfl
  by_cases hmax : ex = 2 ^ 9 - 1
  · have hz : fr = 0 := by omega
    have h511 : ex = 511 := hmax
    rw [if_pos hmax, if_pos hz, if_pos h511]
    rfl
  have h511 : ¬ex = 511 := hmax
  rw [if_neg hmax, if_neg h511]
  by_cases h0 : ex = 0
  · have hunit : (1 - bias - (26 : Nat) + 280).toNat = 0 := by omega
    rw [if_pos h0, if_pos h0, f36Value, hunit, pow_zero, mul_one, hfld, h0, zero_mul, zero_add]
  · have hunit : ((ex : Int) - bias - (26 : Nat) + 280).toNat = ex - 1 := by omega
    rw [if_neg h0, if_neg h0, f36Value, hunit, sgnI_mul]
    push_cast
    rfl

/-- Signs keep an order of magnitudes that agrees with another. -/
theorem sgnI_lt_iff {a b : Bool} {m n m' n' : Nat} (hmn : m < n ↔ m' < n') (hnm : n < m ↔ n' < m') (hm : 0 < m ↔ 0 < m')
    (hn : 0 < n ↔ 0 < n') : sgnI a m < sgnI b n ↔ sgnI a m' < sgnI b n' := by
  unfold sgnI
  split <;> split <;> omega

/-- FCMP orders two words as the values that they stand for, and +0 as -0 (R161). -/
theorem fcmpFlags_eq (a b : Word) : fcmpFlags a b =
    if (ofF36 a).isNan || (ofF36 b).isNan then { z := some false, n := some false, c := some false, v := some true }
    else
      let x := f36Value (ofF36 a)
      let y := f36Value (ofF36 b)
      { z := some (decide (x = y)), n := some (decide (x < y)), c := some (decide (y ≤ x)), v := some false } := by
  have hnan : ∀ w : Word, isNan w = (ofF36 w).isNan := fun w => (isNan_ofF36 w).symm
  unfold fcmpFlags
  rw [hnan, hnan]
  split
  · rfl
  next hnum =>
    rw [isNan_ofF36, isNan_ofF36] at hnum
    simp only [Bool.or_eq_true, decide_eq_true_eq, not_or, Nat.not_lt] at hnum
    obtain ⟨ha, hb⟩ := hnum
    have hkey : ∀ v w : Word, fld v 34 0 ≤ 511 * 2 ^ 26 → fld w 34 0 ≤ 511 * 2 ^ 26 →
        (f36Key v < f36Key w ↔ f36Value (ofF36 v) < f36Value (ofF36 w)) := fun v w hv hw => by
      rw [f36Value_ofF36 hv, f36Value_ofF36 hw]
      exact sgnI_lt_iff (f36Mag_lt_iff hv hw) (f36Mag_lt_iff hw hv) (f36Mag_lt_iff (m := 0) (by omega) hv)
        (f36Mag_lt_iff (m := 0) (by omega) hw)
    have hab := hkey a b ha hb
    have hba := hkey b a hb ha
    split
    next hlt =>
      have h := hab.1 hlt
      simp [h, h.ne, h.not_ge]
    next hlt =>
      have h := fun h => hlt (hab.2 h)
      split
      next heq =>
        have h' := fun h => (hba.2 h).ne heq.symm
        have : f36Value (ofF36 a) = f36Value (ofF36 b) := by omega
        simp [this]
      next hne =>
        have h' := hba.1 (by omega)
        simp [h'.ne', h'.le, h'.not_gt]

end Sys2Proof.Machine
end
section

namespace Sys2Proof.Machine

/-- A two-operand F36 instruction completes with the operation's value, rounded once, and its flags. -/
theorem fpOp_completes {op : Nat} {g : Fp → Fp → Fp} {c : CoreId} {f : RF} {s : State} {r : Word}
    (hop : 3 < op ∧ op < 0x6C) (h : coreReady c s = true) (hf : f.fn = 0)
    (hr : r = toF36 (g (ofF36 (s.g (coreKey c) f.a.toNat)) (ofF36 (s.g (coreKey c) f.b.toNat)))) :
    fpOp op g c f s = .next (s.instrEnd (coreKey c) (s.afterF (coreKey c) f.d.toNat r (fpFlags r))) := by
  subst hr
  exact runInstr_R_putRes hop h (by simp [hf]) rfl

theorem bit_35 (r : Word) : bit r 35 = r.msb := by
  simp [bit, BitVec.msb_eq_getLsbD_last]

theorem fpFlags_eq (r : Word) : fpFlags r =
    { z := some (decide (r.toNat % 2 ^ 35 = 0)), n := some r.msb, v := some (decide (0x7FC000000 < r.toNat % 2 ^ 35)) } := by
  have hfld : fld r 34 0 = r.toNat % 2 ^ 35 := by simp only [fld, fldN]; omega
  rw [fpFlags, hfld, bit_35]

theorem znOf_eq (r : Word) : znOf r = { z := some (decide (r = 0)), n := some r.msb } := by
  rw [znOf, bit_35]

/-- Saturation is to the word with the integer nearest to x. -/
theorem satS36_eq {x : Int} {r : Word} (hr : r.toInt = max (-2 ^ 35) (min (2 ^ 35 - 1) x)) : satS36 x = r.toInt := by
  rw [hr, satS36, clampI, s36Min, s36Max]
  split
  · omega
  · split <;> omega

/-- Settles O10: each instruction's body leaves its core with the result and the flags; the two laws of numbers stand in
`rne_nearest` and `fcmpFlags_eq`. -/
theorem floatInstructions : Obligations.FloatInstructions := by
  refine ⟨fun c f s h => ?_, rne_nearest, fcmpFlags_eq⟩
  intro k wa a wb b t
  have ht : ∀ x, t x = s.afterF k f.d.toNat (toF36 x) (fpFlags (toF36 x)) := fun x => by rw [fpFlags_eq]
  have hfn : f.fn.toNat < 64 → (f.fn.toNat / 64 != 0) = false := fun hf => by simp; omega
  have hcvt : ∀ x, Completes (.fcvt c f) c s x ↔ execFcvt c f s = .next (s.instrEnd k x) := fun x => Iff.rfl
  unfold execFcvt at hcvt
  extract_lets fn at hcvt
  refine ⟨fun hf => ?_, fun hf hd => ?_, fun hf => ?_, fun hf => ?_, fun hf hd => ?_, fun hf ha => ?_, fun r hf hx hr => ?_,
    fun x r hf hx hr => ?_, fun hf => ?_⟩
  · simp only [ht]
    refine ⟨?_, ?_, ?_, ?_, ?_⟩
    · exact fpOp_completes (op := 0x48) (g := fpAdd) (by decide) h hf rfl
    · exact fpOp_completes (op := 0x49) (g := fun a b => fpAdd a b.neg) (by decide) h hf rfl
    · exact fpOp_completes (op := 0x4A) (g := fpMul) (by decide) h hf rfl
    · exact fpOp_completes (op := 0x4B) (g := fpDiv) (by decide) h hf rfl
    · show execFsqrt c f s = _
      unfold execFsqrt
      exact runInstr_R_putRes (by decide) h (by simp [hf]) rfl
  · show execFcmp c f s = _
    unfold execFcmp
    exact runInstr_R_core (by decide) { s.core k with fl := (fcmpFlags wa wb).apply (s.core k).fl } h (by simp [hf, hd]) rfl rfl
  · have hfn : fn = 0 := by simp [fn, hf]
    rw [hcvt, hfn]
    exact runInstr_R_setG (by decide) h rfl rfl
  · have hfn : fn = 1 := by simp [fn, hf]
    rw [hcvt, hfn]
    exact runInstr_R_setG (by decide) h rfl (by simp [fld, fldN]; rfl)
  · have hfn : fn = 2 := by simp [fn, hf]
    rw [hcvt, hfn]
    refine runInstr_R_core (op := 0x4E) (by decide) { s.core k with
      g := Tab.put 0 (Tab.put 0 (s.core k).g f.d.toNat (wd (toFp 11 52 a % 2 ^ 32))) (f.d.toNat + 1) (wd (toFp 11 52 a / 2 ^ 32)) }
      h (by simp [hd]) ?_ rfl
    exact congrArg Res.next (setG_setG ..)
  · have hfn : fn = 3 := by simp [fn, hf]
    rw [hcvt, hfn]
    exact runInstr_R_setG (by decide) h (by simp [ha]) (by simp [fld, fldN]; rfl)
  · show execFtoi c f s = _
    unfold execFtoi
    refine runInstr_R_putRes (by decide) h (hfn hf) ?_
    simp only [a, wa, k] at hx
    subst hr
    simp only [hx]
    rfl
  · show execFtoi c f s = _
    unfold execFtoi
    refine runInstr_R_putRes (by decide) h (hfn hf) ?_
    simp only [a, wa, k] at hx
    simp only [hx, satS36_eq hr, znOf_eq, wdI, BitVec.ofInt_toInt]
    have hne : (x != r.toInt) = decide (r.toInt ≠ x) := Bool.eq_iff_iff.2 (by simp [ne_comm])
    rw [hne]
  · show execItof c f s = _
    unfold execItof
    refine runInstr_R_putRes (by decide) h (hfn hf) ?_
    simp only [fpFlags_eq]
    rfl

end Sys2Proof.Machine
end

section
/-! SUPPORT. A line write of any mask, word by word (R60, R65, R68). -/

namespace Sys2Proof.Machine

/-- A write under a mask: the words whose mask bit is set. -/
theorem Memory.putMasked_word (m : Memory) (a mask : Nat) (ws : List Word) (b : Nat) : (m.putMasked a mask ws).word b =
    if a ≤ b ∧ b < a + ws.length ∧ mask.testBit (b - a) = true then ws.getD (b - a) 0 else m.word b := by
  induction ws generalizing m a mask with
  | nil =>
    rw [if_neg (by rw [List.length_nil]; omega)]
    rfl
  | cons v r ih =>
    rw [Memory.putMasked, ih, List.length_cons]
    by_cases hb : b = a
    · subst hb
      rw [if_neg (by omega), Nat.sub_self, Nat.testBit_zero]
      by_cases hm : mask % 2 = 1
      · simp [hm, Memory.putWord_word]
      · simp [hm]
    · have hkeep : (if mask % 2 = 1 then m.putWord a v else m).word b = m.word b := by
        split
        · rw [Memory.putWord_word, if_neg hb]
        · rfl
      rw [hkeep]
      by_cases hge : a + 1 ≤ b
      · obtain ⟨j, rfl⟩ : ∃ j, b = a + 1 + j := ⟨b - (a + 1), by omega⟩
        rw [show a + 1 + j - (a + 1) = j by omega, show a + 1 + j - a = j + 1 by omega, Nat.testBit_succ, List.getD_cons_succ]
        congr 1
        simp only [eq_iff_iff]
        constructor <;> rintro ⟨_, h, h'⟩ <;> exact ⟨by omega, by omega, h'⟩
      · rw [if_neg (by omega), if_neg (by omega)]

/-- Words alone change. -/
theorem Memory.putMasked_eq (m : Memory) (a mask : Nat) (ws : List Word) :
    m.putMasked a mask ws = { m with words := (m.putMasked a mask ws).words } := by
  induction ws generalizing m a mask with
  | nil => rfl
  | cons v r ih =>
    rw [Memory.putMasked, ih]
    split <;> rfl

theorem markDirty_eq (s : State) (l : Nat) : s.markDirty l = { s with peer := { s.peer with dirty := (s.markDirty l).peer.dirty } } := by
  unfold State.markDirty
  split <;> rfl

/-- The decoder leaves a line without a disturbance as it is (R64). -/
theorem decode_clean {s : State} {l : Nat} (hsym : (Tab.get {} s.mem.errs l).symbols = 0) (htag : (Tab.get {} s.mem.errs l).tagWrong = false) :
    s.decode l = s := by
  simp [State.decode, hsym, htag]

section
variable {s : State} {l mask : Nat} {data : List Word} {poison : Bool} {owner : BitVec 2} (hl : mask = 255 ∨ s.decode l = s)
include hl

/-- The memory that a line write leaves, where the decoder does nothing. -/
theorem lineWrite_mem : (s.lineWrite l mask data poison owner).mem =
    { (s.mem.putMasked (8 * l) mask data).putMeta l
        { owner := owner, poison := if mask = 255 then poison else (s.lineMeta l).poison || poison
          version := (s.lineMeta l).version + 1 } with
      errs := Tab.put {} s.mem.errs l {} } := by
  have hd : (if mask = 255 then s else s.decode l) = s := by
    split
    · rfl
    next h => exact hl.resolve_left h
  rw [State.lineWrite, hd, markDirty_eq]
  simp only [Memory.putMeta]
  rw [Memory.putMasked_eq]

theorem lineWrite_word (b : Nat) : (s.lineWrite l mask data poison owner).word b =
    if 8 * l ≤ b ∧ b < 8 * l + data.length ∧ mask.testBit (b - 8 * l) = true then data.getD (b - 8 * l) 0 else s.word b := by
  rw [word_eq, lineWrite_mem hl]
  exact Memory.putMasked_word ..

theorem lineWrite_lineMeta_same : (s.lineWrite l mask data poison owner).lineMeta l =
    { owner := owner, poison := if mask = 255 then poison else (s.lineMeta l).poison || poison
      version := (s.lineMeta l).version + 1 } := by
  rw [State.lineMeta, lineWrite_mem hl]
  exact Tab.get_put_same ..

theorem lineWrite_lineMeta_other {j : Nat} (h : j ≠ l) : (s.lineWrite l mask data poison owner).lineMeta j = s.lineMeta j := by
  rw [State.lineMeta, lineWrite_mem hl]
  simp only [Memory.putMeta]
  rw [Tab.get_put_other _ _ _ _ h, Memory.putMasked_eq]
  rfl

theorem lineWrite_errs (j : Nat) : Tab.get {} (s.lineWrite l mask data poison owner).mem.errs j =
    if j = l then {} else Tab.get {} s.mem.errs j := by
  have herrs : (s.lineWrite l mask data poison owner).mem.errs = Tab.put {} s.mem.errs l {} := by
    rw [lineWrite_mem hl, Memory.putMasked_eq]
  rw [herrs]
  by_cases h : j = l
  · rw [if_pos h, h, Tab.get_put_same]
  · rw [if_neg h, Tab.get_put_other _ _ _ _ h]

/-- Memory, and the lines that the next checkpoint must send (R539): nothing else changes. -/
theorem lineWrite_rest : s.lineWrite l mask data poison owner =
    { s with mem := (s.lineWrite l mask data poison owner).mem
             peer := { s.peer with dirty := (s.lineWrite l mask data poison owner).peer.dirty } } := by
  have hd : (if mask = 255 then s else s.decode l) = s := by
    split
    · rfl
    next h => exact hl.resolve_left h
  unfold State.lineWrite
  rw [hd]
  extract_lets p m
  rw [markDirty_eq]

end

end Sys2Proof.Machine
end

section
/-! SUPPORT. Words that a core reads and stores without the spine (R59, R60, R114, R116): the addresses that hold them, reads of clean
words, and stores. -/

namespace Sys2Proof.Machine

/-! ### Clean words -/

/-- A word of tile-local memory that is neither poisoned nor disturbed (R59). -/
theorem wordClean_local {s : State} {k a : Nat} (ha : a < 0x10000) : s.wordClean k a = true ↔
    Tab.get false s.loc.poison (locKey k a) = false ∧ Tab.get 0 s.loc.errs (locKey k a) = 0 := by
  simp [State.wordClean, ha]

/-- A word of a memory that the core reaches by its direct path, in a clean line (R64). -/
theorem wordClean_direct {s : State} {k a : Nat} (ha : ¬a < 0x10000) : s.wordClean k a = true ↔
    ∃ t, targetOf a = some t ∧ directPath k t = true ∧ (s.lineMeta (a / 8)).poison = false ∧
      (Tab.get {} s.mem.errs (a / 8)).symbols = 0 ∧ (Tab.get {} s.mem.errs (a / 8)).tagWrong = false := by
  unfold State.wordClean
  rw [if_neg ha]
  cases targetOf a with
  | none => simp
  | some t => simp [and_assoc]

theorem targetOf_range {a t : Nat} (h : targetOf a = some t) : 0x1000000 ≤ a ∧ a < 0x380000000 := by
  have hbase : Config.quadBase = 0x1000000 ∧ Config.quadWords = 0x400000 ∧ Config.crownBase = 0x2000000 ∧
      Config.crownEnd = 0x2800000 ∧ Config.dramBase = 0x100000000 ∧ Config.dramEnd = 0x380000000 := ⟨rfl, rfl, rfl, rfl, rfl, rfl⟩
  unfold targetOf at h
  split at h
  · omega
  · split at h
    · omega
    · split at h
      · omega
      · cases h

theorem inRegs_of_targetOf {a t : Nat} (h : targetOf a = some t) : inRegs a = false := by
  have hrange := targetOf_range h
  have hend : ¬a < Config.sysEnd := by
    rw [show Config.sysEnd = 0x200000 from rfl]
    omega
  simp [inRegs, hend]

theorem wordClean_lt {s : State} {k a : Nat} (h : s.wordClean k a = true) : a < 0x380000000 := by
  by_cases ha : a < 0x10000
  · omega
  · obtain ⟨t, ht, -⟩ := (wordClean_direct ha).1 h
    exact (targetOf_range ht).2

/-! ### Reads -/

theorem locRead_clean {s : State} {k a : Nat} (ha : a < 0x10000) (h : s.wordClean k a = true) :
    s.locRead k a = (s.wordAt k a, false, s) := by
  obtain ⟨hp, he⟩ := (wordClean_local ha).1 h
  simp [State.locRead, hp, he, State.wordAt, ha]

theorem locReads_clean {s : State} {k a : Nat} (n : Nat) (ws : List Word)
    (h : ∀ i < n, a + i < 0x10000 ∧ s.wordClean k (a + i) = true) :
    (List.range n).foldl (fun (acc : List Word × Bool × State) i =>
      let (w', p', s') := acc.2.2.locRead k (a + i)
      (acc.1 ++ [w'], acc.2.1 || p', s')) (ws, false, s) = (ws ++ (List.range n).map (fun i => s.wordAt k (a + i)), false, s) := by
  induction n with
  | zero => simp
  | succ n ih =>
    obtain ⟨hlt, hc⟩ := h n (by omega)
    rw [List.range_succ, List.foldl_append, ih fun i hi => h i (by omega)]
    simp [locRead_clean hlt hc]

/-- Clean words of one line. -/
theorem readIn_clean {s : State} {k a n : Nat} (hn : 0 < n) (hline : a % 8 + n ≤ 8) (h : ∀ i < n, s.wordClean k (a + i) = true) :
    s.readIn k a n = ((List.range n).map (fun i => s.wordAt k (a + i)), false, s) := by
  have h0 := h 0 hn
  by_cases ha : a < 0x10000
  · have hread := locRead_clean ha h0
    obtain ⟨m, rfl⟩ : ∃ m, n = m + 1 := ⟨n - 1, by omega⟩
    have hrest := locReads_clean (a := a + 1) m [s.wordAt k a] (s := s) (k := k)
      fun i hi => ⟨by omega, by rw [Nat.add_assoc, Nat.add_comm 1]; exact h (i + 1) (by omega)⟩
    rw [State.readIn, if_pos ha, hread]
    simp only [Nat.add_sub_cancel]
    split
    next h1 => simp [show m = 0 by omega]
    next h1 =>
      rw [hrest, List.range_succ_eq_map]
      simp [Function.comp_def, Nat.add_assoc, Nat.add_comm 1]
  · obtain ⟨t, ht, hd, hp, hs, hw⟩ := (wordClean_direct ha).1 h0
    rw [State.readIn, if_neg ha, inRegs_of_targetOf ht, if_neg (by decide), ht]
    simp only [hd, if_true, decode_clean hs hw, State.poisoned, hp, State.words]
    congr 2
    funext i
    rw [State.wordAt, if_neg (by omega)]

/-- Clean words, line by line. -/
theorem readN_clean {s : State} {k : Nat} (fuel : Nat) {a n : Nat} (hf : n ≤ fuel) (h : ∀ i < n, s.wordClean k (a + i) = true) :
    State.readN k fuel s a n = ((List.range n).map (fun i => s.wordAt k (a + i)), false, s) := by
  induction fuel generalizing a n with
  | zero =>
    obtain rfl : n = 0 := by omega
    rfl
  | succ fuel ih =>
    unfold State.readN
    split
    next h0 => simp [h0]
    next h0 =>
      extract_lets m
      have hm : m = min (8 - a % 8) n := rfl
      have hnext := ih (a := a + m) (n := n - m) (by omega) fun i hi => by rw [Nat.add_assoc]; exact h _ (by omega)
      rw [readIn_clean (n := m) (by omega) (by omega) fun i hi => h i (by omega)]
      simp only [hnext]
      have hsplit : n = m + (n - m) := by omega
      conv_rhs => rw [hsplit, List.range_add, List.map_append, List.map_map]
      simp [Function.comp_def, Nat.add_assoc]

end Sys2Proof.Machine
end

section
/-! SUPPORT. Words that a core stores without the spine (R60, R65, R116): the stores themselves, before the instruction ends. -/

namespace Sys2Proof.Machine

/-- Core k's stores of words from address a on lead from s to t: exactly these words change, and clean words stay clean. -/
structure Wrote (s t : State) (k a : Nat) (ws : List Word) : Prop where
  written : ∀ i < ws.length, t.wordAt k (a + i) = ws.getD i 0
  frame : ∀ b, b < a ∨ a + ws.length ≤ b → t.wordAt k b = s.wordAt k b
  others : ∀ j b, j ≠ k → b < 0x10000 → t.locWord j b = s.locWord j b
  lines : ∀ l, l < a / 8 ∨ (a + ws.length - 1) / 8 < l → t.lineMeta l = s.lineMeta l
  clean : ∀ b, s.wordClean k b = true → t.wordClean k b = true
  rest : t = { s with mem := t.mem, loc := t.loc, peer := { s.peer with dirty := t.peer.dirty } }

section
variable {s t u : State} {k a : Nat} {ws vs : List Word}

theorem Wrote.refl (s : State) (k a : Nat) : Wrote s s k a [] :=
  ⟨fun _ h => absurd h (Nat.not_lt_zero _), fun _ _ => rfl, fun _ _ _ _ => rfl, fun _ _ => rfl, fun _ h => h, rfl⟩

/-- Stores one after the other, at addresses that follow. -/
theorem Wrote.append (h : Wrote s t k a ws) (g : Wrote t u k (a + ws.length) vs) : Wrote s u k a (ws ++ vs) where
  written i hi := by
    rw [List.length_append] at hi
    by_cases hlt : i < ws.length
    · rw [g.frame _ (by omega), h.written i hlt, List.getD_append _ _ _ _ hlt]
    · obtain ⟨j, rfl⟩ : ∃ j, i = ws.length + j := ⟨i - ws.length, by omega⟩
      rw [← Nat.add_assoc, g.written j (by omega), List.getD_append_right _ _ _ _ (by omega), Nat.add_sub_cancel_left]
  frame b hb := by
    rw [List.length_append] at hb
    rw [g.frame b (by omega), h.frame b (by omega)]
  others j b hj hb := by rw [g.others j b hj hb, h.others j b hj hb]
  lines l hl := by
    rw [List.length_append] at hl
    rw [g.lines l (by omega), h.lines l (by omega)]
  clean b hb := g.clean b (h.clean b hb)
  rest := by
    have hg := g.rest
    have hh := h.rest
    generalize hm : u.mem = m at *
    generalize hlo : u.loc = lo at *
    generalize hd : u.peer.dirty = d at *
    rw [hg, hh]

end

/-! ### Tile-local memory -/

theorem locKey_inj {j k a b : Nat} (ha : a < 0x10000) (hb : b < 0x10000) (h : locKey j a = locKey k b) : j = k ∧ a = b := by
  unfold locKey at h
  omega

theorem locWord_locWrite_same (s : State) (k a : Nat) (v : Word) : (s.locWrite k a v).locWord k a = v := by
  unfold State.locWord State.locWrite
  cases inScratch a <;> simp

theorem locWord_locWrite_other {s : State} {j k a b : Nat} (v : Word) (h : locKey j b ≠ locKey k a) :
    (s.locWrite k a v).locWord j b = s.locWord j b := by
  unfold State.locWord State.locWrite
  cases inScratch a <;> simp [Tab.get_put_other _ _ _ _ h]

/-- A store in tile-local memory. -/
theorem locWrite_wrote (s : State) {k a : Nat} (v : Word) (ha : a < 0x10000) : Wrote s (s.locWrite k a v) k a [v] where
  written i hi := by
    obtain rfl : i = 0 := by simpa using hi
    rw [State.wordAt, Nat.add_zero, if_pos ha, locWord_locWrite_same]
    rfl
  frame b hb := by
    have hne : b ≠ a := by simp at hb; omega
    unfold State.wordAt
    split
    next hlt => rw [locWord_locWrite_other _ fun h => hne (locKey_inj hlt ha h).2]
    next => rfl
  others j b hj hb := locWord_locWrite_other _ fun h => hj (locKey_inj hb ha h).1
  lines _ _ := rfl
  clean b hb := by
    by_cases hlt : b < 0x10000
    · rw [wordClean_local hlt] at hb ⊢
      simp only [State.locWrite]
      by_cases hk : locKey k b = locKey k a
      · rw [hk, Tab.get_put_same, Tab.get_put_same]
        exact ⟨rfl, rfl⟩
      · rwa [Tab.get_put_other _ _ _ _ hk, Tab.get_put_other _ _ _ _ hk]
    · rwa [wordClean_direct hlt] at hb ⊢
  rest := rfl

theorem locWrites_wrote (s : State) {k a : Nat} (ws : List Word) (h : a + ws.length ≤ 0x10000) :
    Wrote s (s.locWrites k a ws) k a ws := by
  induction ws generalizing s a with
  | nil => exact .refl s k a
  | cons v r ih =>
    rw [List.length_cons] at h
    exact (locWrite_wrote s v (by omega)).append (ws := [v]) (ih (a := a + 1) _ (by omega))

/-! ### Line memory -/

theorem testBit_maskOf {k n i : Nat} (h : k + n ≤ 8) : (maskOf k n).testBit i = decide (k ≤ i ∧ i < k + n) := by
  unfold maskOf
  rw [show 256 = 2 ^ 8 by rfl, Nat.testBit_mod_two_pow, Nat.testBit_mul_two_pow, Nat.testBit_two_pow_sub_one]
  apply Bool.eq_iff_iff.2
  simp only [Bool.and_eq_true, decide_eq_true_eq]
  omega

/-- The words of a store within one line, which its mask names. -/
theorem lineWrite_store_word {s : State} {a : Nat} {ws : List Word} (poison : Bool) (owner : BitVec 2)
    (hline : a % 8 + ws.length ≤ 8) (hl : maskOf (a % 8) ws.length = 255 ∨ s.decode (a / 8) = s) (b : Nat) :
    (s.lineWrite (a / 8) (maskOf (a % 8) ws.length) (List.replicate (a % 8) 0 ++ ws) poison owner).word b =
      if a ≤ b ∧ b < a + ws.length then ws.getD (b - a) 0 else s.word b := by
  rw [lineWrite_word hl, testBit_maskOf hline, List.length_append, List.length_replicate]
  simp only [decide_eq_true_eq]
  by_cases hb : a ≤ b ∧ b < a + ws.length
  · rw [if_pos hb, if_pos (by omega), List.getD_append_right _ _ _ _ (by rw [List.length_replicate]; omega), List.length_replicate,
      show b - 8 * (a / 8) - a % 8 = b - a by omega]
  · rw [if_neg hb, if_neg (by omega)]

/-- A store in a clean line of line memory. -/
theorem lineWrite_wrote {s : State} {k a : Nat} {ws : List Word} (owner : BitVec 2) (ha : ¬a < 0x10000) (hne : 0 < ws.length)
    (hline : a % 8 + ws.length ≤ 8) (hc : s.wordClean k a = true) :
    Wrote s (s.lineWrite (a / 8) (maskOf (a % 8) ws.length) (List.replicate (a % 8) 0 ++ ws) false owner) k a ws := by
  obtain ⟨t, -, -, hp, hs, hw⟩ := (wordClean_direct ha).1 hc
  have hl : maskOf (a % 8) ws.length = 255 ∨ s.decode (a / 8) = s := .inr (decode_clean hs hw)
  have hword := lineWrite_store_word false owner hline hl
  have hmeta : ∀ l, l ≠ a / 8 → _ := fun l => lineWrite_lineMeta_other (data := List.replicate (a % 8) 0 ++ ws) (poison := false) (owner := owner) hl
  have hsame := lineWrite_lineMeta_same (data := List.replicate (a % 8) 0 ++ ws) (poison := false) (owner := owner) hl
  have herrs := lineWrite_errs (data := List.replicate (a % 8) 0 ++ ws) (poison := false) (owner := owner) hl
  have hrest := lineWrite_rest (data := List.replicate (a % 8) 0 ++ ws) (poison := false) (owner := owner) hl
  generalize s.lineWrite (a / 8) (maskOf (a % 8) ws.length) (List.replicate (a % 8) 0 ++ ws) false owner = u at *
  have hloc : u.loc = s.loc := by rw [hrest]
  have hlocWord : ∀ j b, u.locWord j b = s.locWord j b := fun j b => by rw [State.locWord, hloc]; rfl
  refine ⟨fun i hi => ?_, fun b hb => ?_, fun j b _ _ => hlocWord j b, fun l hl' => hmeta l (by omega), fun b hb => ?_, ?_⟩
  · rw [State.wordAt, if_neg (by omega), hword, if_pos (by omega), Nat.add_sub_cancel_left]
  · unfold State.wordAt
    rw [hlocWord]
    split
    · rfl
    · rw [hword, if_neg (by omega)]
  · by_cases hlt : b < 0x10000
    · rw [wordClean_local hlt] at hb ⊢
      rwa [hloc]
    · rw [wordClean_direct hlt] at hb ⊢
      obtain ⟨t, ht, hd, hb⟩ := hb
      refine ⟨t, ht, hd, ?_⟩
      rw [herrs]
      by_cases hbl : b / 8 = a / 8
      · rw [if_pos hbl, hbl, hsame]
        simp [hp]
      · rwa [if_neg hbl, hmeta _ hbl]
  · rw [hloc]
    exact hrest

end Sys2Proof.Machine
end

section
/-! SUPPORT. Memory accesses of instructions that no access check, poison or spine holds up: what `consume` and `emit` come to, and the
end of an instruction that has stored words. -/

namespace Sys2Proof.Machine

/-! ### Stores, line by line -/

theorem writeIn_wrote {s : State} {k a : Nat} {ws : List Word} (hne : 0 < ws.length) (hline : a % 8 + ws.length ≤ 8)
    (hc : s.wordClean k a = true) : Wrote s (s.writeIn k a ws) k a ws := by
  unfold State.writeIn
  by_cases ha : a < 0x10000
  · rw [if_pos ha]
    exact locWrites_wrote s ws (by omega)
  · obtain ⟨t, ht, hd, -⟩ := (wordClean_direct ha).1 hc
    rw [if_neg ha, ht]
    simp only [hd, if_true]
    exact lineWrite_wrote 1 ha hne hline hc

theorem writeN_wrote {k : Nat} (fuel : Nat) {s : State} {a : Nat} {ws : List Word} (hf : ws.length ≤ fuel)
    (hc : ∀ i < ws.length, s.wordClean k (a + i) = true) : Wrote s (State.writeN k fuel s a ws) k a ws := by
  induction fuel generalizing s a ws with
  | zero =>
    obtain rfl := List.length_eq_zero_iff.1 (by omega : ws.length = 0)
    exact .refl s k a
  | succ fuel ih =>
    unfold State.writeN
    split
    next h =>
      obtain rfl := List.isEmpty_iff.1 h
      exact .refl s k a
    next h =>
      have hpos : 0 < ws.length := List.length_pos_iff.2 fun h0 => h (List.isEmpty_iff.2 h0)
      extract_lets m
      have hm : m = min (8 - a % 8) ws.length := rfl
      have htake : (ws.take m).length = m := by rw [List.length_take]; omega
      have hdrop : (ws.drop m).length = ws.length - m := List.length_drop
      have hfirst := writeIn_wrote (s := s) (k := k) (a := a) (ws := ws.take m) (by omega) (by omega) (hc 0 hpos)
      have hrest := ih (s := s.writeIn k a (ws.take m)) (a := a + m) (ws := ws.drop m) (by omega)
        fun i hi => hfirst.clean _ (by rw [Nat.add_assoc]; exact hc _ (by omega))
      have hall := hfirst.append (vs := ws.drop m) (u := State.writeN k fuel (s.writeIn k a (ws.take m)) (a + m) (ws.drop m))
        (by rwa [htake])
      rwa [List.take_append_drop] at hall

/-! ### What an instruction may reach -/

/-- Words that core k may reach: addresses that follow each other, clean, and open to it. -/
theorem mayReach_words {s : State} {k n : Nat} {wr : Bool} {a : Word} (hn : n ≤ 8) (h : s.mayReach k wr a n = true) :
    ∀ i < n, (a + wd i).toNat = a.toNat + i ∧ s.access k wr true (a.toNat + i) = .ok ∧ s.wordClean k (a.toNat + i) = true := by
  intro i hi
  have hall := List.all_eq_true.1 h
  have h0 := hall 0 (List.mem_range.2 (by omega))
  have hi' := hall i (List.mem_range.2 hi)
  simp only [Bool.and_eq_true, decide_eq_true_eq] at h0 hi'
  have hlt := wordClean_lt h0.2
  have hadd : ∀ j, j < 8 → (a + wd j).toNat = (a.toNat + j) % 2 ^ 36 := fun j hj => by
    rw [BitVec.toNat_add, wd, BitVec.toNat_ofNat, Nat.mod_eq_of_lt (show j < 2 ^ 36 by omega)]
  rw [hadd 0 (by omega)] at hlt
  have ha := a.isLt
  have heq : (a + wd i).toNat = a.toNat + i := by rw [hadd i (by omega)]; omega
  rw [heq] at hi'
  exact ⟨heq, hi'⟩

/-- Registers are no target of a write, so that an instruction's reach of them does not matter to it. -/
theorem access_write (s : State) (k a : Nat) (r : Bool) : s.access k true r a = s.access k true true a := by
  simp [State.access]

theorem accessN_ok {s : State} {k n : Nat} {wr r : Bool} {a : Word} (h : ∀ i < n, s.access k wr r (a + wd i).toNat = .ok) :
    s.accessN k wr r a n = .ok := by
  have hmap : (List.range n).map (fun i => s.access k wr r (a + wd i).toNat) = List.replicate n .ok := by
    rw [List.eq_replicate_iff]
    refine ⟨by simp, fun x hx => ?_⟩
    obtain ⟨i, hi, rfl⟩ := List.mem_map.1 hx
    exact h i (List.mem_range.1 hi)
  unfold State.accessN
  rw [hmap]
  simp

/-- Words read for an instruction, without fault, refusal or poison. -/
theorem consume_reach {s : State} {k n : Nat} {a : Word} (hn : n ≤ 8) (h : s.mayReach k false a n = true) (f : List Word → State → Res) :
    consume s k true a n f = f ((List.range n).map (fun i => s.wordAt k (a.toNat + i))) s := by
  have hw := mayReach_words hn h
  have hok : s.accessN k false true a n = .ok := accessN_ok fun i hi => by
    rw [(hw i hi).1]
    exact (hw i hi).2.1
  rw [consume, hok]
  simp only [readN_clean n le_rfl fun i hi => (hw i hi).2.2, Bool.false_eq_true, if_false]

/-- Words stored for an instruction, without fault or refusal. -/
theorem emit_reach {s : State} {k : Nat} {a : Word} {ws : List Word} (hn : ws.length ≤ 8) (h : s.mayReach k true a ws.length = true) :
    ∃ t, Wrote s t k a.toNat ws ∧ ∀ f, emit s k a ws f = f t := by
  have hw := mayReach_words hn h
  have hok : s.accessN k true false a ws.length = .ok := accessN_ok fun i hi => by
    rw [(hw i hi).1, access_write]
    exact (hw i hi).2.1
  refine ⟨_, writeN_wrote ws.length le_rfl fun i hi => (hw i hi).2.2, fun f => ?_⟩
  rw [emit, hok]

/-! ### The end of an instruction -/

/-- An instruction of a PROGRAM request below the last is counted (R616). -/
theorem programCount_within {t : State} {k : Nat} (h : k = 64 → ∀ p, t.host.prog = some p → p.count + 1 < 10000) :
    t.programCount k = { t with
      host := if k = 64 then { t.host with prog := t.host.prog.map (fun p => { p with count := p.count + 1 }) } else t.host } := by
  by_cases hk : k = 64
  · unfold State.programCount
    rw [if_pos hk]
    cases hp : t.host.prog with
    | none =>
      simp only [Option.map_none]
      rw [← hp]
    | some p => simp [hk, h hk p hp]
  · unfold State.programCount
    rw [if_neg hk]
    split
    · rfl
    · simp [hk]

/-- A task whose scan watchdog has not run out goes on (R144). -/
theorem watchdogBoundary_within {t : State} {k : Nat} (h : ∀ n, (t.core k).task = some n → (t.task n).wdog = false) :
    t.watchdogBoundary k = t := by
  unfold State.watchdogBoundary
  split
  · rfl
  next n hn => simp [h n hn]

theorem core_instrEnd (t : State) (k : Nat) (x : Core) : (t.instrEnd k x).core k = x := Tab.get_put_same ..

/-- The end of an instruction of a ready core that changed neither tasks nor the host window: it counts in a PROGRAM request, and goes
on. -/
theorem advance_ready {c : CoreId} {s t : State} (h : coreReady c s = true) (pc : Word)
    (htask : (t.core (coreKey c)).task = (s.core (coreKey c)).task) (htasks : t.tasks = s.tasks) (hhost : t.host = s.host) :
    t.advance (coreKey c) pc = t.instrEnd (coreKey c) { t.core (coreKey c) with pc := pc } := by
  obtain ⟨-, -, -, hwdog, hprog⟩ := (coreReady_iff c s).1 h
  generalize coreKey c = k at *
  have hcount : (t.setCore k { t.core k with pc := pc }).programCount k = t.instrEnd k { t.core k with pc := pc } :=
    programCount_within fun hk p (hp : t.host.prog = some p) => hprog hk p (by rw [← hhost, hp])
  rw [State.advance, hcount]
  refine watchdogBoundary_within fun n hn => ?_
  rw [core_instrEnd] at hn
  have hn' := hwdog n (by rw [← htask]; exact hn)
  rw [State.task, ← htasks] at hn'
  exact hn'

section
variable {c : CoreId} {w : Word} {bad : Bool} {body : Nat → State → Res} {s t : State} {k a : Nat} {ws : List Word}

theorem Wrote.core (h : Wrote s t k a ws) (j : Nat) : t.core j = s.core j := by
  rw [h.rest]
  rfl

/-- What stores and the end of their instruction leave. -/
theorem Wrote.stored (h : Wrote s t k a ws) (x : Core) : Stored s (t.instrEnd k x) k x a ws where
  written := h.written
  frame := h.frame
  others := h.others
  lines := h.lines
  rest := by
    have hr := congrArg (fun u => u.instrEnd k x) h.rest
    exact hr

/-- An instruction that stores words and goes on, with its core as it was. -/
theorem runInstr_wrote (h : coreReady c s = true) (hb : bad = false) (ht : (leavesTile w || s.loadsRegs (coreKey c) w) = false)
    (he : body (coreKey c) s = .next t) (hw : Wrote s t (coreKey c) a ws) :
    ∃ u, runInstr c w bad body s = .next u ∧ Stored s u (coreKey c) (s.afterI (coreKey c)) a ws := by
  refine ⟨_, (runInstr_ready h hb (.inl ht)).trans (by rw [he, finishInstr]), ?_⟩
  rw [advance_ready h _ (by rw [hw.core]) (by rw [hw.rest]) (by rw [hw.rest]), hw.core]
  exact hw.stored _

/-- The same with its core changed to x, but for the pc. -/
theorem runInstr_wrote_core (x : Core) (h : coreReady c s = true) (hb : bad = false)
    (ht : (leavesTile w || s.loadsRegs (coreKey c) w) = false)
    (he : body (coreKey c) s = .next (t.setCore (coreKey c) x)) (hx : x.task = (s.core (coreKey c)).task)
    (hw : Wrote s t (coreKey c) a ws) : ∃ u, runInstr c w bad body s = .next u ∧
      Stored s u (coreKey c) { x with pc := (s.core (coreKey c)).pc + 1 } a ws := by
  refine ⟨_, (runInstr_ready h hb (.inl ht)).trans (by rw [he, finishInstr]), ?_⟩
  have hend : ∀ y, (t.setCore (coreKey c) x).instrEnd (coreKey c) y = t.instrEnd (coreKey c) y := fun y => by
    simp only [State.instrEnd, State.setCore, Tab.put_put]
  rw [advance_ready h _ (by rw [core_setCore, hx]) (by rw [hw.rest]; rfl) (by rw [hw.rest]; rfl), core_setCore, hend]
  exact hw.stored _

end

end Sys2Proof.Machine
end

section
/-! The obligation of loads and stores: each instruction, then the whole statement. -/

namespace Sys2Proof.Machine

/-! ### Memory-format words -/

theorem fld_encM {op : Nat} (hop : op < 256) (f : MF) : fld (encM op f) 35 28 = op := by
  have hd := f.d.isLt
  have hb := f.base.isLt
  have ho := f.off.isLt
  unfold encM
  rw [Nat.add_assoc, Nat.add_assoc]
  exact fld_opcode hop (by simp only [at_]; omega)

/-- The effective address of an instruction word is that of its fields (R112). -/
theorem eaOf_encM (op : Nat) (f : MF) (s : State) (k : Nat) : s.eaOf k (encM op f) = s.ea k f := by
  have hd := f.d.isLt
  have hb := f.base.isLt
  have ho := f.off.isLt
  have hbase : fld (encM op f) 23 20 = f.base.toNat := by
    simp only [fld, fldN, encM, wd, at_, BitVec.toNat_ofNat]
    omega
  have hoff : (encM op f).setWidth 20 = f.off := by
    apply BitVec.eq_of_toNat_eq
    simp only [BitVec.toNat_setWidth, encM, wd, at_, BitVec.toNat_ofNat]
    omega
  rw [State.eaOf, State.ea, hbase, hoff]

/-- A load that does not read registers is no request that twins share. -/
theorem encM_load_inTile {op : Nat} (hop : op < 0x6C) {f : MF} {s : State} {k n : Nat} (hn : 0 < n) (hn8 : n ≤ 8)
    (h : s.mayReach k false (s.ea k f) n = true) : (leavesTile (encM op f) || s.loadsRegs k (encM op f)) = false := by
  have hw := fld_encM (by omega : op < 256) f
  have h0 := (mayReach_words hn8 h 0 hn).2.2
  have hregs : inRegs (s.ea k f).toNat = false := by
    by_cases ha : (s.ea k f).toNat < 0x10000
    · have hbase : ¬Config.sysBase ≤ (s.ea k f).toNat := by
        rw [show Config.sysBase = 0x100000 from rfl]
        omega
      simp [inRegs, hbase]
    · obtain ⟨t, ht, -⟩ := (wordClean_direct ha).1 h0
      exact inRegs_of_targetOf ht
  simp [leavesTile, State.loadsRegs, hw, eaOf_encM, hregs]
  omega

theorem encM_inTile {op : Nat} (hop : op < 0x6C) (h1 : op ≠ 1) (h3 : op ≠ 3) (f : MF) (s : State) (k : Nat) :
    (leavesTile (encM op f) || s.loadsRegs k (encM op f)) = false := by
  have hw := fld_encM (by omega : op < 256) f
  simp [leavesTile, State.loadsRegs, hw, h1, h3]
  omega

/-! ### Loads -/

theorem setGG_dword (s : State) (k d : Nat) (lo hi : Word) : s.setGG k d (dword lo hi) = (s.setG k d lo).setG k (d + 1) hi := by
  have hl := lo.isLt
  have hh := hi.isLt
  have hlo : dlo (dword lo hi) = lo := BitVec.eq_of_toNat_eq (by simp only [dlo, dword, BitVec.toNat_ofNat]; omega)
  have hhi : dhi (dword lo hi) = hi := BitVec.eq_of_toNat_eq (by simp only [dhi, dword, BitVec.toNat_ofNat]; omega)
  rw [State.setGG, hlo, hhi]

section
variable {c : CoreId} {s : State} (h : coreReady c s = true)
include h

theorem ld_completes (f : MF) (hr : s.mayReach (coreKey c) false (s.ea (coreKey c) f) 1 = true) :
    Completes (.ld c f) c s (s.afterR (coreKey c) f.d.toNat (s.wordAt (coreKey c) (s.ea (coreKey c) f).toNat)) := by
  show execLd c f s = _
  unfold execLd
  exact runInstr_core { s.core (coreKey c) with
    g := Tab.put 0 (s.core (coreKey c)).g f.d.toNat (s.wordAt (coreKey c) (s.ea (coreKey c) f).toNat) } h rfl
    (.inl (encM_load_inTile (by decide) (by decide) (by decide) hr)) (consume_reach (by decide) hr _) rfl

theorem ldd_completes (f : MF) (hd : f.d.toNat % 2 = 0) (hr : s.mayReach (coreKey c) false (s.ea (coreKey c) f) 2 = true) :
    Completes (.ldd c f) c s { s.afterI (coreKey c) with
      g := Tab.put 0 (Tab.put 0 (s.core (coreKey c)).g f.d.toNat (s.wordAt (coreKey c) (s.ea (coreKey c) f).toNat)) (f.d.toNat + 1)
        (s.wordAt (coreKey c) (s.ea (coreKey c) f + 1).toNat) } := by
  have hnext := (mayReach_words (by decide) hr 1 (by decide)).1
  show execLdd c f s = _
  unfold execLdd
  refine runInstr_core { s.core (coreKey c) with
    g := Tab.put 0 (Tab.put 0 (s.core (coreKey c)).g f.d.toNat (s.wordAt (coreKey c) (s.ea (coreKey c) f).toNat)) (f.d.toNat + 1)
      (s.wordAt (coreKey c) (s.ea (coreKey c) f + 1).toNat) } h (by simp [hd])
    (.inl (encM_load_inTile (by decide) (by decide) (by decide) hr)) ((consume_reach (by decide) hr _).trans ?_) rfl
  rw [setGG_dword, setG_setG]
  exact congrArg (fun b => Res.next (s.setCore (coreKey c) { s.core (coreKey c) with
    g := Tab.put 0 (Tab.put 0 (s.core (coreKey c)).g f.d.toNat (s.wordAt (coreKey c) (s.ea (coreKey c) f).toNat)) (f.d.toNat + 1)
      (s.wordAt (coreKey c) b) })) hnext.symm

theorem pop_completes (f : RF) (ha : f.a = 0) (hb : f.b = 0) (hfn : f.fn = 0)
    (hsp : s.spOk (coreKey c) ((s.core (coreKey c)).sp + 1).toNat = true)
    (hr : s.mayReach (coreKey c) false (s.core (coreKey c)).sp 1 = true) :
    Completes (.pop c f) c s { s.afterR (coreKey c) f.d.toNat (s.wordAt (coreKey c) (s.core (coreKey c)).sp.toNat) with
      sp := (s.core (coreKey c)).sp + 1 } := by
  show execPop c f s = _
  unfold execPop
  refine runInstr_core { s.core (coreKey c) with
    g := Tab.put 0 (s.core (coreKey c)).g f.d.toNat (s.wordAt (coreKey c) (s.core (coreKey c)).sp.toNat)
    sp := (s.core (coreKey c)).sp + 1 } h (by simp [ha, hb, hfn]) (.inl (encR_inTile (by decide) (by decide) (by decide) ..)) ?_ rfl
  simp only [hsp, Bool.not_true, Bool.false_eq_true, if_false]
  rw [consume_reach (by decide) hr]
  simp only [setG_eq, core_setCore, setCore_setCore]
  rfl

/-! ### Stores -/

theorem st_stores (f : MF) (hr : s.mayReach (coreKey c) true (s.ea (coreKey c) f) 1 = true) :
    ∃ t, exec (.st c f) s = .next t ∧
      Stored s t (coreKey c) (s.afterI (coreKey c)) (s.ea (coreKey c) f).toNat [s.g (coreKey c) f.d.toNat] := by
  obtain ⟨t, hw, he⟩ := emit_reach (ws := [s.g (coreKey c) f.d.toNat]) (by simp) hr
  show ∃ t, execSt c f s = _ ∧ _
  unfold execSt
  exact runInstr_wrote h rfl (encM_inTile (by decide) (by decide) (by decide) ..) (he _) hw

theorem std_stores (f : MF) (hd : f.d.toNat % 2 = 0) (hr : s.mayReach (coreKey c) true (s.ea (coreKey c) f) 2 = true) :
    ∃ t, exec (.std c f) s = .next t ∧ Stored s t (coreKey c) (s.afterI (coreKey c)) (s.ea (coreKey c) f).toNat
      [s.g (coreKey c) f.d.toNat, s.g (coreKey c) (f.d.toNat + 1)] := by
  obtain ⟨t, hw, he⟩ := emit_reach (ws := [s.g (coreKey c) f.d.toNat, s.g (coreKey c) (f.d.toNat + 1)]) (by simp) hr
  show ∃ t, execStd c f s = _ ∧ _
  unfold execStd
  exact runInstr_wrote h (by simp [hd]) (encM_inTile (by decide) (by decide) (by decide) ..) (he _) hw

theorem stl_stores (f : MF) (hd : f.d = 0 ∨ f.d = 8) (ha : (s.ea (coreKey c) f).toNat % 8 = 0)
    (hr : s.mayReach (coreKey c) true (s.ea (coreKey c) f) 8 = true) :
    ∃ t, exec (.stl c f) s = .next t ∧ Stored s t (coreKey c) (s.afterI (coreKey c)) (s.ea (coreKey c) f).toNat
      ((List.range 8).map fun i => s.g (coreKey c) (f.d.toNat + i)) := by
  obtain ⟨t, hw, he⟩ := emit_reach (ws := (List.range 8).map fun i => s.g (coreKey c) (f.d.toNat + i)) (by simp) (by simpa using hr)
  have hbad : (f.d != 0 && f.d != 8) = false := by rcases hd with hd | hd <;> simp [hd]
  show ∃ t, execStl c f s = _ ∧ _
  unfold execStl
  refine runInstr_wrote h hbad (encM_inTile (by decide) (by decide) (by decide) ..) (Eq.trans ?_ (he _)) hw
  simp only [ha, bne_self_eq_false, Bool.false_eq_true, if_false]

theorem push_stores (f : RF) (ha : f.a = 0) (hb : f.b = 0) (hfn : f.fn = 0)
    (hsp : s.spOk (coreKey c) ((s.core (coreKey c)).sp - 1).toNat = true)
    (hr : s.mayReach (coreKey c) true ((s.core (coreKey c)).sp - 1) 1 = true) :
    ∃ t, exec (.push c f) s = .next t ∧ Stored s t (coreKey c) { s.afterI (coreKey c) with sp := (s.core (coreKey c)).sp - 1 }
      ((s.core (coreKey c)).sp - 1).toNat [s.g (coreKey c) f.d.toNat] := by
  obtain ⟨t, hw, he⟩ := emit_reach (ws := [s.g (coreKey c) f.d.toNat]) (by simp) hr
  show ∃ t, execPush c f s = _ ∧ _
  unfold execPush
  refine runInstr_wrote_core { s.core (coreKey c) with sp := (s.core (coreKey c)).sp - 1 } h (by simp [ha, hb, hfn])
    (encR_inTile (by decide) (by decide) (by decide) ..) ?_ rfl hw
  simp only [hsp, Bool.not_true, Bool.false_eq_true, if_false]
  rw [he, hw.core]

end

/-! ### CAS -/

theorem lineWords_getD (s : State) (l : Nat) {i : Nat} (h : i < 8) : (s.lineWords l).getD i 0 = s.word (8 * l + i) := by
  simp [State.lineWords, List.getD_eq_getElem?_getD, List.getElem?_range h]

/-- CAS on a clean word (R155): the word read, and a store where it is the expected one. -/
theorem casAt_clean {s : State} {k a : Nat} (e new : Word) (hc : s.wordClean k a = true) :
    ∃ t, s.casAt k a e new = (s.wordAt k a, false, t) ∧ (s.wordAt k a = e → Wrote s t k a [new]) ∧ (s.wordAt k a ≠ e → t = s) := by
  unfold State.casAt
  by_cases ha : a < 0x10000
  · rw [if_pos ha, locRead_clean ha hc]
    by_cases he : s.wordAt k a = e
    · exact ⟨s.locWrite k a new, by simp [he], fun _ => locWrite_wrote s new ha, fun h => absurd he h⟩
    · exact ⟨s, by simp [he], fun h => absurd h he, fun _ => rfl⟩
  · obtain ⟨t, ht, hd, hp, hs, hw⟩ := (wordClean_direct ha).1 hc
    have hword : (s.lineWords (a / 8)).getD (a % 8) 0 = s.wordAt k a := by
      rw [State.wordAt, if_neg ha, lineWords_getD _ _ (by omega), show 8 * (a / 8) + a % 8 = a by omega]
    have hmask : 2 ^ (a % 8) = maskOf (a % 8) 1 := by
      have : a % 8 < 8 := by omega
      interval_cases a % 8 <;> rfl
    rw [if_neg ha, ht]
    simp only [hd, if_true, State.perform, State.countFlit, decode_clean hs hw, hp, Bool.not_true, Bool.or_self,
      Bool.false_eq_true, if_false, hword]
    by_cases he : s.wordAt k a = e
    · rw [if_pos he]
      exact ⟨_, by rw [hword], fun _ => hmask ▸ lineWrite_wrote (ws := [new]) _ ha Nat.one_pos (by simp; omega) hc, fun h => absurd he h⟩
    · rw [if_neg he]
      exact ⟨s, by rw [hword], fun h => absurd h he, fun _ => rfl⟩

section
variable {c : CoreId} {s : State} {f : RF} {a : Word} (h : coreReady c s = true)
  (ha : a = s.g (coreKey c) f.a.toNat + f.fn.signExtend 36) (hr : s.mayReach (coreKey c) true a 1 = true)
include h ha hr

/-- CAS that finds the expected word stores its own (R155). -/
theorem cas_stores (he : s.wordAt (coreKey c) a.toNat = s.g (coreKey c) f.d.toNat) : ∃ t, exec (.cas c f) s = .next t ∧
    Stored s t (coreKey c) (s.afterF (coreKey c) f.d.toNat (s.wordAt (coreKey c) a.toNat) { z := some true }) a.toNat
      [s.g (coreKey c) f.b.toNat] := by
  obtain ⟨-, hok, hc⟩ := mayReach_words (by decide) hr 0 (by decide)
  obtain ⟨t, hcas, hw, -⟩ := casAt_clean (s.g (coreKey c) f.d.toNat) (s.g (coreKey c) f.b.toNat) hc
  have hw := hw he
  show ∃ t, execCas c f s = _ ∧ _
  unfold execCas
  refine runInstr_wrote_core { s.core (coreKey c) with
    g := Tab.put 0 (s.core (coreKey c)).g f.d.toNat (s.wordAt (coreKey c) a.toNat)
    fl := ({ z := some true } : FlagSet).apply (s.core (coreKey c)).fl } h rfl
    (encR_inTile (by decide) (by decide) (by decide) ..) ?_ rfl hw
  simp only [Nat.add_zero] at hok hcas
  rw [← hw.core, ← putRes_eq]
  simp only [← ha, access_write, hok, hcas, he, decide_true, Bool.false_eq_true, if_false]
  rfl

/-- CAS that finds another word changes its core alone (R155). -/
theorem cas_completes (he : s.wordAt (coreKey c) a.toNat ≠ s.g (coreKey c) f.d.toNat) : Completes (.cas c f) c s
    (s.afterF (coreKey c) f.d.toNat (s.wordAt (coreKey c) a.toNat) { z := some false }) := by
  obtain ⟨-, hok, hc⟩ := mayReach_words (by decide) hr 0 (by decide)
  obtain ⟨t, hcas, -, hs⟩ := casAt_clean (s.g (coreKey c) f.d.toNat) (s.g (coreKey c) f.b.toNat) hc
  obtain rfl := hs he
  show execCas c f _ = _
  unfold execCas
  refine runInstr_R_putRes (by decide) h rfl ?_
  simp only [Nat.add_zero] at hok hcas
  simp only [← ha, access_write, hok, hcas, he, decide_false, Bool.false_eq_true, if_false]
  rfl

end

end Sys2Proof.Machine
end

section
namespace Sys2Proof.Machine

/-- A write to part of a clean line, or of the whole line (R60, R65, R68). -/
theorem lineWrite_clean {s : State} {l mask : Nat} {data : List Word} {owner : BitVec 2} (hdata : data.length = 8)
    (herr : Tab.get {} s.mem.errs l = {}) :
    (∀ a, a / 8 ≠ l → (s.lineWrite l mask data false owner).word a = s.word a ∧
      (s.lineWrite l mask data false owner).lineMeta (a / 8) = s.lineMeta (a / 8)) ∧
    (∀ i < 8, (s.lineWrite l mask data false owner).word (8 * l + i) =
      if mask.testBit i then data.getD i 0 else s.word (8 * l + i)) ∧
    (s.lineWrite l mask data false owner).lineMeta l = { owner := owner, version := (s.lineMeta l).version + 1
                                                         poison := if mask = 255 then false else (s.lineMeta l).poison } := by
  have hl : mask = 255 ∨ s.decode l = s := .inr (decode_clean (by rw [herr]) (by rw [herr]))
  refine ⟨fun a ha => ⟨?_, lineWrite_lineMeta_other hl ha⟩, fun i hi => ?_, ?_⟩
  · rw [lineWrite_word hl, if_neg (by omega)]
  · have hin : 8 * l ≤ 8 * l + i ∧ 8 * l + i < 8 * l + data.length := by omega
    rw [lineWrite_word hl, Nat.add_sub_cancel_left]
    simp only [hin, true_and]
  · rw [lineWrite_lineMeta_same hl, Bool.or_false]

/-- Settles O12: what the core reaches without the spine is read and written directly, a word at a time or line by line
under the operation's mask. -/
theorem loadsAndStores : Obligations.LoadsAndStores := by
  unfold Obligations.LoadsAndStores
  refine ⟨⟨fun c f s h => ⟨ld_completes h f, ldd_completes h f⟩, fun c f s h ha hb hfn => pop_completes h f ha hb hfn⟩,
    ⟨fun c f s h => ⟨fun hr _ => st_stores h f hr, fun hd hr _ => std_stores h f hd hr, stl_stores h f⟩,
      fun c f s h => ⟨push_stores h f, cas_stores h rfl, cas_completes h rfl⟩⟩,
    fun s l mask data owner hdata _ herr => lineWrite_clean hdata herr⟩

end Sys2Proof.Machine
end

section
/-! SUPPORT. What the decoder, the retirement and the scrubber do to a line (R64, R69, R70, R73). -/

namespace Sys2Proof.Machine

theorem incReg_one (s : State) (o : Nat) : (s.incReg o 1).reg o = s.reg o + 1 := by
  rw [incReg_reg]
  apply BitVec.eq_of_toNat_eq
  simp [wd]

theorem Memory.putWords_eq (m : Memory) (a : Nat) (ws : List Word) : m.putWords a ws = { m with words := (m.putWords a ws).words } := by
  induction ws generalizing m a with
  | nil => rfl
  | cons v r ih =>
    rw [Memory.putWords, ih]
    rfl

theorem markDirty_mem (s : State) (l : Nat) : (s.markDirty l).mem = s.mem := by rw [markDirty_eq]

/-! ### Decoding -/

section
variable {s : State} {l : Nat} (hp : (s.lineMeta l).poison = false)
include hp

/-- Up to four symbols are corrected, and the line stays where it is if it lies below the DRAM or has at most two (R64, R70). -/
theorem decode_corrects (h1 : 1 ≤ (Tab.get {} s.mem.errs l).symbols) (h4 : (Tab.get {} s.mem.errs l).symbols ≤ 4)
    (ht : (Tab.get {} s.mem.errs l).tagWrong = false) (hd : 8 * l < Config.dramBase ∨ (Tab.get {} s.mem.errs l).symbols ≤ 2) :
    s.decode l = s.incReg offMemCorr 1 := by
  have hne : (Tab.get {} s.mem.errs l).symbols ≠ 0 := by omega
  have hnot : ¬4 < (Tab.get {} s.mem.errs l).symbols := by omega
  have hstay : ¬(Config.dramBase ≤ 8 * l ∧ 3 ≤ (Tab.get {} s.mem.errs l).symbols) := by omega
  simp [State.decode, hp, ht, hne, hnot, hstay]

/-- A wrong tag poisons the line alone and is counted with its address (R64). -/
theorem decode_tagWrong (ht : (Tab.get {} s.mem.errs l).tagWrong = true) :
    (s.decode l).poisoned (8 * l) = true ∧ (s.decode l).reg offMemUncorr = s.reg offMemUncorr + 1 ∧
      (s.decode l).reg offMemLastBad = wd (8 * l) ∧ ∀ j, j ≠ l → (s.decode l).lineMeta j = s.lineMeta j := by
  have hlines : (s.decode l).mem.lines = Tab.put {} s.mem.lines l { s.lineMeta l with poison := true } := by
    simp only [State.decode, hp, ht, Bool.not_true, Bool.and_false, Bool.or_self, Bool.false_eq_true, if_false, Bool.true_or, if_true]
    rw [markDirty_mem]
    simp only [setReg_mem, State.incReg, Memory.putMeta]
    rw [Memory.putWords_eq]
  refine ⟨?_, ?_, ?_, fun j hj => ?_⟩
  · rw [State.poisoned, State.lineMeta, hlines, Nat.mul_div_cancel_left l (by decide), Tab.get_put_same]
  · simp only [State.decode, hp, ht, Bool.not_true, Bool.and_false, Bool.or_self, Bool.false_eq_true, if_false, Bool.true_or, if_true]
    rw [markDirty_reg, setReg_reg_ne _ _ _ _ (by decide), incReg_one]
    rfl
  · simp only [State.decode, hp, ht, Bool.not_true, Bool.and_false, Bool.or_self, Bool.false_eq_true, if_false, Bool.true_or, if_true]
    rw [markDirty_reg, setReg_reg]
  · rw [State.lineMeta, hlines, Tab.get_put_other _ _ _ _ hj]
    rfl

end

/-! ### The scrubber's place, which a line's decoding leaves -/

theorem Memory.putWords_scrub (m : Memory) (a : Nat) (ws : List Word) : (m.putWords a ws).scrub = m.scrub := by
  rw [Memory.putWords_eq]

theorem retire_scrub (s : State) (l : Nat) : (s.retire l).mem.scrub = s.mem.scrub := by
  unfold State.retire
  extract_lets used src m t
  split
  · split <;> rfl
  · rfl

theorem decode_scrub (s : State) (l : Nat) : (s.decode l).mem.scrub = s.mem.scrub := by
  unfold State.decode
  extract_lets e x y m z t
  split
  · rfl
  split
  · rw [markDirty_mem]
    exact Memory.putWords_scrub s.mem (8 * l) e.asRead
  split
  · exact Memory.putWords_scrub s.mem (8 * l) _
  · split
    · exact retire_scrub t l
    · rfl

theorem scrubLine_scrub (s : State) (l : Nat) : (s.scrubLine l).mem.scrub = s.mem.scrub := by
  have h := decode_scrub s l
  unfold State.scrubLine
  extract_lets e clear t moved src u
  split
  · rfl
  split
  · exact h
  split
  · exact h
  split
  · split
    · exact h
    · exact (retire_scrub u l).trans h
  · exact h

theorem scrubLine_cores (s : State) (l : Nat) : (s.scrubLine l).cores = s.cores := by
  have h := (decode_write s l).cores
  unfold State.scrubLine
  extract_lets e clear t moved src u
  split
  · rfl
  split
  · exact h
  split
  · exact h
  split
  · split
    · exact h
    · exact ((retire_write u l).cores).trans h
  · exact h

/-! ### Retirement and scrubbing of a line -/

/-- Retiring a line keeps its metadata, the registers but MEM.RETIRED, and leaves no disturbance (R70). -/
theorem retire_line (s : State) (l : Nat) : (s.retire l).mem.lines = s.mem.lines ∧
    (Tab.get {} s.mem.errs l = {} → Tab.get {} (s.retire l).mem.errs l = {}) ∧
    ∀ o, o ≠ offMemRetired → (s.retire l).reg o = s.reg o := by
  unfold State.retire
  extract_lets used src m t
  have ht (o) (ho : o ≠ offMemRetired) : t.reg o = s.reg o := incReg_reg_ne { s with mem := m } _ _ _ ho
  have he : Tab.get {} t.mem.errs l = {} := by
    show Tab.get {} (Tab.put {} s.mem.errs l {}) l = {}
    exact Tab.get_put_same ..
  split
  · split
    · exact ⟨rfl, fun _ => he, ht⟩
    · exact ⟨rfl, fun _ => he, ht⟩
  · exact ⟨rfl, id, fun _ _ => rfl⟩

/-- A scrub of a line with one or two symbols in error writes the corrected line back and counts the correction (R64, R69). -/
theorem scrubLine_corrects {s : State} {l : Nat} (hp : (s.lineMeta l).poison = false) (h1 : 1 ≤ (Tab.get {} s.mem.errs l).symbols)
    (h2 : (Tab.get {} s.mem.errs l).symbols ≤ 2) (ht : (Tab.get {} s.mem.errs l).tagWrong = false) :
    Tab.get {} (s.scrubLine l).mem.errs l = {} ∧ (s.scrubLine l).reg offMemCorr = s.reg offMemCorr + 1 ∧
      (s.scrubLine l).lineMeta l = s.lineMeta l := by
  have hdec := decode_corrects hp h1 (by omega) ht (.inr h2)
  have hne : (Tab.get {} s.mem.errs l).symbols ≠ 0 := by omega
  have hnot : ¬4 < (Tab.get {} s.mem.errs l).symbols := by omega
  have hfew : ¬3 ≤ (Tab.get {} s.mem.errs l).symbols := by omega
  have hcorr := incReg_one s offMemCorr
  unfold State.scrubLine
  extract_lets e clear t moved src u
  have hclean : Tab.get {} u.mem.errs l = {} := by
    show Tab.get {} (Tab.put {} t.mem.errs l {}) l = {}
    exact Tab.get_put_same ..
  have hu : Tab.get {} u.mem.errs l = {} ∧ u.reg offMemCorr = s.reg offMemCorr + 1 ∧ u.lineMeta l = s.lineMeta l :=
    ⟨hclean, by rw [← hcorr, ← hdec]; rfl, (congrArg (State.lineMeta · l) hdec :)⟩
  obtain ⟨hlines, herrs, hregs⟩ := retire_line u l
  rw [if_neg (by simp [hp, e, hne]), if_neg (by simp [e, hnot, ht])]
  split
  · exact hu
  split
  · obtain ⟨he, hc, hm⟩ := hu
    exact ⟨herrs he, (hregs _ (by decide)).trans hc, by rw [State.lineMeta, hlines]; exact hm⟩
  · exact hu

/-- A scrub of a line without a disturbance ends its run of corrections, nothing else (R70). -/
theorem scrubLine_clean {s : State} {l : Nat} (he : Tab.get {} s.mem.errs l = {}) :
    s.scrubLine l = { s with mem := { s.mem with needed := Tab.put false s.mem.needed l false } } := by
  simp [State.scrubLine, he]

/-- The visit: the line's scrub, then the next place and the count of passes (R73). -/
theorem scrubVisit_eq {m : MemTarget} {s : State} (hr : s.host.ready = true) : ∃ u, exec (.scrubVisit m) s = .next u ∧
    (∀ t, t = s.scrubLine (memLine (memNo m) (Tab.get 0 s.mem.scrub (memNo m))) →
      Tab.get 0 u.mem.scrub (memNo m) = (Tab.get 0 s.mem.scrub (memNo m) + 1) % memLines (memNo m) ∧
      u.mem.errs = t.mem.errs ∧ u.mem.words = t.mem.words ∧ u.mem.lines = t.mem.lines ∧ u.cores = t.cores ∧
      u.reg offMemCorr = t.reg offMemCorr) := by
  show ∃ u, execScrubVisit m s = _ ∧ _
  unfold execScrubVisit
  refine ⟨_, rfl, fun t ht => ?_⟩
  subst ht
  rw [hr]
  simp only [Bool.not_true, Bool.false_eq_true, if_false]
  have hplace := Tab.get_put_same 0 (s.scrubLine (memLine (memNo m) (Tab.get 0 s.mem.scrub (memNo m)))).mem.scrub (memNo m)
    ((Tab.get 0 s.mem.scrub (memNo m) + 1) % memLines (memNo m))
  split
  · exact ⟨hplace, rfl, rfl, rfl, rfl, rfl⟩
  · exact ⟨hplace, rfl, rfl, rfl, rfl, incReg_reg_ne _ _ _ _ (by decide)⟩

theorem scrubVisit_completes {m : MemTarget} {s : State} (hr : s.host.ready = true) :
    let n := Tab.get 0 s.mem.scrub (memNo m)
    let l := memLine (memNo m) n
    let e := Tab.get {} s.mem.errs l
    ∃ u, exec (.scrubVisit m) s = .next u ∧ Tab.get 0 u.mem.scrub (memNo m) = (n + 1) % memLines (memNo m) ∧
      ((s.lineMeta l).poison = false → 1 ≤ e.symbols → e.symbols ≤ 2 → e.tagWrong = false →
        Tab.get {} u.mem.errs l = {} ∧ u.reg offMemCorr = s.reg offMemCorr + 1 ∧ u.lineMeta l = s.lineMeta l) ∧
      (e = {} → u.mem.words = s.mem.words ∧ u.mem.lines = s.mem.lines ∧ u.reg offMemCorr = s.reg offMemCorr) ∧ u.cores = s.cores := by
  intro n l e
  obtain ⟨u, hu, h⟩ := scrubVisit_eq (m := m) hr
  obtain ⟨hplace, herrs, hwords, hlines, hcores, hcorr⟩ := h _ rfl
  refine ⟨u, hu, hplace, fun hp h1 h2 ht => ?_, fun he => ?_, hcores.trans (scrubLine_cores s l)⟩
  · rw [herrs, hcorr, State.lineMeta, hlines]
    exact scrubLine_corrects hp h1 h2 ht
  · rw [hwords, hlines, hcorr, scrubLine_clean he]
    exact ⟨rfl, rfl, rfl⟩

end Sys2Proof.Machine
end

section
/-! The obligation of line memory and the spine: service at a target, tags, credits (R27 - R31, R65, R75). -/

namespace Sys2Proof.Machine

theorem lineWrite_full_lineWords {s : State} {l : Nat} {data : List Word} (h : data.length = 8) (poison : Bool) (owner : BitVec 2) :
    (s.lineWrite l 255 data poison owner).lineWords l = data := by
  refine List.ext_getElem (by simp [State.lineWords, h]) fun i hi hi' => ?_
  have hin : 8 * l ≤ 8 * l + i ∧ 8 * l + i < 8 * l + 8 := by omega
  simp only [State.lineWords, List.getElem_map, List.getElem_range]
  rw [lineWrite_full_word s l h, if_pos hin, Nat.add_sub_cancel_left, List.getD_eq_getElem _ _ hi']

theorem lineWrite_full_lineWords_other {s : State} {l j : Nat} {data : List Word} (h : data.length = 8) (poison : Bool) (owner : BitVec 2)
    (hj : j ≠ l) : (s.lineWrite l 255 data poison owner).lineWords j = s.lineWords j :=
  List.map_congr_left fun i hi => by
    have := List.mem_range.1 hi
    rw [lineWrite_full_word s l h, if_neg (by omega)]

/-! ### Service at a target -/

/-- The spine after its target has taken the request (R27, R30): the wheel and the class's list turn, and the tag waits for its
response. -/
def Spine.taken (x : Spine) (t : Nat) (r : SpineReq) : Spine :=
  { x with
    wheel := Tab.put 0 x.wheel t ((Tab.get 0 x.wheel t + 1) % 16)
    lists := Tab.put (List.range 10) x.lists (4 * t + r.cls) ((x.list t r.cls).erase r.port ++ [r.port])
    waiting := x.waiting.erase r
    acked := x.acked ++ [SpineAck.mk r.tag r.port r.core r.cls r.target r.seq] }

/-- One service: the request is taken, performed, and its response sent (R27). -/
theorem spineTargetService_eq {m : MemTarget} {ok : Bool} {s : State} {r : SpineReq} (h : s.spine.next (memNo m) = some r) :
    exec (.spineTargetService m ok) s =
      let p := State.perform { s with spine := s.spine.taken (memNo m) r } r ok
      .next (p.1.sendBack r p.2.1 p.2.2).2 := by
  show execSpineTargetService m ok s = _
  simp only [execSpineTargetService, State.serveOne, h, Option.map_some]
  rfl

/-- What a taken request leaves behind of the spine, links aside. -/
structure Taken (s u : State) (t : Nat) (r : SpineReq) : Prop where
  waiting : u.spine.waiting = s.spine.waiting.erase r
  acked : u.spine.acked = s.spine.acked ++ [SpineAck.mk r.tag r.port r.core r.cls r.target r.seq]
  wheel : Tab.get 0 u.spine.wheel t = (Tab.get 0 s.spine.wheel t + 1) % 16
  list : u.spine.list t r.cls = (s.spine.list t r.cls).erase r.port ++ [r.port]

theorem Taken.of_eq {s u : State} {t : Nat} {r : SpineReq}
    (h : ∃ c k, u.spine = { s.spine.taken t r with credits := c, strikes := k }) : Taken s u t r := by
  obtain ⟨c, k, h⟩ := h
  exact ⟨by rw [h]; rfl, by rw [h]; rfl, by rw [h]; exact Tab.get_put_same .., by rw [h]; exact Tab.get_put_same ..⟩

section
variable {m : MemTarget} {s : State} {r : SpineReq} (h : s.spine.next (memNo m) = some r)
include h

/-- A full-line write at its target (R65). -/
theorem spineTargetService_write (hk : r.kind = .write) (hm : r.mask = 255) (hd : r.data.length = 8) :
    ∃ u, exec (.spineTargetService m true) s = .next u ∧ Taken s u (memNo m) r ∧ u.lineWords r.line = r.data ∧
      u.lineMeta r.line = { owner := portOwner r.port, poison := r.poison, version := (s.lineMeta r.line).version + 1 } ∧
      (∀ l, l ≠ r.line → u.lineMeta l = s.lineMeta l ∧ u.lineWords l = s.lineWords l) ∧ u.cores = s.cores := by
  let s1 : State := { s with spine := s.spine.taken (memNo m) r }
  let w := s1.lineWrite r.line 255 r.data r.poison (portOwner r.port)
  have hexec : exec (.spineTargetService m true) s = .next { w with spine := w.spine.hop (targetPort r.target) 0 r.cls } := by
    rw [spineTargetService_eq h]
    simp [State.perform, State.sendBack, State.countFlit, hk, hm, ReqKind.reads, w, s1]
  have hspine : w.spine = s.spine.taken (memNo m) r := congrArg State.spine (lineWrite_rest (.inl rfl))
  have hcores : w.cores = s.cores := (lineWrite_write s1 _ _ _ _ _).cores
  refine ⟨_, hexec, .of_eq ⟨_, _, congrArg (Spine.hop · (targetPort r.target) 0 r.cls) hspine⟩, lineWrite_full_lineWords (s := s1) hd _ _, lineWrite_lineMeta_same (s := s1) (.inl rfl),
    fun l hl => ⟨lineWrite_lineMeta_other (s := s1) (.inl rfl) hl, lineWrite_full_lineWords_other (s := s1) hd _ _ hl⟩, hcores⟩

/-- A read of a good line over a good link (R64, R65). -/
theorem spineTargetService_read (hk : r.kind = .read) (he : Tab.get {} s.mem.errs r.line = {})
    (hs : Tab.get 0 s.spine.strikes (loopNo (targetPort r.target) 0 r.cls) = 0) :
    ∃ u, exec (.spineTargetService m true) s = .next u ∧ Taken s u (memNo m) r ∧ u.mem = s.mem ∧ u.regs = s.regs := by
  let s1 : State := { s with spine := s.spine.taken (memNo m) r }
  have hdec : s1.decode r.line = s1 := decode_clean (congrArg LineErr.symbols he) (congrArg LineErr.tagWrong he)
  have hstrike : Tab.get 0 s1.spine.strikes (loopNo (targetPort r.target) 0 r.cls) = 0 := hs
  have hexec : exec (.spineTargetService m true) s = .next { s1 with
      spine := (s1.spine.cross (targetPort r.target) 0 r.cls (s1.lineWords r.line) r.mask ((s1.lineMeta r.line).poison || !true)).2 } := by
    rw [spineTargetService_eq h]
    show Host.Outcome.next (State.sendBack _ r _ _).2 = _
    simp only [State.perform, State.countFlit, if_true, hk]
    rw [show State.decode _ r.line = s1 from hdec]
    simp [State.sendBack, State.countFlit, hk, ReqKind.reads, Spine.cross, hstrike]
  exact ⟨_, hexec, .of_eq ⟨_, _, rfl⟩, rfl, rfl⟩

end

theorem spineTargetService_idle {m : MemTarget} (ok : Bool) {s : State} (h : s.spine.next (memNo m) = none) :
    exec (.spineTargetService m ok) s = .next s := by
  show execSpineTargetService m ok s = _
  simp [execSpineTargetService, State.serveOne, h]

/-! ### Tags and credits -/

section
variable {t : Fin 512} {a : SpineAck} {s : State} (ha : s.spine.acked.find? (fun a => a.tag = t.val) = some a)
include ha

/-- A response waits behind an earlier one of its port and target, and for a slot of its link (R30, R31). -/
theorem transactionComplete_waits (h : s.spine.early a = true ∨ s.spine.full a.port 1 a.cls = true) :
    exec (.transactionComplete t) s = .next s := by
  have hstay : (s.spine.early a || s.spine.full a.port 1 a.cls) = true := by simpa using h
  show execTransactionComplete t s = _
  simp only [execTransactionComplete, ha, hstay, if_true]

theorem transactionComplete_returns (he : s.spine.early a = false) (hf : s.spine.full a.port 1 a.cls = false) :
    ∃ u, exec (.transactionComplete t) s = .next u ∧ u.spine.acked = s.spine.acked.filter (fun a => a.tag != t.val) ∧
      u.spine.waiting = s.spine.waiting ∧ u = { s with spine := u.spine } := by
  show ∃ u, execTransactionComplete t s = _ ∧ _
  simp only [execTransactionComplete, ha, he, hf, Bool.or_self, Bool.false_eq_true, if_false]
  exact ⟨_, rfl, rfl, rfl, rfl⟩

end

theorem commandBeatCrcFail_ends {t : Fin 512} {s : State} (h : s.spine.waiting.any (fun r => r.tag = t.val) = true) :
    ∃ u, exec (.commandBeatCrcFail t) s = .next u ∧
      u.spine = { s.spine with waiting := s.spine.waiting.filter (fun r => r.tag != t.val) } ∧
      u.reg offSpineCrcerr = s.reg offSpineCrcerr + 1 ∧ u = { s with spine := u.spine, regs := u.regs } := by
  show ∃ u, execCommandBeatCrcFail t s = _ ∧ _
  simp only [execCommandBeatCrcFail, h, if_true]
  exact ⟨_, rfl, rfl, incReg_one .., rfl⟩

section
variable {p : Fin 12} {d : Bool} {k : Fin 4} {s : State}

theorem creditReturn_kept
    (h : (Tab.get {} s.spine.credits (loopNo p.val (b2n d) k.val)).occupied ≤ s.spine.kept p.val (b2n d) k.val) :
    exec (.creditReturn p d k) s = .next s := by
  show execCreditReturn p d k s = _
  simp only [execCreditReturn, h, if_true]

theorem creditReturn_returns
    (h : s.spine.kept p.val (b2n d) k.val < (Tab.get {} s.spine.credits (loopNo p.val (b2n d) k.val)).occupied) :
    let j := loopNo p.val (b2n d) k.val
    let x := Tab.get {} s.spine.credits j
    ∃ u, exec (.creditReturn p d k) s = .next u ∧
      Tab.get {} u.spine.credits j = { x with held := x.held + 1, occupied := x.occupied - 1 } ∧
      (∀ i, i ≠ j → Tab.get {} u.spine.credits i = Tab.get {} s.spine.credits i) ∧ u = { s with spine := u.spine } := by
  show ∃ u, execCreditReturn p d k s = _ ∧ _
  simp only [execCreditReturn, Nat.not_le.2 h, if_false]
  exact ⟨_, rfl, Tab.get_put_same .., fun i hi => Tab.get_put_other _ _ _ _ hi, rfl⟩

end

/-- Settles O35, one lemma per event. -/
theorem lineMemoryAndSpine : Obligations.LineMemoryAndSpine := by
  unfold Obligations.LineMemoryAndSpine
  refine ⟨⟨fun s l hp => ⟨fun h0 ht => decode_clean h0 ht, fun h1 h4 ht hd => decode_corrects hp h1 h4 ht hd,
    fun ht => ⟨_, rfl, decode_tagWrong hp ht⟩⟩, fun m s hr => scrubVisit_completes hr⟩, fun s => ⟨fun m r h => ⟨?_, ?_⟩,
    fun m ok h => spineTargetService_idle ok h, fun t a ha => ⟨transactionComplete_waits ha, transactionComplete_returns ha⟩,
    fun t h => commandBeatCrcFail_ends h, fun p d k => ⟨creditReturn_kept, creditReturn_returns⟩⟩⟩
  · intro hk hm hd
    obtain ⟨u, hu, ⟨hwait, hack, hwheel, hlist⟩, hrest⟩ := spineTargetService_write h hk hm hd
    exact ⟨u, hu, ⟨hwait, hack, hwheel, hlist⟩, hrest⟩
  · intro hk he hs
    obtain ⟨u, hu, ⟨hwait, hack, hwheel, hlist⟩, hrest⟩ := spineTargetService_read h hk he hs
    exact ⟨u, hu, ⟨hwait, hack, hwheel, hlist⟩, hrest⟩

end Sys2Proof.Machine
end

section
/-! SUPPORT. What the units leave as it is in a cell clock: device time, the cell clocks and the cores (R54, R79), and the orders of
the cell clock (R43). -/

namespace Sys2Proof.Machine

/-- Device time, the cell clocks since reset, the cores, and the orders of the cell clock. -/
def State.clockView (s : State) : (Nat × Nat × Nat) × Tab Core × List Order := ((s.now, s.cc, s.prevNow), s.cores, s.orders)

/-- What every pass over a list leaves as it is. -/
theorem foldl_view {α β : Type} {v : State → β} {f : State → α → State} (h : ∀ s a, v (f s a) = v s) (l : List α) (s : State) :
    v (l.foldl f s) = v s :=
  List.foldlRecOn (motive := fun t => v t = v s) l f rfl fun t ht a _ => (h t a).trans ht

@[simp] theorem ite_clockView (p : Prop) [Decidable p] (t u : State) :
    (if p then t else u).clockView = if p then t.clockView else u.clockView := apply_ite ..

section
variable (s : State)

/-! ### Single units -/

@[simp] theorem setReg_clockView (o : Nat) (v : Word) : (s.setReg o v).clockView = s.clockView := (rfl)
@[simp] theorem setRfld_clockView (o hi lo v : Nat) : (s.setRfld o hi lo v).clockView = s.clockView := (rfl)
@[simp] theorem satRfld_clockView (o hi lo k : Nat) : (s.satRfld o hi lo k).clockView = s.clockView := (rfl)
@[simp] theorem incReg_clockView (o k : Nat) : (s.incReg o k).clockView = s.clockView := (rfl)
@[simp] theorem setPair_clockView (p : Nat) (x : Pwm) : (s.setPair p x).clockView = s.clockView := (rfl)
@[simp] theorem setChop_clockView (f : Nat) (x : Chop) : (s.setChop f x).clockView = s.clockView := (rfl)
@[simp] theorem setStep_clockView (g : Nat) (x : StepGen) : (s.setStep g x).clockView = s.clockView := (rfl)
@[simp] theorem setConv_clockView (k : Nat) (x : Conv) : (s.setConv k x).clockView = s.clockView := (rfl)
@[simp] theorem setAin_clockView (n : Nat) (x : Ain) : (s.setAin n x).clockView = s.clockView := (rfl)
@[simp] theorem setCan_clockView (p : Nat) (x : Can) : (s.setCan p x).clockView = s.clockView := (rfl)
@[simp] theorem setBox_clockView (p m : Nat) (x : Mailbox) : (s.setBox p m x).clockView = s.clockView := (rfl)
@[simp] theorem setCap_clockView (u : Nat) (x : Capture) : (s.setCap u x).clockView = s.clockView := (rfl)
@[simp] theorem setLane_clockView (n : Nat) (x : Lane) : (s.setLane n x).clockView = s.clockView := (rfl)
@[simp] theorem setAxis_clockView (a : Nat) (x : Axis) : (s.setAxis a x).clockView = s.clockView := (rfl)
@[simp] theorem setAgroup_clockView (g : Nat) (x : AGroup) : (s.setAgroup g x).clockView = s.clockView := (rfl)
@[simp] theorem setTask_clockView (n : Nat) (x : Task) : (s.setTask n x).clockView = s.clockView := (rfl)
@[simp] theorem setSignal_clockView (n : Nat) (x : Signal) : (s.setSignal n x).clockView = s.clockView := (rfl)
@[simp] theorem produce_clockView (i n : Nat) : (s.produce i n).clockView = s.clockView := (rfl)
@[simp] theorem deliver_clockView (i n : Nat) : (s.deliver i n).clockView = s.clockView := (rfl)
@[simp] theorem drop_clockView (i r n : Nat) : (s.drop i r n).clockView = s.clockView := (rfl)
@[simp] theorem drawWord_clockView : s.drawWord.2.clockView = s.clockView := (rfl)
@[simp] theorem drawSense_clockView : s.drawSense.2.clockView = s.clockView := (rfl)

theorem WriteStep.clockView {s t : State} (h : WriteStep s t) : t.clockView = s.clockView := by rw [h.same]; rfl

@[simp] theorem decode_clockView (l : Nat) : (s.decode l).clockView = s.clockView := (decode_write s l).clockView
@[simp] theorem agentWrite_clockView (a : Nat) (ws : List Word) : (s.agentWrite a ws).clockView = s.clockView :=
  (agentWrite_write s a ws).clockView
@[simp] theorem sigReads_clockView (n : Nat) : (s.sigReads n).2.clockView = s.clockView := (meets_write ..).clockView

/-! ### Events and posts -/

@[simp] theorem eventEntry_clockView (a b c : Word) : (s.eventEntry a b c).clockView = s.clockView := by
  obtain ⟨t, ht, he⟩ := eventEntry_eq s a b c
  rw [he]
  exact ht.clockView

@[simp] theorem crownEvent_clockView (kind : Nat) (a b : Word) : (s.crownEvent kind a b).clockView = s.clockView :=
  eventEntry_clockView ..

@[simp] theorem cellEvent_clockView (reason off : Nat) (w : Word) : (s.cellEvent reason off w).clockView = s.clockView :=
  crownEvent_clockView ..

@[simp] theorem trace_clockView (n reason tile : Nat) : (s.trace n reason tile).clockView = s.clockView := by
  simp only [State.trace, ite_clockView, produce_clockView, incReg_clockView, agentWrite_clockView, drop_clockView, ite_self]

@[simp] theorem postTo_clockView (n : Nat) (w : Word) (code : Nat) : (s.postTo n w code).2.clockView = s.clockView := by
  simp only [State.postTo, apply_ite Prod.snd, ite_clockView, trace_clockView, drop_clockView, produce_clockView, setTask_clockView,
    ite_self]

@[simp] theorem post_clockView (n : Nat) (w : Word) : (s.post n w).clockView = s.clockView := postTo_clockView ..

theorem postField_clockView {ev : State → State} (h : (ev s).clockView = s.clockView) (field : Nat) (w : Word) :
    (s.postField field w ev).clockView = s.clockView := by
  unfold State.postField
  split
  · exact h
  · simp [h]

@[simp] theorem stopTask_clockView (n : Nat) : (s.stopTask n).clockView = s.clockView := trace_clockView ..

/-! ### Signal history -/

@[simp] theorem closeSeg_clockView (n : Nat) : (s.closeSeg n).clockView = s.clockView := by
  unfold State.closeSeg
  split <;> rfl

@[simp] theorem closeAll_clockView : s.closeAll.clockView = s.clockView := foldl_view (fun t n => closeSeg_clockView t n) _ _

theorem forceSync_clockView : s.forceSync.clockView = s.clockView := by
  have h := closeAll_clockView s
  unfold State.forceSync
  extract_lets w u mark v t
  rw [setReg_clockView]
  unfold t
  split
  · rfl
  · show State.clockView v = _
    unfold v
    split
    · exact h
    · exact h

@[simp] theorem refuseEntry_clockView (n : Nat) : (s.refuseEntry n).clockView = s.clockView := by
  simp [State.refuseEntry]

theorem histEntry_clockView (n cc stamp : Nat) (vals : List Word) : (s.histEntry n cc stamp vals).clockView = s.clockView := by
  have h := sigReads_clockView s n
  unfold State.histEntry
  split
  · rfl
  · generalize s.sigReads n = r at h
    obtain ⟨bad, t⟩ := r
    show State.clockView (if bad then t else _) = _
    split
    · exact h
    · extract_lets timed k u x g charge ws g'
      have hu : u.clockView = t.clockView := by
        unfold u
        split <;> simp
      rw [ite_clockView, refuseEntry_clockView, produce_clockView, setSignal_clockView, ite_self, hu, h]

theorem newValue_clockView (kind src cc stamp : Nat) (v : Word) (sigs : List Nat) :
    (s.newValue kind src cc stamp v sigs).clockView = s.clockView :=
  (foldl_view (fun t u => by simp) _ _).trans (foldl_view (fun t n => histEntry_clockView ..) _ _)

theorem laneTaps_clockView (n : Nat) (r : LaneRun) : (s.laneTaps n r).clockView = s.clockView :=
  foldl_view (fun _ _ => newValue_clockView ..) _ _

/-! ### Outputs: PWM pairs, trip inputs, choppers, step generators -/

@[simp] theorem pwmStore_clockView (p w : Nat) (v : Word) : (s.pwmStore p w v).clockView = s.clockView := by
  unfold State.pwmStore
  split <;> simp

@[simp] theorem tripStore_clockView (i w : Nat) (v : Word) : (s.tripStore i w v).clockView = s.clockView := by
  unfold State.tripStore
  split <;> simp

@[simp] theorem hiZ_clockView (p : Nat → Bool) : (s.hiZ p).clockView = s.clockView := foldl_view (fun t i => by simp) _ _

theorem tripClock_clockView (i : Nat) : (s.tripClock i).clockView = s.clockView := by
  unfold State.tripClock
  extract_lets x n was act u v w t
  have hu : u.clockView = s.clockView := rfl
  simp [t, w, v, hu]

@[simp] theorem chopDecay_clockView (f peak : Nat) : (s.chopDecay f peak).clockView = s.clockView := by
  obtain ⟨n, x, -, h⟩ := chopDecay_eq s f peak
  rw [h, setChop_clockView, setRfld_clockView]
  rfl

@[simp] theorem chopStop_clockView (f : Nat) : (s.chopStop f).clockView = s.clockView := by
  unfold State.chopStop
  split
  · rfl
  · exact (chopDecay_clockView ..).trans (drawSense_clockView s)

@[simp] theorem chopOn_clockView (f : Nat) : (s.chopOn f).clockView = s.clockView := (rfl)

@[simp] theorem chopLearn_clockView (f valley : Nat) (target : Int) : (s.chopLearn f valley target).clockView = s.clockView := by
  simp [State.chopLearn]

@[simp] theorem chopSetTarget_clockView (f v : Nat) : (s.chopSetTarget f v).clockView = s.clockView := by
  unfold State.chopSetTarget
  extract_lets old u t
  have hu : u.drawSense.2.clockView = s.clockView := rfl
  split
  · exact chopStop_clockView ..
  split
  · split
    · exact (chopOn_clockView ..).trans hu
    · exact (chopOn_clockView ..).trans ((chopLearn_clockView ..).trans hu)
  · rfl

@[simp] theorem chopStore_clockView (f w : Nat) (v : Word) : (s.chopStore f w v).clockView = s.clockView := by
  unfold State.chopStore
  split <;> simp

@[simp] theorem chopperStore_clockView (c : Nat) (v : Word) : (s.chopperStore c v).clockView = s.clockView := (rfl)

@[simp] theorem stepFollow_clockView (g : Nat) : (s.stepFollow g).clockView = s.clockView := foldl_view (fun t c => by simp) _ _

@[simp] theorem setPos_clockView (g : Nat) (v : Word) : (s.setPos g v).clockView = s.clockView := by
  simp [State.setPos]

@[simp] theorem withdrawStep_clockView (g : Nat) : (s.withdrawStep g).clockView = s.clockView := by
  unfold State.withdrawStep
  extract_lets x
  split
  · rfl
  · simp

@[simp] theorem stepStop_clockView (g : Nat) : (s.stepStop g).clockView = s.clockView := withdrawStep_clockView ..

@[simp] theorem stepHalt_clockView (g : Nat) : (s.stepHalt g).clockView = s.clockView := by
  simp [State.stepHalt]

@[simp] theorem stepStore_clockView (g w : Nat) (v : Word) : (s.stepStore g w v).clockView = s.clockView := by
  unfold State.stepStore
  split <;> simp

@[simp] theorem stepOutStore_clockView (g : Nat) (v : Word) : (s.stepOutStore g v).clockView = s.clockView := (rfl)

/-! ### Inputs: converters, analogue and field inputs, encoders -/

@[simp] theorem convStore_clockView (k w : Nat) (v : Word) : (s.convStore k w v).clockView = s.clockView := by
  unfold State.convStore
  extract_lets x ten en u y
  have hu : u.clockView = s.clockView := setReg_clockView ..
  have hy : y.clockView = s.clockView := by simp [y]
  clear_value u y
  split <;> simp [hu, hy]

@[simp] theorem dropInterval_clockView (n : Nat) : (s.dropInterval n).clockView = s.clockView := by
  simp [State.dropInterval]

@[simp] theorem ainStore_clockView (n w : Nat) (v : Word) : (s.ainStore n w v).clockView = s.clockView := by
  unfold State.ainStore
  split
  · extract_lets old v' v'' u w x x' range y
    have hu : u.clockView = s.clockView := setReg_clockView ..
    have hw : w.clockView = s.clockView := by simp [w, hu]
    have hx : x.clockView = w.clockView := dropInterval_clockView ..
    have hy : y.clockView = x.clockView := setAin_clockView ..
    clear_value u w x y
    simp [hy, hx, hw]
  · exact setReg_clockView ..
  · exact setReg_clockView ..
  · rfl

@[simp] theorem finStore_clockView (i w : Nat) (v : Word) : (s.finStore i w v).clockView = s.clockView := by
  unfold State.finStore
  split
  · rfl
  · extract_lets v' v'' u field
    have hu : u.clockView = s.clockView := setReg_clockView ..
    clear_value u
    rw [ite_clockView]
    exact ite_eq_left_iff.2 fun _ => hu

@[simp] theorem foutStore_clockView (o w : Nat) (v : Word) : (s.foutStore o w v).clockView = s.clockView := by
  unfold State.foutStore
  split
  · rfl
  · extract_lets f f'
    exact setReg_clockView { s with field := f' } _ _

@[simp] theorem encStore_clockView (e w : Nat) (v : Word) : (s.encStore e w v).clockView = s.clockView := by
  unfold State.encStore
  split <;> simp

@[simp] theorem slotStore_clockView (r i w : Nat) (v : Word) : (s.slotStore r i w v).clockView = s.clockView := by
  unfold State.slotStore
  split <;> simp

/-! ### The fieldbus ports -/

@[simp] theorem canEvent_clockView (p w : Nat) : (s.canEvent p w).clockView = s.clockView :=
  postField_clockView s (cellEvent_clockView ..) _ _

@[simp] theorem boxDrop_clockView (p m reason : Nat) : (s.boxDrop p m reason).clockView = s.clockView := by
  simp [State.boxDrop]

@[simp] theorem boxEnd_clockView (p m result : Nat) : (s.boxEnd p m result).clockView = s.clockView := by
  simp [State.boxEnd]

@[simp] theorem boxCancel_clockView (p m : Nat) : (s.boxCancel p m).clockView = s.clockView := by
  unfold State.boxCancel
  extract_lets b u
  split
  · rfl
  · split <;> simp [u]

@[simp] theorem boxReq_clockView (p m : Nat) : (s.boxReq p m).clockView = s.clockView := by
  unfold State.boxReq
  extract_lets b u w c fdf n k a bad v t
  have ht : t.clockView = v.clockView := foldl_view (fun x i => decode_clockView ..) _ _
  simp [ht, v, u]

@[simp] theorem boxStore_clockView (p m w : Nat) (v : Word) : (s.boxStore p m w v).clockView = s.clockView := by
  unfold State.boxStore
  split <;> simp

@[simp] theorem fifoRd_clockView (p : Nat) (v : Word) : (s.fifoRd p v).clockView = s.clockView := by
  simp [State.fifoRd]

@[simp] theorem refDrop_clockView (p reason : Nat) : (s.refDrop p reason).clockView = s.clockView := by
  simp [State.refDrop]

@[simp] theorem canStore_clockView (p w : Nat) (v : Word) : (s.canStore p w v).clockView = s.clockView := by
  unfold State.canStore
  extract_lets en v' was u x n
  have hu : u.clockView = s.clockView := rfl
  split
  · exact boxStore_clockView ..
  split
  · rfl
  · split <;> simp [hu]

/-- A write of any cell's register. -/
@[simp] theorem storeCell_clockView (o : Nat) (v : Word) : (s.storeCell o v).clockView = s.clockView := by
  simp [State.storeCell]

/-! ### Axes -/

@[simp] theorem axisEvent_clockView (a ev : Nat) : (s.axisEvent a ev).clockView = s.clockView := by
  simp [State.axisEvent, State.postQ]

@[simp] theorem segStart_clockView (a : Nat) : (s.segStart a).clockView = s.clockView := by
  unfold State.segStart
  extract_lets x
  split
  · rfl
  · simp

@[simp] theorem stopEnd_clockView (a : Nat) (p : Int) (lim : Bool) : (s.stopEnd a p lim).clockView = s.clockView := by
  simp [State.stopEnd]

theorem stopStep_clockView (a : Nat) (x : Axis) (st : Stop) : (State.axisRun.stopStep s a x st).clockView = s.clockView := by
  have e : @State.axisRun.stopStep = State.axisRun.stopStep := rfl
  conv_rhs at e => delta State.axisRun.stopStep
  rw [e]
  beta_reduce
  extract_lets p
  clear_value p
  generalize x.limits = l
  split <;> simp

theorem axisRun_clockView (a fuel : Nat) : (State.axisRun a fuel s).clockView = s.clockView := by
  induction fuel generalizing s with
  | zero => rfl
  | succ n ih =>
    unfold State.axisRun
    extract_lets x gr
    split
    · extract_lets gEnd y back v st u _ w
      have hu : u.clockView = s.clockView := setAxis_clockView ..
      have hw : w.clockView = s.clockView := by simp [w, hu]
      clear_value u w
      simp [ih, hw]
    · exact stopStep_clockView ..
    · exact stopStep_clockView ..
    · rfl

end

end Sys2Proof.Machine
end

section
/-! The obligation of the idle step: the units of a cell clock one after the other, then the whole statement. -/

namespace Sys2Proof.Machine

/-! ### TIME.INC while the cell clock ends -/

section
variable (s : State)

theorem closeAll_regs : s.closeAll.regs = s.regs :=
  foldl_view (v := State.regs) (fun t n => by unfold State.closeSeg; split <;> rfl) _ _

theorem forceSync_timeInc : s.forceSync.reg offTimeInc = s.reg offTimeInc := by
  have h := closeAll_regs s
  unfold State.forceSync
  extract_lets w u mark v t
  have hv : v.regs = s.regs := by
    unfold v
    split
    · exact h
    · exact h
  have ht : t.regs = s.regs := by
    unfold t
    split
    · rfl
    · exact hv
  rw [setReg_reg_ne _ _ _ _ (by decide), State.reg, ht]
  rfl

theorem drop_regs (i r n : Nat) : (s.drop i r n).regs = s.regs := rfl
theorem produce_regs (i n : Nat) : (s.produce i n).regs = s.regs := rfl

theorem trace_reg {o : Nat} (hm : ¬MemCounter o) (ho : o < offTrwr 0) (n reason tile : Nat) : (s.trace n reason tile).reg o = s.reg o := by
  have hrd (q : Nat) : o ≠ offTrrd q := by simp only [offTrwr, offTrrd] at *; omega
  have hwr (q : Nat) : o ≠ offTrwr q := by simp only [offTrwr] at *; omega
  unfold State.trace
  split
  · rfl
  · extract_lets q m u w v
    have hu : u.reg o = s.reg o := by
      unfold u
      split
      · rw [State.reg, drop_regs]
        exact incReg_reg_ne _ _ _ _ (hrd q)
      · rfl
    have hv : v.reg o = u.reg o := agentWrite_reg hm _ _ _
    rw [State.reg, produce_regs]
    exact (incReg_reg_ne _ _ _ _ (hwr q)).trans (hv.trans hu)

theorem msix_regs (v : Nat) : (s.msix v).regs = s.regs := by
  rw [msix_eq]

theorem eventEntry_reg {o : Nat} (hm : ¬MemCounter o) (a b c : Word) : (s.eventEntry a b c).reg o = s.reg o := by
  unfold State.eventEntry
  extract_lets t n u
  have hu : u.reg o = s.reg o := agentWrite_reg hm _ _ _
  rw [State.reg, msix_regs]
  exact hu

theorem timeInc_not_memCounter : ¬MemCounter offTimeInc := by
  simp [MemCounter, offTimeInc, offMemCorr, offMemLastBad]

theorem hiZ_timeInc (p : Nat → Bool) : (s.hiZ p).reg offTimeInc = s.reg offTimeInc :=
  foldl_view (v := (State.reg · offTimeInc)) (fun t i => by split <;> rfl) _ _

theorem tripClock_timeInc (i : Nat) : (s.tripClock i).reg offTimeInc = s.reg offTimeInc := by
  have hne (w : Nat) : offTimeInc ≠ offTrip i w := by simp only [offTimeInc, offTrip]; omega
  unfold State.tripClock
  extract_lets x n was act u v w t
  have hv : v.reg offTimeInc = s.reg offTimeInc := setRfld_reg_ne u _ _ _ _ _ (hne 2)
  have hw : w.reg offTimeInc = v.reg offTimeInc := hiZ_timeInc ..
  have ht : t.reg offTimeInc = w.reg offTimeInc := (setRfld_reg_ne _ _ _ _ _ _ (hne 2)).trans (setRfld_reg_ne _ _ _ _ _ _ (hne 2))
  split
  · rfl
  split
  · exact (eventEntry_reg t timeInc_not_memCounter _ _ _).trans (ht.trans (hw.trans hv))
  · exact hv

theorem pwmLoad_timeInc (p : Nat) : (s.pwmLoad p).reg offTimeInc = s.reg offTimeInc := by
  have hsat (c : Prop) [Decidable c] : (if c then s.satRfld (offPwm p 11) 35 18 1 else s).reg offTimeInc = s.reg offTimeInc := by
    split
    · exact setRfld_reg_ne _ _ _ _ _ _ (by simp only [offTimeInc, offPwm]; omega)
    · rfl
  have hcopy : (s.pwmCopy p).reg offTimeInc = s.reg offTimeInc := hsat _
  unfold State.pwmLoad
  extract_lets x now t y fine
  have ht : t.reg offTimeInc = s.reg offTimeInc := by
    unfold t
    split
    · rfl
    · exact hcopy
  split
  · rfl
  · exact ht

end

/-! ### The lanes' writes and the orders of the cell clock (R43) -/

/-- The orders on cells that wait are those of lanes alone. -/
def State.LaneOrders (s : State) : Prop := ∀ o ∈ s.orders, o.kind = 4 → ∃ n, o.src = .lane n

/-- Where only lanes have ordered a cell, time and cores stay, and only lanes have ordered one. -/
structure LaneStep (s t : State) : Prop where
  clock : s.LaneOrders → (t.now, t.cc, t.prevNow) = (s.now, s.cc, s.prevNow)
  cores : s.LaneOrders → t.cores = s.cores
  orders : s.LaneOrders → t.LaneOrders

section
variable {s t u : State}

theorem LaneStep.of_clockView (h : t.clockView = s.clockView) : LaneStep s t := by
  obtain ⟨hclock, hcores, horders⟩ : (t.now, t.cc, t.prevNow) = (s.now, s.cc, s.prevNow) ∧ t.cores = s.cores ∧ t.orders = s.orders := by
    simpa only [State.clockView, Prod.mk.injEq] using h
  exact ⟨fun _ => hclock, fun _ => hcores, fun h => by rw [State.LaneOrders, horders]; exact h⟩

theorem LaneStep.trans (h : LaneStep s t) (g : LaneStep t u) : LaneStep s u :=
  ⟨fun hs => (g.clock (h.orders hs)).trans (h.clock hs), fun hs => (g.cores (h.orders hs)).trans (h.cores hs),
    fun hs => g.orders (h.orders hs)⟩

theorem LaneStep.foldl {α : Type} {f : State → α → State} (h : ∀ s a, LaneStep s (f s a)) (l : List α) (s : State) :
    LaneStep s (l.foldl f s) :=
  List.foldlRecOn (motive := fun t => LaneStep s t) l f (.of_clockView rfl) fun t ht a _ => ht.trans (h t a)

end

section
variable (s : State)

theorem cueLost_clockView (c : Option Nat) : (s.cueLost c).clockView = s.clockView := by
  unfold State.cueLost
  split <;> rfl

theorem noteConflict_clockView (x : Conflict) : (s.noteConflict x).clockView = s.clockView := by
  unfold State.noteConflict
  split
  · rfl
  · exact (incReg_clockView ..).trans (agentWrite_clockView ..)

/-- A lane that loses is told nothing, so no core changes (R44). -/
theorem orderLost_clockView (w : Order) {l : Order} (h : ∃ n, l.src = .lane n) : (s.orderLost w l).clockView = s.clockView := by
  obtain ⟨n, h⟩ := h
  rw [State.orderLost, State.tellLoser, h]
  exact (cueLost_clockView ..).trans (noteConflict_clockView ..)

theorem undoOrder_cell {o : Order} (h : o.kind = 4) : s.undoOrder o = s := by
  simp [State.undoOrder, h]

theorem against_kind {o x : Order} (h : o.against x = true) : x.kind = o.kind := by
  simp only [Order.against, Order.same, Bool.and_eq_true, decide_eq_true_eq] at h
  exact h.1.1.1

theorem beforeRivals_cell {o : Order} (h : o.kind = 4) : s.beforeRivals o = s :=
  List.foldlRecOn (motive := fun t => t = s) _ _ rfl fun t ht x hx => by
    rw [undoOrder_cell t ((against_kind (List.mem_filter.1 hx).2).trans h), ht]

theorem rankOrder_lane {o : Order} (hk : o.kind = 4) (hs : ∃ n, o.src = .lane n) : LaneStep s (s.rankOrder o).2 := by
  unfold State.rankOrder
  split
  · exact .of_clockView (orderLost_clockView _ _ hs)
  · extract_lets t
    have ht (hl : s.LaneOrders) : t.clockView = s.clockView := by
      unfold t
      rw [beforeRivals_cell s hk]
      refine List.foldlRecOn (motive := fun u : State => u.clockView = s.clockView) _ _ rfl fun u hu x hx => ?_
      obtain ⟨hmem, hag⟩ := List.mem_filter.1 hx
      exact (orderLost_clockView u o (hl x hmem ((against_kind hag).trans hk))).trans hu
    refine ⟨fun hl => (LaneStep.of_clockView (ht hl)).clock hl, fun hl => (LaneStep.of_clockView (ht hl)).cores hl, fun hl x hx => ?_⟩
    rcases List.mem_cons.1 hx with rfl | hx
    · exact fun _ => hs
    · exact (LaneStep.of_clockView (ht hl)).orders hl x (List.mem_of_mem_filter hx)

theorem orderCell_lane (o : Nat) (v : Word) (n code : Nat) : LaneStep s (s.orderCell o v (.lane n) code).2 := by
  have h : LaneStep s (s.rankOrder { kind := 4, idx := o, value := s36 v, src := .lane n, code := code }).2 :=
    rankOrder_lane s rfl ⟨n, rfl⟩
  unfold State.orderCell
  split
  next won t he =>
    rw [he] at h
    show LaneStep s (if won then t.storeCell o v else t)
    split
    · exact h.trans (.of_clockView (storeCell_clockView ..))
    · exact h

theorem laneWrite_lane (n : Nat) (u : Int) (on : Bool) (duties : List Int) : LaneStep s (s.laneWrite n u on duties) := by
  unfold State.laneWrite
  extract_lets l w i put
  split
  · exact orderCell_lane ..
  · exact .foldl (fun _ _ => orderCell_lane ..) _ _
  · exact orderCell_lane ..
  · exact orderCell_lane ..
  · exact .of_clockView rfl

theorem laneEnd_lane (n : Nat) : LaneStep s (s.laneEnd n) := by
  unfold State.laneEnd
  extract_lets l
  split
  · exact .of_clockView rfl
  · extract_lets t
    have ht : LaneStep s t := .of_clockView (setLane_clockView ..)
    refine LaneStep.trans ?_ (.of_clockView (laneTaps_clockView ..))
    split
    · exact ht.trans (laneWrite_lane ..)
    · exact ht

theorem lanesEnd_lane : LaneStep s s.lanesEnd :=
  .foldl (fun t e => by
    split
    · exact laneEnd_lane ..
    · exact .of_clockView rfl) _ _

end

/-! ### What the units at work in every cell clock leave -/

/-- The clock view, line memory, the tasks, the lanes and the axes. -/
def State.calmView (s : State) := (s.clockView, s.mem, s.tasks, s.lanes, s.axes)

@[simp] theorem ite_calmView (p : Prop) [Decidable p] (t u : State) :
    (if p then t else u).calmView = if p then t.calmView else u.calmView := apply_ite ..

section
variable (s : State)

@[simp] theorem setReg_calmView (o : Nat) (v : Word) : (s.setReg o v).calmView = s.calmView := (rfl)
@[simp] theorem setRfld_calmView (o hi lo v : Nat) : (s.setRfld o hi lo v).calmView = s.calmView := (rfl)
@[simp] theorem satRfld_calmView (o hi lo k : Nat) : (s.satRfld o hi lo k).calmView = s.calmView := (rfl)
@[simp] theorem setPair_calmView (p : Nat) (x : Pwm) : (s.setPair p x).calmView = s.calmView := (rfl)
@[simp] theorem setCan_calmView (p : Nat) (x : Can) : (s.setCan p x).calmView = s.calmView := (rfl)
@[simp] theorem setBox_calmView (p m : Nat) (x : Mailbox) : (s.setBox p m x).calmView = s.calmView := (rfl)
@[simp] theorem setEnc_calmView (e : Nat) (x : Encoder) : (s.setEnc e x).calmView = s.calmView := (rfl)
@[simp] theorem setCoord_calmView (c : Nat) (x : Coord) : (s.setCoord c x).calmView = s.calmView := (rfl)
@[simp] theorem setAgroup_calmView (g : Nat) (x : AGroup) : (s.setAgroup g x).calmView = s.calmView := (rfl)
@[simp] theorem setStep_calmView (g : Nat) (x : StepGen) : (s.setStep g x).calmView = s.calmView := (rfl)
@[simp] theorem setRing_calmView (r : Nat) (x : Ring) : (s.setRing r x).calmView = s.calmView := (rfl)
@[simp] theorem produce_calmView (i n : Nat) : (s.produce i n).calmView = s.calmView := (rfl)

theorem pwmEdges_calmView : s.pwmEdges.calmView = s.calmView := foldl_view (fun _ _ => setPair_calmView ..) _ _

theorem pwmCopy_calmView (p : Nat) : (s.pwmCopy p).calmView = s.calmView := by
  simp [State.pwmCopy]

theorem pwmLoad_calmView (p : Nat) : (s.pwmLoad p).calmView = s.calmView := by
  simp [State.pwmLoad, pwmCopy_calmView]

theorem pwmTick_calmView : s.pwmTick.calmView = s.calmView := foldl_view (fun _ _ => setPair_calmView ..) _ _

theorem refWon_calmView (p : Nat) : (s.refWon p).calmView = s.calmView := by
  simp [State.refWon]

theorem boxWon_calmView (p n : Nat) : (s.boxWon p n).calmView = s.calmView := by
  simp [State.boxWon]

theorem canWin_calmView (p n : Nat) : (s.canWin p n).calmView = s.calmView := by
  simp [State.canWin, refWon_calmView, boxWon_calmView]

theorem canClock_calmView (p : Nat) : (s.canClock p).calmView = s.calmView := by
  unfold State.canClock
  split
  · rfl
  · simp [canWin_calmView]

theorem encsTick_calmView : s.encsTick.calmView = s.calmView := foldl_view (fun t x => by simp) _ _

theorem coordsTick_calmView : s.coordsTick.calmView = s.calmView := foldl_view (fun t c => by simp) _ _

theorem groupsTick_calmView (inc : Nat) : (s.groupsTick inc).calmView = s.calmView :=
  foldl_view (fun _ _ => setAgroup_calmView ..) _ _

theorem stepsTick_calmView : s.stepsTick.calmView = s.calmView :=
  foldl_view (fun t g => by
    extract_lets x u v vel y a w
    have hu : u.calmView = t.calmView := setStep_calmView ..
    have hv : v.calmView = t.calmView := by
      unfold v
      split
      · simp [hu]
      · rfl
    have hw : w.calmView = t.calmView := by simp [w, hv]
    simp [hv, hw]) _ _

theorem nodesTick_calmView : s.nodesTick.calmView = s.calmView :=
  foldl_view (fun t r => by
    split
    · simp
    · rfl) _ _

theorem msixDue_calmView : s.msixDue.calmView = s.calmView :=
  foldl_view (fun t v => by rw [msix_eq]; rfl) _ _

theorem clockView_of_calmView {s t : State} (h : t.calmView = s.calmView) : t.clockView = s.clockView := congrArg Prod.fst h

/-! ### The cell clock -/

/-- The clock that ends: what crossed in it, and the reloads at its end. -/
def State.clockEnds (s : State) : State :=
  ((List.range 24).foldl State.pwmLoad
    ((if s.reg offForceStat = s.forceStat then s else s.forceSync).stopsTick.lanesTick.tripsTick).pwmEdges).pwmTick

/-- Encoders, coordinates and axis groups of the clock that begins. -/
def State.followersTick (s : State) (inc : Nat) : State := (((List.range 4).foldl State.canClock s).encsTick.coordsTick).groupsTick inc

/-- Axes, and lanes' samples that end. -/
def State.motionTick (s : State) : State := (s.axes.foldl (fun s e => State.axisRun e.1 66 s) s).lanesEnd

theorem tick_eq (h : s.modes.inReset = false) : s.tick =
    ((s.clockEnds.nextClock.followersTick (s.reg offTimeInc).toNat).motionTick.stepsTick).nodesTick.msixDue := by
  simp only [State.tick, h, Bool.false_eq_true, if_false]
  rfl

theorem pwm_calmView : ((List.range 24).foldl State.pwmLoad s.pwmEdges).pwmTick.calmView = s.calmView :=
  (pwmTick_calmView _).trans ((foldl_view (fun t p => pwmLoad_calmView t p) _ _).trans (pwmEdges_calmView s))

theorem pwmEdges_regs : s.pwmEdges.regs = s.regs := foldl_view (fun _ _ => setPair_regs ..) _ _

theorem pwmTick_regs : s.pwmTick.regs = s.regs := foldl_view (fun _ _ => setPair_regs ..) _ _

theorem pwm_timeInc : ((List.range 24).foldl State.pwmLoad s.pwmEdges).pwmTick.reg offTimeInc = s.reg offTimeInc := by
  have hloads := foldl_view (v := (State.reg · offTimeInc)) (fun t p => pwmLoad_timeInc t p) (List.range 24) s.pwmEdges
  rw [State.reg, pwmTick_regs]
  refine hloads.trans ?_
  rw [State.reg, pwmEdges_regs]
  rfl

theorem clockEnds_clockView : s.clockEnds.clockView = s.clockView := by
  have hforce : (if s.reg offForceStat = s.forceStat then s else s.forceSync).clockView = s.clockView := by
    simp [forceSync_clockView]
  have hstops (t : State) : t.stopsTick.clockView = t.clockView := foldl_view (fun u e => by simp) _ _
  have hlanes (t : State) : t.lanesTick.clockView = t.clockView := foldl_view (fun u e => by simp) _ _
  have htrips (t : State) : t.tripsTick.clockView = t.clockView := foldl_view (fun _ _ => tripClock_clockView ..) _ _
  exact (clockView_of_calmView (pwm_calmView _)).trans ((htrips _).trans ((hlanes _).trans ((hstops _).trans hforce)))

theorem clockEnds_timeInc : s.clockEnds.reg offTimeInc = s.reg offTimeInc := by
  have hforce : (if s.reg offForceStat = s.forceStat then s else s.forceSync).reg offTimeInc = s.reg offTimeInc := by
    split
    · rfl
    · exact forceSync_timeInc s
  have hstops (t : State) : t.stopsTick.reg offTimeInc = t.reg offTimeInc :=
    foldl_view (v := (State.reg · offTimeInc)) (fun u e => by
      split
      · exact trace_reg _ timeInc_not_memCounter (by decide) _ _ _
      · rfl) _ _
  have hlanes (t : State) : t.lanesTick.reg offTimeInc = t.reg offTimeInc :=
    foldl_view (v := (State.reg · offTimeInc)) (fun u e => by
      dsimp only
      split <;> rfl) _ _
  have htrips (t : State) : t.tripsTick.reg offTimeInc = t.reg offTimeInc :=
    foldl_view (v := (State.reg · offTimeInc)) (fun _ _ => tripClock_timeInc ..) _ _
  exact (pwm_timeInc _).trans ((htrips _).trans ((hlanes _).trans ((hstops _).trans hforce)))

theorem followersTick_calmView (inc : Nat) : (s.followersTick inc).calmView = s.calmView :=
  (groupsTick_calmView ..).trans ((coordsTick_calmView _).trans ((encsTick_calmView _).trans
    (foldl_view (fun t p => canClock_calmView t p) _ _)))

/-- The orders that outlive a cell clock are those of a lane's next sample (R43). -/
theorem nextClock_laneOrders : s.nextClock.LaneOrders := fun o ho hk => by
  have h := (List.mem_filter.1 ho).2
  simp [hk] at h

theorem nextClock_quiet : s.nextClock.mem = s.mem ∧ s.nextClock.tasks = s.tasks ∧ s.nextClock.lanes = s.lanes ∧
    s.nextClock.axes = s.axes := ⟨rfl, rfl, rfl, rfl⟩

theorem motionTick_lane : LaneStep s s.motionTick :=
  (LaneStep.of_clockView (foldl_view (fun _ _ => axisRun_clockView ..) _ _)).trans (lanesEnd_lane _)

theorem endOfTick_calmView : s.stepsTick.nodesTick.msixDue.calmView = s.calmView :=
  (msixDue_calmView _).trans ((nodesTick_calmView _).trans (stepsTick_calmView s))

/-- Time goes on by one cell clock, and no core changes (R54, R79). -/
theorem tick_time (h : s.modes.inReset = false) :
    (s.tick.now, s.tick.cc, s.tick.prevNow) = (s.now + (s.reg offTimeInc).toNat, s.cc + 1, s.now) ∧ s.tick.cores = s.cores := by
  have hunits : LaneStep s.clockEnds.nextClock s.tick := by
    rw [tick_eq s h]
    exact ((LaneStep.of_clockView (clockView_of_calmView (followersTick_calmView ..))).trans (motionTick_lane _)).trans
      (.of_clockView (clockView_of_calmView (endOfTick_calmView _)))
  have hl := nextClock_laneOrders s.clockEnds
  have hends := clockEnds_clockView s
  simp only [State.clockView, Prod.mk.injEq] at hends
  obtain ⟨⟨hnow, hcc, -⟩, hcores, -⟩ := hends
  rw [hunits.clock hl, hunits.cores hl]
  simp only [State.nextClock, clockEnds_timeInc, hnow, hcc, hcores, and_self]

section
variable {s : State} (htrans : s.modes.trans = none) (htrips : s.trips = []) (haxes : s.axes = []) (hlanes : s.lanes = [])

include htrans htrips hlanes in
theorem clockEnds_calmView (hforce : s.reg offForceStat = s.forceStat) : s.clockEnds.calmView = s.calmView := by
  have hstops : s.stopsTick = s :=
    List.foldlRecOn (motive := fun t => t = s) _ _ rfl fun t ht e _ => by simp [ht, State.stopsNow, htrans]
  have hcross : s.lanesTick = s := by simp [State.lanesTick, hlanes]
  have htrip : s.tripsTick = s := by simp [State.tripsTick, htrips]
  rw [State.clockEnds, if_pos hforce, hstops, hcross, htrip]
  exact pwm_calmView s

include haxes hlanes in
theorem motionTick_quiet : s.motionTick = s := by
  simp [State.motionTick, State.lanesEnd, haxes, hlanes]

include htrans htrips haxes hlanes in
/-- With no transition, trip input, axis or lane at work, no memory and no task changes. -/
theorem tick_quiet (h : s.modes.inReset = false) (hforce : s.reg offForceStat = s.forceStat) :
    s.tick.mem = s.mem ∧ s.tick.tasks = s.tasks := by
  have hends := clockEnds_calmView htrans htrips hlanes hforce
  have hnext := followersTick_calmView s.clockEnds.nextClock (s.reg offTimeInc).toNat
  simp only [State.calmView, Prod.mk.injEq] at hends hnext
  obtain ⟨-, hmem, htasks, hl, ha⟩ := hends
  obtain ⟨-, hmem', htasks', hl', ha'⟩ := hnext
  obtain ⟨hm, ht, hl₀, ha₀⟩ := nextClock_quiet s.clockEnds
  have hend := endOfTick_calmView (s.clockEnds.nextClock.followersTick (s.reg offTimeInc).toNat)
  simp only [State.calmView, Prod.mk.injEq] at hend
  obtain ⟨-, hmem'', htasks'', -, -⟩ := hend
  rw [tick_eq s h, motionTick_quiet (by rw [ha', ha₀, ha, haxes]) (by rw [hl', hl₀, hl, hlanes]), hmem'', htasks'', hmem', htasks', hm, ht]
  exact ⟨hmem, htasks⟩

end

end

/-- Settles O2: an empty queue's step is `State.tick`, whose units leave time and cores. -/
theorem idleStepIsOneCellClock : Obligations.IdleStepIsOneCellClock := by
  intro s hp
  have hstep : step s = .next s.tick := by simp [step, hp]
  refine ⟨s.tick, hstep, (Keeps.refl s).tick.pending.trans hp, fun h => by simp [State.tick, h], fun h => ?_⟩
  obtain ⟨htime, hcores⟩ := tick_time s h
  simp only [Prod.mk.injEq] at htime
  obtain ⟨hnow, hcc, hprev⟩ := htime
  exact ⟨hnow, hprev, hcc, hcores, fun htrans htrips haxes hlanes hforce => tick_quiet htrans htrips haxes hlanes h hforce⟩

end Sys2Proof.Machine
end

section
/-! The obligation of the coordinates' events: an update of a ring coordinate and a change of the mains tracker's lock (R86, R87, R90 -
R92). -/

namespace Sys2Proof.Machine

/-! ### Updates of RING coordinates -/

/-- A coordinate after update k+1: position, velocity and sampling instant become those in use, and the value is extrapolated from that
instant (R90 - R92). -/
def State.updatedCoord (s : State) (c : Nat) (pos vel25 : Int) (t : Nat) : Coord :=
  let x := s.coord c
  let new := s.reduce c (pos + vel25 * ((s.cc - t : Nat) : Int) / 25)
  { x with
    value := new, upd := true, pos := pos, vel25 := vel25, at_ := t, lag := min (s.cc - t) (2 ^ 18 - 1)
    stale := false, held := false, stepped := true
    corrmax := if !x.upd || x.held then x.corrmax else max x.corrmax (corrUnits (s.coordDist c x.value new)) }

/-- Without a limit of acceleration no update exceeds it (R91). -/
theorem coordUpdate_unlimited {s : State} {c : Nat} (pos vel25 : Int) (t : Nat) (h : (s.reg (offCoord c 3)).toNat = 0) :
    s.coordUpdate c pos vel25 t = s.setCoord c (s.updatedCoord c pos vel25 t) := by
  simp [State.coordUpdate, State.updatedCoord, h]

/-- The position that an update's count stands for: the first one itself, a later one by its difference to the count before (R86). -/
def Coord.unwrapped (x : Coord) (n : Nat) : Int :=
  if x.upd then x.pos + sextN (n + 2 ^ 32 - x.raw) 32 * 2 ^ 32 else sextN n 32 * 2 ^ 32

theorem ringApply_update {s : State} {c n t : Nat} {v : Int} (hu : s.ringUpdate c = some (n, v, t))
    (h : (s.reg (offCoord c 3)).toNat = 0) :
    s.ringApply c = (s.setCoord c (s.updatedCoord c ((s.coord c).unwrapped n) (v * 2 ^ 12) t)).setCoord c
      { s.updatedCoord c ((s.coord c).unwrapped n) (v * 2 ^ 12) t with raw := n } := by
  simp only [State.ringApply, hu, coordUpdate_unlimited _ _ _ h, setCoord_coord]
  rfl

theorem ringApply_none {s : State} {c : Nat} (hu : s.ringUpdate c = none) : s.ringApply c = s := by
  simp only [State.ringApply, hu]

/-! ### The mains tracker -/

/-- A MAINS coordinate after a change of its tracker's lock: with a lock its frequency and its phase, else the value at which it stands
(R87). -/
def State.mainsCoord (s : State) (c : Nat) (lock : Option (Nat × Nat)) : Coord :=
  let x := s.coord c
  let pos : Int := match lock with
    | some (_, phase) => phase * 2 ^ 32
    | none => x.value
  { x with
    frac := 0, unlock := lock.isNone, mHz := (lock.map Prod.fst).getD x.mHz, upd := true, pos := pos, at_ := s.cc
    value := pos, stepped := x.stepped || pos != x.value }

theorem exec_mainsLockChange_locks {k : Fin 32} {s : State} {f : Word} (h : BitVec 16) (hsrc : s.coordSrc k.val = 4)
    (hlo : 45000 ≤ f.toNat) (hhi : f.toNat ≤ 66000) :
    exec (.mainsLockChange k true f h) s = .next (s.setCoord k.val (s.mainsCoord k.val (some (f.toNat, h.toNat)))) := by
  simp [exec, execMainsLockChange, State.mainsCoord, hsrc, hlo, hhi]

theorem exec_mainsLockChange_unlocks {k : Fin 32} {s : State} (f : Word) (h : BitVec 16) (hsrc : s.coordSrc k.val = 4) :
    exec (.mainsLockChange k false f h) s = .next (s.setCoord k.val (s.mainsCoord k.val none)) := by
  simp [exec, execMainsLockChange, State.mainsCoord, hsrc]

theorem exec_mainsLockChange_otherSource {k : Fin 32} {s : State} (b : Bool) (f : Word) (h : BitVec 16) (hsrc : s.coordSrc k.val ≠ 4) :
    exec (.mainsLockChange k b f h) s = .next s := by
  simp [exec, execMainsLockChange, hsrc]

/-! ### The whole statement -/

/-- Settles O39: each event writes one record, of its own coordinate. -/
theorem coordinateEvents : Obligations.CoordinateEvents := by
  intro k s
  refine ⟨fun n v t hu hamax => ?_, fun hu => ?_, fun hsrc f h => ⟨fun hlo hhi => ?_, ?_⟩, fun hsrc b f h => ?_⟩
  · refine ⟨s.ringApply k.val, rfl, ?_⟩
    rw [ringApply_update hu hamax]
    exact ⟨fun j hj => by simp only [setCoord_coord_ne _ _ _ _ hj], rfl, by simp [State.updatedCoord, Coord.unwrapped]⟩
  · exact congrArg Host.Outcome.next (ringApply_none hu)
  · exact ⟨_, exec_mainsLockChange_locks h hsrc hlo hhi, fun j hj => setCoord_coord_ne _ _ _ _ hj, rfl, by simp [State.mainsCoord]⟩
  · exact ⟨_, exec_mainsLockChange_unlocks f h hsrc, fun j hj => setCoord_coord_ne _ _ _ _ hj, rfl, by simp [State.mainsCoord]⟩
  · exact exec_mainsLockChange_otherSource b f h hsrc

end Sys2Proof.Machine
end

section
/-! SUPPORT. What cells that go off and units that stop leave of the state: line memory, tasks, fieldbus ports, SYS.MODE and the registers
of schedulers and ports (R410, R433, R484). -/

namespace Sys2Proof.Machine

/-- SYS.MODE, and the registers of schedulers and fieldbus ports. -/
abbrev PortWord (o : Nat) : Prop := o = offSysMode ∨ (0x1440 ≤ o ∧ o < 0x1480) ∨ 0xC000 ≤ o

/-- A step of cells or capture units. -/
structure CellsStep (s t : State) : Prop where
  mem : t.mem = s.mem
  tasks : t.tasks = s.tasks
  cans : t.cans = s.cans
  word : ∀ o, PortWord o → t.reg o = s.reg o

theorem CellsStep.refl (s : State) : CellsStep s s := ⟨rfl, rfl, rfl, fun _ _ => rfl⟩

theorem CellsStep.trans {s t u : State} (h : CellsStep s t) (g : CellsStep t u) : CellsStep s u :=
  ⟨g.mem.trans h.mem, g.tasks.trans h.tasks, g.cans.trans h.cans, fun o ho => (g.word o ho).trans (h.word o ho)⟩

theorem CellsStep.foldl {α : Type} {f : State → α → State} (h : ∀ s a, CellsStep s (f s a)) (l : List α) (s : State) :
    CellsStep s (l.foldl f s) :=
  List.foldlRecOn l f (.refl s) fun t ht a _ => ht.trans (h t a)

theorem CellsStep.ite {s t u : State} {p : Prop} [Decidable p] (ht : CellsStep s t) (hu : CellsStep s u) :
    CellsStep s (if p then t else u) := by
  split
  · exact ht
  · exact hu

/-- What CellsStep looks at. -/
def State.portView (s : State) : Memory × Tab Task × Tab Can := (s.mem, s.tasks, s.cans)

theorem CellsStep.of_view {s t : State} (h : t.portView = s.portView) (hw : ∀ o, PortWord o → t.reg o = s.reg o) : CellsStep s t := by
  simp only [State.portView, Prod.mk.injEq] at h
  obtain ⟨hmem, htasks, hcans⟩ := h
  exact ⟨hmem, htasks, hcans, hw⟩

/-- The same for a state whose registers are all as before. -/
theorem CellsStep.of_same {s t : State} (h : t.portView = s.portView) (hr : t.regs = s.regs) : CellsStep s t :=
  .of_view h fun o _ => by rw [State.reg, hr]; rfl

section
variable (s : State)

theorem setReg_cells {o : Nat} (v : Word) (h : ¬PortWord o) : CellsStep s (s.setReg o v) :=
  .of_view rfl fun _ hp => setReg_reg_ne _ _ _ _ fun he => h (he ▸ hp)

theorem setRfld_cells {o : Nat} (hi lo v : Nat) (h : ¬PortWord o) : CellsStep s (s.setRfld o hi lo v) := setReg_cells s _ h
theorem incReg_cells {o : Nat} (k : Nat) (h : ¬PortWord o) : CellsStep s (s.incReg o k) := setReg_cells s _ h
theorem satRfld_cells {o : Nat} (hi lo k : Nat) (h : ¬PortWord o) : CellsStep s (s.satRfld o hi lo k) := setReg_cells s _ h

/-- The registers of cells and capture units lie between those of the schedulers and those of the fieldbus ports. -/
theorem not_portWord {o : Nat} (h : 0x1480 ≤ o) (h' : o < 0xC000) : ¬PortWord o := by
  unfold PortWord offSysMode
  omega

/-! ### Chopper phases and step generators -/

theorem offChop_cell {f w : Nat} (hf : f < 16) (hw : w < 8) : ¬PortWord (offChop f w) := not_portWord (by unfold offChop; omega) (by unfold offChop; omega)
theorem offStep_cell {g w : Nat} (hg : g < 16) (hw : w < 8) : ¬PortWord (offStep g w) := not_portWord (by unfold offStep; omega) (by unfold offStep; omega)

theorem setChop_cells (f : Nat) (x : Chop) : CellsStep s (s.setChop f x) := .of_same rfl rfl

section
variable {f : Nat} (hf : f < 16)
include hf

theorem chopStop_cells : CellsStep s (s.chopStop f) := by
  obtain ⟨-, -, hreg, hframe⟩ := chopStop_effect s f
  exact .of_view (by rw [hframe]; rfl) fun o ho => hreg o fun he => offChop_cell hf (by decide : 4 < 8) (he ▸ ho)

theorem chopOn_cells : CellsStep s (s.chopOn f) :=
  (satRfld_cells s _ _ _ (offChop_cell hf (by decide))).trans (setChop_cells _ f _)

theorem chopLearn_cells (valley : Nat) (target : Int) : CellsStep s (s.chopLearn f valley target) := by
  have h : CellsStep s (s.setRfld (offChop f 4) 11 0 valley) := setRfld_cells s _ _ _ (offChop_cell hf (by decide))
  unfold State.chopLearn
  extract_lets t w pk e o
  exact .ite (h.trans (setReg_cells _ _ (offChop_cell hf (by decide)))) h

theorem chopSetTarget_cells (v : Nat) : CellsStep s (s.chopSetTarget f v) := by
  have h : CellsStep s (s.setReg (offChop f 1) (wd (v % 4096))) := setReg_cells s _ (offChop_cell hf (by decide))
  unfold State.chopSetTarget
  extract_lets old t x
  have hdraw : CellsStep s t.drawSense.2 := h.trans (.of_same rfl rfl)
  split
  · exact h.trans (chopStop_cells t hf)
  split
  · split
    · exact (hdraw.trans (setRfld_cells _ _ _ _ (offChop_cell hf (by decide)))).trans (chopOn_cells _ hf)
    · exact (hdraw.trans (chopLearn_cells _ hf _ _)).trans (chopOn_cells _ hf)
  · exact h

theorem chopStore_cells (v : Word) : CellsStep s (s.chopStore f 0 v) := by
  rw [chopStore_zero]
  split
  · exact .refl s
  extract_lets en v' v'' t x
  have ht : CellsStep s t := setReg_cells s _ (offChop_cell hf (by decide))
  split
  · exact (ht.trans (chopStop_cells t hf)).trans (setChop_cells _ f _)
  split
  · exact ht
  · exact ht.trans (setChop_cells _ f _)

end

theorem stepFollow_cells (g : Nat) : CellsStep s (s.stepFollow g) := by
  refine List.foldlRecOn (motive := CellsStep s) _ _ (.refl s) fun t ht c hc => ht.trans ?_
  have hc8 : c < 8 := List.mem_range.1 hc
  extract_lets w pos x
  exact .ite ((chopSetTarget_cells t (by omega) _).trans (chopSetTarget_cells _ (by omega) _)) (.refl t)

theorem setStep_cells (g : Nat) (x : StepGen) : CellsStep s (s.setStep g x) := .of_same rfl rfl

section
variable {g : Nat} (hg : g < 16)
include hg

theorem withdrawStep_cells : CellsStep s (s.withdrawStep g) := by
  unfold State.withdrawStep
  extract_lets x
  split
  · exact .refl s
  · exact (setReg_cells s _ (offStep_cell hg (by decide))).trans (setStep_cells _ g _)

theorem stepStop_cells : CellsStep s (s.stepStop g) :=
  ((setRfld_cells s _ _ _ (offStep_cell hg (by decide))).trans (withdrawStep_cells _ hg)).trans (setStep_cells _ g _)

theorem stepHalt_cells : CellsStep s (s.stepHalt g) :=
  .ite (stepStop_cells s hg) ((stepStop_cells s hg).trans (stepFollow_cells _ g))

end

/-! ### Every cell -/

theorem pwmOff_cells : CellsStep s s.pwmOff :=
  List.foldlRecOn (motive := CellsStep s) _ _ (.refl s) fun t ht p hp => by
    have hp24 : p < 24 := List.mem_range.1 hp
    exact ht.trans ((setReg_cells t _ (not_portWord (by unfold offPwm; omega) (by unfold offPwm; omega))).trans (.of_same rfl rfl))

theorem stepsOff_cells : CellsStep s ((List.range 16).foldl
    (fun s g => if bit (s.reg (offStep g 0)) 0 || (s.stepGen g).goAt.isSome then s.stepHalt g else s) s) :=
  List.foldlRecOn (motive := CellsStep s) _ _ (.refl s) fun t ht _ hg => ht.trans (.ite (stepHalt_cells t (List.mem_range.1 hg)) (.refl t))

theorem chopsOff_cells : CellsStep s ((List.range 16).foldl
    (fun s f => s.chopStore f 0 (setBit (s.reg (offChop f 0)) 35 false)) s) :=
  List.foldlRecOn (motive := CellsStep s) _ _ (.refl s) fun t ht _ hf => ht.trans (chopStore_cells t (List.mem_range.1 hf) _)

theorem setAin_cells (n : Nat) (x : Ain) : CellsStep s (s.setAin n x) := .of_same rfl rfl
theorem setConv_cells (k : Nat) (x : Conv) : CellsStep s (s.setConv k x) := .of_same rfl rfl

theorem offAin_cell {n : Nat} (hn : n < 64) : ¬PortWord (offAin n 4) := not_portWord (by unfold offAin; omega) (by unfold offAin; omega)

theorem dropInterval_cells {n : Nat} (hn : n < 64) : CellsStep s (s.dropInterval n) :=
  (setAin_cells s n _).trans (setRfld_cells _ _ _ _ (offAin_cell hn))

theorem convEmpty_cells {k : Nat} (hk : k < 16) : CellsStep s (s.convEmpty k) :=
  List.foldlRecOn (motive := CellsStep s) _ _ (setConv_cells s k _) fun t ht i hi => by
    have hi4 : i < 4 := List.mem_range.1 hi
    exact ht.trans (dropInterval_cells (n := 4 * k + i) t (by omega))

theorem convsOff_cells : CellsStep s ((List.range 16).foldl (fun s k => (s.setRfld (offConv k 0) 35 34 0).convEmpty k) s) :=
  List.foldlRecOn (motive := CellsStep s) _ _ (.refl s) fun t ht k hk => by
    have hk16 : k < 16 := List.mem_range.1 hk
    exact ht.trans ((setRfld_cells t _ _ _ (not_portWord (by unfold offConv; omega) (by unfold offConv; omega))).trans (convEmpty_cells _ hk16))

theorem ainsOff_cells : CellsStep s ((List.range 64).foldl (fun s n => s.setRfld (offAin n 4) 35 35 0) s) :=
  List.foldlRecOn (motive := CellsStep s) _ _ (.refl s) fun t ht _ hn => ht.trans (setRfld_cells t _ _ _ (offAin_cell (List.mem_range.1 hn)))

theorem foutStore_cells {o : Nat} (ho : o < 16) : CellsStep s (s.foutStore o 0 0) := by
  have hcell : ¬PortWord (offFout o 0) := not_portWord (by unfold offFout; omega) (by unfold offFout; omega)
  unfold State.foutStore
  extract_lets f g
  exact .ite (.refl s) ((CellsStep.of_same (s := s) (t := { s with field := g }) rfl rfl).trans (setReg_cells _ _ hcell))

theorem foutsOff_cells : CellsStep s ((List.range 16).foldl (fun s o => s.foutStore o 0 0) s) :=
  List.foldlRecOn (motive := CellsStep s) _ _ (.refl s) fun t ht _ ho => ht.trans (foutStore_cells t (List.mem_range.1 ho))

theorem cellsOff_cells : CellsStep s s.cellsOff :=
  (((((pwmOff_cells s).trans (stepsOff_cells _)).trans (chopsOff_cells _)).trans (convsOff_cells _)).trans (ainsOff_cells _)).trans
    (foutsOff_cells _)

/-! ### Capture units -/

theorem setCap_cells (u : Nat) (x : Capture) : CellsStep s (s.setCap u x) := .of_same rfl rfl
theorem capPost_cells (u t kind b : Nat) : CellsStep s (s.capPost u t kind b) := .of_same rfl rfl
theorem produce_cells (i n : Nat) : CellsStep s (s.produce i n) := .of_same rfl rfl
theorem drop_cells (i r n : Nat) : CellsStep s (s.drop i r n) := .of_same rfl rfl

theorem capClose_cells {u : Nat} (hu : u < 16) (cut : Bool) : CellsStep s (s.capClose u cut) := by
  have hcell : ∀ w < 32, ¬PortWord (offCap u w) := fun w _ => not_portWord (by unfold offCap; omega) (by unfold offCap; omega)
  unfold State.capClose
  extract_lets x ws first busy b t v y rearm
  clear_value b
  have ht : CellsStep s t := (incReg_cells s 1 (hcell 1 (by decide))).trans (produce_cells _ _ _)
  have hv : CellsStep s v := by
    simp only [v]
    split
    · exact ht.trans (setCap_cells t u _)
    · exact ((ht.trans (drop_cells t _ _ _)).trans (satRfld_cells _ _ _ _ (hcell 3 (by decide)))).trans (capPost_cells _ _ _ _ _)
  exact .ite (hv.trans (setCap_cells v u _)) ((hv.trans (setCap_cells v u _)).trans (setCap_cells _ u _))

theorem capsCut_cells : CellsStep s s.capsCut :=
  List.foldlRecOn (motive := CellsStep s) _ _ (.refl s) fun t ht u hu =>
    (ht.trans (.ite (capClose_cells t (List.mem_range.1 hu) true) (.refl t))).trans (setCap_cells _ u _)

/-! ### Forces, and all that goes off -/

theorem closeSeg_cells (n : Nat) : CellsStep s (s.closeSeg n) := by
  unfold State.closeSeg
  split
  · exact .refl s
  · exact .of_same rfl rfl

theorem forceSync_cells : CellsStep s s.forceSync := by
  have hclosed : CellsStep s s.closeAll := CellsStep.foldl closeSeg_cells _ s
  have hstat : ¬PortWord offForceStat := by decide
  unfold State.forceSync
  extract_lets w u mark v t
  have hu : CellsStep s u := hclosed
  have hv : CellsStep s v := .ite (hu.trans (.of_same rfl rfl)) hu
  refine CellsStep.trans ?_ (setReg_cells t w hstat)
  exact .ite (.refl s) (hv.trans (.of_same rfl rfl))

/-- Where no lane, no axis and no force is there. -/
theorem haltQuiet_cells {s : State} (hlanes : s.lanes = []) (haxes : s.axes = []) (hforces : s.forces = []) : CellsStep s s.haltQuiet := by
  have hoff : s.lanesOff = s := by
    rw [State.lanesOff, hlanes, List.foldl_nil]
    refine List.foldlRecOn (motive := fun t => t = s) _ _ rfl fun t ht a _ => ?_
    rw [ht, State.axisLeave, State.axis, haxes]
    rfl
  have hcues : CellsStep s (s.cancelCues (fun _ => true) 4) := .of_same rfl rfl
  have hempty : (s.cancelCues (fun _ => true) 4).forcesEmpty = (s.cancelCues (fun _ => true) 4).forceSync := by
    have hnone : (s.cancelCues (fun _ => true) 4).forces = [] := hforces
    rw [State.forcesEmpty, hnone, List.foldl_nil]
  rw [State.haltQuiet, hoff, hempty]
  exact ((hcues.trans (forceSync_cells _)).trans (cellsOff_cells _)).trans (capsCut_cells _)

end

end Sys2Proof.Machine
end

section
/-! SUPPORT. A state in which the decoder reads more than the eight words of a line: the way into STANDBY then leaves a force behind. -/

namespace Sys2Proof.Machine

/-! ### Words of line memory -/

theorem Tab.mem_of_get_ne {α : Type} {d : α} {t : Tab α} {k : Nat} (h : Tab.get d t k ≠ d) : (k, Tab.get d t k) ∈ t := by
  induction t with
  | nil => exact absurd rfl h
  | cons e r ih =>
    obtain ⟨j, v⟩ := e
    by_cases hj : j = k
    · simp [Tab.get, hj]
    · rw [Tab.get, if_neg hj] at h ⊢
      exact List.mem_cons_of_mem _ (ih h)

/-- An entry of the force table whose word 0 has VALID (R235). -/
theorem mem_forces {s : State} {a : Nat} (hlo : forceBase ≤ a) (hhi : a < forceBase + 0x4000) (ha : a % 4 = 0)
    (h : bit (s.word a) 35 = true) : a ∈ s.forces := by
  have hreset : memReset a = 0 := if_neg (by rw [show forceBase = 0x2710000 from rfl] at hhi; omega)
  have hne : s.word a ≠ memReset a := fun he => by
    rw [he, hreset] at h
    exact absurd h (by decide)
  exact List.mem_map.2 ⟨(a, s.word a), List.mem_filter.2 ⟨Tab.mem_of_get_ne hne, by simp [hlo, hhi, ha, h]⟩, rfl⟩

theorem Memory.putWords_word (m : Memory) (a : Nat) (ws : List Word) (b : Nat) :
    (m.putWords a ws).word b = if a ≤ b ∧ b < a + ws.length then ws.getD (b - a) 0 else m.word b := by
  induction ws generalizing m a with
  | nil => rw [if_neg (by rw [List.length_nil]; omega)]; rfl
  | cons v r ih =>
    rw [Memory.putWords, ih, Memory.putWord_word, List.length_cons]
    by_cases hb : b = a
    · subst hb
      rw [if_neg (by omega), if_pos rfl, if_pos (by omega), Nat.sub_self, List.getD_cons_zero]
    · rw [if_neg hb]
      by_cases hr : a + 1 ≤ b ∧ b < a + 1 + r.length
      · obtain ⟨j, rfl⟩ : ∃ j, b = a + 1 + j := ⟨b - (a + 1), by omega⟩
        rw [if_pos hr, if_pos (by omega), show a + 1 + j - (a + 1) = j by omega, show a + 1 + j - a = j + 1 by omega, List.getD_cons_succ]
      · rw [if_neg hr, if_neg (by omega)]

/-- A line under a wrong tag takes the words that the decoder read (R64). -/
theorem decode_tagWrong_word {s : State} {l : Nat} (hp : (s.lineMeta l).poison = false) (ht : (Tab.get {} s.mem.errs l).tagWrong = true) (b : Nat) :
    (s.decode l).word b = (s.mem.putWords (8 * l) (Tab.get {} s.mem.errs l).asRead).word b := by
  simp only [State.decode, hp, ht, Bool.not_true, Bool.and_false, Bool.or_self, Bool.false_eq_true, if_false, Bool.true_or, if_true]
  rw [markDirty_word]
  rfl

/-- A word that a write under a mask does not name is as the decoder leaves it. -/
theorem lineWrite_word_decoded (s : State) {l mask : Nat} {data : List Word} (poison : Bool) (owner : BitVec 2) (hm : mask ≠ 255) {b : Nat}
    (hb : 8 * l + data.length ≤ b) : (s.lineWrite l mask data poison owner).word b = (s.decode l).word b := by
  rw [State.lineWrite, if_neg hm, if_neg hm, markDirty_word]
  exact (Memory.putMasked_word ..).trans (if_neg (by omega))

/-- Two words at the beginning of a line. -/
theorem agentWrite_pair (s : State) {a : Nat} (ha : a % 8 = 0) (v w : Word) :
    s.agentWrite a [v, w] = s.lineWrite (a / 8) (maskOf 0 2) [v, w] false 1 := by
  simp [State.agentWrite, State.spanWrite, ha]

/-! ### The state -/

/-- Mode IDLE; ports 0 to 2 on a bus, port 3 on none, with task 768 as ETASK; POST of its mailbox 63. -/
def overreadRegs : Tab Word :=
  [(offSysMode, 2), (offCan 0 0, wd (2 ^ 35)), (offCan 1 0, wd (2 ^ 35)), (offCan 2 0, wd (2 ^ 35)), (offCan 3 0, 768),
    (offBox 3 63 0, wd (2 ^ 33))]

/-- A module in IDLE on its way to STANDBY. Port 3 of the fieldbus has a request in mailbox 63 whose end posts task 768, and the task's queue
is full, so that the drop is traced; the line of that trace entry has a wrong tag, and ws is what the decoder reads there. -/
def overread (ws : List Word) : State :=
  { regs := overreadRegs
    modes := { trans := some (8, 3) }
    tasks := [(768, { st := .idle })]
    cans := [(3, { boxes := [(63, { st := 1 })] })]
    mem := { errs := [(0x3FFC00, { tagWrong := true, asRead := ws })] } }

/-! ### STANDBY is entered -/

/-- A transition between modes other than BOOT, RECOVERY and STANDBY's return ends with its target entered (R208, R571). -/
theorem exec_modeTransitionComplete_enters {s : State} {m c : Nat} (hreset : s.modes.inReset = false) (hhold : s.holdup = false)
    (ht : s.modes.trans = some (m, c)) (hstops : s.stopsDone = true) (h1 : s.mode ≠ 1) (h8 : s.mode ≠ 8) (hm0 : m ≠ 0) (hm1 : m ≠ 1) :
    exec .modeTransitionComplete s = .next (s.enterMode m c) := by
  show execModeTransitionComplete s = _
  simp [execModeTransitionComplete, State.modeDone, hreset, hhold, ht, hstops, h1, h8, hm0, hm1]

/-- STANDBY is entered from a mode that traps no task, without an exchange. -/
theorem enterMode_standby {s : State} (cause : Nat) (h3 : s.mode ≠ 3) (h11 : s.mode ≠ 11) (hx : s.exch.phase = .none) :
    s.enterMode 8 cause = ((((s.putMode 8 cause).haltQuiet.canMode 8).eventEntry (wd (at_ 2 28 + 8)) 0 0).msix 3).wishVoid := by
  have hgrants : (modeGrants 8 false || modeGrants 8 true) = false := by decide
  have hquiet : modeQuiet 8 = true := by decide
  have hcells : cellsRun 8 = false := by decide
  simp only [State.enterMode, h3, h11, or_self, false_and, if_false, hgrants, hquiet, hcells, if_true, Bool.false_eq_true,
    Nat.reduceEqDiff, State.haltQuiet, exAbort_none hx]
  exact wishVoid_eq _

theorem wishVoid_word (s : State) (a : Nat) : s.wishVoid.word a = s.word a := by
  unfold State.wishVoid
  split <;> rfl

theorem msix_word (s : State) (v a : Nat) : (s.msix v).word a = s.word a := by rw [msix_eq]; rfl

/-- An event entry writes the host's area alone (R568). -/
theorem eventEntry_word_below (s : State) (x y z : Word) {a : Nat} (h : a < Config.hostArea) : (s.eventEntry x y z).word a = s.word a := by
  unfold State.eventEntry
  extract_lets t n u
  rw [msix_word]
  refine (agentWrite_full_word 1 s ?_ rfl a).trans (if_neg fun hle => ?_)
  · rw [show Config.hostArea = 0x102000000 from rfl]; omega
  · omega

theorem enterMode_standby_word {s : State} (cause : Nat) (h3 : s.mode ≠ 3) (h11 : s.mode ≠ 11) (hx : s.exch.phase = .none) {a : Nat}
    (ha : a < Config.hostArea) : (s.enterMode 8 cause).word a = ((s.putMode 8 cause).haltQuiet.canMode 8).word a := by
  rw [enterMode_standby cause h3 h11 hx, wishVoid_word, msix_word, eventEntry_word_below _ _ _ _ ha]

/-! ### The fieldbus port takes its policy -/

/-- Where ports 0 to 2 are on a bus and port 3 is on none, port 3 alone takes the policy of a mode now (R460). -/
theorem canMode_last {s : State} (mode : Nat) (h0 : s.canEn 0 = true) (h1 : s.canEn 1 = true) (h2 : s.canEn 2 = true)
    (h3 : s.canEn 3 = false) : s.canMode mode = s.canSettle 3 mode := by
  simp [State.canMode, show List.range 4 = [0, 1, 2, 3] from rfl, h0, h1, h2, h3]

theorem setRfld_can (s : State) (o hi lo v p : Nat) : (s.setRfld o hi lo v).can p = s.can p := by
  simp only [State.can, State.setRfld, setReg_cans]

theorem setCan_box (s : State) (p : Nat) (x : Can) (m : Nat) : (s.setCan p x).box p m = Tab.get {} x.boxes m := by
  rw [State.box, setCan_can]

/-- A port that has taken the policy LISTEN, its choice of a frame withdrawn (R460). -/
def State.listening (s : State) (p : Nat) : State := (s.setRfld (offCan p 3) 35 34 2).setCan p { s.can p with chosen := none }

theorem listening_box (s : State) (p m : Nat) : (s.listening p).box p m = s.box p m := by
  rw [State.listening, setCan_box]
  rfl

theorem listening_refMade (s : State) (p : Nat) : ((s.listening p).can p).refMade = (s.can p).refMade := by
  rw [State.listening, setCan_can]

/-- The end of a request at the entry into LISTEN (R462). -/
def State.boxLeave (s : State) (p m : Nat) : State :=
  if (s.box p m).st = 1 ∨ (s.box p m).st = 2 then (s.boxDrop p m 9).boxEnd p m 9 else s

theorem canSettle_eight {s : State} {p : Nat} (hpol : s.canPolicy p ≠ 2) :
    s.canSettle p 8 = (List.range 64).foldl (fun s m => s.boxLeave p m) ((s.listening p).refDrop p 9) := by
  have hcan : (s.setRfld (offCan p 3) 35 34 2).can p = s.can p := setRfld_can _ _ _ _ _ _
  simp only [State.canSettle, show policyOf 8 = 2 from rfl, if_neg hpol, lt_irrefl, if_false, Nat.reduceEqDiff, hcan]
  rfl

/-- A request of the last mailbox alone ends when a port takes the policy LISTEN (R460, R462). -/
theorem canSettle_listen {s : State} {p : Nat} (hpol : s.canPolicy p ≠ 2) (hmade : (s.can p).refMade = false)
    (hidle : ∀ m < 63, (s.box p m).st = 0) (hlast : (s.box p 63).st = 1) (hnew : (s.box p 63).produced = false) :
    s.canSettle p 8 = (s.listening p).boxEnd p 63 9 := by
  have hfold : (List.range 63).foldl (fun s m => s.boxLeave p m) (s.listening p) = s.listening p :=
    List.foldlRecOn (motive := fun u => u = s.listening p) _ _ rfl fun u hu m hm => by
      rw [hu, State.boxLeave, listening_box, hidle m (List.mem_range.1 hm), if_neg (by decide)]
  have hdrop : (s.listening p).refDrop p 9 = s.listening p := by simp [State.refDrop, listening_refMade, hmade]
  have hbdrop : (s.listening p).boxDrop p 63 9 = s.listening p := by simp [State.boxDrop, listening_box, hnew]
  have hrange : List.range 64 = List.range 63 ++ [63] := List.range_succ
  rw [canSettle_eight hpol, hdrop, hrange, List.foldl_append, hfold, List.foldl_cons, List.foldl_nil, State.boxLeave, listening_box,
    if_pos (.inl hlast), hbdrop]

/-! ### The post that is dropped, and its trace -/

theorem boxEnd_posts {s : State} {p m : Nat} (result : Nat) (h : bit (s.reg (offBox p m 0)) 33 = true) : s.boxEnd p m result =
    (s.setBox p m { s.box p m with st := 3, result := result, cancel := false, produced := false }).canEvent p (at_ 2 32 + at_ result 8 + m) := by
  rw [State.boxEnd]
  exact if_pos h

/-- An event of a port whose task has a full queue is a post dropped under 0x0D (R170, R467). -/
theorem canEvent_full {s : State} {p n : Nat} (w : Nat) (ht : targetOfWord (wd (s.rfld (offCan p 0) 10 0 % 2048)) = some n)
    (hused : (s.task n).st ≠ .unused) (h7 : s.mode ≠ 7) (hfull : (s.task n).qdepth ≤ (s.task n).queue.length) :
    s.canEvent p w = ((s.produce (strPost (taskQuad n)) 1).drop (strPost (taskQuad n)) 0x0D 1).trace n 0x0D 0 := by
  simp only [State.canEvent, State.postField, ht, if_neg hused, State.post, State.postTo, if_neg h7, if_pos hfull]

/-- A trace entry of quadrant 3 at the beginning of its table (R222, R223). -/
theorem trace_word {s : State} {n : Nat} (reason tile : Nat) (hn : n / 256 = 3) (hwr : s.reg (offTrwr 3) = 0) (hrd : s.reg (offTrrd 3) = 0)
    (b : Nat) : ∃ v w, (s.trace n reason tile).word b = (s.lineWrite 0x3FFC00 3 [v, w] false 1).word b := by
  have hlow : ¬1024 ≤ n := by omega
  have hroom : ¬((0 : Word).toNat + 2 ^ 36 - (0 : Word).toNat) % 2 ^ 36 = 4096 := by decide
  have haddr : 0x13FE000 + 3 * Config.quadWords + 2 * ((0 : Word).toNat % 4096) = 0x1FFE000 := by decide
  have hcount : ∀ (t : State) (o k i n : Nat), ((t.incReg o k).produce i n).word b = t.word b := fun _ _ _ _ _ => rfl
  refine ⟨wd s.sched.tick, wd (at_ reason 28 + at_ tile 22 + at_ (n % 256) 12 + min (s.cc - s.sched.tickCc) 511), ?_⟩
  simp only [State.trace, if_neg hlow, hn, hwr, hrd, if_neg hroom, haddr, hcount]
  rw [agentWrite_pair s (by decide)]
  rfl

/-! ### The state, run -/

section
variable (ws : List Word)

theorem overread_reg (o : Nat) : (overread ws).reg o = Tab.get (regReset o) overreadRegs o := rfl

theorem overread_mode : (overread ws).mode = 2 := by
  rw [State.mode, State.rfld, overread_reg]
  decide

theorem overread_holdup : (overread ws).holdup = false := by
  rw [State.holdup, overread_reg]
  decide

theorem overread_forces : (overread ws).forces = [] := rfl

theorem overread_exec : exec .modeTransitionComplete (overread ws) = .next ((overread ws).enterMode 8 3) :=
  exec_modeTransitionComplete_enters rfl (overread_holdup ws) rfl rfl (by rw [overread_mode]; decide) (by rw [overread_mode]; decide)
    (by decide) (by decide)

/-- Where the ports take the policy of STANDBY. -/
def standbyPorts : State := ((overread ws).putMode 8 3).haltQuiet

theorem standbyPorts_cells : CellsStep ((overread ws).putMode 8 3) (standbyPorts ws) := haltQuiet_cells rfl rfl rfl

theorem standbyPorts_reg {o : Nat} (ho : PortWord o) (h : o ≠ offSysMode) :
    (standbyPorts ws).reg o = Tab.get (regReset o) overreadRegs o :=
  ((standbyPorts_cells ws).word o ho).trans (putMode_reg_ne _ _ _ h)

theorem standbyPorts_can : (standbyPorts ws).can 3 = { boxes := [(63, { st := 1 })] } := by
  rw [State.can, (standbyPorts_cells ws).cans]
  rfl

theorem standbyPorts_settle : (standbyPorts ws).canMode 8 = ((standbyPorts ws).listening 3).boxEnd 3 63 9 := by
  have hen : ∀ p, (standbyPorts ws).canEn p = bit (Tab.get (regReset (offCan p 0)) overreadRegs (offCan p 0)) 35 := fun p =>
    congrArg (bit · 35) (standbyPorts_reg ws (.inr (.inr (by unfold offCan; omega))) (by unfold offCan offSysMode; omega))
  have hpol : (standbyPorts ws).canPolicy 3 ≠ 2 := by
    rw [State.canPolicy, State.rfld, standbyPorts_reg ws (by decide) (by decide)]
    decide
  rw [canMode_last 8 ((hen 0).trans (by decide)) ((hen 1).trans (by decide)) ((hen 2).trans (by decide)) ((hen 3).trans (by decide))]
  refine canSettle_listen hpol (by rw [standbyPorts_can]) (fun m hm => ?_) ?_ ?_ <;> rw [State.box, standbyPorts_can]
  · rw [Tab.get, if_neg (by omega)]
    rfl
  · rfl
  · rfl

/-- Port 3 listens, its last request is over, and the post of that is dropped: what is left is to trace it (R170, R462). -/
def postDropped : State :=
  ((((standbyPorts ws).listening 3).setBox 3 63
    { ((standbyPorts ws).listening 3).box 3 63 with st := 3, result := 9, cancel := false, produced := false }).produce
      (strPost (taskQuad 768)) 1).drop (strPost (taskQuad 768)) 0x0D 1

theorem setCan_reg (s : State) (p : Nat) (x : Can) (o : Nat) : (s.setCan p x).reg o = s.reg o := rfl
theorem setBox_reg (s : State) (p m : Nat) (x : Mailbox) (o : Nat) : (s.setBox p m x).reg o = s.reg o := rfl
theorem setBox_mem (s : State) (p m : Nat) (x : Mailbox) : (s.setBox p m x).mem = s.mem := rfl
theorem setBox_task (s : State) (p m : Nat) (x : Mailbox) (n : Nat) : (s.setBox p m x).task n = s.task n := rfl
theorem dropped_reg (s : State) (i r o : Nat) : ((s.produce i 1).drop i r 1).reg o = s.reg o := rfl
theorem dropped_mem (s : State) (i r : Nat) : ((s.produce i 1).drop i r 1).mem = s.mem := rfl

theorem listening_reg (s : State) (p : Nat) {o : Nat} (h : o ≠ offCan p 3) : (s.listening p).reg o = s.reg o := by
  rw [State.listening, setCan_reg, setRfld_reg_ne _ _ _ _ _ _ h]

theorem listening_mem (s : State) (p : Nat) : (s.listening p).mem = s.mem := by
  rw [State.listening, setCan_mem, State.setRfld, setReg_mem]

theorem listening_task (s : State) (p n : Nat) : (s.listening p).task n = s.task n := by
  rw [State.task, State.listening, setCan_tasks, State.setRfld, setReg_tasks, State.task]

theorem postDropped_mem : (postDropped ws).mem = (overread ws).mem := by
  rw [postDropped, dropped_mem, setBox_mem, listening_mem, (standbyPorts_cells ws).mem]
  rfl

theorem postDropped_reg {o : Nat} (ho : PortWord o) (h : o ≠ offSysMode) (h3 : o ≠ offCan 3 3) :
    (postDropped ws).reg o = Tab.get (regReset o) overreadRegs o := by
  rw [postDropped, dropped_reg, setBox_reg, listening_reg _ 3 h3, standbyPorts_reg ws ho h]

theorem standbyPorts_mode : (standbyPorts ws).mode = 8 :=
  (congrArg (fld · 3 0) ((standbyPorts_cells ws).word _ (.inl rfl))).trans (putMode_mode _ 3 (by decide))

theorem standbyPorts_task : (standbyPorts ws).task 768 = { st := .idle } := by
  rw [State.task, (standbyPorts_cells ws).tasks]
  rfl

theorem standbyPorts_traces : (standbyPorts ws).canMode 8 = (postDropped ws).trace 768 0x0D 0 := by
  have hpost : bit (((standbyPorts ws).listening 3).reg (offBox 3 63 0)) 33 = true := by
    rw [listening_reg _ 3 (by decide), standbyPorts_reg ws (by decide) (by decide)]
    decide
  set t := ((standbyPorts ws).listening 3).setBox 3 63
    { ((standbyPorts ws).listening 3).box 3 63 with st := 3, result := 9, cancel := false, produced := false } with ht
  have hfield : t.rfld (offCan 3 0) 10 0 = 768 := by
    rw [State.rfld, ht, setBox_reg, listening_reg _ 3 (by decide), standbyPorts_reg ws (by decide) (by decide)]
    decide
  have hmode : t.mode = 8 := by
    rw [State.mode, State.rfld, ht, setBox_reg, listening_reg _ 3 (by decide)]
    exact standbyPorts_mode ws
  have htask : t.task 768 = { st := .idle } := by rw [ht, setBox_task, listening_task, standbyPorts_task]
  rw [standbyPorts_settle, boxEnd_posts 9 hpost, ← ht, canEvent_full (n := 768) _ (by rw [hfield]; decide) (by rw [htask]; decide)
    (by rw [hmode]; decide) (by rw [htask]; decide)]
  rfl

/-- Beyond the trace entry stand the words that the decoder read. -/
theorem standbyPorts_word {b : Nat} (hb : 0x1FFE002 ≤ b) (hw : b < 0x1FFE000 + ws.length) :
    ((standbyPorts ws).canMode 8).word b = ws.getD (b - 0x1FFE000) 0 := by
  obtain ⟨v, w, htrace⟩ := trace_word (s := postDropped ws) (n := 768) 0x0D 0 (by decide)
    ((postDropped_reg ws (by decide) (by decide) (by decide)).trans (by decide))
    ((postDropped_reg ws (by decide) (by decide) (by decide)).trans (by decide)) b
  have herr : Tab.get {} (postDropped ws).mem.errs 0x3FFC00 = { tagWrong := true, asRead := ws } := by
    rw [postDropped_mem]
    rfl
  have hline : ((postDropped ws).lineMeta 0x3FFC00).poison = false := by
    rw [State.lineMeta, postDropped_mem]
    rfl
  rw [standbyPorts_traces, htrace, lineWrite_word_decoded _ _ _ (by decide) (by simpa using hb), decode_tagWrong_word hline (by rw [herr]),
    herr, Memory.putWords_word, if_pos ⟨by omega, hw⟩]

end

/-- Refutes O33: no rule of the model bounds what the decoder reads of a disturbed line. Where it reads more than the line's eight words, the
trace of a post that the entry into STANDBY drops puts a VALID entry back into the force table, after R240 has emptied it. -/
theorem not_modeTransitions : ¬Obligations.ModeTransitions := by
  unfold Obligations.ModeTransitions
  intro h
  set ws := List.replicate 0x712000 (0 : Word) ++ [wd (2 ^ 35)] with hws
  obtain ⟨u, hexec, -, -, -, -, -, -, -, hquiet⟩ :=
    (h (overread ws) rfl (overread_holdup ws) rfl).1 8 3 rfl rfl (by rw [overread_mode]; decide) (by rw [overread_mode]; decide)
      (by decide) (by decide) (by decide) (by decide)
  obtain ⟨-, -, hforces⟩ := hquiet (.inr (.inl rfl))
  have hnone : u.forces = [] := hforces rfl (fun a ha => absurd ha (by simp [overread_forces]))
  have hu : u = (overread ws).enterMode 8 3 := by
    rw [overread_exec] at hexec
    exact (Host.Outcome.next.inj hexec).symm
  have hvalid : u.word forceBase = wd (2 ^ 35) := by
    rw [hu, enterMode_standby_word 3 (by rw [overread_mode]; decide) (by rw [overread_mode]; decide) rfl (by decide)]
    refine (standbyPorts_word ws (by decide) (by rw [hws, List.length_append, List.length_replicate]; decide)).trans ?_
    rw [hws, List.getD_append_right _ _ _ _ (by rw [List.length_replicate]; decide), List.length_replicate]
    rfl
  have hmem : forceBase ∈ u.forces := mem_forces le_rfl (by decide) (by decide) (by rw [hvalid]; decide)
  rw [hnone] at hmem
  exact absurd hmem List.not_mem_nil

end Sys2Proof.Machine
end

section
/-! SUPPORT. When a cue fires, and what its firing leaves (R97, R98, R101, R103). -/

namespace Sys2Proof.Machine

/-! ### The queue of actions (R99) -/

theorem mem_insertAction {a x : Action} {l : List Action} : x ∈ insertAction a l ↔ x = a ∨ x ∈ l := by
  induction l with
  | nil => simp [insertAction]
  | cons b r ih =>
    unfold insertAction
    split
    · simp
    · simp only [List.mem_cons, ih]
      tauto

theorem length_insertAction (a : Action) (l : List Action) : (insertAction a l).length = l.length + 1 := by
  induction l with
  | nil => rfl
  | cons b r ih =>
    unfold insertAction
    split
    · rfl
    · simp [ih]

/-! ### The crossing of a value, for a coordinate without a modulus (R97, R98) -/

theorem crossed_rise {dir : Nat} {prev cur v : Int} (hdir : dir = 1 ∨ dir = 3) (hprev : prev < v) (hcur : v ≤ cur) :
    crossed dir none prev cur v = true := by
  simp [crossed, hdir, hprev, hcur]

theorem crossed_fall {dir : Nat} {prev cur v : Int} (hdir : dir = 2 ∨ dir = 3) (hprev : v < prev) (hcur : cur ≤ v) :
    crossed dir none prev cur v = true := by
  simp [crossed, hdir, hprev, hcur]

theorem crossed_outside {prev cur v : Int} (dir : Nat) (h : v < min prev cur ∨ max prev cur < v) : crossed dir none prev cur v = false := by
  simp only [crossed, Bool.or_eq_false_iff, Bool.and_eq_false_iff, decide_eq_false_iff_not]
  omega

/-- FINE is the fraction of the way at which the value lies, in 1/32, and 31 at most. -/
theorem fineOf_between {prev cur v : Int} (h : prev < v ∧ v ≤ cur ∨ v < prev ∧ cur ≤ v) :
    fineOf none prev cur v = min 31 (32 * (v - prev).natAbs / (cur - prev).natAbs) := by
  have hnum : (if cur < prev then prev - v else v - prev) = ((v - prev).natAbs : Int) := by
    split <;> omega
  have hden : ((cur - prev).natAbs : Int) ≠ 0 := by omega
  have hquot : 32 * ((v - prev).natAbs : Int) / ((cur - prev).natAbs : Int) =
      ((32 * (v - prev).natAbs / (cur - prev).natAbs : Nat) : Int) := rfl
  simp only [fineOf, hnum, hden, if_false, hquot, clampI]
  generalize 32 * (v - prev).natAbs / (cur - prev).natAbs = q
  split_ifs <;> omega

theorem reduce_unbounded {s : State} {c : Nat} (h : s.coordMod c = none) (x : Int) : s.reduce c x = x := by
  simp [State.reduce, h]

/-! ### The record of a firing -/

/-- The value of cue n's coordinate in the cell clock before, for a fresh order its reference (R97). -/
def State.cueBefore (s : State) (n : Nat) : Int := s.coordBefore (s.cue n).coord (s.cue n).armedAt (s.cue n).ref

/-- The present value of cue n's coordinate. -/
def State.cueNow (s : State) (n : Nat) : Int := s.coordNow (s.cue n).coord

/-- On coordinate 0, in the cell clock after the arming, a value not later than the reference (R97). -/
def State.cuePast (s : State) (n : Nat) : Bool :=
  (s.cue n).coord = 0 && s.cc = (s.cue n).armedAt + 1 && decide ((s.cue n).value ≤ (s.cue n).ref)

/-- Would the coordinate not have crossed the value of cue n in this clock without a step (R93)? -/
def State.cueStepped (s : State) (n : Nat) : Bool :=
  let x := s.cue n
  x.coord != 0 && (s.coord x.coord).stepped
    && !crossed x.dir (s.coordMod x.coord) (s.cueBefore n) (s.coord x.coord).unc x.value

/-- FINE of cue n's firing in this clock. -/
def State.cueFine (s : State) (n : Nat) : Nat :=
  let x := s.cue n
  if s.cuePast n || s.cueStepped n then 0
  else fineOf (s.coordMod x.coord) (s.cueBefore n) (s.cueNow n) x.value

/-- The action that cue n puts into the queue when it fires in this clock. -/
def State.cueAction (s : State) (n : Nat) : Action :=
  let x := s.cue n
  { cue := n, code := x.action, param := x.param, src := x.owner.getD .host, f := s.cc, time := s.prevNow, fine := s.cueFine n,
    stepped := s.cueStepped n }

/-- Cue n with the record of a firing in this clock. -/
def State.recordedCue (s : State) (n : Nat) : Cue :=
  let x := s.cue n
  { x with
    ftime := s.t72, past := s.cuePast n, stepF := s.cueStepped n, stale := x.coord != 0 && s.isStale x.coord
    unlock := x.coord != 0 && (s.coord x.coord).unlock, conflict := false, defer := false, deferCc := 0, fine := s.cueFine n
    fires := (x.fires + 1) % 2 ^ 36, firedAt := some s.cc }

/-- Cue n after a firing in this clock: FIRED, or armed again one STEP on. -/
def State.firedCue (s : State) (n : Nat) : Cue :=
  let x := s.cue n
  if (s.recordedCue n).repeats then
    { s.recordedCue n with
      value := s.reduce x.coord (x.value + x.step * (if x.coord = 0 then (tNs : Int) else 2 ^ 32))
      ref := s.cueNow n, armedAt := s.cc }
  else { s.recordedCue n with st := .fired }

theorem fireCue_eq (s : State) (n : Nat) : s.fireCue n =
    if (s.cue n).action = 0 then s.setCue n (s.firedCue n)
    else { s.setCue n (s.firedCue n) with actions := insertAction (s.cueAction n) s.actions } := rfl

theorem fireCue_frame (s : State) (n : Nat) :
    s.fireCue n = { s with cues := (s.fireCue n).cues, actions := (s.fireCue n).actions } := by
  rw [fireCue_eq]
  split <;> rfl

@[simp] theorem fireCue_cue (s : State) (n : Nat) : (s.fireCue n).cue n = s.firedCue n := by
  rw [fireCue_eq]
  split
  · exact setCue_cue _ _ _
  · exact setCue_cue s n _

theorem fireCue_cue_ne (s : State) {n m : Nat} (h : m ≠ n) : (s.fireCue n).cue m = s.cue m := by
  rw [fireCue_eq]
  split
  · exact setCue_cue_ne _ _ _ _ h
  · exact setCue_cue_ne s n _ _ h

theorem fireCue_actions_none {s : State} {n : Nat} (h : (s.cue n).action = 0) : (s.fireCue n).actions = s.actions := by
  rw [fireCue_eq, if_pos h]
  rfl

theorem fireCue_actions_some {s : State} {n : Nat} (h : (s.cue n).action ≠ 0) :
    (s.fireCue n).actions = insertAction (s.cueAction n) s.actions := by
  rw [fireCue_eq, if_neg h]

theorem firedCue_once {s : State} {n : Nat} (h : (s.cue n).repeats = false) :
    s.firedCue n = { s.recordedCue n with st := .fired } :=
  if_neg (by simpa [State.recordedCue, Cue.repeats] using h)

theorem firedCue_again {s : State} {n : Nat} (h : (s.cue n).repeats = true) (hmod : s.coordMod (s.cue n).coord = none) :
    s.firedCue n = { s.recordedCue n with
      value := (s.cue n).value + (s.cue n).step * (if (s.cue n).coord = 0 then (tNs : Int) else 2 ^ 32)
      ref := s.cueNow n, armedAt := s.cc } := by
  rw [State.firedCue, if_pos (by simpa [State.recordedCue, Cue.repeats] using h), reduce_unbounded hmod]

/-- What a firing records stands in the cue whether it repeats or not. -/
theorem firedCue_record (s : State) (n : Nat) :
    let y := s.firedCue n
    y.ftime = s.t72 ∧ y.firedAt = some s.cc ∧ y.fires = ((s.cue n).fires + 1) % 2 ^ 36 ∧ y.past = s.cuePast n ∧ y.w0 = (s.cue n).w0 ∧
      y.owner = (s.cue n).owner ∧ y.defer = false ∧ y.conflict = false ∧ y.fine = s.cueFine n := by
  unfold State.firedCue
  split <;> simp [State.recordedCue]

/-! ### The condition of a firing -/

theorem exec_cueFire_fires {s : State} {n : Fin 4096} (hc : s.cueCrosses n.val = true) (hf : (s.cue n.val).firedAt ≠ some s.cc) :
    exec (.cueFire n) s = .next (s.fireCue n.val) :=
  congrArg Host.Outcome.next (if_pos (by simp [hc, hf]))

theorem exec_cueFire_stays {s : State} {n : Fin 4096} (hc : s.cueCrosses n.val = false) : exec (.cueFire n) s = .next s :=
  congrArg Host.Outcome.next (if_neg (by simp [hc]))

section
variable {s : State} {n : Nat} (hst : (s.cue n).st = .armed) (harm : (s.cue n).armedAt < s.cc)
include hst harm

/-- An armed cue crosses if its value lies in the past of coordinate 0, or the coordinate has passed over it. -/
theorem cueCrosses_armed : s.cueCrosses n = (s.cuePast n ||
    crossed (s.cue n).dir (s.coordMod (s.cue n).coord) (s.cueBefore n) (s.cueNow n) (s.cue n).value) := by
  simp [State.cueCrosses, State.cuePast, State.cueBefore, State.cueNow, hst, harm]

end

/-- The value of cue n lies between its coordinate's value before and its present one. -/
def CueBetween (s : State) (n : Nat) : Prop :=
  s.cueBefore n < (s.cue n).value ∧ (s.cue n).value ≤ s.cueNow n ∨ (s.cue n).value < s.cueBefore n ∧ s.cueNow n ≤ (s.cue n).value

/-- FINE of a value that lies between the coordinate's value before and its present one. -/
theorem cueFine_between {s : State} {n : Nat} (hmod : s.coordMod (s.cue n).coord = none) (hpast : s.cuePast n = false)
    (hstep : (s.cue n).coord ≠ 0 → (s.coord (s.cue n).coord).stepped = false)
    (hbetween : CueBetween s n) :
    s.cueFine n = min 31 (32 * ((s.cue n).value - s.cueBefore n).natAbs / (s.cueNow n - s.cueBefore n).natAbs) := by
  have hstepped : s.cueStepped n = false := by
    by_cases hc : (s.cue n).coord = 0
    · simp [State.cueStepped, hc]
    · simp [State.cueStepped, hstep hc]
  simp only [State.cueFine, hpast, hstepped, Bool.or_self, Bool.false_eq_true, if_false, hmod]
  exact fineOf_between hbetween

/-- What `Obligations.CuesFire` says of a firing of cue n with PAST `past`. -/
def FiresCue (s : State) (n : Fin 4096) (past : Bool) : Prop :=
  let x := s.cue n.val
  let c := x.coord
  let now := s.cueNow n.val
  let before := s.cueBefore n.val
  ∃ u, exec (.cueFire n) s = .next u ∧ u = { s with cues := u.cues, actions := u.actions } ∧
    (∀ m, m ≠ n.val → u.cue m = s.cue m) ∧
    (let y := u.cue n.val
     y.ftime = s.t72 ∧ y.firedAt = some s.cc ∧ y.fires = (x.fires + 1) % 2 ^ 36 ∧ y.past = past ∧ y.w0 = x.w0 ∧ y.owner = x.owner ∧
     y.defer = false ∧ y.conflict = false ∧
     (past = false → (c ≠ 0 → (s.coord c).stepped = false) →
       y.fine = min 31 (32 * (x.value - before).natAbs / (now - before).natAbs)) ∧
     (x.repeats = false → y.st = .fired) ∧
     (x.repeats = true → y.st = .armed ∧ y.armedAt = s.cc ∧ y.ref = now ∧
       y.value = x.value + x.step * (if c = 0 then (tNs : Int) else 2 ^ 32))) ∧
    (x.action = 0 → u.actions = s.actions) ∧
    (x.action ≠ 0 → u.actions.length = s.actions.length + 1 ∧ (∀ a ∈ s.actions, a ∈ u.actions) ∧
      ∃ a ∈ u.actions, a.cue = n.val ∧ a.code = x.action ∧ a.param = x.param ∧ a.f = s.cc ∧ a.src = x.owner.getD .host)

/-- A crossing in a cell clock in which the cue has not fired yet is a firing; FINE is fixed where the value was not in the past. -/
theorem firesCue_of_crosses {s : State} {n : Fin 4096} {past : Bool} (hst : (s.cue n.val).st = .armed)
    (hf : (s.cue n.val).firedAt ≠ some s.cc) (hmod : s.coordMod (s.cue n.val).coord = none) (hc : s.cueCrosses n.val = true)
    (hpast : s.cuePast n.val = past) (hbetween : past = false → CueBetween s n.val) : FiresCue s n past := by
  obtain ⟨htime, hfired, hfires, hpst, hw0, howner, hdefer, hconflict, hfine⟩ := firedCue_record s n.val
  refine ⟨_, exec_cueFire_fires hc hf, fireCue_frame _ _, fun m hm => fireCue_cue_ne _ hm, ?_, fireCue_actions_none, fun ha => ?_⟩
  · rw [fireCue_cue]
    refine ⟨htime, hfired, hfires, hpst.trans hpast, hw0, howner, hdefer, hconflict, fun hp hstep => ?_, fun hr => ?_, fun hr => ?_⟩
    · exact hfine.trans (cueFine_between hmod (hpast.trans hp) hstep (hbetween hp))
    · rw [firedCue_once hr]
    · rw [firedCue_again hr hmod]
      exact ⟨hst, rfl, rfl, rfl⟩
  · rw [fireCue_actions_some ha, length_insertAction]
    exact ⟨rfl, fun x hx => mem_insertAction.2 (.inr hx), s.cueAction n.val, mem_insertAction.2 (.inl rfl), rfl, rfl, rfl, rfl, rfl⟩

section
variable {s : State} {n : Fin 4096} (hst : (s.cue n.val).st = .armed) (harm : (s.cue n.val).armedAt < s.cc)
  (hf : (s.cue n.val).firedAt ≠ some s.cc) (hmod : s.coordMod (s.cue n.val).coord = none)
include hst harm hmod

theorem exec_cueFire_uncrossed
    (hout : (s.cue n.val).value < min (s.cueBefore n.val) (s.cueNow n.val) ∨
      max (s.cueBefore n.val) (s.cueNow n.val) < (s.cue n.val).value)
    (hfirst : ¬((s.cue n.val).coord = 0 ∧ s.cc = (s.cue n.val).armedAt + 1)) : exec (.cueFire n) s = .next s := by
  have hpast : s.cuePast n.val = false := by
    simp only [State.cuePast, Bool.and_eq_false_iff, decide_eq_false_iff_not]
    tauto
  exact exec_cueFire_stays (by rw [cueCrosses_armed hst harm, hpast, hmod, crossed_outside _ hout]; rfl)

include hf

theorem firesCue_rise (hdir : (s.cue n.val).dir = 1 ∨ (s.cue n.val).dir = 3)
    (hbefore : s.cueBefore n.val < (s.cue n.val).value) (hnow : (s.cue n.val).value ≤ s.cueNow n.val)
    (hfirst : ¬((s.cue n.val).coord = 0 ∧ s.cc = (s.cue n.val).armedAt + 1 ∧ (s.cue n.val).value ≤ (s.cue n.val).ref)) :
    FiresCue s n false := by
  have hpast : s.cuePast n.val = false := by
    simp only [State.cuePast, Bool.and_eq_false_iff, decide_eq_false_iff_not]
    tauto
  have hc : s.cueCrosses n.val = true := by
    rw [cueCrosses_armed hst harm, hmod, crossed_rise hdir hbefore hnow, Bool.or_true]
  exact firesCue_of_crosses hst hf hmod hc hpast fun _ => .inl ⟨hbefore, hnow⟩

theorem firesCue_fall (hc0 : (s.cue n.val).coord ≠ 0) (hdir : (s.cue n.val).dir = 2 ∨ (s.cue n.val).dir = 3)
    (hbefore : (s.cue n.val).value < s.cueBefore n.val) (hnow : s.cueNow n.val ≤ (s.cue n.val).value) : FiresCue s n false := by
  have hc : s.cueCrosses n.val = true := by
    rw [cueCrosses_armed hst harm, hmod, crossed_fall hdir hbefore hnow, Bool.or_true]
  exact firesCue_of_crosses hst hf hmod hc (by simp [State.cuePast, hc0]) fun _ => .inr ⟨hbefore, hnow⟩

theorem firesCue_past (hc0 : (s.cue n.val).coord = 0) (hcc : s.cc = (s.cue n.val).armedAt + 1)
    (hv : (s.cue n.val).value ≤ (s.cue n.val).ref) : FiresCue s n true := by
  have hpast : s.cuePast n.val = true := by simp [State.cuePast, hc0, hcc, hv]
  have hc : s.cueCrosses n.val = true := by rw [cueCrosses_armed hst harm, hpast, Bool.true_or]
  exact firesCue_of_crosses hst hf hmod hc hpast fun h => absurd h (by decide)

end

end Sys2Proof.Machine
end

section
/-! SUPPORT. The action at the head of the queue, and its effect (R99, R100). -/

namespace Sys2Proof.Machine

/-! ### The turn of an action -/

/-- The state in which the action at the head of the queue takes effect: it has left the queue, counts among the cell clock's 16, and one
of an earlier firing leaves DEFER in its cue's record. -/
def State.acted (s : State) (n : Nat) (a : Action) (rest : List Action) : State :=
  { s with
    actions := rest, actionsDone := s.actionsDone + 1
    cues := if s.cc - a.f = 0 then s.cues
      else (s.setCue n { s.cue n with defer := true, deferCc := min (s.cc - a.f) 255 }).cues }

section
variable {s : State} {n code : Nat} {a : Action} {rest : List Action} (hhead : s.actions = a :: rest)
include hhead

theorem act_head (effect : Action → State → State) (hcue : a.cue = n) (hdone : s.actionsDone < 16) (hcode : a.code = code) :
    s.act code n effect = effect a (s.acted n a rest) := by
  simp only [State.act, hhead, hcue, hcode, hdone, decide_true, Bool.and_self, if_true, State.acted]
  split <;> rfl

theorem act_other (effect : Action → State → State) (h : a.cue ≠ n ∨ 16 ≤ s.actionsDone) : s.act code n effect = s := by
  have hturn : (decide (a.cue = n) && decide (a.code = code) && decide (s.actionsDone < 16)) = false := by
    simp only [Bool.and_eq_false_iff, decide_eq_false_iff_not]
    omega
  simp only [State.act, hhead, hturn, Bool.false_eq_true, if_false]

end

/-! ### Orders without a rival (R43, R45) -/

theorem rankOrder_first {s : State} (o : Order) (h : s.orders = []) : s.rankOrder o = (true, { s with orders := [o] }) := by
  rw [rankOrder_alone s o (by simp [h]), h]
  rfl

theorem flushConflicts_nil {s : State} (kind n : Nat) (h : s.conflicts = []) : s.flushConflicts kind n = s := by
  simp only [State.flushConflicts, h, List.filter_nil, List.foldl_nil]
  rw [← h]

/-! ### Field outputs -/

theorem cueOut_first {s : State} {a : Action} (on : Bool) (hp : a.param < 16) (ho : s.orders = []) : ∃ o : Order,
    s.cueOut a on = { s with orders := [o] }.foutStore a.param 0 (wd (at_ (b2n on) 35)) := by
  simp only [State.cueOut, rankOrder_first _ ho, if_true]
  exact ⟨_, storeCell_fout _ _ ⟨a.param, hp⟩ (by decide)⟩

/-- An order of a cue to a field output sets VALUE as the modes of R410 let it. -/
theorem cueOut_value {s : State} {a : Action} (on : Bool) (hp : a.param < 16) (ho : s.orders = []) :
    (s.cueOut a on).reg (offFout a.param 0) = setBit 0 35 (bit (wd (at_ (b2n on) 35)) 35 && s.cellsLive) ∧
      s.cueOut a on = { s with regs := (s.cueOut a on).regs, field := (s.cueOut a on).field, orders := (s.cueOut a on).orders } ∧
      ∀ o, o ≠ offFout a.param 0 → (s.cueOut a on).reg o = s.reg o := by
  obtain ⟨o, hout⟩ := cueOut_first on hp ho
  rw [hout]
  exact ⟨setReg_reg _ _ _, rfl, fun j hj => setReg_reg_ne _ _ _ _ hj⟩

/-! ### Triggers of capture units -/

theorem captureHit_idle {s : State} {u : Nat} (kind time : Nat) (h : (s.cap u).st = 0) : s.captureHit u kind time = s := if_pos h

theorem captureHit_waits {s : State} {u : Nat} (kind time : Nat) (h : (s.cap u).st ≠ 0) :
    s.captureHit u kind time = s.setCap u { s.cap u with
      triggers := (s.cap u).triggers ++ [{ kind := kind, time := time, target := time, cc := s.cc }] } := if_neg h

/-! ### Posts -/

theorem post_queued {s : State} {m : Nat} (w : Word) (hmode : s.mode ≠ 7) (hused : (s.task m).st ≠ .unused)
    (hroom : (s.task m).queue.length < (s.task m).qdepth) :
    s.post m w = (s.produce (strPost (taskQuad m)) 1).setTask m { s.task m with
      queue := (s.task m).queue ++ [{ word := w }], posted := true
      postAcc := if (s.task m).posted then (s.task m).postAcc else s.cc
      postCode := if (s.task m).posted && (0 : Nat) = 0 then (s.task m).postCode else 0 } := by
  rw [State.post, State.postTo, if_neg hmode, if_neg hused, if_neg (Nat.not_le.2 hroom)]

/-! ### The latch banks (R102) -/

/-- The latch of coordinate c's value. -/
def State.latchOne (s : State) (k : Nat) (vs : List DWord) (c : Nat) : State :=
  (s.setReg (offLatch k (2 + 2 * c)) (dlo (vs.getD c 0))).setReg (offLatch k (3 + 2 * c)) (dhi (vs.getD c 0))

theorem latchBank_eq (s : State) (k : Nat) (vs : List DWord) :
    s.latchBank k vs = ((List.range 32).foldl (fun s c => s.latchOne k vs c) s).incReg (offLatch k 0) 2 := rfl

theorem latchOne_reg_ne (s : State) (k : Nat) (vs : List DWord) {c o : Nat} (hlo : o ≠ offLatch k (2 + 2 * c))
    (hhi : o ≠ offLatch k (3 + 2 * c)) : (s.latchOne k vs c).reg o = s.reg o := by
  rw [State.latchOne, setReg_reg_ne _ _ _ _ hhi, setReg_reg_ne _ _ _ _ hlo]

theorem latchOne_regs (s : State) (k : Nat) (vs : List DWord) (c : Nat) :
    (s.latchOne k vs c).reg (offLatch k (2 + 2 * c)) = dlo (vs.getD c 0) ∧
      (s.latchOne k vs c).reg (offLatch k (3 + 2 * c)) = dhi (vs.getD c 0) := by
  refine ⟨?_, setReg_reg _ _ _⟩
  rw [State.latchOne, setReg_reg_ne _ _ _ _ (by unfold offLatch; omega), setReg_reg]

section
variable (s : State) (k : Nat) (vs : List DWord)

theorem latchBank_frame : s.latchBank k vs = { s with regs := (s.latchBank k vs).regs } := by
  have hfold : ∀ l : List Nat, l.foldl (fun s c => s.latchOne k vs c) s =
      { s with regs := (l.foldl (fun s c => s.latchOne k vs c) s).regs } := fun l =>
    List.foldlRecOn (motive := fun t : State => t = { s with regs := t.regs }) l _ rfl fun t ht c _ => by
      rw [State.latchOne, State.setReg, State.setReg, ht]
  rw [latchBank_eq, State.incReg, State.setReg, hfold]

/-- Outside the bank's words of values a fold of latches keeps every register. -/
theorem latchFold_reg {o : Nat} (h : o < offLatch k 2 ∨ offLatch k 66 ≤ o) :
    ((List.range 32).foldl (fun s c => s.latchOne k vs c) s).reg o = s.reg o :=
  List.foldlRecOn (motive := fun t : State => t.reg o = s.reg o) _ _ rfl fun t ht c hc => by
    have hc32 : c < 32 := List.mem_range.1 hc
    rw [latchOne_reg_ne _ _ _ (by unfold offLatch at *; omega) (by unfold offLatch at *; omega), ht]

theorem latchBank_seq : (s.latchBank k vs).reg (offLatch k 0) = s.reg (offLatch k 0) + 2 := by
  rw [latchBank_eq, incReg_reg, latchFold_reg _ _ _ (.inl (by unfold offLatch; omega))]
  apply BitVec.eq_of_toNat_eq
  simp [wd]

theorem latchBank_reg_ne {o : Nat} (h : o < offLatch k 0 ∨ offLatch k 66 ≤ o) : (s.latchBank k vs).reg o = s.reg o := by
  rw [latchBank_eq, incReg_reg_ne _ _ _ _ (by unfold offLatch at *; omega), latchFold_reg _ _ _ (by unfold offLatch at *; omega)]

theorem latchBank_values {c : Nat} (hc : c < 32) : (s.latchBank k vs).reg (offLatch k (2 + 2 * c)) = dlo (vs.getD c 0) ∧
    (s.latchBank k vs).reg (offLatch k (3 + 2 * c)) = dhi (vs.getD c 0) := by
  rw [latchBank_eq, incReg_reg_ne _ _ _ _ (by unfold offLatch; omega), incReg_reg_ne _ _ _ _ (by unfold offLatch; omega)]
  refine foldl_establishes (i := c) (P := fun t : State => t.reg (offLatch k (2 + 2 * c)) = dlo (vs.getD c 0) ∧
    t.reg (offLatch k (3 + 2 * c)) = dhi (vs.getD c 0)) (fun t => latchOne_regs t k vs c) (fun t j hj ht => ?_)
    (List.mem_range.2 hc) s
  rw [latchOne_reg_ne _ _ _ (by unfold offLatch; omega) (by unfold offLatch; omega),
    latchOne_reg_ne _ _ _ (by unfold offLatch; omega) (by unfold offLatch; omega)]
  exact ht

end

end Sys2Proof.Machine
end

section
/-! SUPPORT. The orders of a fired cue to lanes: a setpoint group that is applied, a lane that is enabled or disabled (R99, R100, R184, R271). -/

namespace Sys2Proof.Machine

/-! ### Setpoint groups (R184) -/

/-- Every standing order is of this source and cue, and no conflict waits: no order of the same cue can stand against another. -/
def OrdersOf (src : Src) (cue : Option Nat) (s : State) : Prop :=
  (∀ x ∈ s.orders, x.src = src ∧ x.cue = cue) ∧ s.conflicts = []

/-- The lanes, the setpoint groups and the standing orders alone may differ. -/
def SetpointStep (s t : State) : Prop := t = { s with lanes := t.lanes, spGroups := t.spGroups, orders := t.orders }

theorem SetpointStep.trans {s t u : State} (h : SetpointStep s t) (g : SetpointStep t u) : SetpointStep s u := by
  unfold SetpointStep at *
  rw [g, h]

theorem against_own {o x : Order} (hsrc : x.src = o.src) (hcue : x.cue = o.cue) : o.against x = false := by
  simp [Order.against, hsrc, hcue]

/-- The member order that a group applied by `src` and `cue` gives to lane n. -/
def memberOrder (n : Nat) (v : Word) (src : Src) (code : Nat) (cue : Option Nat) : Order :=
  { kind := 3, idx := n, value := s36 v, src := src, code := code, cue := cue }

/-- The state in which an order stands that has no rival. -/
def State.standing (s : State) (o : Order) : State :=
  { s with orders := o :: s.orders.filter (fun x => !(o.same x && (x.src = o.src || x.value != o.value))) }

@[simp] theorem standing_lane (s : State) (o : Order) (n : Nat) : (s.standing o).lane n = s.lane n := rfl
@[simp] theorem standing_cc (s : State) (o : Order) : (s.standing o).cc = s.cc := rfl

/-- The waiting order that a group's order of `src` in cell clock `cc` replaces and a sample of that clock still takes (R100). -/
def Lane.replacedSp (l : Lane) (src : Src) (cc : Nat) : Option LaneOrder :=
  match l.pendSp with
  | some o => if decide (o.src = src) then (if o.group && o.at_ = cc then l.oldSp else some o) else none
  | none => none

section
variable {s : State} {src : Src} {cue : Option Nat} (n : Nat) (v : Word) (code : Nat) (h : OrdersOf src cue s)
include h

theorem rankOrder_member : s.rankOrder (memberOrder n v src code cue) = (true, s.standing (memberOrder n v src code cue)) :=
  rankOrder_alone _ _ fun x hx => against_own (h.1 x hx).1 (h.1 x hx).2

theorem standing_member : OrdersOf src cue (s.standing (memberOrder n v src code cue)) := by
  refine ⟨fun x hx => ?_, h.2⟩
  rcases List.mem_cons.1 hx with rfl | hx
  · exact ⟨rfl, rfl⟩
  · exact h.1 x (List.mem_of_mem_filter hx)

/-- A member's order to a disabled lane sets its setpoint word at once. -/
theorem orderSetpoint_disabled (hl : (s.lane n).enabled = false) :
    s.orderSetpoint n v src code true cue = ((s.standing (memberOrder n v src code cue)).setLane n
      { s.lane n with desc := Tab.put 0 (s.lane n).desc 10 v }).groupsTaken n none := by
  have hrank := rankOrder_member n v code h
  rw [memberOrder] at hrank ⊢
  simp only [State.orderSetpoint, hrank, standing_lane, hl, Bool.not_false, Bool.not_true, Bool.or_false, if_true]
  exact flushConflicts_nil _ _ h.2

/-- A member's order to an enabled lane waits for its next sample. -/
theorem orderSetpoint_enabled (hl : (s.lane n).enabled = true) :
    s.orderSetpoint n v src code true cue = (s.standing (memberOrder n v src code cue)).setLane n
      { s.lane n with
        pendSp := some { value := v, src := src, at_ := s.cc, group := true }, oldSp := (s.lane n).replacedSp src s.cc } := by
  have hrank := rankOrder_member n v code h
  rw [memberOrder] at hrank ⊢
  simp only [State.orderSetpoint, hrank, standing_lane, hl]
  rw [if_neg (by decide), if_pos (by cases (s.lane n).pendSp <;> simp)]
  rfl

theorem orderSetpoint_member : OrdersOf src cue (s.orderSetpoint n v src code true cue) ∧
    SetpointStep s (s.orderSetpoint n v src code true cue) := by
  have hstand := standing_member n v code h
  cases hl : (s.lane n).enabled with
  | false =>
    rw [orderSetpoint_disabled n v code h hl]
    exact ⟨hstand, rfl⟩
  | true =>
    rw [orderSetpoint_enabled n v code h hl]
    exact ⟨hstand, rfl⟩

end

/-- The state in which a loaded group's members are given their orders. -/
def State.applying (s : State) (g : Nat) (src : Src) : State :=
  s.setSpGroup g { s.spGroup g with st := .applying, src := src, at_ := s.cc, taken := [] }

@[simp] theorem applying_lane (s : State) (g : Nat) (src : Src) (n : Nat) : (s.applying g src).lane n = s.lane n := rfl
@[simp] theorem applying_cc (s : State) (g : Nat) (src : Src) : (s.applying g src).cc = s.cc := rfl

theorem applying_spGroup (s : State) (g : Nat) (src : Src) : ((s.applying g src).spGroup g).st = .applying := by
  rw [State.applying, setSpGroup_spGroup]

theorem ordersOf_applying {s : State} (g : Nat) (src : Src) (cue : Option Nat) (ho : s.orders = []) (hc : s.conflicts = []) :
    OrdersOf src cue (s.applying g src) := by
  refine ⟨fun x hx => ?_, hc⟩
  rw [show (s.applying g src).orders = [] from ho] at hx
  exact absurd hx List.not_mem_nil

section
variable {s : State} {g : Nat} (src : Src) (code : Nat) (cue : Option Nat) (hst : (s.spGroup g).st = .loaded)
include hst

theorem applyGroup_loaded : s.applyGroup g src code cue =
    (s.spGroup g).members.foldl (fun s m => s.orderSetpoint m.1 m.2 src code true cue) (s.applying g src) := by
  rw [State.applyGroup, if_neg (by simp [hst])]
  rfl

variable (ho : s.orders = []) (hc : s.conflicts = [])
include ho hc

theorem applyGroup_frame : SetpointStep s (s.applyGroup g src code cue) := by
  rw [applyGroup_loaded src code cue hst]
  have hstart : SetpointStep s (s.applying g src) := rfl
  exact (List.foldlRecOn (motive := fun t => OrdersOf src cue t ∧ SetpointStep s t) (s.spGroup g).members _
    ⟨ordersOf_applying g src cue ho hc, hstart⟩ fun t ht m _ =>
      have hm := orderSetpoint_member m.1 m.2 code ht.1
      ⟨hm.1, ht.2.trans hm.2⟩).2

variable {m : Nat} {v : Word} (hm : (s.spGroup g).members = [(m, v)])
include hm

theorem applyGroup_enabled (hl : (s.lane m).enabled = true) :
    (s.applyGroup g src code cue).lane m = { s.lane m with
        pendSp := some { value := v, src := src, at_ := s.cc, group := true }, oldSp := (s.lane m).replacedSp src s.cc } ∧
      ((s.applyGroup g src code cue).spGroup g).st = .applying ∧ ∀ j, j ≠ m → (s.applyGroup g src code cue).lane j = s.lane j := by
  rw [applyGroup_loaded src code cue hst, hm, List.foldl_cons, List.foldl_nil,
    orderSetpoint_enabled m v code (ordersOf_applying g src cue ho hc) hl]
  exact ⟨setLane_lane _ _ _, applying_spGroup s g src, fun j hj => setLane_lane_ne _ _ _ _ hj⟩

theorem applyGroup_disabled (hl : (s.lane m).enabled = false) :
    (s.applyGroup g src code cue).lane m = { s.lane m with desc := Tab.put 0 (s.lane m).desc 10 v } ∧
      ∀ j, j ≠ m → (s.applyGroup g src code cue).lane j = s.lane j := by
  rw [applyGroup_loaded src code cue hst, hm, List.foldl_cons, List.foldl_nil,
    orderSetpoint_disabled m v code (ordersOf_applying g src cue ho hc) hl]
  exact ⟨setLane_lane _ _ _, fun j hj => setLane_lane_ne _ _ _ _ hj⟩

end

/-! ### Lanes that are enabled (R271) -/

section
variable (s : State) (n : Nat) (src : Src)

theorem laneEnable_frame : s.laneEnable n src = { s with lanes := (s.laneEnable n src).lanes } := by
  unfold State.laneEnable
  dsimp only
  split <;> rfl

theorem laneEnable_pends : ((s.laneEnable n src).lane n).pendEnable = some (true, src, s.cc) := by
  unfold State.laneEnable
  dsimp only
  split <;> rw [setLane_lane]

theorem laneEnable_lane_ne {j : Nat} (hj : j ≠ n) : (s.laneEnable n src).lane j = s.lane j := by
  unfold State.laneEnable
  dsimp only
  split <;> exact setLane_lane_ne _ _ _ _ hj

theorem laneEnable_running (h : (s.lane n).enabled = true ∨ (s.lane n).cycle = true) :
    (s.laneEnable n src).lane n = { s.lane n with pendEnable := some (true, src, s.cc) } := by
  have hset : s.laneEnable n src = s.setLane n { s.lane n with pendEnable := some (true, src, s.cc) } := if_pos (Bool.or_eq_true_iff.2 h)
  rw [hset, setLane_lane]

end

/-! ### Axes whose position lane is disabled (R301) -/

/-- Axis a, disabled. -/
def State.leftAxis (s : State) (a : Nat) : Axis :=
  { (s.axis a).settle with st := .disabled, stop := none, pref := (s.axisNow a).1 }

theorem axisLeave_unconf {s : State} {a : Nat} (h : (s.axis a).st = .unconf) : s.axisLeave a = s := if_pos h

theorem axisLeave_plain {s : State} {a : Nat} (h : (s.axis a).st ≠ .unconf) (hp : (s.axis a).setpos = none) :
    s.axisLeave a = s.setAxis a (s.leftAxis a) := by
  rw [State.axisLeave, if_neg h, hp]
  rfl

theorem axisLeave_setpos {s : State} {a : Nat} {p : Int} (h : (s.axis a).st ≠ .unconf) (hp : (s.axis a).setpos = some p) :
    s.axisLeave a = (s.setLane (s.axis a).plane { s.lane (s.axis a).plane with
      desc := (s.lane (s.axis a).plane).repos p (s.laneInput (s.axis a).plane 0) }).setAxis a
        { s.leftAxis a with setpos := none, pref := p } := by
  rw [State.axisLeave, if_neg h, hp]
  rfl

/-- What the disabling of axes of position lane p leaves: the other lanes, whether lane p runs, the planes, and which axes are
configured. -/
structure LeaveStep (p : Nat) (s t : State) : Prop where
  frame : t = { s with lanes := t.lanes, axes := t.axes }
  lanes : ∀ j, j ≠ p → t.lane j = s.lane j
  enabled : (t.lane p).enabled = (s.lane p).enabled
  pends : (t.lane p).pendEnable = (s.lane p).pendEnable
  plane : ∀ j, (t.axis j).plane = (s.axis j).plane
  others : ∀ j, (s.axis j).plane ≠ p → t.axis j = s.axis j
  unconf : ∀ j, (t.axis j).st = .unconf ↔ (s.axis j).st = .unconf

theorem LeaveStep.refl (p : Nat) (s : State) : LeaveStep p s s := ⟨rfl, fun _ _ => rfl, rfl, rfl, fun _ => rfl, fun _ _ => rfl, fun _ => .rfl⟩

theorem LeaveStep.trans {p : Nat} {s t u : State} (h : LeaveStep p s t) (g : LeaveStep p t u) : LeaveStep p s u where
  frame := by rw [g.frame, h.frame]
  lanes j hj := (g.lanes j hj).trans (h.lanes j hj)
  enabled := g.enabled.trans h.enabled
  pends := g.pends.trans h.pends
  plane j := (g.plane j).trans (h.plane j)
  others j hj := (g.others j ((h.plane j).trans_ne hj)).trans (h.others j hj)
  unconf j := (g.unconf j).trans (h.unconf j)

/-- A configured axis of position lane p takes a record of the same plane, and the lane may take other words. -/
theorem LeaveStep.of_setAxis {p a : Nat} {s t : State} {x : Axis} (hframe : t = { s with lanes := t.lanes })
    (hlanes : ∀ j, j ≠ p → t.lane j = s.lane j) (hen : (t.lane p).enabled = (s.lane p).enabled)
    (hpend : (t.lane p).pendEnable = (s.lane p).pendEnable) (ha : (s.axis a).plane = p) (hconf : (s.axis a).st ≠ .unconf)
    (hx : x.plane = p) (hst : x.st ≠ .unconf) : LeaveStep p s (t.setAxis a x) := by
  have haxis : ∀ j, t.axis j = s.axis j := fun j => by rw [hframe]; rfl
  refine ⟨by rw [hframe]; rfl, hlanes, hen, hpend, fun j => ?_, fun j hj => ?_, fun j => ?_⟩
  · by_cases hja : j = a
    · rw [hja, setAxis_axis, hx, ha]
    · rw [setAxis_axis_ne _ _ _ _ hja, haxis]
  · rw [setAxis_axis_ne _ _ _ _ (fun hja => hj (by rw [hja, ha])), haxis]
  · by_cases hja : j = a
    · rw [hja, setAxis_axis]
      exact iff_of_false hst hconf
    · rw [setAxis_axis_ne _ _ _ _ hja, haxis]

theorem axisLeave_step {s : State} {a p : Nat} (ha : (s.axis a).plane = p) : LeaveStep p s (s.axisLeave a) := by
  by_cases h : (s.axis a).st = .unconf
  · rw [axisLeave_unconf h]
    exact .refl p s
  · cases hp : (s.axis a).setpos with
    | none =>
      rw [axisLeave_plain h hp]
      exact .of_setAxis rfl (fun _ _ => rfl) rfl rfl ha h ha (by simp [State.leftAxis])
    | some q =>
      rw [axisLeave_setpos h hp, ha]
      exact .of_setAxis rfl (fun j hj => setLane_lane_ne _ _ _ _ hj) (by rw [setLane_lane]) (by rw [setLane_lane]) ha h ha
        (by simp [State.leftAxis])

theorem axisLeave_disabled {s : State} {a : Nat} (h : (s.axis a).st ≠ .unconf) : ((s.axisLeave a).axis a).st = .disabled := by
  cases hp : (s.axis a).setpos with
  | none => rw [axisLeave_plain h hp, setAxis_axis]; rfl
  | some q => rw [axisLeave_setpos h hp, setAxis_axis]; rfl

theorem axisLeave_axis_ne {s : State} {a j : Nat} (h : j ≠ a) : (s.axisLeave a).axis j = s.axis j := by
  by_cases hu : (s.axis a).st = .unconf
  · rw [axisLeave_unconf hu]
  · cases hp : (s.axis a).setpos with
    | none => rw [axisLeave_plain hu hp, setAxis_axis_ne _ _ _ _ h]
    | some q => rw [axisLeave_setpos hu hp, setAxis_axis_ne _ _ _ _ h]; rfl

theorem axesLeave_step (s : State) (p : Nat) : LeaveStep p s (s.axesLeave p) :=
  List.foldlRecOn (motive := LeaveStep p s) _ _ (.refl p s) fun t ht a _ => by
    split
    · exact ht.trans (axisLeave_step ‹_›)
    · exact ht

theorem axesLeave_disabled {s : State} {p j : Nat} (hj : j < 256) (hconf : (s.axis j).st ≠ .unconf) (hplane : (s.axis j).plane = p) :
    ((s.axesLeave p).axis j).st = .disabled := by
  have hstep := axesLeave_step s p
  refine foldl_establishes (i := j) (P := fun t : State => (t.axis j).plane = p → (t.axis j).st ≠ .unconf → (t.axis j).st = .disabled)
    (fun t => ?_) (fun t a ha ht => ?_) (List.mem_range.2 hj) s ((hstep.plane j).trans hplane) (mt (hstep.unconf j).1 hconf)
  · by_cases hp : (t.axis j).plane = p
    · rw [if_pos hp]
      exact fun _ hu => axisLeave_disabled (mt ((axisLeave_step hp).unconf j).2 hu)
    · rw [if_neg hp]
      exact fun h => absurd h hp
  · split
    · rw [axisLeave_axis_ne (Ne.symm ha)]; exact ht
    · exact ht

/-! ### Lanes that are disabled (R271) -/

theorem laneDisable_running {s : State} {n : Nat} (src : Src) (h : (s.lane n).enabled = true) :
    s.laneDisable n src = s.setLane n { s.lane n with pendEnable := some (false, src, s.cc) } := if_pos h

theorem laneDisable_stopped {s : State} {n : Nat} (src : Src) (h : (s.lane n).enabled = false) :
    s.laneDisable n src = (s.setLane n { s.lane n with pendEnable := none, waits := [] }).axesLeave n := if_neg (by simp [h])

/-- A lane that does not run forgets what waited for it, and the axes of its position become DISABLED. -/
theorem laneDisable_stops {s u : State} {n : Nat} {src : Src} (h : (s.lane n).enabled = false) (hu : s.laneDisable n src = u) :
    (∀ j, j ≠ n → u.lane j = s.lane j) ∧ (u.lane n).enabled = false ∧ (u.lane n).pendEnable = none ∧
      (∀ j < 256, (s.axis j).st ≠ .unconf → (s.axis j).plane = n → (u.axis j).st = .disabled) ∧
      (∀ j, (s.axis j).plane ≠ n → u.axis j = s.axis j) ∧ u = { s with lanes := u.lanes, axes := u.axes } := by
  have hstep := axesLeave_step (s.setLane n { s.lane n with pendEnable := none, waits := [] }) n
  have hdis : ∀ j < 256, (s.axis j).st ≠ .unconf → (s.axis j).plane = n → (u.axis j).st = .disabled := fun j hj hconf hplane => by
    rw [← hu, laneDisable_stopped src h]
    exact axesLeave_disabled hj hconf hplane
  rw [← laneDisable_stopped src h, hu] at hstep
  refine ⟨fun j hj => (hstep.lanes j hj).trans (setLane_lane_ne _ _ _ _ hj), ?_, ?_, hdis, hstep.others, hstep.frame⟩
  · rw [hstep.enabled, setLane_lane, h]
  · rw [hstep.pends, setLane_lane]

theorem laneDisable_conflicts (s : State) (n : Nat) (src : Src) : (s.laneDisable n src).conflicts = s.conflicts := by
  cases h : (s.lane n).enabled with
  | true => rw [laneDisable_running src h]; rfl
  | false => rw [laneDisable_stopped src h, (axesLeave_step _ n).frame]; rfl

/-- The state in which the one order of this cell clock stands, of a source and cue to enable or disable lane n. -/
def State.laneOrdered (s : State) (n : Nat) (on : Bool) (src : Src) (code : Nat) (cue : Option Nat) : State :=
  { s with orders := [{ kind := 2, idx := n, value := b2n on, src := src, code := code, cue := cue,
                        axes := (s.axes.filter (fun e => e.2.plane = n)).map (fun e => (e.1, e.2)) }] }

section
variable {s : State} (n : Nat) (src : Src) (code : Nat) (cue : Option Nat) (ho : s.orders = [])
include ho

theorem orderLane_enables : s.orderLane n true src code cue = (s.laneOrdered n true src code cue).laneEnable n src := by
  simp only [State.orderLane, rankOrder_first _ ho, Bool.not_true, Bool.false_eq_true, if_false, if_true]
  rw [← State.laneOrdered, laneEnable_pends]
  exact if_pos rfl

theorem orderLane_disables (hc : s.conflicts = []) :
    s.orderLane n false src code cue = (s.laneOrdered n false src code cue).laneDisable n src := by
  have hnil : ((s.laneOrdered n false src code cue).laneDisable n src).conflicts = [] := (laneDisable_conflicts _ n src).trans hc
  simp only [State.orderLane, rankOrder_first _ ho, Bool.not_true, Bool.false_eq_true, if_false]
  rw [← State.laneOrdered, flushConflicts_nil _ _ hnil, ite_self]

end

end Sys2Proof.Machine
end

section
/-! The obligation of cues: when one fires, and what its action does (R97 - R103). -/

namespace Sys2Proof.Machine

/-! ### The effect of each action, in the state in which it is carried out -/

section
variable {n : Fin 4096} {s : State} {a : Action} {rest : List Action} (hhead : s.actions = a :: rest) (hcue : a.cue = n.val)
  (hdone : s.actionsDone < 16)
include hhead hcue hdone

theorem conv_starts (hcode : a.code = 1) : ∃ u, exec (.conv n) s = .next u ∧
    u = { s.acted n.val a rest with convs := u.convs } ∧ (∀ k, k ≠ a.param → u.conv k = s.conv k) ∧
    u.conv a.param = { s.conv a.param with
      coming := (s.conv a.param).coming ++ [(max (a.f + 2) s.cc, bit (s.reg (offConv a.param 0)) 28)] } :=
  ⟨_, congrArg Host.Outcome.next (act_head hhead _ hcue hdone hcode), rfl, fun _ hk => setConv_conv_ne _ _ _ _ hk, setConv_conv _ _ _⟩

theorem pwmld_loads (hcode : a.code = 2) : ∃ u, exec (.pwmld n) s = .next u ∧
    u = { s.acted n.val a rest with pwm := u.pwm } ∧ (∀ k, k ≠ a.param % 32 → u.pair k = s.pair k) ∧
    u.pair (a.param % 32) = { s.pair (a.param % 32) with
      loads := (s.pair (a.param % 32)).loads ++
        [(max (a.f + 2) (s.cc + 1), if a.param / 32 % 2 = 1 then some a.fine else none)] } :=
  ⟨_, congrArg Host.Outcome.next (act_head hhead _ hcue hdone hcode), rfl, fun _ hk => setPair_pair_ne _ _ _ _ hk, setPair_pair _ _ _⟩

theorem outset_sets (ho : s.orders = []) (hp : a.param < 16) (hlive : s.cellsLive = true) (hcode : a.code = 3) :
    ∃ u, exec (.outset n) s = .next u ∧ u.reg (offFout a.param 0) = wd (2 ^ 35) ∧
      u = { s.acted n.val a rest with regs := u.regs, field := u.field, orders := u.orders } ∧
      ∀ o, o ≠ offFout a.param 0 → u.reg o = s.reg o := by
  obtain ⟨hval, hframe, hne⟩ := cueOut_value (s := s.acted n.val a rest) true hp ho
  have hlive' : (s.acted n.val a rest).cellsLive = true := hlive
  rw [hlive'] at hval
  exact ⟨_, congrArg Host.Outcome.next (act_head hhead _ hcue hdone hcode), hval.trans (by decide), hframe, hne⟩

theorem outclr_clears (ho : s.orders = []) (hp : a.param < 16) (hcode : a.code = 4) :
    ∃ u, exec (.outclr n) s = .next u ∧ u.reg (offFout a.param 0) = 0 ∧
      u = { s.acted n.val a rest with regs := u.regs, field := u.field, orders := u.orders } ∧
      ∀ o, o ≠ offFout a.param 0 → u.reg o = s.reg o := by
  obtain ⟨hval, hframe, hne⟩ := cueOut_value (s := s.acted n.val a rest) false hp ho
  have hbit : bit (wd (at_ (b2n false) 35)) 35 = false := by decide
  rw [hbit, Bool.false_and] at hval
  exact ⟨_, congrArg Host.Outcome.next (act_head hhead _ hcue hdone hcode), hval.trans (by decide), hframe, hne⟩

theorem captrig_triggers (hcode : a.code = 5) : ∃ u, exec (.captrig n) s = .next u ∧
    u = { s.acted n.val a rest with caps := u.caps } ∧ (∀ k, k ≠ a.param → u.cap k = s.cap k) ∧
    ((s.cap a.param).st ≠ 0 → u.cap a.param = { s.cap a.param with
      triggers := (s.cap a.param).triggers ++
        [{ kind := 4, time := s.crossTime a, target := s.crossTime a, cc := s.cc }] }) := by
  refine ⟨_, congrArg Host.Outcome.next (act_head hhead _ hcue hdone hcode), ?_⟩
  by_cases hst : (s.cap a.param).st = 0
  · rw [captureHit_idle (s := s.acted n.val a rest) _ _ hst]
    exact ⟨rfl, fun _ _ => rfl, fun h => absurd hst h⟩
  · rw [captureHit_waits (s := s.acted n.val a rest) _ _ hst]
    exact ⟨rfl, fun _ hk => setCap_cap_ne _ _ _ _ hk, fun _ => setCap_cap _ _ _⟩

theorem cuePost_posts (hcode : a.code = 6) (hmode : s.mode ≠ 7) (hused : (s.task a.param).st ≠ .unused)
    (hroom : (s.task a.param).queue.length < (s.task a.param).qdepth) : ∃ u, exec (.cuePost n) s = .next u ∧
      (u.task a.param).queue = (s.task a.param).queue ++ [{ word := wd n.val }] ∧ (u.task a.param).posted = true ∧
      (∀ m, m ≠ a.param → u.task m = s.task m) ∧ u = { s.acted n.val a rest with tasks := u.tasks, census := u.census } ∧
      u.stream (strPost (taskQuad a.param)) = { s.stream (strPost (taskQuad a.param)) with
        produced := (s.stream (strPost (taskQuad a.param))).produced + 1
        resident := (s.stream (strPost (taskQuad a.param))).resident + 1 } := by
  refine ⟨_, congrArg Host.Outcome.next (act_head hhead _ hcue hdone hcode), ?_⟩
  rw [post_queued (s := s.acted n.val a rest) (wd n.val) hmode hused hroom]
  exact ⟨by rw [setTask_task]; rfl, by rw [setTask_task], fun m hm => setTask_task_ne _ _ _ _ hm, rfl, produce_stream _ _ _⟩

theorem spgrp_applies (ho : s.orders = []) (hc : s.conflicts = []) (hcode : a.code = 7) (hst : (s.spGroup a.param).st = .loaded) :
    ∃ u, exec (.spgrp n) s = .next u ∧
      (∀ m v, (s.spGroup a.param).members = [(m, v)] →
        ((s.lane m).enabled = true → (u.lane m).pendSp = some { value := v, src := a.src, at_ := s.cc, group := true } ∧
          (u.spGroup a.param).st = .applying) ∧
        ((s.lane m).enabled = false → u.lane m = { s.lane m with desc := Tab.put 0 (s.lane m).desc 10 v }) ∧
        ∀ j, j ≠ m → u.lane j = s.lane j) ∧
      u = { s.acted n.val a rest with lanes := u.lanes, spGroups := u.spGroups, orders := u.orders } := by
  refine ⟨_, congrArg Host.Outcome.next (act_head hhead _ hcue hdone hcode), fun m v hm => ?_,
    applyGroup_frame (s := s.acted n.val a rest) a.src cueCode (some a.cue) hst ho hc⟩
  cases hl : (s.lane m).enabled with
  | false =>
    obtain ⟨hlane, hne⟩ := applyGroup_disabled (s := s.acted n.val a rest) a.src cueCode (some a.cue) hst ho hc hm hl
    exact ⟨fun h => absurd h (by decide), fun _ => hlane, hne⟩
  | true =>
    obtain ⟨hlane, hgroup, hne⟩ := applyGroup_enabled (s := s.acted n.val a rest) a.src cueCode (some a.cue) hst ho hc hm hl
    exact ⟨fun _ => ⟨by rw [hlane]; rfl, hgroup⟩, fun h => absurd h (by decide), hne⟩

theorem laneen_enables (ho : s.orders = []) (hcode : a.code = 8) : ∃ u, exec (.laneen n) s = .next u ∧
    (u.lane a.param).pendEnable = some (true, a.src, s.cc) ∧
    ((s.lane a.param).enabled = true ∨ (s.lane a.param).cycle = true →
      u.lane a.param = { s.lane a.param with pendEnable := some (true, a.src, s.cc) }) ∧
    (∀ j, j ≠ a.param → u.lane j = s.lane j) ∧ u = { s.acted n.val a rest with lanes := u.lanes, orders := u.orders } := by
  have hact := (act_head hhead (fun a s => s.orderLane a.param true a.src cueCode (some n.val)) hcue hdone hcode).trans
    (orderLane_enables a.param a.src cueCode (some n.val) ho)
  set t := (s.acted n.val a rest).laneOrdered a.param true a.src cueCode (some n.val)
  refine ⟨_, congrArg Host.Outcome.next hact, laneEnable_pends t _ _, fun h => laneEnable_running t _ _ h,
    fun j hj => laneEnable_lane_ne t _ _ hj, ?_⟩
  rw [laneEnable_frame t]
  rfl

theorem lanedis_disables (ho : s.orders = []) (hc : s.conflicts = []) (hcode : a.code = 9) : ∃ u, exec (.lanedis n) s = .next u ∧
    (∀ j, j ≠ a.param → u.lane j = s.lane j) ∧
    ((s.lane a.param).enabled = true → u.lane a.param = { s.lane a.param with pendEnable := some (false, a.src, s.cc) } ∧
      u = { s.acted n.val a rest with lanes := u.lanes, orders := u.orders }) ∧
    ((s.lane a.param).enabled = false → (u.lane a.param).enabled = false ∧ (u.lane a.param).pendEnable = none ∧
      (∀ j < 256, (s.axis j).st ≠ .unconf → (s.axis j).plane = a.param → (u.axis j).st = .disabled) ∧
      (∀ j, (s.axis j).plane ≠ a.param → u.axis j = s.axis j) ∧
      u = { s.acted n.val a rest with lanes := u.lanes, axes := u.axes, orders := u.orders }) := by
  have hact := (act_head hhead (fun a s => s.orderLane a.param false a.src cueCode (some n.val)) hcue hdone hcode).trans
    (orderLane_disables a.param a.src cueCode (some n.val) ho hc)
  set t := (s.acted n.val a rest).laneOrdered a.param false a.src cueCode (some n.val)
  refine ⟨_, congrArg Host.Outcome.next hact, ?_⟩
  cases hl : (s.lane a.param).enabled with
  | true =>
    rw [laneDisable_running (s := t) a.src hl]
    exact ⟨fun j hj => setLane_lane_ne _ _ _ _ hj, fun _ => ⟨setLane_lane _ _ _, rfl⟩, fun h => absurd h (by decide)⟩
  | false =>
    obtain ⟨hne, hen, hpend, hdis, hothers, hframe⟩ := laneDisable_stops (s := t) (src := a.src) hl rfl
    refine ⟨hne, fun h => absurd h (by decide), fun _ => ⟨hen, hpend, hdis, hothers, ?_⟩⟩
    rw [hframe]
    rfl

theorem stepgo_goes (hcode : a.code = 10) : ∃ u, exec (.stepgo n) s = .next u ∧ u = { s.acted n.val a rest with steps := u.steps } ∧
    u.stepGen a.param = { s.stepGen a.param with goAt := some (max (a.f + 2) (s.cc + 1)) } ∧
    ∀ k, k ≠ a.param → u.stepGen k = s.stepGen k :=
  ⟨_, congrArg Host.Outcome.next (act_head hhead _ hcue hdone hcode), rfl, setStep_stepGen _ _ _, fun _ hk => setStep_stepGen_ne _ _ _ _ hk⟩

theorem latch_latches (hcode : a.code = 11) : ∃ u, exec (.latch n) s = .next u ∧ u = { s.acted n.val a rest with regs := u.regs } ∧
    u.reg (offLatch a.param 0) = s.reg (offLatch a.param 0) + 2 ∧
    (∀ c < 32, u.reg (offLatch a.param (2 + 2 * c)) = dlo ((a.held.getD s.coordValues).getD c 0) ∧
      u.reg (offLatch a.param (3 + 2 * c)) = dhi ((a.held.getD s.coordValues).getD c 0)) ∧
    ∀ o, o < offLatch a.param 0 ∨ offLatch a.param 66 ≤ o → u.reg o = s.reg o :=
  ⟨_, congrArg Host.Outcome.next (act_head hhead _ hcue hdone hcode), latchBank_frame _ _ _, latchBank_seq _ _ _,
    fun _ hc => latchBank_values _ _ _ hc, fun _ ho => latchBank_reg_ne _ _ _ ho⟩

end

/-- An action that is not this cue's, or whose turn does not come in this clock, is left where it stands. -/
theorem action_waits {n : Fin 4096} {s : State} {a : Action} {rest : List Action} (hhead : s.actions = a :: rest)
    (h : a.cue ≠ n.val ∨ 16 ≤ s.actionsDone) :
    ∀ i ∈ [Instr.conv n, .pwmld n, .outset n, .outclr n, .captrig n, .cuePost n, .spgrp n, .laneen n, .lanedis n, .stepgo n, .latch n],
      exec i s = .next s := by
  simp only [List.forall_mem_cons, List.not_mem_nil, false_implies, implies_true, and_true]
  have hstays : ∀ code effect, Host.Outcome.next (s.act code n.val effect) = (.next s : Host.Outcome State Fault Refusal) :=
    fun _ effect => congrArg _ (act_other hhead effect h)
  exact ⟨hstays _ _, hstays _ _, hstays _ _, hstays _ _, hstays _ _, hstays _ _, hstays _ _, hstays _ _, hstays _ _, hstays _ _,
    hstays _ _⟩

/-- Settles O38: a firing by the crossing rule, each action by its effect in the state that its turn leaves. -/
theorem cuesFire : Obligations.CuesFire := by
  refine ⟨fun n s hst harm hf hmod => ?_, fun n s a rest hhead => ⟨fun hcue hdone ho hc => ?_, fun i hi h => action_waits hhead h i hi⟩⟩
  · exact ⟨firesCue_rise hst harm hf hmod, firesCue_fall hst harm hf hmod, firesCue_past hst harm hf hmod,
      exec_cueFire_uncrossed hst harm hmod⟩
  · exact ⟨conv_starts hhead hcue hdone, pwmld_loads hhead hcue hdone, outset_sets hhead hcue hdone ho, outclr_clears hhead hcue hdone ho,
      captrig_triggers hhead hcue hdone, cuePost_posts hhead hcue hdone, spgrp_applies hhead hcue hdone ho hc,
      laneen_enables hhead hcue hdone ho, lanedis_disables hhead hcue hdone ho hc, stepgo_goes hhead hcue hdone,
      fun hcode _ => latch_latches hhead hcue hdone hcode⟩

end Sys2Proof.Machine
end

section
/-! SUPPORT. Immediate-format and R/I instructions that stay in their tile, and the words that integers in range stand for (R48, R111, R157). -/

namespace Sys2Proof.Machine

theorem fld_encI {op : Nat} (hop : op < 256) (f : IF) : fld (encI op f) 35 28 = op := by
  have hd := f.d.isLt
  have ha := f.a.isLt
  have hi := f.imm.isLt
  unfold encI
  rw [Nat.add_assoc, Nat.add_assoc]
  exact fld_opcode hop (by simp only [at_]; omega)

theorem fld_encJ {op : Nat} (hop : op < 256) (f : JF) : fld (encJ op f) 35 28 = op := by
  have hc := f.cond.isLt
  have ho := f.off.isLt
  unfold encJ
  rw [Nat.add_assoc]
  exact fld_opcode hop (by simp only [at_]; omega)

/-- A word whose opcode is no load's and below 6C is no request that twins share (R544). -/
theorem inTile_of_opcode {w : Word} {op : Nat} (hw : fld w 35 28 = op) (hop : 3 < op ∧ op < 0x6C) (s : State) (k : Nat) :
    (leavesTile w || s.loadsRegs k w) = false := by
  obtain ⟨h1, h2⟩ := hop
  simp [leavesTile, State.loadsRegs, hw, show op ≠ 1 by omega, show op ≠ 3 by omega]
  omega

theorem encI_inTile {op : Nat} (hop : 3 < op ∧ op < 0x6C) (f : IF) (s : State) (k : Nat) :
    (leavesTile (encI op f) || s.loadsRegs k (encI op f)) = false := inTile_of_opcode (fld_encI (by omega) f) hop s k

theorem encJ_inTile {op : Nat} (hop : 3 < op ∧ op < 0x6C) (f : JF) (s : State) (k : Nat) :
    (leavesTile (encJ op f) || s.loadsRegs k (encJ op f)) = false := inTile_of_opcode (fld_encJ (by omega) f) hop s k

theorem encRI_inTile {op : Nat} (hop : 3 < op ∧ op < 0x6B) (f : RIF) (s : State) (k : Nat) :
    (leavesTile (encRI op f) || s.loadsRegs k (encRI op f)) = false := by
  cases f with
  | r f => exact encR_inTile (by omega) (by omega) (by omega) f s k
  | i f => exact encI_inTile (by omega) f s k

/-- An R/I instruction with a result in its d register, and flags. -/
theorem runInstr_RI_putRes {c : CoreId} {s : State} {op : Nat} {f : RIF} {bad : Bool} {body : Nat → State → Res} {d : Nat} {r : Word}
    {fl : FlagSet} (hop : 3 < op ∧ op < 0x6B) (h : coreReady c s = true) (hb : bad = false)
    (he : body (coreKey c) s = putRes s (coreKey c) d r fl) :
    runInstr c (encRI op f) bad body s = .next (s.instrEnd (coreKey c) (s.afterF (coreKey c) d r fl)) :=
  runInstr_core _ h hb (.inl (encRI_inTile hop ..)) (he.trans (putRes_eq ..)) rfl

/-! ### Words as integers -/

/-- The word of an integer that a word stands for. -/
theorem wdI_eq {x : Int} {r : Word} (h : r.toInt = x) : wdI x = r := by
  rw [wdI, ← h, BitVec.ofInt_toInt]

theorem toInt_bounds (w : Word) : -2 ^ 35 ≤ w.toInt ∧ w.toInt < 2 ^ 35 := by
  have hlo := w.le_toInt
  have hhi := w.toInt_lt
  constructor <;> simpa using by assumption

/-- An integer in S36 is its word's value. -/
theorem toInt_wdI {x : Int} (h : -2 ^ 35 ≤ x ∧ x < 2 ^ 35) : (wdI x).toInt = x := by
  rw [wdI, BitVec.toInt_ofInt]
  exact Int.bmod_eq_of_le (by omega) (by omega)

/-- A value has the word r exactly where it lies in S36 and r stands for it (R48, R106): V of sums and differences. -/
theorem ne_toInt_wdI (x : Int) : x ≠ (wdI x).toInt ↔ x < -2 ^ 35 ∨ 2 ^ 35 ≤ x := by
  have hb := toInt_bounds (wdI x)
  constructor
  · intro hne
    by_contra hin
    exact hne (toInt_wdI (by omega)).symm
  · omega

end Sys2Proof.Machine
end

section
/-! The obligation of ADD, SUB and CMP: what a flag set writes, the flags of sums and differences, then the whole statement. -/

namespace Sys2Proof.Machine

/-- One flag written: the named bit takes the value, if there is one. -/
def putFlag (w : Word) (i : Nat) : Option Bool → Word
  | none => w
  | some x => setBit w i x

theorem FlagSet.apply_eq (f : FlagSet) (fl : Word) : f.apply fl =
    if f.sat then setBit (putFlag (putFlag (putFlag (putFlag fl 0 f.z) 1 f.n) 2 f.c) 3 f.v) 4 true
    else putFlag (putFlag (putFlag (putFlag fl 0 f.z) 1 f.n) 2 f.c) 3 f.v := rfl

theorem bit_setBit (w : Word) {i : Nat} (x : Bool) (j : Nat) (hi : i < 36) : bit (setBit w i x) j = if j = i then x else bit w j := by
  rw [setBit, bit_setFld]
  by_cases hj : j = i
  · subst hj
    cases x <;> simp [b2n, hi]
  · rw [if_neg (by omega), if_neg hj]

theorem bit_putFlag (w : Word) {i : Nat} (x : Option Bool) (j : Nat) (hi : i < 36) :
    bit (putFlag w i x) j = if j = i then x.getD (bit w i) else bit w j := by
  cases x with
  | none =>
    split
    next h => rw [h]; rfl
    next => rfl
  | some x => exact bit_setBit w x j hi

/-- FL after a flag set, bit by bit (R106). -/
theorem FlagSet.apply_bit (f : FlagSet) (fl : Word) (i : Nat) : bit (f.apply fl) i =
    (if i = 0 then f.z.getD (bit fl 0)
     else if i = 1 then f.n.getD (bit fl 1)
     else if i = 2 then f.c.getD (bit fl 2)
     else if i = 3 then f.v.getD (bit fl 3)
     else if i = 4 then f.sat || bit fl 4
     else bit fl i) := by
  rw [FlagSet.apply_eq]
  rcases i with _ | _ | _ | _ | _ | i <;> cases f.sat <;> simp [bit_setBit, bit_putFlag]

theorem addFlags_eq (a b : Word) : addFlags a b =
    { z := some (decide (a + b = 0)), n := some (a + b).msb, c := some (decide (2 ^ 36 ≤ a.toNat + b.toNat))
      v := some (decide (a.toInt + b.toInt < -2 ^ 35 ∨ 2 ^ 35 ≤ a.toInt + b.toInt)) } := by
  have hsum : wdI (a.toInt + b.toInt) = a + b :=
    BitVec.eq_of_toInt_eq (by rw [wdI, BitVec.toInt_ofInt, BitVec.toInt_add])
  have hv : (s36 a + s36 b != s36 (a + b)) = decide (a.toInt + b.toInt < -2 ^ 35 ∨ 2 ^ 35 ≤ a.toInt + b.toInt) := by
    rw [Bool.eq_iff_iff, bne_iff_ne, decide_eq_true_iff, ← ne_toInt_wdI, hsum]
    rfl
  simp only [addFlags, bit_35, hv]

theorem subFlags_eq (a b : Word) : subFlags a b =
    { z := some (decide (a = b)), n := some (a - b).msb, c := some (decide (b.toNat ≤ a.toNat))
      v := some (decide (a.toInt - b.toInt < -2 ^ 35 ∨ 2 ^ 35 ≤ a.toInt - b.toInt)) } := by
  have hdiff : wdI (a.toInt - b.toInt) = a - b :=
    BitVec.eq_of_toInt_eq (by rw [wdI, BitVec.toInt_ofInt, BitVec.toInt_sub])
  have hv : (s36 a - s36 b != s36 (a - b)) = decide (a.toInt - b.toInt < -2 ^ 35 ∨ 2 ^ 35 ≤ a.toInt - b.toInt) := by
    rw [Bool.eq_iff_iff, bne_iff_ne, decide_eq_true_iff, ← ne_toInt_wdI, hdiff]
    rfl
  have hz : (a - b = 0) ↔ a = b := sub_eq_zero
  simp only [subFlags, bit_35, hv, hz]

section
variable {c : CoreId} {f : RIF} {s : State} (h : coreReady c s = true) (hf : riBad f = false)
include h hf

theorem add_completes : Completes (.add c f) c s
    (s.afterF (coreKey c) (riD f) (s.riA (coreKey c) f + s.riB (coreKey c) f) (addFlags (s.riA (coreKey c) f) (s.riB (coreKey c) f))) := by
  show execAdd c f s = _
  unfold execAdd
  exact runInstr_RI_putRes (by decide) h hf rfl

theorem sub_completes : Completes (.sub c f) c s
    (s.afterF (coreKey c) (riD f) (s.riA (coreKey c) f - s.riB (coreKey c) f) (subFlags (s.riA (coreKey c) f) (s.riB (coreKey c) f))) := by
  show execSub c f s = _
  unfold execSub
  exact runInstr_RI_putRes (by decide) h hf rfl

theorem cmp_completes (hd : riD f = 0) : Completes (.cmp c f) c s { s.afterI (coreKey c) with
    fl := (subFlags (s.riA (coreKey c) f) (s.riB (coreKey c) f)).apply (s.core (coreKey c)).fl } := by
  show execCmp c f s = _
  unfold execCmp
  exact runInstr_core { s.core (coreKey c) with
    fl := (subFlags (s.riA (coreKey c) f) (s.riB (coreKey c) f)).apply (s.core (coreKey c)).fl } h (by simp [hf, hd]) (.inl (encRI_inTile (by decide) ..)) rfl rfl

end

/-- Settles O6: FL by its bits (`FlagSet.apply_bit`), and each instruction with the flags of its sum or difference in integers
(`addFlags_eq`, `subFlags_eq`). -/
theorem addSubCompare : Obligations.AddSubCompare := by
  unfold Obligations.AddSubCompare
  refine ⟨fun f fl i _ => FlagSet.apply_bit f fl i, fun c f s h hf => ⟨?_, ?_, fun hd => ?_⟩⟩
  · rw [← addFlags_eq]
    exact add_completes h hf
  · rw [← subFlags_eq]
    exact sub_completes h hf
  · rw [← subFlags_eq]
    exact cmp_completes h hf hd

end Sys2Proof.Machine
end

section
/-! The obligation of DIV, REM, NEG, ABS and CLAMP: quotients, remainders and magnitudes within S36, then each instruction (R108, R157). -/

namespace Sys2Proof.Machine

/-! ### Results in S36 -/

theorem satS36_of_le {x : Int} (h : -2 ^ 35 ≤ x) : satS36 x = min (2 ^ 35 - 1) x := by
  unfold satS36 clampI s36Min s36Max
  split_ifs <;> omega

/-- A saturated result that does not lie below S36: the word r that stands for it, with the flags that tell of the clamp. -/
theorem wdI_satS36 {x : Int} {r : Word} (h : -2 ^ 35 ≤ x) (hr : r.toInt = min (2 ^ 35 - 1) x) :
    wdI (satS36 x) = r ∧ (x != satS36 x) = decide (r.toInt ≠ x) := by
  have hsat : r.toInt = satS36 x := by rw [satS36_of_le h, hr]
  refine ⟨wdI_eq hsat, ?_⟩
  rw [← hsat, Bool.eq_iff_iff, bne_iff_ne, decide_eq_true_iff, ne_comm]

/-- Only the magnitude of the smallest value lies beyond S36. -/
theorem min_ne_iff {x : Int} (h : x ≤ 2 ^ 35) : min (2 ^ 35 - 1) x ≠ x ↔ x = 2 ^ 35 := by omega

theorem natAbs_tdiv_le (a b : Int) : (a.tdiv b).natAbs ≤ a.natAbs := by
  rw [Int.natAbs_tdiv]
  exact Nat.div_le_self ..

section
variable {c : CoreId} {f : RF} {s : State} {r : Word} {d a b : Int} (h : coreReady c s = true) (hf : f.fn = 0)
  (ha : (s.g (coreKey c) f.a.toNat).toInt = a)
include h hf ha

section
variable (hb : (s.g (coreKey c) f.b.toNat).toInt = b)
include hb

theorem div_completes (h0 : b ≠ 0) (hr : r.toInt = min (2 ^ 35 - 1) (a.tdiv b)) :
    Completes (.div c f) c s (s.afterF (coreKey c) f.d.toNat r
      { z := some (decide (r = 0)), n := some r.msb, v := some (decide (r.toInt ≠ a.tdiv b)), sat := decide (r.toInt ≠ a.tdiv b) }) := by
  have hq : -2 ^ 35 ≤ a.tdiv b := by
    have hbounds := toInt_bounds (s.g (coreKey c) f.a.toNat)
    have hle := natAbs_tdiv_le a b
    omega
  obtain ⟨hw, hne⟩ := wdI_satS36 hq hr
  show execDiv c f s = _
  unfold execDiv
  refine runInstr_R_putRes (by decide) h (by simp [hf]) ?_
  simp only [s36, ha, hb, if_neg h0, hw, hne, znOf_eq]

/-- A zero divisor with DZT at 0 (R108). -/
theorem div_zero_completes (h0 : b = 0) (hdzt : flag (s.core (coreKey c)).fl 7 = false)
    (hr : r.toInt = if 0 ≤ a then s36Max else s36Min) :
    Completes (.div c f) c s (s.afterF (coreKey c) f.d.toNat r
      { z := some (decide (r = 0)), n := some r.msb, v := some true, sat := true }) := by
  show execDiv c f s = _
  unfold execDiv
  refine runInstr_R_putRes (by decide) h (by simp [hf]) ?_
  simp only [s36, ha, hb, if_pos h0, hdzt, Bool.false_eq_true, if_false, wdI_eq hr, znOf_eq]

theorem rem_completes (h0 : b ≠ 0) (hr : r.toInt = a.tmod b) :
    Completes (.rem c f) c s (s.afterF (coreKey c) f.d.toNat r
      { z := some (decide (r = 0)), n := some r.msb, v := some false }) := by
  have hw : wdI (a - b * a.tdiv b) = r := wdI_eq (hr.trans (Int.tmod_def ..))
  show execRem c f s = _
  unfold execRem
  refine runInstr_R_putRes (by decide) h (by simp [hf]) ?_
  simp only [s36, ha, hb, if_neg h0, hw, znOf_eq]

theorem rem_zero_completes (h0 : b = 0) (hdzt : flag (s.core (coreKey c)).fl 7 = false) (hr : r.toInt = a) :
    Completes (.rem c f) c s (s.afterF (coreKey c) f.d.toNat r
      { z := some (decide (r = 0)), n := some r.msb, v := some true, sat := true }) := by
  show execRem c f s = _
  unfold execRem
  refine runInstr_R_putRes (by decide) h (by simp [hf]) ?_
  simp only [s36, ha, hb, if_pos h0, hdzt, Bool.false_eq_true, if_false, wdI_eq hr, znOf_eq]

/-- CLAMP: where the bounds cross, the lower one wins. -/
theorem clamp_completes (hd : (s.g (coreKey c) f.d.toNat).toInt = d)
    (hr : r.toInt = if d < a then a else if b < a then a else if b < d then b else d) :
    Completes (.clamp c f) c s (s.afterF (coreKey c) f.d.toNat r
      { z := some (decide (r = 0)), n := some r.msb, sat := decide (r.toInt ≠ d) }) := by
  have hres : (if b < a then s.g (coreKey c) f.a.toNat else if d < a then s.g (coreKey c) f.a.toNat
      else if b < d then s.g (coreKey c) f.b.toNat else s.g (coreKey c) f.d.toNat) = r := by
    apply BitVec.eq_of_toInt_eq
    rw [hr, ← hd, ← ha, ← hb]
    split_ifs <;> rfl
  have hne : (r != s.g (coreKey c) f.d.toNat) = decide (r.toInt ≠ d) := by
    rw [Bool.eq_iff_iff, bne_iff_ne, decide_eq_true_iff, ← hd]
    exact BitVec.toInt_inj.symm.not
  show execClamp c f s = _
  unfold execClamp
  refine runInstr_R_putRes (by decide) h (by simp [hf]) ?_
  simp only [s36, hd, ha, hb, hres, hne, znOf_eq]

end

/-- NEG of the smallest value saturates. -/
theorem neg_completes (hr : r.toInt = min (2 ^ 35 - 1) (-a)) :
    Completes (.neg c f) c s (s.afterF (coreKey c) f.d.toNat r
      { z := some (decide (r = 0)), n := some r.msb, v := some (decide (a = -2 ^ 35)), sat := decide (a = -2 ^ 35) }) := by
  have hbounds := toInt_bounds (s.g (coreKey c) f.a.toNat)
  obtain ⟨hw, hne⟩ := wdI_satS36 (by omega) hr
  have hmin : (r.toInt ≠ -a) = (a = -2 ^ 35) := by rw [hr, min_ne_iff (by omega), neg_eq_iff_eq_neg]
  show execNeg c f s = _
  unfold execNeg
  refine runInstr_R_putRes (by decide) h (by simp [hf]) ?_
  simp only [s36, ha, hw, hne, hmin, znOf_eq]

/-- ABS of the smallest value saturates. -/
theorem abs_completes (hr : r.toInt = min (2 ^ 35 - 1) |a|) :
    Completes (.abs c f) c s (s.afterF (coreKey c) f.d.toNat r
      { z := some (decide (r = 0)), n := some r.msb, v := some (decide (a = -2 ^ 35)), sat := decide (a = -2 ^ 35) }) := by
  have hbounds := toInt_bounds (s.g (coreKey c) f.a.toNat)
  have habs : (if a < 0 then -a else a) = |a| := by
    split
    next hneg => exact (abs_of_neg hneg).symm
    next hpos => exact (abs_of_nonneg (not_lt.1 hpos)).symm
  obtain ⟨hw, hne⟩ := wdI_satS36 (by have := abs_nonneg a; omega) hr
  have hmin : (r.toInt ≠ |a|) = (a = -2 ^ 35) := by
    rw [hr, min_ne_iff (abs_le.2 (by omega)), eq_iff_iff, abs_eq (by norm_num)]
    omega
  show execAbs c f s = _
  unfold execAbs
  refine runInstr_R_putRes (by decide) h (by simp [hf]) ?_
  simp only [s36, ha, habs, hw, hne, hmin, znOf_eq]

end

/-- Settles O8: each instruction's result is the word that stands for the exact quotient, remainder or magnitude, clamped to S36. -/
theorem divideNegateClamp : Obligations.DivideNegateClamp := by
  unfold Obligations.DivideNegateClamp
  intro c f s h hf k a b d dzt
  exact ⟨fun r h0 hr => div_completes h hf rfl rfl h0 hr, fun r h0 hdzt hr => div_zero_completes h hf rfl rfl h0 hdzt hr,
    fun r h0 hr => rem_completes h hf rfl rfl h0 hr, fun r h0 hdzt hr => rem_zero_completes h hf rfl rfl h0 hdzt hr,
    fun r hr => neg_completes h hf rfl hr, fun r hr => abs_completes h hf rfl hr,
    fun r hr => clamp_completes h hf rfl rfl rfl hr⟩

end Sys2Proof.Machine
end

section
/-! The obligation of LDI, LDH, LEA and the MOV forms: immediates and shifted accumulators as words, then each instruction (R105, R112,
R152, R154). -/

namespace Sys2Proof.Machine

/-! ### Values -/

/-- A sign-extended field is the word of its integer. -/
theorem signExtend_eq_ofInt {n : Nat} (v : BitVec n) : v.signExtend 36 = BitVec.ofInt 36 v.toInt := by
  rw [BitVec.signExtend]

theorem signExtend_eq {v : BitVec 20} {r : Word} (h : r.toInt = v.toInt) : v.signExtend 36 = r := by
  rw [signExtend_eq_ofInt, ← h, BitVec.ofInt_toInt]

/-- The base value of a memory format, by its code (R112). -/
theorem baseOf_eq (s : State) (k : Nat) (b : BitVec 4) : s.baseOf k b.toNat =
    ((List.range 12).map (fun i => Tab.get 0 (s.core k).g i) ++ [(s.core k).ib, (s.core k).sb, (s.core k).sp, (s.core k).pc]).getD b.toNat 0 := by
  have hb := b.isLt
  unfold State.baseOf
  generalize b.toNat = n at *
  interval_cases n <;> rfl

/-- The special registers in the order of R105. -/
theorem special_eq (s : State) (k : Nat) {n : Nat} (h : n < 9) : s.special k n =
    [(s.core k).pc, (s.core k).ib, (s.core k).sb, (s.core k).sp, (s.core k).fl, tidOf k (s.core k).task, (s.core k).errc,
      dhi (s.core k).acc, dlo (s.core k).acc].getD n 0 := by
  interval_cases n <;> rfl

/-- ACC after MOV form 4: the product lies within 72 bits. -/
theorem dwI_eq {x : Int} {q : DWord} (h : q.toInt = x) : dwI x = q := by
  rw [dwI, ← h, BitVec.ofInt_toInt]

/-- The word whose upper sixteen bits are imm16 (R152). -/
theorem setFld_upper {d r : Word} {v : BitVec 16} (h : ∀ i < 36, r.getLsbD i = if i < 20 then d.getLsbD i else v.getLsbD (i - 20)) :
    setFld d 35 20 v.toNat = r := by
  apply BitVec.eq_of_getLsbD_eq
  intro i hi
  have hbit := bit_setFld d 35 20 v.toNat i
  simp only [bit] at hbit
  rw [hbit, h i hi]
  by_cases h20 : i < 20
  · rw [if_neg (by omega), if_pos h20]
  · rw [if_pos (by omega), if_neg h20, decide_eq_true hi, Bool.true_and]
    rfl

/-! ### Instructions -/

section
variable {c : CoreId} {s : State} (h : coreReady c s = true)
include h

theorem ldi_completes {f : IF} (ha : f.a = 0) {r : Word} (hr : r.toInt = f.imm.toInt) :
    Completes (.ldi c f) c s (s.afterR (coreKey c) f.d.toNat r) := by
  show execLdi c f s = _
  unfold execLdi
  exact runInstr_core { s.core (coreKey c) with g := Tab.put 0 (s.core (coreKey c)).g f.d.toNat r } h (by simp [ha])
    (.inl (encI_inTile (by decide) ..)) (by rw [signExtend_eq hr, setG_eq]) rfl

theorem lea_completes (f : MF) : Completes (.lea c f) c s (s.afterR (coreKey c) f.d.toNat (s.ea (coreKey c) f)) := by
  show execLea c f s = _
  unfold execLea
  exact runInstr_core { s.core (coreKey c) with g := Tab.put 0 (s.core (coreKey c)).g f.d.toNat (s.ea (coreKey c) f) } h rfl
    (.inl (encM_inTile (by decide) (by decide) (by decide) ..)) rfl rfl

section
variable {f : RF}

theorem ldh_completes (ha : f.a = 0) (hb : f.b = 0) {r : Word}
    (hr : ∀ i < 36, r.getLsbD i = if i < 20 then (s.g (coreKey c) f.d.toNat).getLsbD i else f.fn.getLsbD (i - 20)) :
    Completes (.ldh c f) c s (s.afterR (coreKey c) f.d.toNat r) := by
  show execLdh c f s = _
  unfold execLdh
  exact runInstr_R_setG (by decide) h (by simp [ha, hb]) (by rw [setFld_upper hr])

theorem mov_completes (hfn : f.fn = 0) : Completes (.mov c f) c s (s.afterR (coreKey c) f.d.toNat (s.g (coreKey c) f.a.toNat)) := by
  show execMov c f s = _
  unfold execMov
  exact runInstr_R_setG (by decide) h (by simp [hfn]) rfl

theorem movFromSpecial_completes (hfn : f.fn = 0x1000) (ha : f.a.toNat < 9) :
    Completes (.movFromSpecial c f) c s (s.afterR (coreKey c) f.d.toNat (s.special (coreKey c) f.a.toNat)) := by
  show execMovFromSpecial c f s = _
  unfold execMovFromSpecial
  exact runInstr_R_setG (by decide) h (by simp [hfn]; omega) rfl

/-- MOV form 2 leaves the core as setSpecial leaves it, but for the pc. -/
theorem movToSpecial_completes {x : Core} (hfn : f.fn = 0x2000) (hd : f.d.toNat < 9 ∧ f.d ≠ 0 ∧ f.d ≠ 5)
    (hx : s.setSpecial (coreKey c) f.d.toNat (s.g (coreKey c) f.a.toNat) = s.setCore (coreKey c) x)
    (htask : x.task = (s.core (coreKey c)).task) :
    Completes (.movToSpecial c f) c s { x with pc := (s.core (coreKey c)).pc + 1 } := by
  obtain ⟨h9, h0, h5⟩ := hd
  show execMovToSpecial c f s = _
  unfold execMovToSpecial
  exact runInstr_R_core (by decide) x h (by simpa [hfn, h9] using And.intro h0 h5) (by rw [hx]) htask

/-- MOV form 3: ACC shifted, rounded and saturated, and S where it saturates. -/
theorem movFromAcc_completes {p : Int} (hfn : f.fn.toNat / 64 = 3 * 64) (hp : rshRound (s.core (coreKey c)).acc.toInt (f.fn.toNat % 64) = p)
    {r : Word} (hr : r.toInt = max (-2 ^ 35) (min (2 ^ 35 - 1) p)) :
    Completes (.movFromAcc c f) c s (s.afterF (coreKey c) f.d.toNat r { sat := decide (r.toInt ≠ p) }) := by
  have hne : (p != r.toInt) = decide (r.toInt ≠ p) := by rw [Bool.eq_iff_iff, bne_iff_ne, decide_eq_true_iff, ne_comm]
  show execMovFromAcc c f s = _
  unfold execMovFromAcc
  refine runInstr_R_putRes (by decide) h (by simp; omega) ?_
  simp only [hp, satS36_eq hr, wdI_eq rfl, hne]
  rfl

theorem movToAcc_completes (hfn : f.fn.toNat / 64 = 4 * 64) (hsh : f.fn.toNat % 64 ≤ 35) {q : DWord}
    (hq : q.toInt = (s.g (coreKey c) f.a.toNat).toInt * 2 ^ (f.fn.toNat % 64)) :
    Completes (.movToAcc c f) c s { s.afterI (coreKey c) with acc := q } := by
  show execMovToAcc c f s = _
  unfold execMovToAcc
  exact runInstr_R_core (by decide) { s.core (coreKey c) with acc := q } h (by simp; omega) (by rw [s36, dwI_eq hq]) rfl

end

end

/-- Settles O11: each instruction leaves its core with one register written, which `baseOf_eq`, `special_eq` and the words of
immediates name. -/
theorem movesWithinCore : Obligations.MovesWithinCore := by
  unfold Obligations.MovesWithinCore
  refine ⟨fun c f s r h ha hr => ldi_completes h ha hr, fun c f s h => ?_, fun c f s r h => ?_⟩
  · intro x base
    have hea : s.ea (coreKey c) f = base + BitVec.ofInt 36 f.off.toInt := by rw [State.ea, baseOf_eq, signExtend_eq_ofInt]
    rw [← hea]
    exact lea_completes h f
  · intro k x d a sh p
    refine ⟨fun ha hb hr => ldh_completes h ha hb hr, mov_completes h, fun hfn ha => ?_, fun hfn => ?_,
      fun hfn hr => movFromAcc_completes h hfn rfl hr, fun q hfn hsh hq => movToAcc_completes h hfn hsh hq⟩
    · rw [← special_eq s k ha]
      exact movFromSpecial_completes h hfn ha
    · intro y
      refine ⟨fun hd => ?_, fun hd => ?_, fun hd => ?_, fun hd => ?_, fun hd => ?_, fun hd => ?_, fun hd => ?_⟩
      · exact movToSpecial_completes h (x := { x with ib := a }) hfn (by simp [hd]) (by simp only [hd]; rfl) rfl
      · exact movToSpecial_completes h (x := { x with sb := a }) hfn (by simp [hd]) (by simp only [hd]; rfl) rfl
      · exact movToSpecial_completes h (x := { x with sp := a }) hfn (by simp [hd]) (by simp only [hd]; rfl) rfl
      · exact movToSpecial_completes h (x := { x with fl := a &&& 0xBF }) hfn (by simp [hd]) (by simp only [hd]; rfl) rfl
      · exact movToSpecial_completes h (x := { x with errc := a &&& 0xFFFF }) hfn (by simp [hd]) (by simp only [hd]; rfl) rfl
      · exact movToSpecial_completes h (x := { x with acc := dword (dlo x.acc) a }) hfn (by simp [hd]) (by simp only [hd]; rfl) rfl
      · exact movToSpecial_completes h (x := { x with acc := dword a (dhi x.acc) }) hfn (by simp [hd]) (by simp only [hd]; rfl) rfl

end Sys2Proof.Machine
end

section
/-! The obligation of the access rule: what a task's access finds, and the faults that come before an instruction has any effect (R106,
R114, R116, R124, R198). -/

namespace Sys2Proof.Machine

/-! ### What a task may access -/

/-- Window i of a task's descriptor, in integers (R198). -/
theorem windowOk_iff (d : List Word) (wr : Bool) (a i : Nat) : windowOk d wr a i = true ↔
    (d.getD (8 + 2 * i) 0).toNat ≤ a ∧ a < (d.getD (8 + 2 * i) 0).toNat + (d.getD (9 + 2 * i) 0).toNat % 2 ^ 32 ∧
      (wr = true → (d.getD (9 + 2 * i) 0).getLsbD 35 = true) := by
  have hfld : fld (d.getD (9 + 2 * i) 0) 31 0 = (d.getD (9 + 2 * i) 0).toNat % 2 ^ 32 := by simp only [fld, fldN]; omega
  unfold windowOk
  extract_lets base w
  rw [hfld]
  cases wr <;> simp [bit, base, w, and_assoc]

theorem inRegs_iff (a : Nat) : inRegs a = true ↔ 0x100000 ≤ a ∧ a < 0x200000 := by
  simp only [inRegs, Bool.and_eq_true, decide_eq_true_eq]
  rfl

theorem targetOf_isSome {a : Nat} (h : (targetOf a).isSome = true) : 0x1000000 ≤ a := by
  obtain ⟨t, ht⟩ := Option.isSome_iff_exists.1 h
  exact (targetOf_range ht).1

/-- What an access of a task on a tile finds, by where the address lies (R114, R116). -/
theorem access_task {s : State} {k n : Nat} (wr regs : Bool) (a : Nat) (hk : k < 64) (hn : (s.core k).task = some n) :
    s.access k wr regs a =
      if a < 0x10000 then (if wr && a < 0xE000 then .fault else .ok)
      else if inRegs a then (if regs && !wr && regMapped (a - Config.sysBase) then .ok else .fault)
      else if (targetOf a).isSome && (List.range 4).any (windowOk (s.task n).desc wr a) then .ok else .fault := by
  unfold State.access
  rw [if_pos hk, hn]
  simp [show List.range 4 = [0, 1, 2, 3] from rfl, Bool.or_assoc]

theorem access_task_ok {s : State} {k n : Nat} (wr regs : Bool) (a : Nat) (hk : k < 64) (hn : (s.core k).task = some n) :
    s.access k wr regs a = .ok ↔
      (a < 0x10000 ∧ (wr = true → 0xE000 ≤ a)) ∨
      (0x100000 ≤ a ∧ a < 0x200000 ∧ regs = true ∧ wr = false ∧ regMapped (a - 0x100000) = true) ∨
      ((targetOf a).isSome = true ∧ ∃ i < 4, windowOk (s.task n).desc wr a i = true) := by
  have htarget := targetOf_isSome (a := a)
  rw [access_task wr regs a hk hn]
  by_cases hloc : a < 0x10000
  · have hout : ¬(targetOf a).isSome = true := fun h => by have := htarget h; omega
    rw [if_pos hloc]
    simp only [hout, hloc, false_and, true_and, show ¬0x100000 ≤ a by omega]
    cases wr <;> simp
  · rw [if_neg hloc]
    by_cases hreg : inRegs a = true
    · have hrange := (inRegs_iff a).1 hreg
      have hout : ¬(targetOf a).isSome = true := fun h => by have := htarget h; omega
      rw [if_pos hreg]
      simp only [hout, hloc, false_and, false_or, hrange, true_and, show Config.sysBase = 0x100000 from rfl]
      cases wr <;> simp
    · have hrange : ¬(0x100000 ≤ a ∧ a < 0x200000) := fun h => hreg ((inRegs_iff a).2 h)
      rw [if_neg hreg]
      have hnone : ¬(0x100000 ≤ a ∧ a < 0x200000 ∧ regs = true ∧ wr = false ∧ regMapped (a - 0x100000) = true) :=
        fun h => hrange ⟨h.1, h.2.1⟩
      simp [hloc, hnone]

/-! ### Faults of an instruction's body -/

/-- A load whose access is forbidden is no request that twins share. -/
theorem encM_fault_inTile {s : State} {k op n : Nat} {f : MF} (hop : op = 1 ∧ n = 1 ∨ op = 3 ∧ n = 2)
    (ha : s.accessN k false true (s.ea k f) n = .fault) :
    (leavesTile (encM op f) || s.loadsRegs k (encM op f)) = false := by
  have hw := fld_encM (op := op) (by omega) f
  rcases hop with ⟨rfl, rfl⟩ | ⟨rfl, rfl⟩ <;> simp [leavesTile, State.loadsRegs, hw, eaOf_encM, ha]

theorem consume_fault {s : State} {k n : Nat} {a : Word} (ha : s.accessN k false true a n = .fault) (f : List Word → State → Res) :
    consume s k true a n f = .flt 0x08 a s := by rw [consume, ha]

theorem emit_fault {s : State} {k : Nat} {a : Word} {ws : List Word} (ha : s.accessN k true false a ws.length = .fault) (f : State → Res) :
    emit s k a ws f = .flt 0x08 a s := by rw [emit, ha]

section
variable {c : CoreId} {s : State} (h : coreReady c s = true)
include h

/-- A fault that an instruction's body finds before it has changed anything. -/
theorem runInstr_fault {w : Word} {bad : Bool} {body : Nat → State → Res} {code : Nat} {a : Word} (hb : bad = false)
    (ht : (leavesTile w || s.loadsRegs (coreKey c) w) = false ∨ s.twinRole (coreKey c) = none)
    (he : body (coreKey c) s = .flt code a s) : runInstr c w bad body s = .next (s.takeFault (coreKey c) code a w) := by
  rw [runInstr_ready h hb ht, he]
  rfl

/-! ### Memory instructions -/

section
variable {f : MF}

theorem ld_faults (ha : s.accessN (coreKey c) false true (s.ea (coreKey c) f) 1 = .fault) :
    Faults (.ld c f) c (encM 0x01 f) s 0x08 (s.ea (coreKey c) f) := by
  show execLd c f s = _
  unfold execLd
  exact runInstr_fault h rfl (.inl (encM_fault_inTile (.inl ⟨rfl, rfl⟩) ha)) (consume_fault ha _)

theorem ldd_faults (hd : f.d.toNat % 2 = 0) (ha : s.accessN (coreKey c) false true (s.ea (coreKey c) f) 2 = .fault) :
    Faults (.ldd c f) c (encM 0x03 f) s 0x08 (s.ea (coreKey c) f) := by
  show execLdd c f s = _
  unfold execLdd
  exact runInstr_fault h (by simp [hd]) (.inl (encM_fault_inTile (.inr ⟨rfl, rfl⟩) ha)) (consume_fault ha _)

theorem ldd_odd_faults (hd : f.d.toNat % 2 = 1) : Faults (.ldd c f) c (encM 0x03 f) s 0x06 0 := by
  show execLdd c f s = _
  unfold execLdd
  exact runInstr_bad h (by simp [hd])

theorem st_faults (ha : s.accessN (coreKey c) true false (s.ea (coreKey c) f) 1 = .fault) :
    Faults (.st c f) c (encM 0x02 f) s 0x08 (s.ea (coreKey c) f) := by
  show execSt c f s = _
  unfold execSt
  exact runInstr_fault h rfl (.inl (encM_inTile (by decide) (by decide) (by decide) ..)) (emit_fault ha _)

theorem std_faults (hd : f.d.toNat % 2 = 0) (ha : s.accessN (coreKey c) true false (s.ea (coreKey c) f) 2 = .fault) :
    Faults (.std c f) c (encM 0x04 f) s 0x08 (s.ea (coreKey c) f) := by
  show execStd c f s = _
  unfold execStd
  exact runInstr_fault h (by simp [hd]) (.inl (encM_inTile (by decide) (by decide) (by decide) ..)) (emit_fault ha _)

theorem stl_faults (hd : f.d = 0 ∨ f.d = 8) (ha : (s.ea (coreKey c) f).toNat % 8 ≠ 0) :
    Faults (.stl c f) c (encM 0x0C f) s 0x08 (s.ea (coreKey c) f) := by
  have hbad : (f.d != 0 && f.d != 8) = false := by rcases hd with hd | hd <;> simp [hd]
  show execStl c f s = _
  unfold execStl
  exact runInstr_fault h hbad (.inl (encM_inTile (by decide) (by decide) (by decide) ..)) (if_pos (by simpa using ha))

end

/-! ### The stack, and zero divisors -/

section
variable {f : RF}

theorem push_faults (ha : f.a = 0) (hb : f.b = 0) (hfn : f.fn = 0)
    (hsp : s.spOk (coreKey c) ((s.core (coreKey c)).sp - 1).toNat = false) : Faults (.push c f) c (encR 0x09 f) s 0x04 0 := by
  show execPush c f s = _
  unfold execPush
  exact runInstr_fault h (by simp [ha, hb, hfn]) (.inl (encR_inTile (by decide) (by decide) (by decide) ..)) (if_pos (by rw [hsp]; rfl))

theorem pop_faults (ha : f.a = 0) (hb : f.b = 0) (hfn : f.fn = 0)
    (hsp : s.spOk (coreKey c) ((s.core (coreKey c)).sp + 1).toNat = false) : Faults (.pop c f) c (encR 0x0A f) s 0x04 0 := by
  show execPop c f s = _
  unfold execPop
  exact runInstr_fault h (by simp [ha, hb, hfn]) (.inl (encR_inTile (by decide) (by decide) (by decide) ..)) (if_pos (by rw [hsp]; rfl))

section
variable (hfn : f.fn = 0) (hb : s.g (coreKey c) f.b.toNat = 0) (hdzt : flag (s.core (coreKey c)).fl 7 = true)
include hfn hb hdzt

theorem div_traps : Faults (.div c f) c (encR 0x1B f) s 0x01 0 := by
  show execDiv c f s = _
  unfold execDiv
  exact runInstr_fault h (by simp [hfn]) (.inl (encR_inTile (by decide) (by decide) (by decide) ..)) (by simp [hb, s36, hdzt])

theorem rem_traps : Faults (.rem c f) c (encR 0x1C f) s 0x01 0 := by
  show execRem c f s = _
  unfold execRem
  exact runInstr_fault h (by simp [hfn]) (.inl (encR_inTile (by decide) (by decide) (by decide) ..)) (by simp [hb, s36, hdzt])

end

/-- A function field that must be zero and is not (R149). -/
theorem mul_field_faults (hfn : f.fn ≠ 0) : Faults (.mul c f) c (encR 0x18 f) s 0x06 0 := by
  show execMul c f s = _
  unfold execMul
  exact runInstr_bad h (by simpa using hfn)

theorem fadd_field_faults (hfn : f.fn ≠ 0) : Faults (.fadd c f) c (encR 0x48 f) s 0x06 0 := by
  show execFadd c f s = _
  unfold execFadd fpOp
  exact runInstr_bad h (by simpa using hfn)

end

end

/-- Settles O13: the regions of `access_task_ok`, and each fault found by the instruction's body before it changes anything. -/
theorem accessRuleAndFaults : Obligations.AccessRuleAndFaults := by
  unfold Obligations.AccessRuleAndFaults
  refine ⟨fun s k n a wr regs hk hn => ?_, fun c f s h => ?_, fun c f s h => ?_⟩
  · rw [access_task_ok wr regs a hk hn]
    simp only [windowOk_iff]
  · intro k a
    exact ⟨ld_faults h, st_faults h, ldd_faults h, std_faults h, ldd_odd_faults h, stl_faults h⟩
  · intro k
    exact ⟨push_faults h, pop_faults h, fun hfn hb hdzt => ⟨div_traps h hfn hb hdzt, rem_traps h hfn hb hdzt⟩,
      fun hfn => ⟨mul_field_faults h hfn, fadd_field_faults h hfn⟩⟩

end Sys2Proof.Machine
end

section
/-! SUPPORT. Instructions that jump, and a core with nothing of its own on the spine (R113, R115, R165). -/

namespace Sys2Proof.Machine

theorem drainWhere_none {p : SpineReq → Bool} {s : State} (h : s.spine.waiting.find? p = none) (fuel : Nat) :
    State.drainWhere p fuel s = s := by
  cases fuel with
  | zero => rfl
  | succ n => rw [State.drainWhere, h]

/-- No transaction is to complete: nothing is served. -/
theorem settle_nil (s : State) : s.settle [] = s := by
  have hw : s.spine.waiting.find? (fun r => noLater [] r.port r.target r.seq) = none := by simp [noLater]
  have ha : s.spine.acked.filter (fun a => noLater [] a.port a.target a.seq) = [] := by simp [noLater]
  rw [State.settle, drainWhere_none hw, State.collect, ha]
  rfl

/-- A core of which nothing is on the spine waits for nothing (R165). -/
theorem fence_idle {s : State} {k : Nat} (h : s.outstanding k = 0) : s.fence k = s := by
  unfold State.outstanding at h
  have hw : s.spine.waiting.filter (fun r => r.core = k) = [] := List.length_eq_zero_iff.1 (by omega)
  have ha : s.spine.acked.filter (fun a => a.core = k) = [] := List.length_eq_zero_iff.1 (by omega)
  have hof : s.spine.ofCore k = [] := by rw [Spine.ofCore, hw, ha]; rfl
  rw [State.fence, hof, settle_nil]

/-- A read of one clean word. -/
theorem readIn_clean_one {s : State} {k a : Nat} (h : s.wordClean k a = true) : s.readIn k a 1 = ([s.wordAt k a], false, s) :=
  readIn_clean (by decide) (by omega) fun i hi => by rwa [show i = 0 by omega]

section
variable {c : CoreId} {w : Word} {bad : Bool} {body : Nat → State → Res} {s : State} (h : coreReady c s = true) (hb : bad = false)
  (ht : (leavesTile w || s.loadsRegs (coreKey c) w) = false)
include h hb ht

/-- An instruction that changes nothing and goes on. -/
theorem runInstr_next (he : body (coreKey c) s = .next s) :
    runInstr c w bad body s = .next (s.instrEnd (coreKey c) (s.afterI (coreKey c))) := by
  rw [runInstr_ready h hb (.inl ht), he, finishInstr]
  exact congrArg _ (advance_ready h _ rfl rfl rfl)

/-- An instruction that changes nothing and jumps. -/
theorem runInstr_goes {a : Word} (he : body (coreKey c) s = .jump a s) :
    runInstr c w bad body s = .next (s.instrEnd (coreKey c) { s.core (coreKey c) with pc := a }) := by
  rw [runInstr_ready h hb (.inl ht), he, finishInstr]
  exact congrArg _ (advance_ready h _ rfl rfl rfl)

/-- An instruction that stores words and jumps, with its core changed to x, but for the pc. -/
theorem runInstr_wrote_jump {t : State} {a : Nat} {ws : List Word} {pc : Word} (x : Core)
    (he : body (coreKey c) s = .jump pc (t.setCore (coreKey c) x)) (hx : x.task = (s.core (coreKey c)).task)
    (hw : Wrote s t (coreKey c) a ws) :
    ∃ u, runInstr c w bad body s = .next u ∧ Stored s u (coreKey c) { x with pc := pc } a ws := by
  refine ⟨_, (runInstr_ready h hb (.inl ht)).trans (by rw [he, finishInstr]), ?_⟩
  have hend : ∀ y, (t.setCore (coreKey c) x).instrEnd (coreKey c) y = t.instrEnd (coreKey c) y := fun y => by
    simp only [State.instrEnd, State.setCore, Tab.put_put]
  rw [advance_ready h _ (by rw [core_setCore, hx]) (by rw [hw.rest]; rfl) (by rw [hw.rest]; rfl), core_setCore, hend]
  exact hw.stored _

end

end Sys2Proof.Machine
end

section
/-! The obligation of jumps, calls and returns (R113, R115, R126, R130, R162 - R165). -/

namespace Sys2Proof.Machine

theorem jumpTo_eq (s : State) (k : Nat) (f : JF) : s.jumpTo k f = (s.core k).pc + BitVec.ofInt 36 f.off.toInt := by
  rw [State.jumpTo, signExtend_eq_ofInt]

theorem goTo_inside {s : State} {k : Nat} {t : Word} (h : inCode k t.toNat = true) : goTo s k t = .jump t s := if_pos h

theorem goTo_outside {s : State} {k : Nat} {t : Word} (h : inCode k t.toNat = false) : goTo s k t = .flt 0x08 t s :=
  if_neg (by rw [h]; decide)

theorem cond_ne_of_holds {fl : Word} {v : BitVec 4} {b : Bool} (h : condHolds fl v.toNat = some b) : v ≠ 0xF := by
  rintro rfl
  cases h

section
variable {c : CoreId} {s : State} (h : coreReady c s = true)
include h

/-! ### Jumps -/

section
variable {f : JF}

theorem j_completes (hc : f.cond = 0) (hin : inCode (coreKey c) (s.jumpTo (coreKey c) f).toNat = true) :
    Completes (.j c f) c s { s.core (coreKey c) with pc := s.jumpTo (coreKey c) f } := by
  show execJ c f s = _
  unfold execJ
  exact runInstr_goes h (by simp [hc]) (encJ_inTile (by decide) ..) (goTo_inside hin)

theorem j_faults (hc : f.cond = 0) (hin : inCode (coreKey c) (s.jumpTo (coreKey c) f).toNat = false) :
    Faults (.j c f) c (encJ 0x58 f) s 0x08 (s.jumpTo (coreKey c) f) := by
  show execJ c f s = _
  unfold execJ
  exact runInstr_fault h (by simp [hc]) (.inl (encJ_inTile (by decide) ..)) (goTo_outside hin)

theorem jc_jumps (hc : condHolds (s.core (coreKey c)).fl f.cond.toNat = some true)
    (hin : inCode (coreKey c) (s.jumpTo (coreKey c) f).toNat = true) :
    Completes (.jc c f) c s { s.core (coreKey c) with pc := s.jumpTo (coreKey c) f } := by
  show execJc c f s = _
  unfold execJc
  exact runInstr_goes h (by simpa using cond_ne_of_holds hc) (encJ_inTile (by decide) ..) ((if_pos hc).trans (goTo_inside hin))

theorem jc_passes (hc : condHolds (s.core (coreKey c)).fl f.cond.toNat = some false) :
    Completes (.jc c f) c s (s.afterI (coreKey c)) := by
  show execJc c f s = _
  unfold execJc
  exact runInstr_next h (by simpa using cond_ne_of_holds hc) (encJ_inTile (by decide) ..) (if_neg (by simp [hc]))

end

section
variable {f : IF} {v t : Word} (ha : f.a = 0) (hv : s.g (coreKey c) f.d.toNat - 1 = v)
include ha hv

theorem loop_ends (h0 : v = 0) : Completes (.loop c f) c s (s.afterR (coreKey c) f.d.toNat v) := by
  show execLoop c f s = _
  unfold execLoop
  exact runInstr_core { s.core (coreKey c) with g := Tab.put 0 (s.core (coreKey c)).g f.d.toNat v } h (by simp [ha])
    (.inl (encI_inTile (by decide) ..)) (by simp only [hv, if_pos h0, setG_eq]) rfl

theorem loop_jumps (ht : (s.core (coreKey c)).pc + f.imm.signExtend 36 = t) (h0 : v ≠ 0) (hin : inCode (coreKey c) t.toNat = true) :
    Completes (.loop c f) c s { s.afterR (coreKey c) f.d.toNat v with pc := t } := by
  show execLoop c f s = _
  unfold execLoop
  exact runInstr_jump { s.core (coreKey c) with g := Tab.put 0 (s.core (coreKey c)).g f.d.toNat v } t h (by simp [ha])
    (.inl (encI_inTile (by decide) ..)) (by simp only [hv, ht, if_neg h0, if_pos hin, setG_eq]) rfl

end

/-! ### Returns, and instructions that only go on -/

section
variable {f : RF} (hd : f.d = 0) (ha : f.a = 0) (hb : f.b = 0)
include hd ha hb

section
variable (hfn : f.fn = 0)
include hfn

theorem ret_completes {x : Core} (hx : s.core (coreKey c) = x) (hsp : s.spOk (coreKey c) (x.sp + 1).toNat = true)
    (hr : s.mayReach (coreKey c) false x.sp 1 = true) (hin : inCode (coreKey c) (s.wordAt (coreKey c) x.sp.toNat).toNat = true) :
    Completes (.ret c f) c s { x with pc := s.wordAt (coreKey c) x.sp.toNat, sp := x.sp + 1 } := by
  subst hx
  show execRet c f s = _
  unfold execRet
  refine runInstr_jump { s.core (coreKey c) with sp := (s.core (coreKey c)).sp + 1 } _ h (by simp [hd, ha, hb, hfn])
    (.inl (encR_inTile (by decide) (by decide) (by decide) ..)) ?_ rfl
  simp only [hsp, Bool.not_true, Bool.false_eq_true, if_false]
  rw [consume_reach (by decide) hr]
  exact if_pos hin

theorem retfb_completes {x : Core} (hx : s.core (coreKey c) = x) (hsp : s.spOk (coreKey c) (x.sp + 2).toNat = true)
    (hr : s.mayReach (coreKey c) false x.sp 2 = true)
    (hin : inCode (coreKey c) (s.wordAt (coreKey c) (x.sp + 1).toNat).toNat = true) :
    Completes (.retfb c f) c s { x with
      pc := s.wordAt (coreKey c) (x.sp + 1).toNat, sp := x.sp + 2, ib := s.wordAt (coreKey c) x.sp.toNat } := by
  subst hx
  have hw := mayReach_words (by decide) hr
  have hc0 : s.wordClean (coreKey c) (s.core (coreKey c)).sp.toNat = true := (hw 0 (by decide)).2.2
  obtain ⟨hnext, -, hc1⟩ := hw 1 (by decide)
  have hnext : ((s.core (coreKey c)).sp + 1).toNat = (s.core (coreKey c)).sp.toNat + 1 := hnext
  have hok : s.accessN (coreKey c) false true (s.core (coreKey c)).sp 2 = .ok := accessN_ok fun i hi => by
    rw [(hw i hi).1]
    exact (hw i hi).2.1
  rw [hnext] at hin ⊢
  show execRetfb c f s = _
  unfold execRetfb
  refine runInstr_jump { s.core (coreKey c) with
    sp := (s.core (coreKey c)).sp + 2, ib := s.wordAt (coreKey c) (s.core (coreKey c)).sp.toNat } _ h (by simp [hd, ha, hb, hfn])
    (.inl (encR_inTile (by decide) (by decide) (by decide) ..)) ?_ rfl
  simp only [hsp, hok, hnext, readIn_clean_one hc0, readIn_clean_one hc1, List.getD_cons_zero, hin,
    bne_self_eq_false, Bool.not_true, Bool.and_false,
    Bool.or_self, Bool.false_eq_true, if_false]

theorem nop_completes : Completes (.nop c f) c s (s.afterI (coreKey c)) := by
  show execNop c f s = _
  unfold execNop
  exact runInstr_next h (by simp [hd, ha, hb, hfn]) (encR_inTile (by decide) (by decide) (by decide) ..) rfl

theorem fence_completes (ho : s.outstanding (coreKey c) = 0) : Completes (.fence c f) c s (s.afterI (coreKey c)) := by
  show execFence c f s = _
  unfold execFence
  exact runInstr_next h (by simp [hd, ha, hb, hfn]) (encR_inTile (by decide) (by decide) (by decide) ..) (by rw [fence_idle ho])

end

/-- TRAP where it does not suspend is a NOP (R164). -/
theorem trap_passes (hrun : ∀ n, (s.core (coreKey c)).task = some n →
      (s.mode ≠ 3 ∧ s.mode ≠ 11) ∨ (s.task n).trapen = false ∨ (s.task n).stopping = true) :
    Completes (.trap c f) c s (s.afterI (coreKey c)) := by
  show execTrap c f s = _
  unfold execTrap
  refine runInstr_next h (by simp [hd, ha, hb]) (encR_inTile (by decide) (by decide) (by decide) ..) ?_
  cases hn : (s.core (coreKey c)).task with
  | none => rfl
  | some n =>
    refine if_neg ?_
    rcases hrun n hn with ⟨h3, h11⟩ | htrap | hstop
    · simp [h3, h11]
    · simp [htrap]
    · simp [hstop]

end

/-! ### Calls -/

theorem call_stores {f : JF} {x : Core} (hc : f.cond = 0) (hx : s.core (coreKey c) = x)
    (hin : inCode (coreKey c) (s.jumpTo (coreKey c) f).toNat = true) (hsp : s.spOk (coreKey c) (x.sp - 1).toNat = true)
    (hr : s.mayReach (coreKey c) true (x.sp - 1) 1 = true) : ∃ u, exec (.call c f) s = .next u ∧
      Stored s u (coreKey c) { x with pc := s.jumpTo (coreKey c) f, sp := x.sp - 1 } (x.sp - 1).toNat [x.pc + 1] := by
  subst hx
  obtain ⟨t, hw, he⟩ := emit_reach (ws := [(s.core (coreKey c)).pc + 1]) (by simp) hr
  show ∃ u, execCall c f s = _ ∧ _
  unfold execCall
  refine runInstr_wrote_jump h (by simp [hc]) (encJ_inTile (by decide) ..)
    { s.core (coreKey c) with sp := (s.core (coreKey c)).sp - 1 } ?_ rfl hw
  simp only [hsp, hin, Bool.not_true, Bool.false_eq_true, if_false]
  rw [he, hw.core]

/-- CALLFB with a descriptor, a block in IB and an entry that pass its checks (R130, R163). -/
theorem callfb_stores {f : IF} {x : Core} {inst desc : Word} (hd : f.d = 0) (hx : s.core (coreKey c) = x)
    (hinst : s.g (coreKey c) f.a.toNat = inst) (hdesc : x.pc + f.imm.signExtend 36 = desc)
    (hline : desc.toNat % 8 = 0) (hin : inCode (coreKey c) desc.toNat = true) (hsp : s.spOk (coreKey c) (x.sp - 2).toNat = true)
    (hacc : s.access (coreKey c) false false inst.toNat = .ok) (hci : s.wordClean (coreKey c) inst.toNat = true)
    (hentry : inCode (coreKey c) (s.wordAt (coreKey c) (desc + 2).toNat).toNat = true)
    (hcd : ∀ i < 3, s.wordClean (coreKey c) (desc + wd i).toNat = true) (hr : s.mayReach (coreKey c) true (x.sp - 2) 2 = true)
    (htype : (s.wordAt (coreKey c) inst.toNat).toNat / 2 ^ 12 = (s.wordAt (coreKey c) desc.toNat).toNat / 2 ^ 12)
    (hlow : (s.wordAt (coreKey c) inst.toNat).toNat % 2 ^ 12 < 4) :
    ∃ u, exec (.callfb c f) s = .next u ∧ Stored s u (coreKey c)
      { x with pc := s.wordAt (coreKey c) (desc + 2).toNat, sp := x.sp - 2, ib := inst } (x.sp - 2).toNat [x.ib, x.pc + 1] := by
  subst hx
  obtain ⟨t, hw, he⟩ := emit_reach (ws := [(s.core (coreKey c)).ib, (s.core (coreKey c)).pc + 1]) (by simp) hr
  have hentryAt : (desc + 2).toNat = desc.toNat + 2 := by
    have hlt := desc.isLt
    rw [BitVec.toNat_add, show (2 : Word).toNat = 2 from rfl]
    omega
  have hc0 : s.wordClean (coreKey c) desc.toNat = true := by simpa [wd] using hcd 0 (by decide)
  have hc2 : s.wordClean (coreKey c) (desc.toNat + 2) = true := hentryAt ▸ hcd 2 (by decide)
  rw [hentryAt] at hentry ⊢
  have hsame : fld (s.wordAt (coreKey c) inst.toNat) 35 12 = fld (s.wordAt (coreKey c) desc.toNat) 35 12 := by
    simp only [fld, fldN, htype]
  have hver : fld (s.wordAt (coreKey c) inst.toNat) 11 2 = 0 := by simp only [fld, fldN]; omega
  show ∃ u, execCallfb c f s = _ ∧ _
  unfold execCallfb
  refine runInstr_wrote_jump h (by simp [hd]) (encI_inTile (by decide) ..)
    { s.core (coreKey c) with sp := (s.core (coreKey c)).sp - 2, ib := inst } ?_ rfl hw
  simp only [hinst, hdesc, hline, hin, hsp, hacc, readIn_clean_one hc0, readIn_clean_one hc2, readIn_clean_one hci, List.getD_cons_zero,
    hentry, hsame, hver, he, hw.core, bne_self_eq_false, Bool.not_true, Bool.not_false, Bool.and_false,
    Bool.or_self, Bool.false_eq_true, if_false, reduceCtorEq]

end

/-- Settles O14: jumps by `goTo`, returns by the words read from the stack, calls by the words stored there. -/
theorem controlFlow : Obligations.ControlFlow := by
  unfold Obligations.ControlFlow
  refine ⟨⟨fun c f s h => ?_, fun c f s h ha => ?_, fun c f s h hd ha hb => ?_⟩, fun c f s h hc => ?_, fun c f s h hd => ?_⟩
  · intro k x t
    have ht : t = s.jumpTo k f := (jumpTo_eq s k f).symm
    rw [ht]
    exact ⟨j_completes h, j_faults h, jc_jumps h, jc_passes h⟩
  · intro k v t
    exact ⟨loop_ends h ha rfl, loop_jumps h ha rfl (by rw [signExtend_eq_ofInt])⟩
  · intro k x
    exact ⟨fun hfn => ret_completes h hd ha hb hfn rfl, fun hfn => retfb_completes h hd ha hb hfn rfl, nop_completes h hd ha hb,
      fence_completes h hd ha hb, trap_passes h hd ha hb⟩
  · intro k x sp t
    have ht : t = s.jumpTo k f := (jumpTo_eq s k f).symm
    rw [ht]
    exact call_stores h hc rfl
  · intro k x inst desc sp hh d0 entry hline hin hsp hacc hci hentry hcd hr htype hlow
    exact callfb_stores h hd rfl rfl (by rw [signExtend_eq_ofInt]) hline hin hsp hacc hci hentry hcd hr htype hlow

end Sys2Proof.Machine
end

section
/-! SUPPORT. What the end of a run leaves alone: the scheduler trace, the saved context, and a core that gives its task back
(R122, R209, R210, R222). -/

namespace Sys2Proof.Machine

/-- The two states differ in line memory, the registers, free values, the recorder, the stream counts, the scheduler's own counts and the
dirty set alone. -/
structure LogStep (s t : State) : Prop where
  same : t = { s with
    mem := t.mem, regs := t.regs, free := t.free, evr := t.evr, census := t.census, sched := t.sched
    peer := { s.peer with dirty := t.peer.dirty } }

theorem LogStep.refl (s : State) : LogStep s s := ⟨rfl⟩

theorem LogStep.trans {s t u : State} (h : LogStep s t) (g : LogStep t u) : LogStep s u := ⟨by rw [g.same, h.same]⟩

theorem WriteStep.log {s t : State} (h : WriteStep s t) : LogStep s t := ⟨by rw [h.same]⟩

section
variable {s t : State} (h : LogStep s t)
include h

theorem LogStep.cores : t.cores = s.cores := by rw [h.same]
theorem LogStep.tasks : t.tasks = s.tasks := by rw [h.same]
theorem LogStep.loc : t.loc = s.loc := by rw [h.same]
theorem LogStep.cues : t.cues = s.cues := by rw [h.same]
theorem LogStep.lanes : t.lanes = s.lanes := by rw [h.same]
theorem LogStep.axes : t.axes = s.axes := by rw [h.same]
theorem LogStep.host : t.host = s.host := by rw [h.same]
theorem LogStep.exch : t.exch = s.exch := by rw [h.same]
theorem LogStep.cc : t.cc = s.cc := by rw [h.same]
theorem LogStep.elapsed : t.elapsed = s.elapsed := by rw [h.same]; rfl
theorem LogStep.deviceAt (e : Nat) : t.deviceAt e = s.deviceAt e := by rw [h.same]; rfl
theorem LogStep.task (n : Nat) : t.task n = s.task n := congrArg (Tab.get ({} : Task) · n) h.tasks
theorem LogStep.core (k : Nat) : t.core k = s.core k := congrArg (Tab.get ({} : Core) · k) h.cores

end

theorem produce_log (s : State) (i n : Nat) : LogStep s (s.produce i n) := ⟨rfl⟩
theorem drop_log (s : State) (i r n : Nat) : LogStep s (s.drop i r n) := ⟨rfl⟩
theorem incReg_log (s : State) (o n : Nat) : LogStep s (s.incReg o n) := ⟨rfl⟩

theorem trace_log (s : State) (n reason tile : Nat) : LogStep s (s.trace n reason tile) := by
  unfold State.trace
  split
  · exact .refl s
  · extract_lets q m t w u
    have ht : LogStep s t := by
      unfold t
      split
      · exact (incReg_log ..).trans (drop_log ..)
      · exact .refl s
    exact ((ht.trans (agentWrite_write ..).log).trans (incReg_log ..)).trans (produce_log ..)

theorem tallyReady_log (s : State) (n : Nat) : LogStep s (s.tallyReady n) := by
  unfold State.tallyReady
  split
  · exact ⟨rfl⟩
  · exact .refl s

/-- A tile's reads of its own memory leave every part of the state but that memory and the counts of its code. -/
theorem locRun_eq (s : State) (t a n : Nat) : ∃ l r, (s.locRun t a n).2 = { s with loc := l, regs := r } := by
  unfold State.locRun
  generalize List.range n = is
  suffices h : ∀ x : List (Word × Bool) × State, (∃ l r, x.2 = { s with loc := l, regs := r }) → ∃ l r,
      (is.foldl (fun x i =>
        let (w, p, u) := x.2.locRead t (a + i)
        (x.1 ++ [(w, p)], u)) x).2 = { s with loc := l, regs := r } from h _ ⟨s.loc, s.regs, rfl⟩
  induction is with
  | nil => exact fun _ h => h
  | cons i is ih =>
    rintro ⟨y, u⟩ ⟨l, r, rfl⟩
    exact ih _ ⟨_, _, locRead_eq _ t (a + i)⟩

/-- Where no local word is disturbed, a tile's reads change nothing (R59). -/
theorem locRun_clean {s : State} (h : s.loc.errs = []) (t a n : Nat) : (s.locRun t a n).2 = s := by
  unfold State.locRun
  generalize List.range n = is
  suffices h : ∀ x : List (Word × Bool) × State, x.2 = s → (is.foldl (fun x i =>
      let (w, p, u) := x.2.locRead t (a + i)
      (x.1 ++ [(w, p)], u)) x).2 = s from h _ rfl
  induction is with
  | nil => exact fun _ h => h
  | cons i is ih =>
    rintro x rfl
    refine ih _ ?_
    simp [State.locRead, h]

/-- A saved context changes line memory and what its reads count (R122); the tile's memory as well, where a stack word is disturbed. -/
theorem saveContext_log (s : State) (k n : Nat) (pc : Word) : ∃ l,
    LogStep { s with loc := l } (s.saveContext k n pc) ∧ (s.loc.errs = [] → l = s.loc) := by
  unfold State.saveContext
  extract_lets c sp a
  obtain ⟨l, r, hr⟩ := locRun_eq s k sp (if k < 64 then 0x10000 - sp else 0)
  have hclean := fun h => locRun_clean (s := s) h k sp (if k < 64 then 0x10000 - sp else 0)
  generalize s.locRun k sp (if k < 64 then 0x10000 - sp else 0) = x at hr hclean
  obtain ⟨stk, u⟩ := x
  refine ⟨l, ?_, fun h => congrArg State.loc (hr.symm.trans (hclean h))⟩
  obtain rfl : u = { s with loc := l, regs := r } := hr
  have hu : LogStep { s with loc := l } { s with loc := l, regs := r } := ⟨rfl⟩
  exact (hu.trans (agentWrite_write ..).log).trans ⟨rfl⟩

/-! ### A core without its task -/

@[simp] theorem giveBack_task (s : State) (k n : Nat) : (s.giveBack k).task n = s.task n := rfl

/-- Core k has given task n back and takes the next; every other core and task, tile-local memory, cues, lanes and axes are as before. -/
def RunEnded (s u : State) (k n : Nat) : Prop :=
  (u.core k).task = none ∧ (u.core k).taking = true ∧ (∀ j, j ≠ k → u.core j = s.core j) ∧
    (∀ m, m ≠ n → u.task m = s.task m) ∧ u.loc = s.loc ∧ u.cues = s.cues ∧ u.lanes = s.lanes ∧ u.axes = s.axes

theorem giveBack_ended {s t : State} (h : LogStep s t) (k n : Nat) : RunEnded s (t.giveBack k) k n := by
  unfold State.giveBack
  refine ⟨by simp, by simp, fun j hj => ?_, fun m _ => h.task m, h.loc, h.cues, h.lanes, h.axes⟩
  rw [setCore_core_ne _ _ _ _ hj, h.core]

section
variable {s u : State} {k n : Nat} (h : RunEnded s u k n)
include h

theorem RunEnded.setTask (x : Task) : RunEnded s (u.setTask n x) k n := by
  obtain ⟨htask, htaking, hcores, htasks, hrest⟩ := h
  exact ⟨htask, htaking, hcores, fun m hm => (setTask_task_ne _ _ _ _ hm).trans (htasks m hm), hrest⟩

theorem RunEnded.log {v : State} (hv : LogStep u v) : RunEnded s v k n := by
  obtain ⟨htask, htaking, hcores, htasks, hloc, hcues, hlanes, haxes⟩ := h
  exact ⟨hv.core k ▸ htask, hv.core k ▸ htaking, fun j hj => (hv.core j).trans (hcores j hj),
    fun m hm => (hv.task m).trans (htasks m hm),
    hv.loc.trans hloc, hv.cues.trans hcues, hv.lanes.trans hlanes, hv.axes.trans haxes⟩

theorem RunEnded.readyNow (j : Nat) : RunEnded s (u.readyNow j n) k n := by
  have hu : RunEnded s { u with sched := { u.sched with imm := u.sched.imm + 1 } } k n := h.log ⟨rfl⟩
  exact ((hu.setTask _).log (trace_log ..)).log (tallyReady_log ..)

end

/-- A task that becomes READY at once: its state alone changes, and how it is ranked (R202). -/
theorem readyNow_task (s : State) (k n : Nat) : ∃ a b c d, (s.readyNow k n).task n =
    { s.task n with st := .ready, rdyTick := a, rdyCc := b, rdyTile := c, rdyRank := d } := by
  unfold State.readyNow
  rw [(tallyReady_log ..).task, (trace_log ..).task, setTask_task]
  exact ⟨_, _, _, _, rfl⟩

/-! ### Runs that are suspended -/

/-- YIELD, WAIT, EVWAIT and TRAP of a task that no stop and no watchdog meets: the context is saved, the core gives the task back and the
task goes where `f` says (R122, R166). -/
theorem runSuspend_eq {s : State} {n : Nat} (hw : (s.task n).wdog = false) (hs : (s.task n).stopping = false) (k : Nat) (pc : Word)
    (reason : Nat) (f : Task → Task) : ∃ l t, LogStep { s with loc := l } t ∧ (s.loc.errs = [] → l = s.loc) ∧
    s.runSuspend k n pc reason f =
      (t.giveBack k).setTask n { f (s.task n) with saved := true, fresh := false, posted := false, acc := s.cc } := by
  obtain ⟨l, hlog, hl⟩ := saveContext_log s k n pc
  have ht := hlog.trans (trace_log (s.saveContext k n pc) n reason (if k < 64 then k else 0))
  refine ⟨l, _, ht, hl, ?_⟩
  have htask : ∀ m, _ = s.task m := ht.task
  have hcc : _ = s.cc := ht.cc
  unfold State.runSuspend
  simp only [hw, giveBack_task, htask, hs, Bool.false_eq_true, if_false]
  rw [← hcc]
  rfl

/-- Such a run in a tile of which no local word is disturbed. -/
theorem runSuspend_ended {s : State} {n : Nat} (hw : (s.task n).wdog = false) (hs : (s.task n).stopping = false)
    (hloc : s.loc.errs = []) (k : Nat) (pc : Word) (reason : Nat) (f : Task → Task) :
    RunEnded s (s.runSuspend k n pc reason f) k n ∧ (s.runSuspend k n pc reason f).task n =
      { f (s.task n) with saved := true, fresh := false, posted := false, acc := s.cc } := by
  obtain ⟨l, t, ht, hl, he⟩ := runSuspend_eq hw hs k pc reason f
  rw [he]
  rw [hl hloc] at ht
  exact ⟨(giveBack_ended ht k n).setTask _, setTask_task ..⟩

/-! ### DONE (R123, R209) -/

/-- What the end of a run makes of its task, before it is READY or waits for its cycle (R209). -/
def Task.doneWith (x : Task) : Task := { x with st := .idle, saved := false, fresh := true, scanning := false, count := 0, wdog := false }

/-- DONE of a task under no orderly stop, outside an exchange: the task is IDLE, waits for its cycle, or is READY (R209). -/
theorem runDone_eq {s : State} {n : Nat} (hs : (s.task n).stopping = false) (hx : s.exch.phase = .none) (k : Nat) :
    ∃ u, RunEnded s u k n ∧ u.task n = (s.task n).doneWith ∧ s.runDone k n =
      if (s.task n).kind = 1 then u.setTask n { (s.task n).doneWith with posted := (s.task n).queue != [], postAcc := s.cc }
      else if (s.task n).cycmin = 0 ∨ (s.task n).grant + (s.task n).cycmin * tUs ≤ s.elapsed then u.readyNow k n
      else u.setTask n { (s.task n).doneWith with
        st := .delayed, deadline := some (s.deviceAt ((s.task n).grant + (s.task n).cycmin * tUs)), acc := s.cc } := by
  have ht := trace_log s n 0x07 (if k < 64 then k else 0)
  generalize hte : s.trace n 0x07 (if k < 64 then k else 0) = t at ht
  refine ⟨(t.giveBack k).setTask n (s.task n).doneWith, (giveBack_ended ht k n).setTask _, setTask_task .., ?_⟩
  have hholds : ((t.giveBack k).setTask n (s.task n).doneWith).holds n = false := by
    have hp : t.exch.phase = .none := by rw [ht.exch, hx]
    simp [State.holds, State.giveBack, hp]
  have hc : ((t.giveBack k).setTask n (s.task n).doneWith).cc = s.cc := ht.cc
  have he : ((t.giveBack k).setTask n (s.task n).doneWith).elapsed = s.elapsed := ht.elapsed
  have hd : ∀ e, ((t.giveBack k).setTask n (s.task n).doneWith).deviceAt e = s.deviceAt e := ht.deviceAt
  unfold State.runDone
  simp only [hte, giveBack_task, ht.task]
  rw [← Task.doneWith]
  simp only [setTask_task, hholds, hc, he, hd]
  rw [if_neg (c := (s.task n).doneWith.stopping = true) (ne_of_eq_of_ne hs Bool.false_ne_true), if_neg Bool.false_ne_true]
  rfl

/-! ### Entries for the host (R567, R568) -/

@[simp] theorem msix_cores (s : State) (v : Nat) : (s.msix v).cores = s.cores := by rw [msix_eq]
@[simp] theorem msix_tasks (s : State) (v : Nat) : (s.msix v).tasks = s.tasks := by rw [msix_eq]

/-- A message to the host moves no ring and no program. -/
theorem msix_host (s : State) (v : Nat) : ∃ a w, (s.msix v).host = { s.host with vecAt := a, vecWait := w } := by
  unfold State.msix
  split
  · exact ⟨_, _, rfl⟩
  · exact ⟨_, _, rfl⟩

theorem wd_toNat_succ (w : Word) : wd (w.toNat + 1) = w + 1 := by
  rw [wd, BitVec.ofNat_add, BitVec.ofNat_toNat, BitVec.setWidth_eq]
  rfl

/-- An event entry moves its ring on by one, and no core and no task. -/
theorem eventEntry_ring (s : State) (a b c : Word) : (s.eventEntry a b c).cores = s.cores ∧ (s.eventEntry a b c).tasks = s.tasks ∧
    (s.eventEntry a b c).host.evpi = s.host.evpi + 1 := by
  unfold State.eventEntry
  extract_lets t n u
  have hu : WriteStep s u := agentWrite_write ..
  obtain ⟨x, y, hh⟩ := msix_host { u with host := { u.host with evpi := wd (n + 1) } } 2
  rw [msix_cores, msix_tasks, hh]
  exact ⟨hu.cores, hu.tasks, wd_toNat_succ _⟩

/-- A response entry moves its ring on by one, and no core, no task and no program. -/
theorem respond_ring (s : State) (code status : Nat) (tag : Word) (res : List Word) :
    (s.respond code status tag res).cores = s.cores ∧ (s.respond code status tag res).tasks = s.tasks ∧
    (s.respond code status tag res).host.prog = s.host.prog ∧ (s.respond code status tag res).host.rsppi = s.host.rsppi + 1 := by
  unfold State.respond
  extract_lets t ws n u
  have hu : WriteStep s u := agentWrite_write ..
  obtain ⟨x, y, hh⟩ := msix_host { u.produce strRsp 1 with host := { u.host with rsppi := wd (n + 1) } } 0
  have hp : u.host.prog = s.host.prog := by rw [hu.host]
  rw [msix_cores, msix_tasks, hh]
  exact ⟨hu.cores, hu.tasks, hp, wd_toNat_succ _⟩

/-! ### The instructions that end a run -/

section
variable {c : CoreId} {s : State} {n : Nat} (h : coreReady c s = true) (hn : (s.core (coreKey c)).task = some n)
  (hs : (s.task n).stopping = false) (hout : s.outstanding (coreKey c) = 0)
include h

theorem wdog_of_ready (hn : (s.core (coreKey c)).task = some n) : (s.task n).wdog = false :=
  ((coreReady_iff c s).1 h).2.2.2.1 n hn

/-- An instruction that leaves its core to the scheduler. -/
theorem runInstr_left {op : Nat} {f : RF} {bad : Bool} {body : Nat → State → Res} {u : State} (hop : 3 < op ∧ op < 0x6C)
    (hb : bad = false) (he : body (coreKey c) s = .left u) : runInstr c (encR op f) bad body s = .next u := by
  rw [runInstr_ready h hb (.inl (encR_inTile hop.2 (by omega) (by omega) ..)), he]
  rfl

include hn hs hout

theorem done_ends {f : RF} (hf : f.d = 0 ∧ f.a = 0 ∧ f.b = 0 ∧ f.fn = 0) (hx : s.exch.phase = .none) :
    ∃ u, exec (.done c f) s = .next u ∧ RunEnded s u (coreKey c) n ∧
      (u.task n).saved = false ∧ (u.task n).fresh = true ∧ (u.task n).scanning = false ∧ (u.task n).queue = (s.task n).queue ∧
      ((s.task n).kind = 1 → (u.task n).st = .idle) ∧
      ((s.task n).kind ≠ 1 → ((s.task n).cycmin = 0 ∨ (s.task n).grant + (s.task n).cycmin * tUs ≤ s.elapsed) →
        (u.task n).st = .ready) ∧
      ((s.task n).kind ≠ 1 → (s.task n).cycmin ≠ 0 → s.elapsed < (s.task n).grant + (s.task n).cycmin * tUs →
        (u.task n).st = .delayed ∧
          (u.task n).deadline = some (s.deviceAt ((s.task n).grant + (s.task n).cycmin * tUs))) := by
  obtain ⟨u, hu, htask, he⟩ := runDone_eq hs hx (coreKey c)
  obtain ⟨hd, ha, hb, hfn⟩ := hf
  have hexec : exec (.done c f) s = .next (s.runDone (coreKey c) n) := by
    show execDone c f s = _
    unfold execDone
    exact runInstr_left h (by decide) (by simp [hd, ha, hb, hfn]) (by simp only [fence_idle hout, hn])
  refine ⟨_, hexec, ?_⟩
  rw [he]
  by_cases hkind : (s.task n).kind = 1
  · rw [if_pos hkind]
    refine ⟨hu.setTask _, ?_⟩
    simp [Task.doneWith, hkind]
  by_cases hcyc : (s.task n).cycmin = 0 ∨ (s.task n).grant + (s.task n).cycmin * tUs ≤ s.elapsed
  · rw [if_neg hkind, if_pos hcyc]
    obtain ⟨a, b, d, e, hready⟩ := readyNow_task u (coreKey c) n
    refine ⟨hu.readyNow _, ?_⟩
    rw [hready, htask]
    exact ⟨rfl, rfl, rfl, rfl, fun hk => absurd hk hkind, fun _ _ => rfl, fun _ h0 hlt => by omega⟩
  · rw [if_neg hkind, if_neg hcyc]
    refine ⟨hu.setTask _, ?_⟩
    rw [setTask_task]
    exact ⟨rfl, rfl, rfl, rfl, fun hk => absurd hk hkind, fun _ hc => absurd hc hcyc, fun _ _ _ => ⟨rfl, rfl⟩⟩

/-- WAIT until a moment (R168). -/
theorem wait_ends {f : RF} {dl : Nat} (hloc : s.loc.errs = []) (hc : c ≠ .crown0)
    (hf : f.d = 0 ∧ f.b = 0 ∧ (f.fn = 0 ∨ f.fn = 1 ∧ f.a.toNat % 2 = 0))
    (hdl : (if f.fn = 0 then s.now + (s.g (coreKey c) f.a.toNat).toNat * tUs else ofT72 (s.gg (coreKey c) f.a.toNat)) = dl) :
    ∃ u, exec (.wait c f) s = .next u ∧ RunEnded s u (coreKey c) n ∧ (u.task n).st = .delayed ∧ (u.task n).saved = true ∧
      (u.task n).deadline = some dl := by
  subst hdl
  obtain ⟨hd, hb, hfn⟩ := hf
  obtain ⟨hu, htask⟩ := runSuspend_ended (wdog_of_ready h hn) hs hloc (coreKey c) ((s.core (coreKey c)).pc + 1) 0x09
    (fun t => { t with st := .delayed, deadline := some (if f.fn = 0 then s.now + (s.g (coreKey c) f.a.toNat).toNat * tUs
      else ofT72 (s.gg (coreKey c) f.a.toNat)) })
  refine ⟨_, ?_, hu, ?_⟩
  · show execWait c f s = _
    unfold execWait
    refine runInstr_left h (by decide) ?_ (by simp only [fence_idle hout, hn])
    rcases hfn with hfn | ⟨hfn, ha⟩ <;> simp [*]
  · rw [htask]
    exact ⟨rfl, rfl, rfl⟩

/-- YIELD (R166): on a tile and on Crown pair 1 the task on a core that is ready is RUNNING. -/
theorem yield_ends {f : RF} (hloc : s.loc.errs = []) (hc : c ≠ .crown0) (hk : coreKey c ≠ 64)
    (hf : f.d = 0 ∧ f.a = 0 ∧ f.b = 0 ∧ f.fn = 0) :
    ∃ u, exec (.yield c f) s = .next u ∧ RunEnded s u (coreKey c) n ∧ (u.task n).st = .ready ∧ (u.task n).saved = true ∧
      (u.task n).fresh = false := by
  obtain ⟨hd, ha, hb, hfn⟩ := hf
  obtain ⟨hu, htask⟩ := runSuspend_ended (wdog_of_ready h hn) hs hloc (coreKey c) ((s.core (coreKey c)).pc + 1) 0x08 id
  have hrun : (s.task n).st = .running := by
    have hr := ((coreReady_iff c s).1 h).1
    simp only [State.runs, hk, hn, if_false, Bool.and_eq_true, decide_eq_true_eq] at hr
    exact hr.2
  refine ⟨_, ?_, hu.readyNow (coreKey c), ?_⟩
  · show execYield c f s = _
    unfold execYield
    refine runInstr_left h (by decide) (by simp [hd, ha, hb, hfn, hc]) ?_
    simp only [fence_idle hout, hn, htask, id, hrun, if_true]
  · obtain ⟨a, b, d, e, hready⟩ := readyNow_task (s.runSuspend (coreKey c) n ((s.core (coreKey c)).pc + 1) 0x08 id) (coreKey c) n
    rw [hready, htask]
    exact ⟨rfl, rfl, rfl⟩

/-- TRAP that suspends its task (R164): the event entry goes to the host. -/
theorem trap_suspends {f : RF} (hf : f.d = 0 ∧ f.a = 0 ∧ f.b = 0) (hmode : s.mode = 3 ∨ s.mode = 11)
    (htrap : (s.task n).trapen = true) :
    ∃ u, exec (.trap c f) s = .next u ∧ (u.core (coreKey c)).task = none ∧ (u.core (coreKey c)).taking = true ∧
      (u.task n).st = .trapped ∧ (u.task n).saved = true ∧ (u.task n).fresh = false ∧ u.host.evpi = s.host.evpi + 1 ∧
      (∀ m, m ≠ n → u.task m = s.task m) ∧ (∀ j, j ≠ coreKey c → u.core j = s.core j) := by
  obtain ⟨hd, ha, hb⟩ := hf
  obtain ⟨l, t, ht, -, he⟩ := runSuspend_eq (wdog_of_ready h hn) hs (coreKey c) ((s.core (coreKey c)).pc + 1) 0x0A
    (fun t => { t with st := .trapped, pausedAt := some s.elapsed })
  have hexec : ∃ w0 w1 w2, exec (.trap c f) s = .next (((t.giveBack (coreKey c)).setTask n { s.task n with
      st := .trapped, pausedAt := some s.elapsed, saved := true, fresh := false, posted := false, acc := s.cc }).eventEntry w0 w1 w2) := by
    refine ⟨wd (at_ 1 28 + f.fn.toNat), tidOf (coreKey c) (some n), (s.core (coreKey c)).pc, ?_⟩
    show execTrap c f s = _
    unfold execTrap
    refine runInstr_left h (by decide) (by simp [hd, ha, hb]) ?_
    simp only [fence_idle hout, hn]
    rw [if_pos (by simp [hmode, htrap, hs]), he]
  obtain ⟨w0, w1, w2, hexec⟩ := hexec
  refine ⟨_, hexec, ?_⟩
  generalize hv : (t.giveBack (coreKey c)).setTask n _ = v
  obtain ⟨htask, htaking, hcores, htasks, -⟩ := hv ▸ (giveBack_ended ht (coreKey c) n).setTask _
  obtain ⟨hc, ht', hev⟩ := eventEntry_ring v w0 w1 w2
  have hcore : ∀ j, (v.eventEntry w0 w1 w2).core j = v.core j := fun j => congrArg (Tab.get ({} : Core) · j) hc
  have htk : ∀ m, (v.eventEntry w0 w1 w2).task m = v.task m := fun m => congrArg (Tab.get ({} : Task) · m) ht'
  have hvn : v.task n = _ := hv ▸ setTask_task ..
  have hhost : v.host = s.host := by
    rw [← hv]
    exact ht.host
  rw [hcore, htk, hvn, hev, hhost]
  exact ⟨htask, htaking, rfl, rfl, rfl, rfl, fun m hm => (htk m).trans (htasks m hm), fun j hj => (hcore j).trans (hcores j hj)⟩

end

/-- DONE of a PROGRAM request (R616). -/
theorem done_program {s : State} {p : Prog} (h : coreReady .crown0 s = true) (hp : s.host.prog = some p) (hn : (s.core 64).task = none)
    (hout : s.outstanding 64 = 0) :
    ∃ u, exec (.done .crown0 ⟨0, 0, 0, 0⟩) s = .next u ∧ u.host.prog = none ∧ u.core 64 = {} ∧ u.host.rsppi = s.host.rsppi + 1 ∧
      (∀ j, j ≠ 64 → u.core j = s.core j) ∧ u.tasks = s.tasks := by
  have hexec : exec (.done .crown0 ⟨0, 0, 0, 0⟩) s = .next (State.setCore (State.respond { s with host := { s.host with prog := none } }
      0x01 0 p.tag ((List.range 6).map (fun i => s.g 64 i))) 64 {}) := by
    show execDone _ _ s = _
    unfold execDone
    exact runInstr_left h (by decide) rfl (by simp only [coreKey, fence_idle hout, hn, hp])
  obtain ⟨hc, ht, hprog, hring⟩ := respond_ring { s with host := { s.host with prog := none } } 0x01 0 p.tag
    ((List.range 6).map (fun i => s.g 64 i))
  generalize State.respond _ _ _ _ _ = u at hexec hc ht hprog hring
  exact ⟨_, hexec, hprog, core_setCore .., hring,
    fun j hj => (setCore_core_ne _ _ _ _ hj).trans (congrArg (Tab.get ({} : Core) · j) hc), ht⟩

theorem coreKey_ne_crown0 {c : CoreId} (h : c ≠ .crown0) : coreKey c ≠ 64 := by
  cases c with
  | tile t => exact Nat.ne_of_lt t.isLt
  | crown0 => exact absurd rfl h
  | crown1 => decide

/-- Settles O15: the run's end is the saved context, the trace entry and the core's TAKE; a PROGRAM request ends with its response. -/
theorem runsEnd : Obligations.RunsEnd := by
  unfold Obligations.RunsEnd
  refine ⟨fun c f s n h hc => ?_, ⟨fun f s p h hp hn hout => ?_, fun c s h => ?_⟩, ?_⟩
  · intro k x hn hs hx hout hloc hb hd ended
    exact ⟨fun ha hfn => done_ends h hn hs hout ⟨hd, ha, hb, hfn⟩ hx,
      fun ha hfn => yield_ends h hn hs hout hloc hc (coreKey_ne_crown0 hc) ⟨hd, ha, hb, hfn⟩,
      fun hfn => wait_ends h hn hs hout hloc hc ⟨hd, hb, .inl hfn⟩ (if_pos hfn),
      fun hfn ha => wait_ends h hn hs hout hloc hc ⟨hd, hb, .inr ⟨hfn, ha⟩⟩ (if_neg (by rw [hfn]; decide))⟩
  · refine ⟨fun hf => hf ▸ done_program h hp hn hout, ?_, ?_, ?_⟩
    · show execYield .crown0 f s = _
      unfold execYield
      exact runInstr_bad h (by simp)
    · show execWait .crown0 f s = _
      unfold execWait
      exact runInstr_bad h (by simp)
    · show execEvwait .crown0 f s = _
      unfold execEvwait
      exact runInstr_bad h (by simp [evBad])
  · have hw : (0x680000000 : Word) = wd (at_ 0x68 28) := by decide
    rw [hw]
    show execTake c s = _
    unfold execTake
    exact runInstr_bad h rfl
  · intro c f s n h hd ha hb hn hout hmode htrap hs
    exact trap_suspends h hn hs hout ⟨hd, ha, hb⟩ hmode htrap

end Sys2Proof.Machine
end

section
/-! SUPPORT. Words of line memory that a write leaves, whatever the decoder meets: it acts from its own line upward alone (R64, R65). -/

namespace Sys2Proof.Machine

theorem retire_word (s : State) (l b : Nat) : (s.retire l).word b = s.word b := by
  unfold State.retire
  extract_lets used m t
  split
  · split <;> rfl
  · rfl

/-- Decoding a line changes no word before that line (R64). -/
theorem decode_word_below (s : State) {l b : Nat} (hb : b < 8 * l) : (s.decode l).word b = s.word b := by
  unfold State.decode
  extract_lets e
  split
  · rfl
  split
  · rw [markDirty_word]
    exact (Memory.putWords_word ..).trans (if_neg (by omega))
  split
  · exact (Memory.putWords_word ..).trans (if_neg (by omega))
  split
  · exact retire_word ..
  · rfl

/-- A line write stores the words that its mask names; another word is as the line was read. -/
theorem lineWrite_word_decodes (s : State) (l mask : Nat) (data : List Word) (poison : Bool) (owner : BitVec 2) (b : Nat) :
    (s.lineWrite l mask data poison owner).word b =
      if 8 * l ≤ b ∧ b < 8 * l + data.length ∧ mask.testBit (b - 8 * l) = true then data.getD (b - 8 * l) 0
      else (if mask = 255 then s else s.decode l).word b := by
  rw [State.lineWrite, markDirty_word]
  exact Memory.putMasked_word ..

theorem lineWrite_word_below (s : State) {l b : Nat} (mask : Nat) (data : List Word) (poison : Bool) (owner : BitVec 2) (hb : b < 8 * l) :
    (s.lineWrite l mask data poison owner).word b = s.word b := by
  rw [lineWrite_word_decodes, if_neg (by omega)]
  split
  · rfl
  · exact decode_word_below s hb

/-- A write changes no word before the line of its first word. -/
theorem spanWrite_word_below (owner : BitVec 2) (poison : Bool) (fuel : Nat) (s : State) {a b : Nat} (ws : List Word) (hb : b < 8 * (a / 8)) :
    (State.spanWrite owner poison fuel s a ws).word b = s.word b := by
  induction fuel generalizing s a ws with
  | zero => rfl
  | succ n ih =>
    unfold State.spanWrite
    split
    · rfl
    · exact (ih _ _ (by omega)).trans (lineWrite_word_below _ _ _ _ _ hb)

/-- The words of a write stand where it put them. -/
theorem spanWrite_word_written (owner : BitVec 2) (poison : Bool) (fuel : Nat) (s : State) (a : Nat) (ws : List Word) {i : Nat}
    (hi : i < ws.length) (hf : ws.length ≤ fuel) : (State.spanWrite owner poison fuel s a ws).word (a + i) = ws.getD i 0 := by
  induction fuel generalizing s a ws i with
  | zero => omega
  | succ n ih =>
    have hne : ws.isEmpty = false := List.isEmpty_eq_false_iff.2 fun h => by rw [h, List.length_nil] at hi; omega
    rw [State.spanWrite, if_neg (by simp [hne])]
    simp only
    generalize hm : min (8 - a % 8) ws.length = m
    have hdrop : (ws.drop m).length = ws.length - m := List.length_drop ..
    by_cases him : i < m
    · have hlen : (List.replicate (a % 8) (0 : Word) ++ ws.take m).length = a % 8 + m := by
        rw [List.length_append, List.length_replicate, List.length_take, Nat.min_eq_left (by omega)]
      have hfirst : (s.lineWrite (a / 8) (maskOf (a % 8) m) (List.replicate (a % 8) 0 ++ ws.take m) poison owner).word (a + i) =
          ws.getD i 0 := by
        rw [lineWrite_word_decodes, hlen, testBit_maskOf (by omega), if_pos ⟨by omega, by omega, by simp; omega⟩,
          List.getD_append_right _ _ _ _ (by rw [List.length_replicate]; omega), List.length_replicate,
          show a + i - 8 * (a / 8) - a % 8 = i by omega, List.getD_eq_getElem?_getD, List.getElem?_take_of_lt him,
          ← List.getD_eq_getElem?_getD]
      rcases Nat.lt_or_ge m ws.length with hlt | hge
      · exact (spanWrite_word_below _ _ _ _ _ (by omega)).trans hfirst
      · rw [List.drop_eq_nil_of_le hge]
        cases n <;> exact hfirst
    · obtain ⟨j, rfl⟩ : ∃ j, i = m + j := ⟨i - m, by omega⟩
      rw [← Nat.add_assoc, ih _ _ _ (by omega) (by omega), List.getD_eq_getElem?_getD, List.getElem?_drop, ← List.getD_eq_getElem?_getD]

theorem agentWrite_word_written (s : State) (a : Nat) (ws : List Word) {i : Nat} (hi : i < ws.length) :
    (s.agentWrite a ws).word (a + i) = ws.getD i 0 := spanWrite_word_written 1 false _ s a ws hi le_rfl

end Sys2Proof.Machine
end

section
/-! SUPPORT. A state in which the decoder reads more than the eight words of a line: a fault then makes its task a twin of itself,
and the error task is not posted (R64, R146, R544). -/

namespace Sys2Proof.Machine

/-- The decoder meets no error in the line of a write of a whole line, and another line keeps its disturbance. -/
theorem agentWrite_line (s : State) {a : Nat} {ws : List Word} (ha : a % 8 = 0) (hw : ws.length = 8) :
    s.agentWrite a ws = s.lineWrite (a / 8) 255 ws false 1 := by
  obtain ⟨v, r, rfl⟩ : ∃ v r, ws = v :: r := by
    cases ws with
    | nil => exact absurd hw (by decide)
    | cons v r => exact ⟨v, r, rfl⟩
  have hmask : maskOf 0 8 = 255 := by decide
  simp only [State.agentWrite, hw, State.spanWrite, List.isEmpty_cons, Bool.false_eq_true, if_false, ha, Nat.sub_zero, min_self,
    List.replicate_zero, List.nil_append, hmask]
  rw [List.take_of_length_le (by omega), List.drop_eq_nil_of_le (by omega), List.isEmpty_nil, if_pos rfl]

/-! ### The state -/

/-- Tile 48 runs task 768, whose error task 769 is IDLE with room for one post; the line of the next trace entry has a wrong tag, and ws is
what the decoder reads there. -/
def faultOverread (ws : List Word) : State :=
  { cores := [(48, { task := some 768 })]
    tasks := [(768, { st := .running, desc := [wd (2 ^ 15), 0, 0, 0, 0, 0, wd 0x1C00000] }), (769, { st := .idle, desc := [wd (2 ^ 10)] })]
    mem := { errs := [(0x3FFC00, { tagWrong := true, asRead := ws })] } }

/-- Word 0 of a compare table entry that pairs task 768 with itself. -/
def selfTwin : Word := wd (2 ^ 35 + 768 * 2 ^ 16 + 768)

/-- What the decoder reads: words up to the compare table, and there the entry. -/
def overreadTwin : List Word := List.replicate 0x704000 0 ++ [selfTwin]

/-- A task that entry 0 of the compare table pairs with itself is a twin of itself. -/
theorem twinOf_self {s : State} (h : s.twinEntry 0 = selfTwin) : s.twinOf 768 = some (0, false, 768) := by
  have hrange : List.range 64 = 0 :: (List.range 63).map (· + 1) := by
    rw [List.range_succ_eq_map]
  unfold State.twinOf
  rw [hrange, List.findSome?_cons, h]
  rfl

theorem twinOf_none {s : State} {n : Nat} (h : ∀ e < 64, bit (s.twinEntry e) 35 = false) : s.twinOf n = none := by
  refine List.findSome?_eq_none_iff.2 fun e he => ?_
  simp [h e (List.mem_range.1 he)]

/-- A fault of a task whose other twin has faulted with its code posts no error task (R544): no other task changes. -/
theorem faultTask_twin {s t : State} {k n code : Nat} {pc instr addr ib sp : Word} {wdog : Bool} {reason i m : Nat} {second : Bool}
    (ht : (s.agentWrite (s.task n).slot (s.faultRecord k n code pc instr addr ib sp wdog (min ((s.task n).count + 1) 255))).trace n
      reason (if reason = 0x0B ∧ k < 64 then k else 0) = t)
    (hstop : (s.task n).stopping = false) (hx : s.exch.phase = .none) (htwin : t.twinOf n = some (i, second, n))
    (hcode : fld (t.word ((s.task n).slot + 2)) 35 28 = code) (hm : m ≠ n) :
    (s.faultTask k n code pc instr addr ib sp wdog reason).task m = s.task m := by
  have hlog : LogStep s t := ht ▸ ((agentWrite_write ..).log).trans (trace_log ..)
  have htask : ∀ j, t.task j = s.task j := hlog.task
  unfold State.faultTask
  simp only [ht, htask]
  set y : Task := { s.task n with
    st := .faulted, count := min ((s.task n).count + 1) 255, saved := false, fresh := true, scanning := false, wdog := false
    deadline := none, timeout := none, posted := false, evGot := none } with hy
  have hfaulted : (t.setTask n y).twinFaulted n code = true := by
    have htw : (t.setTask n y).twinOf n = some (i, second, n) := htwin
    rw [State.twinFaulted, htw]
    simp only [setTask_task]
    exact Bool.and_eq_true_iff.2 ⟨rfl, decide_eq_true hcode⟩
  have hholds : (t.setTask n y).holds n = false := by
    have hp : t.exch.phase = .none := by rw [hlog.exch, hx]
    simp [State.holds, hp]
  rw [if_pos hfaulted]
  simp only [setTask_task, hholds, Bool.false_eq_true, if_false]
  rw [if_neg (c := y.stopping = true) (ne_of_eq_of_ne hstop Bool.false_ne_true), setTask_task_ne _ _ _ _ hm, htask]

/-! ### The state, run -/

section
variable (ws : List Word)

/-- The state after the fault record and its trace entry. -/
def faultTraced : State :=
  (((faultOverread ws).giveBack 48).agentWrite 0x1C00000
    (((faultOverread ws).giveBack 48).faultRecord 48 768 1 0 0 0 0 0 false 1)).trace 768 0x0B 48

theorem faultTraced_words (b : Nat) : ∃ v w, (faultTraced ws).word b =
    ((((faultOverread ws).giveBack 48).lineWrite 0x380000 255
      (((faultOverread ws).giveBack 48).faultRecord 48 768 1 0 0 0 0 0 false 1) false 1).lineWrite 0x3FFC00 3 [v, w] false 1).word b := by
  have hreg : ∀ o, ¬MemCounter o → ((faultOverread ws).giveBack 48).reg o = 0 →
      (((faultOverread ws).giveBack 48).lineWrite 0x380000 255
        (((faultOverread ws).giveBack 48).faultRecord 48 768 1 0 0 0 0 0 false 1) false 1).reg o = 0 :=
    fun o ho h0 => (lineWrite_reg ho ..).trans h0
  rw [faultTraced, agentWrite_line _ (by decide) rfl]
  exact trace_word 0x0B 48 (by decide) (hreg _ (by unfold MemCounter; decide) rfl) (hreg _ (by unfold MemCounter; decide) rfl) b

/-- Beyond the trace entry stand the words that the decoder read. -/
theorem faultTraced_word {b : Nat} (hb : 0x1FFE002 ≤ b) (hw : b < 0x1FFE000 + ws.length) :
    (faultTraced ws).word b = ws.getD (b - 0x1FFE000) 0 := by
  obtain ⟨v, w, htrace⟩ := faultTraced_words ws b
  set t := ((faultOverread ws).giveBack 48).lineWrite 0x380000 255
    (((faultOverread ws).giveBack 48).faultRecord 48 768 1 0 0 0 0 0 false 1) false 1 with ht
  have herr : Tab.get {} t.mem.errs 0x3FFC00 = { tagWrong := true, asRead := ws } :=
    (lineWrite_errs (.inl rfl) _).trans (if_neg (by decide))
  have hline : (t.lineMeta 0x3FFC00).poison = false :=
    congrArg LineMeta.poison (lineWrite_lineMeta_other (.inl rfl) (by decide))
  rw [htrace, lineWrite_word_decoded _ _ _ (by decide) (by simpa using hb), decode_tagWrong_word hline (by rw [herr]),
    herr, Memory.putWords_word, if_pos ⟨by omega, hw⟩]

/-- The record stands in the task's slot, its code in bits [35:28] of word 2 (R145). -/
theorem faultTraced_code : fld ((faultTraced ws).word 0x1C00002) 35 28 = 1 := by
  obtain ⟨v, w, htrace⟩ := faultTraced_words ws 0x1C00002
  rw [htrace, lineWrite_word_below _ _ _ _ _ (by decide), lineWrite_full_word _ _ rfl, if_pos (by decide)]
  show fld (wd (at_ 1 28 + at_ (b2n false) 27 + at_ (b2n (decide (1024 ≤ 768))) 26 + at_ 48 20 + at_ 3 16 + at_ 0 8 + min 1 255)) 35 28 = 1
  decide

end

/-- Refutes O36: no rule of the model bounds what the decoder reads of a disturbed line. Where it reads more than the line's eight words, the
trace of the fault makes the faulting task a twin of itself, and its error task gets no post. -/
theorem not_faultsAndDispatch : ¬Obligations.FaultsAndDispatch := by
  unfold Obligations.FaultsAndDispatch
  rintro ⟨h, -⟩
  have hnone : (faultOverread overreadTwin).twinOf 768 = none := twinOf_none fun e he => by
    have hword : (faultOverread overreadTwin).twinEntry e = 0 := if_neg (by omega)
    rw [hword]
    decide
  have hself : (faultTraced overreadTwin).twinOf 768 = some (0, false, 768) := by
    have hlen : overreadTwin.length = 0x704001 := by
      rw [overreadTwin, List.length_append, List.length_replicate]
      rfl
    refine twinOf_self ((faultTraced_word _ (by decide) (by rw [hlen]; decide)).trans ?_)
    rw [overreadTwin, List.getD_append_right _ _ _ _ (by rw [List.length_replicate]), List.length_replicate]
    rfl
  obtain ⟨-, -, -, -, -, -, -, -, hqueue, -⟩ := h (faultOverread overreadTwin) 48 768 1 0 0 (by decide) (by decide) (by decide) rfl rfl
    (by decide) rfl rfl (by decide) hnone (by decide) (by decide) (by decide) (by decide) rfl (by decide)
  have htask : ((faultOverread overreadTwin).takeFault 48 1 0 0).task 769 = (faultOverread overreadTwin).task 769 := by
    rw [State.takeFault, fence_idle rfl]
    exact faultTask_twin (s := (faultOverread overreadTwin).giveBack 48) (t := faultTraced overreadTwin) rfl rfl rfl hself
      (faultTraced_code _) (by decide)
  have hempty : ((faultOverread overreadTwin).task 769).queue = [] := rfl
  rw [show (faultOverread overreadTwin).errTaskOf 768 = 769 from rfl, htask, hempty] at hqueue
  exact absurd hqueue (by simp)

end Sys2Proof.Machine
end

section
/-! SUPPORT. What a store into a cell register leaves as it is: the lanes, the axes and the scan watchdogs (R144, R175). -/

namespace Sys2Proof.Machine

/-- The lanes, the axes, and the expired watchdogs of the tasks. -/
def State.unitView (s : State) : Tab Lane × Tab Axis × (Nat → Bool) := (s.lanes, s.axes, fun n => (s.task n).wdog)

@[simp] theorem ite_unitView (p : Prop) [Decidable p] (t u : State) :
    (if p then t else u).unitView = if p then t.unitView else u.unitView := apply_ite ..

theorem LogStep.unitView {s t : State} (h : LogStep s t) : t.unitView = s.unitView := by
  simp only [State.unitView, h.lanes, h.axes, h.task]

section
variable (s : State)

/-! ### Single units -/

@[simp] theorem setReg_unitView (o : Nat) (v : Word) : (s.setReg o v).unitView = s.unitView := (rfl)
@[simp] theorem setRfld_unitView (o hi lo v : Nat) : (s.setRfld o hi lo v).unitView = s.unitView := (rfl)
@[simp] theorem satRfld_unitView (o hi lo k : Nat) : (s.satRfld o hi lo k).unitView = s.unitView := (rfl)
@[simp] theorem incReg_unitView (o k : Nat) : (s.incReg o k).unitView = s.unitView := (rfl)
@[simp] theorem setPair_unitView (p : Nat) (x : Pwm) : (s.setPair p x).unitView = s.unitView := (rfl)
@[simp] theorem setChop_unitView (f : Nat) (x : Chop) : (s.setChop f x).unitView = s.unitView := (rfl)
@[simp] theorem setStep_unitView (g : Nat) (x : StepGen) : (s.setStep g x).unitView = s.unitView := (rfl)
@[simp] theorem setConv_unitView (k : Nat) (x : Conv) : (s.setConv k x).unitView = s.unitView := (rfl)
@[simp] theorem setAin_unitView (n : Nat) (x : Ain) : (s.setAin n x).unitView = s.unitView := (rfl)
@[simp] theorem setCan_unitView (p : Nat) (x : Can) : (s.setCan p x).unitView = s.unitView := (rfl)
@[simp] theorem setBox_unitView (p m : Nat) (x : Mailbox) : (s.setBox p m x).unitView = s.unitView := (rfl)
@[simp] theorem produce_unitView (i n : Nat) : (s.produce i n).unitView = s.unitView := (rfl)
@[simp] theorem deliver_unitView (i n : Nat) : (s.deliver i n).unitView = s.unitView := (rfl)
@[simp] theorem drop_unitView (i r n : Nat) : (s.drop i r n).unitView = s.unitView := (rfl)
@[simp] theorem drawWord_unitView : s.drawWord.2.unitView = s.unitView := (rfl)
@[simp] theorem drawSense_unitView : s.drawSense.2.unitView = s.unitView := (rfl)
@[simp] theorem decode_unitView (l : Nat) : (s.decode l).unitView = s.unitView := (decode_write s l).log.unitView
@[simp] theorem trace_unitView (n reason tile : Nat) : (s.trace n reason tile).unitView = s.unitView := (trace_log ..).unitView

/-! ### Events and posts -/

@[simp] theorem eventEntry_unitView (a b c : Word) : (s.eventEntry a b c).unitView = s.unitView := by
  obtain ⟨t, ht, he⟩ := eventEntry_eq s a b c
  rw [he]
  exact ht.log.unitView

@[simp] theorem cellEvent_unitView (reason off : Nat) (w : Word) : (s.cellEvent reason off w).unitView = s.unitView :=
  eventEntry_unitView ..

/-- A task that keeps its watchdog. -/
theorem setTask_unitView {n : Nat} {x : Task} (h : x.wdog = (s.task n).wdog) : (s.setTask n x).unitView = s.unitView := by
  have hw : (fun m => ((s.setTask n x).task m).wdog) = fun m => (s.task m).wdog := funext fun m => by
    by_cases hm : m = n
    · rw [hm, setTask_task, h]
    · rw [setTask_task_ne _ _ _ _ hm]
  rw [State.unitView, hw]
  rfl

@[simp] theorem postTo_unitView (n : Nat) (w : Word) (code : Nat) : (s.postTo n w code).2.unitView = s.unitView := by
  unfold State.postTo
  extract_lets t
  split
  · rfl
  split
  · rfl
  split
  · simp
  · exact setTask_unitView (s.produce ..) rfl

theorem canEvent_unitView (p w : Nat) : (s.canEvent p w).unitView = s.unitView := by
  unfold State.canEvent State.postField
  split
  · simp
  · simp [State.post]

/-! ### Outputs: PWM pairs, trip inputs, choppers, step generators -/

@[simp] theorem pwmStore_unitView (p w : Nat) (v : Word) : (s.pwmStore p w v).unitView = s.unitView := by
  unfold State.pwmStore
  split <;> simp

@[simp] theorem tripStore_unitView (i w : Nat) (v : Word) : (s.tripStore i w v).unitView = s.unitView := by
  unfold State.tripStore
  split <;> simp

theorem chopDecay_unitView (f peak : Nat) : (s.chopDecay f peak).unitView = s.unitView := by
  obtain ⟨n, x, -, h⟩ := chopDecay_eq s f peak
  rw [h, setChop_unitView, setRfld_unitView]
  rfl

@[simp] theorem chopStop_unitView (f : Nat) : (s.chopStop f).unitView = s.unitView := by
  unfold State.chopStop
  split
  · rfl
  · exact (chopDecay_unitView ..).trans (drawSense_unitView s)

theorem chopLearn_unitView (f valley : Nat) (target : Int) : (s.chopLearn f valley target).unitView = s.unitView := by
  simp [State.chopLearn]

@[simp] theorem chopSetTarget_unitView (f v : Nat) : (s.chopSetTarget f v).unitView = s.unitView := by
  unfold State.chopSetTarget
  extract_lets old u t
  have hu : u.drawSense.2.unitView = s.unitView := rfl
  have hon (x : State) : (x.chopOn f).unitView = x.unitView := rfl
  split
  · exact chopStop_unitView ..
  split
  · split
    · exact (hon _).trans hu
    · exact (hon _).trans ((chopLearn_unitView ..).trans hu)
  · rfl

@[simp] theorem chopStore_unitView (f w : Nat) (v : Word) : (s.chopStore f w v).unitView = s.unitView := by
  unfold State.chopStore
  split <;> simp

@[simp] theorem chopperStore_unitView (c : Nat) (v : Word) : (s.chopperStore c v).unitView = s.unitView := (rfl)

@[simp] theorem stepFollow_unitView (g : Nat) : (s.stepFollow g).unitView = s.unitView := foldl_view (fun t c => by simp) _ _

@[simp] theorem setPos_unitView (g : Nat) (v : Word) : (s.setPos g v).unitView = s.unitView := by
  simp [State.setPos]

@[simp] theorem withdrawStep_unitView (g : Nat) : (s.withdrawStep g).unitView = s.unitView := by
  unfold State.withdrawStep
  extract_lets x
  split
  · rfl
  · simp

@[simp] theorem stepStop_unitView (g : Nat) : (s.stepStop g).unitView = s.unitView := withdrawStep_unitView ..

@[simp] theorem stepHalt_unitView (g : Nat) : (s.stepHalt g).unitView = s.unitView := by
  simp [State.stepHalt]

@[simp] theorem stepStore_unitView (g w : Nat) (v : Word) : (s.stepStore g w v).unitView = s.unitView := by
  unfold State.stepStore
  split <;> simp

@[simp] theorem stepOutStore_unitView (g : Nat) (v : Word) : (s.stepOutStore g v).unitView = s.unitView := (rfl)

/-! ### Inputs: converters, analogue and field inputs, encoders -/

@[simp] theorem convStore_unitView (k w : Nat) (v : Word) : (s.convStore k w v).unitView = s.unitView := by
  unfold State.convStore
  extract_lets x ten en u y
  have hu : u.unitView = s.unitView := setReg_unitView ..
  have hy : y.unitView = s.unitView := by simp [y]
  clear_value u y
  split <;> simp [hu, hy]

@[simp] theorem ainStore_unitView (n w : Nat) (v : Word) : (s.ainStore n w v).unitView = s.unitView := by
  unfold State.ainStore
  split
  · extract_lets old v' v'' u w x x' range y
    have hu : u.unitView = s.unitView := setReg_unitView ..
    have hw : w.unitView = s.unitView := by simp [w, hu]
    have hx : x.unitView = w.unitView := by simp [x, State.dropInterval]
    have hy : y.unitView = x.unitView := setAin_unitView ..
    clear_value u w x y
    simp [hy, hx, hw]
  · exact setReg_unitView ..
  · exact setReg_unitView ..
  · rfl

@[simp] theorem finStore_unitView (i w : Nat) (v : Word) : (s.finStore i w v).unitView = s.unitView := by
  unfold State.finStore
  split
  · rfl
  · extract_lets v' v'' u field
    have hu : u.unitView = s.unitView := setReg_unitView ..
    clear_value u
    rw [ite_unitView]
    exact ite_eq_left_iff.2 fun _ => hu

@[simp] theorem foutStore_unitView (o w : Nat) (v : Word) : (s.foutStore o w v).unitView = s.unitView := by
  unfold State.foutStore
  split
  · rfl
  · exact setReg_unitView { s with field := _ } _ _

@[simp] theorem encStore_unitView (e w : Nat) (v : Word) : (s.encStore e w v).unitView = s.unitView := by
  unfold State.encStore
  split <;> simp

@[simp] theorem slotStore_unitView (r i w : Nat) (v : Word) : (s.slotStore r i w v).unitView = s.unitView := by
  unfold State.slotStore
  split <;> simp

/-! ### The fieldbus ports -/

@[simp] theorem boxEnd_unitView (p m result : Nat) : (s.boxEnd p m result).unitView = s.unitView := by
  simp [State.boxEnd, canEvent_unitView]

@[simp] theorem boxDrop_unitView (p m reason : Nat) : (s.boxDrop p m reason).unitView = s.unitView := by
  simp [State.boxDrop]

@[simp] theorem boxCancel_unitView (p m : Nat) : (s.boxCancel p m).unitView = s.unitView := by
  unfold State.boxCancel
  extract_lets b u
  split
  · rfl
  · split <;> simp [u]

@[simp] theorem boxReq_unitView (p m : Nat) : (s.boxReq p m).unitView = s.unitView := by
  unfold State.boxReq
  extract_lets b u w c fdf n k a bad v t
  have ht : t.unitView = v.unitView := foldl_view (fun x i => decode_unitView ..) _ _
  simp [ht, v, u]

@[simp] theorem boxStore_unitView (p m w : Nat) (v : Word) : (s.boxStore p m w v).unitView = s.unitView := by
  unfold State.boxStore
  split <;> simp

@[simp] theorem canStore_unitView (p w : Nat) (v : Word) : (s.canStore p w v).unitView = s.unitView := by
  unfold State.canStore
  extract_lets en v' was u x n
  have hu : u.unitView = s.unitView := rfl
  split
  · exact boxStore_unitView ..
  split
  · rfl
  · split <;> simp [hu, State.fifoRd, State.refDrop]

/-- A write of any cell's register. -/
@[simp] theorem storeCell_unitView (o : Nat) (v : Word) : (s.storeCell o v).unitView = s.unitView := by
  simp [State.storeCell]

end

end Sys2Proof.Machine
end

section
/-! SUPPORT. A saved context in line memory, and a core restored from one (R122). -/

namespace Sys2Proof.Machine

theorem context_length (x : Core) (pc : Word) : (x.context pc).length = 24 := by simp [Core.context]

theorem foldl_putMeta_words (l : Nat → Nat) (x : Nat → LineMeta) (is : List Nat) (m : Memory) :
    (is.foldl (fun m i => m.putMeta (l i) (x i)) m).words = m.words :=
  List.foldlRecOn (motive := fun u : Memory => u.words = m.words) _ _ rfl fun _ hu _ _ => hu

/-- The 24 words of the context stand in the context area in their order (R122). -/
theorem saveContext_word (s : State) (k n : Nat) (pc : Word) {i : Nat} (hi : i < 24) :
    (s.saveContext k n pc).word ((s.task n).ctx + i) = ((s.core k).context pc).getD i 0 := by
  unfold State.saveContext
  extract_lets c sp a
  generalize s.locRun k sp (if k < 64 then 0x10000 - sp else 0) = x
  obtain ⟨stk, u⟩ := x
  have hlen : (c.context pc).length = 24 := context_length c pc
  have hword : (u.agentWrite a (c.context pc ++ stk.map Prod.fst)).word (a + i) = (c.context pc ++ stk.map Prod.fst).getD i 0 :=
    agentWrite_word_written u a _ (by rw [List.length_append]; omega)
  rw [List.getD_append _ _ _ _ (by omega)] at hword
  rw [← hword]
  exact congrArg (fun t : Tab Word => Tab.get (memReset (a + i)) t (a + i)) (foldl_putMeta_words _ _ _ _)

/-- Registers filled one after the other from a list. -/
theorem get_fillRegs (ws : List Word) (n j : Nat) :
    Tab.get 0 ((List.range n).foldl (fun g i => Tab.put 0 g i (ws.getD i 0)) []) j = if j < n then ws.getD j 0 else 0 := by
  induction n with
  | zero => rfl
  | succ n ih =>
    rw [List.range_succ, List.foldl_append, List.foldl_cons, List.foldl_nil]
    by_cases hj : j = n
    · rw [hj, Tab.get_put_same, if_pos (Nat.lt_succ_self n)]
    · rw [Tab.get_put_other _ _ _ _ hj, ih]
      by_cases hlt : j < n
      · rw [if_pos hlt, if_pos (by omega)]
      · rw [if_neg hlt, if_neg (by omega)]

theorem dword_dlo_dhi (d : DWord) : dword (dlo d) (dhi d) = d := by
  have hlt := d.isLt
  apply BitVec.eq_of_toNat_eq
  simp only [dword, dlo, dhi, BitVec.toNat_ofNat]
  omega

/-- A core restored from a saved context is the core that was saved, but for its task and its stack's limits (R122). -/
theorem restored_context (x : Core) (pc : Word) :
    let y := ({} : Core).restored (x.context pc)
    (∀ i < 16, Tab.get 0 y.g i = Tab.get 0 x.g i) ∧ y.acc = x.acc ∧ y.pc = pc ∧ y.ib = x.ib ∧ y.sb = x.sb ∧ y.sp = x.sp ∧
      y.fl = x.fl ∧ y.errc = x.errc := by
  refine ⟨fun i hi => ?_, dword_dlo_dhi x.acc, rfl, rfl, rfl, rfl, rfl, rfl⟩
  have hregs : (x.context pc).getD i 0 = Tab.get 0 x.g i := by
    rw [Core.context, List.getD_append _ _ _ _ (by simpa using hi)]
    simp [List.getD_eq_getElem?_getD, hi]
  exact (get_fillRegs (x.context pc) 16 i).trans ((if_pos hi).trans hregs)

end Sys2Proof.Machine
end

section
/-! SUPPORT. Image instructions: the entry and its checks, the latch of an input image, the publication of an output image
(R172 - R174, R215 - R219). -/

namespace Sys2Proof.Machine

/-! ### Writes where no line is disturbed -/

/-- No line of memory is disturbed. -/
def State.linesClean (s : State) : Prop := ∀ l, Tab.get {} s.mem.errs l = {}

theorem decode_linesClean {s : State} (h : s.linesClean) (l : Nat) : s.decode l = s := decode_clean (by rw [h]) (by rw [h])

theorem lineWrite_linesClean {s : State} (h : s.linesClean) (l mask : Nat) (data : List Word) (poison : Bool) (owner : BitVec 2) :
    (s.lineWrite l mask data poison owner).linesClean := fun j => by
  rw [lineWrite_errs (.inr (decode_linesClean h l))]
  split
  · rfl
  · exact h j

/-- A write changes the words that it names alone. -/
theorem spanWrite_word_other {s : State} (h : s.linesClean) (owner : BitVec 2) (poison : Bool) (fuel a : Nat) (ws : List Word) {b : Nat}
    (hb : b < a ∨ a + ws.length ≤ b) :
    (State.spanWrite owner poison fuel s a ws).word b = s.word b ∧ (State.spanWrite owner poison fuel s a ws).linesClean := by
  induction fuel generalizing s a ws with
  | zero => exact ⟨rfl, h⟩
  | succ n ih =>
    unfold State.spanWrite
    split
    · exact ⟨rfl, h⟩
    · extract_lets k m
      have hm : m = min (8 - a % 8) ws.length := rfl
      clear_value m
      have hdrop : (ws.drop m).length = ws.length - m := List.length_drop ..
      obtain ⟨hword, hclean⟩ := ih (lineWrite_linesClean h (a / 8) (maskOf k m) (List.replicate k 0 ++ ws.take m) poison owner) (a + m)
        (ws.drop m) (by omega)
      refine ⟨hword.trans ?_, hclean⟩
      have htake : (ws.take m).length = m := by rw [List.length_take]; omega
      have hstore := lineWrite_store_word (s := s) (a := a) (ws := ws.take m) poison owner (by omega) (.inr (decode_linesClean h _)) b
      rw [htake] at hstore
      exact hstore.trans (if_neg (by omega))

theorem agentWrite_word_other {s : State} (h : s.linesClean) (a : Nat) (ws : List Word) {b : Nat} (hb : b < a ∨ a + ws.length ≤ b) :
    (s.agentWrite a ws).word b = s.word b := (spanWrite_word_other h 1 false _ a ws hb).1

theorem agentWrite_linesClean {s : State} (h : s.linesClean) (a : Nat) (ws : List Word) : (s.agentWrite a ws).linesClean :=
  (spanWrite_word_other h 1 false _ a ws (b := a + ws.length) (.inr le_rfl)).2

/-- Two writes, the second after the first: the second stands whole, the first where the second does not reach, and beside both each word is
as before. -/
theorem agentWrites_word {s : State} (h : s.linesClean) (a b : Nat) (ws vs : List Word) :
    (∀ i < vs.length, ((s.agentWrite a ws).agentWrite b vs).word (b + i) = vs.getD i 0) ∧
    (∀ i < ws.length, a + i < b ∨ b + vs.length ≤ a + i → ((s.agentWrite a ws).agentWrite b vs).word (a + i) = ws.getD i 0) ∧
    ∀ j, j < a ∨ a + ws.length ≤ j → j < b ∨ b + vs.length ≤ j → ((s.agentWrite a ws).agentWrite b vs).word j = s.word j := by
  have hother := fun j => agentWrite_word_other (agentWrite_linesClean h a ws) b vs (b := j)
  exact ⟨fun i hi => agentWrite_word_written _ b vs hi, fun i hi hb => (hother _ hb).trans (agentWrite_word_written s a ws hi),
    fun j h1 h2 => (hother j h2).trans (agentWrite_word_other h a ws h1)⟩

/-! ### The entry and the points -/

section
variable {s : State} (herrs : s.mem.errs = [])
include herrs

theorem linesClean_of_errs : s.linesClean := fun l => by rw [herrs]; rfl

/-- The points of an image of which no map entry is poisoned are read, and nothing changes (R215, R216). -/
theorem points_state {g : Img} (h : s.anyPoison g.map (4 * g.npts) = false) : (s.points g).2 = s := by
  have hentry : ∀ i < g.npts, s.anyPoison (g.map + 4 * i) 4 = false := fun i hi => by
    simp only [State.anyPoison, List.any_eq_false, List.mem_range] at h ⊢
    intro j hj
    rw [Nat.add_assoc]
    exact h (4 * i + j) (by omega)
  have hforces : s.forcesMet.2 = s := decodes_clean herrs _ _
  unfold State.points
  simp only [decodes_clean herrs, hforces]
  refine List.foldlRecOn (motive := fun x : List Pt × State => x.2 = s) _ _ rfl fun x hx i hi => ?_
  obtain ⟨ps, u⟩ := x
  obtain rfl : u = s := hx
  simp [hentry i (List.mem_range.1 hi)]

/-- Address a lies in a window of task n, for a write if wr (R215, R217). -/
def State.inWindow (s : State) (n : Nat) (wr : Bool) (a : Nat) : Prop :=
  (targetOf a).isSome = true ∧ (List.range 4).any (windowOk (s.task n).desc wr a) = true

/-- The check of an entry that has TASK, DIR and windows as the instruction asks. -/
theorem imgCheck_ok {k i n : Nat} {output : Bool} (hk : k < 64) (ht : (s.core k).task = some n) (hn : n < 1024)
    (hp : s.anyPoison (imgEntry (n / 256) i) 16 = false) (hv : bit (s.img (n / 256) i).w0 24 = true)
    (hdir : bit (s.img (n / 256) i).w0 35 = output) (htask : fld (s.img (n / 256) i).w0 32 25 = n % 256)
    (hbuf : ∀ j < (s.img (n / 256) i).len, s.inWindow n false ((s.img (n / 256) i).buf + j))
    (hsb : output = false → s.inWindow n true (s.core k).sb.toNat ∧ s.inWindow n true ((s.core k).sb + 1).toNat) :
    s.imgCheck k i output = (some (s.img (n / 256) i), s) := by
  have hb : (List.range (s.img (n / 256) i).len).all (fun j => (targetOf ((s.img (n / 256) i).buf + j)).isSome &&
      (List.range 4).any (windowOk (s.task n).desc false ((s.img (n / 256) i).buf + j))) = true :=
    List.all_eq_true.2 fun j hj => Bool.and_eq_true_iff.2 (hbuf j (List.mem_range.1 hj))
  unfold State.imgCheck
  simp only [ht, decodes_clean herrs, hp, hv, hdir, htask, hb]
  rw [if_neg (by omega)]
  cases output with
  | true => simp
  | false =>
    obtain ⟨⟨h1, h2⟩, h3, h4⟩ := hsb rfl
    simp only [h1, h2, h3, h4, Bool.and_self, Bool.or_true, decide_true, if_true, Bool.false_eq_true, if_false]

end

/-! ### IMGIN (R173, R217) -/

/-- The reads of an image's cell points clear their fields; nothing else of the state changes (R15). -/
theorem regClears_step (ps : List Pt) (s : State) :
    RegisterStep s (ps.foldl (fun s p => s.regClear (fld p.src 19 0)) s) :=
  List.foldlRecOn (motive := RegisterStep s) _ _ (.refl s) fun t ht p _ => by
    have hp := regClear_step t (fld p.src 19 0)
    exact ⟨by rw [hp.same, ht.same], hp.mode.trans ht.mode⟩

/-- The latch: the header and the points in the buffer, the T72 at SB, the cycle in the register (R173). -/
theorem imgLatch_eq {s : State} (herrs : s.mem.errs = []) {g : Img} (hmap : s.anyPoison g.map (4 * g.npts) = false) (k d : Nat) :
    ∃ r flags ws, RegisterStep s r ∧ ws.length = g.len - 4 ∧ s.imgLatch k d g =
      ((r.agentWrite g.buf ([dlo s.t72, dhi s.t72, wd ((s.imgCycle g).getD 0), flags] ++ ws)).agentWrite (s.core k).sb.toNat
        [dlo s.t72, dhi s.t72]).setG k d (wd ((s.imgCycle g).getD 0)) := by
  have hpts := points_state herrs hmap
  unfold State.imgLatch
  generalize s.points g = x at hpts
  obtain ⟨ps, u⟩ := x
  obtain rfl : s = u := hpts.symm
  simp only
  generalize s.imgWords ps (s.imgCycle g) = y
  obtain ⟨words, su, he, fo⟩ := y
  have hr := regClears_step (ps.filter (fun p => p.kind = 1)) s
  have ht : ∀ r, RegisterStep s r → r.t72 = s.t72 := fun r h => by rw [h.same]; rfl
  have hw : ∀ r a ws, RegisterStep s r → (State.agentWrite r a ws).t72 = s.t72 ∧ (State.agentWrite r a ws).core k = s.core k :=
    fun r a ws h => by
      have hwrite := agentWrite_write r a ws
      exact ⟨(congrArg Machine.t72 hwrite.now).trans (ht r h), (congrArg (Tab.get ({} : Core) · k) hwrite.cores).trans (h.core k)⟩
  refine ⟨_, wd (b2n su + at_ (b2n he) 1 + at_ (b2n fo) 2), (List.range (g.len - 4)).map (fun j => Tab.get 0 words (4 + j)), hr,
    by simp, ?_⟩
  obtain ⟨hnow, hcore⟩ := hw _ g.buf ([dlo s.t72, dhi s.t72, wd ((s.imgCycle g).getD 0), wd (b2n su + at_ (b2n he) 1 + at_ (b2n fo) 2)] ++
    (List.range (g.len - 4)).map (fun j => Tab.get 0 words (4 + j))) hr
  simp only [ht _ hr, hnow, hcore]

/-! ### The instructions -/

/-- An image instruction with its fields in range. -/
theorem img_fields {f : CF} (ha : f.a = 0) (hsel : f.sel.toNat < 64) :
    (f.a != 0 || f.sel.toNat / 64 != 0) = false ∧ f.sel.toNat % 64 = f.sel.toNat := by
  refine ⟨?_, Nat.mod_eq_of_lt hsel⟩
  simp [ha, Nat.div_eq_of_lt hsel]

section
variable {c : CoreId} {f : CF} {s : State} (h : requestReady c s = true)
include h

/-- A request that goes on at the next word. -/
theorem runInstr_request_next {w : Word} {bad : Bool} {body : Nat → State → Res} {t : State} (hb : bad = false)
    (he : body (coreKey c) s = .next t) :
    runInstr c w bad body s = .next (t.advance (coreKey c) ((s.core (coreKey c)).pc + 1)) := by
  obtain ⟨hready, htwin⟩ := (requestReady_iff c s).1 h
  rw [runInstr_ready hready hb (.inr htwin), he]
  rfl

/-- A request that faults, in the state that its checks have left. -/
theorem runInstr_request_flt {w : Word} {bad : Bool} {body : Nat → State → Res} {u : State} {code : Nat} {a : Word} (hb : bad = false)
    (he : body (coreKey c) s = .flt code a u) : runInstr c w bad body s = .next (u.takeFault (coreKey c) code a w) := by
  obtain ⟨hready, htwin⟩ := (requestReady_iff c s).1 h
  rw [runInstr_ready hready hb (.inr htwin), he]
  rfl

theorem imgTwins_alone (w : Word) (i d : Nat) (act : Nat → Nat → Nat → State → Res) :
    imgTwins w i d act (coreKey c) s = act (coreKey c) i d s := by
  rw [imgTwins, ((requestReady_iff c s).1 h).2]

variable (ha : f.a = 0) (hsel : f.sel.toNat < 64)
include ha hsel

/-- IMGIN of an entry that fails its check (R215). -/
theorem imgin_faults {u : State} (hc : s.imgCheck (coreKey c) f.sel.toNat false = (none, u)) :
    exec (.imgin c f) s = .next (u.takeFault (coreKey c) 0x08 (wd f.sel.toNat) (encC 0x70 f)) := by
  obtain ⟨hbad, hmod⟩ := img_fields ha hsel
  show execImgin c f s = _
  unfold execImgin
  refine runInstr_request_flt h hbad ((imgTwins_alone h ..).trans ?_)
  rw [imgIn, hmod, hc]

/-- IMGOUT of an entry that fails its check (R215). -/
theorem imgout_faults {u : State} (hc : s.imgCheck (coreKey c) f.sel.toNat true = (none, u)) :
    exec (.imgout c f) s = .next (u.takeFault (coreKey c) 0x08 (wd f.sel.toNat) (encC 0x71 f)) := by
  obtain ⟨hbad, hmod⟩ := img_fields ha hsel
  show execImgout c f s = _
  unfold execImgout
  refine runInstr_request_flt h hbad ((imgTwins_alone h ..).trans ?_)
  rw [imgOut, hmod, hc]

theorem imgin_latches {g : Img} (hc : s.imgCheck (coreKey c) f.sel.toNat false = (some g, s)) :
    exec (.imgin c f) s =
      .next ((s.imgLatch (coreKey c) f.d.toNat g).advance (coreKey c) ((s.core (coreKey c)).pc + 1)) := by
  obtain ⟨hbad, hmod⟩ := img_fields ha hsel
  show execImgin c f s = _
  unfold execImgin
  refine runInstr_request_next h hbad ((imgTwins_alone h ..).trans ?_)
  rw [imgIn, hmod, hc]

theorem imgout_publishes {g : Img} (hc : s.imgCheck (coreKey c) f.sel.toNat true = (some g, s)) :
    exec (.imgout c f) s =
      .next ((s.imgPublish (coreKey c) f.d.toNat g true).advance (coreKey c) ((s.core (coreKey c)).pc + 1)) := by
  obtain ⟨hbad, hmod⟩ := img_fields ha hsel
  show execImgout c f s = _
  unfold execImgout
  refine runInstr_request_next h hbad ((imgTwins_alone h ..).trans ?_)
  simp only [imgOut, hmod, hc, ((requestReady_iff c s).1 h).2]
  rfl

end

/-- The state after IMGIN (R173, R217): the header, the T72 at SB, and the frame. -/
structure Latched (s u : State) (k : Nat) (x : Core) (g : Img) (sb : Nat) : Prop where
  core : u.core k = x
  others : ∀ j, j ≠ k → u.core j = s.core j
  tasks : u.tasks = s.tasks
  lanes : u.lanes = s.lanes
  axes : u.axes = s.axes
  rings : u.rings = s.rings
  t72 : u.word g.buf = dlo s.t72 ∧ u.word (g.buf + 1) = dhi s.t72 ∧ u.word (g.buf + 2) = wd ((s.imgCycle g).getD 0)
  stamp : u.word sb = dlo s.t72 ∧ u.word (sb + 1) = dhi s.t72
  frame : ∀ b, b < g.buf ∨ g.buf + max 4 g.len ≤ b → b < sb ∨ sb + 2 ≤ b → u.word b = s.word b

/-- The end of an instruction of a tile whose task's watchdog has not expired. -/
theorem advance_tile {t : State} {k : Nat} (hk : k < 64) (pc : Word)
    (hw : ∀ n, (t.core k).task = some n → (t.task n).wdog = false) : t.advance k pc = t.setCore k { t.core k with pc := pc } := by
  have hcount (u : State) : u.programCount k = u := by
    unfold State.programCount
    split
    · rfl
    · exact if_pos (by simp; omega)
  rw [State.advance, hcount]
  exact watchdogBoundary_within fun n hn => hw n (by simpa using hn)

theorem imgLatch_latched {s : State} {k : Nat} (hk : k < 64) (hwdog : ∀ n, (s.core k).task = some n → (s.task n).wdog = false)
    (herrs : s.mem.errs = []) {g : Img} (hmap : s.anyPoison g.map (4 * g.npts) = false) (d : Nat)
    (hsb : (s.core k).sb.toNat + 2 ≤ g.buf ∨ g.buf + 4 ≤ (s.core k).sb.toNat) :
    Latched s ((s.imgLatch k d g).advance k ((s.core k).pc + 1)) k (s.afterR k d (wd ((s.imgCycle g).getD 0))) g
      (s.core k).sb.toNat := by
  obtain ⟨r, flags, ws, hr, hlen, he⟩ := imgLatch_eq herrs hmap k d
  rw [he]
  set v := (s.imgCycle g).getD 0
  set ws' := [dlo s.t72, dhi s.t72, wd v, flags] ++ ws with hws
  have hlen' : ws'.length = 4 + (g.len - 4) := by rw [hws, List.length_append, hlen]; rfl
  set sb := (s.core k).sb.toNat
  set t := (r.agentWrite g.buf ws').agentWrite sb [dlo s.t72, dhi s.t72] with ht
  have hrt : WriteStep r t := (agentWrite_write ..).trans (agentWrite_write ..)
  have hsame : t = { s with
      mem := t.mem, regs := t.regs, free := t.free, evr := t.evr, peer := { s.peer with dirty := t.peer.dirty }
      coords := t.coords, orders := t.orders } := by rw [hrt.same, hr.same]
  have hcores : t.cores = s.cores := by rw [hsame]
  have hcore : ∀ j, t.core j = s.core j := fun j => congrArg (Tab.get ({} : Core) · j) hcores
  have htasks : t.tasks = s.tasks := by rw [hsame]
  have hend : ∀ n, ((t.setG k d (wd v)).core k).task = some n → (t.task n).wdog = false := fun n hn => by
    rw [setG_eq, core_setCore, hcore] at hn
    exact (congrArg (fun x => (Tab.get ({} : Task) x n).wdog) htasks).trans (hwdog n hn)
  rw [advance_tile hk _ hend, setG_eq, core_setCore, setCore_setCore, hcore]
  have hclean : r.linesClean := by
    have hmem : r.mem = s.mem := by rw [hr.same]
    intro l
    rw [hmem]
    exact linesClean_of_errs herrs l
  obtain ⟨hstamp, hbuf, hother⟩ := agentWrites_word hclean g.buf sb ws' [dlo s.t72, dhi s.t72]
  rw [← ht] at hstamp hbuf hother
  have hhdr : ∀ i < 3, t.word (g.buf + i) = ws'.getD i 0 := fun i hi =>
    hbuf i (by omega) (by rw [show [dlo s.t72, dhi s.t72].length = 2 from rfl]; omega)
  have hword : ∀ b, r.word b = s.word b := fun b => by rw [hr.same]; rfl
  clear_value t sb
  refine ⟨core_setCore .., fun j hj => ?_, htasks, ?_, ?_, ?_, ⟨hhdr 0 (by decide), hhdr 1 (by decide), hhdr 2 (by decide)⟩,
    ⟨hstamp 0 Nat.two_pos, hstamp 1 Nat.one_lt_two⟩, fun b h1 h2 => (hother b (by omega) h2).trans (hword b)⟩
  · exact (setCore_core_ne _ _ _ _ hj).trans (hcore j)
  · show t.lanes = s.lanes
    rw [hsame]
  · show t.axes = s.axes
    rw [hsame]
  · show t.rings = s.rings
    rw [hsame]

end Sys2Proof.Machine
end

section
/-! SUPPORT. What the publication of an output image leaves as it is: the lanes, the axes and the registers of the core that publishes
(R44, R174). -/

namespace Sys2Proof.Machine

/-- The lanes, the axes and the tasks' watchdogs, and of core k the general registers, the pc and the task. -/
def State.pubView (k : Nat) (s : State) : (Tab Lane × Tab Axis × (Nat → Bool)) × Tab Word × Word × Option Nat :=
  (s.unitView, (s.core k).g, (s.core k).pc, (s.core k).task)

theorem pubView_of {s t : State} (hu : t.unitView = s.unitView) (hc : t.cores = s.cores) (k : Nat) : t.pubView k = s.pubView k := by
  have hcore : t.core k = s.core k := congrArg (Tab.get ({} : Core) · k) hc
  rw [State.pubView, hu, hcore]
  rfl

theorem WriteStep.pubView {s t : State} (h : WriteStep s t) (k : Nat) : t.pubView k = s.pubView k := pubView_of h.log.unitView h.cores k

section
variable (s : State) (k : Nat)

/-! ### Orders that lose (R44, R45) -/

theorem noteConflict_pubView (x : Conflict) : (s.noteConflict x).pubView k = s.pubView k := by
  unfold State.noteConflict
  split
  · rfl
  · exact ((agentWrite_write ..).trans (incReg_write ..)).pubView k

theorem cueLost_pubView (c : Option Nat) : (s.cueLost c).pubView k = s.pubView k := by
  cases c <;> rfl

/-- Another core learns of its loss. -/
theorem tellCore_pubView {j : Nat} (h : j ≠ k) (gd : Option Nat) : (s.tellCore j gd).pubView k = s.pubView k := by
  have hrefuse (t : State) : (t.refuse j 1).pubView k = t.pubView k := by
    rw [State.pubView, State.refuse, setCore_core_ne _ _ _ _ h.symm]
    rfl
  cases gd with
  | none => exact hrefuse s
  | some d =>
    rw [State.tellCore, State.pubView, setG_eq, setCore_core_ne _ _ _ _ h.symm]
    exact hrefuse s

/-- A core whose order names no register keeps its registers when it loses. -/
theorem refuse_pubView (code : Nat) : (s.refuse k code).pubView k = s.pubView k := by
  rw [State.pubView, State.refuse, setCore_core]
  rfl

theorem amendResponse_pubView (r : Option Nat) : (s.amendResponse r).pubView k = s.pubView k := by
  cases r with
  | none => rfl
  | some n => exact (agentWrite_write ..).pubView k

/-- The loser is told: another source, or the tile itself by E and ERRC alone. -/
theorem tellLoser_pubView (hk : k < 64) (o : Order) (h : o.src = .tile k → o.gd = none) : (s.tellLoser o).pubView k = s.pubView k := by
  unfold State.tellLoser
  split
  next t hsrc =>
    by_cases ht : t = k
    · subst ht
      rw [h hsrc]
      exact refuse_pubView s t 1
    · exact tellCore_pubView s k ht _
  · exact tellCore_pubView s k (by omega) _
  · split
    · exact tellCore_pubView s k (by omega) _
    · exact amendResponse_pubView s k _
  · rfl

theorem orderLost_pubView (hk : k < 64) (w l : Order) (h : l.src = .tile k → l.gd = none) : (s.orderLost w l).pubView k = s.pubView k :=
  (tellLoser_pubView _ k hk l h).trans ((cueLost_pubView ..).trans (noteConflict_pubView ..))

/-- An order of tile k to a cell or the band, which names no register and no cue (R43, R44). -/
theorem rankOrder_pubView (hk : k < 64) {o : Order} (hkind : o.kind = 4) (hsrc : o.src = .tile k) (hcue : o.cue = none) (hgd : o.gd = none) :
    (s.rankOrder o).2.pubView k = s.pubView k := by
  unfold State.rankOrder
  split
  · exact orderLost_pubView s k hk _ o fun _ => hgd
  · have hrival : ∀ x, o.against x = true → x.src = .tile k → x.gd = none := fun x hx hs => by
      simp [Order.against, hsrc, hs, hcue] at hx
    refine Eq.trans (b := ((s.orders.filter o.against).foldl (fun t x => t.orderLost o x) (s.beforeRivals o)).pubView k) rfl ?_
    rw [beforeRivals_cell s hkind]
    exact List.foldlRecOn (motive := fun t => State.pubView k t = s.pubView k) _ _ rfl fun t ht x hx =>
      (orderLost_pubView t k hk o x (hrival x (List.mem_filter.1 hx).2)).trans ht

/-! ### The points -/

theorem storeCell_pubView (o : Nat) (v : Word) : (s.storeCell o v).pubView k = s.pubView k :=
  pubView_of (storeCell_unitView ..) (congrArg (fun x => x.2.1) (storeCell_clockView ..)) k

/-- An order of a tile to a cell. -/
theorem orderCell_pubView (hk : k < 64) (o : Nat) (v : Word) (code : Nat) :
    (s.orderCell o v (.tile k) code).2.pubView k = s.pubView k := by
  have hr := rankOrder_pubView s k hk (o := { kind := 4, idx := o, value := s36 v, src := .tile k, code := code }) rfl rfl rfl rfl
  unfold State.orderCell
  generalize s.rankOrder _ = x at hr ⊢
  obtain ⟨won, u⟩ := x
  simp only
  split
  · exact (storeCell_pubView ..).trans hr
  · exact hr

/-- One point of an output image. -/
theorem imgOrder_pubView (hk : k < 64) (p : Pt) (v : Nat) : (s.imgOrder k p v).pubView k = s.pubView k := by
  have hsrc : coreSrc k = .tile k := if_pos hk
  have hr := rankOrder_pubView s k hk (o := { kind := 4, idx := p.target, value := v, src := .tile k, code := 0x71 }) rfl rfl rfl rfl
  unfold State.imgOrder
  simp only [hsrc]
  split
  · exact orderCell_pubView s k hk ..
  · split
    · split
      · exact hr
      · exact hr
    · split
      · exact hr
      · exact hr
    · rfl

theorem passBuf_pubView (b len use_ vec : Nat) (bad : Bool) : (s.passBuf b len use_ vec bad).pubView k = s.pubView k := by
  unfold State.passBuf
  split
  · rfl
  · have hread := agentRead_write s (s.bufAddr b) len
    generalize s.agentRead (s.bufAddr b) len = x at hread
    obtain ⟨ws, p, t⟩ := x
    have hmsix (u : State) : (u.msix vec).pubView k = u.pubView k := by
      rw [msix_eq]
      rfl
    refine (hmsix _).trans (WriteStep.pubView ?_ k)
    exact ((hread.trans (agentWrite_write ..)).trans (agentWord_write ..)).trans (agentWord_write ..)

/-- The exchange's report (R242). -/
theorem reportWrites_pubView (vals : List (Pt × Nat)) : (s.reportWrites vals).pubView k = s.pubView k := by
  unfold State.reportWrites
  extract_lets ws u left w
  have hu : u.pubView k = s.pubView k := foldl_view (v := State.pubView k) (fun t e => by
    split
    · rfl
    · exact (agentWord_write ..).pubView k) ws s
  split
  · rfl
  · split
    · exact (passBuf_pubView ..).trans hu
    · exact hu

/-! ### IMGOUT (R174) -/

/-- The publication: the points go out, and then the header stands in the buffer and the cycle in the register. -/
theorem imgPublish_eq {s : State} {k : Nat} (hk : k < 64) (herrs : s.mem.errs = []) {g : Img}
    (hmap : s.anyPoison g.map (4 * g.npts) = false) (d : Nat) :
    ∃ (t : State) (flags : Word), t.pubView k = s.pubView k ∧ s.imgPublish k d g true =
      (t.agentWrite g.buf [dlo s.t72, dhi s.t72, wd (s.outCycle g), flags]).setG k d (wd (s.outCycle g)) := by
  have hpts := points_state herrs hmap
  unfold State.imgPublish
  generalize s.points g = x at hpts
  obtain ⟨ps, u⟩ := x
  obtain rfl : s = u := hpts.symm
  have hdec : (ps.map (fun p => (g.buf + p.word) / 8)).eraseDups.foldl State.decode s = s :=
    List.foldlRecOn (motive := fun t => t = s) _ _ rfl fun t ht l _ => by rw [ht, decode_linesClean (linesClean_of_errs herrs)]
  simp only [hdec, if_true]
  refine ⟨_, _, ?_, rfl⟩
  refine (reportWrites_pubView ..).trans (foldl_view (v := State.pubView k) (fun t (v : Pt × Nat) => imgOrder_pubView t k hk v.1 v.2) _ s)

end

/-- IMGOUT's core goes on with the cycle in its register, and the header of R217 stands in the buffer. -/
theorem imgPublish_advance {s : State} {k : Nat} (hk : k < 64) (hwdog : ∀ n, (s.core k).task = some n → (s.task n).wdog = false)
    (herrs : s.mem.errs = []) {g : Img} (hmap : s.anyPoison g.map (4 * g.npts) = false) (d : Nat) :
    let u := (s.imgPublish k d g true).advance k ((s.core k).pc + 1)
    u.lanes = s.lanes ∧ u.axes = s.axes ∧ u.g k d = wd (s.outCycle g) ∧ (∀ j, j ≠ d → u.g k j = s.g k j) ∧
      (u.core k).pc = (s.core k).pc + 1 ∧
      u.word g.buf = dlo s.t72 ∧ u.word (g.buf + 1) = dhi s.t72 ∧ u.word (g.buf + 2) = wd (s.outCycle g) := by
  obtain ⟨t, flags, hview, he⟩ := imgPublish_eq hk herrs hmap d
  have hwords : ∀ i < 4, (t.agentWrite g.buf [dlo s.t72, dhi s.t72, wd (s.outCycle g), flags]).word (g.buf + i) =
      [dlo s.t72, dhi s.t72, wd (s.outCycle g), flags].getD i 0 := fun i hi => agentWrite_word_written _ _ _ hi
  have hv := ((agentWrite_write t g.buf [dlo s.t72, dhi s.t72, wd (s.outCycle g), flags]).pubView k).trans hview
  rw [he]
  generalize t.agentWrite g.buf [dlo s.t72, dhi s.t72, wd (s.outCycle g), flags] = v at hwords hv
  obtain ⟨⟨hlanes, haxes, hwd⟩, hg, -, htask⟩ :
      (v.lanes = s.lanes ∧ v.axes = s.axes ∧ (fun n => (v.task n).wdog) = fun n => (s.task n).wdog) ∧
      (v.core k).g = (s.core k).g ∧ (v.core k).pc = (s.core k).pc ∧ (v.core k).task = (s.core k).task := by
    simpa [State.pubView, State.unitView] using hv
  have hend : ∀ n, ((v.setG k d (wd (s.outCycle g))).core k).task = some n → (v.task n).wdog = false := fun n hn => by
    rw [setG_eq, core_setCore, htask] at hn
    exact (congrFun hwd n).trans (hwdog n hn)
  rw [advance_tile hk _ hend]
  simp only [setG_eq, core_setCore, setCore_setCore]
  refine ⟨hlanes, haxes, ?_, fun j hj => ?_, trivial, hwords 0 (by decide), hwords 1 (by decide), hwords 2 (by decide)⟩
  · simp [State.g]
  · simp only [State.g, core_setCore]
    rw [Tab.get_put_other _ _ _ _ hj, hg]

/-- Settles O17: a context is written by one write of line memory; IMGIN and IMGOUT by their check, the points,
and the words they write last. -/
theorem contextsAndImages : Obligations.ContextsAndImages := by
  unfold Obligations.ContextsAndImages
  refine ⟨⟨fun s k n pc i hi => saveContext_word s k n pc hi, restored_context⟩, fun c f s h ha hsel => ?_⟩
  intro k i kept
  refine ⟨fun n hk ht hn herrs => ?_, fun u hc => imgin_faults h ha hsel hc, fun u hc => imgout_faults h ha hsel hc⟩
  intro g inWin sb hentry hmap hvalid htask hbuf
  have hwdog : ∀ m, (s.core k).task = some m → (s.task m).wdog = false := fun m => wdog_of_ready ((requestReady_iff c s).1 h).1
  refine ⟨fun hdir h0 h1 hsep => ?_, fun hdir => ?_⟩
  · have hnext : ((s.core k).sb + 1).toNat = sb + 1 := by
      have hlt := (s.core k).sb.isLt
      obtain ⟨t, htarget⟩ := Option.isSome_iff_exists.1 h1.1
      have hend := (targetOf_range htarget).2
      rw [BitVec.toNat_add, show (1 : Word).toNat = 1 from rfl]
      exact Nat.mod_eq_of_lt (by omega)
    have hc : s.imgCheck k i false = (some g, s) := imgCheck_ok herrs hk ht hn hentry hvalid hdir htask hbuf fun _ => ⟨h0, hnext ▸ h1⟩
    have hl := imgLatch_latched hk hwdog herrs hmap f.d.toNat hsep
    exact ⟨_, imgin_latches h ha hsel hc, ⟨hl.others, hl.tasks, hl.lanes, hl.axes⟩, hl.rings, hl.core, hl.t72.1, hl.t72.2.1, hl.t72.2.2,
      hl.stamp.1, hl.stamp.2, hl.frame⟩
  · have hc : s.imgCheck k i true = (some g, s) := imgCheck_ok herrs hk ht hn hentry hvalid hdir htask hbuf fun h => absurd h (by decide)
    exact ⟨_, imgout_publishes h ha hsel hc, imgPublish_advance hk hwdog herrs hmap f.d.toNat⟩

end Sys2Proof.Machine
end

section
/-! SUPPORT. Any number of words that a core reaches, and privileged instructions: who may run them, and how they end
(R58, R116, R138, R139, R197). -/

namespace Sys2Proof.Machine

/-! ### Any number of words -/

/-- Words that core k may reach follow each other: none lies at the end of the address space. -/
theorem mayReach_run {s : State} {k n : Nat} {wr : Bool} {a : Word} (h : s.mayReach k wr a n = true) :
    ∀ i < n, (a + wd i).toNat = a.toNat + i ∧ s.access k wr true (a.toNat + i) = .ok ∧ s.wordClean k (a.toNat + i) = true := by
  have hall : ∀ i < n, s.access k wr true (a + wd i).toNat = .ok ∧ s.wordClean k (a + wd i).toNat = true := fun i hi => by
    simpa using List.all_eq_true.1 h i (List.mem_range.2 hi)
  have ha := a.isLt
  have haddr : ∀ i < n, (a + wd i).toNat = a.toNat + i := fun i => by
    induction i with
    | zero => intro _; simp [wd]
    | succ i ih =>
      intro hi
      have hlt := wordClean_lt (hall i (by omega)).2
      rw [ih (by omega)] at hlt
      rw [BitVec.toNat_add, wd, BitVec.toNat_ofNat]
      omega
  intro i hi
  rw [← haddr i hi]
  exact ⟨rfl, hall i hi⟩

/-- Registers lie in no memory, so that an instruction that may not read them reaches clean words all the same. -/
theorem access_noRegs {s : State} {k a : Nat} {wr : Bool} (r : Bool) (h : s.wordClean k a = true) :
    s.access k wr r a = s.access k wr true a := by
  have hregs : inRegs a = false := by
    by_cases ha : a < 0x10000
    · have hbase : ¬Config.sysBase ≤ a := by
        rw [show Config.sysBase = 0x100000 from rfl]
        omega
      simp [inRegs, hbase]
    · obtain ⟨t, ht, -⟩ := (wordClean_direct ha).1 h
      exact inRegs_of_targetOf ht
  simp only [State.access, hregs, Bool.false_eq_true, if_false]

theorem accessN_run {s : State} {k n : Nat} {wr : Bool} {a : Word} (r : Bool) (h : s.mayReach k wr a n = true) :
    s.accessN k wr r a n = .ok := accessN_ok fun i hi => by
  obtain ⟨he, hok, hc⟩ := mayReach_run h i hi
  rw [he, access_noRegs r hc, hok]

/-- Words read for an instruction, without fault, refusal or poison. -/
theorem consume_run {s : State} {k n : Nat} {a : Word} (r : Bool) (h : s.mayReach k false a n = true) (f : List Word → State → Res) :
    consume s k r a n f = f ((List.range n).map (fun i => s.wordAt k (a + wd i).toNat)) s := by
  have hw := mayReach_run h
  have hws : (List.range n).map (fun i => s.wordAt k (a + wd i).toNat) = (List.range n).map (fun i => s.wordAt k (a.toNat + i)) :=
    List.map_congr_left fun i hi => by rw [(hw i (List.mem_range.1 hi)).1]
  rw [consume, accessN_run r h, hws]
  simp only [readN_clean n le_rfl fun i hi => (hw i hi).2.2, Bool.false_eq_true, if_false]

/-- Words stored for an instruction, without fault or refusal. -/
theorem emit_run {s : State} {k : Nat} {a : Word} {ws : List Word} (h : s.mayReach k true a ws.length = true) :
    ∃ t, Wrote s t k a.toNat ws ∧ ∀ f, emit s k a ws f = f t := by
  refine ⟨_, writeN_wrote ws.length le_rfl fun i hi => (mayReach_run h i hi).2.2, fun f => ?_⟩
  rw [emit, accessN_run false h]

/-! ### Privileged instructions (R138, R139, R197) -/

/-- The end of an instruction that keeps its core's task, the watchdogs and the host window. -/
theorem advance_kept {c : CoreId} {s t : State} (h : coreReady c s = true) (pc : Word)
    (htask : (t.core (coreKey c)).task = (s.core (coreKey c)).task) (hwdog : ∀ n, (t.task n).wdog = (s.task n).wdog)
    (hhost : t.host = s.host) : t.advance (coreKey c) pc = t.instrEnd (coreKey c) { t.core (coreKey c) with pc := pc } := by
  obtain ⟨-, -, -, hexpired, hprog⟩ := (coreReady_iff c s).1 h
  generalize coreKey c = k at *
  have hcount : (t.setCore k { t.core k with pc := pc }).programCount k = t.instrEnd k { t.core k with pc := pc } :=
    programCount_within fun hk p (hp : t.host.prog = some p) => hprog hk p (by rw [← hhost, hp])
  rw [State.advance, hcount]
  refine watchdogBoundary_within fun n hn => ?_
  rw [core_instrEnd] at hn
  exact (hwdog n).trans (hexpired n (by rw [← htask]; exact hn))

theorem instrEnd_setCore (t : State) (k : Nat) (x y : Core) : (t.setCore k x).instrEnd k y = t.instrEnd k y := by
  simp only [State.instrEnd, State.setCore, Tab.put_put]

section
variable {c : CoreId} {w : Word} {bad comm : Bool} {body : Nat → State → Res} {s : State} (h : requestReady c s = true) (hb : bad = false)
include h hb

/-- A privileged instruction on a core that may not run it (R138, R139). -/
theorem privileged_faults (hk : coreKey c < 64 ∨ comm = true ∧ coreKey c = 65) :
    privileged c w bad comm body s = .next (s.takeFault (coreKey c) 5 0 w) := by
  refine runInstr_request_flt h hb (if_pos ?_)
  rcases hk with hk | ⟨hc, hk⟩
  · simp [hk]
  · simp [hc, hk]

variable (hk : 64 ≤ coreKey c) (hcomm : comm = true → coreKey c = 64)
include hk hcomm

/-- Core k may run the instruction, and comes to its body. -/
theorem privileged_next {t : State} (he : body (coreKey c) s = .next t) :
    privileged c w bad comm body s = .next (t.advance (coreKey c) ((s.core (coreKey c)).pc + 1)) := by
  refine runInstr_request_next h hb ((if_neg ?_).trans he)
  cases comm with
  | false => simpa using hk
  | true => simp [hcomm rfl]

/-- An instruction that is accepted: v is what it has done, and r the word in its register. -/
theorem privileged_accepts {v : State} {d : Nat} {r : Word} (he : body (coreKey c) s = .next (v.setG (coreKey c) d r))
    (hcores : v.cores = s.cores) (hwdog : ∀ n, (v.task n).wdog = (s.task n).wdog) (hhost : v.host = s.host) :
    privileged c w bad comm body s = .next (v.instrEnd (coreKey c) (s.afterR (coreKey c) d r)) := by
  have hcore : v.core (coreKey c) = s.core (coreKey c) := congrArg (Tab.get ({} : Core) · (coreKey c)) hcores
  rw [privileged_next h hb hk hcomm he, advance_kept ((requestReady_iff c s).1 h).1 (t := v.setG (coreKey c) d r) _ ?_ hwdog hhost,
    setG_eq, core_setCore, instrEnd_setCore, hcore]
  · rfl
  · rw [setG_eq, core_setCore, hcore]

/-- A refusal, with its result code and E (R197). -/
theorem privileged_refuses {d res : Nat} (he : body (coreKey c) s = .next (s.result (coreKey c) d res)) (hres : res ≠ 0) :
    privileged c w bad comm body s = .next (s.instrEnd (coreKey c) { s.afterR (coreKey c) d (wd res) with
      fl := setBit (s.core (coreKey c)).fl 5 true, errc := setFld (s.core (coreKey c)).errc 15 8 (refuseOf res) }) := by
  rw [State.result, if_neg hres] at he
  rw [privileged_next h hb hk hcomm he, advance_kept ((requestReady_iff c s).1 h).1
    (t := (s.refuse (coreKey c) (refuseOf res)).setG (coreKey c) d (wd res)) _ ?_ (fun _ => rfl) rfl]
  · simp only [setG_eq, State.refuse, core_setCore, instrEnd_setCore]
    rfl
  · simp only [setG_eq, State.refuse, core_setCore]

end

end Sys2Proof.Machine
end

section
/-! SUPPORT. The privileged instructions on cores and in modes that refuse them, and those that assign owners, classes and tasks
(R17, R138, R139, R196, R199, R212). -/

namespace Sys2Proof.Machine

/-- In the modes of commissioning an instruction comes to its work. -/
theorem commissioning_body {s : State} (hcomm : s.mode = 2 ∨ s.mode = 3) (t u : Res) : (if !s.commissioning then t else u) = u :=
  if_neg (by rcases hcomm with hm | hm <;> simp [State.commissioning, hm])

theorem classMask_iff (w : Word) : (fld w 35 16 != 0) = false ↔ w.toNat < 2 ^ 16 := by
  have hlt := w.isLt
  simp only [fld, fldN, bne_eq_false_iff_eq]
  omega

theorem putDesc_task (t : State) (n : Nat) (ws : List Word) : (t.putDesc n ws).task n =
    if fld (ws.getD 0 0) 35 34 = 0 then { t.task n with desc := [], st := .unused }
    else { t.task n with desc := ws, st := if (t.task n).st = .unused then .idle else (t.task n).st } := by
  unfold State.putDesc
  split <;> exact setTask_task ..

theorem putDesc_task_ne (t : State) {n m : Nat} (ws : List Word) (h : m ≠ n) : (t.putDesc n ws).task m = t.task m := by
  unfold State.putDesc
  split <;> exact setTask_task_ne _ _ _ _ h

theorem putDesc_eq (t : State) (n : Nat) (ws : List Word) : t.putDesc n ws = { t with tasks := (t.putDesc n ws).tasks } := by
  unfold State.putDesc
  split <;> rfl

/-- The task that the SEL field of TASKSET names (R200). -/
theorem taskset_task {n : Nat} (hn : n < 2048) (hc : n < 1024 ∨ n / 64 % 16 = 0) :
    (n.testBit 10 && n / 64 % 16 != 0) = false ∧
      (if n.testBit 10 then 1024 + n % 64 else n % 1024) = if n < 1024 then n else 1024 + n % 64 := by
  have hbit : n.testBit 10 = decide (1024 ≤ n) := by
    rw [Nat.testBit_eq_decide_div_mod_eq]
    apply decide_eq_decide.2
    omega
  rw [hbit]
  by_cases hlt : n < 1024
  · simp [show ¬1024 ≤ n by omega, hlt, Nat.mod_eq_of_lt]
  · simp [show 1024 ≤ n by omega, hlt, hc.resolve_left hlt]

/-- TASKSET comes to the check of the descriptor that it has read (R199). -/
theorem taskset_body {c : CoreId} {f : CF} {s : State} (hcomm : s.mode = 2 ∨ s.mode = 3) {ws : List Word}
    (hws : ws = (List.range 16).map (fun i => s.wordAt (coreKey c) (s.g (coreKey c) f.a.toNat + wd i).toNat))
    (hn : f.sel.toNat < 2048) (hr : s.mayReach (coreKey c) false (s.g (coreKey c) f.a.toNat) 16 = true)
    (hc : f.sel.toNat < 1024 ∨ f.sel.toNat / 64 % 16 = 0) :
    ∃ body, exec (.taskset c f) s = privileged c (encC 0xF5 f) (f.sel.toNat / 2 ^ 11 != 0) true body s ∧
      body (coreKey c) s =
        let (res, t) := s.taskSet (if f.sel.toNat < 1024 then f.sel.toNat else 1024 + f.sel.toNat % 64) ws
        .next (t.result (coreKey c) f.d.toNat res) := by
  obtain ⟨hfield, hname⟩ := taskset_task hn hc
  refine ⟨_, show execTaskset c f s = _ from rfl, ?_⟩
  simp only [commissioning_body hcomm, consume_run false hr, hfield, hname, ← hws, Bool.false_eq_true, if_false]

section
variable {c : CoreId} {f : CF} {s : State} (h : requestReady c s = true)
include h

/-! ### Who may run them -/

/-- The privileged instructions on a tile (R138). -/
theorem privileged_onTile (hsel : f.sel = 0) (hk : coreKey c < 64) :
    Faults (.mode c f) c (encC 0xF0 f) s 5 0 ∧ Faults (.forceSet c f) c (encC 0xF1 f) s 5 0 ∧
      Faults (.forceRelease c f) c (encC 0xF1 f) s 5 0 ∧ Faults (.forceReleaseAll c f) c (encC 0xF1 f) s 5 0 ∧
      Faults (.censusCopy c f) c (encC 0xF2 f) s 5 0 ∧
      Faults (.censusExtraCheck c { f with sel := 1 }) c (encC 0xF2 { f with sel := 1 }) s 5 0 := by
  have hbad : (f.sel != 0) = false := by simp [hsel]
  refine ⟨?_, ?_, ?_, ?_, ?_, ?_⟩
  · show execMode c f s = _
    exact privileged_faults h hbad (.inl hk)
  · show forceInstr c f 0 s = _
    unfold forceInstr
    exact privileged_faults h hbad (.inl hk)
  · show forceInstr c f 1 s = _
    unfold forceInstr
    exact privileged_faults h hbad (.inl hk)
  · show forceInstr c f 2 s = _
    unfold forceInstr
    exact privileged_faults h hbad (.inl hk)
  · show execCensusCopy c f s = _
    exact privileged_faults h (by simp [hsel]) (.inl hk)
  · show execCensusExtraCheck c { f with sel := 1 } s = _
    exact privileged_faults h (show ((1 : BitVec 20).toNat / 2 != 0) = false by decide) (.inl hk)

/-- The commissioning instructions on a tile and on Crown pair 1 (R139). -/
theorem commissioning_elsewhere (hsel : f.sel = 0) (hk : coreKey c < 64 ∨ coreKey c = 65) :
    Faults (.ownset c f) c (encC 0xF3 f) s 5 0 ∧ Faults (.classset c f) c (encC 0xF4 f) s 5 0 ∧
      Faults (.taskset c f) c (encC 0xF5 f) s 5 0 ∧ Faults (.codeload c f) c (encC 0xF6 f) s 5 0 ∧
      Faults (.ringset c f) c (encC 0xF7 f) s 5 0 := by
  have hbad : (f.sel != 0) = false := by simp [hsel]
  have hk' := hk.imp_right fun hk => (⟨rfl, hk⟩ : true = true ∧ coreKey c = 65)
  refine ⟨?_, ?_, ?_, ?_, ?_⟩
  · show execOwnset c f s = _
    exact privileged_faults h hbad hk'
  · show execClassset c f s = _
    exact privileged_faults h hbad hk'
  · show execTaskset c f s = _
    exact privileged_faults h (by simp [hsel]) hk'
  · show execCodeload c f s = _
    exact privileged_faults h hbad hk'
  · show execRingset c f s = _
    exact privileged_faults h (by simp [hsel]) hk'

section
variable (hk : coreKey c = 64)
include hk

/-- A commissioning instruction that answers a result code other than ACCEPTED (R197). -/
theorem commissioning_refuses {w : Word} {bad : Bool} {body : Nat → State → Res} {d res : Nat} (hb : bad = false)
    (he : body (coreKey c) s = .next (s.result (coreKey c) d res)) (hres : res ≠ 0) :
    privileged c w bad true body s = .next (s.instrEnd (coreKey c) { s.afterR (coreKey c) d (wd res) with
      fl := setBit (s.core (coreKey c)).fl 5 true, errc := setFld (s.core (coreKey c)).errc 15 8 (refuseOf res) }) :=
  privileged_refuses h hb (by omega) (fun _ => hk) he hres

/-- The commissioning instructions outside IDLE and COMMISSION (R139, R197). -/
theorem commissioning_denied (hsel : f.sel = 0) (h2 : s.mode ≠ 2) (h3 : s.mode ≠ 3) :
    let denied := { s.afterR (coreKey c) f.d.toNat 1 with
      fl := setBit (s.core (coreKey c)).fl 5 true, errc := setFld (s.core (coreKey c)).errc 15 8 3 }
    Completes (.ownset c f) c s denied ∧ Completes (.classset c f) c s denied ∧ Completes (.ringset c f) c s denied ∧
      Completes (.taskset c f) c s denied ∧ Completes (.codeload c f) c s denied := by
  have hbad : (f.sel != 0) = false := by simp [hsel]
  have hmode : s.commissioning = false := by simp [State.commissioning, h2, h3]
  have hbody (t u : Res) : (if !s.commissioning then t else u) = t := if_pos (by rw [hmode]; rfl)
  refine ⟨?_, ?_, ?_, ?_, ?_⟩
  · show execOwnset c f s = _
    exact commissioning_refuses h hk (res := 1) hbad (hbody ..) (by decide)
  · show execClassset c f s = _
    exact commissioning_refuses h hk (res := 1) hbad (hbody ..) (by decide)
  · show execRingset c f s = _
    exact commissioning_refuses h hk (res := 1) (by simp [hsel]) (hbody ..) (by decide)
  · show execTaskset c f s = _
    exact commissioning_refuses h hk (res := 1) (by simp [hsel]) (hbody ..) (by decide)
  · show execCodeload c f s = _
    exact commissioning_refuses h hk (res := 1) hbad (hbody ..) (by decide)

/-! ### Owners, classes and tasks -/

variable (hcomm : s.mode = 2 ∨ s.mode = 3)
include hcomm

theorem ownset_assigns (hsel : f.sel = 0) (ho : ownable (fld (s.g (coreKey c) f.a.toNat) 19 0) = true) :
    exec (.ownset c f) s = .next ((s.setOwner (fld (s.g (coreKey c) f.a.toNat) 19 0) (fld (s.g (coreKey c) f.d.toNat) 5 0)).instrEnd
      (coreKey c) (s.afterR (coreKey c) f.d.toNat 0)) := by
  show execOwnset c f s = _
  refine privileged_accepts h (by simp [hsel]) (by omega) (fun _ => hk)
    (v := s.setOwner (fld (s.g (coreKey c) f.a.toNat) 19 0) (fld (s.g (coreKey c) f.d.toNat) 5 0)) ?_ rfl (fun _ => rfl) rfl
  simp only [commissioning_body hcomm, ho, Bool.not_true, Bool.false_eq_true, if_false]
  rfl

theorem ownset_refuses (hsel : f.sel = 0) (ho : ownable (fld (s.g (coreKey c) f.a.toNat) 19 0) = false) :
    Completes (.ownset c f) c s { s.afterR (coreKey c) f.d.toNat (wd 4) with
      fl := setBit (s.core (coreKey c)).fl 5 true, errc := setFld (s.core (coreKey c)).errc 15 8 4 } := by
  show execOwnset c f s = _
  refine commissioning_refuses h hk (res := 4) (by simp [hsel]) ?_ (by decide)
  simp only [commissioning_body hcomm, ho, Bool.not_false, if_true]
  rfl

theorem classset_assigns (hsel : f.sel = 0) (hm : (s.g (coreKey c) f.a.toNat).toNat < 2 ^ 16) :
    exec (.classset c f) s = .next ((s.setReg (offMask (fld (s.g (coreKey c) f.d.toNat) 5 0)) (s.g (coreKey c) f.a.toNat)).instrEnd
      (coreKey c) (s.afterR (coreKey c) f.d.toNat 0)) := by
  show execClassset c f s = _
  refine privileged_accepts h (by simp [hsel]) (by omega) (fun _ => hk)
    (v := s.setReg (offMask (fld (s.g (coreKey c) f.d.toNat) 5 0)) (s.g (coreKey c) f.a.toNat)) ?_ rfl (fun _ => rfl) rfl
  simp only [commissioning_body hcomm, (classMask_iff _).2 hm, Bool.false_eq_true, if_false]
  rfl

theorem classset_refuses (hsel : f.sel = 0) (hm : 2 ^ 16 ≤ (s.g (coreKey c) f.a.toNat).toNat) :
    Completes (.classset c f) c s { s.afterR (coreKey c) f.d.toNat (wd 4) with
      fl := setBit (s.core (coreKey c)).fl 5 true, errc := setFld (s.core (coreKey c)).errc 15 8 4 } := by
  have hmask : (fld (s.g (coreKey c) f.a.toNat) 35 16 != 0) = true := by
    rw [← Bool.not_eq_false, classMask_iff]
    omega
  show execClassset c f s = _
  refine commissioning_refuses h hk (res := 4) (by simp [hsel]) ?_ (by decide)
  simp only [commissioning_body hcomm, hmask, if_true]
  rfl

section
variable {ws : List Word} {n : Nat} (hws : ws = (List.range 16).map (fun i => s.wordAt (coreKey c) (s.g (coreKey c) f.a.toNat + wd i).toNat))
  (hsel : f.sel.toNat < 2048) (hr : s.mayReach (coreKey c) false (s.g (coreKey c) f.a.toNat) 16 = true)
  (hc : f.sel.toNat < 1024 ∨ f.sel.toNat / 64 % 16 = 0) (hn : n = if f.sel.toNat < 1024 then f.sel.toNat else 1024 + f.sel.toNat % 64)
include hws hsel hr hc hn

/-- TASKSET of a task or a descriptor that is refused (R199). -/
theorem taskset_refuses {res : Nat} (hres : res ≠ 0) (hset : s.taskSet n ws = (res, s)) :
    Completes (.taskset c f) c s { s.afterR (coreKey c) f.d.toNat (wd res) with
      fl := setBit (s.core (coreKey c)).fl 5 true, errc := setFld (s.core (coreKey c)).errc 15 8 (refuseOf res) } := by
  obtain ⟨body, hexec, hbody⟩ := taskset_body hcomm hws hsel hr hc
  rw [← hn, hset] at hbody
  exact hexec.trans (commissioning_refuses h hk (by simp; omega) hbody hres)

/-- TASKSET of a task that is not in use with a descriptor that passes (R199). -/
theorem taskset_accepts (hbusy : (s.task n).busy = false) (hok : taskDescOk n ws = true) :
    ∃ u, exec (.taskset c f) s = .next u ∧ (u.task n).desc = (if fld (ws.getD 0 0) 35 34 = 0 then [] else ws) ∧
      (u.task n).queue = (s.task n).queue ∧ ((u.task n).st = .unused ↔ fld (ws.getD 0 0) 35 34 = 0) ∧
      (∀ j, j ≠ n → u.task j = s.task j) ∧
      u = { s.instrEnd (coreKey c) (s.afterR (coreKey c) f.d.toNat 0) with tasks := u.tasks } := by
  obtain ⟨body, hexec, hbody⟩ := taskset_body hcomm hws hsel hr hc
  have hset : s.taskSet n ws = (resOk, s.putDesc n ws) := by simp [State.taskSet, hbusy, hok]
  rw [← hn, hset] at hbody
  have heq := putDesc_eq s n ws
  have htask := putDesc_task s n ws
  have hother : ∀ j, j ≠ n → (s.putDesc n ws).task j = s.task j := fun j hj => putDesc_task_ne s ws hj
  have hwdog : ∀ m, ((s.putDesc n ws).task m).wdog = (s.task m).wdog := fun m => by
    by_cases hm : m = n
    · rw [hm, htask]
      split <;> rfl
    · rw [hother m hm]
  generalize s.putDesc n ws = v at heq htask hother hwdog hbody
  have hcores : v.cores = s.cores := by rw [heq]
  have hhost : v.host = s.host := by rw [heq]
  refine ⟨_, hexec.trans (privileged_accepts h (v := v) (r := 0) (by simp; omega) (by omega) (fun _ => hk) hbody hcores hwdog hhost), ?_⟩
  have hv : (v.instrEnd (coreKey c) (s.afterR (coreKey c) f.d.toNat 0)).task n = v.task n := rfl
  rw [hv, htask]
  refine ⟨?_, ?_, ?_, hother, ?_⟩
  · split <;> rfl
  · split <;> rfl
  · split
    next h0 => exact iff_of_true rfl h0
    next h0 =>
      refine iff_of_false ?_ h0
      show (if (s.task n).st = .unused then TState.idle else (s.task n).st) ≠ .unused
      split
      · decide
      · assumption
  · rw [heq]
    rfl

end

end

end

end Sys2Proof.Machine
end

section
/-! SUPPORT. MODE (R43, R196, R208, R571, R572). -/

namespace Sys2Proof.Machine

/-- A task as it is under an orderly stop, if stop. -/
def Task.stopIf (t : Task) (stop : Bool) : Task := { t with stopping := t.stopping || stop }

@[simp] theorem Task.stopIf_diag (t : Task) (stop : Bool) : (t.stopIf stop).diag = t.diag := rfl
theorem Task.stopIf_false (t : Task) : t.stopIf false = t := by simp [Task.stopIf]
@[simp] theorem Task.stopIf_stopIf (t : Task) (stop : Bool) : (t.stopIf stop).stopIf stop = t.stopIf stop := by
  simp [Task.stopIf]

section
variable (s : State) (m : Nat)

/-! ### The beginning of a transition (R208, R571) -/

theorem stopFor_eq (j : Nat) : s.stopFor m j = { s with tasks := (s.stopFor m j).tasks } := by
  unfold State.stopFor
  dsimp only
  split
  · split <;> rfl
  · rfl
  · rfl

theorem stopFor_wdog (j n : Nat) : ((s.stopFor m j).task n).wdog = (s.task n).wdog := by
  have hput (x : Task) (hx : x.wdog = (s.task j).wdog) : ((s.setTask j x).task n).wdog = (s.task n).wdog := by
    by_cases hn : n = j
    · rw [hn, setTask_task, hx]
    · rw [setTask_task_ne _ _ _ _ hn]
  unfold State.stopFor
  dsimp only
  split
  · split
    · exact hput _ rfl
    · rfl
  · exact hput _ rfl
  · rfl

/-- A running task comes under an orderly stop if the mode entered does not grant it (R208). -/
theorem stopFor_running {n : Nat} (h : (s.task n).st = .running) (j : Nat) : (s.stopFor m j).task n =
    if j = n then (s.task n).stopIf (!modeGrants m (s.task n).diag) else s.task n := by
  by_cases hj : j = n
  · subst hj
    rw [if_pos rfl]
    unfold State.stopFor
    simp only [h]
    cases modeGrants m (s.task j).diag
    · simp [Task.stopIf, h]
    · simp [Task.stopIf_false]
  · rw [if_neg hj]
    unfold State.stopFor
    dsimp only
    split
    · split
      · exact setTask_task_ne _ _ _ _ (Ne.symm hj)
      · rfl
    · exact setTask_task_ne _ _ _ _ (Ne.symm hj)
    · rfl

theorem stopFors_eq (l : Tab Task) : l.foldl (fun s e => s.stopFor m e.1) s =
    { s with tasks := (l.foldl (fun s e => s.stopFor m e.1) s).tasks } := by
  induction l generalizing s with
  | nil => rfl
  | cons e r ih =>
    rw [List.foldl_cons, ih, stopFor_eq]

theorem stopFors_wdog (l : Tab Task) (n : Nat) :
    ((l.foldl (fun s e => s.stopFor m e.1) s).task n).wdog = (s.task n).wdog := by
  induction l generalizing s with
  | nil => rfl
  | cons e r ih => rw [List.foldl_cons, ih, stopFor_wdog]

/-- The orderly stops of a list of tasks: that of a running task begins once, however often the list names it. -/
theorem stopFors_running (l : Tab Task) {n : Nat} (h : (s.task n).st = .running) :
    (l.foldl (fun s e => s.stopFor m e.1) s).task n = if n ∈ l.map Prod.fst then
      (s.task n).stopIf (!modeGrants m (s.task n).diag) else s.task n := by
  induction l generalizing s with
  | nil => rfl
  | cons e r ih =>
    have he := stopFor_running s m h e.1
    rw [List.foldl_cons, ih _ (by rw [he]; split <;> exact h), he]
    by_cases hn : e.1 = n
    · simp [hn]
    · have hin : n ∈ List.map Prod.fst (e :: r) ↔ n ∈ r.map Prod.fst := by simp [Ne.symm hn]
      simp only [if_neg hn, hin]

/-- The state in which the orderly stops of a transition begin. -/
def State.transit (cause : Nat) : State :=
  { s with regs := (s.setRfld offSysMode 7 7 1).regs, modes := { s.modes with trans := some (m, cause) } }

theorem beginTransition_stops (cause : Nat) : s.beginTransition m cause =
    s.tasks.foldl (fun s e => s.stopFor m e.1) (s.transit m cause) := rfl

theorem beginTransition_eq (cause : Nat) : s.beginTransition m cause =
    { s with
      regs := (s.setRfld offSysMode 7 7 1).regs
      modes := { s.modes with trans := some (m, cause) }
      tasks := (s.beginTransition m cause).tasks } := by
  rw [beginTransition_stops]
  exact stopFors_eq (s.transit m cause) m s.tasks

theorem beginTransition_wdog (cause n : Nat) : ((s.beginTransition m cause).task n).wdog = (s.task n).wdog := by
  rw [beginTransition_stops, stopFors_wdog]
  rfl

theorem beginTransition_running (cause : Nat) {n : Nat} (h : (s.task n).st = .running) : (s.beginTransition m cause).task n =
    (s.task n).stopIf (!modeGrants m (s.task n).diag) := by
  have hmem : n ∈ s.tasks.map Prod.fst :=
    List.mem_map_of_mem (f := Prod.fst) (Tab.mem_of_get_ne (d := ({} : Task)) fun h0 => by
      rw [State.task, h0] at h
      exact absurd h (by decide))
  have htask : (s.transit m cause).task n = s.task n := rfl
  rw [beginTransition_stops, stopFors_running _ m _ (by rw [htask, h]), if_pos hmem, htask]

/-- TRANS is 1, and the mode stays (R571). -/
theorem beginTransition_mode (cause : Nat) :
    bit ((s.beginTransition m cause).reg offSysMode) 7 = true ∧ (s.beginTransition m cause).mode = s.mode := by
  have hreg : (s.beginTransition m cause).reg offSysMode = setFld (s.reg offSysMode) 7 7 1 := by
    rw [beginTransition_eq]
    exact setRfld_reg ..
  refine ⟨by rw [hreg, bit_setFld_same _ _ (by omega)]; rfl, ?_⟩
  rw [State.mode, State.rfld, hreg, fld_setFld_other _ _ (by omega)]
  rfl

end

/-! ### The instruction -/

section
variable {c : CoreId} {f : CF} {s : State} (h : requestReady c s = true) (hk : 64 ≤ coreKey c) (hsel : f.sel = 0)
  (hup : s.holdup = false) (hreset : s.modes.inReset = false) (htrans : s.modes.trans = none) (h5 : s.mode ≠ 5)

section
include h hk hsel

/-- MODE of a request that is refused (R197). -/
theorem mode_refuses {res : Nat} (hres : res ≠ 0)
    (he : s.modeRequest (coreKey c) (fld (s.g (coreKey c) f.a.toNat) 3 0) (some f.d.toNat) = (res, s)) :
    Completes (.mode c f) c s { s.afterR (coreKey c) f.d.toNat (wd res) with
      fl := setBit (s.core (coreKey c)).fl 5 true, errc := setFld (s.core (coreKey c)).errc 15 8 (refuseOf res) } := by
  show execMode c f s = _
  exact privileged_refuses h (by simp [hsel]) hk (by simp) (by dsimp only; rw [he]) hres

end

include hup hreset htrans h5

theorem modeRequest_absent {k m : Nat} {gd : Option Nat} (ha : s.modeAllowed m = false) : s.modeRequest k m gd = (1, s) := by
  simp [State.modeRequest, hup, hreset, htrans, h5, ha, resNotAllowed]

theorem modeRequest_classes {k m : Nat} {gd : Option Nat} (ha : s.modeAllowed m = true) (hm : m = 4) (h1 : s.mode ≠ 1)
    (hcls : s.classesOk = false) : s.modeRequest k m gd = (4, s) := by
  subst hm
  simp [State.modeRequest, hup, hreset, htrans, h5, ha, h1, hcls, resRange]

/-- A request that no other order meets begins its transition (R43, R572). -/
theorem modeRequest_begins {k m : Nat} {gd : Option Nat} (ha : s.modeAllowed m = true)
    (hcls : m ≠ 4 ∨ s.mode = 1 ∨ s.classesOk = true) (ho : s.orders = []) :
    ∃ o, s.modeRequest k m gd = (0, { s with orders := [o] }.beginTransition m (if k = 65 then 2 else 3)) := by
  have hc : (m = 4 && s.mode != 1 && !s.classesOk) = false := by
    rcases hcls with hm | hm | hm <;> simp [hm]
  refine ⟨{ kind := 1, idx := 0, value := m, src := coreSrc k, code := if (s.respOf k).isSome then 2 else 0xF0
            resp := s.respOf k, gd := gd, tasks := s.tasks }, ?_⟩
  simp [State.modeRequest, hup, hreset, htrans, h5, ha, hc, rankOrder_first _ ho, ho, resOk]

include h hk hsel

/-- MODE of a request that the table holds begins its transition (R208, R571, R572). -/
theorem mode_begins {m : Nat} (hm : m = fld (s.g (coreKey c) f.a.toNat) 3 0) (ha : s.modeAllowed m = true)
    (hcls : m ≠ 4 ∨ s.mode = 1 ∨ s.classesOk = true) (ho : s.orders = []) :
    ∃ u, exec (.mode c f) s = .next u ∧ u.core (coreKey c) = s.afterR (coreKey c) f.d.toNat 0 ∧
      bit (u.reg offSysMode) 7 = true ∧ u.mode = s.mode ∧
      u.modes.trans = some (m, if coreKey c = 65 then 2 else 3) ∧ u.loc = s.loc ∧ u.lanes = s.lanes ∧ u.axes = s.axes ∧
      (∀ n, (s.task n).st = .running → u.task n = { s.task n with
        stopping := (s.task n).stopping || !modeGrants m (s.task n).diag }) := by
  obtain ⟨o, hreq⟩ := modeRequest_begins hup hreset htrans h5 (k := coreKey c) (gd := some f.d.toNat) ha hcls ho
  have heq := beginTransition_eq { s with orders := [o] } m (if coreKey c = 65 then 2 else 3)
  have hmode := beginTransition_mode { s with orders := [o] } m (if coreKey c = 65 then 2 else 3)
  have hwdog := beginTransition_wdog { s with orders := [o] } m (if coreKey c = 65 then 2 else 3)
  have hrun := fun n => beginTransition_running { s with orders := [o] } m (if coreKey c = 65 then 2 else 3) (n := n)
  generalize { s with orders := [o] }.beginTransition m (if coreKey c = 65 then 2 else 3) = v at *
  refine ⟨v.instrEnd (coreKey c) (s.afterR (coreKey c) f.d.toNat 0), ?_, core_instrEnd .., hmode.1, hmode.2, by rw [heq]; rfl,
    by rw [heq]; rfl, by rw [heq]; rfl, by rw [heq]; rfl, hrun⟩
  show execMode c f s = _
  exact privileged_accepts h (by simp [hsel]) hk (by simp) (v := v) (by dsimp only; rw [← hm, hreq]; rfl) (by rw [heq]) hwdog
    (by rw [heq])

end

end Sys2Proof.Machine
end

section
/-! SUPPORT. CENSUS and CODELOAD (R42, R114, R196). -/

namespace Sys2Proof.Machine

/-! ### Code in many tiles (R114) -/

/-- Words from offset on of a tile's local memory, and another tile's. -/
theorem locWrites_word (s : State) {t j off i : Nat} {ws : List Word} (hoff : off + ws.length ≤ 0x10000) (hi : i < 0x10000) :
    (s.locWrites t off ws).locWord j i = if j = t ∧ off ≤ i ∧ i < off + ws.length then ws.getD (i - off) 0 else s.locWord j i := by
  have hw := locWrites_wrote s (k := t) ws hoff
  have hlocal (u : State) : u.wordAt t i = u.locWord t i := if_pos hi
  by_cases hj : j = t
  · subst hj
    by_cases hin : off ≤ i ∧ i < off + ws.length
    · have hat := hw.written (i - off) (by omega)
      rw [if_pos ⟨rfl, hin⟩, ← hat, Nat.add_sub_cancel' hin.1, hlocal]
    · rw [if_neg fun hc => hin hc.2, ← hlocal, ← hlocal, hw.frame i (by omega)]
  · rw [if_neg fun hc => hj hc.1, hw.others j i hj hi]

theorem loadCode_eq (s : State) (mask off : Nat) (ws : List Word) :
    s.loadCode mask off ws = { s with loc := (s.loadCode mask off ws).loc } := by
  unfold State.loadCode
  generalize List.range 64 = l
  induction l generalizing s with
  | nil => rfl
  | cons t r ih =>
    rw [List.foldl_cons, ih]
    split
    · rw [locWrites_eq]
    · rfl

/-- Tile-local memory after code has been loaded: the words stand in each tile that the list holds and the mask names. -/
theorem loadTiles_word (l : List Nat) {mask off : Nat} {ws : List Word} (hoff : off + ws.length ≤ 0x10000) (s : State) (j : Nat)
    {i : Nat} (hi : i < 0x10000) :
    (l.foldl (fun s t => if mask.testBit t then s.locWrites t off ws else s) s).locWord j i =
      if (j ∈ l ∧ mask.testBit j = true) ∧ off ≤ i ∧ i < off + ws.length then ws.getD (i - off) 0 else s.locWord j i := by
  induction l generalizing s with
  | nil => simp
  | cons t r ih =>
    rw [List.foldl_cons, ih]
    by_cases hm : mask.testBit t = true
    · rw [if_pos hm, locWrites_word s hoff hi]
      by_cases hj : j = t
      · subst hj
        by_cases hin : off ≤ i ∧ i < off + ws.length
        · simp [hm, hin]
        · simp [hin]
      · simp [hj]
    · rw [if_neg hm]
      by_cases hj : j = t
      · subst hj
        simp [hm]
      · simp [hj]

theorem loadCode_word (s : State) {mask off : Nat} {ws : List Word} (hoff : off + ws.length ≤ 0x10000) {j i : Nat} (hj : j < 64)
    (hi : i < 0x10000) : (s.loadCode mask off ws).locWord j i =
      if mask.testBit j = true ∧ off ≤ i ∧ i < off + ws.length then ws.getD (i - off) 0 else s.locWord j i := by
  unfold State.loadCode
  rw [loadTiles_word (List.range 64) hoff s j hi]
  simp only [List.mem_range, hj, true_and]

section
variable {c : CoreId} {f : CF} {s : State} (h : requestReady c s = true)
include h

/-! ### CENSUS -/

/-- CENSUS op 0: the table is copied (R42). -/
theorem censusCopy_stores (hsel : f.sel = 0) (hr : s.mayReach (coreKey c) true (s.g (coreKey c) f.a.toNat) 1840 = true)
    (hk : 64 ≤ coreKey c) (hmeets : s.meets censusBase 1840 = (false, s)) :
    ∃ u, exec (.censusCopy c f) s = .next u ∧ Stored s u (coreKey c) (s.afterR (coreKey c) f.d.toNat (s.reg offCensusSeq))
      (s.g (coreKey c) f.a.toNat).toNat (s.words censusBase 1840) := by
  have hread : s.agentRead censusBase 1840 = (s.words censusBase 1840, false, s) := by
    obtain ⟨hp, hs⟩ := Prod.mk.inj hmeets
    simp only [State.agentRead, hs] at hp ⊢
    rw [hp]
  have hlen : (s.words censusBase 1840).length = 1840 := by simp [State.words]
  obtain ⟨t, hw, hemit⟩ := emit_run (ws := s.words censusBase 1840) (by rw [hlen]; exact hr)
  have hreg : t.reg offCensusSeq = s.reg offCensusSeq := by rw [hw.rest]; rfl
  have htask : t.tasks = s.tasks := by rw [hw.rest]
  have hhost : t.host = s.host := by rw [hw.rest]
  have hcore := hw.core (coreKey c)
  refine ⟨t.instrEnd (coreKey c) (s.afterR (coreKey c) f.d.toNat (s.reg offCensusSeq)), ?_, hw.stored _⟩
  show execCensusCopy c f s = _
  refine privileged_accepts h (by simp [hsel]) hk (by simp) (v := t) ?_ ?_ ?_ hhost
  · dsimp only
    rw [accessN_run false hr, hread]
    simp only [reduceCtorEq, Bool.false_eq_true, if_false]
    rw [hemit, hreg]
  · rw [hw.rest]
  · intro n
    rw [State.task, htask]
    rfl

/-- CENSUS op 1: a check more, at the next cell clock (R196). -/
theorem censusExtraCheck_orders (hsel : f.sel = 1) (hk : 64 ≤ coreKey c) (hsample : s.census.sample = none) :
    exec (.censusExtraCheck c f) s = .next (State.instrEnd { s with census := { s.census with
        extra := some (s.cc + 1), apart := s.censusRuns && s.censusDue } } (coreKey c)
      (s.afterR (coreKey c) f.d.toNat (s.reg offCensusSeq + 1 + (if s.censusRuns && s.censusDue then 1 else 0)))) := by
  have hn : wd (s.census.unchecked + b2n (s.censusRuns && s.censusDue)) = if s.censusRuns && s.censusDue then 1 else 0 := by
    cases s.censusRuns && s.censusDue <;> simp [Census.unchecked, hsample, b2n, wd]
  show execCensusExtraCheck c f s = _
  rw [← hn]
  exact privileged_accepts h (by simp [hsel]) hk (by simp) (v := { s with census := { s.census with
    extra := some (s.cc + 1), apart := s.censusRuns && s.censusDue } }) rfl rfl (fun _ => rfl) rfl

/-! ### CODELOAD -/

/-- CODELOAD puts words into the code region of the tiles that its mask names (R114, R196). -/
theorem codeload_loads (hk : coreKey c = 64) (hcomm : s.mode = 2 ∨ s.mode = 3) (hsel : f.sel = 0)
    (hr : s.mayReach (coreKey c) false (s.g (coreKey c) f.a.toNat) 5 = true) {ds : Nat → Word} {src : Word} {n mask : Nat}
    (hds : ds = fun i => s.wordAt (coreKey c) (s.g (coreKey c) f.a.toNat + wd i).toNat) (hsrc : src = ds 0) (hn : n = (ds 1).toNat)
    (hmask : mask = (dword (ds 3) (ds 4)).toNat) (hone : inOneRange src.toNat n = true) (hfit : (ds 2).toNat + n ≤ 0xE000)
    (hmask64 : mask < 2 ^ 64) (hsrcs : s.mayReach (coreKey c) false src n = true) :
    ∃ u, exec (.codeload c f) s = .next u ∧ u.core (coreKey c) = s.afterR (coreKey c) f.d.toNat 0 ∧
      (∀ t < 64, mask.testBit t = true → ∀ i < n,
        u.locWord t ((ds 2).toNat + i) = s.wordAt (coreKey c) (src + wd i).toNat) ∧
      (∀ t < 64, mask.testBit t = false → ∀ i < 65536, u.locWord t i = s.locWord t i) ∧
      u = { s.instrEnd (coreKey c) (s.afterR (coreKey c) f.d.toNat 0) with loc := u.loc } := by
  have hlen : ((List.range n).map (fun i => s.wordAt (coreKey c) (src + wd i).toNat)).length = n := by simp
  have hget : ∀ i < n, ((List.range n).map (fun i => s.wordAt (coreKey c) (src + wd i).toNat)).getD i 0 =
      s.wordAt (coreKey c) (src + wd i).toNat := fun i hi => by simp [hi]
  have hread := consume_run false hsrcs
  generalize (List.range n).map (fun i => s.wordAt (coreKey c) (src + wd i).toNat) = ws at *
  have hbad : (!inOneRange src.toNat n || decide (0xE000 < (ds 2).toNat + n) || decide (2 ^ 64 ≤ mask)) = false := by
    simp [hone]
    omega
  have heq := loadCode_eq s mask (ds 2).toNat ws
  have hword := fun t ht i hi => loadCode_word s (mask := mask) (off := (ds 2).toNat) (ws := ws) (by omega) (j := t) (i := i) ht hi
  generalize hv : s.loadCode mask (ds 2).toNat ws = v at *
  refine ⟨v.instrEnd (coreKey c) (s.afterR (coreKey c) f.d.toNat 0), ?_, core_instrEnd .., fun t ht hb i hi => ?_,
    fun t ht hb i hi => ?_, ?_⟩
  · show execCodeload c f s = _
    refine privileged_accepts h (by simp [hsel]) (by omega) (fun _ => hk) (v := v) ?_ (by rw [heq]) (fun _ => by rw [heq]; rfl)
      (by rw [heq])
    have h5 : (List.range 5).map (fun i => s.wordAt (coreKey c) (s.g (coreKey c) f.a.toNat + wd i).toNat) =
      [src, ds 1, ds 2, ds 3, ds 4] := by rw [hsrc, hds]; rfl
    dsimp only
    rw [commissioning_body hcomm, consume_run false hr, h5]
    simp only [List.getD_cons_zero, List.getD_cons_succ, ← hn, ← hmask, hbad, Bool.false_eq_true, if_false]
    rw [hread, hv]
    rfl
  · refine (hword t ht _ (by omega)).trans ?_
    rw [if_pos ⟨hb, by omega, by omega⟩, Nat.add_sub_cancel_left, hget i hi]
  · refine (hword t ht i hi).trans (if_neg fun hc => ?_)
    rw [hb] at hc
    exact Bool.false_ne_true hc.1
  · rw [heq]
    rfl

end

end Sys2Proof.Machine
end

section
/-! SUPPORT. RINGSET: what pair 0 tells the nodes of a ring (R196, R347, R354, R355). -/

namespace Sys2Proof.Machine

/-! ### Messages to the nodes of a ring (R347, R355) -/

/-- Messages to the stations dsts have been queued on ring r between s and t: the ring's configurations and the other rings stay. -/
structure Told (s t : State) (r : Nat) (dsts : List Nat) : Prop where
  sent : (t.ring r).msgs.map MbxMsg.dst = (s.ring r).msgs.map MbxMsg.dst ++ dsts
  waiting : (t.ring r).waiting = (s.ring r).waiting
  cfg : (t.ring r).cfg = (s.ring r).cfg
  run : (t.ring r).run = (s.ring r).run
  others : ∀ q, q ≠ r → t.ring q = s.ring q
  rest : t = { s with rings := t.rings, census := t.census }

theorem Told.refl (s : State) (r : Nat) : Told s s r [] := ⟨(List.append_nil _).symm, rfl, rfl, rfl, fun _ _ => rfl, rfl⟩

theorem Told.trans {s t u : State} {r : Nat} {a b : List Nat} (h : Told s t r a) (g : Told t u r b) : Told s u r (a ++ b) where
  sent := by rw [g.sent, h.sent, List.append_assoc]
  waiting := g.waiting.trans h.waiting
  cfg := g.cfg.trans h.cfg
  run := g.run.trans h.run
  others q hq := (g.others q hq).trans (h.others q hq)
  rest := by
    have hg := g.rest
    have hh := h.rest
    generalize hr : u.rings = rs at *
    generalize hc : u.census = cs at *
    rw [hg, hh]

/-- A ring of which no more is changed than what its nodes have been told. -/
theorem setRing_told (s : State) (r : Nat) (told : Tab (Option (Int × Int))) :
    Told s (s.setRing r { s.ring r with told := told }) r [] := by
  refine ⟨?_, ?_, ?_, ?_, fun q hq => setRing_ring_ne _ _ _ _ hq, rfl⟩
  all_goals rw [setRing_ring]
  simp

theorem mbxSend_told (s : State) (r dst src : Nat) (data : List Byte) : Told s (s.mbxSend r dst src data) r [dst] := by
  have hring (x : Ring) (i n q : Nat) : ((s.setRing r x).produce i n).ring q = (s.setRing r x).ring q := rfl
  refine ⟨?_, ?_, ?_, ?_, fun q hq => ?_, rfl⟩
  all_goals rw [State.mbxSend, hring]
  · rw [setRing_ring]
    simp
  · rw [setRing_ring]
  · rw [setRing_ring]
  · rw [setRing_ring]
  · exact setRing_ring_ne _ _ _ _ hq

/-- Bytes that an entry to a node of ring r may hold while configuration c is announced. -/
def State.newsRoom (s : State) (r : Nat) (c : RingCfg) : Nat :=
  match (s.ring r).cfg with
  | some d => if (s.ring r).run then min c.mbxmax d.mbxmax else c.mbxmax
  | none => c.mbxmax

theorem mbxNews_eq (s : State) (r : Nat) (c : RingCfg) (addr : Nat) (v : List Int) : s.mbxNews r c addr v =
    if s.newsRoom r c < 12 then s else s.mbxSend r addr c.master ((Config.nodeNews v).take (s.newsRoom r c - 12)) := rfl

theorem Told.room {s t : State} {r : Nat} {dsts : List Nat} (h : Told s t r dsts) (c : RingCfg) :
    t.newsRoom r c = s.newsRoom r c := by
  unfold State.newsRoom
  rw [h.cfg, h.run]

/-- Stations of the list dsts that have a message, if an entry holds one. -/
def heard (room : Nat) (dsts : List Nat) : List Nat := if room < 12 then [] else dsts

theorem heard_append (room : Nat) (a b : List Nat) : heard room a ++ heard room b = heard room (a ++ b) := by
  unfold heard
  split <;> rfl

theorem mbxNews_told (s : State) (r : Nat) (c : RingCfg) (addr : Nat) (v : List Int) :
    Told s (s.mbxNews r c addr v) r (heard (s.newsRoom r c) [addr]) := by
  rw [mbxNews_eq, heard]
  split
  · exact .refl s r
  · exact mbxSend_told ..

/-- What pair 0 tells the node of station i + 1. -/
def State.tellNode (s : State) (r : Nat) (c : RingCfg) (i : Nat) : State :=
  let x := s.ring r
  let same := x.cfg.map RingCfg.stations = some c.stations
  let d := if same then x.delays c.nodes (i + 1) else (0, 0)
  let s := if same && x.swept then s.setRing r { x with told := Tab.put none x.told (i + 1) (some d) } else s
  s.mbxNews r c (c.entry (i + 1)).1 [0, c.layout, (c.entry (i + 1)).2.1, (c.entry (i + 1)).2.2, c.slotlen, c.sampoff, c.applyOff,
    fld (c.word 2) 21 0, d.1, d.2]

theorem tellLayout_eq (s : State) (r : Nat) (c : RingCfg) : s.tellLayout r c =
    if c.mode = 0 then s else (List.range c.nodes).foldl (fun s i => s.tellNode r c i) s := rfl

theorem tellNode_told (s : State) (r : Nat) (c : RingCfg) (i : Nat) :
    Told s (s.tellNode r c i) r (heard (s.newsRoom r c) [(c.entry (i + 1)).1]) := by
  unfold State.tellNode
  extract_lets x same d t
  have ht : Told s t r [] := by
    show Told s (if _ then _ else _) r []
    split
    · exact setRing_told s r _
    · exact .refl s r
  rw [← ht.room c]
  exact ht.trans (mbxNews_told ..)

theorem tellNodes_told (r : Nat) (c : RingCfg) (l : List Nat) (s : State) :
    Told s (l.foldl (fun s i => s.tellNode r c i) s) r (heard (s.newsRoom r c) (l.map fun i => (c.entry (i + 1)).1)) := by
  induction l generalizing s with
  | nil =>
    have hnil : heard (s.newsRoom r c) [] = [] := by simp [heard]
    rw [List.map_nil, hnil]
    exact .refl s r
  | cons i l ih =>
    have hi := tellNode_told s r c i
    have hl := hi.trans (ih (s.tellNode r c i))
    rw [hi.room c, heard_append] at hl
    exact hl

/-- The nodes of a ring are told of a configuration. -/
theorem tellLayout_told (s : State) (r : Nat) {c : RingCfg} (h : c.mode ≠ 0) :
    Told s (s.tellLayout r c) r (heard (s.newsRoom r c) ((List.range c.nodes).map fun i => (c.entry (i + 1)).1)) := by
  rw [tellLayout_eq, if_neg h]
  exact tellNodes_told ..

/-! ### The instruction -/

section
variable {c : CoreId} {f : CF} {s : State} (h : requestReady c s = true) (hk : coreKey c = 64) (hcomm : s.mode = 2 ∨ s.mode = 3)
  (hsel : f.sel.toNat < 2) (hr : s.mayReach (coreKey c) false (s.g (coreKey c) f.a.toNat) 16 = true) {ws : List Word}
  (hws : ws = (List.range 16).map (fun i => s.wordAt (coreKey c) (s.g (coreKey c) f.a.toNat + wd i).toNat))
  (htable : s.tableRead ws = (none, s))

section
include hcomm hsel hr hws htable

/-- RINGSET comes to the check of the block that it has read (R354). -/
theorem ringset_body : ∃ body, exec (.ringset c f) s = privileged c (encC 0xF7 f) (f.sel.toNat / 2 != 0) true body s ∧
    body (coreKey c) s = let (res, t) := s.ringSet f.sel.toNat ws
      .next (t.result (coreKey c) f.d.toNat res) := by
  refine ⟨_, show execRingset c f s = _ from rfl, ?_⟩
  simp only [commissioning_body hcomm, consume_run false hr, ← hws, htable, Nat.mod_eq_of_lt hsel]

end

include h hk hcomm hsel hr hws htable

/-- RINGSET of a block whose check fails (R354). -/
theorem ringset_refuses (hcheck : s.ringCheck f.sel.toNat (s.ringBlock ws) = none) :
    Completes (.ringset c f) c s { s.afterR (coreKey c) f.d.toNat (wd 4) with
      fl := setBit (s.core (coreKey c)).fl 5 true, errc := setFld (s.core (coreKey c)).errc 15 8 4 } := by
  obtain ⟨body, hexec, hbody⟩ := ringset_body hcomm hsel hr hws htable
  have hset : s.ringSet f.sel.toNat ws = (4, s) := by
    unfold State.ringSet
    rw [hcheck]
    rfl
  rw [hset] at hbody
  exact hexec.trans (commissioning_refuses h hk (by simp; omega) hbody (by decide))

/-- RINGSET of a block whose check passes: the configuration waits, and the nodes are told of it (R354, R355). -/
theorem ringset_accepts {x : RingCfg} (hcheck : s.ringCheck f.sel.toNat (s.ringBlock ws) = some x) {n : Nat} (hn : n = f.sel.toNat) :
    ∃ u, exec (.ringset c f) s = .next u ∧
      u = { s.instrEnd (coreKey c) (s.afterR (coreKey c) f.d.toNat 0) with rings := u.rings, census := u.census } ∧
      (u.ring n).waiting = some (x, s.cc) ∧ (u.ring n).cfg = (s.ring n).cfg ∧ (∀ q, q ≠ n → u.ring q = s.ring q) ∧
      (x.mode = 0 → u.ring n = { s.ring n with waiting := some (x, s.cc) }) ∧
      (x.mode ≠ 0 → 12 ≤ s.newsRoom n x → (u.ring n).msgs.map MbxMsg.dst =
        (s.ring n).msgs.map MbxMsg.dst ++ (List.range x.nodes).map (fun i => (x.entry (i + 1)).1)) := by
  obtain ⟨body, hexec, hbody⟩ := ringset_body hcomm hsel hr hws htable
  generalize hs0 : s.setRing n { s.ring n with waiting := some (x, s.cc) } = s0
  have hring : s0.ring n = { s.ring n with waiting := some (x, s.cc) } := by rw [← hs0, setRing_ring]
  have hother : ∀ q, q ≠ n → s0.ring q = s.ring q := fun q hq => by rw [← hs0, setRing_ring_ne _ _ _ _ hq]
  have hroom : s0.newsRoom n x = s.newsRoom n x := by simp only [State.newsRoom, hring]
  have hset : s.ringSet f.sel.toNat ws = (0, s0.tellLayout n x) := by
    unfold State.ringSet
    rw [hcheck, ← hs0, hn]
    rfl
  have htold : ∃ dsts, Told s0 (s0.tellLayout n x) n dsts := by
    by_cases hx : x.mode = 0
    · exact ⟨[], by rw [tellLayout_eq, if_pos hx]; exact .refl s0 n⟩
    · exact ⟨_, tellLayout_told s0 n hx⟩
  have hoff : x.mode = 0 → s0.tellLayout n x = s0 := fun hx => by rw [tellLayout_eq, if_pos hx]
  have hon := fun hx : x.mode ≠ 0 => (tellLayout_told s0 n hx).sent
  rw [hset] at hbody
  obtain ⟨dsts, ht⟩ := htold
  generalize s0.tellLayout n x = v at *
  have hv : v = { s with rings := v.rings, census := v.census } := by
    have hrest := ht.rest
    generalize hrs : v.rings = rs at *
    generalize hcs : v.census = cs at *
    exact hrest.trans (by rw [← hs0]; rfl)
  refine ⟨v.instrEnd (coreKey c) (s.afterR (coreKey c) f.d.toNat 0), ?_, ?_, ?_, ?_, fun q hq => ?_, fun hx => ?_, fun hx h12 => ?_⟩
  · exact hexec.trans (privileged_accepts h (by simp; omega) (by omega) (fun _ => hk) (v := v) (r := 0) hbody (by rw [hv])
      (fun _ => by rw [hv]; rfl) (by rw [hv]))
  · rw [hv]
    rfl
  · exact ht.waiting.trans (by rw [hring])
  · exact ht.cfg.trans (by rw [hring])
  · exact (ht.others q hq).trans (hother q hq)
  · rw [hoff hx]
    exact hring
  · refine (hon hx).trans ?_
    rw [hroom, heard, if_neg (by omega), hring]

end

end Sys2Proof.Machine
end

section
/-! The obligation of the privileged instructions. -/

namespace Sys2Proof.Machine

/-- Settles O24: who may run each privileged instruction, then what each does on the Crown. -/
theorem crownInstructions : Obligations.CrownInstructions := by
  unfold Obligations.CrownInstructions
  refine ⟨fun c f s h hsel => ⟨fun hk => privileged_onTile h hsel hk, fun hk => commissioning_elsewhere h hsel hk,
    fun hk h2 h3 => commissioning_denied h hk hsel h2 h3⟩, fun c f s h => ?_⟩
  refine ⟨fun hk hsel hup hreset htrans h5 => ⟨fun ha => ?_, fun ha h4 h1 hcls => ?_, fun ha hcls ho => ?_⟩,
    fun hsel hr hk _ hmeets => censusCopy_stores h hsel hr hk hmeets,
    fun hsel hk hsample => ⟨_, censusExtraCheck_orders h hsel hk hsample, core_instrEnd .., ?_⟩,
    fun hk hcomm => ⟨fun hsel ho => ownset_assigns h hk hcomm hsel ho, fun hsel ho => ownset_refuses h hk hcomm hsel ho,
      fun hsel hm => classset_assigns h hk hcomm hsel hm, fun hsel hm => classset_refuses h hk hcomm hsel hm,
      fun hsel hr hc => ⟨fun hbusy => ?_, fun hbusy hok => ?_, fun hbusy hok => ?_⟩,
      fun hsel hr hone hfit hmask hsrc => ?_,
      fun hsel hr htable => ⟨fun hcheck => ringset_refuses h hk hcomm hsel hr rfl htable hcheck,
        fun x hcheck => ringset_accepts h hk hcomm hsel hr rfl htable hcheck rfl⟩⟩⟩
  · exact mode_refuses h hk hsel (res := 1) (by decide) (modeRequest_absent hup hreset htrans h5 ha)
  · exact mode_refuses h hk hsel (res := 4) (by decide) (modeRequest_classes hup hreset htrans h5 ha h4 h1 hcls)
  · exact mode_begins h hk hsel hup hreset htrans h5 rfl ha hcls ho
  · rw [core_instrEnd]
    rfl
  · exact taskset_refuses h hk hcomm rfl hsel hr hc rfl (res := 1) (by decide) (by rw [State.taskSet, hbusy]; rfl)
  · exact taskset_refuses h hk hcomm rfl hsel hr hc rfl (res := 4) (by decide) (by rw [State.taskSet, hbusy, hok]; rfl)
  · exact taskset_accepts h hk hcomm rfl hsel hr hc rfl hbusy hok
  · exact codeload_loads (ds := fun i => s.wordAt (coreKey c) (s.g (coreKey c) f.a.toNat + wd i).toNat) h hk hcomm hsel hr rfl rfl rfl
      rfl hone hfit hmask hsrc

end Sys2Proof.Machine
end
